-- ==== Sys2Proof/Word.lean ====
section
/-! DEFINITION. The word types of the module and their plainest arithmetic (R7: little-endian, bit 0 least
significant). Bit-field and byte-order helpers that a rule could show wrong stand in Machine/Ops.lean. -/

namespace Sys2Proof

/-- A 64-bit register, instruction word or command word. -/
abbrev Word := BitVec 64

/-- One byte of memory, of a record or of a packet. -/
abbrev Byte := BitVec 8

/-- A 64-byte record held whole: a launch record, a template, a gather request. Byte 0 is bits 7..0. -/
abbrev Rec64 := BitVec 512

/-- A logical core number c0 to c31 (R6). -/
abbrev CoreId := Fin 32

/-- An initiator identifier (R31) or event-source identifier (R538). -/
abbrev Ini := BitVec 8

/-- A 16-bit event code (R13). -/
abbrev Code := BitVec 16

/-- Sparse storage by key: keys strictly rising, and no entry equal to what an unlisted key reads as. The
canonical form and the accessors stand in Machine/Ops.lean. -/
abbrev SMap (α : Type) := List (Nat × α)

/-- Byte memory: a sparse map whose unlisted addresses read as 0. -/
abbrev Mem := SMap Byte

end Sys2Proof
end

