-- ==== Sys2Proof/Machine/Bits.lean ====
section
/-! DEFINITION. Bit fields, byte order (R7), saturating counters, register writes by halves (R487) and the sparse
map with its canonical form. Everything here is plain arithmetic on data; the machine's state comes later. -/

namespace Sys2Proof

/-! ### Bit fields -/

/-- Field of `len` bits from bit `lo` upward, as a number. -/
def fld {n : Nat} (w : BitVec n) (lo len : Nat) : Nat := (w.toNat >>> lo) % 2 ^ len

/-- Bit `i` of a word. -/
def bit {n : Nat} (w : BitVec n) (i : Nat) : Bool := w.getLsbD i

/-- The word with the field of `len` bits at `lo` replaced by `v` (taken modulo 2^len). -/
def setFld {n : Nat} (w : BitVec n) (lo len v : Nat) : BitVec n :=
  (w &&& ~~~(BitVec.ofNat n ((2 ^ len - 1) <<< lo))) ||| BitVec.ofNat n ((v % 2 ^ len) <<< lo)

/-- A one-bit field from a Bool. -/
def ofBool (b : Bool) : Nat := if b then 1 else 0

/-- Word with bit `i` set to `b`. -/
def setBit {n : Nat} (w : BitVec n) (i : Nat) (b : Bool) : BitVec n := setFld w i 1 (ofBool b)

/-- A 64-bit word put together from fields (low bit, width, value). -/
def pack (fs : List (Nat × Nat × Nat)) : Word :=
  fs.foldl (fun w f => setFld w f.1 f.2.1 f.2.2) 0

/-- A field of `len` bits read as a two's-complement number. -/
def toSigned (len v : Nat) : Int := if v % 2 ^ len < 2 ^ (len - 1) then (v % 2 ^ len : Nat) else (v % 2 ^ len : Nat) - 2 ^ len

/-- Signed field of a word. -/
def sfld {n : Nat} (w : BitVec n) (lo len : Nat) : Int := toSigned len (fld w lo len)

/-- An integer as `len`-bit two's complement. -/
def wrapN (len : Nat) (x : Int) : Nat := (x % 2 ^ len).toNat

/-- A counter that saturates at `max` (the manual's "saturates at"). -/
def satAdd (max x d : Nat) : Nat := min max (x + d)

/-! ### Initiator identifiers (R31) -/

/-- Whether an identifier is one that R31 assigns to an initiator; no access carries another (R31, R538). -/
def iniAssigned (i : Ini) : Bool :=
  decide (i.toNat ≤ 0x51) || [0x58, 0x59, 0x60, 0x61, 0x70, 0x71, 0x72].contains i.toNat ||
    (decide (0x80 ≤ i.toNat) && decide (i.toNat ≤ 0xBF))

/-! ### Register writes by halves -/

/-- Which bytes of a 64-bit register a write carries (R487). -/
inductive Half where
  | full | low | high
  deriving DecidableEq, Repr

/-- The value the register's writable bits would take: a 4-byte write leaves the other half as it was. The data of
a `low` or `high` write is in the low 32 bits of `v`. -/
def mergeHalf (h : Half) (old v : Word) : Word :=
  match h with
  | .full => v
  | .low  => setFld old 0 32 v.toNat
  | .high => setFld old 32 32 v.toNat

/-- For fields that act when written (WO, W1C, W1S): the bits the write carries, 0 elsewhere. -/
def carried (h : Half) (v : Word) : Word := mergeHalf h 0 v

/-- Whether a write carries bit `i` of the register. -/
def Half.covers (h : Half) (i : Nat) : Bool :=
  match h with
  | .full => true
  | .low  => decide (i < 32)
  | .high => decide (32 ≤ i)

/-- `old` with the bits of `mask` taken from `new` (RW fields under a mask). -/
def maskWrite (mask old new : Word) : Word := (old &&& ~~~mask) ||| (new &&& mask)

/-! ### Bytes -/

/-- The number a little-endian byte list spells (R7). -/
def leNat : List Byte → Nat
  | [] => 0
  | b :: bs => b.toNat + 256 * leNat bs

/-- The `n` low bytes of a number, lowest first (R7). -/
def leBytes : Nat → Nat → List Byte
  | 0, _ => []
  | n + 1, v => BitVec.ofNat 8 v :: leBytes n (v / 256)

/-- Big-endian bytes of a number. -/
def beBytes : Nat → Nat → List Byte
  | 0, _ => []
  | n + 1, v => BitVec.ofNat 8 (v / 256 ^ n) :: beBytes n v

/-- Number of a big-endian byte string. -/
def beNat (bs : List Byte) : Nat := bs.foldl (fun a b => 256 * a + b.toNat) 0

/-- Byte `i` of a 64-byte record. -/
def recByte (r : Rec64) (i : Nat) : Byte := BitVec.ofNat 8 (fld r (8 * i) 8)

/-- Field of a 64-byte record by byte offset and byte count. -/
def recField (r : Rec64) (off n : Nat) : Nat := fld r (8 * off) (8 * n)

/-- A 64-byte record with bytes stored from offset `off`; bytes past 0x3F are ignored. -/
def recStore (r : Rec64) (off : Nat) : List Byte → Rec64
  | [] => r
  | b :: bs => recStore (if off < 64 then setFld r (8 * off) 8 b.toNat else r) (off + 1) bs

/-- Whether a write of `n` bytes at `off` covers all of bytes `lo` to `hi` (R540). -/
def covers (off n lo hi : Nat) : Bool := decide (off ≤ lo) && decide (hi < off + n)

/-! ### Sparse maps -/

/-- Value at key `k`; `d` where nothing is listed. -/
def SMap.get {α : Type} (d : α) : SMap α → Nat → α
  | [], _ => d
  | (j, v) :: m, k => if j = k then v else SMap.get d m k

/-- The map with key `k` listed as `v`, in rising key order. -/
def SMap.insert {α : Type} (k : Nat) (v : α) : SMap α → SMap α
  | [] => [(k, v)]
  | (j, w) :: m =>
    if k < j then (k, v) :: (j, w) :: m
    else if k = j then (k, v) :: m
    else (j, w) :: SMap.insert k v m

/-- The map without key `k`. -/
def SMap.erase {α : Type} (k : Nat) : SMap α → SMap α
  | [] => []
  | (j, w) :: m => if k = j then m else (j, w) :: SMap.erase k m

/-- The map with `v` at `k`: listing the value an unlisted key reads as removes the entry. -/
def SMap.set {α : Type} [DecidableEq α] (d : α) (m : SMap α) (k : Nat) (v : α) : SMap α :=
  if v = d then SMap.erase k m else SMap.insert k v m

/-- The map without the keys that satisfy `p`. -/
def SMap.drop {α : Type} (p : Nat → Bool) (m : SMap α) : SMap α := m.filter fun e => !p e.1

/-- Keys above `lo` rise strictly, and no entry equals the default. -/
def SMap.wfFrom {α : Type} [DecidableEq α] (d : α) : Option Nat → SMap α → Bool
  | _, [] => true
  | lo, (k, v) :: m =>
    (match lo with | none => true | some l => decide (l < k)) && decide (v ≠ d) && SMap.wfFrom d (some k) m

/-- The canonical form: strictly rising keys and no default entry. -/
def SMap.wf {α : Type} [DecidableEq α] (d : α) (m : SMap α) : Bool := SMap.wfFrom d none m

/-! ### Byte memory -/

/-- The byte at `a`. An unlisted address reads as 0. -/
def Mem.byte (m : Mem) (a : Nat) : Byte := SMap.get 0 m a

/-- `n` bytes from `a` upward. -/
def Mem.read (m : Mem) (a : Nat) : Nat → List Byte
  | 0 => []
  | n + 1 => Mem.byte m a :: Mem.read m (a + 1) n

/-- Memory with one byte stored. -/
def Mem.put (m : Mem) (a : Nat) (b : Byte) : Mem := SMap.set 0 m a b

/-- Memory with the bytes stored from `a` upward. -/
def Mem.write (m : Mem) (a : Nat) : List Byte → Mem
  | [] => m
  | b :: bs => Mem.write (Mem.put m a b) (a + 1) bs

/-- The canonical form of a memory. -/
def Mem.wf (m : Mem) : Bool := SMap.wf 0 m

/-- Little-endian number of `n` bytes at `a`. -/
def Mem.num (m : Mem) (a n : Nat) : Nat := leNat (Mem.read m a n)

end Sys2Proof
end

