-- ==== Sys2Proof/Terms.lean ====
section
/-! DEFINITION. The operand types of the commands: what the outside world or a fault chooses when a step happens. -/

namespace Sys2Proof

/-- An initiator as an access carries it: an identifier that R31 assigns. No command can carry a reserved code or an
event-source identifier (R31, R33, R538). -/
abbrev Initiator := { i : Ini // iniAssigned i = true }

/-- What the sequencer's own storage does on a fetch (R75). -/
inductive FetchFault where
  /-- No error. -/
  | none
  /-- A single-bit error in the IMEM word: corrected, rewritten, counted and posted. -/
  | imemSingle
  /-- A double-bit error in the IMEM word. -/
  | imemDouble
  /-- A parity error in sequencer state or an engine queue entry on a read. -/
  | parity
  deriving DecidableEq, Repr

/-- What SEC-DED finds on a read of a stored word (R108, R337, R338). -/
inductive EccFault where
  | none | single | double
  deriving DecidableEq, Repr

/-- A storage fault of a scratchpad (R108). -/
inductive SpdFault where
  /-- Parity in control state: descriptors, windows, counters, gate, Cuff, launch slots. -/
  | control
  /-- A single-bit error in a bank word that an engine read. -/
  | bankSingle
  /-- A double-bit error in a bank word that an engine read. -/
  | bankDouble
  deriving DecidableEq, Repr

/-- What is wrong with a DDR burst that is read (R336): bits of a rank that read wrong, by beat and lane, or a burst from
another channel offset. -/
inductive DdrEcc where
  | none
  | flips (rank : Bool) (bits : List (Fin 8 × Fin 72))
  | wrongOffset
  deriving DecidableEq, Repr

/-- What goes wrong on an access's way over the package network (R423). -/
inductive NetFault where
  | none
  /-- A CRC or parity error on the n-th link of its way, and whether the one retry fails too. -/
  | link (n : Nat) (again : Bool)
  /-- Parity inside XD. -/
  | xd
  deriving DecidableEq, Repr

/-- The initiator of an access, and what goes wrong on its way. -/
structure SentBy where
  ini   : Initiator
  fault : NetFault
  deriving DecidableEq, Repr

/-- A read or a write of a DDR access. -/
inductive DdrOp where
  | read (n : Nat)
  | write (data : List Byte)
  deriving DecidableEq, Repr

/-- Who makes a DDR access: an identifier (R31), the partition its request carries where it carries one, and the
channel of a memory-die engine. -/
structure DdrReq where
  ini  : Initiator
  part : Fin 4
  chan : Fin 16
  deriving DecidableEq, Repr

/-- A DMA engine: a core's or a memory die's (R303). -/
inductive DmaEng where
  | core (c : CoreId)
  | die (d : Fin 2)
  deriving DecidableEq, Repr

/-- What the receiver finds wrong with a TLP (R488). -/
inductive TlpFault where
  | none | ecrc | poisoned
  deriving DecidableEq, Repr

/-- A configuration request, as far as the manual uses the configuration space (R484, R490, R491). -/
inductive CfgOp where
  | readId
  | memEn (b : Bool)
  | busMaster (b : Bool)
  | msixEn (b : Bool)
  | msixMask (b : Bool)
  | bar0 (v : Word)
  | bar2 (v : Word)
  | bar4 (v : Word)
  /-- Resizable BAR: log2 of the BAR4 size in GiB. -/
  | bar4Size (n : Fin 7)
  /-- Max Payload Size: 0 128 B, 1 256 B, 2 512 B. -/
  | mps (n : Fin 3)
  | d3hot (b : Bool)
  deriving DecidableEq, Repr

/-- A BAR with registers or launch slots that the host reads (R486, R498). -/
inductive HostSpace where
  | bar0 | bar2 | pf1
  deriving DecidableEq, Repr

/-- Where a register write goes: PF0 BAR0, from any initiator; PF1 BAR0; Cloche's channel B, from Crown (R454). -/
inductive RegSpace where
  | bar0 (ini : Initiator)
  | pf1
  | cloB
  deriving DecidableEq, Repr

/-- What Crown reads from a channel's DIMM at a start (R324, R325, R340), and whether the channel trains. -/
structure Dimm where
  present : Bool
  /-- A registered DIMM of 72 bits with ECC, not of a type R324 excludes. -/
  rdimm  : Bool
  /-- The data rate it is rated for, MT/s. -/
  rate   : Nat
  /-- Capacity in GiB. -/
  cap    : Nat
  ranks  : Nat
  /-- Device width ×4 or ×8, and density in Gb. -/
  width  : Nat
  dens   : Nat
  trains : Bool
  /-- A hard-repair resource is left. -/
  hard   : Bool
  deriving DecidableEq, Repr

/-- What the module finds when a start leaves its first step: the straps (R524), the repair records whose two copies
fail (R430), and the sixteen DIMMs. -/
structure StartEnv where
  /-- FAB_ORIGIN_N is low. -/
  origin : Bool
  smb    : BitVec 2
  testEn : Bool
  lost   : List (Fin 512)
  dimms  : Vector Dimm 16
  deriving DecidableEq, Repr

/-- A word of an ECC-protected ingest table (R129). -/
inductive IngTable where
  | tpl (t : Fin 16)
  | beam (t : Fin 16)
  | sens (s : Fin 16)
  | ext (s : Fin 16)
  | dup (s : Fin 16)
  deriving DecidableEq, Repr

/-- A storage fault of the ingest block (R129). -/
inductive IngFault where
  | single (w : IngTable)
  | double (w : IngTable)
  /-- Parity in the head frame of a receive FIFO. -/
  | fifo (p : Fin 4)
  /-- Parity in the next burst of a staging buffer. -/
  | staging (p : Fin 4)
  /-- Parity in the registers of a ring. -/
  | ringReg (p : Fin 4)
  deriving DecidableEq, Repr

/-- A scratchpad row group that has failed test 0x05: logical core, bank and row group (R431, R433). -/
abbrev RowFail := CoreId × Fin 16 × Fin 32

/-- What a partition's start tests found: the cores that failed, and the row groups. -/
structure CoreTests where
  bad  : BitVec 32
  rows : List RowFail
  deriving DecidableEq, Repr

/-- Where a module's start-time tests failed: the instance of the failing test, and the row groups. -/
structure TestPlace where
  inst : BitVec 16
  rows : List RowFail
  deriving DecidableEq, Repr

/-- What the lines to Gauntlet report: a word of its own SRAM corrected, a fault in itself, or a parity error of the event
unit (R413, R423). -/
inductive GntFault where
  | corrected
  | own
  | eventUnit
  deriving DecidableEq, Repr

/-- EVENT_n of a channel's DIMM, driven or let go (R334). -/
structure DimmEvent where
  ch  : Fin 16
  low : Bool
  deriving DecidableEq, Repr

/-- The temperature sensors as read, and whether the duplicated trip comparators have disagreed since (R513, R517). -/
structure ThermalReading where
  raw      : Vector (BitVec 16) 24
  mismatch : Bool
  deriving DecidableEq, Repr

/-- A clock or rail that Gauntlet monitors (R416). -/
inductive Monitor where
  /-- The 25 MHz reference and the XD clock. -/
  | ref | xd
  | memClk (m : Fin 2)
  | cclk (d : Fin 4)
  | vddC (d : Fin 4)
  | vddM | vddX | vddAo | ddrq
  /-- The SerDes analog rails, VDD_SA09 and VDD_SA12. -/
  | sa09 | sa12
  deriving DecidableEq, Repr

/-- What a monitor has measured for 5 µs: kHz or µV, 0 of a stopped clock. -/
structure Measured where
  monitor : Monitor
  value   : Nat
  deriving DecidableEq, Repr

/-- A fault of a grid builder (R157): a table word corrected, not correctable, or parity in queues and paths. -/
inductive BuilderFault where
  | single | double | parity
  deriving DecidableEq, Repr

/-- Whose residue or parity check fails; GEO tells the two apart, because QCNT counts its residue errors only (R175). -/
inductive EngFault where
  | mxe | sparse | vec | sel | geoResidue | geoParity | ray
  deriving DecidableEq, Repr

/-- A fabric packet as it arrives or leaves (R348): header fields, the reserved header bytes, PCRC and payload. -/
structure FabPkt where
  typ     : Fin 8
  dc      : Bool
  tc      : Bool
  dtr     : Fin 4
  sr      : Bool
  hops    : Byte
  dst     : BitVec 16
  src     : BitVec 16
  sinit   : Ini
  rsv7    : Byte
  args0   : Word
  args1   : Word
  rsv18   : BitVec 32
  pcrc    : BitVec 32
  payload : List Byte
  deriving DecidableEq, Repr

/-- The payload of a HELLO (R352). -/
structure Hello where
  ident  : Word
  port   : Fin 6
  slice  : Fin 64
  origin : Bool
  addr   : Word
  deriving DecidableEq, Repr

/-- What a MGMT packet that ends here carries beside its message: hops taken, source, and whether its PCRC is right. -/
structure MgmtHead where
  hops : Byte
  src  : BitVec 15
  good : Bool
  deriving DecidableEq, Repr

/-- A MGMT packet that ends at a port. -/
structure MgmtAt where
  port : Fin 6
  head : MgmtHead
  deriving DecidableEq, Repr

/-- A BRIDGE packet: its header, and the time it carries. -/
structure BridgeTime where
  head : MgmtHead
  time : Word
  deriving DecidableEq, Repr

/-- Who answers a survey: its identity, and whether it is an origin. -/
structure ModuleIdent where
  ident  : Word
  origin : Bool
  deriving DecidableEq, Repr

/-- The sizes of a slice's dimensions, and which wrap. -/
structure SliceShape where
  size : Vector (Fin 9) 3
  wrap : Vector Bool 3
  deriving DecidableEq, Repr

/-- The maps of a slice (R356, R357): FAB_FAIL and FAB_UNR. -/
structure FabMap where
  fail : BitVec 1536
  unr  : BitVec 512
  deriving DecidableEq, Repr

/-- A failure map that arrives. -/
structure MapAt where
  port : Fin 6
  head : MgmtHead
  map  : FabMap
  deriving DecidableEq, Repr

/-- The management messages of discovery (R353, R357). -/
inductive FabMgmt where
  | survey (route : List (Fin 6))
  | report (route : List (Fin 6)) (ident : Word) (origin : Bool) (peers : Vector (Option Word) 6)
  | assign (route : List (Fin 6)) (addr : BitVec 15) (size : Vector (Fin 9) 3) (wrap : Vector Bool 3) (map : FabMap)
  | failureMap (dst : BitVec 15) (map : FabMap)
  deriving DecidableEq, Repr

/-- The messages that carry slice time (R388, R389): subtypes 0x10 to 0x13. -/
inductive TimeMsg where
  | pdreq
  | pdresp (t2 t3 : Word)
  | sync (time : Word)
  | bridge (time : Word)
  deriving DecidableEq, Repr

/-- A parity error in fabric logic (R372): a port's, or the collective engine's. -/
inductive FabFault where
  | port (p : Fin 6)
  | engine
  deriving DecidableEq, Repr

/-- What a residue or parity error of a gather unit hits (R300): a request that runs, waits in a partition's queue, is
held, migrates a row or retires an epoch, each by its place, or nothing that a request needs. -/
inductive NmgHit where
  | running (i : Fin 8)
  | queued (p : Fin 4) (i : Fin 16)
  | held (i : Fin 64)
  | migrating (i : Fin 8)
  | retire
  | nothing
  deriving DecidableEq, Repr

/-- A fault of a gather unit (R300): a corrected or an uncorrectable error of its die's hot-store word at a byte offset, or
a residue or parity error. -/
inductive NmgFault where
  | corrected
  | uncorrectable (off : Fin 33554432)
  | logic (h : NmgHit)
  deriving DecidableEq, Repr

/-! ### Operand ranges, used by WellFormed.lean and by the meanings -/

/-- Whether `n` lies in an inclusive range. -/
def between (lo n hi : Nat) : Bool := decide (lo ≤ n) && decide (n ≤ hi)

/-- At least one byte, and all of them below `size`. -/
def bytesIn (off : Nat) (data : List Byte) (size : Nat) : Bool :=
  decide (0 < data.length) && decide (off + data.length ≤ size)

/-- At most one 256-byte line, at a 24-bit offset. -/
def lineWriteOk (off : Nat) (data : List Byte) : Bool :=
  bytesIn (off % 256) data 256 && decide (off < 0x1000000)

/-- A packet that the link can carry: at most 4,096 bytes of payload. -/
def pktOk (p : FabPkt) : Bool := decide (p.payload.length ≤ 4096)

/-- A source route of 1 to 21 hops. -/
def routeOk (r : List (Fin 6)) : Bool := between 1 r.length 21

/-- The number of bytes of a DDR access. -/
def DdrOp.size : DdrOp → Nat
  | .read n => n
  | .write d => d.length

/-- A DDR access of 1 to 4,096 bytes inside the 48-bit device address space. -/
def ddrAccessOk (a : Nat) (op : DdrOp) : Bool := between 1 op.size 4096 && decide (a + op.size ≤ 2 ^ 48)

/-- A host access through BAR4: a read of at most 4,096 bytes, a write of at most a maximum payload. -/
def hostDdrOk (op : DdrOp) : Bool :=
  match op with
  | .read n => decide (n ≤ 4096)
  | .write d => between 1 d.length 512

/-- A posted write through a host window. -/
def hostWindowOk (off : Nat) (data : List Byte) : Bool := bytesIn off data 0x400000 && decide (data.length ≤ 512)

/-- A channel its engine has: 0 to 7 of a core, 0 to 15 of a memory die (R303). -/
def dmaChanOk (e : DmaEng) (ch : Fin 16) : Bool := match e with | .core _ => decide (ch.val < 8) | .die _ => true

/-- The engine's initiator identifier (R31). -/
def DmaEng.ini (e : DmaEng) : Ini :=
  match e with | .core c => BitVec.ofNat 8 (0x20 + c.val) | .die d => BitVec.ofNat 8 (0x40 + d.val)

/-- Bytes of a BAR. -/
def HostSpace.size : HostSpace → Nat
  | .bar0 => 0x4000000
  | .bar2 => 0x10000000
  | .pf1 => 0x10000

/-- A read of 1 to 4,096 bytes inside a BAR. -/
def hostReadOk (b : HostSpace) (off n : Nat) : Bool := decide (n ≤ 4096) && decide (off + n ≤ b.size)

/-- Bytes of a register space. -/
def RegSpace.size : RegSpace → Nat
  | .bar0 _ => 0x4000000
  | .pf1 => 0x10000
  | .cloB => 0x100

/-- A write of at most 512 bytes inside a register space. -/
def regWriteOk (b : RegSpace) (off : Nat) (data : List Byte) : Bool := bytesIn off data b.size && decide (data.length ≤ 512)

end Sys2Proof
end

