-- ==== Sys2Proof/Syntax.lean ====
section
/-! DEFINITION. The commands of the module: one constructor per row of spec/opcode_table.json, in the table's order.
The operand types stand in Terms.lean; what a well-formed command is stands in WellFormed.lean; what each does stands
in the family files under Machine/. -/

namespace Sys2Proof

inductive Instr where
  /-- ADD (R44). Sequencer adds two scalar registers into D. -/
  | add (c : CoreId) (flt : FetchFault)
  /-- SUB (R44). Sequencer subtracts B from A into D. -/
  | sub (c : CoreId) (flt : FetchFault)
  /-- MUL (R44). Sequencer writes the low 64 bits of A times B. -/
  | mul (c : CoreId) (flt : FetchFault)
  /-- MULHU (R44). Sequencer writes the high 64 bits of the unsigned 128-bit product. -/
  | mulhu (c : CoreId) (flt : FetchFault)
  /-- MULHS (R44). Sequencer writes the high 64 bits of the signed 128-bit product. -/
  | mulhs (c : CoreId) (flt : FetchFault)
  /-- AND (R44). Sequencer writes the bitwise AND of A and B. -/
  | and (c : CoreId) (flt : FetchFault)
  /-- OR (R44). Sequencer writes the bitwise OR of A and B. -/
  | or (c : CoreId) (flt : FetchFault)
  /-- XOR (R44). Sequencer writes the bitwise XOR of A and B. -/
  | xor (c : CoreId) (flt : FetchFault)
  /-- SHL (R44). Sequencer shifts A left by B[5:0]. -/
  | shl (c : CoreId) (flt : FetchFault)
  /-- SHR (R44). Sequencer shifts A right logically by B[5:0]. -/
  | shr (c : CoreId) (flt : FetchFault)
  /-- SAR (R44). Sequencer shifts A right arithmetically by B[5:0]. -/
  | sar (c : CoreId) (flt : FetchFault)
  /-- MIN (R44). Sequencer writes the signed minimum of A and B. -/
  | min (c : CoreId) (flt : FetchFault)
  /-- MAX (R44). Sequencer writes the signed maximum of A and B. -/
  | max (c : CoreId) (flt : FetchFault)
  /-- MINU (R44). Sequencer writes the unsigned minimum of A and B. -/
  | minu (c : CoreId) (flt : FetchFault)
  /-- MAXU (R44). Sequencer writes the unsigned maximum of A and B. -/
  | maxu (c : CoreId) (flt : FetchFault)
  /-- CLZ (R44). Sequencer counts the leading zero bits of A. -/
  | clz (c : CoreId) (flt : FetchFault)
  /-- ADDI (R44). Sequencer adds the sign-extended immediate to A. -/
  | addi (c : CoreId) (flt : FetchFault)
  /-- SUBI (R44). Sequencer subtracts the sign-extended immediate from A. -/
  | subi (c : CoreId) (flt : FetchFault)
  /-- MULI (R44). Sequencer multiplies A by the sign-extended immediate, low 64 bits. -/
  | muli (c : CoreId) (flt : FetchFault)
  /-- MULHUI (R44). Sequencer writes the high unsigned product of A and the immediate. -/
  | mulhui (c : CoreId) (flt : FetchFault)
  /-- MULHSI (R44). Sequencer writes the high signed product of A and the immediate. -/
  | mulhsi (c : CoreId) (flt : FetchFault)
  /-- ANDI (R44). Sequencer ANDs A with the sign-extended immediate. -/
  | andi (c : CoreId) (flt : FetchFault)
  /-- ORI (R44). Sequencer ORs A with the sign-extended immediate. -/
  | ori (c : CoreId) (flt : FetchFault)
  /-- XORI (R44). Sequencer XORs A with the sign-extended immediate. -/
  | xori (c : CoreId) (flt : FetchFault)
  /-- SHLI (R44). Sequencer shifts A left by the immediate amount. -/
  | shli (c : CoreId) (flt : FetchFault)
  /-- SHRI (R44). Sequencer shifts A right logically by the immediate amount. -/
  | shri (c : CoreId) (flt : FetchFault)
  /-- SARI (R44). Sequencer shifts A right arithmetically by the immediate amount. -/
  | sari (c : CoreId) (flt : FetchFault)
  /-- MINI (R44). Sequencer writes the signed minimum of A and the immediate. -/
  | mini (c : CoreId) (flt : FetchFault)
  /-- MAXI (R44). Sequencer writes the signed maximum of A and the immediate. -/
  | maxi (c : CoreId) (flt : FetchFault)
  /-- MINUI (R44). Sequencer writes the unsigned minimum of A and the immediate. -/
  | minui (c : CoreId) (flt : FetchFault)
  /-- MAXUI (R44). Sequencer writes the unsigned maximum of A and the immediate. -/
  | maxui (c : CoreId) (flt : FetchFault)
  /-- LD (R47). Sequencer loads 1 to 8 bytes from its own scratchpad through the narrow view. -/
  | ld (c : CoreId) (flt : FetchFault) (ecc : EccFault)
  /-- ST (R47). Sequencer stores 1 to 8 bytes to its own scratchpad through the Cuff. -/
  | st (c : CoreId) (flt : FetchFault)
  /-- LI (R44). Sequencer loads a sign-extended immediate into D. -/
  | li (c : CoreId) (flt : FetchFault)
  /-- LIH (R44). Sequencer loads the immediate into the upper half of D. -/
  | lih (c : CoreId) (flt : FetchFault)
  /-- MOVS (R46). Sequencer reads a special value such as core number or domain time. -/
  | movs (c : CoreId) (flt : FetchFault)
  /-- FENCE (R49). Sequencer starts flushing its Cuff entries and waits for them. -/
  | fence (c : CoreId) (flt : FetchFault)
  /-- FENCE_COMPLETE (R49). The Cuff has written every line of the sequencer's earlier stores and FENCE completes. -/
  | fenceComplete (c : CoreId)
  /-- CEQ (R44). Sequencer sets a flag to A equal to B or the immediate. -/
  | ceq (c : CoreId) (flt : FetchFault)
  /-- CNE (R44). Sequencer sets a flag to A not equal to B or the immediate. -/
  | cne (c : CoreId) (flt : FetchFault)
  /-- CLT (R44). Sequencer sets a flag to the signed A less than B. -/
  | clt (c : CoreId) (flt : FetchFault)
  /-- CLTU (R44). Sequencer sets a flag to the unsigned A less than B. -/
  | cltu (c : CoreId) (flt : FetchFault)
  /-- CLE (R44). Sequencer sets a flag to the signed A less than or equal to B. -/
  | cle (c : CoreId) (flt : FetchFault)
  /-- CLEU (R44). Sequencer sets a flag to the unsigned A less than or equal to B. -/
  | cleu (c : CoreId) (flt : FetchFault)
  /-- CTST (R44). Sequencer sets a flag when A AND B is non-zero. -/
  | ctst (c : CoreId) (flt : FetchFault)
  /-- FAND (R44). Sequencer ANDs two flags. -/
  | fand (c : CoreId) (flt : FetchFault)
  /-- FOR (R44). Sequencer ORs two flags. -/
  | forF (c : CoreId) (flt : FetchFault)
  /-- FXOR (R44). Sequencer XORs two flags. -/
  | fxor (c : CoreId) (flt : FetchFault)
  /-- FANDN (R44). Sequencer ANDs a flag with the inverse of another. -/
  | fandn (c : CoreId) (flt : FetchFault)
  /-- FMOV (R44). Sequencer copies a flag into a scalar register as 0 or 1. -/
  | fmov (c : CoreId) (flt : FetchFault)
  /-- LOOP (R51). Sequencer opens a hardware loop on the next free loop-stack level. -/
  | loop (c : CoreId) (flt : FetchFault)
  /-- BR (R50). Sequencer branches by a signed word offset, spending budget on backward branches. -/
  | br (c : CoreId) (flt : FetchFault)
  /-- CALL (R55). Sequencer pushes the return address and loop depth and jumps. -/
  | call (c : CoreId) (flt : FetchFault)
  /-- RET (R55). Sequencer pops the call stack and returns. -/
  | ret (c : CoreId) (flt : FetchFault)
  /-- LBRK (R54). Sequencer closes the innermost open loop and continues after its body. -/
  | lbrk (c : CoreId) (flt : FetchFault)
  /-- HALT (R57). Sequencer stops fetching and waits for every issued engine operation to complete. -/
  | halt (c : CoreId) (flt : FetchFault)
  /-- HALT_COMPLETE (R57). All operations of a halting task completed; the status is written, CSYNC signalled and the slot moved to DONE. -/
  | haltComplete (c : CoreId)
  /-- NOP (R44). Sequencer executes no operation. -/
  | nop (c : CoreId) (flt : FetchFault)
  /-- DRAIN (R58). Sequencer waits for completion of everything issued to the named engines. -/
  | drain (c : CoreId) (flt : FetchFault)
  /-- DRAIN_COMPLETE (R58). The named engines have completed all earlier operations and DRAIN ends. -/
  | drainComplete (c : CoreId)
  /-- TSET (R60). Sequencer sets a slot tag full or empty. -/
  | tset (c : CoreId) (flt : FetchFault)
  /-- TWAIT (R60). Sequencer waits for a slot tag to become full or empty. -/
  | twait (c : CoreId) (flt : FetchFault)
  /-- SIG (R60). Sequencer adds B to a local sync object. -/
  | sig (c : CoreId) (flt : FetchFault)
  /-- SWAIT (R60). Sequencer waits until a local sync object reaches at least B. -/
  | swait (c : CoreId) (flt : FetchFault)
  /-- SEQ_WAIT_RESUME (R61). The condition of a pending TWAIT or SWAIT holds and the sequencer continues with fD set to 1. -/
  | seqWaitResume (c : CoreId)
  /-- WAIT_TIMEOUT (R61). A TWAIT or SWAIT timeout of 2^(T+4) clk expires, fD is cleared and the sequencer continues. -/
  | waitTimeout (c : CoreId)
  /-- SRD (R60). Sequencer reads a local sync object into a register. -/
  | srd (c : CoreId) (flt : FetchFault)
  /-- SSET (R60). Sequencer overwrites a local sync object. -/
  | sset (c : CoreId) (flt : FetchFault)
  /-- SIGX (R63). Sequencer signals a sync object of another core or module. -/
  | sigx (c : CoreId) (flt : FetchFault)
  /-- WOPEN (R64). Sequencer opens or replaces a window with base, length, match and mask. -/
  | wopen (c : CoreId) (flt : FetchFault)
  /-- WCLOSE (R64). Sequencer closes a window. -/
  | wclose (c : CoreId) (flt : FetchFault)
  /-- EVT (R65). Sequencer posts a program event 0x1F00 plus IMM[7:0]. -/
  | evt (c : CoreId) (flt : FetchFault)
  /-- ISSUE (R66). Sequencer assembles a 256-bit engine command and pushes it onto the engine's queue. -/
  | issue (c : CoreId) (flt : FetchFault)
  /-- ISSUE_UNBLOCK (R70). A blocked ISSUE completes once the queue has room and fewer than 512 operations are in flight. -/
  | issueUnblock (c : CoreId)
  /-- ENGINE_COMMAND_COMPLETE (R69). An engine command finishes and, after its writes are visible, applies SETOP and signals CSYNC. -/
  | engineCommandComplete (c : CoreId) (e : Fin 7)
  /-- FET_LINEAR (R72). FET copies a linear DDR range into the scratchpad. -/
  | fetLinear (c : CoreId)
  /-- FET_2D (R72). FET copies strided DDR rows into the scratchpad densely. -/
  | fet2d (c : CoreId)
  /-- IMEM_WRITE (R41). Host PF0 or the core's DMA writes IMEM, dropped with event 0x1030 while a task runs. -/
  | imemWrite (c : CoreId) (ini : Initiator) (i : Fin 32768) (h : Half) (v : Word)
  /-- TAGDESC_WRITE (R87). A tag descriptor is written while no task runs, or dropped or refused. -/
  | tagdescWrite (c : CoreId) (ini : Initiator) (t : Fin 4096) (h : Half) (v : Word)
  /-- TAG_WAIT_RESUME (R89). Accesses waiting on a slot are retried in the clk after the slot changes state. -/
  | tagWaitResume (c : CoreId)
  /-- CUFF_IDLE_FLUSH (R82). A Cuff entry with no write for 64 clk is flushed to its bank. -/
  | cuffIdleFlush (c : CoreId) (line : Nat)
  /-- WINDOW_WRITE (R92). A write request reaches a core's window input and is accepted or dropped as a violation. -/
  | windowWrite (c : CoreId) (src : SentBy) (off : Nat) (data : List Byte)
  /-- REMOTE_SIGNAL (R96). A remote signal reaches a core and passes or fails its signal gate. -/
  | remoteSignal (c : CoreId) (src : SentBy) (n : Fin 512) (v : Word)
  /-- SYNCADD_WRITE (R98). Host PF0 adds a value to a sync object through SYNCADD. -/
  | syncaddWrite (c : CoreId) (ini : Initiator) (n : Fin 512) (h : Half) (v : Word)
  /-- SPD_CLR (R108). A write of CLR clears WVIOL, SGREF, CECC and SPD_LAST. -/
  | spdClr (c : CoreId) (h : Half) (v : Word)
  /-- LAUNCH_RECORD_WRITE (R100). Host PF0 writes a launch record; covering bytes 0x3C-0x3F moves an EMPTY or DONE slot to PENDING. -/
  | launchRecordWrite (n : Fin 128) (ini : Initiator) (off : Nat) (data : List Byte)
  /-- LAUNCH_SLOT_TAKE (R101). An idle sequencer takes a PENDING slot, validates the record and starts preparing the task. -/
  | launchSlotTake (c : CoreId)
  /-- TASK_START (R104). Bank power-up and clears end, the state of R40 is loaded and execution starts at ENTRY. -/
  | taskStart (c : CoreId)
  /-- SPD_PARITY_ERROR (R108). A parity error in scratchpad control state ends the task or refuses pending slots with 0x8C. -/
  | spdParityError (c : CoreId) (f : SpdFault)
  /-- FRAME_RECEIVE (R110). A sensor port receives a frame, checks and stamps it, taps it for Cloche and queues or drops it. -/
  | frameReceive (p : Fin 4) (data : List Byte) (fcsOk : Bool)
  /-- INGEST_FRAME_PROCESS (R113). An ingest unit takes a frame from its FIFO, matches a sensor and converts its points. -/
  | ingestFrameProcess (p : Fin 4)
  /-- RECORD_WRITER_BURST (R125). The record writer writes one 64-byte burst in its slot for a partition's ring. -/
  | recordWriterBurst
  /-- TPL_WRITE (R114). A template write is stored and, when it covers bytes 0x3C-0x3F, checked and validated. -/
  | tplWrite (t : Fin 16) (ini : Initiator) (off : Nat) (data : List Byte)
  /-- SENS_WRITE (R115). A sensor entry write is accepted or refused, and clearing EN closes the open sweep. -/
  | sensWrite (n : Fin 16) (ini : Initiator) (off : Nat) (data : List Byte)
  /-- EXT_WRITE (R117). An extrinsic write commits a pending version for the next sweep start. -/
  | extWrite (n : Fin 16) (ini : Initiator) (off : Nat) (data : List Byte)
  /-- HOLD_WRITE (R124). A write of a ring's hold values is accepted if they move forward within the written range. -/
  | holdWrite (p : Fin 4) (ini : Initiator) (h : Half) (v : Word)
  /-- RCTL_WRITE (R121). A ring control write enables a ring, zeroing WIDX and HOLD, or sets its signal. -/
  | rctlWrite (p : Fin 4) (ini : Initiator) (h : Half) (v : Word)
  /-- SLOTMAP_WRITE (R125). A SLOTMAP write takes effect at the next 64-slot frame. -/
  | slotmapWrite (ini : Initiator) (off : Nat) (data : List Byte)
  /-- INJQ_WRITE (R126). An injection descriptor is queued or refused. -/
  | injqWrite (p : Fin 4) (ini : Initiator) (off : Nat) (data : List Byte)
  /-- INJECTION_EXECUTE (R126). Ingest reads injected records, appends them to the ring and writes an INJ header. -/
  | injectionExecute (p : Fin 4)
  /-- ETH_LINK_UP (R109). A sensor port's link comes up. -/
  | ethLinkUp (p : Fin 4)
  /-- ETH_LINK_DOWN (R109). A sensor port's link goes down. -/
  | ethLinkDown (p : Fin 4)
  /-- INGEST_ECC_ERROR (R129). An ingest table ECC or buffer parity error is corrected, or disables sensors or drops data. -/
  | ingestEccError (f : IngFault)
  /-- GINIT (R145). GEO checks a grid descriptor and replaces the core's grid. -/
  | ginit (c : CoreId)
  /-- GINS (R147). GEO reads its share of the sweep list's records and routes points to owners. -/
  | gins (c : CoreId)
  /-- GFIN (R150). GEO sends end markers and, once all are applied and counts exchanged, writes the scan status. -/
  | gfin (c : CoreId)
  /-- GNBR (R153). GEO writes one brick record with 27 neighbour references per owned brick. -/
  | gnbr (c : CoreId)
  /-- GREL (R155). GEO releases the core's grid and frees the spill holder. -/
  | grel (c : CoreId)
  /-- BUILDER_POINT_INSERT (R149). An owner builder takes a routed point from its queue and inserts it into a brick. -/
  | builderPointInsert (c : CoreId)
  /-- NEIGHBOUR_LOOKUP (R154). A builder answers a neighbour lookup for its current GID or with null. -/
  | neighbourLookup (c : CoreId)
  /-- GRD_SPILL_WRITE (R159). GRD_SPBASE or GRD_SPCTL is written while HOLDER is 0, or refused. -/
  | grdSpillWrite (p : Fin 4) (ctl : Bool) (ini : Initiator) (h : Half) (v : Word)
  /-- BRICK_TABLE_ECC_ERROR (R157). A brick-table ECC or builder parity error is corrected or ends the task. -/
  | brickTableEccError (c : CoreId) (f : BuilderFault)
  /-- BALL (R165). GEO returns the first K qualifying candidates of each query in visit order. -/
  | ball (c : CoreId)
  /-- KNNC (R167). GEO writes each query's qualifying candidates with squared distances. -/
  | knnc (c : CoreId)
  /-- FPS (R169). GEO selects M samples by farthest-point sampling. -/
  | fps (c : CoreId)
  /-- VDOWN (R170). GEO writes one voxel record per occupied voxel of the finished grid. -/
  | vdown (c : CoreId)
  /-- CAST (R179). RAY casts a sensor model's rays through the scene and routes or writes synthetic returns. -/
  | cast (c : CoreId)
  /-- MMUL (R195). MXE multiplies dense A and B into C tiles, with ramp, accumulation and drain. -/
  | mmul (c : CoreId)
  /-- MXE_RAMP_DOWN (R207). After 32 idle clk MXE disables cube groups one per 8 clk. -/
  | mxeRampDown (c : CoreId)
  /-- MXCLR (R210). A write of CLR zeroes MXCNT. -/
  | mxclr (c : CoreId) (h : Half) (v : Word)
  /-- SPMM (R217). MXE multiplies dense A by compressed B, skipping absent blocks. -/
  | spmm (c : CoreId)
  /-- NBMAP (R224). MXE writes convolution map records from GNBR records and VDOWN runs. -/
  | nbmap (c : CoreId)
  /-- SCONV (R229). MXE performs brick convolution over the map's pairs into C. -/
  | sconv (c : CoreId)
  /-- SPCLR (R235). A write of CLR zeroes SPCNT. -/
  | spclr (c : CoreId) (h : Half) (v : Word)
  /-- MXE_RESIDUE_ERROR (R209). An engine residue or parity check fails and the task ends with status 0x8C. -/
  | mxeResidueError (c : CoreId) (f : EngFault)
  /-- EW (R244). VEC computes an elementwise operation on tensors. -/
  | ew (c : CoreId)
  /-- RED (R246). VEC writes one reduction result per row. -/
  | red (c : CoreId)
  /-- QNT (R249). VEC quantises rows to narrow codes with two-level scales. -/
  | qnt (c : CoreId)
  /-- RQ (R252). VEC requantises INT32 sums with multiplier, shift and zero point. -/
  | rq (c : CoreId)
  /-- DQ (R253). VEC dequantises codes to floating values. -/
  | dq (c : CoreId)
  /-- HIST (R259). VEC counts a tensor's values into a histogram record. -/
  | hist (c : CoreId)
  /-- VSET (R242). VEC sets the stream record base STBASE. -/
  | vset (c : CoreId)
  /-- SATCFG_WRITE (R255). A SATCFG write sets a stream's window and zeroes its window counts. -/
  | satcfgWrite (c : CoreId) (k : Fin 16) (ini : Initiator) (h : Half) (v : Word)
  /-- VCLR (R263). A write of CLR zeroes VCNT and the SATST totals. -/
  | vclr (c : CoreId) (h : Half) (v : Word)
  /-- ARGMAX (R272). SEL selects the first-ranking element of each segment. -/
  | argmax (c : CoreId)
  /-- TOPK (R272). SEL selects the exact top K of each segment. -/
  | topk (c : CoreId)
  /-- BTOPK (R274). SEL selects top K through per-bucket candidates. -/
  | btopk (c : CoreId)
  /-- MERGE (R275). SEL merges result lists into one top-K list. -/
  | merge (c : CoreId)
  /-- SORT (R277). SEL stable-sorts each segment as pairs. -/
  | sort (c : CoreId)
  /-- SEARCH (R278). SEL binary-searches queries in a sorted array. -/
  | search (c : CoreId)
  /-- SELCLR (R282). A write of CLR zeroes SELCNT. -/
  | selclr (c : CoreId) (h : Half) (v : Word)
  /-- NMG_TAB_WRITE (R284). A table descriptor is written or refused. -/
  | nmgTabWrite (t : Fin 64) (ini : Initiator) (off : Nat) (data : List Byte)
  /-- NMG_HSEG_WRITE (R302). A hot-store segment register is written or refused. -/
  | nmgHsegWrite (p : Fin 4) (ini : Initiator) (h : Half) (v : Word)
  /-- NMG_REQ_WRITE (R288). A 64-byte gather request is submitted to a unit's partition queue, or refused. -/
  | nmgReqWrite (u : Fin 16) (p : Fin 4) (ini : Initiator) (off : Nat) (data : List Byte)
  /-- LOOKUP (R291). A gather unit looks up, decodes and reduces the rows of each bag into a window. -/
  | lookup (u : Fin 16)
  /-- UPD (R293). The home unit overwrites a row record with a new one. -/
  | upd (u : Fin 16)
  /-- MIGR (R293). The home unit copies a row, flips its pointer and applies held requests. -/
  | migr (u : Fin 16)
  /-- FLIP (R293). The home unit writes a new pointer for a row. -/
  | flip (u : Fin 16)
  /-- RETIRE (R296). A unit toggles the epoch bit and waits for old-epoch lookups to finish. -/
  | retire (u : Fin 16)
  /-- RETIRE_EPOCH_DRAIN (R296). Every unit's old-epoch count reaches 0 and the RETIRE writes its status and signals. -/
  | retireEpochDrain
  /-- NMG_REQUEST_COMPLETE (R291). A gather request writes its status after its outputs and then signals. -/
  | nmgRequestComplete (u : Fin 16)
  /-- NMG_ERROR (R300). A hot-store ECC, residue or parity error is corrected or ends the request with ERR. -/
  | nmgError (u : Fin 16) (f : NmgFault)
  /-- DMA_RUN (R319). A per-core DMA channel starts a descriptor list on a RUN command. -/
  | dmaRun (c : CoreId)
  /-- DMA_STOP (R315). A STOP command asks a channel to stop at the next descriptor boundary. -/
  | dmaStop (c : CoreId)
  /-- DCH_GO (R304). A write of DCH_CTL.GO starts a channel's list at DCH_HEAD, or is refused. -/
  | dchGo (e : DmaEng) (ch : Fin 16) (ini : Initiator)
  /-- DCH_STOP (R315). A write of DCH_CTL.STOP stops a channel at the next descriptor boundary. -/
  | dchStop (e : DmaEng) (ch : Fin 16) (ini : Initiator)
  /-- DMA_COPY (R308). A channel checks and executes a COPY descriptor. -/
  | dmaCopy (e : DmaEng) (ch : Fin 16)
  /-- DMA_FILL (R309). A channel checks and executes a FILL descriptor. -/
  | dmaFill (e : DmaEng) (ch : Fin 16)
  /-- DMA_CMP (R310). A channel compares two ranges and records the first mismatch. -/
  | dmaCmp (e : DmaEng) (ch : Fin 16)
  /-- DMA_COMPRESS (R311). A channel compresses dense B-layout lines into index and records. -/
  | dmaCompress (e : DmaEng) (ch : Fin 16)
  /-- DMA_HALF_SIGNAL (R313). A descriptor's first half becomes visible and its half signal is given. -/
  | dmaHalfSignal (e : DmaEng) (ch : Fin 16)
  /-- DMA_DESCRIPTOR_DONE (R313). A descriptor writes its STATUS, gives its done signal, and the list advances or ends. -/
  | dmaDescriptorDone (e : DmaEng) (ch : Fin 16)
  /-- DMA_PARITY_HALT (R322). A parity error halts a channel with END 0b11 and event 0x2302. -/
  | dmaParityHalt (e : DmaEng) (ch : Fin 16)
  /-- DDR_ACCESS (R329). A DDR access is region-checked, queued, made visible and, for a read, returned with ECC checking. -/
  | ddrAccess (r : DdrReq) (a : Nat) (op : DdrOp) (e : DdrEcc) (f : NetFault)
  /-- DDR_RGN_WRITE (R328). Crown writes a DDR region register, or it is refused. -/
  | ddrRgnWrite (i : Fin 16) (ini : Initiator) (h : Half) (v : Word)
  /-- DDR_BW_WRITE (R333). Crown writes a bandwidth share register, effective at the next frame. -/
  | ddrBwWrite (d : Fin 2) (ini : Initiator) (h : Half) (v : Word)
  /-- DDR_REFRESH (R334). A channel's refresh interval expires and every rank is refreshed. -/
  | ddrRefresh (ch : Fin 16)
  /-- DIMM_EVENT_ASSERT (R334). A DIMM asserts EVENT_n and the channel switches to 2x refresh. -/
  | dimmEventAssert (e : DimmEvent)
  /-- REFRESH_1X_RETURN (R334). One second after EVENT_n deasserts the channel returns to 1x refresh. -/
  | refresh1xReturn (ch : Fin 16)
  /-- DDR_SCRUB (R335). A channel scrubs a burst in idle time or after 10 µs without idle. -/
  | ddrScrub (ch : Fin 16) (e : DdrEcc)
  /-- DDR_CA_PARITY_ERROR (R339). A command/address parity error is retried once, or stops the channel. -/
  | ddrCaParityError (ch : Fin 16) (retryFails : Bool) (own : Bool)
  /-- FABRIC_PORT_TRAINED (R345). A fabric port finishes training and uses four lanes, or stays down. -/
  | fabricPortTrained (p : Fin 6) (lanes : BitVec 5)
  /-- FABRIC_LANE_RETIRE (R345). A lane exceeds 2^20 corrected symbols in 1 s; the port drains and retrains without it. -/
  | fabricLaneRetire (p : Fin 6) (l : Fin 5)
  /-- UNCORRECTABLE_CODEWORD (R347). A receiver discards an uncorrectable codeword and reports a NAK. -/
  | uncorrectableCodeword (p : Fin 6)
  /-- CREDIT (R359). A CREDIT packet returns credits and acknowledgement, and a NAK starts a replay. -/
  | credit (p : Fin 6) (cnt : Vector (BitVec 16) 4) (ack : BitVec 32) (nak : Bool)
  /-- CREDIT_SEND (R359). A port sends a CREDIT packet when counts change or 1 µs has passed. -/
  | creditSend (p : Fin 6)
  /-- FABRIC_PACKET_FORWARD (R356). A hop checks a packet and routes it to the next port by dimension order. -/
  | fabricPacketForward (p : Fin 6) (k : FabPkt)
  /-- WRITE (R361). A WRITE packet arrives at its destination and is split into window writes. -/
  | write
  /-- SIGNAL (R361). A SIGNAL packet is applied as a remote signal after earlier WRITEs from its source. -/
  | signal
  /-- FABRIC_LINK_DOWN (R358). A fabric link goes down and the port drops its packets. -/
  | fabricLinkDown (p : Fin 6)
  /-- HELLO_SEND (R352). A trained port sends HELLO every 100 µs. -/
  | helloSend (p : Fin 6)
  /-- HELLO (R352). A port receives HELLO and holds itself out of service on a mismatch. -/
  | hello (p : MgmtAt) (h : Hello)
  /-- DISCOVERY_START (R353). The origin's Crown starts the breadth-first survey of its slice. -/
  | discoveryStart
  /-- SURVEY (R353). A module receives a source-routed SURVEY and answers with a REPORT. -/
  | survey (p : MgmtAt) (route : List (Fin 6))
  /-- REPORT (R353). The origin receives a REPORT and places the module. -/
  | report (p : MgmtAt) (route : List (Fin 6)) (who : ModuleIdent) (peers : Vector (Option Word) 6)
  /-- ASSIGN (R353). A module receives its address and maps and sets FAB_ADDR.VALID. -/
  | assign (p : MgmtAt) (addr : BitVec 15) (shape : SliceShape) (map : FabMap)
  /-- FAILURE_MAP (R357). A module receives a new failure map and unreachable set and puts them in effect. -/
  | failureMap (x : MapAt)
  /-- COLL_DESCRIPTOR (R363). A collective descriptor is written to COL_Q and accepted or refused. -/
  | collDescriptor (ini : Initiator) (off : Nat) (data : List Byte)
  /-- COLL_FRAGMENT (R364). A COLL fragment arrives, is combined with the local contribution and forwarded or stored. -/
  | collFragment (p : Fin 6) (k : FabPkt)
  /-- COL_TIMEOUT (R367). An unmatched fragment waits COL_TMO and the operation aborts. -/
  | colTimeout (id : Fin 256)
  /-- FABRIC_PARITY_ERROR (R372). A fabric parity error drops packets and resets the port or engine. -/
  | fabricParityError (f : FabFault)
  /-- TB_RATE_WRITE (R377). A RATE write re-anchors the domain and applies the new rate. -/
  | tbRateWrite (d : Fin 2) (ini : Initiator) (h : Half) (v : Word)
  /-- TB_STEP_WRITE (R377). An 8-byte STEP write adds an offset, latches the epoch and posts 0x7010+d. -/
  | tbStepWrite (d : Fin 2) (ini : Initiator) (h : Half) (v : Word)
  /-- TB_STATE_WRITE (R379). Crown writes a domain's STATE, re-arming the watchdog. -/
  | tbStateWrite (d : Fin 2) (ini : Initiator) (h : Half) (v : Word)
  /-- TB_LOST_WRITE (R379). Crown writes LOST and a LOCKED domain enters HOLDOVER. -/
  | tbLostWrite (d : Fin 2) (ini : Initiator)
  /-- TB_WATCHDOG_EXPIRE (R379). WDMS ms without a RATE or STATE write moves a LOCKED domain to HOLDOVER. -/
  | tbWatchdogExpire (d : Fin 2)
  /-- EPOCH_LATCH (R381). Bits [29:0] of a domain time wrap and TB_EPOCH latches the time. -/
  | epochLatch (d : Fin 2)
  /-- TB_SNAP (R381). A write of 1 latches TB_CNT and both domain times from one tick. -/
  | tbSnap (ini : Initiator) (h : Half) (v : Word)
  /-- SYNC_ACCEPT (R383). Crown's servo accepts a Sync and writes the domain's RATE. -/
  | syncAccept (d : Fin 2) (port : Fin 4) (src : BitVec 80) (seq : BitVec 16) (r : BitVec 32)
  /-- ANNOUNCE_TIMEOUT (R383). The selected master's announce receipt timeout expires and Crown writes LOST. -/
  | announceTimeout (d : Fin 2)
  /-- TB_TXQ_WRITE (R385). A timed-transmit descriptor is queued or refused. -/
  | tbTxqWrite (p : Fin 4) (ini : Initiator) (off : Nat) (data : List Byte)
  /-- TIMED_FRAME_LAUNCH (R386). A port sends a queued frame at its launch time, or sends or drops it as late. -/
  | timedFrameLaunch (p : Fin 4)
  /-- TB_EVO_WRITE (R387). A pulse output register write is applied or refused. -/
  | tbEvoWrite (k : Fin 4) (ini : Initiator) (reg : Fin 3) (h : Half) (v : Word)
  /-- PULSE_EDGE (R387). A pulse output produces an edge at START plus i times PERIOD. -/
  | pulseEdge (k : Fin 4)
  /-- PULSE_WIDTH_END (R387). A pulse's WIDTH expires and the output returns. -/
  | pulseWidthEnd (k : Fin 4)
  /-- PDREQ_SEND (R388). Every 10 ms an up port sends PDREQ. -/
  | pdreqSend (p : Fin 6)
  /-- PDREQ (R388). A port receives PDREQ and answers PDRESP with stamps. -/
  | pdreq (p : MgmtAt)
  /-- PDRESP (R388). A port receives PDRESP and computes the link delay. -/
  | pdresp (p : MgmtAt) (t2 : Word) (t3 : Word)
  /-- SLICE_SYNC_SEND (R388). Every 1 ms the origin sends SYNC with its slice time. -/
  | sliceSyncSend
  /-- SYNC (R388). A module receives SYNC, steers FABDOM and forwards it to its children. -/
  | sync (p : MgmtAt) (time : Word) (r : BitVec 32)
  /-- SLICE_SYNC_LOSS (R388). No SYNC for 10 ms moves FABDOM to HOLDOVER. -/
  | sliceSyncLoss
  /-- BRIDGE_SEND (R389). Every 10 ms a trunk port sends BRIDGE with its slice time. -/
  | bridgeSend (k : Fin 2)
  /-- BRIDGE (R389). A trunk port receives BRIDGE and writes the offset into TB_BRIDGE. -/
  | bridge (k : Fin 2) (b : BridgeTime)
  /-- BRIDGE_LOSS (R389). 100 ms without BRIDGE clears VALID. -/
  | bridgeLoss (k : Fin 2)
  /-- TB_MISMATCH (R390). A counter, evaluator or parity mismatch in Hatband posts 0x7080. -/
  | tbMismatch
  /-- GNT_NOTICE (R397). A path delivers a result notice to Gauntlet, accepted, paired or refused. -/
  | gntNotice (p : Fin 2) (ini : Initiator) (off : Nat) (data : List Byte)
  /-- GNT_COMPARE (R400). Gauntlet reads both tensors of a complete pair and compares them within tolerance. -/
  | gntCompare
  /-- GNT_VERDICT (R401). Gauntlet writes a verdict record and posts its event, handling disagreements. -/
  | gntVerdict (i : Fin 64)
  /-- AGE_CHECK (R404). Every 10 µs Gauntlet computes stream ages, marks stale streams and escalates CRIT ones. -/
  | ageCheck
  /-- GOLDEN_OPPORTUNITY (R406). A pattern's opportunity arrives and Gauntlet injects, defers or passes. -/
  | goldenOpportunity
  /-- GOLDEN_JUDGE (R407). Gauntlet compares golden results with expected tensors and reacts. -/
  | goldenJudge
  /-- GOLDEN_NOTICE_TIMEOUT (R407). A path's golden notice has not arrived 200 ms after injection. -/
  | goldenNoticeTimeout
  /-- GNT_ROUTED_EVENT (R423). Gauntlet receives a routed fault event and applies its reaction. -/
  | gntRoutedEvent
  /-- ARM (R418). A write of GNT_ARM.ARM runs the arming check and enters ARMED or TEST. -/
  | arm (ini : Initiator)
  /-- DISARM (R418). A write of GNT_ARM.DISARM returns to OFF and stops the fault outputs. -/
  | disarm (ini : Initiator)
  /-- SAFE (R413). A write of GNT_ARM.SAFE enters the safe state. -/
  | safe (ini : Initiator)
  /-- DEFER (R406). A write of GNT_GCTL.DEFER asks to defer the next injection. -/
  | defer (ini : Initiator)
  /-- START_TESTS_DONE (R414). The start-time tests end and Gauntlet returns to ARMED or OFF, or enters FAILED. -/
  | startTestsDone (fail : Bool) (test : Fin 12) (place : TestPlace)
  /-- MONITOR_VIOLATION (R416). A clock or rail outside its window for 5 µs enters the safe state. -/
  | monitorViolation (x : Measured)
  /-- FAULT_OUTPUT_TOGGLE (R417). Every 500 µs in ARMED or SINGLE the fault outputs swap levels. -/
  | faultOutputToggle
  /-- GNT_LOCKSTEP_ERROR (R413). A lockstep mismatch or uncorrectable Gauntlet SRAM error enters the safe state. -/
  | gntLockstepError (f : GntFault)
  /-- FLT_PRST (R426). A write of FLT_PRST ends a partition's tasks and starts its restart. -/
  | fltPrst (ini : Initiator) (h : Half) (v : Word)
  /-- PARTITION_RELEASE (R426). A partition restart ends; the reset is released or the partition stays held. -/
  | partitionRelease (p : Fin 4) (found : CoreTests) (spares : BitVec 4) (ddr : Bool)
  /-- FLT_MRST_WARM (R428). A write of FLT_MRST.WARM starts a warm module restart. -/
  | fltMrstWarm (ini : Initiator)
  /-- FLT_MRST_COLD (R429). A write of FLT_MRST.COLD starts a cold module restart. -/
  | fltMrstCold (ini : Initiator)
  /-- FLT_PMAP_WRITE (R438). Crown stages a new partition map, refused if it moves safety cores while armed. -/
  | fltPmapWrite (ini : Initiator) (h : Half) (v : Word)
  /-- FAULT_LOG_ENTRY (R434). Crown writes a fault-log entry and any repair record for a routed event. -/
  | faultLogEntry (detail : Word)
  /-- CLOCHE_START (R441). At VDD_CLO power-good Cloche verifies its image and loads parameters and counters. -/
  | clocheStart (lost : List (Fin 17)) (badRef : Bool)
  /-- SEAL_CHANGE (R442). A debounced CLO_SEAL_N change posts an event, raises vector 2 and appends an audit entry. -/
  | sealChange (isOpen : Bool)
  /-- CLO_FRAME_TAP (R446). Cloche converts a tapped frame's points and enters them into its height map. -/
  | cloFrameTap
  /-- CAPTURE_END (R448). A capture has its sweeps and Cloche computes the reading. -/
  | captureEnd
  /-- CAPTURE_TIMEOUT (R452). A capture lacks sweeps 2 s after its last frame and ends INCOMPLETE. -/
  | captureTimeout
  /-- CLO_RECORD_WRITE (R453). A signed record is written to flash and CLO_REC and vector 1 is raised. -/
  | cloRecordWrite
  /-- ENCODER_COUNT (R457). Cloche decodes a quadrature encoder sample, counting or flagging ENCERR. -/
  | encoderCount (a : Bool) (b : Bool)
  /-- GETID (R454). Cloche returns its identification, hashes and record public modulus. -/
  | getid
  /-- GETSTAT (R454). Cloche returns CLO_STAT, CLO_CNT and ZSEQ. -/
  | getstat
  /-- GETPARAM (R454). Cloche returns part of an effective or staged parameter block. -/
  | getparam
  /-- SETPARAM (R444). Cloche writes data into a staged parameter block while the seal is open. -/
  | setparam
  /-- COMMIT (R444). Cloche makes a staged block effective, increments EVCNT and audits it. -/
  | commit
  /-- ZERO (R450). Cloche captures a new reference surface. -/
  | zero
  /-- MEASURE (R455). Cloche starts a static measurement capture. -/
  | measure
  /-- BELTSTART (R455). Cloche starts a belt run. -/
  | beltstart
  /-- BELTREAD (R455). Cloche writes an interim belt record. -/
  | beltread
  /-- BELTSTOP (R455). Cloche writes the final belt record and ends the run. -/
  | beltstop
  /-- ABORT (R455). Cloche ends a capture or belt run with an ABORTED record. -/
  | abort
  /-- GETREC (R454). Cloche places a stored record in CLO_REC. -/
  | getrec
  /-- GETAUDIT (R454). Cloche returns audit-log entries. -/
  | getaudit
  /-- SETEXP (R456). Cloche checks an export range and writes it into DRGN[14]. -/
  | setexp
  /-- EXPORT (R456). Cloche exports a height map, reference, audit log or records through channel 14. -/
  | exportMap
  /-- FWLOAD (R458). Cloche stages firmware image bytes while the seal is open. -/
  | fwload
  /-- FWCOMMIT (R458). Cloche verifies and writes the staged image and restarts. -/
  | fwcommit (writeOk : Bool)
  /-- GETKEY (R454). Cloche returns Woulavo's signature over its record key. -/
  | getkey
  /-- CLO_WATCHDOG (R459). Cloche's watchdog expires or an uncorrectable error occurs, and Cloche restarts. -/
  | cloWatchdog (canSign : Bool)
  /-- CLO_SRAM_CORRECT (R459). Cloche corrects an SRAM error and counts it. -/
  | cloSramCorrect
  /-- CROWN_LOAD_CHECK (R462). Crown's load crosses 80 % or stays below 70 % for 1 s and coalescing changes. -/
  | crownLoadCheck (load : Fin 101)
  /-- POWER_LOOP (R482). Every 1 ms Crown sets DVFS points to hold the power cap and writes the heartbeat. -/
  | powerLoop (pts : Vector (Fin 8) 4)
  /-- THERMAL_LOOP (R482). Every 10 ms Crown lowers or restores die DVFS points by temperature. -/
  | thermalLoop
  /-- DIMM_TEMP_READ (R334). Every 100 ms Crown reads every DIMM temperature. -/
  | dimmTempRead (t : Vector Byte 16)
  /-- TELEMETRY_SAMPLE (R481). Crown writes a telemetry record every 10 ms or 1 s. -/
  | telemetrySample (pwr : BitVec 16) (ic : BitVec 16) (vc : BitVec 16)
  /-- HEARTBEAT_MISS (R463). Three power-loop periods pass without a heartbeat and Brim's limit is asserted. -/
  | heartbeatMiss
  /-- PWR_HB (R463). Crown writes the power-loop heartbeat, clearing a heartbeat Brim cause. -/
  | pwrHb (ini : Initiator) (h : Half) (v : Word)
  /-- CROWN_WATCHDOG (R464). Crown's watchdog expires and Crown alone restarts from ROM. -/
  | crownWatchdog (busy : Bool) (erased : Bool)
  /-- MBX_SUBMIT (R476). PF0 writes MBX_REQ and the mailbox accepts, refuses or answers BUSY. -/
  | mbxSubmit (ini : Initiator) (off : Nat) (data : List Byte)
  /-- GET_ID (R478). Crown returns device identity, grade, versions and state. -/
  | getId
  /-- GET_CERT (R469). Crown places the identity certificate in the result buffer. -/
  | getCert
  /-- ATTEST (R470). Crown forms and signs an attestation report over the nonce. -/
  | attest
  /-- BUF_READ (R477). Crown returns bytes of the result buffer for a TAG. -/
  | bufRead
  /-- BUF_WRITE (R478). Crown writes bytes into the channel's input buffer. -/
  | bufWrite
  /-- FW_UPDATE (R468). Crown checks a firmware image in DDR and starts writing it to flash. -/
  | fwUpdate
  /-- FW_FLASH_WRITE_DONE (R468). The firmware flash write and read-back end with 0x9011 or 0x9012. -/
  | fwFlashWriteDone (ok : Bool)
  /-- FW_STATUS (R478). Crown returns update state, bytes written and last result. -/
  | fwStatus
  /-- RECOVER_LOAD (R467). The ROM in recovery writes image bytes into its staging area. -/
  | recoverLoad
  /-- RECOVER_COMMIT (R467). The ROM checks the staged image, writes it to flash and restarts Crown. -/
  | recoverCommit (flashOk : Bool) (e : StartEnv)
  /-- CAL_READ (R474). Crown returns factory, user and effective calibration values. -/
  | calRead
  /-- CAL_WRITE (R475). Crown writes a user calibration value to flash and applies it. -/
  | calWrite (flashOk : Bool)
  /-- CFG_READ (R478). Crown returns stored and current configuration values. -/
  | cfgRead
  /-- CFG_WRITE (R479). Crown writes a Crown-only register now and/or stores it in flash. -/
  | cfgWrite (flashOk : Bool)
  /-- TELEM_CFG (R481). Crown sets the telemetry ring in DDR. -/
  | telemCfg
  /-- TELEM_LAST (R478). Crown returns the newest telemetry record. -/
  | telemLast
  /-- LOG_READ (R478). Crown places fault-log entries in the result buffer. -/
  | logRead
  /-- SET_ORIGIN (R353). Crown sets whether this module is its slice's origin. -/
  | setOrigin
  /-- DBG_CHAL (R472). Crown returns a random debug challenge. -/
  | dbgChal
  /-- DBG_UNLOCK (R472). Crown checks a signed token and opens the JTAG chains, or refuses. -/
  | dbgUnlock
  /-- DBG_CHALLENGE_EXPIRE (R472). A debug challenge expires after 60 s. -/
  | dbgChallengeExpire
  /-- SMBUS_BLOCK_WRITE (R480). An SMBus Block Write submits a request, or it is answered BUSY. -/
  | smbusBlockWrite (pecOk : Bool) (code : Byte) (data : List Byte)
  /-- SMBUS_BLOCK_READ (R480). An SMBus Block Read returns the oldest unread response. -/
  | smbusBlockRead
  /-- EVENT_ROUTE (R493). The event unit matches codes against route entries and delivers fixed and programmed routes. -/
  | eventRoute
  /-- EVENT_QUEUE_DELIVER (R494). A queued code is written to the host event ring or Crown's queue and an MSI-X message sent. -/
  | eventQueueDeliver
  /-- MSIX_PENDING_SEND (R494). A pending MSI-X message is sent once masking or disabling clears. -/
  | msixPendingSend (pf1 : Bool) (v : Fin 256)
  /-- EVT_ROUTE_WRITE (R495). A route entry is written or refused. -/
  | evtRouteWrite (i : Fin 256) (ini : Initiator) (h : Half) (v : Word)
  /-- PCI_APBASE_WRITE (R490). PCI_APBASE is written or refused when not aligned to the BAR4 size. -/
  | pciApbaseWrite (ini : Initiator) (h : Half) (v : Word)
  /-- PCI_HWIN_WRITE (R489). A host window register is written, applying to later requests. -/
  | pciHwinWrite (k : Fin 32) (ini : Initiator) (h : Half) (v : Word)
  /-- HOST_WINDOW_WRITE (R489). A BAR2 host-window write reaches a core's window input with identifier 0x60. -/
  | hostWindowWrite (k : Fin 32) (off : Nat) (data : List Byte) (f : TlpFault)
  /-- HOST_DDR_ACCESS (R490). A BAR4 access is mapped to DDR and checked against the host bits. -/
  | hostDdrAccess (off : Nat) (op : DdrOp) (f : TlpFault)
  /-- PCIE_LINK_UP (R485). The PCIe link reaches L0. -/
  | pcieLinkUp (speed : Fin 5) (width : Fin 3)
  /-- PCIE_LINK_DOWN (R485). The PCIe link leaves DL_Active. -/
  | pcieLinkDown
  /-- PCIE_RESET (R492). PERST or hot reset returns both functions' host-interface state to reset. -/
  | pcieReset
  /-- FLR_PF0 (R492). A Function Level Reset of PF0 resets its configuration and host registers. -/
  | flrPf0
  /-- FLR_PF1 (R492). A Function Level Reset of PF1 resets its configuration. -/
  | flrPf1
  /-- AO_POWER_GOOD (R502). PWROK_AO is recognised high; the always-on domain and TB_CNT start. -/
  | aoPowerGood
  /-- COLD_RESTART (R429). With PWROK_AO, PWROK_MAIN and MOD_RST_N high the module runs a cold restart. -/
  | coldRestart (erased : Bool) (e : StartEnv)
  /-- WARM_RESTART (R428). MOD_RST_N low, a safe state or a request starts a warm restart of the module. -/
  | warmRestart (pin : Bool) (erased : Bool) (e : StartEnv)
  /-- MOD_RST_RELEASE (R503). MOD_RST_N rises and a held restart proceeds past its first step. -/
  | modRstRelease (e : StartEnv)
  /-- POWER_DOWN (R504). PWROK_MAIN falls; engines stop, DDR enters self-refresh and 0x9070 is posted. -/
  | powerDown
  /-- POWER_OFF (R526). PWROK_AO falls and the module enters OFF, clearing TB_CNT. -/
  | powerOff (erased : Bool)
  /-- DOZE_ENTER (R508). A write of PWR_CTL.DOZE puts the module into DOZE, or is refused. -/
  | dozeEnter (ini : Initiator)
  /-- DOZE_EXIT (R508). A wake sequence restores the module from DOZE without a module start. -/
  | dozeExit (erased : Bool)
  /-- NAP_ENTER (R506). A compute die idle for NAPDLY µs enters NAP. -/
  | napEnter (d : Fin 4)
  /-- NAP_WAKE (R506). A wake cause returns a compute die from NAP to RUN. -/
  | napWake (d : Fin 4)
  /-- PWR_DVFS_WRITE (R510). Crown sets DVFS targets and the PWR block starts the changes. -/
  | pwrDvfsWrite (ini : Initiator) (h : Half) (v : Word)
  /-- DVFS_VOLTAGE_SETTLED (R510). A raised voltage settles and the die's CCLK switches. -/
  | dvfsVoltageSettled (d : Fin 4)
  /-- BRIM_OVERCURRENT (R512). OC_Cd_N is recognised low and Brim's limit is asserted for die d. -/
  | brimOvercurrent (d : Fin 4)
  /-- BRIM_PIN_ASSERT (R512). BRIM_N is recognised low and Brim's limit is asserted on all dies. -/
  | brimPinAssert
  /-- BRIM_STEP_DOWN (R512). After 100 µs more of OC_Cd_N low, die d's frequency drops one point. -/
  | brimStepDown (d : Fin 4)
  /-- BRIM_CLEAR (R512). 1 ms after a pin returns high its Brim cause clears. -/
  | brimClear (pin : Fin 5)
  /-- THERMAL_SAMPLE (R513). Every 1 ms the PWR block samples all temperature sensors. -/
  | thermalSample (t : ThermalReading)
  /-- TRIP_RELEASE (R514). Sensors stay 20 °C below trip for 10 s and THERMTRIP_N is released. -/
  | tripRelease (e : StartEnv)
  /-- AO_CLOCK_LOSS (R509). AO_CLK32K is lost for 1 ms and the always-on sequencer switches source. -/
  | aoClockLoss
  /-- REGISTER_WRITE (R9). A register write without behaviour of its own sets fields by their access codes. -/
  | registerWrite (b : RegSpace) (off : Nat) (data : List Byte) (f : TlpFault)
  /-- HOST_READ (R488). A host memory read to PF0 BAR0 or BAR2 is completed, or refused with Unsupported Request, logged in AER and posted as event 0xA003. -/
  | hostRead (b : HostSpace) (off : Nat) (n : Nat) (f : TlpFault)
  /-- CONFIGURATION_REQUEST (R491). A host configuration request is answered with Request Retry Status while the function is not ready, or applied, for example Memory Space Enable, Bus Master Enable or a Resizable BAR size change. -/
  | configurationRequest (pf1 : Bool) (op : CfgOp)
  /-- FAB_PORT_RETRAIN (R352). A write of FAB_PORT.RETRAIN makes a fabric port train again, the only way out for a port held out of service. -/
  | fabPortRetrain (p : Fin 6) (ini : Initiator)
  deriving DecidableEq, Repr

end Sys2Proof
end

