-- ==== Sys2Proof/Config.lean ====
section
/-! DEFINITION. What the spec leaves open. Every constant here is opaque: nothing in Lean can evaluate it, so a
statement that mentions one holds whatever its value. A free value is drawn by applying the constant to the
state's counter `free`, which the step then advances, or to the operands it may depend on. -/

namespace Sys2Proof.Config

/-- A byte the spec leaves undefined, by draw and position. -/
opaque freeByte : Nat → Nat → Byte

/-- A 64-bit value the spec leaves undefined, by draw. -/
opaque freeWord : Nat → Word

/-- A yes or no the spec leaves open, by draw. -/
opaque freeBool : Nat → Bool

/-- The MAC address of a sensor port, from the identity fuses (R110). -/
opaque portMac : Nat → BitVec 48

/-- TB_LAT of a sensor port in a PHY mode, from the fuses (chapter 16): by port and mode. -/
opaque phyLat : Nat → Nat → Word

/-- The bit of FAB_PORT.CTL that is RETRAIN (R352), whose place the spec does not give. -/
opaque retrainBit : Nat

/-- The order in which the matrix engine's adders combine terms, which R200 does not promise: by draw, entry and step,
the places of the two partial sums added next, taken modulo how many there are. -/
opaque fpOrder : Nat → Nat → Nat → Nat × Nat

/-- The order in which the vector engine sums a row (R238): by row length and step, as for `fpOrder`. -/
opaque vecOrder : Nat → Nat → Nat × Nat

/-- How far a function result of the vector engine lies from the correctly rounded one (R245): by EOP and operands, taken
modulo 5, less 2. -/
opaque vecUlp : Nat → Nat → Nat → Nat

/-- What VEC and SEL write where no rule gives the value, by place and inputs: equal inputs give equal outputs (R238, R269). -/
opaque openResult : Nat → List Nat → Word

/-- The bank that holds a burst of a channel, and its row there with rank, bank group and bank (R327, R340): by burst place. -/
opaque ddrBank : Nat → Nat
opaque ddrRow : Nat → Nat

/-- The device identity in the fuses (R352, R469). -/
opaque deviceId : Word

/-- Whether an image's signature passes under the metrology public key (R441). -/
opaque cloImageOk : List Byte → Bool

/-- The metrology firmware image the factory left in Cloche's flash (R441). -/
opaque cloImage : List Byte

/-- SWID of an image: 16 ASCII characters (R451). -/
opaque cloSwid : List Byte → Nat → Byte

/-- The public modulus of the record key and Woulavo's signature over it, 384 bytes each (R453). -/
opaque cloModulus : Nat → Byte
opaque cloKeySig : Nat → Byte

/-- Factory calibration in the fuses (R474): offset of temperature sensor k in 1/16 degree C, oscillator trim code, trims
of the voltage monitors, SerDes defaults, speed bin. -/
opaque factoryTemp : Nat → BitVec 16
opaque factoryTrim : BitVec 16
opaque voltTrim : Nat → Byte
opaque serdesCal : Nat → Byte
opaque speedBin : Byte

/-- The grade in the fuses (R2): true for CYT-3280-M. -/
opaque grade : Bool

/-- The firmware image the factory left in the module flash (R465). -/
opaque crnImage : List Byte

/-- Whether a signature over bytes passes under the firmware key, and under the debug key (R465, R472). -/
opaque crnSigOk : List Byte → List Byte → Bool
opaque dbgSigOk : List Byte → List Byte → Bool

/-- SHA-256 of Crown's ROM, and of the fuses with `svn` of MINSVN blown (R471), byte by byte. -/
opaque crnRomHash : Nat → Byte
opaque fuseHash : Nat → Nat → Byte

/-- The identity certificate (R469), byte by byte. -/
opaque cert : Nat → Byte

end Sys2Proof.Config
end

