-- ==== Sys2Proof/Machine/ArithState.lean ====
section
/-! DEFINITION. What the arithmetic engines of a core hold besides their queues: MXE (R207, R210, R235), VEC (R242,
R255, R263) and SEL (R282). -/

namespace Sys2Proof.Machine

/-- MXSTAT.RAMP. -/
inductive Ramp where
  | idle | up | full | down
  deriving DecidableEq, Repr

/-- The matrix engine: cube groups enabled, ramp, and the counters MXCNT and SPCNT. -/
structure MxeState where
  groups : Nat
  ramp   : Ramp
  /-- clk that the ramp-up in progress still takes. -/
  rampClk : Nat
  /-- clk since the last step issued, counted up to 88. -/
  idleClk : Nat
  /-- Throttled clk below the next unit of 1,024 of MXCNT.THRK. -/
  thrClk : Nat
  mxcnt  : Word
  spcnt  : Word
  deriving DecidableEq, Repr

/-- A saturation stream (SATCFG, SATST). -/
structure SatStream where
  win   : Nat
  thr   : Nat
  total : Nat
  wcnt  : Nat
  wrows : Nat
  alarm : Bool
  /-- The window in progress has already exceeded THR. -/
  told  : Bool
  deriving DecidableEq, Repr

/-- The vector engine: stream record base, counters and streams. -/
structure VecState where
  stbase : Option Nat
  vcnt   : Word
  sat    : Vector SatStream 16
  deriving DecidableEq, Repr

def MxeState.reset : MxeState := ⟨0, .idle, 0, 88, 0, 0, 0⟩
def SatStream.reset : SatStream := ⟨0, 0, 0, 0, 0, false, false⟩
def VecState.reset : VecState := ⟨none, 0, Vector.replicate 16 SatStream.reset⟩

end Sys2Proof.Machine
end

