-- ==== Sys2Proof/Machine/CloState.lean ====
section
/-! DEFINITION. What Cloche holds (chapter 19): command channels, installation parameters, reference, captures, records,
the audit log and its counters. -/

namespace Sys2Proof.Machine

/-- A command channel (R454): its 256-byte area, whether its command executes or is done, and the response. -/
structure CloChan where
  area : Mem
  exec : Bool
  done : Bool
  rsp  : List Byte
  /-- The completion interrupt of the command in progress is lost (R492). -/
  mute : Bool
  deriving DecidableEq, Repr

/-- Sweep tracking of one sensor (R119, R120, R446). -/
structure CloTrack where
  /-- Base time of the open sweep, and whether the sweep belongs to the capture. -/
  base   : Option (BitVec 32)
  inCap  : Bool
  lastA  : Option Nat
  lastF7 : Option Int
  deriving DecidableEq, Repr

/-- A capture or belt run in progress (R446 to R448, R455). -/
structure CloCap where
  /-- 1 measuring, 2 belt run, 3 zeroing: CAP of CLO_STAT. -/
  kind   : Nat
  /-- The parameter blocks it started with. -/
  blocks : SMap (List Byte)
  evcnt  : BitVec 32
  phash  : List Byte
  tstart : Option Word
  tend   : Word
  npts   : Nat
  ndrop  : Nat
  nout   : Nat
  /-- S and N of each cell, by j * NX + i. -/
  cells  : SMap (Int × Nat)
  sealOpen : Bool
  encErr : Bool
  /-- Domain A was neither LOCKED nor FOLLOW at the last frame used. -/
  timex  : Bool
  /-- Sweeps of each sensor that have started, and that have closed, in this capture. -/
  begun  : Vector Nat 4
  closed : Vector Nat 4
  /-- Belt: B, sums of NDEF and NEMPTY, whether a profile was EMPTY, the count at BELTSTART, the count latched at the start
  of the newest sweep, and A_k of the closed profile that waits for the next sweep's start. -/
  belt   : Int
  ndef   : Nat
  nempty : Nat
  empty  : Bool
  encStart : Int
  latch  : Int
  profile : Option Int
  /-- TB_CNT at the last frame used, or at the start. -/
  lastAt : Word
  deriving DecidableEq, Repr

/-- Cloche. -/
structure CloState where
  /-- VDD_CLO is good and Cloche has started. -/
  on     : Bool
  nofw   : Bool
  fault  : Bool
  pvalid : Bool
  refValid : Bool
  sealOpen : Bool
  /-- The image in flash; none is the factory's. -/
  image  : Option (List Byte)
  /-- A write of the image has failed. -/
  imageBad : Bool
  /-- Effective and staged blocks, by number. -/
  blocks : SMap (List Byte)
  staged : SMap (List Byte)
  /-- Blocks whose two copies in flash have both failed (R441). -/
  lost   : List Nat
  phash  : List Byte
  evcnt  : BitVec 32
  /-- The last RSEQ given. -/
  rseq   : Word
  zseq   : Word
  /-- Audit entries, newest first, at most 1,024. -/
  audit  : List (List Byte)
  /-- Defined reference heights, by cell. -/
  ref    : SMap Int
  /-- The last height map. -/
  map    : SMap (Int × Nat)
  mapCells : Nat
  cap    : Option CloCap
  track  : Vector CloTrack 4
  /-- Records formed and not yet written, and the last 1,024 in flash, newest first. -/
  queue  : List (Word × List Byte)
  recs   : List (Word × List Byte)
  slots  : Vector (List Byte) 16
  chA    : CloChan
  chB    : CloChan
  /-- The channel served first when both hold a command: B. -/
  tokB   : Bool
  lastRes : Byte
  cmdref : Nat
  cecc   : Nat
  ndropf : Nat
  fwStage : Mem
  encA   : Bool
  encB   : Bool
  enc    : Int
  /-- Domain A stamp of the last tapped frame. -/
  lastTime : Word
  deriving DecidableEq, Repr

def CloChan.reset : CloChan := ⟨[], false, false, [], false⟩
def CloTrack.reset : CloTrack := ⟨none, false, none, none⟩

/-- A reference height that is not defined (R447). -/
def refUndef : Int := -8388608

/-- Cloche before VDD_CLO, as the factory leaves it: no parameters, no reference. -/
def CloState.reset : CloState :=
  { on := false, nofw := false, fault := false, pvalid := false, refValid := false, sealOpen := false, image := none
    imageBad := false, blocks := [], staged := [], lost := [], phash := [], evcnt := 0, rseq := 0, zseq := 0, audit := [], ref := []
    map := [], mapCells := 0, cap := none, track := Vector.replicate 4 CloTrack.reset, queue := [], recs := []
    slots := Vector.replicate 16 [], chA := CloChan.reset, chB := CloChan.reset, tokB := false, lastRes := 0, cmdref := 0
    cecc := 0, ndropf := 0, fwStage := [], encA := false, encB := false, enc := 0, lastTime := 0 }

end Sys2Proof.Machine
end

