-- ==== Sys2Proof/Machine/CoreState.lean ====
section
/-! DEFINITION. What one core holds: its sequencer (chapter 02), its engine queues (R66 to R71), its scratchpad,
Cuff, slot tags, windows, sync objects, signal gate and launch slots (chapter 03). The geometry and grid part of a
core stands in Machine/GridState.lean, its DMA channels in Machine/DmaState.lean. -/

namespace Sys2Proof.Machine

/-- One open loop of the loop stack (R51, R52): the body is words `start` to `stop`, `count` iterations remain. -/
structure LoopLevel where
  start : Nat
  stop  : Nat
  count : Nat
  deriving DecidableEq, Repr

/-- One level of the call stack (R55): the return address and the loop depth at the call. -/
structure CallLevel where
  ret   : Nat
  depth : Nat
  deriving DecidableEq, Repr

/-- What a sequencer that has not finished its instruction is waiting for. `since` of a timed wait is the task's
clock counter when the wait began (R61). -/
inductive SeqWait where
  /-- LD or ST to a line whose slot tag does not permit it yet (R48). -/
  | lineTag
  /-- TWAIT (R60, R61). -/
  | tag (since : Nat)
  /-- SWAIT (R60, R61). -/
  | sync (since : Nat)
  /-- FENCE (R49). -/
  | fence
  /-- DRAIN of the engines its word names (R58). -/
  | drain
  /-- ISSUE blocked by R70. -/
  | issue
  deriving DecidableEq, Repr

/-- What a sequencer is doing. -/
inductive Phase where
  /-- No task is running on the core. -/
  | idle
  /-- A launch slot is taken and its record is being validated or its banks prepared (R101 to R104). -/
  | preparing
  /-- The task's next instruction may execute. -/
  | running
  /-- An instruction is blocked. -/
  | waiting (w : SeqWait)
  /-- HALT executed; the task ends with this status once everything issued has completed (R57). -/
  | halting (status : Byte)
  /-- The task failed with this status; its started commands still complete (R74 step 3). -/
  | ending (status : Byte)
  deriving DecidableEq, Repr

/-- The sequencer of a core (the table "Sequencer state" of chapter 02, R39, R40). `pc` is a word index; 32,768
is the position past the last word (R50). -/
structure SeqState where
  phase  : Phase
  pc     : Nat
  regs   : Vector Word 32
  flags  : BitVec 8
  loops  : List LoopLevel
  calls  : List CallLevel
  budget : BitVec 32
  clk    : Word
  /-- Which of the core's four launch slots the task runs from. -/
  slot   : Fin 4
  deriving DecidableEq, Repr

/-- A 256-bit engine command (R66). -/
structure EngCmd where
  w0 : Word
  w1 : Word
  w2 : Word
  w3 : Word
  deriving DecidableEq, Repr

/-- A command an engine has started; `done` once all its work is performed and only its completion is due. -/
structure ActiveCmd where
  cmd  : EngCmd
  done : Bool
  deriving DecidableEq, Repr

/-- A write that an engine's command has worked out and that waits for its line's slot tag (R88): at most a line, through
the narrow or the wide port. -/
structure EngPut where
  addr   : Nat
  bytes  : List Byte
  narrow : Bool
  deriving DecidableEq, Repr

/-- How far the command in work has come with its accesses, which obey the slot tags line by line (R69, R88): the lines it
has read, with what they held then; whether its results are worked out; the writes still due, in order; and whether an
access to a bank without power was not performed (R539). -/
structure EngWork where
  latch    : SMap (List Byte)
  computed : Bool
  puts     : List EngPut
  lost     : Bool
  deriving DecidableEq, Repr

/-- A command that has made no access. -/
def EngWork.none : EngWork := ⟨[], false, [], false⟩

/-- One engine of a core: its queue of at most 64 commands, the commands it has started, oldest first, how far the command
in work has come, for commands whose work takes several steps, and its accesses. -/
structure EngState where
  queue  : List EngCmd
  active : List ActiveCmd
  phase  : Nat
  work   : EngWork
  deriving DecidableEq, Repr

/-- One entry of the Cuff (R81): a line, its valid bytes by offset, and whose narrow writes it holds (bit e for
engine e, bit 7 for the sequencer). -/
structure CuffEntry where
  line   : Nat
  bytes  : List (Nat × Byte)
  owners : BitVec 8
  deriving DecidableEq, Repr

/-- A slot-tag descriptor (R86, TAGDESC). -/
structure TagDesc where
  en   : Bool
  full : Bool
  size : Nat
  base : Nat
  deriving DecidableEq, Repr

/-- A window (R64, R91, WIN). -/
structure Window where
  isOpen : Bool
  base   : Nat
  len    : Nat
  matchv : Byte
  mask   : Byte
  deriving DecidableEq, Repr

/-- The state of a launch slot (R100). -/
inductive SlotState where
  | empty | pending | running | done
  deriving DecidableEq, Repr

/-- A launch slot (R99, R100, LSTAT, LCLK, LTIME). -/
structure LaunchSlot where
  record : Rec64
  state  : SlotState
  status : Byte
  seqno  : BitVec 32
  lclk   : Word
  ltime  : Word
  deriving DecidableEq, Repr

/-- Within which sender a signal must not overtake a window write: an initiator of this module (R95), or a module of the
fabric with all its initiators (R361). -/
inductive Sender where
  | ini (i : Ini)
  | module (m : BitVec 15)
  deriving DecidableEq, Repr

/-- What waits for a bank that is being powered up or cleared: a window write, or a signal that comes after one of the same
initiator (R94, R95). -/
inductive HeldAccess where
  | write (who : Sender) (off : Nat) (data : List Byte)
  | signal (who : Sender) (n : Nat) (v : Word)
  deriving DecidableEq, Repr

/-- The scratchpad side of a core (chapter 03). -/
structure SpdState where
  mem     : Mem
  cuff    : List CuffEntry
  tags    : SMap TagDesc
  windows : SMap Window
  sync    : SMap Word
  sgBase  : Nat
  sgCnt   : Nat
  sgMatch : Byte
  sgMask  : Byte
  wviol   : Nat
  sgref   : Nat
  cecc    : Nat
  bankOn  : BitVec 16
  lastIni : Byte
  lastOff : Nat
  slots   : Vector LaunchSlot 4
  /-- The slot the sequencer took last (R101). -/
  lastTaken : Option (Fin 4)
  /-- Accesses that wait for a bank being powered up or cleared, oldest first (R94, R95). -/
  held    : List HeldAccess
  deriving DecidableEq, Repr

/-- The tag descriptor an unlisted number reads as. -/
def TagDesc.zero : TagDesc := ⟨false, false, 0, 0⟩

/-- A window never opened. -/
def Window.closed : Window := ⟨false, 0, 0, 0, 0⟩

/-- A launch slot after reset (R100). -/
def LaunchSlot.reset : LaunchSlot := ⟨0, .empty, 0, 0, 0, 0⟩

/-- The sequencer after reset: no task. -/
def SeqState.reset : SeqState :=
  ⟨.idle, 0, Vector.replicate 32 0, 0, [], [], 0, 0, 0⟩

/-- An engine with nothing issued. -/
def EngState.reset : EngState := ⟨[], [], 0, EngWork.none⟩

/-- The scratchpad side after a reset of the core's partition (R105). -/
def SpdState.reset : SpdState :=
  ⟨[], [], [], [], [], 0, 0, 0, 0, 0, 0, 0, 0, 0, 0, Vector.replicate 4 LaunchSlot.reset, none, []⟩

end Sys2Proof.Machine
end

