-- ==== Sys2Proof/Machine/CrnState.lean ====
section
/-! DEFINITION. What Crown and the CRN block hold (chapter 20): the image, the mailbox of both channels, result and input
buffers, telemetry, the control loops, debug access, and what Crown keeps in flash. -/

namespace Sys2Proof.Machine

/-- What Crown is doing; CRN_STAT.STATE shows UPDATING while a firmware write is in progress. -/
inductive CrnMode where
  | rom | running | recovery
  deriving DecidableEq, Repr

/-- Crown's five priority classes, highest first (R461). -/
inductive CrnClass where
  | loops | faults | requests | management | telemetry
  deriving DecidableEq, Repr

/-- Management work for Crown: a message that has arrived over port p, the value of a BRIDGE, or a change of this module's
links (R353, R357, R389). -/
inductive MgmtWork where
  | message (p : Fin 6) (m : FabMgmt)
  | bridge (k : Fin 2) (v : Word)
  | links
  deriving DecidableEq, Repr

/-- A request accepted by the mailbox (R477). -/
structure MbxReq where
  opc  : BitVec 16
  tag  : BitVec 16
  data : List Byte
  deriving DecidableEq, Repr

/-- A response (R477). -/
structure MbxRsp where
  opc  : BitVec 16
  tag  : BitVec 16
  res  : Byte
  data : List Byte
  deriving DecidableEq, Repr

/-- One channel of the mailbox: its requests waiting, oldest first, its result buffer with the TAG that names it, and its
input buffer (R477). -/
structure MbxChan where
  queue  : List MbxReq
  result : Mem
  resTag : Option (BitVec 16)
  input  : Mem
  deriving DecidableEq, Repr

/-- A debug challenge and TB_CNT when it was given (R472). -/
structure Challenge where
  bytes : List Byte
  cnt   : Word
  deriving DecidableEq, Repr

/-- A telemetry ring in DDR (R481). -/
structure TelemRing where
  base    : Nat
  entries : Nat
  deriving DecidableEq, Repr

/-- Crown and the CRN block. -/
structure CrnState where
  mode : CrnMode
  /-- RECOVERY was entered at a module start, not by a watchdog restart (R467, R498). -/
  atStart : Bool
  /-- CRN_COREAV: logical cores available. -/
  coreAv : BitVec 32
  /-- The running image; none is the factory's. -/
  running : Option (List Byte)
  /-- Watchdog restarts, load, COAL, and TB_CNT since which the load has been below 70 %. -/
  rst    : Nat
  load   : Nat
  coal   : Bool
  lowSince : Option Word
  /-- A heartbeat was missed, and 0x9020 is due (R463). -/
  hbMissed : Bool
  /-- TB_CNT when the power loop and the thermal loop last ran, and the management work that waits, oldest first (R461). -/
  loopAt : Word
  thermAt : Word
  mgmtQ  : List MgmtWork
  /-- What the power loop wants of each die, the thermal loop's bound, and TB_CNT since which a die has been 5 degrees below
  its limit (R482). -/
  pts    : Vector (Fin 8) 4
  thermal : Vector (Fin 8) 4
  coolAt : Vector (Option Word) 4
  /-- Telemetry: the newest record, the ring, records written, and what the next record gathers (R481). -/
  newest : List Byte
  ring   : Option TelemRing
  twidx  : BitVec 32
  gap    : Bool
  tmax   : Vector Int 24
  clkMin : Option Nat
  sawBrim : Bool
  sawThrot : Bool
  /-- The mailbox: MBX_REQ, MBX_LAST, the response ring and its indexes, and the two channels. -/
  reqArea : Mem
  lastTag : BitVec 16
  lastRes : Nat
  busyN   : Nat
  rspRing : SMap MbxRsp
  rwidx   : BitVec 16
  rridx   : BitVec 16
  pcie    : MbxChan
  smb     : MbxChan
  /-- SMBus responses not yet read, oldest first. -/
  smbRsp  : List MbxRsp
  /-- SMBus is served first when both channels hold a request. -/
  tokSmb  : Bool
  /-- The image being written to flash, and the result of the last update. -/
  update  : Option (List Byte)
  fwRes   : Byte
  /-- The staging area of recovery. -/
  staging : Mem
  /-- Debug access (R472, CRN_DBG). -/
  chal    : Option Challenge
  unlocked : Bool
  scope   : BitVec 2
  refn    : Nat
  /-- Flash: the image, none for the factory's; whether no valid image remains; user calibration and stored configuration by
  item. -/
  image   : Option (List Byte)
  imageBad : Bool
  userCal : SMap (List Byte)
  stored  : SMap (BitVec 128)
  /-- MINSVN fuses blown, and the RATE that the last cold restart gave domain A (R474). -/
  minSvn  : Nat
  calRate : BitVec 32
  /-- Straps SMB_ADDR[1:0] as sampled (R524). -/
  smbAddr : BitVec 2
  deriving DecidableEq, Repr

def MbxChan.reset : MbxChan := ⟨[], [], none, []⟩

/-- Crown after a module start, with what flash, fuses and straps hold: the CRN block and the queues are clear (R478). -/
def CrnState.start (image : Option (List Byte)) (bad : Bool) (cal : SMap (List Byte)) (stored : SMap (BitVec 128)) (svn : Nat)
    (rate : BitVec 32) (smb : BitVec 2) : CrnState :=
  { mode := .rom, atStart := true, coreAv := 0, running := none, rst := 0, load := 0, coal := false, lowSince := none
    hbMissed := false, loopAt := 0, thermAt := 0, mgmtQ := [], pts := Vector.replicate 4 6, thermal := Vector.replicate 4 7, coolAt := Vector.replicate 4 none
    newest := [], ring := none, twidx := 0, gap := false, tmax := Vector.replicate 24 0, clkMin := none, sawBrim := false
    sawThrot := false, reqArea := [], lastTag := 0, lastRes := 0, busyN := 0, rspRing := [], rwidx := 0, rridx := 0
    pcie := MbxChan.reset, smb := MbxChan.reset, smbRsp := [], tokSmb := false, update := none, fwRes := 0, staging := []
    chal := none, unlocked := false, scope := 0, refn := 0, image := image, imageBad := bad, userCal := cal, stored := stored
    minSvn := svn, calRate := rate, smbAddr := smb }

/-- Crown before the first module start, with the factory's image and nothing stored. -/
def CrnState.reset : CrnState := CrnState.start none false [] [] 0 0 3

end Sys2Proof.Machine
end

