-- ==== Sys2Proof/Machine/DdrState.lean ====
section
/-! DEFINITION. What the DDR4 memory system holds (chapter 14). Memory is keyed by place: channel times 2^36 plus the
byte offset within the channel, because a region register can give one place different device addresses over time
(R326, R327). -/

namespace Sys2Proof.Machine

/-- A burst of an access that its channel has not let through yet: the access, its partition and the place (R332). -/
structure DdrBurst where
  id   : Nat
  part : Fin 4
  key  : Nat
  deriving DecidableEq, Repr

/-- A read whose bursts are not all let through: its completion is held (R331). -/
structure DdrReply where
  id   : Nat
  ini  : Ini
  addr : Nat
  data : Option (List Byte)
  deriving DecidableEq, Repr

/-- The state of one DDR channel (DDR_CH, R332, R334, R337, R339). -/
structure ChanState where
  /-- DDR_CH STAT.STATE: 0 not started, 1 training, 2 running, 3 stopped, 4 failure. -/
  state  : BitVec 3
  temp   : Byte
  fvalid : Bool
  frank  : Bool
  fdev   : Nat
  ref2x  : Bool
  /-- The DIMM drives EVENT_n low (R334). -/
  eventN : Bool
  /-- Time of its last deassertion, in TB ticks. -/
  eventOff : Option Word
  /-- The high limit in the DIMM's thermal sensor, in °C, once Crown has programmed it (R334). -/
  limit  : Option Nat
  ce     : Nat
  ue     : Nat
  /-- Times of the corrections laid to each rank and device (rank * 18 + device), of the last 24 h (R337). -/
  devCe  : SMap (List Word)
  /-- Grants of each partition in the current frame of 64 (R332). -/
  grants : Vector Nat 4
  /-- Rotating tokens of the pairs P0/P1 and P2/P3 (R332). -/
  tokLo  : Bool
  tokHi  : Bool
  /-- The DDR_BW value in force in the current frame (R332). -/
  bw     : Word
  /-- Refreshes of every rank carried out (R334). -/
  refreshes : Nat
  /-- Bursts waiting for a grant, oldest first, and the row open in each bank (R332). -/
  queue  : List DdrBurst
  rows   : SMap (Option Nat)
  /-- Half nanoseconds of the channel not used by a burst; a burst takes 5 (4 memory-die clk). -/
  credit : Nat
  /-- The next 64-byte burst the scrubber reads (R335). -/
  scrubAt : Nat
  /-- Time of the last 0x2010 + ch event (R337), in TB ticks, if any. -/
  lastCe : Option Nat
  deriving DecidableEq, Repr

/-- The DDR block. -/
structure DdrState where
  mem  : Mem
  /-- 64-byte bursts, by place divided by 64, whose every read is uncorrectable until a write covers them (R338). -/
  bad  : SMap Bool
  rgn  : Vector Word 16
  bw   : Vector Word 2
  cfg  : Word
  ch   : Vector ChanState 16
  ueLo : Word
  ueHi : Word
  refLo : Word
  refHi : Word
  /-- Reads whose completion is due, and the number of the next access. -/
  replies : List DdrReply
  nextId : Nat
  /-- Rows under soft repair since the last cold start, as LOC of their records (R340). -/
  soft   : List Word
  /-- Every channel is in self-refresh (R341, R504, R505). -/
  selfRefresh : Bool
  deriving DecidableEq, Repr

/-- The reset value of DDR_BW: every MIN 0, every WT 1. -/
def bwReset : Word := 0x0000011110000000#64

/-- A channel that has not been started. -/
def ChanState.reset : ChanState :=
  ⟨0, 0, false, false, 0, false, false, none, none, 0, 0, [], Vector.replicate 4 0, false, false, bwReset, 0, [], [], 8, 0, none⟩

/-- The block after a module reset. -/
def DdrState.reset : DdrState :=
  ⟨[], [], Vector.replicate 16 0, Vector.replicate 2 bwReset, 0, Vector.replicate 16 ChanState.reset,
    0, 0, 0, 0, [], 0, [], false⟩

end Sys2Proof.Machine
end

