-- ==== Sys2Proof/Machine/DmaState.lean ====
section
/-! DEFINITION. What the DMA engines hold (chapter 13): 8 channels per core, 16 per memory die, and the region
registers of the privileged channels. -/

namespace Sys2Proof.Machine

/-- How far the descriptor in progress has come. -/
inductive DescPhase where
  /-- No list runs. -/
  | idle
  /-- Fetched, not yet checked. -/
  | fetched
  /-- Checked; its bursts are under way. -/
  | running
  /-- Executed or marked BAD; STATUS and signals are due. -/
  | executed
  deriving DecidableEq, Repr

/-- The descriptor after the one in progress, once it has been fetched (R312). -/
inductive Prefetch where
  | none
  | unreadable
  | some (d : Rec64)
  deriving DecidableEq, Repr

/-- How far the bursts of a descriptor have come (R308 to R314): elements or lines taken up, source bytes read for the
next of them, writes formed and not yet issued, and what STATUS will report. -/
structure DmaProg where
  unit : Nat
  got  : List Byte
  puts : List (Nat × List Byte)
  /-- The WRITE packet being filled for another module, with its address (R541). -/
  pktAt : Nat
  pkt  : List Byte
  /-- Destination bytes written; of a CMP, bytes compared. -/
  done : Nat
  mism : Bool
  satd : Bool
  val  : Nat
  deriving DecidableEq, Repr

/-- A descriptor none of whose bursts has been served. -/
def DmaProg.zero : DmaProg := ⟨0, [], [], 0, [], 0, false, false, 0⟩

/-- One DMA channel (DCH_HEAD, DCH_CTL, DCH_STAT, DCH_CUR and the list in progress). -/
structure DmaChan where
  head  : Word
  part  : Nat
  prio  : Nat
  cnt   : Nat
  /-- A stop is asked for (R315). -/
  stop  : Bool
  descs : Nat
  nbad  : Nat
  endc  : Nat
  reg   : Bool
  busy  : Bool
  /-- Address and space of the descriptor in progress, or of the last one executed (DCH_CUR). -/
  cur   : Nat
  csp   : Bool
  /-- Address and space of the descriptor to be fetched. -/
  want  : Nat
  wsp   : Bool
  phase : DescPhase
  desc  : Rec64
  next  : Prefetch
  prog  : DmaProg
  /-- Descriptors a privileged channel still executes (R318). -/
  left  : Nat
  /-- The STATUS to be written, and whether the half signal has been given. -/
  status : Word
  half  : Bool
  /-- List status of a RUN: offset and whether to write it (R319). -/
  soff  : Nat
  sen   : Bool
  /-- Priority level of the list in progress. -/
  level : Nat
  deriving DecidableEq, Repr

/-- A region register of a privileged channel (DRGN). -/
structure Drgn where
  base  : Nat
  limit : Nat
  deriving DecidableEq, Repr

/-- All DMA engines. `irq` holds the interrupt raised and not yet taken on each controller's input: per die, channel
14 for Cloche and 15 for Gauntlet (R318). -/
structure DmaState where
  cores : Vector (Vector DmaChan 8) 32
  dies  : Vector (Vector DmaChan 16) 2
  drgn  : Vector (Vector Drgn 2) 2
  irq   : Vector (Vector Bool 2) 2
  /-- The channel each engine granted last (R314). -/
  coreTok : Vector (Fin 16) 32
  dieTok  : Vector (Fin 16) 2
  deriving DecidableEq, Repr

def DmaChan.reset : DmaChan :=
  ⟨0, 0, 0, 0, false, 0, 0, 0, false, false, 0, false, 0, false, .idle, 0, .none, DmaProg.zero, 0, 0, false, 0, false, 0⟩

def DmaState.reset : DmaState :=
  ⟨Vector.replicate 32 (Vector.replicate 8 DmaChan.reset), Vector.replicate 2 (Vector.replicate 16 DmaChan.reset),
    Vector.replicate 2 (Vector.replicate 2 ⟨0, 0⟩), Vector.replicate 2 (Vector.replicate 2 false),
    Vector.replicate 32 15, Vector.replicate 2 15⟩

end Sys2Proof.Machine
end

