-- ==== Sys2Proof/Machine/FabState.lean ====
section
/-! DEFINITION. What the Rennus fabric holds (chapter 15): addresses and maps, the six ports with their queues, credits
and codeword numbers, packets that have arrived, discovery, and the collective engine. -/

namespace Sys2Proof.Machine

/-- What the peer's HELLO said (R352). -/
abbrev FabPeer := Hello

/-- A packet held for an output port: where it came from (a port and the virtual channel of its input buffer, or the
module itself). -/
structure FabEntry where
  pkt  : FabPkt
  from' : Option (Fin 6 × Fin 4)
  deriving DecidableEq, Repr

/-- One port: STAT, lanes excluded by repair, the peer, the packets held for it, and the link layer of R347 and R359. -/
structure FabPort where
  /-- STAT.STATE: 0 down, 1 training, 2 up awaiting address, 3 up, 4 held, 5 draining. -/
  state : Nat
  /-- STAT.MODE: 0 off, 1 torus, 2 trunk. -/
  mode  : Nat
  lanes : BitVec 5
  uncw  : Nat
  csym  : Nat
  /-- Lanes that a repair record excludes (R345). -/
  excl  : BitVec 5
  peer  : Option FabPeer
  queue : List FabEntry
  /-- Packets that a draining port still sends. -/
  drain : Nat
  /-- Cumulative flits sent, the peer's CNT, and cumulative flits freed, per virtual channel. -/
  sent  : Vector (BitVec 16) 4
  cnt   : Vector (BitVec 16) 4
  freed : Vector (BitVec 16) 4
  /-- Numbers of the next codeword to send and to receive; the last ACK. -/
  txCw  : BitVec 32
  rxCw  : BitVec 32
  ack   : BitVec 32
  /-- A NAK is outstanding on the receiving side. -/
  nak   : Bool
  /-- Consecutive NAKs of codeword `ack`, received. -/
  naks  : Nat
  /-- TB_CNT at the last replay event. -/
  replay : Option Word
  /-- Rotating tokens over inputs and virtual channels. -/
  tokIn : Nat
  tokVc : Nat
  /-- Tenths of a nanosecond since the last codeword. -/
  acc   : Nat
  /-- The packets of the last 256 codewords, each with the number of its codeword, and the number after the last codeword
  sent; `txCw` lies behind it while a replay runs (R347). -/
  store : List (BitVec 32 × FabPkt)
  top   : BitVec 32
  /-- The port has drained and trains again without a lane: packets for it wait (R345). -/
  wait  : Bool
  deriving DecidableEq, Repr

/-- A module that the origin's survey has placed. -/
structure SurveyNode where
  ident : Word
  coord : Nat
  route : List (Fin 6)
  peers : Vector (Option Word) 6
  deriving DecidableEq, Repr

/-- The origin's survey (R353): modules placed, identities left unplaced, and routes not answered. -/
structure Survey where
  nodes   : List SurveyNode
  bad     : List Word
  waiting : List (List (Fin 6))
  deriving DecidableEq, Repr

/-- A running collective operation (R363, R364). `store` holds phase results by phase and fragment. -/
structure ColOp where
  desc  : Rec64
  part  : Fin 4
  /-- Fragments whose last result is written to DST. -/
  done  : Nat
  sat   : Bool
  nan   : Bool
  store : List (Nat × Nat × List Byte)
  deriving DecidableEq, Repr

/-- The FAB block. -/
structure FabState where
  valid  : Bool
  origin : Bool
  addr   : BitVec 15
  /-- The strap FAB_ORIGIN_N, low (R353). -/
  strap  : Bool
  /-- The configured slice number and, at the origin, the configured sizes and wraps (user configuration). -/
  cfgSlice : Fin 64
  cfgSize  : Vector (Fin 9) 3
  cfgWrap  : Vector Bool 3
  /-- FAB_CFG. -/
  size   : Vector (Fin 9) 3
  wrap   : Vector Bool 3
  /-- FAB_HALL. -/
  hall   : Bool
  dlp    : Bool
  dln    : Bool
  admitMask  : Word
  slices : BitVec 128
  map    : FabMap
  ports  : Vector FabPort 6
  /-- FAB_DROP: packets counted under 0x3060 to 0x3063. -/
  drops  : Vector Word 4
  /-- Packets that have arrived for this module, oldest first, with the input buffer they occupy. -/
  inbox  : List FabEntry
  survey : Option Survey
  /-- The modules that the origin's last survey placed, with what their ends report (R357). -/
  placed : List SurveyNode
  /-- The survey tree: the port towards the origin, and the ports towards children (R388). -/
  parent : Option (Fin 6)
  tree   : BitVec 6
  colq   : Rec64
  colTmo : Word
  colStat : SMap (BitVec 128)
  /-- Descriptors refused (R363). -/
  colRef : Nat
  ops    : List ColOp
  /-- Fragments that wait for a descriptor or for a phase result, with their port. -/
  frags  : List (Fin 6 × FabPkt)
  deriving DecidableEq, Repr

def FabPort.reset : FabPort :=
  ⟨0, 0, 0, 0, 0, 0, none, [], 0, Vector.replicate 4 0, Vector.replicate 4 0, Vector.replicate 4 0, 0, 0, 0, false, 0, none, 0, 0, 0, [], 0, false⟩

/-- The block after a module start, for a configured slice: FAB_ADMIT admits that slice only (R362). -/
def FabState.start (slice : Fin 64) (size : Vector (Fin 9) 3) (wrap : Vector Bool 3) (strap : Bool) (excl : Vector (BitVec 5) 6) :
    FabState :=
  { valid := false, origin := strap, addr := 0, strap := strap, cfgSlice := slice, cfgSize := size, cfgWrap := wrap,
    size := Vector.replicate 3 0, wrap := Vector.replicate 3 false, hall := false, dlp := false, dln := false,
    admitMask := (1 : Word) <<< slice.val, slices := 0, map := ⟨0, 0⟩,
    ports := excl.map fun x => { FabPort.reset with excl := x }, drops := Vector.replicate 4 0, inbox := [], survey := none, placed := [], parent := none, tree := 0,
    colq := 0, colTmo := 1000000, colStat := [], colRef := 0, ops := [], frags := [] }

def FabState.reset : FabState :=
  FabState.start 0 (Vector.replicate 3 1) (Vector.replicate 3 false) false (Vector.replicate 6 0)

end Sys2Proof.Machine
end

