-- ==== Sys2Proof/Machine/FltState.lean ====
section
/-! DEFINITION. What the FLT block holds (chapters 01 and 18): the partition map, the repair map, core fences,
partition and module restart requests, the repair table and the fault log; and what the PWR block holds (chapter
22). -/

namespace Sys2Proof.Machine

/-- FLT_PSTAT.STATE of a partition. -/
inductive PartState where
  | running | restarting | held
  deriving DecidableEq, Repr

/-- A repair record (R430). `loc` is bytes 0x04 to 0x0B; `copies` says which of the two copies pass their CRC. -/
structure RepairRec where
  type : Byte
  rfl' : Byte
  seq  : BitVec 16
  loc  : Word
  ok1  : Bool
  ok2  : Bool
  deriving DecidableEq, Repr

/-- A fault-log entry (R434). -/
structure LogEntry where
  cnt    : Word
  timea  : Word
  code   : Code
  src    : Ini
  part   : Byte
  phys   : BitVec 16
  act    : Byte
  detail : Word
  deriving DecidableEq, Repr

/-- A restart of the module that is under way (R428, R429, R503). -/
inductive Restart where
  | none | warm | cold
  deriving DecidableEq, Repr

/-- The FLT block and the repair map. -/
structure FltState where
  part   : Vector PartState 4
  rcnt   : Nat
  unbound : BitVec 32
  fenced : BitVec 32
  lost   : Nat
  pmap   : Word
  peff   : Word
  /-- Physical core (0 to 35) each logical core is bound to (R18, R19). -/
  bind   : Vector (Option Nat) 32
  /-- Physical cores known to have failed, by fuse or by record (R19, R432). -/
  failed : List Nat
  /-- Fences of physical cores, with TB_CNT, newest first (R431). -/
  fences : List (Nat × Word)
  /-- Corrected errors of scratchpad row groups (type 2) and DDR rows (type 4), by type and location, with TB_CNT,
  newest first (R431, R340). -/
  rowErr : List (Byte × Word × Word)
  /-- DDR rows with an uncorrectable error whose event Crown has not taken (R340). -/
  rowUe  : List Word
  /-- Scratchpad row groups mapped to spares: (physical core * 16 + bank) * 32 + row group (R433). -/
  rowMap : List Nat
  /-- Factory-fused failed physical cores. -/
  fuses  : List Nat
  table  : List RepairRec
  log    : List LogEntry
  flashLog : List LogEntry
  /-- FLT_MRST bits written and not yet acted on. -/
  mrst   : Restart
  /-- Repair records the FLT block queued for Crown (R19, R426). -/
  repairQ : List RepairRec
  deriving DecidableEq, Repr

/-- What the module's power inputs and always-on domain let it do (R501 to R508). -/
inductive PwrMode where
  /-- VDD_AO absent. -/
  | off
  /-- The always-on domain runs; no module start has begun, or PWROK_MAIN was lost. -/
  | aoOnly
  /-- A restart is held at its first step (R503, R514). -/
  | held (r : Restart)
  | run
  | doze
  deriving DecidableEq, Repr

/-- The PWR block and the module's power and clock inputs. -/
structure PwrState where
  ao      : Bool
  main    : Bool
  /-- MOD_RST_N is low. -/
  rstLow  : Bool
  mode    : PwrMode
  /-- The module start whose later steps wait for Crown to leave recovery (R467). -/
  start   : Restart
  /-- FP and VP of every die in the layout of PWR_STAT.PT. -/
  pt      : BitVec 32
  dvfs    : Word
  ctl     : Word
  nap     : BitVec 4
  /-- The points, in the layout of a byte of PT, that a die takes once its raised voltage has settled (R510). -/
  settle  : Vector (Option Byte) 4
  /-- OC_Cd_N is low; the cause of current holds (R512). -/
  ocLow   : BitVec 4
  ocCause : BitVec 4
  hbCause : Bool
  brimLow : Bool
  pinCause : Bool
  trip    : Bool
  /-- Factory-calibrated and effective temperatures of T0 to T23 at the last sample, in 1/16 degree C (R513, R474). -/
  temps   : Vector Int 24
  eff     : Vector Int 24
  /-- TB_CNT of the first of the samples since which every sensor has been 20 degrees below its trip (R514). -/
  cool    : Option Word
  aoClkLost : Bool
  /-- Tenths of a clk carried from tick to tick, per die. -/
  acc     : Vector Nat 4
  deriving DecidableEq, Repr

/-- The reset value of FLT_PMAP and FLT_PEFF (R438). -/
def pmapReset : Word := 0xFFFFFF55FFAAAA00#64

/-- The FLT block after a cold start with no repair: c(8d+i) is phys(9d+i) (R18). -/
def FltState.reset : FltState :=
  ⟨Vector.replicate 4 .running, 0, 0, 0, 0, pmapReset, pmapReset,
    Vector.ofFn fun c : Fin 32 => some (9 * (c.val / 8) + c.val % 8), [], [], [], [], [], [], [], [], [], .none, []⟩

/-- The PWR block with the module in OFF: PT reads 0, and V6 is the target of every die (R510). -/
def PwrState.reset : PwrState :=
  ⟨false, false, false, .off, .none, 0, 0x0000000066666666#64, 0x000000000A000230#64, 0, Vector.replicate 4 none,
    0, 0, false, false, false, false, Vector.replicate 24 0, Vector.replicate 24 0, none, false, Vector.replicate 4 0⟩

end Sys2Proof.Machine
end

