-- ==== Sys2Proof/Machine/GntState.lean ====
section
/-! DEFINITION. What Gauntlet holds (chapter 17). The bit layout of GNT_GPAT and of the golden store is not in the
spec; the model's own layout is named where it is read (Machine/Golden.lean). -/

namespace Sys2Proof.Machine

/-- GNT_STATE.MODE (R418). -/
inductive GntMode where
  | off | test | armed | single | safe | failed
  deriving DecidableEq, Repr

/-- A result notice (R397). -/
structure Notice where
  scanseq : BitVec 32
  sid     : Fin 64
  golden  : Bool
  degraded : Bool
  base    : Word
  addr    : Nat
  len     : Nat
  tag     : BitVec 32
  /-- TB_CNT and the domain time at arrival. -/
  at'     : Word
  seen    : Word
  /-- Its number in the order in which Gauntlet took notices. -/
  no      : Nat
  deriving DecidableEq, Repr

/-- A scan of a stream on its way to a verdict: the notices present and, once compared, NBAD and the CRC of the
tensor that would be delivered (R399, R400, R401). -/
structure Pair where
  scanseq : BitVec 32
  golden  : Bool
  n0      : Option Notice
  n1      : Option Notice
  /-- Compared: out-of-tolerance elements and the CRC-32 of the compared tensor. -/
  result  : Option (Nat × BitVec 32)
  /-- A notice of the pair was discarded under R399. -/
  dropped : Bool
  deriving DecidableEq, Repr

/-- A verdict record (R402) as its 64 bytes. -/
abbrev VerdictRec := Rec64

/-- A result stream (GNT_STRM, GNT_VWIDX, GNT_VR). -/
structure Stream where
  w0    : Word
  w1    : Word
  w2    : Word
  stale : Bool
  /-- Scans not yet judged, oldest first. -/
  pairs : List Pair
  /-- Scans judged, newest first. -/
  judged : List (BitVec 32)
  ring  : SMap VerdictRec
  vwidx : BitVec 32
  /-- BASE of the newest deliverable verdict, or the domain time of arming or enabling (R404). -/
  ref   : Word
  /-- Domain time at which STALE was set. -/
  staleAt : Word
  deriving DecidableEq, Repr

/-- A golden injection whose judgement is due (R406, R407). -/
structure GoldenRun where
  pat  : Fin 4
  stag : Byte
  /-- TB_CNT at the injection. -/
  cnt  : Word
  /-- It was forced by R412, to readmit a restarted path. -/
  readmit : Bool
  deriving DecidableEq, Repr

/-- What Gauntlet's clock and voltage monitors of a compute die go by (R416, R507, R511): the setpoints of CCLK and VDD_Cd as
point numbers; the voltage point whose window holds beside the present one, with the TB_CNT of the change; whether CCLK has
to be stopped; and the TB_CNT of its last restart, from which the frequency window waits 2 µs. -/
structure DieMon where
  fp      : Nat
  vp      : Nat
  other   : Option (Nat × Word)
  stopped : Bool
  back    : Option Word
  deriving DecidableEq, Repr

/-- The GNT block. -/
structure GntState where
  mode     : GntMode
  testfail : Byte
  testinst : BitVec 16
  safecause : Byte
  armfail  : Byte
  fence    : BitVec 2
  /-- Channel 15 of memory die p is disabled by the fence of path p (R411). -/
  cut15    : BitVec 2
  /-- Gauntlet was armed before the module start in progress (R418). -/
  wasArmed : Bool
  /-- The blocks that DOZE powered down have not been tested since (R418). -/
  dozed    : Bool
  /-- A fenced path stays fenced until the next module restart (R412). -/
  stuck    : BitVec 2
  /-- A restarted path waits for its golden readmission (R412). -/
  readmit  : BitVec 2
  forced   : BitVec 4
  defrun   : Nat
  ven      : Bool
  defer    : Bool
  nref     : Nat
  gtrans   : Nat
  gdef     : Nat
  disc     : Nat
  strm     : Vector Stream 64
  gpat     : Vector (BitVec 256) 4
  store    : Mem
  nqStage  : Vector (BitVec 256) 2
  /-- SCANSEQ of the disagreeing scans, newest verdict first (R408). -/
  history  : List (BitVec 32)
  /-- Notices taken so far. -/
  notices  : Nat
  /-- Pairs whose comparison is due, in order of completion (R403). -/
  cmpq     : List (Fin 64 × BitVec 32)
  runs     : List GoldenRun
  /-- Sweeps since the last injection of each pattern, and the last sweep that gave it an opportunity. -/
  since    : Vector Nat 4
  lastOpp  : Vector (Option (Byte × BitVec 32)) 4
  /-- Levels of GNT_FAULT_A and GNT_FAULT_B (R417). -/
  faultA   : Bool
  faultB   : Bool
  /-- The monitors of the compute dies. -/
  mon      : Vector DieMon 4
  deriving DecidableEq, Repr

def Stream.reset : Stream := ⟨0, 0, 0, false, [], [], [], 0, 0, 0⟩

/-- A die's monitors at a module start: V6 (R510). -/
def DieMon.reset : DieMon := ⟨6, 6, none, false, none⟩

def GntState.reset : GntState :=
  { mode := .off, testfail := 0, testinst := 0, safecause := 0, armfail := 0, fence := 0, cut15 := 0, wasArmed := false
    dozed := false, stuck := 0, readmit := 0, forced := 0, defrun := 0, ven := false, defer := false
    nref := 0, gtrans := 0, gdef := 0, disc := 0, strm := Vector.replicate 64 Stream.reset
    gpat := Vector.replicate 4 0, store := [], nqStage := Vector.replicate 2 0, history := [], notices := 0, cmpq := [], runs := []
    since := Vector.replicate 4 0, lastOpp := Vector.replicate 4 none, faultA := false, faultB := false
    mon := Vector.replicate 4 DieMon.reset }

end Sys2Proof.Machine
end

