-- ==== Sys2Proof/Machine/GridState.lean ====
section
/-! DEFINITION. What the geometry part of a core holds (chapter 05): the grid, the brick table, the queues of routed
points and of neighbour lookups; and the GRD spill registers. -/

namespace Sys2Proof.Machine

/-- A brick entry (R139); GID is the grid's. -/
structure Brick where
  key   : Word
  occ   : Word
  bidx  : Nat
  swm   : Byte
  bstat : Byte
  npts  : Nat
  deriving DecidableEq, Repr

/-- A point on its way to its owner (R147): brick key, voxel in the brick, quarter-offset codes, and what the record
and the sweep list say of it. -/
structure RoutedPoint where
  gid   : BitVec 32
  key   : Word
  vox   : Nat
  qx    : Nat
  qy    : Nat
  qz    : Nat
  inten : Nat
  stag  : Nat
  slot  : Nat
  syn   : Bool
  gld   : Bool
  /-- The CAST that routed it, 0 for a point of GEO (R187). -/
  job   : Nat
  deriving DecidableEq, Repr

/-- A CAST whose rays have ended, in grid mode: its number, the place of its status block and the block (R187). -/
structure RayDue where
  job   : Nat
  stat  : Nat
  block : List Byte
  deriving DecidableEq, Repr

/-- What one builder sends to another: a point, or the end marker of a GFIN (R150). -/
inductive GeoItem where
  | point (p : RoutedPoint)
  | mark (gid : BitVec 32)
  deriving DecidableEq, Repr

/-- The counts of a scan, of one core or of a set (R150). -/
structure ScanCounts where
  pin    : Nat
  pins   : Nat
  pref   : Nat
  pclip  : Nat
  pdup   : Nat
  psat   : Nat
  ptrunc : Nat
  bloc   : Nat
  bspl   : Nat
  /-- A header that was read carried TRUNC, or GOLDEN; some kept point was SYNTH, or GOLDEN. -/
  htrunc : Bool
  golden : Bool
  synth  : Bool
  deriving DecidableEq, Repr

/-- The geometry side of a core. -/
structure GeoCore where
  gid    : BitVec 32
  /-- GSTAT.STATE: 0 no grid, 1 building, 2 finished. -/
  st     : BitVec 2
  desc   : Rec64
  part   : Fin 4
  /-- The brick table by slot. -/
  table  : SMap Brick
  lcount : Nat
  cnt    : ScanCounts
  /-- Events 0x4101, 0x4104 and 0x4105 posted in this scan. -/
  posted : BitVec 3
  stray  : Nat
  nstale : Nat
  cecc   : Nat
  /-- Points that GEO and RAY of this core have sent and no builder has granted yet, with their owner. -/
  outq   : List (CoreId × GeoItem)
  rayq   : List (CoreId × GeoItem)
  /-- The builder's input queue of at most 64, with the sending core, and its rotating token (GEO of core k is k, RAY
  is 32 + k). -/
  inq    : List (CoreId × GeoItem)
  token  : Nat
  /-- End markers applied, by core, that no GFIN has used yet (R150). -/
  marks  : SMap Nat
  /-- The counts the set exchanged for the GFIN in work (R150). -/
  exchanged : Option ScanCounts
  /-- Lookups of the GNBR in work that wait for an answer: owner, key and reference number; and the answers. -/
  asks   : List (CoreId × Word × Nat)
  answers : SMap Nat
  askTok : Nat
  /-- The spilled entries the core owned when its GFIN completed, in ascending position. -/
  spl    : List Nat
  /-- QCNT (R175). -/
  qcnt   : Word
  /-- RCNT (R190), and the CASTs whose points are on their way. -/
  rcnt   : Word
  rayDue : List RayDue
  deriving DecidableEq, Repr

/-- The GRD block's spill registers. -/
structure GrdState where
  spbase : Vector Word 4
  holder : Vector (BitVec 32) 4
  quota  : Vector Nat 4
  deriving DecidableEq, Repr

def ScanCounts.zero : ScanCounts := ⟨0, 0, 0, 0, 0, 0, 0, 0, 0, false, false, false⟩

def GeoCore.reset : GeoCore :=
  ⟨0, 0, 0, 0, [], 0, ScanCounts.zero, 0, 0, 0, 0, [], [], [], 63, [], none, [], [], 31, [], 0, 0, []⟩

def GrdState.reset : GrdState := ⟨Vector.replicate 4 0, Vector.replicate 4 0, Vector.replicate 4 0⟩

end Sys2Proof.Machine
end

