-- ==== Sys2Proof/Machine/HostState.lean ====
section
/-! DEFINITION. What the event unit and the PCI Express host interface hold (chapter 21), and what the module gives
to the outside: messages, completions, frames, packets and edges. -/

namespace Sys2Proof.Machine

/-- An event code posted to the event unit, with its poster (R31, R538) and TB_CNT in that clk (R494). `part` is
the partition of the poster where it has one (R425 item 1). -/
structure Posted where
  code : Code
  src  : Ini
  cnt  : Word
  part : Option (Fin 4)
  /-- Its block routes it to Gauntlet because of what it concerns (R342, R130, R322 and the like). -/
  gnt  : Bool
  /-- The event unit marked it as one of a fenced partition (R425 item 1). -/
  fenced : Bool
  deriving DecidableEq, Repr

/-- An entry of the host event ring (R494). -/
structure RingEntry where
  code : Code
  src  : Ini
  vec  : Byte
  cnt  : Word
  deriving DecidableEq, Repr

/-- The event unit (R30, R493 to R495, EVT_ROUTE, EVT_STAT, EVT_IDX, EVT_RING). -/
structure EvtState where
  routes  : Vector Word 256
  ring    : SMap RingEntry
  widx    : BitVec 16
  ridx    : BitVec 16
  ovf     : Bool
  ovfc    : Nat
  noroute : Nat
  /-- Codes posted and not yet routed. -/
  incoming : List Posted
  /-- Codes routed to MSI-X vector `vec` and not yet written to the ring. -/
  toRing  : List (Posted × Byte)
  /-- Codes routed to Crown and not yet in Crown's queue. -/
  toCrown : List Posted
  /-- Crown's queue of at most 1,024 codes (R494). -/
  crownQ  : List Posted
  /-- Codes delivered to Gauntlet and not yet acted on. -/
  gntQ    : List Posted
  /-- Codes dropped on Crown's route since Crown last logged the loss (R434). -/
  crownLost : Nat
  /-- Partitions whose events take no MSI-X route (R425 item 1). -/
  fenced  : BitVec 4
  deriving DecidableEq, Repr

/-- One MSI-X vector of a function. -/
structure Vect where
  addr    : Word
  data    : BitVec 32
  masked  : Bool
  pending : Bool
  deriving DecidableEq, Repr

/-- The configuration space of a function, as far as the manual uses it (R484, R490 to R492, R494). -/
structure PciFn where
  memEn    : Bool
  busMaster : Bool
  msixEn   : Bool
  msixMask : Bool
  /-- Max Payload Size code: 0 128 B, 1 256 B, 2 512 B. -/
  mps      : Nat
  d3hot    : Bool
  bar0     : Word
  bar2     : Word
  bar4     : Word
  /-- log2 of the BAR4 size in GiB, 0 to 6 (Resizable BAR). -/
  bar4Size : Nat
  vects    : SMap Vect
  /-- AER: advisory non-fatal Unsupported Requests, ECRC errors and poisoned TLPs logged. -/
  aerUr    : Bool
  aerEcrc  : Bool
  aerPois  : Bool
  deriving DecidableEq, Repr

/-- The PCIe controller and the PCI block. -/
structure PciState where
  linkUp : Bool
  speed  : BitVec 3
  width  : BitVec 3
  retr   : Nat
  corr   : Nat
  urc    : Nat
  ecrce  : Nat
  pois   : Nat
  apbase : Word
  hwin   : Vector Word 32
  pf0    : PciFn
  pf1    : PciFn
  deriving DecidableEq, Repr

/-- The vector an unlisted number reads as: masked, as PCI Express resets it. -/
def Vect.reset : Vect := ⟨0, 0, true, false⟩

/-- A function's configuration space after reset. -/
def PciFn.reset : PciFn := ⟨false, false, false, false, 0, false, 0, 0, 0, 0, [], false, false, false⟩

def EvtState.reset : EvtState :=
  ⟨Vector.replicate 256 0, [], 0, 0, false, 0, 0, [], [], [], [], [], 0, 0⟩

def PciState.reset : PciState :=
  ⟨false, 0, 0, 0, 0, 0, 0, 0, 0, Vector.ofFn fun k : Fin 32 => BitVec.ofNat 64 k.val, PciFn.reset, PciFn.reset⟩

end Sys2Proof.Machine
end

