-- ==== Sys2Proof/Machine/IngState.lean ====
section
/-! DEFINITION. What the ingest block holds (chapter 04): ports and receive FIFOs, templates, sensor entries,
extrinsics, beam tables, sweeps, rings, the record writer and the injection queues. -/

namespace Sys2Proof.Machine

/-- A received frame: its bytes without FCS, its ingress stamps in domains A and B, and for a golden frame the sensor
that Gauntlet names (R111, R127). -/
structure RxFrame where
  bytes  : List Byte
  stampA : Word
  stampB : Word
  golden : Option (Fin 16)
  deriving DecidableEq, Repr

/-- What a receive FIFO holds, in arrival order: frames, and the ends of golden patterns, which take no room. -/
inductive RxItem where
  | frame (f : RxFrame)
  | patternEnd (n : Fin 16)
  deriving DecidableEq, Repr

/-- The PHY modes of a port (R109). -/
inductive PhyMode where
  | off | base1000x | r10g | r25g | r25gBaseFec | r25gRsFec
  deriving DecidableEq, Repr

/-- The drop counters of PORTSTAT. -/
structure PortCounts where
  runt : Nat
  fcs : Nat
  oversize : Nat
  ipHdr : Nat
  fragment : Nat
  udpCsum : Nat
  unmatched : Nat
  short : Nat
  fifo : Nat
  deriving DecidableEq, Repr

/-- A sensor port. `clo` says that Cloche's sealed parameters assign the port to it. -/
structure EthPort where
  up    : Bool
  phy   : PhyMode
  clo   : Bool
  fifo  : List RxItem
  cnt   : PortCounts
  deriving DecidableEq, Repr

/-- What a sweep has in one ring. -/
structure SweepRing where
  first : BitVec 32
  count : Nat
  drop  : Nat
  trunc : Bool
  /-- Events 0x4011 and 0x4012 posted for this sweep. -/
  posted : BitVec 2
  deriving DecidableEq, Repr

/-- A sweep that is open, or whose headers are still to be written. -/
structure Sweep where
  id     : Nat
  sensor : Fin 16
  golden : Bool
  dom    : Bool
  stag   : Byte
  base   : BitVec 32
  ext    : Rec64
  tcut   : Bool
  noret  : Nat
  tback  : Nat
  span   : BitVec 32
  rings  : Vector (Option SweepRing) 4
  /-- Rings in which the sweep was not started (R122). -/
  dead   : BitVec 4
  deriving DecidableEq, Repr

/-- What a ring's staging buffer holds, in order: records of sweep `id`, and the closes of sweeps. -/
inductive StageItem where
  | record (id : Nat) (bytes : List Byte)
  | close (id : Nat)
  deriving DecidableEq, Repr

/-- A partition's rings (RING[p]) and their staging buffer. -/
structure IngRing where
  rbase : Word
  hbase : Word
  rctl  : Word
  rhold : BitVec 32
  hhold : BitVec 32
  rwidx : BitVec 32
  hwidx : BitVec 32
  stage : List StageItem
  /-- Headers that sweeps not yet closed here will need. -/
  opened : Nat
  /-- Writes suspended by R425 step 2, until the next sweep start after the release (R426). -/
  suspended : Bool
  deriving DecidableEq, Repr

/-- The six totals of SENSSTAT. -/
structure SensCounts where
  points : Nat
  drop : Nat
  noret : Nat
  oor : Nat
  tback : Nat
  sweeps : Nat
  deriving DecidableEq, Repr

/-- What ingest keeps per sensor. -/
structure SensState where
  /-- The open sweep, and the open golden sweep. -/
  cur   : Option Nat
  gold  : Option Nat
  /-- Sweep starts since EN was set, mod 256 (R120). -/
  starts : Byte
  /-- Points skipped while no sweep was open, for the next header's NORET. -/
  carry : Nat
  lastA : Option Nat
  lastF7 : Option Int
  /-- The DUP table: azimuth code and raw range by beam (R118). -/
  dup   : SMap (Nat × Int)
  /-- Tag and base time of the newest real sweep, for Gauntlet's opportunities (R406). -/
  newest : Option (Byte × BitVec 32)
  extCur  : Rec64
  extPend : Option Rec64
  cnt   : SensCounts
  deriving DecidableEq, Repr

/-- The ING block. -/
structure IngState where
  tpl    : Vector Rec64 16
  tplVal : BitVec 16
  sens   : Vector (BitVec 256) 16
  ext    : Vector Rec64 16
  beam   : SMap (BitVec 32)
  ring   : Vector IngRing 4
  slotmap : BitVec 128
  /-- The SLOTMAP in force in the current frame, the next slot and the writer's rotating token (R125). -/
  slotNow : BitVec 128
  slot   : Fin 64
  token  : Fin 4
  injStage : Vector (BitVec 256) 4
  injq   : Vector (List (BitVec 256)) 4
  injSeq : Vector (BitVec 32) 4
  port   : Vector EthPort 4
  sn     : Vector SensState 16
  sweeps : List Sweep
  nextId : Nat
  /-- Frames copied to Cloche and not yet converted there, with their port (R128). -/
  tap    : List (Fin 4 × RxFrame)
  deriving DecidableEq, Repr

def PortCounts.zero : PortCounts := ⟨0, 0, 0, 0, 0, 0, 0, 0, 0⟩
def EthPort.reset : EthPort := ⟨false, .off, false, [], PortCounts.zero⟩

/-- The PHY mode's number in a configuration item and in PORTSTAT: the modes of R109 from 0, off. -/
def PhyMode.code : PhyMode → Nat
  | .off => 0 | .base1000x => 1 | .r10g => 2 | .r25g => 3 | .r25gBaseFec => 4 | .r25gRsFec => 5

def IngRing.reset : IngRing := ⟨0, 0, 0, 0, 0, 0, 0, [], 0, false⟩
def SensCounts.zero : SensCounts := ⟨0, 0, 0, 0, 0, 0⟩
def SensState.reset : SensState := ⟨none, none, 0, 0, none, none, [], none, 0, none, SensCounts.zero⟩

def IngState.reset : IngState :=
  { tpl := Vector.replicate 16 0, tplVal := 0, sens := Vector.replicate 16 0, ext := Vector.replicate 16 0, beam := []
    ring := Vector.replicate 4 IngRing.reset, slotmap := 0, slotNow := 0, slot := 0, token := 3
    injStage := Vector.replicate 4 0, injq := Vector.replicate 4 [], injSeq := Vector.replicate 4 0
    port := Vector.replicate 4 EthPort.reset, sn := Vector.replicate 16 SensState.reset, sweeps := [], nextId := 0, tap := [] }

/-! ### Read-only registers (R109, R126, R128, R542)

DESIGN CHOICE (log 154): the spec names what each register shows and gives no bit positions. The model packs the
fields in the order of the register table: INJSTAT two 32-bit fields; PORTSTAT link, PHY mode and Cloche assignment in
byte 0, then nine counters of 24 bits from byte 4; SENSSTAT six counters of 32 bits. A counter shows its low bits. -/

def IngState.injStat (g : IngState) (p : Fin 4) : Word := pack [(0, 32, g.injSeq[p].toNat), (32, 32, g.injq[p].length)]

def PortCounts.all (c : PortCounts) : List Nat :=
  [c.runt, c.fcs, c.oversize, c.ipHdr, c.fragment, c.udpCsum, c.unmatched, c.short, c.fifo]

def EthPort.stat (q : EthPort) : Rec64 :=
  let flags := ofBool q.up + 2 * q.phy.code + 16 * ofBool q.clo
  recStore 0 0 (leBytes 4 flags ++ q.cnt.all.flatMap (leBytes 3))

def SensCounts.stat (c : SensCounts) : Rec64 :=
  recStore 0 0 ([c.points, c.drop, c.noret, c.oor, c.tback, c.sweeps].flatMap (leBytes 4))

/-- Source and record count of an injection descriptor (R126). -/
def injSrc (w : BitVec 256) : Nat := fld w 0 48
def injN (w : BitVec 256) : Nat := fld w 64 32

end Sys2Proof.Machine
end

