-- ==== Sys2Proof/Machine/NetState.lean ====
section
/-! DEFINITION. What the package network holds (chapter 01, R423): its links between dies, and which of them have stopped. -/

namespace Sys2Proof.Machine

/-- A die of the module (R18): compute die CDd, memory die MDm, the I/O die XD. -/
inductive Die where
  | cd (d : Fin 4)
  | md (m : Fin 2)
  | xd
  deriving DecidableEq, Repr

/-- A die-to-die link (the table of links in chapter 01); there is none between compute dies. -/
inductive Link where
  | mem (d : Fin 4) (m : Fin 2)
  | io (d : Fin 4)
  | memIo (m : Fin 2)
  deriving DecidableEq, Repr

/-- The links that have stopped until the next module restart (R423). -/
structure NetState where
  stopped : List Link
  deriving DecidableEq, Repr

def NetState.reset : NetState := ⟨[]⟩

end Sys2Proof.Machine
end

