-- ==== Sys2Proof/Machine/NmgState.lean ====
section
/-! DEFINITION. What the near-memory gather units hold (chapter 12): table descriptors, hot-store segments, the mirrored
hot-row stores, the epoch, and sixteen units with their queues. -/

namespace Sys2Proof.Machine

/-- A request accepted: its bytes, its partition, and its table's descriptor as latched then. -/
structure NmgReq where
  req  : Rec64
  part : Fin 4
  tab  : Rec64
  deriving DecidableEq, Repr

/-- A request whose work is done and whose status is due. -/
structure NmgRun where
  r     : NmgReq
  found : Nat
  miss  : Nat
  /-- NFL without MISS. -/
  flags : Nat
  /-- The epoch a LOOKUP holds. -/
  epoch : Option Bool
  deriving DecidableEq, Repr

/-- A migration under way: the request and the record copied. -/
structure NmgMigr where
  r    : NmgReq
  data : List Byte
  deriving DecidableEq, Repr

/-- One gather unit. -/
structure NmgUnit where
  /-- Bytes written to NMG_REQ[u][p] and not yet submitted. -/
  staged : Vector Rec64 4
  queues : Vector (List NmgReq) 4
  /-- Rotating tokens of the pairs P0, P1 and P2, P3: the partition granted last. -/
  tok01  : Fin 2
  tok23  : Fin 2
  run    : List NmgRun
  /-- Migrations under way, oldest first. -/
  migr   : List NmgMigr
  held   : List NmgReq
  refc   : Nat
  missc  : Nat
  reserr : Nat
  cecc   : Nat
  lref   : BitVec 32
  deriving DecidableEq, Repr

/-- The NMG block. `bad` marks uncorrectable words of each die's store. -/
structure NmgState where
  tab   : Vector Rec64 64
  hseg  : Vector Word 4
  hot   : Mem
  bad   : Vector (SMap Bool) 2
  ep    : Bool
  /-- The RETIRE that runs: its unit, its request and the old epoch. -/
  retire : Option (Fin 16 × NmgReq × Bool)
  units : Vector NmgUnit 16
  deriving DecidableEq, Repr

def NmgUnit.reset : NmgUnit :=
  ⟨Vector.replicate 4 0, Vector.replicate 4 [], 1, 1, [], [], [], 0, 0, 0, 0, 0⟩

def NmgState.reset : NmgState :=
  ⟨Vector.replicate 64 0, Vector.replicate 4 0, [], Vector.replicate 2 [], false, none, Vector.replicate 16 NmgUnit.reset⟩

end Sys2Proof.Machine
end

