-- ==== Sys2Proof/Machine/Outputs.lean ====
section
/-! DEFINITION. What the module gives to the outside world: completions, messages, frames, packets. -/

namespace Sys2Proof.Machine

inductive Output where
  /-- The completion of a DDR read (R329): the bytes, or an error completion. -/
  | ddrCompletion (ini : Ini) (addr : Nat) (data : Option (List Byte))
  /-- A frame sent on a sensor port. -/
  | frame (port : Fin 4) (bytes : List Byte)
  /-- An MSI-X message of PF0 or PF1 (R494, R454). -/
  | msix (pf1 : Bool) (vec : Nat) (addr : Word) (data : BitVec 32)
  /-- The completion of a host memory read: the bytes, or Unsupported Request (R488). -/
  | hostCompletion (data : Option (List Byte))
  /-- The answer to a configuration request: Request Retry Status, or success with a value (R491). -/
  | cfgCompletion (pf1 : Bool) (value : Option Word)
  /-- A packet sent on a fabric port. -/
  | packet (port : Fin 6) (pkt : FabPkt)
  /-- A CREDIT packet: the cumulative flits freed per virtual channel, ACK, and NAK valid (R347, R359). -/
  | credit (port : Fin 6) (cnt : Vector (BitVec 16) 4) (ack : BitVec 32) (nak : Bool)
  /-- MGMT packets, with SRC and SINIT of their header (R350). -/
  | hello (port : Fin 6) (src : BitVec 15) (sinit : Ini) (h : Hello)
  | mgmt (port : Fin 6) (src : BitVec 15) (sinit : Ini) (m : FabMgmt)
  /-- What an SMBus Block Read of Crown returns (R480). -/
  | smbus (data : List Byte)
  | time (port : Fin 6) (src : BitVec 15) (sinit : Ini) (m : TimeMsg)
  deriving DecidableEq, Repr

end Sys2Proof.Machine
end

