-- ==== Sys2Proof/Machine/TbState.lean ====
section
/-! DEFINITION. What Hatband holds (chapter 16): the counter, the two domains, transmit queues, pulse outputs, peer
delays, slice time and trunk bridging. -/

namespace Sys2Proof.Machine

/-- DSTAT.STATE (R379). -/
inductive DomState where
  | free | locked | holdover | follow
  deriving DecidableEq, Repr

/-- A time domain (R375 to R381). -/
structure TbDom where
  ofs   : Word
  anc   : Word
  rate  : BitVec 32
  epoch : Word
  steps : Nat
  wdms  : Nat
  state : DomState
  /-- TB_CNT at the last Crown write of RATE or STATE (R379). -/
  touched : Word
  /-- The STEPs of the last 4.3 s, newest first: TB_CNT, the time just before and the time just after (R401). -/
  stepLog : List (Word × Word × Word)
  /-- The tick of the last RATE or STEP, with OFS, ANC and RATE before it: what a read in that tick still goes by (R377). -/
  was   : Option (Word × Word × Word × BitVec 32)
  deriving DecidableEq, Repr

/-- A queued timed-transmit descriptor (R385). -/
structure TxDesc where
  launch : Word
  bofs   : Nat
  len    : Nat
  dom    : Bool
  now    : Bool
  late   : Bool
  stamp  : Bool
  seq    : BitVec 16
  deriving DecidableEq, Repr

/-- A PTP frame waiting at an egress port: forwarded, with its ingress stamps, TB_CNT and both domain times, and the receive
latency of its port (R381, R384), or the module's own for a domain's servo (R383). -/
structure FwdFrame where
  bytes : List Byte
  cnt   : Word
  ta    : Word
  tb    : Word
  rx    : Nat
  own   : Option (Fin 2)
  deriving DecidableEq, Repr

/-- A master heard in Announce messages: its port, its port identity, and the data set by which masters are ranked. -/
structure PtpMaster where
  port : Fin 4
  src  : BitVec 80
  rank : List Nat
  deriving DecidableEq, Repr

/-- A Sync: its port, sender and number, its receive stamp, and the master's time with corrections, in ns. -/
structure PtpSync where
  port : Fin 4
  src  : BitVec 80
  seq  : BitVec 16
  rx   : Int
  sent : Int
  deriving DecidableEq, Repr

/-- A Delay_Req or Pdelay_Req of the module: its number, its egress stamp, and the receive times that a two-step peer has
answered with so far. -/
structure PtpAsk where
  seq  : BitVec 16
  sent : Option Int
  resp : Option (Int × Int)
  deriving DecidableEq, Repr

/-- What Crown's servo of a domain holds (R383). `wait` is a two-step Sync whose Follow_Up has not come; `due` are the Syncs
taken for which Crown has not yet written RATE. -/
structure PtpServo where
  masters : List PtpMaster
  wait  : Option PtpSync
  due   : List PtpSync
  last  : Option PtpSync
  seq   : BitVec 16
  ask   : Vector (Option PtpAsk) 4
  delay : Vector Int 4
  deriving DecidableEq, Repr

/-- The transmit side of one sensor port (R385, R386, TB_TXQ, TB_TXST, TB_TXBUF). -/
structure TxPort where
  queue : List TxDesc
  /-- Bytes 0x00 to 0x0B of a descriptor written and not yet submitted (R540). -/
  stage : BitVec 128
  buf   : Mem
  seq   : BitVec 16
  latec : Nat
  dropc : Nat
  stamp : Word
  lat   : Word
  /-- TB_CNT at the last 0x7050 + p event (R386). -/
  lastLate : Option Nat
  /-- PTP frames waiting at this egress port, at most 16 of them forwarded (R384). -/
  fwd   : List FwdFrame
  /-- TB_CNT when the frame in transmission will be off the line (R386). -/
  busy  : Option Word
  deriving DecidableEq, Repr

/-- A pulse output (R387, TB_EVO). `i` is the number of edges already due; `high` is whether the pulse is on. -/
structure Pulse where
  start  : Word
  pw     : Word
  /-- START and PW values written and waiting for the next edge (R387). -/
  startN : Word
  pwN    : Word
  pol    : Bool
  dom    : Bool
  en     : Bool
  miss   : Nat
  i      : Nat
  on     : Bool
  /-- Domain time at which the pulse in progress ends. -/
  offAt  : Word
  deriving DecidableEq, Repr

/-- The peer-delay state of a fabric port (R388): the last request's send stamp and the computed link delay. -/
structure PeerDelay where
  t1    : Option Word
  delay : Int
  deriving DecidableEq, Repr

/-- The TB block. -/
structure TbState where
  cnt   : Word
  cfg   : Word
  snapC : Word
  snapA : Word
  snapB : Word
  dom   : Vector TbDom 2
  evo   : Vector Pulse 4
  tx    : Vector TxPort 4
  bridge : Vector Word 2
  peer  : Vector PeerDelay 6
  /-- TB_CNT at the last SYNC received (R388), at the last BRIDGE per trunk port (R389). -/
  lastSync : Option Word
  lastBridge : Vector (Option Word) 2
  /-- TB_CNT at the last 0x7060 event (R384), and PTP frames not forwarded. -/
  lastPtp : Option Nat
  ptpDrops : Nat
  servo : Vector PtpServo 2
  deriving DecidableEq, Repr

def TbDom.reset : TbDom := ⟨0, 0, 0, 0, 0, 0, .free, 0, [], none⟩

def TxPort.reset : TxPort := ⟨[], 0, [], 0, 0, 0, 0, 0, none, [], none⟩

def PtpServo.reset : PtpServo := ⟨[], none, [], none, 0, Vector.replicate 4 none, Vector.replicate 4 0⟩

def Pulse.reset : Pulse := ⟨0, 0, 0, 0, false, false, false, 0, 0, false, 0⟩

/-- The block at PWROK_AO, before any tick. -/
def TbState.reset : TbState :=
  ⟨0, 0, 0, 0, 0, Vector.replicate 2 TbDom.reset, Vector.replicate 4 Pulse.reset,
    Vector.replicate 4 TxPort.reset, Vector.replicate 2 0, Vector.replicate 6 ⟨none, 0⟩, none,
    Vector.replicate 2 none, none, 0, Vector.replicate 2 PtpServo.reset⟩

end Sys2Proof.Machine
end

