-- ==== Sys2Proof/Machine/State.lean ====
section
/-! DEFINITION. The state of the whole module as plain data, the reasons a step can stop, and the state after
reset. -/

namespace Sys2Proof.Machine

/-- Everything one core holds. -/
structure CoreSt where
  imem    : SMap Word
  /-- IMEM words corrected on fetch (R75). -/
  imemCe  : Nat
  seq     : SeqState
  engines : Vector EngState 7
  spd     : SpdState
  geo     : GeoCore
  mxe     : MxeState
  vec     : VecState
  /-- SELCNT (R282). -/
  selcnt  : Word
  deriving DecidableEq, Repr

/-- The module. `free` is the model's own counter of free values drawn, no state of the spec. -/
structure State where
  cores   : Vector CoreSt 32
  ddr     : DdrState
  tb      : TbState
  evt     : EvtState
  pci     : PciState
  flt     : FltState
  pwr     : PwrState
  dma     : DmaState
  gnt     : GntState
  crn     : CrnState
  clo     : CloState
  ing     : IngState
  grd     : GrdState
  fab     : FabState
  nmg     : NmgState
  net     : NetState
  /-- What the module has given to the outside, oldest first. -/
  out     : List Output
  free    : Nat
  pending : List Instr
  deriving DecidableEq, Repr

/-- Why a step can stop with a fault: there is no reason, for every command has an effect in every state. -/
inductive Fault where
  deriving DecidableEq, Repr

/-- Why a command can be refused. -/
inductive Refusal where
  /-- Raised by Dispatch for a command that has no meaning yet. Safe: nothing is claimed of it. -/
  | notModelled (mnemonic : String)
  deriving DecidableEq, Repr

/-- A core after reset of its partition, IMEM cleared (R105, R426). -/
def CoreSt.reset : CoreSt :=
  ⟨[], 0, SeqState.reset, Vector.replicate 7 EngState.reset, SpdState.reset, GeoCore.reset, MxeState.reset, VecState.reset, 0⟩

/-- The module right after reset: every field at the value the spec gives, no command waiting. -/
def State.reset : State :=
  { cores := Vector.replicate 32 CoreSt.reset
    ddr := DdrState.reset
    tb := TbState.reset
    evt := EvtState.reset
    pci := PciState.reset
    flt := FltState.reset
    pwr := PwrState.reset
    dma := DmaState.reset
    gnt := GntState.reset
    crn := CrnState.reset
    clo := CloState.reset
    ing := IngState.reset
    grd := GrdState.reset
    fab := FabState.reset
    nmg := NmgState.reset
    net := NetState.reset
    out := []
    free := 0
    pending := [] }

end Sys2Proof.Machine
end

