-- ==== Sys2Proof/WellFormed.lean ====
section
/-! DEFINITION. Which commands an agent can form: the operand ranges the spec gives each row. A command outside them is
no command of the module; nothing happens. -/

namespace Sys2Proof

/-- Whether the operands lie in the ranges the spec gives the row. -/
def Instr.wf : Instr → Bool
  | .add _ _ => true
  | .sub _ _ => true
  | .mul _ _ => true
  | .mulhu _ _ => true
  | .mulhs _ _ => true
  | .and _ _ => true
  | .or _ _ => true
  | .xor _ _ => true
  | .shl _ _ => true
  | .shr _ _ => true
  | .sar _ _ => true
  | .min _ _ => true
  | .max _ _ => true
  | .minu _ _ => true
  | .maxu _ _ => true
  | .clz _ _ => true
  | .addi _ _ => true
  | .subi _ _ => true
  | .muli _ _ => true
  | .mulhui _ _ => true
  | .mulhsi _ _ => true
  | .andi _ _ => true
  | .ori _ _ => true
  | .xori _ _ => true
  | .shli _ _ => true
  | .shri _ _ => true
  | .sari _ _ => true
  | .mini _ _ => true
  | .maxi _ _ => true
  | .minui _ _ => true
  | .maxui _ _ => true
  | .ld _ _ _ => true
  | .st _ _ => true
  | .li _ _ => true
  | .lih _ _ => true
  | .movs _ _ => true
  | .fence _ _ => true
  | .fenceComplete _ => true
  | .ceq _ _ => true
  | .cne _ _ => true
  | .clt _ _ => true
  | .cltu _ _ => true
  | .cle _ _ => true
  | .cleu _ _ => true
  | .ctst _ _ => true
  | .fand _ _ => true
  | .forF _ _ => true
  | .fxor _ _ => true
  | .fandn _ _ => true
  | .fmov _ _ => true
  | .loop _ _ => true
  | .br _ _ => true
  | .call _ _ => true
  | .ret _ _ => true
  | .lbrk _ _ => true
  | .halt _ _ => true
  | .haltComplete _ => true
  | .nop _ _ => true
  | .drain _ _ => true
  | .drainComplete _ => true
  | .tset _ _ => true
  | .twait _ _ => true
  | .sig _ _ => true
  | .swait _ _ => true
  | .seqWaitResume _ => true
  | .waitTimeout _ => true
  | .srd _ _ => true
  | .sset _ _ => true
  | .sigx _ _ => true
  | .wopen _ _ => true
  | .wclose _ _ => true
  | .evt _ _ => true
  | .issue _ _ => true
  | .issueUnblock _ => true
  | .engineCommandComplete _ _ => true
  | .fetLinear _ => true
  | .fet2d _ => true
  | .imemWrite _ _ _ _ _ => true
  | .tagdescWrite _ _ _ _ _ => true
  | .tagWaitResume _ => true
  | .cuffIdleFlush _ _ => true
  | .windowWrite _ _ off data => lineWriteOk off data
  | .remoteSignal _ _ _ _ => true
  | .syncaddWrite _ _ _ _ _ => true
  | .spdClr _ _ _ => true
  | .launchRecordWrite _ _ off data => bytesIn off data 0x80
  | .launchSlotTake _ => true
  | .taskStart _ => true
  | .spdParityError _ _ => true
  | .frameReceive _ _ _ => true
  | .ingestFrameProcess _ => true
  | .recordWriterBurst => true
  | .tplWrite _ _ off data => bytesIn off data 64
  | .sensWrite _ _ off data => bytesIn off data 32
  | .extWrite _ _ off data => bytesIn off data 64
  | .holdWrite _ _ _ _ => true
  | .rctlWrite _ _ _ _ => true
  | .slotmapWrite _ off data => bytesIn off data 16
  | .injqWrite _ _ off data => bytesIn off data 32
  | .injectionExecute _ => true
  | .ethLinkUp _ => true
  | .ethLinkDown _ => true
  | .ingestEccError _ => true
  | .ginit _ => true
  | .gins _ => true
  | .gfin _ => true
  | .gnbr _ => true
  | .grel _ => true
  | .builderPointInsert _ => true
  | .neighbourLookup _ => true
  | .grdSpillWrite _ _ _ _ _ => true
  | .brickTableEccError _ _ => true
  | .ball _ => true
  | .knnc _ => true
  | .fps _ => true
  | .vdown _ => true
  | .cast _ => true
  | .mmul _ => true
  | .mxeRampDown _ => true
  | .mxclr _ _ _ => true
  | .spmm _ => true
  | .nbmap _ => true
  | .sconv _ => true
  | .spclr _ _ _ => true
  | .mxeResidueError _ _ => true
  | .ew _ => true
  | .red _ => true
  | .qnt _ => true
  | .rq _ => true
  | .dq _ => true
  | .hist _ => true
  | .vset _ => true
  | .satcfgWrite _ _ _ _ _ => true
  | .vclr _ _ _ => true
  | .argmax _ => true
  | .topk _ => true
  | .btopk _ => true
  | .merge _ => true
  | .sort _ => true
  | .search _ => true
  | .selclr _ _ _ => true
  | .nmgTabWrite _ _ off data => bytesIn off data 64
  | .nmgHsegWrite _ _ _ _ => true
  | .nmgReqWrite _ _ _ off data => bytesIn off data 64
  | .lookup _ => true
  | .upd _ => true
  | .migr _ => true
  | .flip _ => true
  | .retire _ => true
  | .retireEpochDrain => true
  | .nmgRequestComplete _ => true
  | .nmgError _ _ => true
  | .dmaRun _ => true
  | .dmaStop _ => true
  | .dchGo e ch _ => dmaChanOk e ch
  | .dchStop e ch _ => dmaChanOk e ch
  | .dmaCopy e ch => dmaChanOk e ch
  | .dmaFill e ch => dmaChanOk e ch
  | .dmaCmp e ch => dmaChanOk e ch
  | .dmaCompress e ch => dmaChanOk e ch
  | .dmaHalfSignal e ch => dmaChanOk e ch
  | .dmaDescriptorDone e ch => dmaChanOk e ch
  | .dmaParityHalt e ch => dmaChanOk e ch
  | .ddrAccess _ a op _ _ => ddrAccessOk a op
  | .ddrRgnWrite _ _ _ _ => true
  | .ddrBwWrite _ _ _ _ => true
  | .ddrRefresh _ => true
  | .dimmEventAssert _ => true
  | .refresh1xReturn _ => true
  | .ddrScrub _ _ => true
  | .ddrCaParityError _ _ _ => true
  | .fabricPortTrained _ _ => true
  | .fabricLaneRetire _ _ => true
  | .uncorrectableCodeword _ => true
  | .credit _ _ _ _ => true
  | .creditSend _ => true
  | .fabricPacketForward _ k => pktOk k
  | .write => true
  | .signal => true
  | .fabricLinkDown _ => true
  | .helloSend _ => true
  | .hello _ _ => true
  | .discoveryStart => true
  | .survey _ route => routeOk route
  | .report _ route _ _ => routeOk route
  | .assign _ _ _ _ => true
  | .failureMap _ => true
  | .collDescriptor _ off data => bytesIn off data 64
  | .collFragment _ k => pktOk k
  | .colTimeout _ => true
  | .fabricParityError _ => true
  | .tbRateWrite _ _ _ _ => true
  | .tbStepWrite _ _ _ _ => true
  | .tbStateWrite _ _ _ _ => true
  | .tbLostWrite _ _ => true
  | .tbWatchdogExpire _ => true
  | .epochLatch _ => true
  | .tbSnap _ _ _ => true
  | .syncAccept _ _ _ _ _ => true
  | .announceTimeout _ => true
  | .tbTxqWrite _ _ off data => bytesIn off data 16
  | .timedFrameLaunch _ => true
  | .tbEvoWrite _ _ _ _ _ => true
  | .pulseEdge _ => true
  | .pulseWidthEnd _ => true
  | .pdreqSend _ => true
  | .pdreq _ => true
  | .pdresp _ _ _ => true
  | .sliceSyncSend => true
  | .sync _ _ _ => true
  | .sliceSyncLoss => true
  | .bridgeSend _ => true
  | .bridge _ _ => true
  | .bridgeLoss _ => true
  | .tbMismatch => true
  | .gntNotice _ _ off data => bytesIn off data 32
  | .gntCompare => true
  | .gntVerdict _ => true
  | .ageCheck => true
  | .goldenOpportunity => true
  | .goldenJudge => true
  | .goldenNoticeTimeout => true
  | .gntRoutedEvent => true
  | .arm _ => true
  | .disarm _ => true
  | .safe _ => true
  | .defer _ => true
  | .startTestsDone _ _ _ => true
  | .monitorViolation _ => true
  | .faultOutputToggle => true
  | .gntLockstepError _ => true
  | .fltPrst _ _ _ => true
  | .partitionRelease _ _ _ _ => true
  | .fltMrstWarm _ => true
  | .fltMrstCold _ => true
  | .fltPmapWrite _ _ _ => true
  | .faultLogEntry _ => true
  | .clocheStart _ _ => true
  | .sealChange _ => true
  | .cloFrameTap => true
  | .captureEnd => true
  | .captureTimeout => true
  | .cloRecordWrite => true
  | .encoderCount _ _ => true
  | .getid => true
  | .getstat => true
  | .getparam => true
  | .setparam => true
  | .commit => true
  | .zero => true
  | .measure => true
  | .beltstart => true
  | .beltread => true
  | .beltstop => true
  | .abort => true
  | .getrec => true
  | .getaudit => true
  | .setexp => true
  | .exportMap => true
  | .fwload => true
  | .fwcommit _ => true
  | .getkey => true
  | .cloWatchdog _ => true
  | .cloSramCorrect => true
  | .crownLoadCheck _ => true
  | .powerLoop _ => true
  | .thermalLoop => true
  | .dimmTempRead _ => true
  | .telemetrySample _ _ _ => true
  | .heartbeatMiss => true
  | .pwrHb _ _ _ => true
  | .crownWatchdog _ _ => true
  | .mbxSubmit _ off data => bytesIn off data 256
  | .getId => true
  | .getCert => true
  | .attest => true
  | .bufRead => true
  | .bufWrite => true
  | .fwUpdate => true
  | .fwFlashWriteDone _ => true
  | .fwStatus => true
  | .recoverLoad => true
  | .recoverCommit _ _ => true
  | .calRead => true
  | .calWrite _ => true
  | .cfgRead => true
  | .cfgWrite _ => true
  | .telemCfg => true
  | .telemLast => true
  | .logRead => true
  | .setOrigin => true
  | .dbgChal => true
  | .dbgUnlock => true
  | .dbgChallengeExpire => true
  | .smbusBlockWrite _ _ data => decide (data.length ≤ 255)
  | .smbusBlockRead => true
  | .eventRoute => true
  | .eventQueueDeliver => true
  | .msixPendingSend _ _ => true
  | .evtRouteWrite _ _ _ _ => true
  | .pciApbaseWrite _ _ _ => true
  | .pciHwinWrite _ _ _ _ => true
  | .hostWindowWrite _ off data _ => hostWindowOk off data
  | .hostDdrAccess _ op _ => hostDdrOk op
  | .pcieLinkUp _ _ => true
  | .pcieLinkDown => true
  | .pcieReset => true
  | .flrPf0 => true
  | .flrPf1 => true
  | .aoPowerGood => true
  | .coldRestart _ _ => true
  | .warmRestart _ _ _ => true
  | .modRstRelease _ => true
  | .powerDown => true
  | .powerOff _ => true
  | .dozeEnter _ => true
  | .dozeExit _ => true
  | .napEnter _ => true
  | .napWake _ => true
  | .pwrDvfsWrite _ _ _ => true
  | .dvfsVoltageSettled _ => true
  | .brimOvercurrent _ => true
  | .brimPinAssert => true
  | .brimStepDown _ => true
  | .brimClear _ => true
  | .thermalSample _ => true
  | .tripRelease _ => true
  | .aoClockLoss => true
  | .registerWrite b off data _ => regWriteOk b off data
  | .hostRead b off n _ => hostReadOk b off n
  | .configurationRequest _ _ => true
  | .fabPortRetrain _ _ => true

end Sys2Proof
end

