-- ==== Sys2Proof/Machine/Ops.lean ====
section
/-! DEFINITION. The named operations every block shares: cores, partitions, events, domain time, sync objects,
slot tags, the Cuff, the scratchpad's views, windows and the signal gate. -/

namespace Sys2Proof.Machine

/-- The answer of a meaning. -/
abbrev Answer := Host.Outcome State Fault Refusal

/-- The answer of a command whose operands have ranges: its effect when they lie in range. Nothing happens where no agent can
form the command (DESIGN CHOICE, log entry 126). -/
def inRange (s : State) (ok : Bool) (t : State) : Answer := .next (if ok then t else s)

/-! ### Parts of the state -/

/-- The module with core `c` changed by `f`. -/
def State.modCore (s : State) (c : CoreId) (f : CoreSt → CoreSt) : State :=
  { s with cores := s.cores.set c (f s.cores[c]) }

/-- The module with the sequencer of `c` changed. -/
def State.modSeq (s : State) (c : CoreId) (f : SeqState → SeqState) : State :=
  s.modCore c fun k => { k with seq := f k.seq }

/-- The module with the scratchpad side of `c` changed. -/
def State.modSpd (s : State) (c : CoreId) (f : SpdState → SpdState) : State :=
  s.modCore c fun k => { k with spd := f k.spd }

/-- The module with engine `e` of core `c` changed. -/
def State.modEng (s : State) (c : CoreId) (e : Fin 7) (f : EngState → EngState) : State :=
  s.modCore c fun k => { k with engines := k.engines.set e (f k.engines[e]) }

/-- `f` applied for every core, c0 first. -/
def State.eachCore (s : State) (f : CoreId → State → State) : State :=
  (List.finRange 32).foldl (fun t c => f c t) s

/-- A free 64-bit value and the state that has drawn it. -/
def State.drawWord (s : State) : Word × State := (Config.freeWord s.free, { s with free := s.free + 1 })

/-- `n` free bytes and the state that has drawn them. -/
def State.drawBytes (s : State) (n : Nat) : List Byte × State :=
  ((List.range n).map (Config.freeByte s.free), { s with free := s.free + 1 })

/-- Something given to the outside. -/
def State.emit (s : State) (o : Output) : State := { s with out := s.out ++ [o] }

/-! ### Partitions (R438) -/

/-- The partition in force of a logical core (FLT_PEFF). -/
def State.partOf (s : State) (c : CoreId) : Fin 4 := Fin.ofNat 4 (fld s.flt.peff (2 * c.val) 2)

/-- Whether a partition is one of the safety partitions P0 and P1. -/
def isSafety (p : Fin 4) : Bool := decide (p.val < 2)

/-- The compute die of a core (R18). -/
def dieOf (c : CoreId) : Fin 4 := Fin.ofNat 4 (c.val / 8)

/-- Whether the core has a physical core behind it (R21). -/
def State.isBound (s : State) (c : CoreId) : Bool := !bit s.flt.unbound c.val

/-- Whether the core is fenced (R422) or its partition is restarting or held (R103, R426). -/
def State.isStopped (s : State) (c : CoreId) : Bool :=
  bit s.flt.fenced c.val || decide (s.flt.part[s.partOf c] ≠ .running)

/-- The core an initiator identifier 0x00 to 0x3F belongs to: a core's own, or its DMA engine's (R31). -/
def coreOfIni (i : Ini) : Option CoreId := if i.toNat < 0x40 then some (Fin.ofNat 32 i.toNat) else none

/-- The identifier of a core's sequencer and engines (R31). -/
def coreIni (c : CoreId) : Ini := BitVec.ofNat 8 c.val

/-- The identifier of a core's DMA engine (R31). -/
def dmaIni (c : CoreId) : Ini := BitVec.ofNat 8 (0x20 + c.val)

/-- Whether Gauntlet is ARMED or SINGLE. -/
def State.armed (s : State) : Bool := decide (s.gnt.mode = .armed) || decide (s.gnt.mode = .single)

/-! ### The package network (R18, R24, R423) -/

/-- The die an initiator's port is on (R31). -/
def iniDie (i : Ini) : Die :=
  if i.toNat < 0x40 then .cd (Fin.ofNat 4 (i.toNat % 32 / 8))
  else if i.toNat = 0x40 ∨ (0x42 ≤ i.toNat ∧ i.toNat ≤ 0x49) then .md 0
  else if i.toNat = 0x41 ∨ (0x4A ≤ i.toNat ∧ i.toNat ≤ 0x51) then .md 1
  else .xd

/-- The memory die that traffic for a window on compute die `d` of another compute die goes through (R24). -/
def windowVia (d : Fin 4) : Fin 2 := if d.val < 2 then 0 else 1

/-- The links between a compute die and any die, by R24 and the table of links. -/
def cdPath (d : Fin 4) : Die → List Link
  | .cd a => if a = d then [] else [.mem a (windowVia d), .mem d (windowVia d)]
  | .md m => [.mem d m]
  | .xd => [.io d]

/-- The links between a memory die and any die. -/
def mdPath (m : Fin 2) : Die → List Link
  | .cd a => [.mem a m]
  | .md n => if n = m then [] else [.memIo n, .memIo m]
  | .xd => [.memIo m]

/-- Whether no link of a path has stopped. -/
def State.carries (s : State) (path : List Link) : Bool := path.all fun l => !s.net.stopped.contains l

/-- Whether the package network carries an access of an initiator to a core (R24). -/
def State.reachesCore (s : State) (i : Ini) (c : CoreId) : Bool := s.carries (cdPath (dieOf c) (iniDie i))

/-! ### Events (R13, R30, R494, R538) -/

/-- Post a code to the event unit; `gnt` marks one that its block routes to Gauntlet for what it concerns. -/
def State.postFull (s : State) (code : Nat) (src : Ini) (part : Option (Fin 4)) (gnt : Bool) : State :=
  { s with evt := { s.evt with incoming := s.evt.incoming ++ [⟨BitVec.ofNat 16 code, src, s.tb.cnt, part, gnt, false⟩] } }

/-- Post a code of a block, with the partition its events are suppressed with, if any. -/
def State.postPart (s : State) (code : Nat) (src : Ini) (part : Option (Fin 4)) : State :=
  s.postFull code src part false

/-- The partition whose fence suppresses an initiator's events (R425 item 1): that of a core or its DMA engine. -/
def State.srcPart (s : State) (src : Ini) : Option (Fin 4) := (coreOfIni src).map s.partOf

/-- Post a code under the poster's identifier. -/
def State.post (s : State) (code : Nat) (src : Ini) : State := s.postPart code src (s.srcPart src)

/-- Post a code of a core. -/
def State.postCore (s : State) (c : CoreId) (code : Nat) : State := s.post code (coreIni c)

/-- An error on an access's way over the package network: a link whose one retry fails too stops until the next module restart
(R423). Parity inside XD has a line of its own to Gauntlet, which marks its event. -/
def State.netFault (s : State) (path : List Link) (f : NetFault) : State :=
  match f with
  | .none => s
  | .xd => s.postFull 0x6090 0xC9 none true
  | .link n again =>
    match path[n]? with
    | some l =>
      if again then { s with net := { s.net with stopped := l :: s.net.stopped.erase l } }.postPart 0x6090 0xC9 none else s
    | none => s

/-! ### Domain time (R375) -/

/-- The time of a domain at counter value `cnt`. -/
def TbDom.time (d : TbDom) (cnt : Word) : Word :=
  let n : Nat := (cnt - d.anc).toNat
  let b : Int := 2 * (n : Int)
  BitVec.ofInt 64 (d.ofs.toNat + b + (b * d.rate.toInt).fdiv (2 ^ 40))

/-- The present time of domain `d` (0 A, 1 B). -/
def State.domTime (s : State) (d : Fin 2) : Word := s.tb.dom[d].time s.tb.cnt

/-- A domain about to be changed in tick `c` keeps the parameters that it had before the tick (R377). -/
def TbDom.before (d : TbDom) (c : Word) : Option (Word × Word × Word × BitVec 32) :=
  match d.was with
  | some w => if w.1 = c then some w else some (c, d.ofs, d.anc, d.rate)
  | none => some (c, d.ofs, d.anc, d.rate)

/-- What a read of the domain time returns: in the tick of a RATE or STEP the value of the old parameters (R377). -/
def State.readTime (s : State) (d : Fin 2) : Word :=
  let x := s.tb.dom[d]
  match x.was with
  | some (c, o, a, r) => if c = s.tb.cnt then { x with ofs := o, anc := a, rate := r }.time c else s.domTime d
  | none => s.domTime d

/-- Receive and transmit latency in TB_LAT, in ns: low and high half (DESIGN CHOICE, log 154). -/
def rxLat (w : Word) : Nat := fld w 0 32
def txLat (w : Word) : Nat := fld w 32 32

/-- The stamp of a frame that arrives on port `p` now, in a domain: the time at the pins (R381). -/
def State.rxStamp (s : State) (p : Fin 4) (d : Fin 2) : Word := s.domTime d - BitVec.ofNat 64 (rxLat s.tb.tx[p].lat)

/-! ### Sync objects (R60, R62, R96, R97) -/

/-- A signal the core accepts from its own sequencer, engines, DMA engine or the event unit. -/
def State.syncAdd (s : State) (c : CoreId) (n : Nat) (v : Word) : State :=
  s.modSpd c fun p => { p with sync := SMap.set 0 p.sync n (SMap.get 0 p.sync n + v) }

/-- SSET: overwrite a counter. -/
def State.syncSet (s : State) (c : CoreId) (n : Nat) (v : Word) : State :=
  s.modSpd c fun p => { p with sync := SMap.set 0 p.sync n v }

/-- The counter of sync object `n`. -/
def CoreSt.sync (k : CoreSt) (n : Nat) : Word := SMap.get 0 k.spd.sync n

/-- The partition filter of R93 for the core's partition: fabric identifiers and foreign cores are refused by a
core of P0 or P1. No core admits a reserved code or an event-source identifier (R31, R538). -/
def State.partFilter (s : State) (c : CoreId) (i : Ini) : Bool :=
  iniAssigned i && (!isSafety (s.partOf c) ||
    (!bit i 7 && (match coreOfIni i with | some o => decide (s.partOf o = s.partOf c) | none => true)))

/-- The signal gate of R96. -/
def State.gateOpen (s : State) (c : CoreId) (i : Ini) (n : Nat) : Bool :=
  let p := s.cores[c].spd
  decide (p.sgBase ≤ n) && decide (n < p.sgBase + p.sgCnt) &&
    decide (i &&& p.sgMask = p.sgMatch &&& p.sgMask) && s.partFilter c i

/-- A remote signal refused: SGREF and event 0x1102 (R96). -/
def State.signalRefused (s : State) (c : CoreId) : State :=
  (s.modSpd c fun p => { p with sgref := satAdd 0xFFFF p.sgref 1 }).postCore c 0x1102

/-- Gauntlet's monitors of a compute die changed. -/
def State.modMon (s : State) (d : Fin 4) (f : DieMon → DieMon) : State :=
  { s with gnt := { s.gnt with mon := s.gnt.mon.set d (f s.gnt.mon[d]) } }

/-- The clock of a die that Gauntlet's monitor expects stopped has restarted (R507). -/
def DieMon.wake (k : DieMon) (cnt : Word) : DieMon := if k.stopped then { k with stopped := false, back := some cnt } else k

/-- A die leaves NAP, as when something arrives for one of its cores (R506). -/
def State.wakeDie (s : State) (d : Fin 4) : State :=
  { (s.modMon d fun k => k.wake s.tb.cnt) with pwr := { s.pwr with nap := setBit s.pwr.nap d.val false } }

/-- Whether a window write of a sender waits for its bank. -/
def SpdState.holdsWrite (p : SpdState) (who : Sender) : Bool :=
  p.held.any fun h => match h with | .write j _ _ => decide (j = who) | .signal _ _ _ => false

/-- A remote signal reaches a core (R96). Behind a window write of its sender that waits for its bank it waits too, so
that the write is visible first (R95, R361). Over a stopped link it fails (R423). -/
def State.remoteSignal (s : State) (c : CoreId) (i : Ini) (n : Nat) (v : Word) (who : Sender := .ini i) : State :=
  if !s.reachesCore i c then s else
  let s := s.wakeDie (dieOf c)
  if !s.gateOpen c i n then s.signalRefused c
  else if s.cores[c].spd.holdsWrite who then s.modSpd c fun p => { p with held := p.held ++ [.signal who n v] }
  else s.syncAdd c n v

/-! ### Slot tags (R86 to R90) -/

/-- Whether an enabled descriptor covers a line. -/
def TagDesc.covers (t : TagDesc) (line : Nat) : Bool :=
  t.en && decide (t.base ≤ line) && decide (line < t.base + 2 ^ t.size)

/-- The state of the descriptor that governs a line, the lowest-numbered one; none for an untagged line (R86). -/
def SpdState.lineFull (p : SpdState) (line : Nat) : Option Bool :=
  (p.tags.find? fun e => e.2.covers line).map fun e => e.2.full

/-- A read of a line in an empty slot waits (R88). -/
def SpdState.mayRead (p : SpdState) (line : Nat) : Bool := p.lineFull line != some false

/-- A write to a line in a full slot waits (R88). -/
def SpdState.mayWrite (p : SpdState) (line : Nat) : Bool := p.lineFull line != some true

/-- Tag descriptor `n`. -/
def SpdState.tag (p : SpdState) (n : Nat) : TagDesc := SMap.get TagDesc.zero p.tags n

/-- Set the state of tag `n` (TSET, SETOP). -/
def SpdState.setTag (p : SpdState) (n : Nat) (full : Bool) : SpdState :=
  { p with tags := SMap.set TagDesc.zero p.tags n { p.tag n with full := full } }

/-- Lines that `n ≥ 1` bytes at `a` touch. -/
def linesOf (a n : Nat) : List Nat :=
  if n = 0 then [] else (List.range ((a + n - 1) / 256 - a / 256 + 1)).map (· + a / 256)

/-- Whether every line of a range may be read. -/
def SpdState.mayReadAll (p : SpdState) (a n : Nat) : Bool := (linesOf a n).all p.mayRead

/-- Whether every line of a range may be written. -/
def SpdState.mayWriteAll (p : SpdState) (a n : Nat) : Bool := (linesOf a n).all p.mayWrite

/-! ### Banks (R77, R539) -/

/-- Size of a scratchpad. -/
def spdBytes : Nat := 0x800000

/-- Whether the bank of a scratchpad offset is powered. -/
def SpdState.powered (p : SpdState) (a : Nat) : Bool := bit p.bankOn (a / 0x80000)

/-- Whether every bank a range touches is powered and the range lies in the scratchpad. -/
def SpdState.poweredAll (p : SpdState) (a n : Nat) : Bool :=
  decide (a + n ≤ spdBytes) &&
    (decide (n = 0) || (List.range ((a + n - 1) / 0x80000 - a / 0x80000 + 1)).all fun i => bit p.bankOn (a / 0x80000 + i))

/-! ### The Cuff and the two views (R81 to R84) -/

/-- A flush: the valid bytes go to the bank. -/
def SpdState.flushEntry (p : SpdState) (e : CuffEntry) : SpdState :=
  { p with mem := e.bytes.foldl (fun m b => m.put (256 * e.line + b.1) b.2) p.mem }

/-- Flush the entries that satisfy `q`, oldest first, and free them (R82). -/
def SpdState.flushIf (p : SpdState) (q : CuffEntry → Bool) : SpdState :=
  { (p.cuff.filter q).foldl SpdState.flushEntry p with cuff := p.cuff.filter fun e => !q e }

/-- Flush everything, as at a task's end. -/
def SpdState.flushAll (p : SpdState) : SpdState := p.flushIf fun _ => true

/-- Bytes listed by offset, with `bs` stored from `off` upward. -/
def storeAt : Nat → List Byte → List (Nat × Byte) → List (Nat × Byte)
  | _, [], m => m
  | off, b :: bs, m => storeAt (off + 1) bs (SMap.insert off b m)

/-- Bytes stored into an entry. -/
def CuffEntry.store (e : CuffEntry) (off : Nat) (bs : List Byte) (owner : Nat) : CuffEntry :=
  { e with
    bytes := storeAt off bs e.bytes
    owners := setBit e.owners owner true }

/-- One narrow write of at most a line, by the port `owner` (an engine code, or 7 for the sequencer): merged into
the entry of its line, or into a new entry after the oldest is flushed where none is free (R81, R82). A full entry
is flushed at once. -/
def SpdState.narrowWrite (p : SpdState) (a : Nat) (bs : List Byte) (owner : Nat) : SpdState :=
  let line := a / 256
  let p :=
    if p.cuff.any fun e => e.line = line then
      { p with cuff := p.cuff.map fun e => if e.line = line then e.store (a % 256) bs owner else e }
    else
      let p := if p.cuff.length < 16 then p
        else match p.cuff with
          | [] => p
          | e :: rest => { p.flushEntry e with cuff := rest }
      { p with cuff := p.cuff ++ [(CuffEntry.mk line [] 0).store (a % 256) bs owner] }
  p.flushIf fun e => decide (e.bytes.length = 256)

/-- A byte through the narrow view: the bank's, with a valid Cuff byte over it (R81). -/
def SpdState.narrowByte (p : SpdState) (a : Nat) : Byte :=
  match p.cuff.find? fun e => e.line = a / 256 with
  | some e => (match e.bytes.find? fun b => b.1 = a % 256 with
    | some b => b.2
    | none => p.mem.byte a)
  | none => p.mem.byte a

/-- `n` bytes through the narrow view. -/
def SpdState.narrowRead (p : SpdState) (a n : Nat) : List Byte :=
  (List.range n).map fun i => p.narrowByte (a + i)

/-! ### Windows (R91 to R94) -/

/-- Window `n` of a core. -/
def SpdState.window (p : SpdState) (n : Nat) : Window := SMap.get Window.closed p.windows n

/-- Window `n` replaced. -/
def SpdState.setWindow (p : SpdState) (n : Nat) (w : Window) : SpdState :=
  { p with windows := SMap.set Window.closed p.windows n w }

/-- Window `n` closed; its other parameters stay readable. -/
def SpdState.closeWindow (p : SpdState) (n : Nat) : SpdState := p.setWindow n { p.window n with isOpen := false }

/-- A window violation: the request is dropped, counted, recorded and posted (R92). -/
def State.windowViolation (s : State) (c : CoreId) (i : Ini) (off : Nat) : State :=
  (s.modSpd c fun p =>
    { p with wviol := satAdd 0xFFFF p.wviol 1, lastIni := i, lastOff := off % 2 ^ 24 }).postCore c 0x1101

/-- Whether some open window takes the request (R92). -/
def SpdState.windowTakes (p : SpdState) (i : Ini) (off n : Nat) : Bool :=
  p.windows.any fun e =>
    e.2.isOpen && decide (e.2.base ≤ off) && decide (off + n ≤ e.2.base + e.2.len) &&
      decide (i &&& e.2.mask = e.2.matchv &&& e.2.mask)

/-- The banks that the launch sequence of a core in `preparing` is powering up or clearing (R94, R104). -/
def CoreSt.preparingBank (k : CoreSt) (a : Nat) : Bool :=
  decide (k.seq.phase = .preparing) &&
    (let r := k.spd.slots[k.seq.slot].record
     let b := a / 0x80000
     fld r (8 * 4 + b) 1 = 1 && (!bit k.spd.bankOn b || fld r (8 * 6 + b) 1 = 0))

/-- A window write of at most 256 bytes inside one line reaches a core's window input (R92 to R94), unless a link on its
way has stopped (R24, R423). -/
def State.windowWrite (s : State) (c : CoreId) (i : Ini) (off : Nat) (data : List Byte) (who : Sender := .ini i) : State :=
  if !s.reachesCore i c then s else
  let s := s.wakeDie (dieOf c)
  let k := s.cores[c]
  if decide (off + data.length ≤ spdBytes) && s.partFilter c i && k.spd.windowTakes i off data.length then
    if k.preparingBank off then s.modSpd c fun p => { p with held := p.held ++ [.write who off data] }
    else if k.spd.powered off then s.modSpd c fun p => { p with mem := p.mem.write off data }
    else s.windowViolation c i off
  else s.windowViolation c i off

/-- A byte range cut where it crosses a multiple of `unit`; at most `fuel` pieces. -/
def cut (unit : Nat) : Nat → Nat → List Byte → List (Nat × List Byte)
  | 0, _, _ => []
  | fuel + 1, a, bs =>
    if bs.isEmpty then [] else
      let n := unit - a % unit
      (a, bs.take n) :: cut unit fuel (a + n) (bs.drop n)

/-- A longer window write, split into requests inside one line each; every request is checked on its own (R92). -/
def State.windowWrites (s : State) (c : CoreId) (i : Ini) (off : Nat) (data : List Byte) : State :=
  (cut 256 (data.length + 1) off data).foldl (fun t r => t.windowWrite c i r.1 r.2) s

/-- The numbers below `n` in the order of a rotating token. -/
def rotated (n tok : Nat) : List Nat := (List.range n).map fun i => (tok + 1 + i) % n

/-- Whether two byte ranges share a byte. -/
def overlap (a n b m : Nat) : Bool := decide (a < b + m) && decide (b < a + n) && decide (0 < n) && decide (0 < m)

/-- Whether the Brim current limit is asserted for die `d` (R510). -/
def PwrState.brim (p : PwrState) (d : Fin 4) : Bool := bit p.ocCause d.val || p.hbCause || p.pinCause

end Sys2Proof.Machine
end

