-- ==== Sys2Proof/Machine/DdrOps.lean ====
section
/-! DEFINITION. Every access to DDR passes here: the region check, the channel map, the error completions and the
visible bytes (R326 to R339). -/

namespace Sys2Proof.Machine

/-- Who makes a DDR access, as the table of R329 tells initiators apart. -/
inductive DdrWho where
  /-- Checked against a partition: cores, per-core DMA, memory-die channels 0 to 13, gather units, ingest and the
  collective engine. -/
  | part (ini : Ini) (p : Fin 4)
  /-- Memory-die channels 14 and 15: inside DRGN (R318). -/
  | priv (ini : Ini) (base len : Nat)
  /-- Host PF0 through the BAR4 aperture. -/
  | host
  | crown
  | gauntlet
  /-- Host PF1, Cloche and fabric peers: never. -/
  | never (ini : Ini)
  deriving DecidableEq, Repr

/-- The identifier recorded for an access. -/
def DdrWho.ini : DdrWho → Ini
  | .part i _ => i
  | .priv i _ _ => i
  | .host => 0x60
  | .crown => 0x70
  | .gauntlet => 0x71
  | .never i => i

/-- Fields of a region register (DDR_RGN). -/
def rgnEn (w : Word) : Bool := bit w 63
def rgnSet (w : Word) : Nat := fld w 60 2
def rgnRdm (w : Word) : Nat := fld w 56 4
def rgnWrm (w : Word) : Nat := fld w 52 4
def rgnChofs (w : Word) : Nat := fld w 32 10
def rgnSize (w : Word) : Nat := fld w 10 11
def rgnBase (w : Word) : Nat := fld w 0 10

/-- Number of bits that choose a channel within a region's set (R326). -/
def rgnK (w : Word) : Nat := if rgnSet w = 0 then 4 else 3

/-- The enabled region that holds device address `a` (R326). -/
def DdrState.regionAt (d : DdrState) (a : Nat) : Option Word :=
  d.rgn.toList.find? fun w => rgnEn w && decide (rgnBase w ≤ a / 2 ^ 30) && decide (a / 2 ^ 30 < rgnBase w + rgnSize w)

/-- XOR of the k-bit groups of `hi`, lowest first (R327). -/
def xorGroups (k : Nat) : Nat → Nat → Nat
  | 0, _ => 0
  | fuel + 1, hi => if hi = 0 then 0 else (hi % 2 ^ k) ^^^ xorGroups k fuel (hi / 2 ^ k)

/-- The channel and the byte offset within it that hold address `a` of region `w` (R327). -/
def placeIn (w : Word) (a : Nat) : Nat × Nat :=
  let k := rgnK w
  let x := a - rgnBase w * 2 ^ 30
  let l := x / 256
  let hi := l / 2 ^ k
  let cl := (l % 2 ^ k) ^^^ xorGroups k 48 hi
  ((if rgnSet w = 2 then 8 + cl else cl) % 16, rgnChofs w * 2 ^ 26 + hi * 256 + x % 256)

/-- The key of a place in the memory map: channel times 2^36 plus offset. -/
def placeKey (p : Nat × Nat) : Nat := p.1 * 2 ^ 36 + p.2

/-- Where a device address lies, when a region holds it. -/
def DdrState.place (d : DdrState) (a : Nat) : Option (Nat × Nat) := (d.regionAt a).map fun w => placeIn w a

/-- The key of a device address; addresses outside every region share none, and are never read or written. -/
def DdrState.key (d : DdrState) (a : Nat) : Nat := match d.place a with | some p => placeKey p | none => 0

/-- Installed capacity in bytes (R325). -/
def DdrState.installed (d : DdrState) : Nat := 16 * fld d.cfg 16 8 * 2 ^ 30

/-- Whether the region check admits an access of `who` to the GiB that holds `a` (R329). -/
def DdrState.admits (d : DdrState) (who : DdrWho) (wr : Bool) (a : Nat) : Bool :=
  match d.regionAt a with
  | none => false
  | some w =>
    match who with
    | .part _ p => if wr then (rgnWrm w).testBit p.val else (rgnRdm w).testBit p.val
    | .priv _ _ _ => true
    | .host => if wr then bit w 50 else bit w 51
    | .crown => true
    | .gauntlet => !wr
    | .never _ => false

/-- One address of every GiB that `n` bytes at `a` touch; regions have GiB bounds (R326). -/
def granules (a n : Nat) : List Nat :=
  if n = 0 then [] else a :: ((List.range ((a + n - 1) / 2 ^ 30 - a / 2 ^ 30)).map fun i => (a / 2 ^ 30 + i + 1) * 2 ^ 30)

/-- The check of R329 over every byte of an access; it fails whole when any byte fails. -/
def DdrState.admitsAll (d : DdrState) (who : DdrWho) (wr : Bool) (a n : Nat) : Bool :=
  (granules a n).all (fun g => d.admits who wr g) &&
    (match who with
      | .priv _ b l => decide (b ≤ a) && decide (a + n ≤ b + l)
      | _ => true)

/-- Event source of the DDR controllers of a channel (R538). -/
def ddrSrc (ch : Nat) : Ini := if ch < 8 then 0xC2 else 0xC3

/-- Event source for an address: that of its channel's die, MD0 where no region holds it. -/
def DdrState.srcOf (d : DdrState) (a : Nat) : Ini := match d.place a with | some p => ddrSrc p.1 | none => 0xC2

/-- A refused access of `n` bytes: DDR_LASTREF and event 0x2060 (R329, R35, R342). -/
def State.ddrRefuse (s : State) (who : DdrWho) (wr : Bool) (a n : Nat) : State :=
  let nopart := match who with | .part _ _ => false | _ => true
  let part := match who with | .part _ p => p.val | _ => 0
  let lo := pack [(63, 1, 1), (62, 1, ofBool wr), (61, 1, ofBool nopart), (58, 2, part),
    (48, 8, who.ini.toNat), (0, 48, a)]
  let src := s.ddr.srcOf a
  let names (w : Word) : Bool := decide ((rgnRdm w ||| rgnWrm w) % 4 ≠ 0)
  let gnt := (!nopart && decide (part < 2)) || (granules a n).any fun g => ((s.ddr.regionAt g).map names).getD false
  { s with ddr := { s.ddr with refLo := lo, refHi := s.tb.cnt } }.postFull 0x2060 src none gnt

/-- The 64-byte bursts, by key, that `n` bytes at device address `a` touch. -/
def DdrState.bursts (d : DdrState) (a n : Nat) : List Nat :=
  if n = 0 then [] else
    (List.range ((a + n - 1) / 64 - a / 64 + 1)).map fun i => d.key ((a / 64 + i) * 64) / 64

/-- The bursts that a write of `n` bytes at `a` covers whole. -/
def DdrState.wholeBursts (d : DdrState) (a n : Nat) : List Nat :=
  ((List.range (n / 64 + 1)).filter fun i => ((a + 63) / 64 + i) * 64 + 64 ≤ a + n).map
    fun i => d.key (((a + 63) / 64 + i) * 64) / 64

/-- The channel of a burst key. -/
def burstChan (b : Nat) : Fin 16 := Fin.ofNat 16 (b / 2 ^ 30)

/-- Whether a burst is marked uncorrectable. -/
def DdrState.isBad (d : DdrState) (b : Nat) : Bool := SMap.get false d.bad b

/-- A change of one channel. -/
def State.modChan (s : State) (ch : Fin 16) (f : ChanState → ChanState) : State :=
  { s with ddr := { s.ddr with ch := s.ddr.ch.set ch (f s.ddr.ch[ch]) } }

/-- Whether the channels of the bursts answer: running, and not in self-refresh (R339, R341). -/
def DdrState.answers (d : DdrState) (bs : List Nat) : Bool :=
  !d.selfRefresh && bs.all fun b => decide (d.ch[burstChan b].state = 2)

/-- The memory die of a channel. -/
def chanDie (ch : Fin 16) : Fin 2 := Fin.ofNat 2 (ch.val / 8)

/-- Whether the bursts of an access answer: their channels, and the links of the package network to them (R24, R423). -/
def State.ddrAnswers (s : State) (who : DdrWho) (bs : List Nat) : Bool :=
  s.ddr.answers bs && bs.all fun b => s.carries (mdPath (chanDie (burstChan b)) (iniDie who.ini))

/-- The row of a burst, as LOC of a repair record names it (R430): channel in [7:0], rank, bank group, bank and row above. -/
def ddrRowLoc (b : Nat) : Word := BitVec.ofNat 64 ((burstChan b).val + 256 * Config.ddrRow b)

/-- An uncorrectable read of a burst: counted, recorded and posted (R338). -/
def State.ddrUncorrectable (s : State) (b : Nat) : State :=
  let ch := burstChan b
  let s := s.modChan ch fun c => { c with ue := satAdd 0xFFFFFFFF c.ue 1 }
  let lo := pack [(63, 1, 1), (48, 4, ch.val), (0, 36, b * 64 % 2 ^ 36)]
  { s with
    ddr := { s.ddr with ueLo := lo, ueHi := s.tb.cnt }, flt := { s.flt with rowUe := s.flt.rowUe ++ [ddrRowLoc b] } }.postPart (0x2020 + ch.val) (ddrSrc ch.val) none

/-- The bytes at `n` device addresses from `a`. -/
def DdrState.bytes (d : DdrState) (a n : Nat) : List Byte :=
  (List.range n).map fun i => d.mem.byte (d.key (a + i))

/-- Store bytes at device addresses from `a`. -/
def DdrState.store (d : DdrState) (a : Nat) : List Byte → DdrState
  | [] => d
  | b :: bs => DdrState.store { d with mem := d.mem.put (d.key a) b } (a + 1) bs

/-! ### Grants (R332) -/

/-- MIN and WT of a partition in a DDR_BW value. -/
def bwMin (w : Word) (p : Nat) : Nat := fld w (7 * p) 7
def bwWt (w : Word) (p : Nat) : Nat := fld w (28 + 4 * p) 4

/-- Of two partitions of a pair, the one the rotating token points at first. -/
def pairOrder (tok : Bool) (a b : Fin 4) : List (Fin 4) := if tok then [b, a] else [a, b]

/-- Partitions in the order in which ties are resolved: P0 and P1 before P2 and P3, rotating within each pair. -/
def ChanState.tieOrder (c : ChanState) : List (Fin 4) := pairOrder c.tokLo 0 1 ++ pairOrder c.tokHi 2 3

/-- Whether partition `p` ranks before `q` under rule 2: the smaller (grants - MIN) ÷ WT by cross-multiplication,
with WT = 0 last. -/
def ChanState.before (c : ChanState) (p q : Fin 4) : Bool :=
  let wp := bwWt c.bw p.val
  let wq := bwWt c.bw q.val
  let np : Int := (c.grants[p] : Int) - bwMin c.bw p.val
  let nq : Int := (c.grants[q] : Int) - bwMin c.bw q.val
  if wp = 0 then false else if wq = 0 then true else decide (np * wq < nq * wp)

/-- The partition a channel serves next among those waiting (R332). -/
def ChanState.choose (c : ChanState) (waiting : BitVec 4) : Option (Fin 4) :=
  let ps := c.tieOrder.filter fun p => bit waiting p.val
  match ps.find? fun p => decide (c.grants[p] < bwMin c.bw p.val) with
  | some p => some p
  | none => ps.foldl (fun best p => match best with
      | none => some p
      | some b => if c.before p b then some p else some b) none

/-- A grant to partition `p`: counted, the token of its pair moves past it, and a new frame of 64 takes up the
DDR_BW register `next`. -/
def ChanState.grant (c : ChanState) (p : Fin 4) (next : Word) : ChanState :=
  let g := c.grants.set p (c.grants[p] + 1)
  let c := { c with
    grants := g
    tokLo := if p.val < 2 then decide (p.val = 0) else c.tokLo
    tokHi := if p.val < 2 then c.tokHi else decide (p.val = 2) }
  if 64 ≤ g.toList.foldl (· + ·) 0 then { c with grants := Vector.replicate 4 0, bw := next } else c

/-- Every burst of an access is let through by one grant of its channel to the partition that uses it. -/
def State.grantAll (s : State) (p : Fin 4) (bursts : List Nat) : State :=
  bursts.foldl (fun t b => t.modChan (burstChan b) fun c => c.grant p (t.ddr.bw[chanDie (burstChan b)])) s

/-- The bursts of an access that its block makes at once are let through by one grant each. -/
def State.grantFor (s : State) (who : DdrWho) (bursts : List Nat) : State :=
  match who with
  | .part _ p => s.grantAll p bursts
  | _ => s

/-- Every channel changed. -/
def State.eachChan (s : State) (f : ChanState → ChanState) : State := { s with ddr := { s.ddr with ch := s.ddr.ch.map f } }

/-- The burst that a channel serves next: of the partition it chooses, one of an open row first, otherwise the oldest. -/
def ChanState.pick (c : ChanState) : Option DdrBurst :=
  let waiting := c.queue.foldl (fun m q => setBit m q.part.val true) (0 : BitVec 4)
  match c.choose waiting with
  | none => none
  | some p =>
    let mine := c.queue.filter fun q => decide (q.part = p)
    match mine with
    | [q] => some q
    | _ => (mine.find? fun q => decide (SMap.get none c.rows (Config.ddrBank q.key) = some (Config.ddrRow q.key))).or mine.head?

/-- A channel with a burst's time to spare lets one through. -/
def State.chanServe (s : State) (ch : Fin 16) : State :=
  let c := s.ddr.ch[ch]
  if c.credit < 5 then s
  else match c.pick with
    | none => s
    | some q => s.modChan ch fun c =>
      { c.grant q.part s.ddr.bw[chanDie ch] with
        queue := c.queue.erase q, credit := c.credit - 5
        rows := SMap.set none c.rows (Config.ddrBank q.key) (some (Config.ddrRow q.key)) }

/-- Reads whose bursts are all let through give their completions, oldest first. -/
def State.ddrAnswer (s : State) : State :=
  let waits (q : DdrReply) : Bool := s.ddr.ch.toList.any fun c => c.queue.any fun b => decide (b.id = q.id)
  (s.ddr.replies.filter fun q => !waits q).foldl (fun t q => t.emit (.ddrCompletion q.ini q.addr q.data))
    { s with ddr := { s.ddr with replies := s.ddr.replies.filter waits } }

/-- Every channel serves what it can. -/
def State.ddrServe (s : State) : State := ((List.finRange 16).foldl State.chanServe s).ddrAnswer

/-- A tick of 2 ns: a burst of 64 bytes takes 2.5 ns. -/
def State.ddrTick (s : State) : State := (s.eachChan fun c => { c with credit := min 8 (c.credit + 4) }).ddrServe

/-! ### Reads and writes -/

/-- The bytes of a DDR read, or an error completion for a refusal, a stopped channel or link, or uncorrectable bursts
(R329, R338, R339). -/
def State.ddrFetch (s : State) (who : DdrWho) (a n : Nat) : State × Option (List Byte) :=
  if s.ddr.admitsAll who false a n then
    let bs := s.ddr.bursts a n
    if s.ddrAnswers who bs then
      match bs.filter s.ddr.isBad with
      | [] => (s, some (s.ddr.bytes a n))
      | bad => (bad.foldl State.ddrUncorrectable s, none)
    else (s, none)
  else (s.ddrRefuse who false a n, none)

/-- A DDR read that its block makes, with its grants. -/
def State.ddrRead (s : State) (who : DdrWho) (a n : Nat) : State × Option (List Byte) :=
  let x := s.ddrFetch who a n
  (if x.2.isSome then x.1.grantFor who (s.ddr.bursts a n) else x.1, x.2)

/-- A partial write onto a bad burst: it stays poisoned, and 0x2080 + ch is posted (R338). -/
def State.ddrPoison (s : State) (b : Nat) : State :=
  s.postPart (0x2080 + (burstChan b).val) (ddrSrc (burstChan b).val) none

/-- A DDR write, and whether it was accepted: visible at acceptance (R331), dropped on a refusal or a stopped
channel or link; a burst covered whole is no longer bad, one covered in part stays poisoned (R338). -/
def State.ddrAccept (s : State) (who : DdrWho) (a : Nat) (bytes : List Byte) : State × Bool :=
  let n := bytes.length
  if s.ddr.admitsAll who true a n then
    let bs := s.ddr.bursts a n
    if s.ddrAnswers who bs then
      let whole := s.ddr.wholeBursts a n
      let partly := (bs.filter s.ddr.isBad).filter fun b => !whole.contains b
      let s := partly.foldl State.ddrPoison s
      let d := s.ddr.store a bytes
      ({ s with ddr := { d with bad := SMap.drop (fun b => whole.contains b) d.bad } }, true)
    else (s, false)
  else (s.ddrRefuse who true a n, false)

/-- A DDR write that its block makes, with its grants. -/
def State.ddrWrite (s : State) (who : DdrWho) (a : Nat) (bytes : List Byte) : State × Bool :=
  let x := s.ddrAccept who a bytes
  (if x.2 then x.1.grantFor who (s.ddr.bursts a bytes.length) else x.1, x.2)

/-- A write whose acceptance the writer does not wait for. -/
def State.ddrPut (s : State) (who : DdrWho) (a : Nat) (bytes : List Byte) : State := (s.ddrWrite who a bytes).1

/-- The access right of a core's engines: its own identifier and the partition its commands carry (R68). -/
def State.asCore (s : State) (c : CoreId) : DdrWho := .part (coreIni c) (s.partOf c)

end Sys2Proof.Machine
end

