-- ==== Sys2Proof/Machine/Ddr.lean ====
section
/-! DEFINITION. The commands of the DDR4 memory system (chapter 14): accesses with their grants and ECC, region and
bandwidth registers, refresh, scrubbing and command/address parity. -/

namespace Sys2Proof.Machine

/-- The right with which an initiator's access is checked (R329). -/
def State.whoOf (s : State) (r : DdrReq) : DdrWho :=
  let i := r.ini.val.toNat
  match coreOfIni r.ini with
  | some c => .part r.ini (s.partOf c)
  | none =>
    if i = 0x40 ∨ i = 0x41 then
      if r.chan.val < 14 then .part r.ini (Fin.ofNat 4 s.dma.dies[Fin.ofNat 2 i][r.chan].part)
      else
        let g := s.dma.drgn[Fin.ofNat 2 i][Fin.ofNat 2 r.chan.val]
        .priv r.ini g.base (g.limit + 1 - g.base)
    else if 0x42 ≤ i ∧ i ≤ 0x51 ∨ i = 0x58 ∨ i = 0x59 then .part r.ini r.part
    else if i = 0x60 then .host
    else if i = 0x70 then .crown
    else if i = 0x71 then .gauntlet
    else .never r.ini

/-! ### The ECC code (R336) -/

/-- What the code makes of a burst. -/
inductive EccVerdict where
  | clean
  /-- Corrected, and laid to this device. -/
  | corrected (rank : Bool) (dev : Nat)
  | uncorrectable
  /-- More errors than the code is said to detect. -/
  | beyond
  deriving DecidableEq, Repr

/-- ×4 DIMMs: any error in one device is corrected and any in two is detected; beside a device marked failed, an error in
another of its rank is uncorrectable (R337). -/
def ChanState.symbols (c : ChanState) (rank : Bool) (devs : List Nat) : EccVerdict :=
  if c.fvalid && c.frank == rank then
    (if devs.all fun d => d = c.fdev then .corrected rank c.fdev else .uncorrectable)
  else match devs with
    | [d] => .corrected rank d
    | [_, _] => .uncorrectable
    | _ => .beyond

/-- ×8 DIMMs: SEC-DED over each 72-bit beat. -/
def beatsOf (rank : Bool) (bits : List (Fin 8 × Fin 72)) (dev : Nat) : EccVerdict :=
  let wrong (n : Nat) : Bool := (List.finRange 8).any fun b => decide (n < (bits.filter fun x => decide (x.1 = b)).length)
  if wrong 2 then .beyond else if wrong 1 then .uncorrectable else .corrected rank dev

/-- The verdict on a burst of a channel, by device width. A burst from another offset fails, for the offset is part of the
check. -/
def ChanState.ecc (c : ChanState) (x8 : Bool) (e : DdrEcc) : EccVerdict :=
  match e with
  | .none => .clean
  | .wrongOffset => .uncorrectable
  | .flips rank bits =>
    match bits.eraseDups with
    | [] => .clean
    | b :: bs =>
      if x8 then beatsOf rank (b :: bs) (b.2.val / 8)
      else c.symbols rank ((b :: bs).map fun x => x.2.val / 4).eraseDups

/-! ### Corrected errors (R337) -/

/-- Whether the channel may post 0x2010 + ch now: at most once per ms. -/
def msSince (now : Word) (last : Option Nat) : Bool :=
  match last with
  | none => true
  | some t => decide (t + 500000 ≤ now.toNat)

/-- TB ticks of 24 h. -/
def dayTicks : Nat := 24 * 1800000000000

/-- A corrected read: counted, posted at most once per ms, counted to its row (R340), and laid to its device, which is marked
failed at its 16th correction within 24 h on ×4 DIMMs. -/
def State.ddrCorrected (s : State) (b : Nat) (rank : Bool) (dev : Nat) : State :=
  let ch := burstChan b
  let c := s.ddr.ch[ch]
  let k := ofBool rank * 18 + dev
  let times := s.tb.cnt :: (SMap.get [] c.devCe k).filter fun t => decide ((s.tb.cnt - t).toNat ≤ dayTicks)
  let fails := !bit s.ddr.cfg 4 && decide (16 ≤ times.length) && !c.fvalid
  let post := msSince s.tb.cnt c.lastCe
  let s := s.modChan ch fun c =>
    { c with
      ce := satAdd 0xFFFFFFFF c.ce 1
      devCe := SMap.set [] c.devCe k times
      fvalid := c.fvalid || fails
      frank := if fails then rank else c.frank
      fdev := if fails then dev else c.fdev
      lastCe := if post then some s.tb.cnt.toNat else c.lastCe }
  let s := { s with flt := { s.flt with
    rowErr := (4, ddrRowLoc b, s.tb.cnt) :: s.flt.rowErr.filter fun e => decide ((s.tb.cnt - e.2.2).toNat ≤ dayTicks) } }
  let s := if post then s.postPart (0x2010 + ch.val) (ddrSrc ch.val) none else s
  if fails then s.postPart (0x2030 + ch.val) (ddrSrc ch.val) none else s

/-- Whether free data stand where the code detects nothing. -/
def State.eccBeyond (s : State) (b : Nat) : State :=
  let s' := { s with free := s.free + 1 }
  if Config.freeBool s.free then { s' with ddr := { s'.ddr with bad := SMap.set false s'.ddr.bad b true } }
  else
    let x := s'.drawBytes 64
    { x.2 with ddr := { x.2.ddr with mem := x.2.ddr.mem.write (b * 64) x.1 } }

/-- What ECC makes of a burst, before the access that reads it. -/
def State.ddrEccOn (s : State) (b : Nat) (e : DdrEcc) : State :=
  match s.ddr.ch[burstChan b].ecc (bit s.ddr.cfg 4) e with
  | .clean => s
  | .corrected rank dev => s.ddrCorrected b rank dev
  | .uncorrectable => { s with ddr := { s.ddr with bad := SMap.set false s.ddr.bad b true } }
  | .beyond => s.eccBeyond b

/-! ### Accesses (R329 to R332) -/

/-- Ingest reads the records of an injection of its partition and nothing else (R329). -/
def State.ingestMay (s : State) (who : DdrWho) (a n : Nat) : Bool :=
  match who with
  | .part i p => decide (i ≠ 0x58) || s.ing.injq[p].any fun w => decide (injSrc w ≤ a) && decide (a + n ≤ injSrc w + 16 * injN w)
  | _ => true

/-- A read whose bursts wait at their channels; it takes its bytes now, in the order of arrival (R331). -/
def State.ddrQueue (s : State) (p : Fin 4) (ini : Ini) (a : Nat) (bs : List Nat) (data : Option (List Byte)) (read : Bool) : State :=
  let id := s.ddr.nextId
  let s := { s with ddr := { s.ddr with
    nextId := id + 1, replies := if read then s.ddr.replies ++ [⟨id, ini, a, data⟩] else s.ddr.replies } }
  (bs.foldl (fun (t : State) b => t.modChan (burstChan b) fun c => { c with queue := c.queue ++ [DdrBurst.mk id p b] }) s).ddrServe

/-- DDR_ACCESS: the network, region check, ECC, the access itself, and its bursts in the channels' queues. An access that no
partition's share covers is let through at once. -/
def State.ddrAccess (s : State) (r : DdrReq) (a : Nat) (op : DdrOp) (e : DdrEcc) (f : NetFault) : State :=
  let who := s.whoOf r
  let n := op.size
  let wr := match op with | .read _ => false | .write _ => true
  let bs := s.ddr.bursts a n
  let s := s.netFault (bs.flatMap fun b => mdPath (chanDie (burstChan b)) (iniDie r.ini)) f
  if !wr && !s.ingestMay who a n then (s.ddrRefuse who wr a n).emit (.ddrCompletion r.ini a none)
  else
    let go := s.ddr.admitsAll who wr a n && s.ddrAnswers who bs
    let s := match go, bs with
      | true, b :: _ => s.ddrEccOn b e
      | _, _ => s
    match op with
    | .read n =>
      let x := s.ddrFetch who a n
      (match go, who with
        | true, .part i p => x.1.ddrQueue p i a bs x.2 true
        | _, _ => x.1.emit (.ddrCompletion r.ini a x.2))
    | .write d =>
      let x := s.ddrAccept who a d
      (match go, who with
        | true, .part i p => x.1.ddrQueue p i a bs none false
        | true, _ => x.1
        | false, _ => if s.ddr.admitsAll who wr a n then x.1.emit (.ddrCompletion r.ini a none) else x.1)

def execDdrAccess (r : DdrReq) (a : Nat) (op : DdrOp) (e : DdrEcc) (f : NetFault) (s : State) : Answer :=
  inRange s (ddrAccessOk a op) (s.ddrAccess r a op e f)

/-! ### Region and bandwidth registers (R328, R333) -/

/-- Channels of a region's set. -/
def rgnChans (w : Word) : List Nat :=
  match rgnSet w with
  | 0 => List.range 16
  | 1 => List.range 8
  | _ => (List.range 8).map (· + 8)

/-- Bytes a region takes of each of its channels. -/
def rgnPer (w : Word) : Nat := rgnSize w * 2 ^ 30 / 2 ^ rgnK w

/-- Whether two half-open ranges meet. -/
def overlaps (a la b lb : Nat) : Bool := decide (a < b + lb) && decide (b < a + la)

/-- Whether two enabled regions overlap in device addresses or in the bytes of a channel. -/
def rgnOverlap (v w : Word) : Bool :=
  rgnEn v && rgnEn w &&
    (overlaps (rgnBase v) (rgnSize v) (rgnBase w) (rgnSize w) ||
      ((rgnChans v).any fun ch => (rgnChans w).contains ch) &&
        overlaps (rgnChofs v * 2 ^ 26) (rgnPer v) (rgnChofs w * 2 ^ 26) (rgnPer w))

/-- Whether a partition is held in reset, as a region change asks (R328). -/
def State.heldInReset (s : State) (p : Fin 4) : Bool := decide (s.flt.part[p] ≠ .running)

/-- Reserved encodings and non-zero reserved fields of a region register. -/
def rgnReserved (w : Word) : Bool :=
  bit w 62 || decide (rgnSet w = 3) || decide (fld w 42 8 ≠ 0) || decide (fld w 21 11 ≠ 0) ||
    (rgnEn w && (decide (rgnSize w = 0) || decide (1024 < rgnSize w)))

/-- The safety rule on RDM and WRM (R328). -/
def rgnSafetyBad (w : Word) : Bool :=
  let names (p : Nat) : Bool := (rgnRdm w).testBit p || (rgnWrm w).testBit p
  (names 0 && !(decide (rgnRdm w = 1) && decide (rgnWrm w = 1) && decide (rgnSet w = 1))) ||
    (names 1 && !(decide (rgnRdm w = 2) && decide (rgnWrm w = 2) && decide (rgnSet w = 2)))

/-- Whether a write only clears host bits or changes nothing. -/
def rgnExempt (old new : Word) : Bool :=
  let host : Word := 0x000C000000000000#64
  decide (old &&& ~~~host = new &&& ~~~host) && decide (new &&& host &&& ~~~old = 0)

/-- The cases of R328. -/
def State.rgnRefused (s : State) (i : Fin 16) (ini : Ini) (new : Word) : Bool :=
  let old := s.ddr.rgn[i]
  let named (p : Fin 4) : Bool := [old, new].any fun w => (rgnRdm w).testBit p.val || (rgnWrm w).testBit p.val
  decide (ini ≠ 0x70) ||
    (!rgnExempt old new && (List.finRange 4).any fun p => named p && !s.heldInReset p) ||
    (List.finRange 16).any (fun j => decide (j ≠ i) && rgnOverlap new s.ddr.rgn[j]) ||
    (rgnEn new && (decide (fld s.ddr.cfg 16 8 * 2 ^ 30 < rgnChofs new * 2 ^ 26 + rgnPer new) ||
      decide (s.ddr.installed < (rgnBase new + rgnSize new) * 2 ^ 30))) ||
    rgnSafetyBad new || rgnReserved new

/-- An enabled region that names P0 or P1 and gives the host a write right, which R395 does not allow. -/
def rgnHostBad (w : Word) : Bool := rgnEn w && decide ((rgnRdm w ||| rgnWrm w) % 4 ≠ 0) && bit w 50

/-- A write of DDR_RGN[i] (R328, R396). -/
def State.rgnWrite (s : State) (i : Fin 16) (ini : Ini) (h : Half) (v : Word) : State :=
  let new := mergeHalf h s.ddr.rgn[i] v
  if s.rgnRefused i ini new ∨ (s.armed ∧ rgnHostBad new) then s.postPart 0x2061 0xC2 none
  else { s with ddr := { s.ddr with rgn := s.ddr.rgn.set i new } }

/-- A write that would lower the minimum of a safety path on its own die below 8 (R396). -/
def bwSafetyBad (d : Fin 2) (old new : Word) : Bool :=
  decide (bwMin new d.val < 8) && decide (bwMin new d.val < bwMin old d.val)

/-- A write of DDR_BW[d] (R333); it takes effect at each channel's next frame (R332). -/
def State.bwWrite (s : State) (d : Fin 2) (ini : Ini) (h : Half) (v : Word) : State :=
  let new := mergeHalf h s.ddr.bw[d] (maskWrite 0x00000FFFFFFFFFFF#64 0 v)
  let sum := bwMin new 0 + bwMin new 1 + bwMin new 2 + bwMin new 3
  if ini ≠ 0x70 ∨ 64 < sum ∨ (s.armed ∧ bwSafetyBad d s.ddr.bw[d] new) then s.postPart 0x2061 (if d = 0 then 0xC2 else 0xC3) none
  else { s with ddr := { s.ddr with bw := s.ddr.bw.set d new } }

def execDdrRgnWrite (i : Fin 16) (ini : Initiator) (h : Half) (v : Word) (s : State) : Answer := .next (s.rgnWrite i ini h v)
def execDdrBwWrite (d : Fin 2) (ini : Initiator) (h : Half) (v : Word) (s : State) : Answer := .next (s.bwWrite d ini h v)

/-! ### Refresh (R334) and scrubbing (R335) -/

/-- A refresh interval expires and every rank is refreshed, which closes its rows. -/
def execDdrRefresh (ch : Fin 16) (s : State) : Answer :=
  .next (if s.ddr.ch[ch].state = 2 then s.modChan ch fun c => { c with refreshes := c.refreshes + 1, rows := [] } else s)

/-- A DIMM drives EVENT_n, or lets it go: 2× refresh and event 0x2040 + ch on entering it (R334). -/
def State.dimmEvent (s : State) (ch : Fin 16) (low : Bool) : State :=
  let c := s.ddr.ch[ch]
  if low then
    let s := s.modChan ch fun c => { c with eventN := true, ref2x := true }
    if c.ref2x then s else s.postPart (0x2040 + ch.val) (ddrSrc ch.val) none
  else if c.eventN then s.modChan ch fun c => { c with eventN := false, eventOff := some s.tb.cnt }
  else s

def execDimmEventAssert (e : DimmEvent) (s : State) : Answer := .next (s.dimmEvent e.ch e.low)

/-- Whether EVENT_n has been high for one second. -/
def ChanState.cool (c : ChanState) (now : Word) : Bool :=
  !c.eventN && (match c.eventOff with | some t => decide (500000000 ≤ (now - t).toNat) | none => true)

/-- One second after EVENT_n last deasserted the channel returns to 1× refresh. -/
def execRefresh1xReturn (ch : Fin 16) (s : State) : Answer :=
  .next (if s.ddr.ch[ch].cool s.tb.cnt then s.modChan ch fun c => { c with ref2x := false } else s)

/-- Bursts a channel has. -/
def DdrState.chanBursts (d : DdrState) : Nat := fld d.cfg 16 8 * 2 ^ 24

/-- The scrubber reads and checks one burst and moves on; a correctable error is corrected in place, an
uncorrectable one is logged and posted (R335, R337, R338). -/
def State.scrub (s : State) (ch : Fin 16) (e : DdrEcc) : State :=
  let c := s.ddr.ch[ch]
  if c.state ≠ 2 ∨ s.ddr.selfRefresh then s
  else
    let b := ch.val * 2 ^ 30 + c.scrubAt
    let n := s.ddr.chanBursts
    let s := s.modChan ch fun c => { c with scrubAt := if c.scrubAt + 1 < n then c.scrubAt + 1 else 0 }
    let s := s.ddrEccOn b e
    if s.ddr.isBad b then s.ddrUncorrectable b else s

def execDdrScrub (ch : Fin 16) (e : DdrEcc) (s : State) : Answer := .next (s.scrub ch e)

/-- A channel stops: what waits at it fails. -/
def State.ddrDrop (s : State) (ch : Fin 16) : State :=
  let ids := s.ddr.ch[ch].queue.map fun q => q.id
  let s := (s.modChan ch fun c => { c with state := 3 }).eachChan fun c => { c with queue := c.queue.filter fun q => !ids.contains q.id }
  let gone := s.ddr.replies.filter fun q => ids.contains q.id
  gone.foldl (fun t q => t.emit (.ddrCompletion q.ini q.addr none))
    { s with ddr := { s.ddr with replies := s.ddr.replies.filter fun q => !ids.contains q.id } }

/-- A command/address parity error (R339): retried once; a second error, or parity in the controller's own queues,
stops the channel. -/
def State.caParity (s : State) (ch : Fin 16) (retryFails own : Bool) : State :=
  let s := if own then s else s.postPart (0x2050 + ch.val) (ddrSrc ch.val) none
  if own || retryFails then
    (s.ddrDrop ch).postPart (0x2090 + ch.val) (ddrSrc ch.val) none
  else s

def execDdrCaParityError (ch : Fin 16) (retryFails own : Bool) (s : State) : Answer :=
  .next (if s.ddr.ch[ch].state = 2 then s.caParity ch retryFails own else s)

/-! ### Registers as they read -/

/-- DDR_CH STAT. -/
def ChanState.stat (c : ChanState) : Word :=
  pack [(56, 8, c.temp.toNat), (23, 1, ofBool c.fvalid), (22, 1, ofBool c.frank), (16, 6, c.fdev),
    (8, 1, ofBool c.ref2x), (0, 3, c.state.toNat)]

/-- DDR_CH CNT. -/
def ChanState.cntReg (c : ChanState) : Word := pack [(32, 32, c.ce), (0, 32, c.ue)]

end Sys2Proof.Machine
end

