-- ==== Sys2Proof/Machine/Events.lean ====
section
/-! DEFINITION. The event unit: fixed and programmed routes, the host event ring, Crown's queue and MSI-X messages
(R30, R425 item 1, R493 to R495). -/

namespace Sys2Proof.Machine

/-! ### Fixed routes -/

/-- Whether a poster is a core, or the DMA engine of a core, of P0 or P1. -/
def State.srcIsSafety (s : State) (src : Ini) : Bool :=
  match s.srcPart src with | some p => isSafety p | none => false

/-- Whether a number lies in an inclusive range. -/
def within (x lo hi : Nat) : Bool := decide (lo ≤ x) && decide (x ≤ hi)

/-- Codes of cores and their engines that go to Gauntlet when the core is in P0 or P1 (R75, R107, R158, R174, R189,
R209, R234, R262, R281, R322). -/
def coreCodeToGnt (c : Nat) : Bool :=
  [0x1020, 0x1089, 0x108A, 0x1101, 0x1102, 0x1110, 0x1111, 0x1120, 0x1131, 0x108B, 0x108C].contains c ||
    within c 0x1090 0x1093 || [0x4101, 0x4103].contains c || within c 0x4120 0x4122 || within c 0x4202 0x4205 ||
    [0x4220, 0x4302, 0x4303, 0x4320, 0x5002, 0x5003, 0x5020].contains c || within c 0x5102 0x5106 ||
    [0x5120, 0x5220, 0x5302, 0x5303, 0x5320].contains c || within c 0x5202 0x5204 || within c 0x5210 0x521F ||
    within c 0x2300 0x2302

/-- Codes that always go to Gauntlet (R151, R301, R372, R390, R436, R517). -/
def codeToGnt (c : Nat) : Bool :=
  [0x4103, 0x2202, 0x2210, 0x2211, 0x2212, 0x3090, 0x7010, 0x7011, 0x7020, 0x7021, 0x7030, 0x7070, 0x7080].contains c ||
    within c 0x6080 0x608B || [0x6090, 0x6091].contains c || within c 0x9050 0x9054 || [0x9060, 0x9070].contains c

/-- Whether a channel holds part of a region that names P0 or P1 (R342). -/
def DdrState.chanSafety (d : DdrState) (ch : Nat) : Bool :=
  d.rgn.toList.any fun w => rgnEn w && decide ((rgnRdm w ||| rgnWrm w) % 4 ≠ 0) && (rgnChans w).contains ch

/-- Codes of a DDR channel that go to Gauntlet when the channel serves P0 or P1 (R342). -/
def ddrCodeToGnt (d : DdrState) (c : Nat) : Bool :=
  (within c 0x2020 0x203F || within c 0x2050 0x205F || within c 0x2080 0x209F) && d.chanSafety (c % 16)

/-- Whether the event unit delivers a code to Gauntlet. -/
def State.toGnt (s : State) (p : Posted) : Bool :=
  let c := p.code.toNat
  p.gnt || codeToGnt c || ddrCodeToGnt s.ddr c || (coreCodeToGnt c && s.srcIsSafety p.src)

/-- Codes of R423 outside classes 0x2 and 0x6 whose reaction is more than a log entry. -/
def reactionCode (c : Nat) : Bool :=
  within c 0x1089 0x108C || [0x4121, 0x4122, 0x4220, 0x4320, 0x5020, 0x5120, 0x5220, 0x5320, 0x4031, 0x4032, 0x7080,
    0x3090, 0x9060, 0x9070].contains c

/-- Codes that Crown writes a log entry for (R434). -/
def loggedCode (c : Nat) : Bool := decide (c / 0x1000 = 2) || decide (c / 0x1000 = 6) || reactionCode c

/-- Whether the event unit delivers a code to Crown: those it logs, and those it counts toward repair records (R431,
R434, R420). -/
def codeToCrown (c : Nat) : Bool := loggedCode c || decide (c = 0x1120) || within c 0x3030 0x3035

/-! ### Routing (R493) -/

/-- Fields of EVT_ROUTE. -/
def rtEn (w : Word) : Bool := bit w 63
def rtMsi (w : Word) : Bool := bit w 62
def rtSyn (w : Word) : Bool := bit w 61
def rtSync (w : Word) : Nat := fld w 49 9
def rtCore (w : Word) : CoreId := Fin.ofNat 32 (fld w 44 5)
def rtVec (w : Word) : Byte := BitVec.ofNat 8 (fld w 36 8)

/-- Whether an entry matches a code. -/
def rtMatches (w : Word) (c : Code) : Bool :=
  rtEn w && decide (c &&& (w >>> 16).setWidth 16 = w.setWidth 16 &&& (w >>> 16).setWidth 16)

/-- Ascending order of acceptance: by XD clk, then by source identifier (R30). -/
def Posted.before (a b : Posted) : Bool :=
  decide (a.cnt.toNat < b.cnt.toNat) || (decide (a.cnt = b.cnt) && decide (a.src.toNat < b.src.toNat))

/-- The code the event unit takes next, the first of equals. -/
def firstPosted : List Posted → Option Posted
  | [] => none
  | p :: ps => match firstPosted ps with
    | none => some p
    | some q => if q.before p then some q else some p

/-- Whether the fence of a partition keeps a code off MSI-X (R425 item 1). -/
def EvtState.suppressed (e : EvtState) (p : Posted) : Bool :=
  match p.part with | some q => bit e.fenced q.val | none => false

/-- The event unit takes one code and delivers it along its routes, marked when its partition is fenced. -/
def State.eventRoute (s : State) : State :=
  match firstPosted s.evt.incoming with
  | none => s
  | some p =>
    let e := { s.evt with incoming := s.evt.incoming.erase p }
    let p := { p with fenced := e.suppressed p }
    let e := if s.toGnt p then { e with gntQ := e.gntQ ++ [p] } else e
    let e := if codeToCrown p.code.toNat then { e with toCrown := e.toCrown ++ [p] } else e
    match e.routes.toList.find? fun w => rtMatches w p.code with
    | none => { s with evt := { e with noroute := satAdd 0x7FFFFFFF e.noroute 1 } }
    | some w =>
      let e := if rtMsi w && !p.fenced then { e with toRing := e.toRing ++ [(p, rtVec w)] } else e
      let s := { s with evt := e }
      if rtSyn w then s.syncAdd (rtCore w) (rtSync w) 1 else s

/-- The event unit routes a code, or finds a parity error of its own (R423). -/
def execEventRoute (s : State) : Answer := .next s.eventRoute

/-! ### Messages (R494) -/

/-- A function of the module. -/
def PciState.fn (p : PciState) (pf1 : Bool) : PciFn := if pf1 then p.pf1 else p.pf0

/-- The module with a function changed. -/
def State.modFn (s : State) (pf1 : Bool) (f : PciFn → PciFn) : State :=
  if pf1 then { s with pci := { s.pci with pf1 := f s.pci.pf1 } } else { s with pci := { s.pci with pf0 := f s.pci.pf0 } }

/-- A vector of a function. -/
def PciFn.vect (f : PciFn) (v : Nat) : Vect := SMap.get Vect.reset f.vects v

/-- The function with a vector's pending bit set or cleared. -/
def PciFn.setPending (f : PciFn) (v : Nat) (b : Bool) : PciFn :=
  { f with vects := SMap.set Vect.reset f.vects v { f.vect v with pending := b } }

/-- Whether a message must wait as a pending bit. -/
def PciFn.blocked (f : PciFn) (v : Nat) : Bool := (f.vect v).masked || f.msixMask || !f.msixEn || !f.busMaster

/-- A vector is raised: the message is sent, or its pending bit set. -/
def State.raise (s : State) (pf1 : Bool) (v : Nat) : State :=
  let f := s.pci.fn pf1
  if f.blocked v then s.modFn pf1 fun f => f.setPending v true
  else s.emit (.msix pf1 v (f.vect v).addr (f.vect v).data)

/-- A pending message is sent once nothing blocks it. -/
def State.sendPending (s : State) (pf1 : Bool) (v : Nat) : State :=
  let f := s.pci.fn pf1
  if (f.vect v).pending && !f.blocked v then
    (s.modFn pf1 fun f => f.setPending v false).emit (.msix pf1 v (f.vect v).addr (f.vect v).data)
  else s

def execMsixPendingSend (pf1 : Bool) (v : Fin 256) (s : State) : Answer := .next (s.sendPending pf1 v.val)

/-- Entries of the host event ring not yet consumed. -/
def EvtState.depth (e : EvtState) : Nat := (e.widx - e.ridx).toNat

/-- One queued code reaches the host ring, with the message of its vector unless a later entry of the same XD clk
and vector gives it; or it is dropped when the ring is full (R30, R494). -/
def State.deliverRing (s : State) (p : Posted) (v : Byte) (rest : List (Posted × Byte)) : State :=
  let e := { s.evt with toRing := rest }
  if e.depth = 1024 then { s with evt := { e with ovf := true, ovfc := satAdd 0xFFFFFFFF e.ovfc 1 } }
  else
    let r : RingEntry := ⟨p.code, p.src, v, p.cnt⟩
    let s := { s with evt := { e with
      ring := SMap.insert (e.widx.toNat % 1024) r e.ring, widx := e.widx + 1 } }
    if rest.any fun q => decide (q.1.cnt = p.cnt) && decide (q.2 = v) then s else s.raise false v.toNat

/-- One code reaches Crown's queue, or is dropped when 1,024 wait there: OVF is set and FLT_LOGST counts it (R30, R434, R494). -/
def State.deliverCrown (s : State) (p : Posted) (rest : List Posted) : State :=
  let e := { s.evt with toCrown := rest }
  if 1024 ≤ e.crownQ.length then
    { s with evt := { e with crownLost := e.crownLost + 1, ovf := true },
             flt := { s.flt with lost := satAdd 0xFFFFFFFF s.flt.lost 1 } }
  else { s with evt := { e with crownQ := e.crownQ ++ [p] } }

/-- A queued code is delivered: to the host ring first, then to Crown's queue. -/
def State.queueDeliver (s : State) : State :=
  match s.evt.toRing, s.evt.toCrown with
  | (p, v) :: rest, _ => s.deliverRing p v rest
  | [], p :: rest => s.deliverCrown p rest
  | [], [] => s

def execEventQueueDeliver (s : State) : Answer := .next s.queueDeliver

/-! ### EVT registers (R495) -/

/-- Whether a route entry names a core of a safety partition with SYNEN. -/
def State.rtSafety (s : State) (w : Word) : Bool := rtSyn w && isSafety (s.partOf (rtCore w))

/-- The codes accepted before a route entry changes are routed first (R493). -/
def State.routeWaiting (s : State) : State := (List.range s.evt.incoming.length).foldl (fun t _ => t.eventRoute) s

/-- A write of EVT_ROUTE[i]. -/
def State.routeWrite (s : State) (i : Fin 256) (ini : Ini) (h : Half) (v : Word) : State :=
  if ini ≠ 0x60 ∧ ini ≠ 0x70 then s
  else
    let w := mergeHalf h s.evt.routes[i] v
    if fld w 58 3 ≠ 0 ∨ fld w 32 4 ≠ 0 ∨ (s.rtSafety w ∧ s.armed) then s.post 0xA006 0xC0
    else
      let s := s.routeWaiting
      { s with evt := { s.evt with routes := s.evt.routes.set i w } }

def execEvtRouteWrite (i : Fin 256) (ini : Initiator) (h : Half) (v : Word) (s : State) : Answer :=
  .next (s.routeWrite i ini h v)

/-- A write of EVT_IDX: RIDX, ignored beyond WIDX. -/
def State.evtIdxWrite (s : State) (ini : Ini) (h : Half) (v : Word) : State :=
  if (ini ≠ 0x60 ∧ ini ≠ 0x70) ∨ h = .high then s
  else
    let r : BitVec 16 := BitVec.ofNat 16 (fld v 0 16)
    if (s.evt.widx - r).toNat ≤ 1024 then { s with evt := { s.evt with ridx := r } } else s

/-- A write of EVT_STAT: OVF is cleared by 1. -/
def State.evtStatWrite (s : State) (ini : Ini) (h : Half) (v : Word) : State :=
  if (ini ≠ 0x60 ∧ ini ≠ 0x70) ∨ !bit (carried h v) 0 then s
  else { s with evt := { s.evt with ovf := false } }

/-- EVT_STAT. -/
def EvtState.stat (e : EvtState) : Word := pack [(32, 32, e.ovfc), (1, 31, e.noroute), (0, 1, ofBool e.ovf)]

/-- EVT_IDX. -/
def EvtState.idx (e : EvtState) : Word := pack [(32, 16, e.widx.toNat), (0, 16, e.ridx.toNat)]

/-- A ring entry's two words. -/
def RingEntry.low (r : RingEntry) : Word := pack [(0, 16, r.code.toNat), (16, 8, r.src.toNat), (24, 8, r.vec.toNat)]

end Sys2Proof.Machine
end

