-- ==== Sys2Proof/Machine/Hash.lean ====
section
/-! DEFINITION. CRC-32 with the IEEE 802.3 polynomial, and SHA-256 (FIPS 180-4), over byte lists. -/

namespace Sys2Proof.Machine

/-- One bit of the reflected CRC-32. -/
def crcBit (c : BitVec 32) : BitVec 32 :=
  if c.getLsbD 0 then (c >>> 1) ^^^ 0xEDB88320#32 else c >>> 1

/-- One byte of the reflected CRC-32. -/
def crcByte (c : BitVec 32) (b : Byte) : BitVec 32 :=
  (List.range 8).foldl (fun x _ => crcBit x) (c ^^^ b.setWidth 32)

/-- CRC-32 (IEEE 802.3) of a byte string. -/
def crc32 (bs : List Byte) : BitVec 32 := ~~~(bs.foldl crcByte (~~~0#32))

/-! ### SHA-256

FIPS 180-4 gives the constants as the first 32 bits of the fractional parts of roots of primes, and they are computed so here.
The working variables a to d, e to h and the sixteen schedule words in use are shift registers, oldest word lowest. -/

/-- The first `n` primes; 311 is the sixty-fourth. -/
def firstPrimes (n : Nat) : List Nat :=
  ((List.range 312).filter fun q => decide (2 ≤ q) && (List.range q).all fun d => decide (d < 2) || decide (q % d ≠ 0)).take n

/-- The first 32 bits of the fractional part of the `k`th root of `q`, below 8: the root times 2 ^ 32, bit by bit from the top. -/
def rootBits (k q : Nat) : BitVec 32 :=
  BitVec.ofNat 32 ((List.range 35).foldl (fun x i =>
    let y := x + 2 ^ (34 - i)
    if y ^ k ≤ q * 2 ^ (32 * k) then y else x) 0)

/-- Word `i` of a register, the lowest first. -/
def regWord {n : Nat} (r : BitVec n) (i : Nat) : BitVec 32 := r.extractLsb' (32 * i) 32

/-- A register with its lowest word out and a word in at the top. -/
def regPush {n : Nat} (r : BitVec n) (w : BitVec 32) : BitVec n := (r >>> 32) ||| (w.setWidth n <<< (n - 32))

/-- The exclusive or of a word's rotations. -/
def rotations (w : BitVec 32) (ns : List Nat) : BitVec 32 := ns.foldl (fun x n => x ^^^ w.rotateRight n) 0

/-- The registers of SHA-256: a to d and e to h, the first of each at the top. -/
structure ShaRegs where
  ad : BitVec 128
  eh : BitVec 128
  deriving DecidableEq, Repr

/-- One round under its constant, with the schedule's window moved on by a word. -/
def shaRound (x : ShaRegs × BitVec 512) (k : BitVec 32) : ShaRegs × BitVec 512 :=
  let v := x.1
  let m := x.2
  let e := regWord v.eh 3
  let a := regWord v.ad 3
  let pick := (e &&& regWord v.eh 2) ||| (~~~e &&& regWord v.eh 1)
  let most := (a &&& (regWord v.ad 2 ||| regWord v.ad 1)) ||| (regWord v.ad 2 &&& regWord v.ad 1)
  let t := regWord v.eh 0 + rotations e [6, 11, 25] + pick + k + regWord m 0
  let next := regWord m 0 + (rotations (regWord m 1) [7, 18] ^^^ (regWord m 1 >>> 3)) + regWord m 9 +
    (rotations (regWord m 14) [17, 19] ^^^ (regWord m 14 >>> 10))
  (⟨regPush v.ad (t + rotations a [2, 13, 22] + most), regPush v.eh (regWord v.ad 0 + t)⟩, regPush m next)

/-- Word by word sum of two registers. -/
def regAdd (r q : BitVec 128) : BitVec 128 := (List.range 4).foldl (fun x i => regPush x (regWord r i + regWord q i)) 0

/-- One block of 64 bytes. -/
def shaBlock (h : ShaRegs) (block : List Byte) : ShaRegs :=
  let m := (List.range 16).foldl (fun m i => regPush m (BitVec.ofNat 32 (beNat ((block.drop (4 * i)).take 4)))) (0 : BitVec 512)
  let v := (((firstPrimes 64).map (rootBits 3)).foldl shaRound (h, m)).1
  ⟨regAdd h.ad v.ad, regAdd h.eh v.eh⟩

/-- The registers before the first block. -/
def shaStart : ShaRegs :=
  let ws := (firstPrimes 8).map (rootBits 2)
  ⟨(ws.take 4).reverse.foldl regPush 0, (ws.drop 4).reverse.foldl regPush 0⟩

/-- The message with a one bit, zeros and its length in bits, in whole blocks. -/
def shaPad (bs : List Byte) : List Byte :=
  bs ++ [0x80] ++ List.replicate ((119 - bs.length % 64) % 64) 0 ++ beBytes 8 (8 * bs.length)

/-- SHA-256 of a byte string: 32 bytes. -/
def sha256 (bs : List Byte) : List Byte :=
  let m := shaPad bs
  let h := (List.range (m.length / 64)).foldl (fun h i => shaBlock h ((m.drop (64 * i)).take 64)) shaStart
  [h.ad, h.eh].flatMap fun r => (List.range 4).flatMap fun i => beBytes 4 (regWord r (3 - i)).toNat

end Sys2Proof.Machine
end

