-- ==== Sys2Proof/Machine/Hatband.lean ====
section
/-! DEFINITION. Hatband's own commands (chapter 16): rates, steps, states, the snapshot, timed transmit and the pulse
outputs. The exchanges over the fabric stand in Machine/SliceTime.lean. -/

namespace Sys2Proof.Machine

/-- Event 0x7058: a TB write or descriptor refused or dropped. -/
def State.tbRefuse (s : State) : State := s.post 0x7058 0xC4

/-- The TB block with domain `d` changed. -/
def State.modDom (s : State) (d : Fin 2) (f : TbDom → TbDom) : State :=
  { s with tb := { s.tb with dom := s.tb.dom.set d (f s.tb.dom[d]) } }

/-- A domain re-anchored at counter value `c` and given a new rate; its time does not jump (R377). -/
def TbDom.setRate (d : TbDom) (c : Word) (r : BitVec 32) : TbDom :=
  { d with ofs := d.time c, anc := c, rate := r, was := d.before c }

/-- |RATE| ≤ 2^30 - 1 (R376). -/
def rateOk (r : BitVec 32) : Bool := decide (-(2 ^ 30 - 1) ≤ r.toInt) && decide (r.toInt ≤ 2 ^ 30 - 1)

/-- A RATE that Crown writes to domain `d` (R376, R377, R380). -/
def State.domRate (s : State) (d : Fin 2) (r : BitVec 32) : State :=
  if !rateOk r ∨ (d = 0 ∧ s.tb.dom[(0 : Fin 2)].state = .follow) then s.tbRefuse
  else
    let c := s.tb.cnt
    let follows := decide (d = 1) && decide (s.tb.dom[(0 : Fin 2)].state = .follow)
    let s := s.modDom d fun x => { x.setRate c r with touched := c }
    if follows then s.modDom 0 fun x => x.setRate c r else s

/-- A write of TB_RATE[d]; only Crown's counts (R392). -/
def State.rateWrite (s : State) (d : Fin 2) (ini : Ini) (h : Half) (v : Word) : State :=
  if ini ≠ 0x70 then s.tbRefuse
  else match h with
    | .high => s
    | _ => s.domRate d (BitVec.ofNat 32 (fld v 0 32))

def execTbRateWrite (d : Fin 2) (ini : Initiator) (h : Half) (v : Word) (s : State) : Answer := .next (s.rateWrite d ini h v)

/-! ### Steps (R377, R381, R387) -/

/-- Time of edge `i` of an output with the parameters in force. -/
def Pulse.edgeTime (p : Pulse) (i : Nat) : Nat := p.start.toNat + i * fld p.pw 32 32

/-- The first edge index, from `p.i` on, whose time is at least `t`; a single pulse has index 0 only. -/
def Pulse.firstFrom (p : Pulse) (t : Nat) : Nat :=
  let per := fld p.pw 32 32
  let j := if per = 0 then (if p.start.toNat < t then 1 else 0)
    else if p.start.toNat < t then (t - p.start.toNat + per - 1) / per else 0
  max p.i j

/-- Whether edge `i` exists. -/
def Pulse.hasEdge (p : Pulse) : Bool := decide (fld p.pw 32 32 ≠ 0) || decide (p.i = 0)

/-- A forward step to time `t`: the skipped edges are counted in MISS and posted (R387). -/
def State.pulseStep (s : State) (k : Fin 4) (t : Nat) : State :=
  let p := s.tb.evo[k]
  let j := p.firstFrom t
  let skipped := if p.hasEdge then (if fld p.pw 32 32 = 0 then min (j - p.i) 1 else j - p.i) else 0
  if p.en && decide (0 < skipped) then
    { s with tb := { s.tb with evo := s.tb.evo.set k { p with i := j, miss := satAdd 0xFFFF p.miss skipped } } }.post
      (0x7068 + k.val) 0xC4
  else s

/-- A STEP of domain `d` by `v` (R377): OFS moves, STEPS counts, TB_EPOCH takes the time just after, and outputs of
the domain skip what a forward step passed. -/
def State.domStep (s : State) (d : Fin 2) (v : Word) : State :=
  let c := s.tb.cnt
  let old := s.domTime d
  let s := s.modDom d fun x => { x with was := x.before c, ofs := x.ofs + v, steps := satAdd 0xFFFF x.steps 1 }
  let new := s.domTime d
  let s := (s.modDom d fun x => { x with
    epoch := x.time c
    stepLog := (c, old, new) :: x.stepLog.filter fun e => decide ((c - e.1).toNat < 2 ^ 31) }).post (0x7010 + d.val) 0xC4
  if old.toNat < new.toNat then
    (List.finRange 4).foldl (fun t k =>
      if t.tb.evo[k].dom = decide (d = 1) then t.pulseStep k new.toNat else t) s
  else s

/-- A write of TB_STEP[d]: 8 bytes, by Crown, and not to a following domain A. -/
def State.stepWrite (s : State) (d : Fin 2) (ini : Ini) (h : Half) (v : Word) : State :=
  if ini ≠ 0x70 ∨ h ≠ .full ∨ (d = 0 ∧ s.tb.dom[(0 : Fin 2)].state = .follow) then s.tbRefuse
  else s.domStep d v

def execTbStepWrite (d : Fin 2) (ini : Initiator) (h : Half) (v : Word) (s : State) : Answer := .next (s.stepWrite d ini h v)

/-! ### States (R379, R380) -/

/-- The redundant switch: A has left LOCKED while B is LOCKED and RED = 1 (R380). -/
def State.followB (s : State) : State :=
  let a := s.tb.dom[(0 : Fin 2)]
  let b := s.tb.dom[(1 : Fin 2)]
  if bit s.tb.cfg 48 && decide (b.state = .locked) then
    (s.modDom 0 fun _ => { a.setRate s.tb.cnt b.rate with state := .follow }).post 0x7030 0xC4
  else s

/-- Hatband moves a LOCKED domain to HOLDOVER (R379). -/
def State.domHoldover (s : State) (d : Fin 2) : State :=
  if s.tb.dom[d].state = .locked then
    let s := (s.modDom d fun x => { x with state := .holdover }).post (0x7020 + d.val) 0xC4
    if d = 0 then s.followB else s
  else s

/-- Crown writes STATE of domain `d`; 3 to 7 are refused (R379). -/
def State.domState (s : State) (d : Fin 2) (v : Nat) : State :=
  let was := s.tb.dom[d].state
  let put (x : DomState) : State := s.modDom d fun y => { y with state := x, touched := s.tb.cnt }
  let left (t : State) : State := if d = 0 ∧ was = .locked then t.followB else t
  match v with
  | 0 => left (put .free)
  | 1 => put .locked
  | 2 => left (put .holdover)
  | _ => s.tbRefuse

/-- A write of TB_DSTAT[d]: WDMS, STATE and then LOST. -/
def State.dstatWrite (s : State) (d : Fin 2) (ini : Ini) (h : Half) (v : Word) : State :=
  if ini ≠ 0x70 then s.tbRefuse
  else match h with
    | .high => s
    | _ =>
      let s := s.modDom d fun x => { x with wdms := fld v 16 16 }
      let s := s.domState d (fld v 0 3)
      if bit v 3 then s.domHoldover d else s

def execTbStateWrite (d : Fin 2) (ini : Initiator) (h : Half) (v : Word) (s : State) : Answer := .next (s.dstatWrite d ini h v)

/-- Crown writes LOST alone: its domain enters HOLDOVER when LOCKED. -/
def execTbLostWrite (d : Fin 2) (ini : Initiator) (s : State) : Answer :=
  .next (if ini.val ≠ 0x70 then s.tbRefuse else s.domHoldover d)

/-- Whether WDMS ms have passed without a RATE or STATE write. -/
def State.watchdogDue (s : State) (d : Fin 2) : Bool :=
  let x := s.tb.dom[d]
  decide (x.wdms ≠ 0) && decide (x.wdms * 500000 ≤ (s.tb.cnt - x.touched).toNat)

def execTbWatchdogExpire (d : Fin 2) (s : State) : Answer := .next (if s.watchdogDue d then s.domHoldover d else s)

/-! ### Epoch and snapshot (R381) -/

/-- Bits [29:0] of the domain time have wrapped since the last latch: TB_EPOCH takes the time. -/
def State.epochLatch (s : State) (d : Fin 2) : State :=
  let t := s.domTime d
  if t.toNat / 2 ^ 30 ≠ s.tb.dom[d].epoch.toNat / 2 ^ 30 then s.modDom d fun x => { x with epoch := t } else s

def execEpochLatch (d : Fin 2) (s : State) : Answer := .next (s.epochLatch d)

/-- Host PF0 and Crown may write TB_SNAP, TB_EVO, TB_TXQ and TB_TXBUF (R392). -/
def tbHostOrCrown (ini : Ini) : Bool := decide (ini = 0x60) || decide (ini = 0x70)

/-- A write of 1 to TB_SNAP latches the counter and both times from one tick. -/
def State.tbSnap (s : State) (ini : Ini) (h : Half) (v : Word) : State :=
  if !tbHostOrCrown ini then s.tbRefuse
  else if bit (carried h v) 0 then
    { s with tb := { s.tb with snapC := s.tb.cnt, snapA := s.domTime 0, snapB := s.domTime 1 } }
  else s

def execTbSnap (ini : Initiator) (h : Half) (v : Word) (s : State) : Answer := .next (s.tbSnap ini h v)

/-! ### Timed transmit (R385, R386) -/

/-- The transmit side of port `p` changed. -/
def State.modTx (s : State) (p : Fin 4) (f : TxPort → TxPort) : State :=
  { s with tb := { s.tb with tx := s.tb.tx.set p (f s.tb.tx[p]) } }

/-- Bytes stored into a 16-byte staging area. -/
def stage16 (w : BitVec 128) (off : Nat) : List Byte → BitVec 128
  | [] => w
  | b :: bs => stage16 (if off < 16 then setFld w (8 * off) 8 b.toNat else w) (off + 1) bs

/-- The descriptor a staging area holds. -/
def txDescOf (w : BitVec 128) : TxDesc :=
  { launch := BitVec.ofNat 64 (fld w 0 64), bofs := fld w 64 15, len := fld w 80 16
    dom := bit w 96, now := bit w 97, late := bit w 98, stamp := bit w 99, seq := BitVec.ofNat 16 (fld w 112 16) }

/-- Reserved encodings and limits of a descriptor (R385). -/
def txDescBad (w : BitVec 128) : Bool :=
  let d := txDescOf w
  bit w 79 || decide (d.bofs % 16 ≠ 0) || decide (d.len < 60) || decide (9212 < d.len) ||
    decide (fld w 100 4 ≠ 0) || decide (fld w 104 8 ≠ 0) || decide (32768 < d.bofs + d.len)

/-- Bytes written to TB_TXQ[p]; a write that covers bytes 0x0C to 0x0F submits the descriptor (R385, R540). -/
def State.txqWrite (s : State) (p : Fin 4) (ini : Ini) (off : Nat) (data : List Byte) : State :=
  if !tbHostOrCrown ini then s.tbRefuse
  else
    let w := stage16 s.tb.tx[p].stage off data
    let s := s.modTx p fun x => { x with stage := w }
    if !covers off data.length 0x0C 0x0F then s
    else if txDescBad w || decide (32 ≤ s.tb.tx[p].queue.length) then s.tbRefuse
    else s.modTx p fun x => { x with queue := x.queue ++ [txDescOf w] }

def execTbTxqWrite (p : Fin 4) (ini : Initiator) (off : Nat) (data : List Byte) (s : State) : Answer :=
  inRange s (bytesIn off data 16) (s.txqWrite p ini off data)

/-- A late frame is posted at most once per ms (R386). -/
def State.latePost (s : State) (p : Fin 4) : State :=
  let x := s.tb.tx[p]
  let due := match x.lastLate with
    | none => true
    | some t => decide (t + 500000 ≤ s.tb.cnt.toNat)
  if due then (s.modTx p fun x => { x with lastLate := some s.tb.cnt.toNat }).post (0x7050 + p.val) 0xC4 else s

/-- Bytes a port's line carries in 200 µs. -/
def lineBytes (m : PhyMode) : Nat :=
  match m with
  | .off => 0
  | .base1000x => 25000
  | .r10g => 250000
  | _ => 625000

/-- Nanoseconds a frame of `n` bytes without FCS takes on a port's line, with preamble, FCS and gap, rounded up. -/
def wireNs (m : PhyMode) (n : Nat) : Nat := ((n + 24) * 200000 + lineBytes m - 1) / lineBytes m

/-- Whether a frame is still in transmission on port `p`. -/
def State.sending (s : State) (p : Fin 4) : Bool :=
  match s.tb.tx[p].busy with
  | some t => decide (s.tb.cnt.toNat < t.toNat)
  | none => false

/-- A frame of `n` bytes starts on port `p`: the line is taken until it has gone. -/
def State.lineBusy (s : State) (p : Fin 4) (n : Nat) : State :=
  s.modTx p fun x => { x with busy := some (s.tb.cnt + BitVec.ofNat 64 ((wireNs s.ing.port[p].phy n + 1) / 2)) }

/-- A frame of the queue leaves the port. -/
def State.txSend (s : State) (p : Fin 4) (d : TxDesc) (t : Word) : State :=
  let x := s.tb.tx[p]
  ((s.lineBusy p d.len).modTx p fun x => { x with
    queue := x.queue.drop 1, seq := d.seq, stamp := if d.stamp then t else x.stamp }).emit
      (.frame p (x.buf.read d.bofs d.len))

/-- A port's head frame reaches its launch time at the pins, or is found late (R386). A late frame that is dropped goes at
once; one that is sent waits for the frame in transmission. -/
def State.txLaunch (s : State) (p : Fin 4) : State :=
  match s.tb.tx[p].queue with
  | [] => s
  | d :: _ =>
    let t := s.domTime (if d.dom then 1 else 0) + BitVec.ofNat 64 (txLat s.tb.tx[p].lat)
    let late := !d.now && decide (d.launch.toNat + 16 < t.toNat)
    if !s.ing.port[p].up || decide (s.pwr.mode ≠ .run) then s
    else if s.sending p && !(late && !d.late) then s
    else if d.now then s.txSend p d t
    else if t.toNat + 16 < d.launch.toNat then s
    else if !late then s.txSend p d t
    else if d.late then
      ((s.txSend p d t).modTx p fun x => { x with latec := satAdd 0xFFFF x.latec 1 }).latePost p
    else
      (s.modTx p fun x => { x with
        queue := x.queue.drop 1, seq := d.seq, dropc := satAdd 0xFFFF x.dropc 1 }).latePost p

def execTimedFrameLaunch (p : Fin 4) (s : State) : Answer := .next (s.txLaunch p)

/-! ### Pulse outputs (R387) -/

/-- Output `k` changed. -/
def State.modPulse (s : State) (k : Fin 4) (f : Pulse → Pulse) : State :=
  { s with tb := { s.tb with evo := s.tb.evo.set k (f s.tb.evo[k]) } }

/-- Limits of PERIOD and WIDTH. -/
def pulseOk (w : Word) : Bool :=
  let per := fld w 32 32
  let wid := fld w 0 32
  decide (per = 0) || (decide (1000 ≤ per) && decide (16 ≤ wid) && decide (wid < per))

/-- START and PW that were waiting come into force; the next edge is the first later than `t`. -/
def Pulse.adopt (p : Pulse) (t : Nat) : Pulse :=
  let q := { p with start := p.startN, pw := p.pwN, i := 0 }
  { q with i := q.firstFrom t }

/-- A write of START (reg 0), PW (1) or CTL (2) of output `k`. A disabled output takes START and PW at once. -/
def State.evoWrite (s : State) (k : Fin 4) (ini : Ini) (reg : Fin 3) (h : Half) (v : Word) : State :=
  if !tbHostOrCrown ini then s.tbRefuse
  else
    let p := s.tb.evo[k]
    let settle (p : Pulse) : Pulse := if p.en then p else { p with start := p.startN, pw := p.pwN }
    match reg with
    | 0 => s.modPulse k fun p => settle { p with startN := mergeHalf h p.startN v }
    | 1 =>
      let w := mergeHalf h p.pwN v
      if pulseOk w then s.modPulse k fun p => settle { p with pwN := w } else s.tbRefuse
    | 2 => match h with
      | .high => s
      | _ =>
        let t := s.domTime (if bit v 1 then 1 else 0)
        s.modPulse k fun p =>
          let q := { p with pol := bit v 2, dom := bit v 1, en := bit v 0 }
          if !bit v 0 then { q with on := false }
          else if p.en then q else q.adopt t.toNat

def execTbEvoWrite (k : Fin 4) (ini : Initiator) (reg : Fin 3) (h : Half) (v : Word) (s : State) : Answer :=
  .next (s.evoWrite k ini reg h v)

/-- An enabled output produces its next edge once the domain reaches its time; START and PW written since come
into force. -/
def State.pulseEdge (s : State) (k : Fin 4) : State :=
  let p := s.tb.evo[k]
  let t := s.domTime (if p.dom then 1 else 0)
  if p.en && p.hasEdge && decide (p.edgeTime p.i ≤ t.toNat) then
    let p := { p with on := true, offAt := BitVec.ofNat 64 (p.edgeTime p.i + fld p.pw 0 32), i := p.i + 1 }
    let p := if p.start = p.startN ∧ p.pw = p.pwN then p else p.adopt (t.toNat + 1)
    s.modPulse k fun _ => p
  else s

def execPulseEdge (k : Fin 4) (s : State) : Answer := .next (s.pulseEdge k)

/-- A pulse's WIDTH has passed and the output returns. -/
def execPulseWidthEnd (k : Fin 4) (s : State) : Answer :=
  let p := s.tb.evo[k]
  let t := s.domTime (if p.dom then 1 else 0)
  .next (if p.on ∧ p.offAt.toNat ≤ t.toNat then s.modPulse k fun p => { p with on := false } else s)

/-- A counter, evaluator or parity mismatch (R390). -/
def execTbMismatch (s : State) : Answer := .next (s.post 0x7080 0xC4)

/-! ### Registers as they read -/

def DomState.code : DomState → Nat
  | .free => 0 | .locked => 1 | .holdover => 2 | .follow => 3

/-- TB_DSTAT[d]. -/
def TbDom.dstat (d : TbDom) : Word := pack [(48, 16, d.steps), (16, 16, d.wdms), (0, 3, d.state.code)]

/-- TB_EVO[k] CTL. -/
def Pulse.ctl (p : Pulse) : Word := pack [(48, 16, p.miss), (2, 1, ofBool p.pol), (1, 1, ofBool p.dom), (0, 1, ofBool p.en)]

/-- TB_TXST[p] low. -/
def TxPort.stat (x : TxPort) : Word :=
  pack [(48, 16, x.seq.toNat), (32, 16, x.latec), (16, 16, x.dropc), (0, 6, x.queue.length)]

end Sys2Proof.Machine
end

