-- ==== Sys2Proof/Machine/Frames.lean ====
section
/-! DEFINITION. What the sensor ports read in a frame: addresses, VLAN tag, IPv4, IPv6, UDP and PTP headers (R110,
R384). -/

namespace Sys2Proof.Machine

/-- Byte `i` of a frame; 0 past its end. -/
def byteAt (f : List Byte) (i : Nat) : Nat := (f.getD i 0).toNat

/-- Big-endian number of `n` bytes at `i`. -/
def beAt (f : List Byte) (i : Nat) : Nat → Nat
  | 0 => 0
  | n + 1 => beAt f i n * 256 + byteAt f (i + n)

/-- Offset of the layer-3 header and the EtherType, past at most one IEEE 802.1Q tag. -/
def l3Of (f : List Byte) : Nat × Nat := if beAt f 12 2 = 0x8100 then (18, beAt f 16 2) else (14, beAt f 12 2)

/-- Ones' complement sum of the 16-bit big-endian words of a byte list. -/
def onesSum : List Byte → Nat
  | [] => 0
  | [a] => a.toNat * 256
  | a :: b :: r => let x := a.toNat * 256 + b.toNat + onesSum r; x % 65536 + x / 65536

/-- Why a port drops a frame that its MAC passed (R110). -/
inductive FrameDrop where
  | ipHdr | fragment | udpCsum
  deriving DecidableEq, Repr

/-- The UDP datagram of a frame: source address in IPv6 form, destination port, payload, where its header begins,
and whether it came over IPv6. -/
structure Datagram where
  src     : List Byte
  dport   : Nat
  payload : List Byte
  udpAt   : Nat
  v6      : Bool
  deriving DecidableEq, Repr

/-- What a frame that is not dropped holds. -/
inductive Parsed where
  | drop (d : FrameDrop)
  /-- A PTP message over layer 2, with the offset of its header. -/
  | ptp (at' : Nat)
  | udp (d : Datagram)
  /-- Not UDP, or IPv6 with extension headers. -/
  | other
  deriving DecidableEq, Repr

/-- The UDP header at `u`, with `room` bytes left for the datagram, `src` and `dst` as they stand in the packet. -/
def parseUdp (f : List Byte) (u room : Nat) (src dst : List Byte) (v6 : Bool) : Parsed :=
  let len := beAt f (u + 4) 2
  let csum := beAt f (u + 6) 2
  if room < 8 ∨ len < 8 ∨ room < len then .drop .ipHdr
  else
    let body := (f.drop u).take len
    let pseudo := src ++ dst ++ [0, 17, BitVec.ofNat 8 (len / 256), BitVec.ofNat 8 len] ++ body
    if csum ≠ 0 ∧ onesSum pseudo ≠ 0xFFFF then .drop .udpCsum
    else
      let src16 := if v6 then src else List.replicate 10 0 ++ [0xFF, 0xFF] ++ src
      .udp ⟨src16, beAt f (u + 2) 2, body.drop 8, u, v6⟩

/-- An IPv4 packet at `o` (R110). -/
def parseIp4 (f : List Byte) (o : Nat) : Parsed :=
  let ihl := byteAt f o % 16
  let total := beAt f (o + 2) 2
  let room := f.length - o
  if room < 20 ∨ ihl < 5 ∨ total < 4 * ihl ∨ room < total then .drop .ipHdr
  else if onesSum ((f.drop o).take (4 * ihl)) ≠ 0xFFFF then .drop .ipHdr
  else if beAt f (o + 6) 2 % 0x4000 ≠ 0 then .drop .fragment
  else if byteAt f (o + 9) ≠ 17 then .other
  else parseUdp f (o + 4 * ihl) (total - 4 * ihl) ((f.drop (o + 12)).take 4) ((f.drop (o + 16)).take 4) false

/-- An IPv6 packet at `o` (R110). -/
def parseIp6 (f : List Byte) (o : Nat) : Parsed :=
  let len := beAt f (o + 4) 2
  if f.length - o < 40 ∨ f.length - o - 40 < len then .drop .ipHdr
  else if byteAt f (o + 6) ≠ 17 then .other
  else parseUdp f (o + 40) len ((f.drop (o + 8)).take 16) ((f.drop (o + 24)).take 16) true

/-- What a frame without its FCS holds. -/
def parseFrame (f : List Byte) : Parsed :=
  let l := l3Of f
  if l.2 = 0x88F7 then .ptp l.1
  else if l.2 = 0x0800 then parseIp4 f l.1
  else if l.2 = 0x86DD then parseIp6 f l.1
  else .other

/-- Whether a port receives a frame by its destination address: its own, broadcast or multicast (R110). -/
def addressed (p : Fin 4) (f : List Byte) : Bool :=
  decide (byteAt f 0 % 2 = 1) || decide (beAt f 0 6 = (Config.portMac p.val).toNat)

/-- A byte list with the bytes at `i` replaced. -/
def splice (f : List Byte) (i : Nat) (bs : List Byte) : List Byte := f.take i ++ bs ++ f.drop (i + bs.length)

/-! ### PTP forwarding (R384) -/

/-- Offset of a frame's PTP header, whether it came over UDP, and whether over IPv6. -/
def ptpAt (f : List Byte) : Option (Nat × Bool × Bool) :=
  match parseFrame f with
  | .ptp o => some (o, false, false)
  | .udp d => if d.dport = 319 ∨ d.dport = 320 then some (d.udpAt + 8, true, d.v6) else none
  | _ => none

/-- Types a transparent clock forwards: Sync, Delay_Req, Follow_Up, Delay_Resp and Announce of majorSdoId 0. -/
def ptpForwarded (f : List Byte) (o : Nat) : Bool :=
  decide (byteAt f o / 16 = 0) && [0, 1, 8, 9, 0xB].contains (byteAt f o % 16)

/-- The frame as an egress port sends it: for Sync and Delay_Req the residence time, in ns, is added to
correctionField times 2^16, and a UDP checksum becomes 0. -/
def ptpEgress (f : List Byte) (resid : Int) : List Byte :=
  match ptpAt f with
  | none => f
  | some (o, udp, _) =>
    let g := if byteAt f o % 16 ≤ 1 then
        splice f (o + 8) (beBytes 8 (wrapN 64 ((beAt f (o + 8) 8 : Int) + resid * 65536)))
      else f
    if udp then splice g (o - 2) [0, 0] else g

/-- The residence time of a forwarded frame that leaves port `p` now, between the pins: in the domain whose number it carries,
or by ticks. -/
def State.residence (s : State) (p : Fin 4) (w : FwdFrame) : Int :=
  let out : Int := txLat s.tb.tx[p].lat
  let num := match ptpAt w.bytes with | some (o, _, _) => byteAt w.bytes (o + 4) | none => 0
  if num = fld s.tb.cfg 24 8 then (s.domTime 0 - w.ta).toInt + out
  else if num = fld s.tb.cfg 32 8 then (s.domTime 1 - w.tb).toInt + out
  else 2 * (s.tb.cnt - w.cnt).toInt + w.rx + out

/-- A PTP frame that is not forwarded: counted, and posted at most once per ms. -/
def State.ptpDrop (s : State) : State :=
  let s := { s with tb := { s.tb with ptpDrops := s.tb.ptpDrops + 1 } }
  let due := match s.tb.lastPtp with
    | none => true
    | some t => decide (t + 500000 ≤ s.tb.cnt.toNat)
  if due then { s with tb := { s.tb with lastPtp := some s.tb.cnt.toNat } }.post 0x7060 0xC4 else s

/-- A forwarded frame joins the queue of egress port `q`. -/
def State.ptpQueue (s : State) (q : Fin 4) (w : FwdFrame) : State :=
  if 16 ≤ (s.tb.tx[q].fwd.filter fun v => v.own.isNone).length then s.ptpDrop
  else s.modTx q fun x => { x with fwd := x.fwd ++ [w] }

/-- A PTP frame received on port `p`: forwarded to every other port in TCP that is up. -/
def State.ptpForward (s : State) (p : Fin 4) (f : List Byte) (o : Nat) (v6 : Bool) : State :=
  let tcp (q : Fin 4) : Bool := bit s.tb.cfg (8 + q.val)
  if !tcp p || !ptpForwarded f o then s
  else if v6 then s.ptpDrop
  else
    let w : FwdFrame := ⟨f, s.tb.cnt, s.rxStamp p 0, s.rxStamp p 1, rxLat s.tb.tx[p].lat, none⟩
    (List.finRange 4).foldl (fun t q =>
      if decide (q ≠ p) && tcp q && t.ing.port[q].up then t.ptpQueue q w else t) s

end Sys2Proof.Machine
end

