-- ==== Sys2Proof/Machine/Ptp.lean ====
section
/-! DEFINITION. Crown's servos on the sensor ports (R383): which messages a domain takes under its profile, best master,
delay exchanges, and the RATE that Crown writes for a Sync. The message layouts are those of IEEE 1588-2019 and IEEE
802.1AS-2020, which the spec names and does not print (PRESUMED, log 36). -/

namespace Sys2Proof.Machine

def State.modServo (s : State) (d : Fin 2) (f : PtpServo → PtpServo) : State :=
  { s with tb := { s.tb with servo := s.tb.servo.set d (f s.tb.servo[d]) } }

/-! ### Messages -/

/-- Header fields of the PTP message at `o`. -/
def ptpSdo (f : List Byte) (o : Nat) : Nat := byteAt f o / 16
def ptpType (f : List Byte) (o : Nat) : Nat := byteAt f o % 16
def ptpDomain (f : List Byte) (o : Nat) : Nat := byteAt f (o + 4)
def ptpTwoStep (f : List Byte) (o : Nat) : Bool := (byteAt f (o + 6)).testBit 1
/-- correctionField in whole ns. -/
def ptpCorr (f : List Byte) (o : Nat) : Int := toSigned 64 (beAt f (o + 8) 8) / 65536
def ptpSrc (f : List Byte) (o : Nat) : BitVec 80 := BitVec.ofNat 80 (beAt f (o + 20) 10)
def ptpSeq (f : List Byte) (o : Nat) : BitVec 16 := BitVec.ofNat 16 (beAt f (o + 30) 2)
def ptpLog (f : List Byte) (o : Nat) : Int := toSigned 8 (byteAt f (o + 33))
/-- The timestamp of 48 bits of seconds and 32 bits of nanoseconds, in ns. -/
def ptpTime (f : List Byte) (o : Nat) : Int := beAt f (o + 34) 6 * 1000000000 + beAt f (o + 40) 4
/-- requestingPortIdentity of an answer. -/
def ptpAsker (f : List Byte) (o : Nat) : BitVec 80 := BitVec.ofNat 80 (beAt f (o + 44) 10)

/-- A domain's profile: true for the IEEE 1588-2019 default profile (PROFA, PROFB). -/
def State.prof1588 (s : State) (d : Fin 2) : Bool := bit s.tb.cfg (12 + d.val)

/-- Whether a domain's servo uses a port. -/
def State.servoPort (s : State) (d : Fin 2) (p : Fin 4) : Bool := (fld s.tb.cfg (16 + 4 * d.val) 4).testBit p.val

/-- Whether a domain's servo takes a message by port, domain number, profile and transport: gPTP over layer 2 only, the
default profile over layer 2, UDP/IPv4 and UDP/IPv6. -/
def State.servoTakes (s : State) (d : Fin 2) (p : Fin 4) (f : List Byte) (o : Nat) (udp : Bool) : Bool :=
  s.servoPort d p && decide (ptpDomain f o = fld s.tb.cfg (24 + 8 * d.val) 8) &&
    if s.prof1588 d then decide (ptpSdo f o = 0) && (udp || decide (beAt f 0 6 = 0x011B19000000))
    else decide (ptpSdo f o = 1) && !udp && decide (beAt f 0 6 = 0x0180C200000E)

/-- The port identity of the module on port `p`: the device identity and the port number. -/
def ownPort (p : Fin 4) : BitVec 80 := BitVec.ofNat 80 (Config.deviceId.toNat * 65536 + p.val + 1)

/-- A timestamp as messages carry it. -/
def tsBytes (t : Nat) : List Byte := beBytes 6 (t / 1000000000) ++ beBytes 4 (t % 1000000000)

/-- A message of the module over layer 2, padded to 60 bytes. Under IEEE 802.1AS its majorSdoId is 1. -/
def ptpFrame (p : Fin 4) (prof1588 : Bool) (ty dom : Nat) (twoStep : Bool) (seq : BitVec 16) (body : List Byte) : List Byte :=
  let head : List Byte :=
    beBytes 6 (if prof1588 then 0x011B19000000 else 0x0180C200000E) ++ beBytes 6 (Config.portMac p.val).toNat ++ [0x88, 0xF7]
  let msg : List Byte :=
    [BitVec.ofNat 8 (ty + if prof1588 then 0 else 16), 0x12] ++ beBytes 2 (34 + body.length) ++
      [BitVec.ofNat 8 dom, 0, if twoStep then 2 else 0, 0] ++ beBytes 8 0 ++ beBytes 4 0 ++ beBytes 10 (ownPort p).toNat ++
      beBytes 2 seq.toNat ++ [if ty = 1 then 1 else 5, 0x7F] ++ body
  let f := head ++ msg
  f ++ List.replicate (60 - f.length) 0

/-- A message of the module joins the PTP frames of port `p`. -/
def State.ownQueue (s : State) (d : Fin 2) (p : Fin 4) (f : List Byte) : State :=
  s.modTx p fun x => { x with fwd := x.fwd ++ [⟨f, s.tb.cnt, 0, 0, 0, some d⟩] }

/-! ### Best master -/

/-- Whether one list of numbers ranks before another of its length. -/
def rankedFirst : List Nat → List Nat → Bool
  | a :: as, b :: bs => decide (a < b) || (decide (a = b) && rankedFirst as bs)
  | _, _ => false

/-- The data set of an Announce, in the order in which the algorithm compares: grandmaster priority1, clock class, accuracy,
variance, priority2 and identity, then steps removed, sender and port. -/
def announceRank (p : Fin 4) (f : List Byte) (o : Nat) : List Nat :=
  [byteAt f (o + 47), byteAt f (o + 48), byteAt f (o + 49), beAt f (o + 50) 2, byteAt f (o + 52), beAt f (o + 53) 8,
    beAt f (o + 61) 2, (ptpSrc f o).toNat, p.val]

/-- The selected master: the best of those heard. -/
def PtpServo.best (v : PtpServo) : Option PtpMaster :=
  v.masters.foldl (fun a m => match a with
    | some b => if rankedFirst m.rank b.rank then some m else a
    | none => some m) none

/-- An Announce: its sender is a master of the domain. -/
def PtpServo.announce (v : PtpServo) (p : Fin 4) (f : List Byte) (o : Nat) : PtpServo :=
  let src := ptpSrc f o
  { v with masters := (v.masters.filter fun m => !(decide (m.port = p) && decide (m.src = src))) ++ [⟨p, src, announceRank p f o⟩] }

/-! ### Syncs -/

/-- A Sync of the selected master with an interval in range: a two-step one waits for its Follow_Up, and a one-step one is
taken under the default profile only. -/
def PtpServo.sync (v : PtpServo) (prof1588 : Bool) (p : Fin 4) (f : List Byte) (o : Nat) (rx : Int) : PtpServo :=
  let src := ptpSrc f o
  let mine := match v.best with | some m => decide (m.port = p) && decide (m.src = src) | none => false
  if !mine || decide (ptpLog f o < -7) || decide (1 < ptpLog f o) then v
  else
    let x : PtpSync := ⟨p, src, ptpSeq f o, rx, ptpTime f o + ptpCorr f o⟩
    if ptpTwoStep f o then { v with wait := some { x with sent := ptpCorr f o } }
    else if prof1588 then { v with due := v.due ++ [x] } else v

/-- The Follow_Up of the Sync that waits: the master's time is complete. -/
def PtpServo.followUp (v : PtpServo) (p : Fin 4) (f : List Byte) (o : Nat) : PtpServo :=
  match v.wait with
  | some x =>
    if x.port = p ∧ x.src = ptpSrc f o ∧ x.seq = ptpSeq f o then
      { v with wait := none, due := v.due ++ [{ x with sent := x.sent + ptpTime f o + ptpCorr f o }] }
    else v
  | none => v

/-! ### Path delay -/

/-- The request outstanding on a port, when a message answers it. -/
def PtpServo.asked (v : PtpServo) (p : Fin 4) (f : List Byte) (o : Nat) : Option PtpAsk :=
  match v.ask[p] with
  | some a => if ptpAsker f o = ownPort p ∧ ptpSeq f o = a.seq then some a else none
  | none => none

/-- Delay_Resp: the end-to-end delay, ((t2 − t1) + (t4 − t3)) ÷ 2, with the last Sync taken. -/
def PtpServo.delayResp (v : PtpServo) (p : Fin 4) (f : List Byte) (o : Nat) : PtpServo :=
  match v.asked p f o, v.last with
  | some a, some y =>
    match a.sent with
    | some t3 =>
      let t4 := ptpTime f o - ptpCorr f o
      { v with ask := v.ask.set p none, delay := v.delay.set p (((y.rx - y.sent) + (t4 - t3)) / 2) }
    | none => v
  | _, _ => v

/-- Pdelay_Resp of a two-step peer: t2 and t4 are kept. -/
def PtpServo.pdelayResp (v : PtpServo) (p : Fin 4) (f : List Byte) (o : Nat) (rx : Int) : PtpServo :=
  match v.asked p f o with
  | some a => { v with ask := v.ask.set p (some { a with resp := some (ptpTime f o + ptpCorr f o, rx) }) }
  | none => v

/-- Pdelay_Resp_Follow_Up: the peer delay, ((t4 − t1) − (t3 − t2)) ÷ 2. -/
def PtpServo.pdelayFollow (v : PtpServo) (p : Fin 4) (f : List Byte) (o : Nat) : PtpServo :=
  match v.asked p f o with
  | some ⟨_, some t1, some (t2, t4)⟩ =>
    let t3 := ptpTime f o + ptpCorr f o
    { v with ask := v.ask.set p none, delay := v.delay.set p (((t4 - t1) - (t3 - t2)) / 2) }
  | _ => v

/-- A PTP frame that a domain's servo takes reaches Crown with its receive stamp. Under IEEE 802.1AS the module answers
Pdelay_Req as a two-step responder. -/
def State.ptpTake (s : State) (d : Fin 2) (p : Fin 4) (f : List Byte) (o : Nat) : State :=
  let e := s.prof1588 d
  let rx : Int := (s.rxStamp p d).toNat
  match ptpType f o with
  | 0x0 => s.modServo d fun v => v.sync e p f o rx
  | 0x2 => if e then s else
      s.ownQueue d p (ptpFrame p e 3 (ptpDomain f o) true (ptpSeq f o)
        (tsBytes (s.rxStamp p d).toNat ++ beBytes 10 (ptpSrc f o).toNat))
  | 0x3 => if e then s else s.modServo d fun v => v.pdelayResp p f o rx
  | 0x8 => s.modServo d fun v => v.followUp p f o
  | 0x9 => if e then s.modServo d fun v => v.delayResp p f o else s
  | 0xA => if e then s else s.modServo d fun v => v.pdelayFollow p f o
  | 0xB => s.modServo d fun v => v.announce p f o
  | _ => s

/-- A PTP frame received on port `p`, offered to both servos (R383, R384). -/
def State.ptpServe (s : State) (p : Fin 4) (f : List Byte) (o : Nat) (udp : Bool) : State :=
  (List.finRange 2).foldl (fun t d => if t.servoTakes d p f o udp then t.ptpTake d p f o else t) s

/-- A request of a domain's servo on a port: Pdelay_Req under IEEE 802.1AS, Delay_Req to the selected master's port under the
default profile. -/
def State.ptpRequest (s : State) (d : Fin 2) (p : Fin 4) : State :=
  let e := s.prof1588 d
  let v := s.tb.servo[d]
  let due := if e then (match v.best with | some m => decide (m.port = p) | none => false) else true
  if !s.servoPort d p || !s.ing.port[p].up || !due then s
  else
    let body := tsBytes 0 ++ if e then [] else beBytes 10 0
    let f := ptpFrame p e (if e then 1 else 2) (fld s.tb.cfg (24 + 8 * d.val) 8) false v.seq body
    (s.modServo d fun v => { v with seq := v.seq + 1, ask := v.ask.set p (some ⟨v.seq, none, none⟩) }).ownQueue d p f

/-- A message of the module has left: a request's egress stamp is kept, and a Pdelay_Resp is followed by its egress time. -/
def State.ownSent (s : State) (d : Fin 2) (p : Fin 4) (f : List Byte) : State :=
  let t : Nat := (s.domTime d).toNat + txLat s.tb.tx[p].lat
  if ptpType f 14 = 3 then
    s.ownQueue d p (ptpFrame p (s.prof1588 d) 0xA (ptpDomain f 14) false (ptpSeq f 14) (tsBytes t ++ beBytes 10 (ptpAsker f 14).toNat))
  else if ptpType f 14 ≤ 2 then
    s.modServo d fun v => { v with ask := v.ask.set p ((v.ask[p]).map fun a => if a.seq = ptpSeq f 14 then { a with sent := some t } else a) }
  else s

/-! ### Crown's writes -/

/-- Crown's servo accepts the oldest Sync that is due, the one that the command names, and writes RATE (R379, R383); which
rate, the spec does not say. -/
def State.syncAccept (s : State) (d : Fin 2) (named : PtpSync → Bool) (r : BitVec 32) : State :=
  match s.tb.servo[d].due with
  | [] => s
  | x :: rest => if named x then (s.modServo d fun v => { v with due := rest, last := some x }).domRate d r else s

def execSyncAccept (d : Fin 2) (port : Fin 4) (src : BitVec 80) (seq : BitVec 16) (r : BitVec 32) (s : State) : Answer :=
  .next (s.syncAccept d (fun x => decide (x.port = port) && decide (x.src = src) && decide (x.seq = seq)) r)

/-- The selected master's announce receipt timeout expires: it is no master any more, and Crown writes LOST (R383). -/
def State.announceLost (s : State) (d : Fin 2) : State :=
  let gone := s.tb.servo[d].best
  (s.modServo d fun v => { v with masters := v.masters.filter fun m => decide (some m ≠ gone) }).domHoldover d

def execAnnounceTimeout (d : Fin 2) (s : State) : Answer := .next (s.announceLost d)

end Sys2Proof.Machine
end

