-- ==== Sys2Proof/Machine/Trig.lean ====
section
/-! DEFINITION. The sine of R116 as an exact integer function: round(2^30 · sin(2π·a / 65,536)), ties away from zero.
The angle is reduced to one eighth of a turn and the series is summed in fixed point with 100 fraction bits; no value
of the table lies nearer than 2^-17 to a tie, so the rounding is exact. -/

namespace Sys2Proof.Machine

/-- floor(π · 2^100). -/
def piFix : Nat := 0x3243F6A8885A308D313198A2E0

/-- Terms of an alternating series: `t` is the term with factorial index `k`, `x2` the squared angle. -/
def series (x2 : Nat) : Nat → Nat → Nat → Int
  | 0, _, _ => 0
  | fuel + 1, t, k => (t : Int) - series x2 fuel (t * x2 / 2 ^ 100 / ((k + 1) * (k + 2))) (k + 2)

/-- 2^100 times sine and cosine of n eighth-turn steps, n at most 8,192. -/
def sinSmall (n : Nat) : Int := let x := piFix * n / 32768; series (x * x / 2 ^ 100) 12 x 1
def cosSmall (n : Nat) : Int := let x := piFix * n / 32768; series (x * x / 2 ^ 100) 12 (2 ^ 100) 0

/-- A fixed-point value of 100 fraction bits as an integer of 30. -/
def fix30 (v : Int) : Int := (v + 2 ^ 69) / 2 ^ 70

/-- The sine over the first quarter turn, r at most 16,384. -/
def sinQuarter (r : Nat) : Int := if r ≤ 8192 then fix30 (sinSmall r) else fix30 (cosSmall (16384 - r))

/-- SIN(a) of R116, for a taken mod 2^16. -/
def SIN (a : Nat) : Int :=
  let a := a % 65536
  let r := a % 16384
  match a / 16384 with
  | 0 => sinQuarter r
  | 1 => sinQuarter (16384 - r)
  | 2 => -sinQuarter r
  | _ => -sinQuarter (16384 - r)

/-- COS(a) of R116. -/
def COS (a : Nat) : Int := SIN (a + 16384)

/-- The rounding shift of R15: to nearest, ties away from zero. -/
def rnd (v : Int) (s : Nat) : Int :=
  if s = 0 then v
  else
    let m : Int := ((v.natAbs + 2 ^ (s - 1)) / 2 ^ s : Nat)
    if v < 0 then -m else m

end Sys2Proof.Machine
end

