-- ==== Sys2Proof/Machine/Ingest.lean ====
section
/-! DEFINITION. Sensor ports and the conversion of frames to point records (chapter 04, R109 to R123). Rings,
registers and injection stand in Machine/Rings.lean. -/

namespace Sys2Proof.Machine

/-! ### Parts of the block -/

def State.modIng (s : State) (f : IngState → IngState) : State := { s with ing := f s.ing }

def State.modPort (s : State) (p : Fin 4) (f : EthPort → EthPort) : State :=
  s.modIng fun g => { g with port := g.port.set p (f g.port[p]) }

def State.modCnt (s : State) (p : Fin 4) (f : PortCounts → PortCounts) : State :=
  s.modPort p fun q => { q with cnt := f q.cnt }

def State.modSens (s : State) (n : Fin 16) (f : SensState → SensState) : State :=
  s.modIng fun g => { g with sn := g.sn.set n (f g.sn[n]) }

def State.modRing (s : State) (p : Fin 4) (f : IngRing → IngRing) : State :=
  s.modIng fun g => { g with ring := g.ring.set p (f g.ring[p]) }

/-- A sweep changed, by its number. -/
def State.modSweep (s : State) (id : Nat) (f : Sweep → Sweep) : State :=
  s.modIng fun g => { g with sweeps := g.sweeps.map fun w => if w.id = id then f w else w }

/-- A sweep by its number. -/
def IngState.sweep (g : IngState) (id : Nat) : Option Sweep := g.sweeps.find? fun w => w.id = id

/-- Post an ingest event; it goes to Gauntlet when it concerns rings of P0 or P1 (R129). -/
def State.ingPost (s : State) (code rings : Nat) : State := s.postFull code 0x58 none (decide (rings % 4 ≠ 0))

/-! ### Sensor entries and templates -/

def sensEn (e : BitVec 256) : Bool := bit e 0
def sensPort (e : BitVec 256) : Nat := fld e 1 2
def sensDom (e : BitVec 256) : Bool := bit e 3
def sensTpl (e : BitVec 256) : Fin 16 := Fin.ofNat 16 (fld e 4 4)
def sensRings (e : BitVec 256) : Nat := fld e 8 4
def sensUdp (e : BitVec 256) : Nat := fld e 16 16
def sensIp (e : BitVec 256) : List Byte := (List.range 16).map fun i => BitVec.ofNat 8 (fld e (32 + 8 * i) 8)

def tKind (t : Rec64) : Nat := fld t 0 2
def tTsrc (t : Rec64) : Bool := bit t 2
def tScutEn (t : Rec64) : Bool := bit t 3
def tFcntEn (t : Rec64) : Bool := bit t 4
def tPtofs (t : Rec64) : Nat := recField t 1 1
def tHdrlen (t : Rec64) : Nat := recField t 2 2
def tBlklen (t : Rec64) : Nat := recField t 4 2
def tNblk (t : Rec64) : Nat := recField t 6 2
def tPtlen (t : Rec64) : Nat := recField t 8 2
def tNpt (t : Rec64) : Nat := recField t 0x0A 2
def tRscale (t : Rec64) : Nat := recField t 0x0C 2
def tRshift (t : Rec64) : Nat := fld t (8 * 0x0E) 5
def tIshift (t : Rec64) : Nat := fld t (8 * 0x0F) 4
def tAzscale (t : Rec64) : Nat := recField t 0x10 4
def tScut (t : Rec64) : Nat := recField t 0x14 2
def tTmul (t : Rec64) : Nat := recField t 0x16 2
def tRmin (t : Rec64) : Nat := recField t 0x18 4
def tRmax (t : Rec64) : Nat := recField t 0x1C 4
/-- Field descriptor Fn. -/
def tField (t : Rec64) (n : Nat) : BitVec 32 := BitVec.ofNat 32 (recField t (0x20 + 4 * n) 4)
def fPres (d : BitVec 32) : Bool := bit d 19
def fCont (d : BitVec 32) : Nat := fld d 16 2
def fBytes (d : BitVec 32) : Nat := fld d 12 3 + 1
def fOfs (d : BitVec 32) : Nat := fld d 0 12

/-- The checks that make a template valid (R114). -/
def tplOk (t : Rec64) : Bool :=
  let range := decide (tKind t = 1)
  let pres (n : Nat) : Bool := fPres (tField t n)
  let contLen (c : Nat) : Nat := if c = 0 then tHdrlen t else if c = 1 then tBlklen t else tPtlen t
  let fits (n : Nat) : Bool :=
    let d := tField t n
    decide (fld d 20 12 = 0) && decide (fCont d ≠ 3) && (!fPres d || decide (fOfs d + fBytes d ≤ contLen (fCont d)))
  (range || decide (tKind t = 2)) && decide (fld t 5 3 = 0) && decide (fld t (8 * 0x0E + 5) 3 = 0) &&
    decide (fld t (8 * 0x0F + 4) 4 = 0) && between 1 (tBlklen t) 4095 && between 1 (tNblk t) 1024 &&
    between 1 (tPtlen t) 255 && between 1 (tNpt t) 256 && (range || !tScutEn t) && !(range && pres 2) &&
    pres 0 && pres 1 && (range || pres 2) && (!tTsrc t || pres 6) &&
    (!tFcntEn t || (pres 7 && decide (fCont (tField t 7) = 0))) && (List.range 8).all fits &&
    decide (tPtofs t + tNpt t * tPtlen t ≤ tBlklen t)

/-- The raw value of field `n` for point `pt` of block `blk`; none where the field is absent. -/
def fieldOf (t : Rec64) (pay : List Byte) (n blk pt : Nat) : Option Int :=
  let d := tField t n
  if !fPres d then none
  else
    let b := tHdrlen t + blk * tBlklen t
    let base := if fCont d = 0 then 0 else if fCont d = 1 then b else b + tPtofs t + pt * tPtlen t
    let bs := (pay.drop (base + fOfs d)).take (fBytes d)
    let v := leNat (if bit d 18 then bs.reverse else bs)
    some (if bit d 15 then toSigned (8 * fBytes d) v else v)

/-! ### Conversion (R116) -/

/-- A converted point: coordinates in mm, intensity, and the azimuth code of a range image. -/
structure Point where
  x : Int
  y : Int
  z : Int
  inten : Nat
  az : Option Nat
  deriving DecidableEq, Repr

/-- What becomes of a point. -/
inductive Conv where
  | noret
  | oor
  | ok (p : Point)
  deriving DecidableEq, Repr

/-- The extrinsic applied to sensor-frame coordinates, in mm. -/
def extApply (m : Rec64) (xs ys zs : Int) (i : Nat) : Int :=
  let e (j : Nat) : Int := toSigned 32 (recField m (0x04 + 4 * (3 * i + j)) 4)
  let v := rnd (e 0 * xs + e 1 * ys + e 2 * zs) 30 + toSigned 32 (recField m (0x28 + 4 * i) 4)
  rnd v 8

/-- The conversion of R116. `entry` is the beam-table entry. -/
def convert (t m : Rec64) (entry : BitVec 32) (f0 f1 f2 f3 : Option Int) : Conv :=
  let x0 := f0.getD 0
  let x1 := f1.getD 0
  let sc (v : Int) : Int := rnd (v * tRscale t) (tRshift t)
  let range := decide (tKind t = 1)
  let r := sc x0
  if range && (decide (x0 < 0) || decide (r < tRmin t) || decide ((tRmax t : Int) < r)) then .noret
  else
    let a := wrapN 16 (rnd (x1 * tAzscale t) 16 + toSigned 16 (fld entry 16 16))
    let e := fld entry 0 16
    let h := rnd (r * COS e) 30
    let xs := if range then rnd (h * COS a) 30 else r
    let ys := if range then rnd (h * SIN a) 30 else sc x1
    let zs := if range then rnd (r * SIN e) 30 else sc (f2.getD 0)
    let c := extApply m xs ys zs
    if (List.range 3).any fun i => decide (8388607 < (c i).natAbs) then .oor
    else .ok ⟨c 0, c 1, c 2, (max 0 (min 255 (rnd (f3.getD 0) (tIshift t)))).toNat, if range then some a else none⟩

/-- The bytes of a point record, TRUNC clear. -/
def recordBytes (p : Point) (beam sflags toff ret stag : Nat) : List Byte :=
  leBytes 3 (wrapN 24 p.x) ++ leBytes 3 (wrapN 24 p.y) ++ leBytes 3 (wrapN 24 p.z) ++
    leBytes 1 p.inten ++ leBytes 1 beam ++ leBytes 1 sflags ++ leBytes 2 toff ++ leBytes 1 ret ++ leBytes 1 stag

/-! ### Sweeps (R117 to R123) -/

/-- The open sweep of a sensor, real or golden. -/
def SensState.open' (n : SensState) (golden : Bool) : Option Nat := if golden then n.gold else n.cur

def SensState.setOpen (n : SensState) (golden : Bool) (id : Option Nat) : SensState :=
  if golden then { n with gold := id } else { n with cur := id }

/-- An open or closing sweep of a ring ends there without a header. -/
def IngRing.on (r : IngRing) : Bool := bit r.rctl 0

/-- Whether partition `p`'s reset is released and its ring is not suspended for it. -/
def State.ringReleased (s : State) (p : Fin 4) : Bool := decide (s.flt.part[p] = .running)

/-- The sweep takes part in ring `p`, or is not started there for want of a header (R121, R122). A ring enabled while a
sweep is open takes no part in that sweep and joins at the sensor's next one (DESIGN CHOICE, log 180). -/
def State.startRing (s : State) (id rings : Nat) (p : Fin 4) : State :=
  let s := if s.ing.ring[p].suspended && s.ringReleased p then s.modRing p fun r => { r with suspended := false } else s
  let r := s.ing.ring[p]
  if !rings.testBit p.val || !r.on then s
  else if 4096 ≤ ((r.hwidx - r.hhold).toNat + r.opened) then
    (s.modSweep id fun w => { w with dead := setBit w.dead p.val true }).ingPost 0x4013 rings
  else
    (s.modRing p fun r => { r with opened := r.opened + 1 }).modSweep id fun w =>
      { w with rings := w.rings.set p (some ⟨0, 0, 0, false, 0⟩) }

/-- A new sweep of sensor `n` starts at time `t`: the next tag, and the extrinsic that is current now (R117, R119,
R120). A golden sweep goes to the rings of P0 and P1 only (R127). A sweep that R122 does not start takes a tag and counts
in SENSSTAT all the same (DESIGN CHOICE, log 181). -/
def State.sweepOpen (s : State) (n : Fin 16) (golden : Bool) (t : BitVec 32) : State :=
  let e := s.ing.sens[n]
  let rings := if golden then sensRings e % 4 else sensRings e
  let id := s.ing.nextId
  let x := s.ing.sn[n]
  let ext := x.extPend.getD x.extCur
  let w : Sweep := { id := id, sensor := n, golden := golden, dom := sensDom e, stag := x.starts, base := t, ext := ext
                     tcut := false, noret := if golden then 0 else x.carry, tback := 0, span := 0
                     rings := Vector.replicate 4 none, dead := 0 }
  let s := s.modIng fun g => { g with sweeps := g.sweeps ++ [w], nextId := id + 1 }
  let s := s.modSens n fun x => { x.setOpen golden (some id) with
    starts := x.starts + 1, carry := if golden then x.carry else 0, extCur := ext, extPend := none
    newest := if golden then x.newest else some (x.starts, t)
    cnt := { x.cnt with sweeps := x.cnt.sweeps + 1 } }
  (List.finRange 4).foldl (fun t p => t.startRing id rings p) s

/-- The open sweep of a sensor closes: its close joins the staging buffer of each of its rings (R123). A sweep in
no ring is forgotten. -/
def State.sweepClose (s : State) (n : Fin 16) (golden : Bool) : State :=
  match s.ing.sn[n].open' golden with
  | none => s
  | some id =>
    let s := s.modSens n fun x => x.setOpen golden none
    match s.ing.sweep id with
    | none => s
    | some w =>
      if w.rings.toList.all Option.isNone then
        s.modIng fun g => { g with sweeps := g.sweeps.filter fun v => v.id ≠ id }
      else
        (List.finRange 4).foldl (fun t p =>
          if w.rings[p].isSome then t.modRing p fun r => { r with stage := r.stage ++ [.close id] } else t) s

/-- A point that a sweep drops in ring `p`: counted, the sweep marked TRUNC, and posted for the first (R122, R125). DROP,
TRUNC and "the first" are kept for each ring of the sweep (DESIGN CHOICE, log 181). -/
def State.pointDrop (s : State) (w : Sweep) (p : Fin 4) (code : Nat) : State :=
  match w.rings[p] with
  | none => s
  | some r =>
    let b := if code = 0x4011 then 0 else 1
    let s := s.modSweep w.id fun v => { v with rings := v.rings.set p (some
      { r with drop := r.drop + 1, trunc := true, posted := setBit r.posted b true }) }
    let s := s.modSens w.sensor fun x => { x with cnt := { x.cnt with drop := x.cnt.drop + 1 } }
    if bit r.posted b then s else s.ingPost code (sensRings s.ing.sens[w.sensor])

/-- Records in a staging buffer. -/
def IngRing.staged (r : IngRing) : Nat :=
  (r.stage.filter fun i => match i with | .record _ _ => true | .close _ => false).length

/-- A converted record offered to each ring of its sweep (R121, R122, R125). -/
def State.stagePoint (s : State) (id : Nat) (bytes : List Byte) : State :=
  (List.finRange 4).foldl (fun t p =>
    match t.ing.sweep id with
    | none => t
    | some w =>
      if !t.ing.ring[p].on then t
      else if bit w.dead p.val then
        t.modSens w.sensor fun x => { x with cnt := { x.cnt with drop := x.cnt.drop + 1 } }
      else if w.rings[p].isNone then t
      else if 4096 ≤ t.ing.ring[p].staged then t.pointDrop w p 0x4012
      else t.modRing p fun r => { r with stage := r.stage ++ [.record id bytes] }) s

/-- A point that gives no record: counted for the sensor, and in the sweep it falls in (R116). -/
def State.skipPoint (s : State) (n : Fin 16) (golden oor : Bool) : State :=
  let s := s.modSens n fun x => { x with cnt :=
    if oor then { x.cnt with oor := x.cnt.oor + 1 } else { x.cnt with noret := x.cnt.noret + 1 } }
  match s.ing.sn[n].open' golden with
  | some id => s.modSweep id fun w => { w with noret := w.noret + 1 }
  | none => if golden then s else s.modSens n fun x => { x with carry := x.carry + 1 }

/-- Whether the azimuth passes SCUT between two codes (R120). -/
def cutPassed (scut last a : Nat) : Bool :=
  decide ((a + 65536 - scut) % 65536 < 32768) && decide (32768 ≤ (last + 65536 - scut) % 65536)

/-- One converted point joins the open sweep of its sensor, or starts one (R118, R119). `ret` is the record's return
index, the low 8 bits of F5; a golden point takes its place in the DUP table too (DESIGN CHOICE, log 182). -/
def State.deliverPoint (s : State) (n : Fin 16) (golden : Bool) (t : Rec64) (p : Point) (beam : Nat) (f0 : Int)
    (ret : Nat) (time : BitVec 32) : State :=
  let s := if (s.ing.sn[n].open' golden).isNone then s.sweepOpen n golden time else s
  match s.ing.sn[n].open' golden with
  | none => s
  | some id => match s.ing.sweep id with
    | none => s
    | some w =>
      let d := (time - w.base).toInt
      let toff := if d < 0 then 0 else (d.toNat + 2000) / 4000
      let key := (p.az.getD 0, f0)
      let dup := decide (tKind t = 1) && decide (0 < ret) && decide (SMap.get (65536, 0) s.ing.sn[n].dup beam = key)
      let s := s.modSens n fun x => { x with
        dup := if tKind t = 1 then SMap.insert beam key x.dup else x.dup
        lastA := if golden then x.lastA else p.az
        cnt := { x.cnt with points := x.cnt.points + 1, tback := x.cnt.tback + (if d < 0 then 1 else 0) } }
      let s := s.modSweep id fun w => { w with
        tback := w.tback + (if d < 0 then 1 else 0), span := time - w.base }
      let flags := (if dup then 0x40 else 0) + (if golden then 0x10 else 0) + n.val
      s.stagePoint id (recordBytes p beam flags toff ret w.stag.toNat)

/-- Whether a time lies past the 262 ms limit of the open sweep (R119). -/
def timeCut (w : Sweep) (time : BitVec 32) : Bool :=
  let d := (time - w.base).toInt
  decide (0 ≤ d) && decide (65535 < (d.toNat + 2000) / 4000)

/-- The sweep that a converted point finds open closes first where R119 or R120 says so. -/
def State.closeBefore (s : State) (n : Fin 16) (golden : Bool) (t : Rec64) (p : Point) (time : BitVec 32) : State :=
  let cut := !golden && tScutEn t && (match s.ing.sn[n].lastA, p.az with
    | some l, some a => cutPassed (tScut t) l a
    | _, _ => false)
  let s := if cut then s.sweepClose n golden else s
  match s.ing.sn[n].open' golden with
  | none => s
  | some id => match s.ing.sweep id with
    | none => s
    | some w =>
      if timeCut w time then
        ((s.modSweep id fun w => { w with tcut := true }).ingPost 0x4014 (sensRings s.ing.sens[n])).sweepClose n golden
      else s

/-- One point of a frame (R113, R116 to R120). A beam number outside 0 to 255 gives no return, a negative one too
(DESIGN CHOICE, log 183: R116 names only a number above 255). -/
def State.ingestPoint (s : State) (n : Fin 16) (golden : Bool) (t : Rec64) (pay : List Byte) (stamp : Word)
    (blk pt : Nat) : State :=
  let f := fun k => fieldOf t pay k blk pt
  let beam := (f 4).getD pt
  if beam < 0 ∨ 255 < beam then s.skipPoint n golden false
  else
    let beam := beam.toNat
    let entry := SMap.get 0 s.ing.beam ((sensTpl s.ing.sens[n]).val * 256 + beam)
    let conv (s : State) : Conv :=
      let x := s.ing.sn[n]
      let ext := match x.open' golden with
        | some id => (match s.ing.sweep id with | some w => w.ext | none => x.extCur)
        | none => x.extPend.getD x.extCur
      convert t ext entry (f 0) (f 1) (f 2) (f 3)
    let time : BitVec 32 :=
      if tTsrc t then BitVec.ofInt 32 ((f 6).getD 0 * tTmul t) else stamp.setWidth 32
    match conv s with
    | .noret => s.skipPoint n golden false
    | .oor => s.skipPoint n golden true
    | .ok p =>
      let s := s.closeBefore n golden t p time
      match conv s with
      | .noret => s.skipPoint n golden false
      | .oor => s.skipPoint n golden true
      | .ok p => s.deliverPoint n golden t p beam ((f 0).getD 0) (wrapN 8 ((f 5).getD 0)) time

/-- A matched frame: its whole blocks in order, each point in order (R113, R114). -/
def State.ingestFrame (s : State) (p : Fin 4) (n : Fin 16) (golden : Bool) (pay : List Byte) (stamp : Word) : State :=
  let t := s.ing.tpl[sensTpl s.ing.sens[n]]
  let whole := (pay.length - tHdrlen t) / tBlklen t
  let nb := min whole (tNblk t)
  let s := if whole < tNblk t then s.modCnt p fun c => { c with short := c.short + 1 } else s
  -- R114: with FCNTEN = 1, F7 lies in the packet container
  let f7 := if tHdrlen t ≤ pay.length then fieldOf t pay 7 0 0 else none
  let s := match f7 with
    | some v =>
      if golden then s else
        let s := if tFcntEn t && (match s.ing.sn[n].lastF7 with | some l => decide (l ≠ v) | none => false)
          then s.sweepClose n false else s
        s.modSens n fun x => { x with lastF7 := some v }
    | none => s
  (List.range nb).foldl (fun s blk =>
    (List.range (tNpt t)).foldl (fun s pt => s.ingestPoint n golden t pay stamp blk pt) s) s

/-- The first enabled sensor entry that matches a datagram on a port (R112). -/
def IngState.match' (g : IngState) (p : Fin 4) (d : Datagram) : Option (Fin 16) :=
  (List.finRange 16).find? fun n =>
    let e := g.sens[n]
    sensEn e && decide (sensPort e = p.val) && decide (sensUdp e = d.dport) &&
      ((sensIp e).all (· == 0) || decide (sensIp e = d.src))

/-- An ingest unit works on a frame of port `p`: a golden one for the sensor that Gauntlet names (R127), another for the
sensor entry it matches. -/
def State.frameWork (s : State) (p : Fin 4) (f : RxFrame) : State :=
  let one (n : Fin 16) (pay : List Byte) : State :=
    s.ingestFrame p n f.golden.isSome pay (if sensDom s.ing.sens[n] then f.stampB else f.stampA)
  match parseFrame f.bytes, f.golden with
  | .udp d, some n => if sensEn s.ing.sens[n] then one n d.payload else s
  | _, some _ => s
  | .udp d, none =>
    (match s.ing.match' p d with
      | some n => one n d.payload
      | none => s.modCnt p fun c => { c with unmatched := c.unmatched + 1 })
  | _, none => s.modCnt p fun c => { c with unmatched := c.unmatched + 1 }

/-- The ends of golden patterns that stand at the head of a port's FIFO: each closes its golden sweep. -/
def State.endPatterns (s : State) (p : Fin 4) : List RxItem → State
  | .patternEnd n :: rest => ((s.modPort p fun q => { q with fifo := rest }).sweepClose n true).endPatterns p rest
  | _ => s

/-- The frame at the head of a port's FIFO is taken, and the ends of patterns about it (R113, R127). -/
def State.ingestNext (s : State) (p : Fin 4) : State :=
  let s := s.endPatterns p s.ing.port[p].fifo
  match s.ing.port[p].fifo with
  | .frame f :: rest =>
    let s := (s.modPort p fun q => { q with fifo := rest }).frameWork p f
    s.endPatterns p s.ing.port[p].fifo
  | _ => s

def execIngestFrameProcess (p : Fin 4) (s : State) : Answer := .next (s.ingestNext p)

/-! ### Receiving (R109 to R111, R128) -/

/-- Room that a frame takes in a receive FIFO: its bytes with the FCS (DESIGN CHOICE, log 184: R111 does not say what
of a frame the FIFO keeps). -/
def RxItem.size : RxItem → Nat
  | .frame f => f.bytes.length + 4
  | .patternEnd _ => 0

/-- Bytes held in the receive FIFO of 1 MiB (R111). -/
def fifoBytes (q : EthPort) : Nat := (q.fifo.map RxItem.size).foldl (· + ·) 0

/-- Whether any enabled sensor of the port feeds P0 or P1: its rings, or 0. -/
def IngState.portRings (g : IngState) (p : Fin 4) : Nat :=
  g.sens.toList.foldl (fun a e => if sensEn e && decide (sensPort e = p.val) then a ||| sensRings e else a) 0

/-- A frame enters a port's receive FIFO, or is dropped whole when it does not fit (R111). -/
def State.fifoPut (s : State) (p : Fin 4) (f : RxFrame) : State :=
  if 2 ^ 20 < fifoBytes s.ing.port[p] + (RxItem.frame f).size then
    (s.modCnt p fun c => { c with fifo := c.fifo + 1 }).ingPost 0x4003 (s.ing.portRings p)
  else s.modPort p fun q => { q with fifo := q.fifo ++ [.frame f] }

/-- A frame the MAC passed: dropped by its headers, sent to Hatband, or queued with its ingress stamps. -/
def State.frameQueue (s : State) (p : Fin 4) (f : List Byte) : State :=
  match ptpAt f with
  | some (o, udp, v6) => (s.ptpForward p f o v6).ptpServe p f o udp
  | none => match parseFrame f with
    | .drop .ipHdr => s.modCnt p fun c => { c with ipHdr := c.ipHdr + 1 }
    | .drop .fragment => s.modCnt p fun c => { c with fragment := c.fragment + 1 }
    | .drop .udpCsum => s.modCnt p fun c => { c with udpCsum := c.udpCsum + 1 }
    | _ => s.fifoPut p ⟨f, s.rxStamp p 0, s.rxStamp p 1, none⟩

/-- A tapped frame dropped (R452). -/
def CloState.dropFrame (x : CloState) : CloState :=
  { x with
    ndropf := satAdd 0xFFFFFFFF x.ndropf 1
    cap := x.cap.map fun c => { c with ndrop := satAdd 0xFFFFFFFF c.ndrop 1 } }

/-- A frame is copied to Cloche, or dropped and counted there when its 256 KiB frame buffer is full (R128). -/
def State.tapFrame (s : State) (p : Fin 4) (f : List Byte) : State :=
  let held := (s.ing.tap.map fun x => x.2.bytes.length).foldl (· + ·) 0
  if 262144 < held + f.length then { s with clo := s.clo.dropFrame }.post 0x8010 0x72
  else s.modIng fun g => { g with tap := g.tap ++ [(p, ⟨f, s.rxStamp p 0, s.rxStamp p 1, none⟩)] }

/-- A frame arrives on a port; `data` is without FCS and `fcsOk` says whether the FCS was right. -/
def State.frameReceive (s : State) (p : Fin 4) (data : List Byte) (fcsOk : Bool) : State :=
  let q := s.ing.port[p]
  if q.phy = .off ∨ !q.up ∨ s.pwr.mode ≠ .run then s
  else if data.length + 4 < 64 then s.modCnt p fun c => { c with runt := c.runt + 1 }
  else if !fcsOk then s.modCnt p fun c => { c with fcs := c.fcs + 1 }
  else if 9216 < data.length + 4 then s.modCnt p fun c => { c with oversize := c.oversize + 1 }
  else if !addressed p data then s
  else
    let s := if q.clo then s.tapFrame p data else s
    s.frameQueue p data

def execFrameReceive (p : Fin 4) (data : List Byte) (fcsOk : Bool) (s : State) : Answer :=
  .next (s.frameReceive p data fcsOk)

/-- A port's link comes up; a port without a PHY mode stays down (R109). -/
def execEthLinkUp (p : Fin 4) (s : State) : Answer :=
  .next (if s.ing.port[p].phy = .off ∨ s.ing.port[p].up then s
    else (s.modPort p fun q => { q with up := true }).post 0x4001 0x58)

/-- A port's link goes down. -/
def execEthLinkDown (p : Fin 4) (s : State) : Answer :=
  .next (if s.ing.port[p].up then (s.modPort p fun q => { q with up := false }).post 0x4002 0x58 else s)

end Sys2Proof.Machine
end

