-- ==== Sys2Proof/Machine/Rings.lean ====
section
/-! DEFINITION. The record writer, the ring and table registers of the ING block, injection and the block's single
faults (R114, R115, R117, R121 to R126, R129, R542). -/

namespace Sys2Proof.Machine

/-! ### The record writer (R121 to R125) -/

/-- A burst of an enabled ring is ready: four records, or a close (R121, R125). -/
def IngRing.ready (r : IngRing) : Bool :=
  r.on && (decide (4 ≤ r.stage.length) || (r.stage.take 4).any fun i => match i with | .close _ => true | .record _ _ => false)

/-- Ingest writes ring memory under the ring's partition (R329). -/
def ringWho (p : Fin 4) : DdrWho := .part 0x58 p

/-- Record index i of a ring (R121). -/
def IngRing.recordAt (r : IngRing) (i : Nat) : Nat := r.rbase.toNat + 16 * (i % 2 ^ 24)

/-- Header index h of a ring. -/
def IngRing.headerAt (r : IngRing) (h : Nat) : Nat := r.hbase.toNat + 32 * (h % 4096)

/-- A record's bytes with TRUNC set. -/
def withTrunc (bs : List Byte) : List Byte := bs.take 11 ++ ((bs.getD 11 0) ||| 0x80) :: bs.drop 12

/-- One record is written to ring `p`, or dropped for want of space (R121, R122). -/
def State.writeRecord (s : State) (p : Fin 4) (w : Sweep) (bytes : List Byte) : State :=
  let r := s.ing.ring[p]
  match w.rings[p] with
  | none => s
  | some q =>
    if !r.on then s
    else if r.suspended || decide (2 ^ 24 ≤ (r.rwidx - r.rhold).toNat) then s.pointDrop w p 0x4011
    else
      let s := s.ddrPut (ringWho p) (r.recordAt r.rwidx.toNat) (if q.trunc then withTrunc bytes else bytes)
      let s := s.modRing p fun r => { r with rwidx := r.rwidx + 1 }
      s.modSweep w.id fun v => { v with rings := v.rings.set p (some
        { q with count := q.count + 1, first := if q.count = 0 then r.rwidx else q.first }) }

/-- The bytes of a sweep header. -/
def headerBytes (base hid stag : Nat) (dom : Bool) (first count drop noret xver tback span : Nat) : List Byte :=
  leBytes 4 base ++ leBytes 1 hid ++ leBytes 1 stag ++ leBytes 1 (ofBool dom) ++ [0] ++ leBytes 4 first ++
    leBytes 4 count ++ leBytes 4 drop ++ leBytes 4 noret ++ leBytes 2 xver ++ leBytes 2 tback ++ leBytes 4 span

/-- HID of a sweep in one ring. -/
def sweepHid (inj golden tcut trunc : Bool) (sensor : Nat) : Nat :=
  128 * ofBool inj + 64 * ofBool golden + 32 * ofBool tcut + 16 * ofBool trunc + sensor

/-- A header is written, HWIDX advances and the ring's signal is given (R123). -/
def State.putHeader (s : State) (p : Fin 4) (bytes : List Byte) : State :=
  let r := s.ing.ring[p]
  if !r.on || r.suspended then s
  else
    let s := s.ddrPut (ringWho p) (r.headerAt r.hwidx.toNat) bytes
    let s := s.modRing p fun r => { r with hwidx := r.hwidx + 1 }
    if bit r.rctl 15 then s.remoteSignal (Fin.ofNat 32 (fld r.rctl 10 5)) 0x58 (fld r.rctl 1 9) 1 else s

/-- A sweep closes in ring `p`; once it has closed in every ring it is forgotten. -/
def State.closeInRing (s : State) (p : Fin 4) (w : Sweep) : State :=
  match w.rings[p] with
  | none => s
  | some q =>
    let first := if q.count = 0 then s.ing.ring[p].rwidx else q.first
    let s := s.putHeader p (headerBytes w.base.toNat (sweepHid false w.golden w.tcut q.trunc w.sensor.val) w.stag.toNat
      w.dom first.toNat q.count q.drop w.noret (recField w.ext 0 2) (min w.tback 0xFFFF) w.span.toNat)
    let s := s.modRing p fun r => { r with opened := r.opened - 1 }
    let left := w.rings.set p none
    if left.toList.all Option.isNone then s.modIng fun g => { g with sweeps := g.sweeps.filter fun v => v.id ≠ w.id }
    else s.modSweep w.id fun v => { v with rings := left }

/-- A burst of ring `p`: up to four records, ending with a close. -/
def State.ringBurst (s : State) (p : Fin 4) : Nat → State
  | 0 => s
  | fuel + 1 =>
    match s.ing.ring[p].stage with
    | [] => s
    | i :: rest =>
      let s := s.modRing p fun r => { r with stage := rest }
      match i with
      | .close id => (match s.ing.sweep id with | some w => s.closeInRing p w | none => s)
      | .record id bytes =>
        State.ringBurst (match s.ing.sweep id with | some w => s.writeRecord p w bytes | none => s) p fuel

/-- The ring that the writer serves in a slot, of those with a burst ready: the slot's own, else the next by rotating
priority (R125). The flag says that the slot was given away. -/
def IngState.serve (g : IngState) (ready : Fin 4 → Bool) : Option (Fin 4 × Bool) :=
  let own : Fin 4 := Fin.ofNat 4 (fld g.slotNow (2 * g.slot.val) 2)
  if ready own then some (own, false)
  else ((List.range 4).map fun i => Fin.ofNat 4 (g.token.val + 1 + i)).find? ready |>.map fun q => (q, true)

/-- One XD clk of the writer passes: the next slot, at the frame's end the SLOTMAP written since, and the token moved to
the ring that a slot was given to. A slot that serves its own ring leaves the token (DESIGN CHOICE, log 185). -/
def IngState.nextSlot (g : IngState) (pick : Option (Fin 4 × Bool)) : IngState :=
  let g := { g with slot := g.slot + 1, slotNow := if g.slot = 63 then g.slotmap else g.slotNow }
  match pick with | some (q, true) => { g with token := q } | _ => g

/-- One XD clk of the record writer (R125). -/
def State.writerBurst (s : State) : State :=
  let pick := s.ing.serve fun q => s.ing.ring[q].ready
  let s := s.modIng fun g => g.nextSlot pick
  match pick with | some (q, _) => s.ringBurst q 4 | none => s

def execRecordWriterBurst (s : State) : Answer := .next s.writerBurst

/-! ### Registers (R114, R115, R117, R121, R124, R125, R542) -/

/-- Host PF0 and Crown write the tables and ring registers (R542). -/
def ingOwner (ini : Ini) : Bool := decide (ini = 0x60) || decide (ini = 0x70)

/-- Event 0x4020: a write refused or dropped. -/
def State.ingRefuse (s : State) : State := s.post 0x4020 0x58

/-- Whether an enabled sensor entry names template `t`. -/
def IngState.tplUsed (g : IngState) (t : Fin 16) : Bool := g.sens.toList.any fun e => sensEn e && decide (sensTpl e = t)

/-- Bytes written to TPL[t] (R114). -/
def State.tplWrite (s : State) (t : Fin 16) (ini : Ini) (off : Nat) (data : List Byte) : State :=
  if !ingOwner ini || s.ing.tplUsed t then s.ingRefuse
  else
    let w := recStore s.ing.tpl[t] off data
    let full := covers off data.length 0x3C 0x3F
    let s := s.modIng fun g => { g with tpl := g.tpl.set t w, tplVal := setBit g.tplVal t.val (full && tplOk w) }
    if full && !tplOk w then s.ingRefuse else s

def execTplWrite (t : Fin 16) (ini : Initiator) (off : Nat) (data : List Byte) (s : State) : Answer :=
  inRange s (bytesIn off data 64) (s.tplWrite t ini off data)

/-- Bytes stored into a 32-byte item. -/
def stage32 (w : BitVec 256) (off : Nat) : List Byte → BitVec 256
  | [] => w
  | b :: bs => stage32 (if off < 32 then setFld w (8 * off) 8 b.toNat else w) (off + 1) bs

/-- The fields of a sensor entry; reserved bits read as 0 (R11). -/
def sensMask : BitVec 256 := BitVec.ofNat 256 (0x0FFF + (2 ^ 144 - 1) * 2 ^ 16)

/-- The fields of an extrinsic entry. -/
def extMask : Rec64 := BitVec.ofNat 512 (0xFFFF + (2 ^ 384 - 1) * 2 ^ 32)

/-- Bytes written to SENS[n] (R115). -/
def State.sensWrite (s : State) (n : Fin 16) (ini : Ini) (off : Nat) (data : List Byte) : State :=
  let e := s.ing.sens[n]
  let w := stage32 e off data &&& sensMask
  if !ingOwner ini then s.ingRefuse
  else if sensEn e && decide (w >>> 1 ≠ e >>> 1) then s.ingRefuse
  else if sensEn w && !bit s.ing.tplVal (sensTpl w).val then s.ingRefuse
  else
    let s := if sensEn e && !sensEn w then (s.sweepClose n false).sweepClose n true else s
    let s := s.modIng fun g => { g with sens := g.sens.set n w }
    if !sensEn e && sensEn w then s.modSens n fun x => { x with starts := 0 } else s

def execSensWrite (n : Fin 16) (ini : Initiator) (off : Nat) (data : List Byte) (s : State) : Answer :=
  inRange s (bytesIn off data 32) (s.sensWrite n ini off data)

/-- Bytes written to EXT[n]; covering bytes 0x00 and 0x01 commits the entry as pending (R117). -/
def State.extWrite (s : State) (n : Fin 16) (ini : Ini) (off : Nat) (data : List Byte) : State :=
  if !ingOwner ini then s.ingRefuse
  else
    let w := recStore s.ing.ext[n] off data &&& extMask
    let s := s.modIng fun g => { g with ext := g.ext.set n w }
    if covers off data.length 0 1 then s.modSens n fun x => { x with extPend := some w } else s

def execExtWrite (n : Fin 16) (ini : Initiator) (off : Nat) (data : List Byte) (s : State) : Answer :=
  inRange s (bytesIn off data 64) (s.extWrite n ini off data)

/-- Bytes written to one entry of BEAM[t]. -/
def State.beamWrite (s : State) (k : Nat) (ini : Ini) (off : Nat) (data : List Byte) : State :=
  if !ingOwner ini then s.ingRefuse
  else
    let w := (recStore ((SMap.get 0 s.ing.beam k).setWidth 512) off data).setWidth 32
    s.modIng fun g => { g with beam := SMap.set 0 g.beam k w }

/-- A write of RBASE or HBASE, writable only while EN = 0. -/
def State.ringBaseWrite (s : State) (p : Fin 4) (ini : Ini) (header : Bool) (h : Half) (v : Word) : State :=
  let r := s.ing.ring[p]
  if !ingOwner ini || r.on then s.ingRefuse
  else if header then s.modRing p fun r => { r with hbase := mergeHalf h r.hbase v &&& 0x0000FFFFFFFFF000#64 }
  else s.modRing p fun r => { r with rbase := mergeHalf h r.rbase v &&& 0x0000FFFFFFF00000#64 }

/-- Whether both rings lie in regions that partition `p` may write. -/
def State.ringsPlaced (s : State) (p : Fin 4) : Bool :=
  let r := s.ing.ring[p]
  s.ddr.admitsAll (ringWho p) true r.rbase.toNat (2 ^ 28) && s.ddr.admitsAll (ringWho p) true r.hbase.toNat (2 ^ 17)

/-- Ring `p` leaves ingest: what its staging buffer holds is lost, and every sweep goes on without it (R121; DESIGN
CHOICE, log 180). -/
def State.ringLeave (s : State) (p : Fin 4) : State :=
  let s := s.modRing p fun r => { r with stage := [], opened := 0 }
  s.modIng fun g =>
    let live (w : Sweep) : Bool := !w.rings.toList.all Option.isNone || g.sn.toList.any fun n => n.cur = some w.id || n.gold = some w.id
    let ws := g.sweeps.map fun w => { w with rings := w.rings.set p none, dead := setBit w.dead p.val false }
    { g with sweeps := ws.filter live }

/-- A write of RCTL; setting EN zeroes WIDX and HOLD, and a ring whose EN is cleared leaves ingest (R121). -/
def State.rctlWrite (s : State) (p : Fin 4) (ini : Ini) (h : Half) (v : Word) : State :=
  let r := s.ing.ring[p]
  let w := mergeHalf h r.rctl v &&& 0xFFFF#64
  if !ingOwner ini || (bit w 0 && !s.ringsPlaced p) then s.ingRefuse
  else
    let s := if !bit w 0 && r.on then s.ringLeave p else s
    s.modRing p fun r =>
      if bit w 0 && !r.on then { r with rctl := w, rhold := 0, hhold := 0, rwidx := 0, hwidx := 0 } else { r with rctl := w }

def execRctlWrite (p : Fin 4) (ini : Initiator) (h : Half) (v : Word) (s : State) : Answer := .next (s.rctlWrite p ini h v)

/-- Whether an initiator may write HOLD of ring `p`: host PF0 and the DMA engine of a core of the partition. -/
def State.holdOwner (s : State) (p : Fin 4) (ini : Ini) : Bool :=
  decide (ini = 0x60) || (decide (0x20 ≤ ini.toNat) && decide (ini.toNat < 0x40) && decide (s.srcPart ini = some p))

/-- A write of HOLD: both values must lie between the old hold and the write index (R124). -/
def State.holdWrite (s : State) (p : Fin 4) (ini : Ini) (h : Half) (v : Word) : State :=
  let r := s.ing.ring[p]
  let w := mergeHalf h (pack [(0, 32, r.rhold.toNat), (32, 32, r.hhold.toNat)]) v
  let rn : BitVec 32 := BitVec.ofNat 32 (fld w 0 32)
  let hn : BitVec 32 := BitVec.ofNat 32 (fld w 32 32)
  if s.holdOwner p ini && decide ((rn - r.rhold).toNat ≤ (r.rwidx - r.rhold).toNat) &&
      decide ((hn - r.hhold).toNat ≤ (r.hwidx - r.hhold).toNat) then
    s.modRing p fun r => { r with rhold := rn, hhold := hn }
  else s.ingRefuse

def execHoldWrite (p : Fin 4) (ini : Initiator) (h : Half) (v : Word) (s : State) : Answer := .next (s.holdWrite p ini h v)

/-- Slots of a writer frame that belong to partition `p`. -/
def slotsOf (m : BitVec 128) (p : Fin 4) : Nat := ((List.range 64).filter fun i => fld m (2 * i) 2 = p.val).length

/-- Whether both safety paths have the 8 slots of R395. -/
def slotsSafe (m : BitVec 128) : Bool := decide (8 ≤ slotsOf m 0) && decide (8 ≤ slotsOf m 1)

/-- Bytes written to SLOTMAP; they take effect at the next frame (R125). Armed, the safety paths keep their slots
(R396). -/
def State.slotmapWrite (s : State) (ini : Ini) (off : Nat) (data : List Byte) : State :=
  let m := (stage32 (s.ing.slotmap.setWidth 256) off data).setWidth 128
  if !ingOwner ini || (s.armed && !slotsSafe m) then s.ingRefuse
  else s.modIng fun g => { g with slotmap := m }

def execSlotmapWrite (ini : Initiator) (off : Nat) (data : List Byte) (s : State) : Answer :=
  inRange s (bytesIn off data 16) (s.slotmapWrite ini off data)

/-! ### Injection (R126) -/

def injBase (w : BitVec 256) : Nat := fld w 96 32
def injSensor (w : BitVec 256) : Fin 16 := Fin.ofNat 16 (fld w 128 4)
def injDom (w : BitVec 256) : Bool := bit w 132
def injStag (w : BitVec 256) : Nat := fld w 136 8
def injSeqOf (w : BitVec 256) : BitVec 32 := BitVec.ofNat 32 (fld w 224 32)

/-- Reserved encodings of an injection descriptor. -/
def injBad (w : BitVec 256) : Bool :=
  decide (fld w 48 16 ≠ 0) || decide (injSrc w % 16 ≠ 0) || !between 1 (injN w) (2 ^ 24) || decide (fld w 133 3 ≠ 0) ||
    decide (fld w 144 80 ≠ 0)

/-- Whether an initiator may write INJQ[p]: host PF0, or a core or DMA engine of partition `p`. -/
def State.injOwner (s : State) (p : Fin 4) (ini : Ini) : Bool := decide (ini = 0x60) || decide (s.srcPart ini = some p)

/-- Bytes written to INJQ[p]; covering bytes 0x1C to 0x1F submits the descriptor. -/
def State.injqWrite (s : State) (p : Fin 4) (ini : Ini) (off : Nat) (data : List Byte) : State :=
  if !s.injOwner p ini then s.post 0x4021 0x58
  else
    let w := stage32 s.ing.injStage[p] off data
    let s := s.modIng fun g => { g with injStage := g.injStage.set p w }
    if !covers off data.length 0x1C 0x1F then s
    else if injBad w || !s.ddr.admitsAll (ringWho p) false (injSrc w) (16 * injN w) || sensEn s.ing.sens[injSensor w] ||
        decide (16 ≤ s.ing.injq[p].length) then s.post 0x4021 0x58
    else s.modIng fun g => { g with injq := g.injq.set p (g.injq[p] ++ [w]) }

def execInjqWrite (p : Fin 4) (ini : Initiator) (off : Nat) (data : List Byte) (s : State) : Answer :=
  inRange s (bytesIn off data 32) (s.injqWrite p ini off data)

/-- What an injected sweep has read and written so far. -/
structure InjRun where
  /-- The next record of the descriptor. -/
  next  : Nat
  count : Nat
  drop  : Nat
  first : BitVec 32
  /-- toff of the last record of the descriptor. -/
  toff  : Nat

/-- An injected record: GOLDEN cleared, TRUNC set as R122 says, the rest unchanged (R126). -/
def injRecord (bs : List Byte) (trunc : Bool) : List Byte :=
  let f := (bs.getD 11 0) &&& 0xEF
  bs.take 11 ++ (if trunc then f ||| 0x80 else f) :: bs.drop 12

/-- One injected record read under the partition's right and appended to the ring, or dropped. -/
def State.injOne (s : State) (p : Fin 4) (w : BitVec 256) (x : InjRun) : State × InjRun :=
  let i := x.next
  let x := { x with next := i + 1 }
  let drop (s : State) (x : InjRun) : State × InjRun :=
    let n := injSensor w
    let s := s.modSens n fun y => { y with cnt := { y.cnt with drop := y.cnt.drop + 1 } }
    (if x.drop = 0 then s.ingPost 0x4011 (2 ^ p.val) else s, { x with drop := x.drop + 1 })
  match s.ddrRead (ringWho p) (injSrc w + 16 * i) 16 with
  | (s, none) => drop s x
  | (s, some bs) =>
    let x := { x with toff := leNat ((bs.drop 12).take 2) }
    let r := s.ing.ring[p]
    if r.suspended || decide (2 ^ 24 ≤ (r.rwidx - r.rhold).toNat) then drop s x
    else
      let s := s.ddrPut (ringWho p) (r.recordAt r.rwidx.toNat) (injRecord bs (decide (x.drop ≠ 0)))
      (s.modRing p fun r => { r with rwidx := r.rwidx + 1 },
        { x with count := x.count + 1, first := if x.count = 0 then r.rwidx else x.first })

/-- An injection goes on until its records are written: in each writer slot that R125 gives to ring `p`, the ring's own
staged burst where it has one, else up to four injected records; the other rings have the other slots. -/
def State.injSlots (p : Fin 4) (w : BitVec 256) : Nat → State × InjRun → State × InjRun
  | 0, a => a
  | fuel + 1, (s, x) =>
    if injN w ≤ x.next then (s, x)
    else
      let pick := s.ing.serve fun q => s.ing.ring[q].ready || decide (q = p)
      let s := s.modIng fun g => g.nextSlot pick
      match pick with
      | none => (s, x)
      | some (q, _) =>
        if s.ing.ring[q].ready then State.injSlots p w fuel (s.ringBurst q 4, x)
        else State.injSlots p w fuel
          ((List.range (min 4 (injN w - x.next))).foldl (fun a _ => a.1.injOne p w a.2) (s, x))

/-- Slots that suffice for an injection: its own bursts in 64-slot frames, and every staged item. -/
def IngState.injFuel (g : IngState) (w : BitVec 256) : Nat :=
  64 * (injN w + (g.ring.toList.map fun r => r.stage.length).foldl (· + ·) 0 + 1)

/-- An injected sweep in an enabled ring: not started without a header, else records and then the INJ header. -/
def State.injSweep (s : State) (p : Fin 4) (w : BitVec 256) : State :=
  let s := if s.ing.ring[p].suspended && s.ringReleased p then s.modRing p fun r => { r with suspended := false } else s
  let r := s.ing.ring[p]
  if !r.on then s
  else if 4096 ≤ (r.hwidx - r.hhold).toNat + r.opened then
    (s.modSens (injSensor w) fun y => { y with cnt := { y.cnt with drop := y.cnt.drop + injN w } }).ingPost 0x4013 (2 ^ p.val)
  else
    let (s, x) := State.injSlots p w (s.ing.injFuel w) (s, ⟨0, 0, 0, r.rwidx, 0⟩)
    s.putHeader p (headerBytes (injBase w) (sweepHid true false false (decide (x.drop ≠ 0)) (injSensor w).val) (injStag w)
      (injDom w) x.first.toNat x.count x.drop 0 0 0 (4000 * x.toff))

/-- The oldest descriptor of queue `p` is carried out; INJSTAT takes its SEQ. -/
def State.injExecute (s : State) (p : Fin 4) : State :=
  match s.ing.injq[p] with
  | [] => s
  | w :: rest =>
    let s := s.modIng fun g => { g with injq := g.injq.set p rest }
    (s.injSweep p w).modIng fun g => { g with injSeq := g.injSeq.set p (injSeqOf w) }

def execInjectionExecute (p : Fin 4) (s : State) : Answer := .next (s.injExecute p)

/-! ### Single faults (R129) -/

/-- Whether sensor `n` uses a word of an ingest table. -/
def IngState.uses (g : IngState) (n : Fin 16) : IngTable → Bool
  | .tpl t => decide (sensTpl g.sens[n] = t)
  | .beam t => decide (sensTpl g.sens[n] = t)
  | .sens m => decide (m = n)
  | .ext m => decide (m = n)
  | .dup m => decide (m = n)

/-- The rings of every enabled sensor that uses the word. -/
def IngState.usedRings (g : IngState) (w : IngTable) : Nat :=
  (List.finRange 16).foldl (fun a n => if sensEn g.sens[n] && g.uses n w then a ||| sensRings g.sens[n] else a) 0

/-- A sensor disabled by the block itself: its open sweep closes (R120). -/
def State.sensDisable (s : State) (n : Fin 16) : State :=
  let s := (s.sweepClose n false).sweepClose n true
  s.modIng fun g => { g with sens := g.sens.set n (setBit g.sens[n] 0 false) }

/-- The next burst of ring `p`'s staging buffer is lost by parity; the closes in it are kept. Gauntlet learns of it when
RINGS of a sensor concerned names P0 or P1: the sensors of the records lost, or those of `more` (R129). -/
def State.burstLost (s : State) (p : Fin 4) (more : Nat) : State :=
  let st := s.ing.ring[p].stage
  let closes := (st.take 4).filter fun i => match i with | .close _ => true | .record _ _ => false
  let rings := (st.take 4).foldl (fun a i => match i with
    | .close _ => a
    | .record id _ => match s.ing.sweep id with | some w => a ||| sensRings s.ing.sens[w.sensor] | none => a) more
  (s.modRing p fun r => { r with stage := closes ++ st.drop 4 }).ingPost 0x4032 rings

/-- The rings of every enabled sensor that feeds ring `p`. -/
def IngState.feeding (g : IngState) (p : Fin 4) : Nat :=
  g.sens.toList.foldl (fun a e => if sensEn e && (sensRings e).testBit p.val then a ||| sensRings e else a) 0

/-- What a storage fault of ingest does. -/
def State.ingFault (s : State) (f : IngFault) : State :=
  match f with
  | .single w => s.ingPost 0x4030 (s.ing.usedRings w)
  | .double w =>
    let rings := s.ing.usedRings w
    let s := (List.finRange 16).foldl (fun t n =>
      if sensEn t.ing.sens[n] && t.ing.uses n w then t.sensDisable n else t) s
    s.ingPost 0x4031 rings
  | .fifo p =>
    match s.ing.port[p].fifo with
    | .frame _ :: rest => (s.modPort p fun q => { q with fifo := rest }).ingPost 0x4032 (s.ing.portRings p)
    | _ => s
  | .staging p => if s.ing.ring[p].stage.isEmpty then s else s.burstLost p 0
  | .ringReg p => s.burstLost p (s.ing.feeding p)

def execIngestEccError (f : IngFault) (s : State) : Answer := .next (s.ingFault f)

end Sys2Proof.Machine
end

