-- ==== Sys2Proof/Machine/Cloche.lean ====
section
/-! DEFINITION. Cloche's measuring (chapter 19): start, seal, parameters, tapped frames, captures, readings, records and
faults (R439 to R453, R455, R457, R459). Its commands stand in Machine/CloCommands.lean. -/

namespace Sys2Proof.Machine

def State.modClo (s : State) (f : CloState → CloState) : State := { s with clo := f s.clo }

/-- Cloche's event. -/
def State.cloPost (s : State) (code : Nat) : State := s.postPart code 0x72 none

/-! ### Installation parameters (R443, R444) -/

/-- Size of a parameter block; 0 for a number that names none. -/
def cloSize (b : Nat) : Nat :=
  if b = 0 then 64
  else if between 0x10 b 0x13 then 32
  else if between 0x20 b 0x23 then 64
  else if between 0x30 b 0x33 then 1024
  else if between 0x40 b 0x43 then 64
  else 0

/-- The block numbers, ascending. -/
def cloBlocks : List Nat :=
  [0, 0x10, 0x11, 0x12, 0x13, 0x20, 0x21, 0x22, 0x23, 0x30, 0x31, 0x32, 0x33, 0x40, 0x41, 0x42, 0x43]

/-- The bytes of a block; bytes never written are 0. -/
def blockBytes (m : SMap (List Byte)) (b : Nat) : List Byte :=
  let l := SMap.get [] m b
  (l ++ List.replicate (cloSize b - l.length) 0).take (cloSize b)

/-- Bytes as a 64-byte record, and as a 32-byte entry. -/
def recOf (bs : List Byte) : Rec64 := recStore 0 0 bs

/-- `n` bytes at `o` of a block, as a number. -/
def genField (g : List Byte) (o n : Nat) : Nat := leNat ((g.drop o).take n)

def gBelt (g : List Byte) : Bool := (genField g 0 1).testBit 0
def gPorts (g : List Byte) : Nat := genField g 1 1
def gNswp (g : List Byte) : Nat := genField g 2 1
def gMinpts (g : List Byte) : Nat := genField g 3 1
def gE (g : List Byte) : Nat := genField g 4 2
def gNx (g : List Byte) : Nat := genField g 6 2
def gNy (g : List Byte) : Nat := genField g 8 2
def gRetmax (g : List Byte) : Nat := genField g 0xA 1
def gEncdir (g : List Byte) : Bool := (genField g 0xB 1).testBit 0
def gOrigin (g : List Byte) (i : Nat) : Int := toSigned 32 (genField g (0xC + 4 * i) 4)
def gEmptymax (g : List Byte) : Nat := genField g 0x18 4
def gPitch (g : List Byte) : Nat := genField g 0x1C 4

/-- The limits of GEN. -/
def genOk (g : List Byte) : Bool :=
  decide (genField g 0 1 < 2) && decide (gPorts g < 16) && between 1 (gNswp g) 64 && between 1 (gMinpts g) 255 &&
    between 10 (gE g) 200 && between 1 (gNx g) 1024 && (!gBelt g || decide (gNx g = 1)) && between 1 (gNy g) 1024 &&
    decide (genField g 0xB 1 < 2) && (g.drop 0x20).all (· == 0)

/-- The limits and reserved fields of a block. -/
def blockOk (b : Nat) (l : List Byte) : Bool :=
  if b = 0 then genOk l
  else if between 0x10 b 0x13 then
    let w := (recOf l).setWidth 256
    decide (w &&& sensMask = w) && decide (sensRings w = 0)
  else if between 0x20 b 0x23 then tplOk (recOf l)
  else if between 0x30 b 0x33 then true
  else decide (recOf l &&& extMask = recOf l)

/-- PHASH over every effective block. -/
def cloPhash (m : SMap (List Byte)) : List Byte := sha256 (cloBlocks.flatMap (blockBytes m))

/-- Sensor entry, template, beam entry and extrinsic of sensor `k`. -/
def cSens (m : SMap (List Byte)) (k : Fin 4) : BitVec 256 := (recOf (blockBytes m (0x10 + k.val))).setWidth 256
def cTpl (m : SMap (List Byte)) (k : Fin 4) : Rec64 := recOf (blockBytes m (0x20 + k.val))
def cBeam (m : SMap (List Byte)) (k : Fin 4) (b : Nat) : BitVec 32 :=
  BitVec.ofNat 32 (leNat (((blockBytes m (0x30 + k.val)).drop (4 * b)).take 4))
def cExt (m : SMap (List Byte)) (k : Fin 4) : Rec64 := recOf (blockBytes m (0x40 + k.val))

/-- The parameters in use: a capture's own, else the effective ones. -/
def CloState.params (x : CloState) : SMap (List Byte) := match x.cap with | some c => c.blocks | none => x.blocks

/-- The ports tapped follow GEN.PORTS of the parameters in use (R128). -/
def State.tapPorts (s : State) : State :=
  let g := blockBytes s.clo.params 0
  s.modIng fun i => { i with port := Vector.ofFn fun p : Fin 4 => { i.port[p] with clo := s.clo.on && (gPorts g).testBit p.val } }

/-! ### Audit log (R445) -/

/-- The bytes of an audit entry. -/
def auditBytes (evcnt : BitVec 32) (kind block : Nat) (time : Word) (old new : List Byte) : List Byte :=
  let body := leBytes 4 evcnt.toNat ++ leBytes 1 kind ++ leBytes 1 block ++ [0, 0] ++ leBytes 8 time.toNat ++
    old.take 16 ++ new.take 16 ++ List.replicate 12 0
  body ++ leBytes 4 (crc32 body).toNat

/-- An entry joins the log. -/
def CloState.addAudit (x : CloState) (kind block : Nat) (old new : List Byte) : CloState :=
  { x with audit := (auditBytes x.evcnt kind block x.lastTime old new :: x.audit).take 1024 }

/-- 16 bytes of 0. -/
def noHash : List Byte := List.replicate 16 0

/-! ### Start and seal (R441, R442) -/

/-- The image in flash. -/
def CloState.imageBytes (x : CloState) : List Byte := x.image.getD Config.cloImage

/-- Whether the parameters are valid: no block lost, and GEN within its limits. -/
def CloState.paramsOk (x : CloState) : Bool := x.lost.isEmpty && genOk (blockBytes x.blocks 0)

/-- A channel after a restart: a command in progress is lost. -/
def CloChan.restart (c : CloChan) : CloChan := { c with exec := false, mute := false }

/-- Cloche as it starts from its flash: SRAM empty, CLO_CNT and CLO_REC at reset, parameters and reference valid when
their copies are. -/
def CloState.start (x : CloState) (badRef fault : Bool) : CloState :=
  let nofw := x.imageBad || !Config.cloImageOk x.imageBytes
  { x with
    on := true, nofw := nofw, fault := fault
    pvalid := !nofw && x.paramsOk
    refValid := x.refValid && !badRef
    staged := [], phash := cloPhash x.blocks, map := [], mapCells := 0, cap := none
    track := Vector.replicate 4 CloTrack.reset, slots := Vector.replicate 16 [], chA := x.chA.restart, chB := x.chB.restart
    tokB := false, cmdref := 0, cecc := 0, ndropf := 0, fwStage := [], enc := 0 }

/-- A start of Cloche. -/
def State.cloStart (s : State) (badRef fault : Bool) : State :=
  let s := ((s.modClo fun x => x.start badRef fault).modIng fun g => { g with tap := [] }).tapPorts
  if s.clo.nofw then s.cloPost 0x8030 else s

/-- Both copies of a parameter block fail: what it holds is free (R441). -/
def State.loseBlock (s : State) (b : Nat) : State :=
  let d := s.drawBytes (cloSize b)
  d.2.modClo fun x => { x with blocks := SMap.insert b d.1 x.blocks, lost := if x.lost.contains b then x.lost else x.lost ++ [b] }

/-- Cloche's start at VDD_CLO power-good, with CLO_STAT and the channels at reset. `lost` are the parameter blocks, in ascending
order of number, whose two copies fail. -/
def State.cloPowerGood (s : State) (lost : List (Fin 17)) (badRef : Bool) : State :=
  let s := (lost.map fun i => cloBlocks.getD i.val 0).foldl State.loseBlock s
  (s.modClo fun x => { x with queue := [], chA := CloChan.reset, chB := CloChan.reset, lastRes := 0 }).cloStart badRef false

def execClocheStart (lost : List (Fin 17)) (badRef : Bool) (s : State) : Answer := .next (s.cloPowerGood lost badRef)

/-- A debounced change of CLO_SEAL_N. -/
def State.sealChange (s : State) (isOpen : Bool) : State :=
  if !s.clo.on || s.clo.sealOpen == isOpen then s
  else
    let s := (s.cloPost (if isOpen then 0x8003 else 0x8004)).raise true 2
    s.modClo fun x =>
      let x := { x with sealOpen := isOpen, staged := if isOpen then x.staged else [] }
      { (x.addAudit (if isOpen then 3 else 4) 0 noHash noHash) with
        cap := x.cap.map fun c => { c with sealOpen := c.sealOpen || isOpen } }

def execSealChange (isOpen : Bool) (s : State) : Answer := .next (s.sealChange isOpen)

/-! ### Readings (R447, R448, R450) -/

/-- Whether a cell is defined in a capture: enough points, and for a reading a reference. -/
def cellOk (g : List Byte) (ref : Option (SMap Int)) (k : Nat) (n : Nat) : Bool :=
  decide (gMinpts g ≤ n) && (match ref with | some r => decide (SMap.get refUndef r k ≠ refUndef) | none => true)

/-- Defined cells of a map. -/
def defCells (g : List Byte) (ref : Option (SMap Int)) (cells : SMap (Int × Nat)) : List (Nat × Int × Nat) :=
  cells.filter fun e => cellOk g ref e.1 e.2.2

/-- Number of cells. -/
def gCells (g : List Byte) : Nat := gNx g * gNy g

/-- D of a map (R448). -/
def cloDepth (g : List Byte) (ref : SMap Int) (cells : SMap (Int × Nat)) : Nat :=
  (defCells g (some ref) cells).foldl (fun d e =>
    let num : Int := 10 * e.2.1 - SMap.get refUndef ref e.1 * e.2.2
    if 0 < num then d + num.toNat * 2 ^ 22 / e.2.2 else d) 0

/-- VOL of a static capture. -/
def cloVolume (g : List Byte) (d : Nat) : Int := d * (gE g * gE g) / 2 ^ 22

/-- VOL of a belt run. -/
def beltVolume (g : List Byte) (b : Int) : Int := (b * gE g * gPitch g).fdiv (2 ^ 46)

/-- Quotient rounded to the nearest integer, ties away from zero. -/
def divAway (x : Int) (n : Nat) : Int :=
  let q : Int := ((2 * x.natAbs + n) / (2 * n) : Nat)
  if x < 0 then -q else q

/-- A new reference from a capture (R450). -/
def newRef (g : List Byte) (cells : SMap (Int × Nat)) : SMap Int :=
  (defCells g none cells).map fun e => (e.1, divAway (10 * e.2.1) e.2.2)

/-! ### Records (R451 to R453) -/

/-- What a record says beyond the capture. -/
structure Reading where
  type  : Nat
  vol   : Int
  enct  : Int
  ndef  : Nat
  nempty : Nat
  empty : Bool
  incomplete : Bool
  aborted : Bool

/-- STATUS (R452). -/
def cloStatus (c : CloCap) (r : Reading) : Nat :=
  ofBool c.sealOpen + 2 * ofBool r.empty + 4 * ofBool (decide (0 < c.ndrop)) + 8 * ofBool r.incomplete + 16 * ofBool c.encErr +
    32 * ofBool c.timex + 64 * ofBool (decide (r.vol < 0)) + 128 * ofBool r.aborted

/-- The body of a record. -/
def recordBody (x : CloState) (c : CloCap) (r : Reading) (rseq zseq : Word) : List Byte :=
  leBytes 1 r.type ++ [0] ++ leBytes 2 (cloStatus c r) ++ leBytes 4 c.evcnt.toNat ++ leBytes 8 rseq.toNat ++
    leBytes 8 zseq.toNat ++ leBytes 8 (c.tstart.getD 0).toNat ++ leBytes 8 c.tend.toNat ++ leBytes 8 (wrapN 64 r.vol) ++
    leBytes 8 (wrapN 64 r.enct) ++ leBytes 4 c.npts ++ leBytes 4 c.ndrop ++ leBytes 4 r.ndef ++ leBytes 4 r.nempty ++
    (List.range 16).map (Config.cloSwid x.imageBytes) ++ c.phash ++ leBytes 4 c.nout ++ [0, 0, 0, 0]

/-- A record is formed and signed; the signature's salt is random, so its bytes are free. It waits to be written. -/
def State.cloRecord (s : State) (c : CloCap) (r : Reading) (zseq : Word) : State :=
  let n := s.clo.rseq + 1
  let d := s.drawBytes 384
  d.2.modClo fun x => { x with rseq := n, queue := x.queue ++ [(n, recordBody x c r n zseq ++ d.1)] }

/-- The record at the head of the queue is written: flash, CLO_REC, event 0x8002 and vector 1 of PF1. -/
def State.cloRecordWrite (s : State) : State :=
  match s.clo.queue with
  | [] => s
  | (n, bytes) :: rest =>
    let s := s.modClo fun x => { x with
      queue := rest, recs := ((n, bytes) :: x.recs).take 1024, slots := x.slots.set (Fin.ofNat 16 n.toNat) bytes }
    (s.cloPost 0x8002).raise true 1

def execCloRecordWrite (s : State) : Answer := .next s.cloRecordWrite

/-! ### Sweeps and points (R446 to R448) -/

/-- Whether domain A is in doubt (TIMEX). -/
def State.aInDoubt (s : State) : Bool :=
  decide (s.tb.dom[(0 : Fin 2)].state ≠ .locked) && decide (s.tb.dom[(0 : Fin 2)].state ≠ .follow)

/-- The capture changed. -/
def CloState.modCap (x : CloState) (f : CloCap → CloCap) : CloState := { x with cap := x.cap.map f }

def CloState.modTrack (x : CloState) (k : Fin 4) (f : CloTrack → CloTrack) : CloState :=
  { x with track := x.track.set k (f x.track[k]) }

/-- Encoder counts with the direction of the parameters. -/
def encDir (g : List Byte) (d : Int) : Int := if gEncdir g then -d else d

/-- A belt profile closes: its D, with its counts (R448). -/
def CloCap.closeProfile (c : CloCap) (ref : SMap Int) : CloCap :=
  let g := blockBytes c.blocks 0
  let nd := (defCells g (some ref) c.cells).length
  let ne := gCells g - nd
  { c with
    profile := some (cloDepth g ref c.cells : Int), cells := []
    ndef := c.ndef + nd, nempty := c.nempty + ne, empty := c.empty || decide (gEmptymax g < ne) }

/-- The open sweep of sensor `k` closes. -/
def CloState.sweepClose (x : CloState) (k : Fin 4) : CloState :=
  let t := x.track[k]
  let x := x.modTrack k fun t => { t with base := none, inCap := false }
  if t.inCap then
    x.modCap fun c =>
      let c : CloCap := { c with closed := c.closed.set k (c.closed[k] + 1) }
      if c.kind = 2 then c.closeProfile x.ref else c
  else x

/-- A sweep of sensor `k` starts at `time`; a capture takes NSWP of them, a belt run all of sensor 0. The travel of a closed
profile is known now. -/
def CloState.sweepOpen (x : CloState) (k : Fin 4) (time : BitVec 32) : CloState :=
  let joins := match x.cap with
    | some c => if c.kind = 2 then decide (k = 0) else decide (c.begun[k] < gNswp (blockBytes c.blocks 0))
    | none => false
  let x := x.modTrack k fun t => { t with base := some time, inCap := joins }
  if joins then
    x.modCap fun c =>
      let d := encDir (blockBytes c.blocks 0) (x.enc - c.latch)
      { c with
        begun := c.begun.set k (c.begun[k] + 1)
        belt := match c.profile with | some a => c.belt + a * d | none => c.belt
        profile := none, latch := if k = 0 then x.enc else c.latch }
  else x

/-- One converted point enters the map, or counts as NOUT (R446, R447). -/
def CloCap.enter (c : CloCap) (p : Point) (ret : Nat) : CloCap :=
  let g := blockBytes c.blocks 0
  let dz := p.z - gOrigin g 2
  let i := (p.x - gOrigin g 0).fdiv (gE g)
  let j := (p.y - gOrigin g 1).fdiv (gE g)
  if gRetmax g < ret ∨ dz < -32768 ∨ 32767 < dz ∨ i < 0 ∨ (gNx g : Int) ≤ i ∨ j < 0 ∨ (gNy g : Int) ≤ j then
    { c with nout := c.nout + 1 }
  else
    let key := j.toNat * gNx g + i.toNat
    let v := SMap.get (0, 0) c.cells key
    if v.2 < 255 then { c with cells := SMap.insert key (v.1 + dz, v.2 + 1) c.cells, npts := c.npts + 1 } else c

/-- Whether the 262 ms limit closes a sweep (R119). -/
def cloTimeCut (base time : BitVec 32) : Bool :=
  let d := (time - base).toInt
  decide (0 ≤ d) && decide (65535 < (d.toNat + 2000) / 4000)

/-- A converted point of sensor `k`: the open sweep may close, one starts, and the point enters when its sweep belongs to
the capture. -/
def CloState.point (x : CloState) (k : Fin 4) (t : Rec64) (p : Point) (ret : Nat) (time : BitVec 32) : CloState :=
  let r := x.track[k]
  let cut := tScutEn t && (match r.lastA, p.az with
    | some l, some a => cutPassed (tScut t) l a
    | _, _ => false)
  let late := match r.base with | some b => cloTimeCut b time | none => false
  let x := if cut || late then x.sweepClose k else x
  let x := if x.track[k].base.isNone then x.sweepOpen k time else x
  let x := x.modTrack k fun t => { t with lastA := p.az }
  if x.track[k].inCap then x.modCap fun c => c.enter p ret else x

/-- One point of a tapped frame. -/
def CloState.framePoint (m : SMap (List Byte)) (k : Fin 4) (pay : List Byte) (stamp : Word) (x : CloState) (blk pt : Nat) :
    CloState :=
  let t := cTpl m k
  let f := fun n => fieldOf t pay n blk pt
  let beam := (f 4).getD pt
  if beam < 0 ∨ 255 < beam then x
  else
    let time : BitVec 32 := if tTsrc t then BitVec.ofInt 32 ((f 6).getD 0 * tTmul t) else stamp.setWidth 32
    match convert t (cExt m k) (cBeam m k beam.toNat) (f 0) (f 1) (f 2) (f 3) with
    | .ok p => x.point k t p (wrapN 64 ((f 5).getD 0)) time
    | _ => x

/-- A matched frame of sensor `k` (R113, R119, R120). -/
def CloState.frame (x : CloState) (k : Fin 4) (pay : List Byte) (stamp : Word) : CloState :=
  let m := x.params
  let t := cTpl m k
  if !tplOk t then x
  else
    let nb := min ((pay.length - tHdrlen t) / tBlklen t) (tNblk t)
    let f7 := if tHdrlen t ≤ pay.length then fieldOf t pay 7 0 0 else none
    let x := match f7 with
      | some v =>
        let x := if tFcntEn t && (match x.track[k].lastF7 with | some l => decide (l ≠ v) | none => false)
          then x.sweepClose k else x
        x.modTrack k fun r => { r with lastF7 := some v }
      | none => x
    (List.range nb).foldl (fun x blk => (List.range (tNpt t)).foldl (fun x pt => x.framePoint m k pay stamp blk pt) x) x

/-- Whether a frame is used by the capture: a sweep of its sensor in it is open after the frame, or its counts moved. -/
def CloState.used (old new : CloState) (k : Fin 4) : Bool :=
  match old.cap, new.cap with
  | some a, some b => new.track[k].inCap || decide (a.begun ≠ b.begun) || decide (a.npts ≠ b.npts) || decide (a.nout ≠ b.nout)
  | _, _ => false

/-- The sensor whose entry matches a datagram (R112). -/
def cloMatch (m : SMap (List Byte)) (p : Fin 4) (d : Datagram) : Option (Fin 4) :=
  (List.finRange 4).find? fun k =>
    let e := cSens m k
    sensEn e && decide (sensPort e = p.val) && decide (sensUdp e = d.dport) &&
      ((sensIp e).all (· == 0) || decide (sensIp e = d.src))

/-- The frame at the head of the tap is converted. -/
def State.cloTap (s : State) : State :=
  match s.ing.tap with
  | [] => s
  | (p, f) :: rest =>
    let s := s.modIng fun g => { g with tap := rest }
    if !s.clo.on || s.clo.nofw then s
    else
      let x := { s.clo with lastTime := f.stampA }
      let y := match parseFrame f.bytes with
        | .udp d => (match cloMatch x.params p d with
          | some k =>
            let y := x.frame k d.payload f.stampA
            if x.used y k then y.modCap fun c => { c with
              tstart := some (c.tstart.getD f.stampA), tend := f.stampA, timex := s.aInDoubt, lastAt := s.tb.cnt } else y
          | none => x)
        | _ => x
      { s with clo := y }

def execCloFrameTap (s : State) : Answer := .next s.cloTap

/-! ### Captures (R448, R450, R452, R455) -/

/-- Whether every enabled sensor has given its sweeps. -/
def CloCap.full (c : CloCap) : Bool :=
  (List.finRange 4).all fun k => !sensEn (cSens c.blocks k) || decide (gNswp (blockBytes c.blocks 0) ≤ c.closed[k])

/-- The capture ends; its map is kept for export. -/
def CloState.endCap (x : CloState) : CloState :=
  match x.cap with
  | none => x
  | some c => { x with
    cap := none, map := c.cells, mapCells := gCells (blockBytes c.blocks 0)
    track := x.track.map fun t => { t with inCap := false } }

/-- A static capture or a zeroing ends with its reading. -/
def State.capDone (s : State) (c : CloCap) : State :=
  let g := blockBytes c.blocks 0
  let ref := if c.kind = 3 then none else some s.clo.ref
  let nd := (defCells g ref c.cells).length
  let ne := gCells g - nd
  let empty := decide (gEmptymax g < ne)
  let s := s.modClo CloState.endCap
  if c.kind = 3 then
    let z := if empty then s.clo.zseq else s.clo.rseq + 1
    let s := if empty then s else s.modClo fun x => { x with ref := newRef g c.cells, refValid := true }
    (s.cloRecord c ⟨2, 0, 0, nd, ne, empty, false, false⟩ z).modClo fun x => { x with zseq := z }
  else s.cloRecord c ⟨1, cloVolume g (cloDepth g s.clo.ref c.cells), 0, nd, ne, empty, false, false⟩ s.clo.zseq

/-- A capture that ends without its sweeps: VOL 0, INCOMPLETE. -/
def State.capCut (s : State) (c : CloCap) (aborted : Bool) : State :=
  let g := blockBytes c.blocks 0
  let ref := if c.kind = 3 then none else some s.clo.ref
  let nd := (defCells g ref c.cells).length
  let ne := gCells g - nd
  (s.modClo CloState.endCap).cloRecord c
    ⟨if c.kind = 3 then 2 else 1, 0, 0, nd, ne, decide (gEmptymax g < ne), true, aborted⟩ s.clo.zseq

/-- A belt record: interim, or final when the run ends. -/
def State.beltRecord (s : State) (c : CloCap) (final cut aborted : Bool) : State :=
  let g := blockBytes c.blocks 0
  let s' := if final then s.modClo CloState.endCap else s
  s'.cloRecord c ⟨if final then 4 else 3, beltVolume g c.belt, encDir g (s.clo.enc - c.encStart), c.ndef, c.nempty, c.empty,
    cut, aborted⟩ s.clo.zseq

/-- A static capture has its sweeps. -/
def State.captureEnd (s : State) : State :=
  match s.clo.cap with
  | some c => if c.kind ≠ 2 && c.full then s.capDone c else s
  | none => s

def execCaptureEnd (s : State) : Answer := .next s.captureEnd

/-- A static capture lacks sweeps 2 s after its last frame. -/
def State.captureTimeout (s : State) : State :=
  match s.clo.cap with
  | some c =>
    if c.kind ≠ 2 && !c.full && decide (1000000000 ≤ (s.tb.cnt - c.lastAt).toNat) then s.capCut c false else s
  | none => s

def execCaptureTimeout (s : State) : Answer := .next s.captureTimeout

/-! ### Encoder (R457) -/

/-- The step of a quadrature sample: 1 when A leads B, -1 when B leads A, none when both change. -/
def quadStep (a b a' b' : Bool) : Option Int :=
  if a ≠ a' ∧ b ≠ b' then none
  else if a ≠ a' then some (if a' == b then -1 else 1)
  else if b ≠ b' then some (if a == b' then 1 else -1)
  else some 0

/-- An encoder sample. -/
def State.encoder (s : State) (a b : Bool) : State :=
  if !s.clo.on then s else s.modClo fun x =>
    let y := { x with encA := a, encB := b }
    match quadStep x.encA x.encB a b with
    | some d => { y with enc := x.enc + d }
    | none => y.modCap fun c : CloCap => if c.kind = 2 then { c with encErr := true } else c

def execEncoderCount (a b : Bool) (s : State) : Answer := .next (s.encoder a b)

/-! ### Faults (R459) -/

/-- The watchdog expires, or an uncorrectable error occurs: a capture ends with a record if one can still be signed, and
Cloche restarts. -/
def State.cloWatchdog (s : State) (canSign : Bool) : State :=
  if !s.clo.on then s
  else
    let s := match s.clo.cap with
      | some c => if canSign then (if c.kind = 2 then s.beltRecord c true true false else s.capCut c false) else s
      | none => s
    ((s.cloPost 0x8021).raise true 3).cloStart false true

def execCloWatchdog (canSign : Bool) (s : State) : Answer := .next (s.cloWatchdog canSign)

/-- A corrected SRAM error. -/
def execCloSramCorrect (s : State) : Answer :=
  .next (if !s.clo.on then s else (s.modClo fun x => { x with cecc := satAdd 0xFFFF x.cecc 1 }).cloPost 0x8020)

end Sys2Proof.Machine
end

