-- ==== Sys2Proof/Machine/Float.lean ====
section
/-! DEFINITION. Binary floating point by exact arithmetic on dyadic numbers, rounded once to nearest even (R15): the
formats FP8 E4M3 and E5M2, BF16, FP16, FP32 and FP64, with add, multiply, fused multiply-add, divide, square root,
compare and conversion. -/

namespace Sys2Proof.Machine

/-- A binary format: exponent bits, fraction bits. `ieee` says that the top exponent holds infinities and NaNs; a
format without it (E4M3) has a single NaN pattern per sign, all ones, and no infinity. -/
structure Fmt where
  ebits : Nat
  mbits : Nat
  ieee  : Bool
  deriving DecidableEq, Repr

def fp8e4m3 : Fmt := ⟨4, 3, false⟩
def fp8e5m2 : Fmt := ⟨5, 2, true⟩
def bf16 : Fmt := ⟨8, 7, true⟩
def fp16 : Fmt := ⟨5, 10, true⟩
def fp32 : Fmt := ⟨8, 23, true⟩
def fp64 : Fmt := ⟨11, 52, true⟩

/-- Bits of a format. -/
def Fmt.width (f : Fmt) : Nat := 1 + f.ebits + f.mbits

/-- Exponent bias. -/
def Fmt.bias (f : Fmt) : Nat := 2 ^ (f.ebits - 1) - 1

/-- The exponent of the unit in the last place of the smallest numbers. -/
def Fmt.emin (f : Fmt) : Int := 1 - (f.bias : Int) - f.mbits

/-- A value: not a number, an infinity, or sign and m · 2^e. -/
inductive FV where
  | nan
  | inf (neg : Bool)
  | fin (neg : Bool) (m : Nat) (e : Int)
  deriving DecidableEq, Repr

/-- Positive zero. -/
def FV.zero : FV := .fin false 0 0

/-- The value of a bit pattern. -/
def Fmt.decode (f : Fmt) (w : Nat) : FV :=
  let neg := (w / 2 ^ (f.ebits + f.mbits)) % 2 = 1
  let ex := (w / 2 ^ f.mbits) % 2 ^ f.ebits
  let fr := w % 2 ^ f.mbits
  if f.ieee ∧ ex = 2 ^ f.ebits - 1 then (if fr = 0 then .inf neg else .nan)
  else if !f.ieee ∧ ex = 2 ^ f.ebits - 1 ∧ fr = 2 ^ f.mbits - 1 then .nan
  else if ex = 0 then .fin neg fr f.emin
  else .fin neg (fr + 2 ^ f.mbits) (f.emin + ex - 1)

/-- m · 2^e rounded to a multiple of 2^q, to nearest with ties to even: the multiple. -/
def rneAt (m : Nat) (e q : Int) : Nat :=
  if q ≤ e then m * 2 ^ (e - q).toNat
  else
    let k := (q - e).toNat
    let d := m / 2 ^ k
    let r := m % 2 ^ k
    let half := 2 ^ (k - 1)
    if r < half then d else if half < r then d + 1 else if d % 2 = 0 then d else d + 1

/-- Number of bits of a natural number. -/
def bitLen (n : Nat) : Nat := if n = 0 then 0 else Nat.log2 n + 1

/-- The exponent of the last place that a format keeps of m · 2^e. -/
def Fmt.ulpExp (f : Fmt) (m : Nat) (e : Int) : Int := max f.emin (e + bitLen m - (f.mbits + 1))

/-- Largest finite value: its significand and exponent. -/
def Fmt.maxFin (f : Fmt) : Nat × Int :=
  if f.ieee then (2 ^ (f.mbits + 1) - 1, f.emin + (2 ^ f.ebits - 3))
  else (2 ^ (f.mbits + 1) - 2, f.emin + (2 ^ f.ebits - 2))

/-- Whether m · 2^e exceeds M · 2^E. -/
def dyadicLt (m1 : Nat) (e1 : Int) (m2 : Nat) (e2 : Int) : Bool :=
  if e1 ≤ e2 then decide (m1 < m2 * 2 ^ (e2 - e1).toNat) else decide (m1 * 2 ^ (e1 - e2).toNat < m2)

/-- A value rounded to a format: to nearest even, an overflow to infinity, or to NaN in a format without one. -/
def Fmt.round (f : Fmt) (v : FV) : FV :=
  match v with
  | .fin neg m e =>
    if m = 0 then .fin neg 0 f.emin
    else
      let q := f.ulpExp m e
      let r := rneAt m e q
      let mx := f.maxFin
      if dyadicLt mx.1 mx.2 r q then (if f.ieee then .inf neg else .nan) else .fin neg r q
  | v => v

/-- Clamp a finite value to the format's largest magnitude before it is rounded (a saturating conversion). -/
def Fmt.clampMax (f : Fmt) (v : FV) : FV :=
  let mx := f.maxFin
  match v with
  | .fin neg m e => if dyadicLt mx.1 mx.2 m e then .fin neg mx.1 mx.2 else v
  | .inf neg => .fin neg mx.1 mx.2
  | .nan => .nan

/-- The canonical quiet NaN of a format. -/
def Fmt.nanBits (f : Fmt) : Nat :=
  if f.ieee then (2 ^ f.ebits - 1) * 2 ^ f.mbits + 2 ^ (f.mbits - 1) else 2 ^ (f.ebits + f.mbits) - 1

/-- The bit pattern of a value, rounded to the format first. -/
def Fmt.encode (f : Fmt) (v : FV) : Nat :=
  match f.round v with
  | .nan => f.nanBits
  | .inf neg => (if neg then 2 ^ (f.ebits + f.mbits) else 0) + (2 ^ f.ebits - 1) * 2 ^ f.mbits
  | .fin neg m e =>
    let s := if neg then 2 ^ (f.ebits + f.mbits) else 0
    if m = 0 then s
    else
      -- write m as a significand at the place the format keeps
      let q := f.ulpExp m e
      let r := rneAt m e q
      if r < 2 ^ f.mbits then s + r else s + ((q - f.emin).toNat + 1) * 2 ^ f.mbits + (r - 2 ^ f.mbits)

/-- Negation. -/
def FV.neg : FV → FV
  | .nan => .nan
  | .inf s => .inf !s
  | .fin s m e => .fin (!s) m e

/-- Magnitude. -/
def FV.abs : FV → FV
  | .nan => .nan
  | .inf _ => .inf false
  | .fin _ m e => .fin false m e

/-- Signed significand. -/
def sgn (neg : Bool) (m : Nat) : Int := if neg then -(m : Int) else m

/-- Exact sum; an exact zero from opposite signs is +0. -/
def FV.add (a b : FV) : FV :=
  match a, b with
  | .nan, _ => .nan
  | _, .nan => .nan
  | .inf s, .inf t => if s = t then .inf s else .nan
  | .inf s, _ => .inf s
  | _, .inf t => .inf t
  | .fin s m e, .fin t n g =>
    if m = 0 ∧ n = 0 then .fin (s && t) 0 0
    else
      let q := min e g
      let x : Int := sgn s (m * 2 ^ (e - q).toNat) + sgn t (n * 2 ^ (g - q).toNat)
      if x = 0 then .fin false 0 0 else .fin (decide (x < 0)) x.natAbs q

/-- Exact product. -/
def FV.mul (a b : FV) : FV :=
  match a, b with
  | .nan, _ => .nan
  | _, .nan => .nan
  | .inf s, .inf t => .inf (s ^^ t)
  | .inf s, .fin t n _ => if n = 0 then .nan else .inf (s ^^ t)
  | .fin s m _, .inf t => if m = 0 then .nan else .inf (s ^^ t)
  | .fin s m e, .fin t n g => .fin (s ^^ t) (m * n) (e + g)

/-- A quotient with 80 bits and a sticky bit below them, so that one rounding gives the rounded exact quotient. -/
def FV.quot (a b : FV) : FV :=
  match a, b with
  | .nan, _ => .nan
  | _, .nan => .nan
  | .inf _, .inf _ => .nan
  | .inf s, .fin t _ _ => .inf (s ^^ t)
  | .fin s _ _, .inf t => .fin (s ^^ t) 0 0
  | .fin s m e, .fin t n g =>
    if n = 0 then (if m = 0 then .nan else .inf (s ^^ t))
    else
      let k := 80 + bitLen n
      let x := m * 2 ^ k
      .fin (s ^^ t) (2 * (x / n) + (if x % n = 0 then 0 else 1)) (e - g - k - 1)

/-- A square root with a sticky bit. -/
def FV.sqrt (a : FV) : FV :=
  match a with
  | .nan => .nan
  | .inf s => if s then .nan else .inf false
  | .fin s m e =>
    if m = 0 then .fin s 0 e
    else if s then .nan
    else
      let e2 := if e % 2 = 0 then e else e - 1
      let m2 := if e % 2 = 0 then m else 2 * m
      let x := m2 * 2 ^ 160
      let r := Nat.sqrt x
      .fin false (2 * r + (if r * r = x then 0 else 1)) (e2 / 2 - 80 - 1)

/-- Order of two values: none when either is a NaN. -/
def FV.lt? (a b : FV) : Option Bool :=
  match a, b with
  | .nan, _ => none
  | _, .nan => none
  | .inf s, .inf t => some (s && !t)
  | .inf s, _ => some s
  | _, .inf t => some !t
  | .fin s m e, .fin t n g =>
    let q := min e g
    some (decide (sgn s (m * 2 ^ (e - q).toNat) < sgn t (n * 2 ^ (g - q).toNat)))

/-- a < b, false when either is a NaN. -/
def FV.lt (a b : FV) : Bool := (a.lt? b).getD false

/-- Numerically equal; NaN equals nothing, +0 equals -0. -/
def FV.eq (a b : FV) : Bool :=
  match a.lt? b, b.lt? a with
  | some false, some false => true
  | _, _ => false

/-- The exact value of an integer. -/
def FV.ofInt (x : Int) : FV := .fin (decide (x < 0)) x.natAbs 0

/-- Rounded to nearest with ties away from zero, as an integer (R15); none for NaN and infinities. -/
def FV.toIntAway : FV → Option Int
  | .fin s m e =>
    let n := if 0 ≤ e then m * 2 ^ e.toNat
      else let k := (-e).toNat; (m + 2 ^ (k - 1)) / 2 ^ k
    some (sgn s n)
  | _ => none

/-- Rounded towards minus infinity, as an integer. -/
def FV.floor : FV → Option Int
  | .fin s m e => some (if 0 ≤ e then sgn s (m * 2 ^ e.toNat) else (sgn s m).fdiv (2 ^ (-e).toNat))
  | _ => none

def FV.isNan : FV → Bool
  | .nan => true
  | _ => false

def FV.isFinite : FV → Bool
  | .fin _ _ _ => true
  | _ => false

def FV.isZero : FV → Bool
  | .fin _ m _ => decide (m = 0)
  | _ => false

def FV.isNeg : FV → Bool
  | .nan => false
  | .inf s => s
  | .fin s _ _ => s

/-- Arithmetic in a format: the exact result rounded once. -/
def Fmt.add (f : Fmt) (a b : FV) : FV := f.round (a.add b)
def Fmt.sub (f : Fmt) (a b : FV) : FV := f.round (a.add b.neg)
def Fmt.mul (f : Fmt) (a b : FV) : FV := f.round (a.mul b)
def Fmt.fma (f : Fmt) (a b c : FV) : FV := f.round ((a.mul b).add c)
def Fmt.div (f : Fmt) (a b : FV) : FV := f.round (a.quot b)
def Fmt.sqrt (f : Fmt) (a : FV) : FV := f.round a.sqrt

end Sys2Proof.Machine
end

