-- ==== Sys2Proof/Machine/CrnClass.lean ====
section
/-! DEFINITION. Crown's priority classes (R461): what makes each class ready, which commands wait for which, and the
management work that waits its turn. -/

namespace Sys2Proof.Machine

/-- Whether Crown's firmware runs, with the I/O die up. -/
def State.crownRuns (s : State) : Bool := decide (s.crn.mode = .running) && decide (s.pwr.mode = .run)

/-- Class 1: a Sync that a servo has yet to follow, a power-loop period of 1 ms or a thermal-loop period of 10 ms that has
ended. -/
def State.loopsReady (s : State) : Bool :=
  s.tb.servo.toList.any (fun v => !v.due.isEmpty) || decide (500000 ≤ (s.tb.cnt - s.crn.loopAt).toNat) ||
    decide (5000000 ≤ (s.tb.cnt - s.crn.thermAt).toNat)

/-- Class 2: a routed event to log, events lost before it, or a repair record that flash takes. -/
def State.faultsReady (s : State) : Bool :=
  !s.evt.crownQ.isEmpty || decide (s.evt.crownLost ≠ 0) || (!s.flt.repairQ.isEmpty && s.crn.update.isNone)

/-- Class 3: a request of the host or of SMBus. -/
def State.requestsReady (s : State) : Bool := !s.crn.pcie.queue.isEmpty || !s.crn.smb.queue.isEmpty

/-- Class 4: management work that waits. -/
def State.mgmtReady (s : State) : Bool := !s.crn.mgmtQ.isEmpty

/-- Whether a class is ready. -/
def State.classReady (s : State) : CrnClass → Bool
  | .loops => s.loopsReady
  | .faults => s.faultsReady
  | .requests => s.requestsReady
  | .management => s.mgmtReady
  | .telemetry => false

/-- The classes above one. -/
def CrnClass.above : CrnClass → List CrnClass
  | .loops => []
  | .faults => [.loops]
  | .requests => [.loops, .faults]
  | .management => [.loops, .faults, .requests]
  | .telemetry => [.loops, .faults, .requests, .management]

/-- Whether a task of class `k` may run: no class above it is ready. The rule binds Crown's firmware; the ROM in recovery
knows no classes. -/
def State.serves (s : State) (k : CrnClass) : Bool := !s.crownRuns || k.above.all fun j => !s.classReady j

end Sys2Proof.Machine
end

