-- ==== Sys2Proof/Machine/Operands.lean ====
section
/-! DEFINITION. The fields of a Dvoryth instruction word, which of them each opcode uses and which are reserved
(R42 to R44), and reading and writing scalar registers (R39). -/

namespace Sys2Proof.Machine

/-- Fields of an instruction word (the table "The instruction word"). -/
def opOpc (w : Word) : Nat := fld w 56 8
def opPn  (w : Word) : Bool := bit w 55
def opPf  (w : Word) : Nat := fld w 52 3
def opD   (w : Word) : Nat := fld w 47 5
def opA   (w : Word) : Nat := fld w 42 5
def opB   (w : Word) : Nat := fld w 37 5
def opX   (w : Word) : Nat := fld w 32 5
def opImm (w : Word) : Nat := fld w 0 32

/-- Bit `i` of the X field. -/
def opXbit (w : Word) (i : Nat) : Bool := bit w (32 + i)

/-- IMM as a signed 32-bit number. -/
def opSimm (w : Word) : Int := sfld w 0 32

/-- sext(IMM) (R44). -/
def opSext (w : Word) : Word := BitVec.ofInt 64 (opSimm w)

/-- What an opcode uses of a field: as a register, as a flag number, or not at all. -/
inductive Use where
  | none | reg | flag
  deriving DecidableEq, Repr

/-- Which fields an instruction may carry non-zero: D, A, B, and the bits of X and of IMM. `fdst` says that D names
a flag destination, which must not be f0 (R39). -/
structure Shape where
  d    : Use
  a    : Use
  b    : Use
  x    : Nat
  imm  : Nat
  fdst : Bool
  deriving DecidableEq, Repr

/-- All 32 bits of IMM. -/
def immAll : Nat := 0xFFFFFFFF

/-- The fields used by the instruction word `w`; none for an opcode that R44 does not list. -/
def shapeOf (w : Word) : Option Shape :=
  let o := opOpc w
  let x0 := opXbit w 0
  if o ≤ 0x0E then some ⟨.reg, .reg, .reg, 0, 0, false⟩
  else if o = 0x0F then some ⟨.reg, .reg, .none, 0, 0, false⟩
  else if 0x18 ≤ o ∧ o ≤ 0x1A then some ⟨.reg, .reg, .none, 0, 0x3F, false⟩
  else if 0x10 ≤ o ∧ o ≤ 0x1E then some ⟨.reg, .reg, .none, 0, immAll, false⟩
  else if o = 0x20 then some ⟨.reg, .reg, .none, 7, immAll, false⟩
  else if o = 0x21 then some ⟨.none, .reg, .reg, 3, immAll, false⟩
  else if o = 0x22 ∨ o = 0x23 then some ⟨.reg, .none, .none, 0, immAll, false⟩
  else if o = 0x24 then some ⟨.reg, .none, .none, 0, 0xFF, false⟩
  else if o = 0x25 then some ⟨.none, .none, .none, 0, 0, false⟩
  else if 0x30 ≤ o ∧ o ≤ 0x36 then
    some (if x0 then ⟨.flag, .reg, .none, 1, immAll, true⟩ else ⟨.flag, .reg, .reg, 1, 0, true⟩)
  else if 0x38 ≤ o ∧ o ≤ 0x3B then some ⟨.flag, .flag, .flag, 0, 0, true⟩
  else if o = 0x3C then some ⟨.reg, .flag, .none, 0, 0, false⟩
  else if o = 0x40 then
    some (if x0 then ⟨.none, .none, .none, 1, immAll, false⟩ else ⟨.none, .reg, .none, 1, 0xFFF00000, false⟩)
  else if o = 0x41 ∨ o = 0x42 then some ⟨.none, .none, .none, 0, immAll, false⟩
  else if o = 0x43 ∨ o = 0x44 ∨ o = 0x46 then some ⟨.none, .none, .none, 0, 0, false⟩
  else if o = 0x45 then
    some (if x0 then ⟨.none, .none, .none, 1, 0xFF, false⟩ else ⟨.none, .reg, .none, 1, 0, false⟩)
  else if o = 0x47 then some ⟨.none, .none, .none, 0, 0x7F, false⟩
  else if o = 0x50 then some ⟨.none, .reg, .none, 1, 0xFFF, false⟩
  else if o = 0x51 then some ⟨.flag, .reg, .none, 1, 0x1F0FFF, true⟩
  else if o = 0x52 ∨ o = 0x55 then some ⟨.none, .reg, .reg, 0, 0x1FF, false⟩
  else if o = 0x53 then some ⟨.flag, .reg, .reg, 0, 0x1F01FF, true⟩
  else if o = 0x54 then some ⟨.reg, .reg, .none, 0, 0x1FF, false⟩
  else if o = 0x56 then some ⟨.none, .reg, .reg, 0, 0, false⟩
  else if o = 0x60 then some ⟨.reg, .reg, .reg, 0, 0x3F, false⟩
  else if o = 0x61 then some ⟨.none, .none, .none, 0, 0x3F, false⟩
  else if o = 0x70 then some ⟨.none, .none, .none, 0, 0xFF, false⟩
  else if 0x80 ≤ o ∧ o ≤ 0x86 then some ⟨.reg, .reg, .reg, 0, 0xFF00001F, false⟩
  else none

/-- Whether a five-bit field holds what its use allows (R43). -/
def Use.allows (u : Use) (v : Nat) : Bool :=
  match u with
  | .none => decide (v = 0)
  | .reg => true
  | .flag => decide (v < 8)

/-- No reserved opcode, no non-zero reserved field, no f0 as flag destination, and for MOVS a listed special value
(R39, R43, R44, R46). -/
def encodingOk (w : Word) : Bool :=
  match shapeOf w with
  | none => false
  | some sh =>
    sh.d.allows (opD w) && sh.a.allows (opA w) && sh.b.allows (opB w) &&
      decide (opX w &&& sh.x = opX w) && decide (opImm w &&& sh.imm = opImm w) &&
      !(sh.fdst && decide (opD w = 0)) &&
      !(decide (opOpc w = 0x24) && decide (0x0E < opImm w))

/-- Scalar register `r`; s0 reads as 0 (R39). -/
def SeqState.reg (q : SeqState) (r : Nat) : Word :=
  if r = 0 then 0 else q.regs[Fin.ofNat 32 r]

/-- Write scalar register `r`; writes to s0 are discarded (R39). -/
def SeqState.setReg (q : SeqState) (r : Nat) (v : Word) : SeqState :=
  if r = 0 then q else { q with regs := q.regs.set (Fin.ofNat 32 r) v }

/-- The register operands of a word. -/
def SeqState.srcA (q : SeqState) (w : Word) : Word := q.reg (opA w)
def SeqState.srcB (q : SeqState) (w : Word) : Word := q.reg (opB w)
def SeqState.srcD (q : SeqState) (w : Word) : Word := q.reg (opD w)

/-- The second operand of a compare: sext(IMM) when X[0] = 1, else B. -/
def SeqState.cmpRhs (q : SeqState) (w : Word) : Word := if opXbit w 0 then opSext w else q.srcB w

/-- Scratchpad address of LD and ST: A + sext(IMM), modulo 2^64 (R47, R45). -/
def SeqState.narrowAddr (q : SeqState) (w : Word) : Nat := (q.srcA w + opSext w).toNat

/-- Access size of LD and ST in bytes (R47). -/
def narrowSize (w : Word) : Nat := 2 ^ fld w 32 2

/-- Tag number of TSET and TWAIT: A + IMM[11:0] (R59). -/
def SeqState.tagNo (q : SeqState) (w : Word) : Nat := (q.srcA w).toNat + fld w 0 12

/-- Sync object number of SIG, SWAIT, SRD and SSET: A + IMM[8:0] (R59). -/
def SeqState.syncNo (q : SeqState) (w : Word) : Nat := (q.srcA w).toNat + fld w 0 9

/-- The two-operand arithmetic of opcodes 0x00 to 0x0E, numbered as the opcode map numbers them (R44, R45). -/
def alu (o : Nat) (a b : Word) : Word :=
  match o with
  | 0x0 => a + b
  | 0x1 => a - b
  | 0x2 => a * b
  | 0x3 => BitVec.ofNat 64 (a.toNat * b.toNat / 2 ^ 64)
  | 0x4 => BitVec.ofInt 64 ((a.toInt * b.toInt).fdiv (2 ^ 64))
  | 0x5 => a &&& b
  | 0x6 => a ||| b
  | 0x7 => a ^^^ b
  | 0x8 => a <<< fld b 0 6
  | 0x9 => a >>> fld b 0 6
  | 0xA => a.sshiftRight (fld b 0 6)
  | 0xB => if a.toInt ≤ b.toInt then a else b
  | 0xC => if a.toInt ≤ b.toInt then b else a
  | 0xD => if a.toNat ≤ b.toNat then a else b
  | _ => if a.toNat ≤ b.toNat then b else a

/-- Number of leading zero bits of a word, 0 to 64: 64 less the length of its binary form. -/
def clz (a : Word) : Nat := if a = 0 then 64 else 63 - Nat.log2 a.toNat

end Sys2Proof.Machine
end

