-- ==== Sys2Proof/Machine/Flags.lean ====
section
/-! DEFINITION. Flags f0 to f7: reading (f0 reads as 1), writing, the predicate of an instruction, and every
computation of a flag (R39, R42, R44). -/

namespace Sys2Proof.Machine

/-- Flag `n`; f0 reads as 1 (R39). -/
def SeqState.flag (q : SeqState) (n : Nat) : Bool := if n = 0 then true else bit q.flags n

/-- Write flag `n`. A word that names f0 as destination is refused before it gets here (R39). -/
def SeqState.setFlag (q : SeqState) (n : Nat) (b : Bool) : SeqState :=
  if n = 0 then q else { q with flags := setBit q.flags n b }

/-- An instruction executes if f[PF] XOR PN = 1 (R42). -/
def SeqState.executes (q : SeqState) (w : Word) : Bool := q.flag (opPf w) ^^ opPn w

/-- The compares of opcodes 0x30 to 0x36, by the opcode's low four bits. -/
def compare (o : Nat) (a b : Word) : Bool :=
  match o with
  | 0 => decide (a = b)
  | 1 => decide (a ≠ b)
  | 2 => decide (a.toInt < b.toInt)
  | 3 => decide (a.toNat < b.toNat)
  | 4 => decide (a.toInt ≤ b.toInt)
  | 5 => decide (a.toNat ≤ b.toNat)
  | _ => decide (a &&& b ≠ 0)

/-- The flag logic of opcodes 0x38 to 0x3B, by the opcode's low two bits. -/
def flagLogic (o : Nat) (a b : Bool) : Bool :=
  match o with
  | 0 => a && b
  | 1 => a || b
  | 2 => a ^^ b
  | _ => a && !b

end Sys2Proof.Machine
end

