-- ==== Sys2Proof/Machine/TaskOps.lean ====
section
/-! DEFINITION. How a task ends: the status block, the fence of a core and the failures of R74, and the launch slots
that end with them (R74, R100, R105, R106, R422). -/

namespace Sys2Proof.Machine

/-- The task's launch record. -/
def CoreSt.record (k : CoreSt) : Rec64 := k.spd.slots[k.seq.slot].record

/-- CSYNC of a launch record: the sync object when CSEN = 1 (R102). -/
def recCsync (r : Rec64) : Option Nat :=
  if fld r (8 * 0x14 + 15) 1 = 1 then some (fld r (8 * 0x14) 9) else none

/-- The completion signal a launch record asks for. -/
def State.signalRecord (s : State) (c : CoreId) (r : Rec64) : State :=
  match recCsync r with
  | some n => s.syncAdd c n 1
  | none => s

/-- A launch slot ends: status block, then CSYNC, then DONE (R106). LCLK and LTIME belong to a task that ran. -/
def State.slotDone (s : State) (c : CoreId) (i : Fin 4) (status : Nat) (ran signal : Bool) : State :=
  let slot := s.cores[c].spd.slots[i]
  let slot' : LaunchSlot := { slot with
    state := .done
    status := BitVec.ofNat 8 status
    lclk := if ran then s.cores[c].seq.clk else slot.lclk
    ltime := if ran then s.domTime 0 else slot.ltime }
  let s := s.modSpd c fun p => { p with slots := p.slots.set i slot' }
  if signal then s.signalRecord c slot.record else s

/-- A geometry side that sends nothing more: what its engines had under way is dropped. -/
def GeoCore.quiet (g : GeoCore) : GeoCore := { g with outq := [], rayq := [], asks := [], answers := [], rayDue := [] }

/-- A geometry side without a grid, as GREL leaves it too; its counters keep their values (R40, R155). -/
def GeoCore.noGrid (g : GeoCore) : GeoCore :=
  { g with gid := 0, st := 0, desc := 0, table := [], lcount := 0, posted := 0, marks := [], exchanged := none, spl := [] }

/-- Engines with nothing queued or started. -/
def CoreSt.clearEngines (k : CoreSt) : CoreSt :=
  { k with engines := Vector.replicate 7 EngState.reset, geo := k.geo.quiet, vec := { k.vec with stbase := none } }

/-- Commands not yet started leave the engines' queues (R74 step 2). -/
def CoreSt.dropQueued (k : CoreSt) : CoreSt := { k with engines := k.engines.map fun e => { e with queue := [] } }

/-- Operations in flight: queued and started (R23, R70). -/
def CoreSt.inFlight (k : CoreSt) : Nat :=
  (k.engines.toList.map fun e => e.queue.length + e.active.length).foldl (· + ·) 0

/-- Whether some engine command is still started. -/
def CoreSt.anyStarted (k : CoreSt) : Bool := k.engines.toList.any fun e => !e.active.isEmpty

/-- Whether a status reports a fault of the core's own storage or logic (R74 step 3). -/
def isFaultStatus (st : Nat) : Bool := decide (0x89 ≤ st) && decide (st ≤ 0x8C)

/-- The task of `c` ends with this status: Cuff flushed, status written, CSYNC signalled, slot DONE (R57, R74
steps 4 and 5, R82, R106). A hardware status posts its event. -/
def State.finishTask (s : State) (c : CoreId) (status : Nat) : State :=
  let i := s.cores[c].seq.slot
  let s := s.modSpd c SpdState.flushAll
  let s := s.slotDone c i status true true
  let s := s.modCore c fun k => { k.clearEngines with seq := { k.seq with phase := .idle } }
  if 0x80 ≤ status ∧ status ≤ 0xBF then s.postCore c (0x1000 + status) else s

/-- The other launch slots of a core that a fence ends: every PENDING slot and, while no task has started, the one
taken (R422). -/
def CoreSt.slotsToEnd (k : CoreSt) : List (Fin 4) :=
  (List.finRange 4).filter fun i =>
    decide (k.spd.slots[i].state = .pending) || (decide (k.seq.phase = .preparing) && decide (k.seq.slot = i))

/-- What waits for banks that will not be prepared: the writes are lost, as to banks without power (R94), and the signals
that waited behind them are applied. -/
def SpdState.dropHeld (p : SpdState) : SpdState :=
  { p with
    held := []
    sync := p.held.foldl (fun y h => match h with
      | .write _ _ _ => y
      | .signal _ n v => SMap.set 0 y n (SMap.get 0 y n + v)) p.sync }

/-- A preparation stops: no task will start. -/
def CoreSt.stopPreparing (k : CoreSt) : CoreSt :=
  if k.seq.phase = .preparing then { k with seq := { k.seq with phase := .idle }, spd := k.spd.dropHeld } else k

/-- A core fences itself: FLT_CFENCE, event 0x60A0 + n, and its PENDING and taken slots end with status 0x93, each
with its CSYNC and event 0x1093 (R422, R436). -/
def State.fenceCore (s : State) (c : CoreId) : State :=
  if bit s.flt.fenced c.val then s else
    let s := { s with flt := { s.flt with
      fenced := setBit s.flt.fenced c.val true
      fences := match s.flt.bind[c] with
        | some q => (q, s.tb.cnt) :: s.flt.fences
        | none => s.flt.fences } }
    let s := s.postPart (0x60A0 + c.val) 0xC5 none
    let ends := s.cores[c].slotsToEnd
    let s := s.modCore c CoreSt.stopPreparing
    ends.foldl (fun t i => (t.slotDone c i 0x93 false true).postCore c 0x1093) s

/-- A channel that stops at once: its list ends with END = 0b11, DCH_CUR names the descriptor in progress (R319,
R322). -/
def DmaChan.halt (x : DmaChan) : DmaChan := { x with busy := false, stop := false, endc := 3, phase := .idle, next := .none, prog := DmaProg.zero }

/-- The RUNs that a core's task has started stop at once (R74, R319). -/
def State.haltRuns (s : State) (c : CoreId) : State :=
  { s with dma := { s.dma with cores := s.dma.cores.set c (s.dma.cores[c].map fun x => if x.busy && !x.reg then x.halt else x) } }

/-- Every started command of a core stops at once (R74 step 3). -/
def State.stopEngines (s : State) (c : CoreId) : State := (s.haltRuns c).modCore c CoreSt.clearEngines

/-- A slot whose task is being prepared ends with a fault status of its core: no task ran, CSYNC is signalled, the event
posted and the core fenced (R74, R100, R108, R422). -/
def State.failPreparing (s : State) (c : CoreId) (status : Nat) : State :=
  let i := s.cores[c].seq.slot
  ((((s.modCore c CoreSt.stopPreparing).slotDone c i status false true).postCore c (0x1000 + status))).fenceCore c

/-- The sequencer ends its task with a failure status (R74). A fault status stops started commands, replaces an
earlier non-fault failure and fences the core; another failure lets started commands finish. -/
def State.failTask (s : State) (c : CoreId) (status : Nat) : State :=
  let k := s.cores[c]
  match k.seq.phase with
  | .idle => s
  | .preparing => s
  | .ending _ =>
    if isFaultStatus status then ((s.stopEngines c).finishTask c status).fenceCore c else s
  | _ =>
    if isFaultStatus status then ((s.stopEngines c).finishTask c status).fenceCore c
    else
      let s := s.modCore c CoreSt.dropQueued
      if s.cores[c].anyStarted then
        (s.modSpd c SpdState.flushAll).modSeq c fun q => { q with phase := .ending (BitVec.ofNat 8 status) }
      else s.finishTask c status

/-- Every task and slot of a core ends with status 0x93, as a path fence or a partition restart ends them: no
completion signal and no event (R425 step 4, R426). -/
def State.endHeldCore (s : State) (c : CoreId) : State :=
  let k := s.cores[c]
  let taken : List (Fin 4) := (List.finRange 4).filter fun i =>
    decide (k.spd.slots[i].state = .pending) || decide (k.spd.slots[i].state = .running)
  let ran : Bool := decide (k.seq.phase ≠ .idle ∧ k.seq.phase ≠ .preparing)
  let s := taken.foldl (fun t i => t.slotDone c i 0x93 (ran && decide (k.seq.slot = i)) false) s
  s.modCore c fun k => { k.clearEngines with
    seq := { k.seq with phase := .idle }, spd := k.spd.dropHeld }

end Sys2Proof.Machine
end

