-- ==== Sys2Proof/Machine/Sequencer.lean ====
section
/-! DEFINITION. The Dvoryth instructions (chapter 02). A command names the core and what its storage does on the
fetch; the word comes from the core's IMEM at its program counter. A command whose instruction is not the one that
stands there, or whose sequencer is not ready for an instruction, changes nothing. -/

namespace Sys2Proof.Machine

/-- Words of an IMEM (R41). -/
def imemWords : Nat := 32768

/-- The word at the program counter. -/
def CoreSt.word (k : CoreSt) : Word := SMap.get 0 k.imem k.seq.pc

/-! ### Moving on: the loop-end check (R52) -/

/-- Innermost loop first: where a body ends at the word just executed the count falls, and either the loop goes
round again or it closes and the next loop out is checked. DESIGN CHOICE (log entry 175): while the innermost open loop ends
elsewhere, as in a called routine, no loop further out is looked at. -/
def loopEnd : List LoopLevel → Nat → List LoopLevel × Nat
  | [], pc => ([], pc + 1)
  | l :: ls, pc =>
    if l.stop = pc then
      if l.count ≤ 1 then loopEnd ls pc else ({ l with count := l.count - 1 } :: ls, l.start)
    else (l :: ls, pc + 1)

/-- The sequencer after the word at position `at` of the present loops has executed. -/
def SeqState.passed (q : SeqState) (pos : Nat) : SeqState :=
  let r := loopEnd q.loops pos
  { q with loops := r.1, pc := r.2, phase := .running }

/-- The sequencer past its own instruction. -/
def SeqState.advance (q : SeqState) : SeqState := q.passed q.pc

/-- Core `c` changed by `f`, then past its instruction. -/
def State.seqNext (s : State) (c : CoreId) (f : SeqState → SeqState) : State := s.modSeq c fun q => (f q).advance

/-- The sequencer blocks. -/
def State.seqWait (s : State) (c : CoreId) (w : SeqWait) : State := s.modSeq c fun q => { q with phase := .waiting w }

/-! ### Fetch (R42, R43, R50, R53, R75) -/

/-- Control transfers that must not stand last in a loop body (R53): LOOP, BR, CALL, RET, LBRK, HALT. -/
def notLast (o : Nat) : Bool := decide (0x40 ≤ o ∧ o ≤ 0x45)

/-- Whether the word at the pc is the last of the innermost open loop's body. -/
def SeqState.atLoopEnd (q : SeqState) : Bool :=
  match q.loops with
  | l :: _ => decide (l.stop = q.pc)
  | [] => false

/-- What a fetch of core `c` leads to: the ending of the task, or the word to execute. -/
inductive Fetched where
  | fail (status : Nat)
  | word (w : Word)
  deriving DecidableEq, Repr

/-- The fetch of a running sequencer: storage faults, the end of IMEM, reserved encodings (also under a false
predicate) and R53, in this order, which the spec does not give (DESIGN CHOICE, log entry 4). -/
def CoreSt.fetch (k : CoreSt) (flt : FetchFault) : Fetched :=
  if flt = .parity then .fail 0x8A
  else if k.seq.pc ≥ imemWords then .fail 0x82
  else if flt = .imemDouble then .fail 0x89
  else if !encodingOk k.word then .fail 0x81
  else if k.seq.atLoopEnd && notLast (opOpc k.word) then .fail 0x82
  else .word k.word

/-- A single-bit IMEM error corrected, counted and posted (R75). -/
def State.imemCorrected (s : State) (c : CoreId) (flt : FetchFault) : State :=
  if flt = .imemSingle ∧ s.cores[c].seq.pc < imemWords then
    (s.modCore c fun k => { k with imemCe := k.imemCe + 1 }).postCore c 0x1020
  else s

/-- One instruction of core `c` whose opcode satisfies `mine`: nothing where another instruction stands at the pc;
a false predicate passes it by (R42); otherwise `body`. A parity error on a read, that of an engine's queue entry
among them, ends the task also while its sequencer waits or the task is ending (R74, R75; log entry 174). -/
def State.seqStep (s : State) (c : CoreId) (flt : FetchFault) (mine : Nat → Bool)
    (body : Word → State → State) : State :=
  let k := s.cores[c]
  if k.seq.phase = .running then
    match k.fetch flt with
    | .fail st => (s.imemCorrected c flt).failTask c st
    | .word w =>
      if mine (opOpc w) then
        let s := s.imemCorrected c flt
        if k.seq.executes w then body w s else s.seqNext c id
      else s
  else if flt = .parity then s.failTask c 0x8A
  else s

/-- An instruction that only changes sequencer registers and flags. -/
def State.seqPure (s : State) (c : CoreId) (flt : FetchFault) (o : Nat) (f : Word → SeqState → SeqState) : Answer :=
  .next (s.seqStep c flt (· == o) fun w t => t.seqNext c (f w))

/-! ### Scalar arithmetic and logic (R44, R45) -/

/-- D := A op B. -/
def aluReg (o : Nat) (w : Word) (q : SeqState) : SeqState := q.setReg (opD w) (alu o (q.srcA w) (q.srcB w))

/-- D := A op sext(IMM). -/
def aluImm (o : Nat) (w : Word) (q : SeqState) : SeqState := q.setReg (opD w) (alu o (q.srcA w) (opSext w))

def execAdd (c : CoreId) (flt : FetchFault) (s : State) : Answer := s.seqPure c flt 0x00 (aluReg 0x0)
def execSub (c : CoreId) (flt : FetchFault) (s : State) : Answer := s.seqPure c flt 0x01 (aluReg 0x1)
def execMul (c : CoreId) (flt : FetchFault) (s : State) : Answer := s.seqPure c flt 0x02 (aluReg 0x2)
def execMulhu (c : CoreId) (flt : FetchFault) (s : State) : Answer := s.seqPure c flt 0x03 (aluReg 0x3)
def execMulhs (c : CoreId) (flt : FetchFault) (s : State) : Answer := s.seqPure c flt 0x04 (aluReg 0x4)
def execAnd (c : CoreId) (flt : FetchFault) (s : State) : Answer := s.seqPure c flt 0x05 (aluReg 0x5)
def execOr (c : CoreId) (flt : FetchFault) (s : State) : Answer := s.seqPure c flt 0x06 (aluReg 0x6)
def execXor (c : CoreId) (flt : FetchFault) (s : State) : Answer := s.seqPure c flt 0x07 (aluReg 0x7)
def execShl (c : CoreId) (flt : FetchFault) (s : State) : Answer := s.seqPure c flt 0x08 (aluReg 0x8)
def execShr (c : CoreId) (flt : FetchFault) (s : State) : Answer := s.seqPure c flt 0x09 (aluReg 0x9)
def execSar (c : CoreId) (flt : FetchFault) (s : State) : Answer := s.seqPure c flt 0x0A (aluReg 0xA)
def execMin (c : CoreId) (flt : FetchFault) (s : State) : Answer := s.seqPure c flt 0x0B (aluReg 0xB)
def execMax (c : CoreId) (flt : FetchFault) (s : State) : Answer := s.seqPure c flt 0x0C (aluReg 0xC)
def execMinu (c : CoreId) (flt : FetchFault) (s : State) : Answer := s.seqPure c flt 0x0D (aluReg 0xD)
def execMaxu (c : CoreId) (flt : FetchFault) (s : State) : Answer := s.seqPure c flt 0x0E (aluReg 0xE)

/-- CLZ: the number of leading zero bits of A. -/
def execClz (c : CoreId) (flt : FetchFault) (s : State) : Answer :=
  s.seqPure c flt 0x0F fun w q => q.setReg (opD w) (BitVec.ofNat 64 (clz (q.srcA w)))

def execAddi (c : CoreId) (flt : FetchFault) (s : State) : Answer := s.seqPure c flt 0x10 (aluImm 0x0)
def execSubi (c : CoreId) (flt : FetchFault) (s : State) : Answer := s.seqPure c flt 0x11 (aluImm 0x1)
def execMuli (c : CoreId) (flt : FetchFault) (s : State) : Answer := s.seqPure c flt 0x12 (aluImm 0x2)
def execMulhui (c : CoreId) (flt : FetchFault) (s : State) : Answer := s.seqPure c flt 0x13 (aluImm 0x3)
def execMulhsi (c : CoreId) (flt : FetchFault) (s : State) : Answer := s.seqPure c flt 0x14 (aluImm 0x4)
def execAndi (c : CoreId) (flt : FetchFault) (s : State) : Answer := s.seqPure c flt 0x15 (aluImm 0x5)
def execOri (c : CoreId) (flt : FetchFault) (s : State) : Answer := s.seqPure c flt 0x16 (aluImm 0x6)
def execXori (c : CoreId) (flt : FetchFault) (s : State) : Answer := s.seqPure c flt 0x17 (aluImm 0x7)
def execShli (c : CoreId) (flt : FetchFault) (s : State) : Answer := s.seqPure c flt 0x18 (aluImm 0x8)
def execShri (c : CoreId) (flt : FetchFault) (s : State) : Answer := s.seqPure c flt 0x19 (aluImm 0x9)
def execSari (c : CoreId) (flt : FetchFault) (s : State) : Answer := s.seqPure c flt 0x1A (aluImm 0xA)
def execMini (c : CoreId) (flt : FetchFault) (s : State) : Answer := s.seqPure c flt 0x1B (aluImm 0xB)
def execMaxi (c : CoreId) (flt : FetchFault) (s : State) : Answer := s.seqPure c flt 0x1C (aluImm 0xC)
def execMinui (c : CoreId) (flt : FetchFault) (s : State) : Answer := s.seqPure c flt 0x1D (aluImm 0xD)
def execMaxui (c : CoreId) (flt : FetchFault) (s : State) : Answer := s.seqPure c flt 0x1E (aluImm 0xE)

/-- LI: D := sext(IMM). -/
def execLi (c : CoreId) (flt : FetchFault) (s : State) : Answer :=
  s.seqPure c flt 0x22 fun w q => q.setReg (opD w) (opSext w)

/-- LIH: D[63:32] := IMM, the low half unchanged. -/
def execLih (c : CoreId) (flt : FetchFault) (s : State) : Answer :=
  s.seqPure c flt 0x23 fun w q => q.setReg (opD w) (setFld (q.srcD w) 32 32 (opImm w))

/-! ### Narrow scratchpad access (R47, R48) -/

/-- Whether LD or ST of `n` bytes at `a` is in range: below 8 MiB, inside one line, in a powered bank. -/
def SpdState.narrowOk (p : SpdState) (a n : Nat) : Bool :=
  decide (a < spdBytes) && decide (a % 256 + n ≤ 256) && p.powered a

/-- A corrected single-bit scratchpad error: CECC and event 0x1120 (R108). -/
def State.spdCorrected (s : State) (c : CoreId) : State :=
  (s.modSpd c fun p => { p with cecc := satAdd 0xFFFF p.cecc 1 }).postCore c 0x1120

/-- The value LD delivers: sign-extended when X[2] = 1. -/
def loadValue (w : Word) (bs : List Byte) : Word :=
  let v := leNat bs
  if opXbit w 2 then BitVec.ofInt 64 (toSigned (8 * narrowSize w) v) else BitVec.ofNat 64 v

/-- LD at the pc: out of range ends the task with 0x88; an empty slot blocks; otherwise the load, with what ECC
finds in the words read. -/
def State.load (s : State) (c : CoreId) (ecc : EccFault) (w : Word) : State :=
  let k := s.cores[c]
  let a := k.seq.narrowAddr w
  if !k.spd.narrowOk a (narrowSize w) then s.failTask c 0x88
  else if !k.spd.mayRead (a / 256) then s.seqWait c .lineTag
  else match ecc with
    | .double => s.failTask c 0x8B
    | e =>
      let s := if e = .single then s.spdCorrected c else s
      s.seqNext c fun q => q.setReg (opD w) (loadValue w (k.spd.narrowRead a (narrowSize w)))

/-- ST at the pc: out of range ends the task with 0x88; a full slot blocks; otherwise the low bytes of B go to the
Cuff. -/
def State.narrowStore (s : State) (c : CoreId) (w : Word) : State :=
  let k := s.cores[c]
  let a := k.seq.narrowAddr w
  if !k.spd.narrowOk a (narrowSize w) then s.failTask c 0x88
  else if !k.spd.mayWrite (a / 256) then s.seqWait c .lineTag
  else
    let bs := leBytes (narrowSize w) (k.seq.srcB w).toNat
    (s.modSpd c fun p => p.narrowWrite a bs 7).seqNext c id

def execLd (c : CoreId) (flt : FetchFault) (ecc : EccFault) (s : State) : Answer :=
  .next (s.seqStep c flt (· == 0x20) fun w t => t.load c ecc w)

def execSt (c : CoreId) (flt : FetchFault) (s : State) : Answer :=
  .next (s.seqStep c flt (· == 0x21) fun w t => t.narrowStore c w)

/-- TAG_WAIT_RESUME: an LD or ST blocked on a slot is retried once the slot's state has changed (R89). -/
def State.retryLine (s : State) (c : CoreId) : State :=
  let k := s.cores[c]
  if k.seq.phase = .waiting .lineTag then
    if opOpc k.word = 0x20 then s.load c .none k.word else s.narrowStore c k.word
  else s

/-! ### Special values (R46) -/

/-- Remaining count of open loop level `n`, level 0 the innermost; 0 if it is not open. -/
def SeqState.loopCount (q : SeqState) (n : Nat) : Nat := match q.loops[n]? with | some l => l.count | none => 0

/-- Free entries in each engine queue, 7 bits per engine. -/
def CoreSt.freeEntries (k : CoreSt) : Word :=
  pack ((List.finRange 7).map fun e => (7 * e.val, 7, 64 - k.engines[e].queue.length))

/-- The special value that MOVS returns for IMM[7:0] = `n`. -/
def State.special (s : State) (c : CoreId) (n : Nat) : Word :=
  let k := s.cores[c]
  let q := k.seq
  match n with
  | 0x00 => BitVec.ofNat 64 c.val
  | 0x01 => BitVec.ofNat 64 (s.partOf c).val
  | 0x02 => BitVec.ofNat 64 (4 * c.val + q.slot.val)
  | 0x03 => BitVec.ofNat 64 (recField k.record 0x10 4)
  | 0x04 => q.clk
  | 0x05 => BitVec.ofNat 64 k.inFlight
  | 0x06 => s.readTime 0
  | 0x07 => s.readTime 1
  | 0x08 => q.budget.setWidth 64
  | 0x09 => BitVec.ofNat 64 (q.loopCount 0)
  | 0x0A => BitVec.ofNat 64 (q.loopCount 1)
  | 0x0B => BitVec.ofNat 64 (q.loopCount 2)
  | 0x0C => BitVec.ofNat 64 (q.loopCount 3)
  | 0x0D => BitVec.ofNat 64 q.calls.length
  | _ => k.freeEntries

def execMovs (c : CoreId) (flt : FetchFault) (s : State) : Answer :=
  .next (s.seqStep c flt (· == 0x24) fun w t =>
    let v := t.special c (opImm w)
    t.seqNext c fun q => q.setReg (opD w) v)

/-! ### FENCE (R49, R82) -/

/-- FENCE flushes at once every entry that holds a store of this sequencer (R82), and waits. -/
def execFence (c : CoreId) (flt : FetchFault) (s : State) : Answer :=
  .next (s.seqStep c flt (· == 0x25) fun _ t => (t.modSpd c fun p => p.flushIf fun e => bit e.owners 7).seqWait c .fence)

/-- The Cuff has written every line of the sequencer's earlier stores; FENCE completes (R49). -/
def execFenceComplete (c : CoreId) (s : State) : Answer :=
  .next (if s.cores[c].seq.phase = .waiting .fence ∧ (s.cores[c].spd.cuff.all fun e => !bit e.owners 7) then s.seqNext c id else s)

/-! ### Compares and flag logic (R44) -/

/-- fD := compare. -/
def cmpFlag (o : Nat) (w : Word) (q : SeqState) : SeqState :=
  q.setFlag (opD w) (compare o (q.srcA w) (q.cmpRhs w))

/-- fD := fA op fB. -/
def logicFlag (o : Nat) (w : Word) (q : SeqState) : SeqState :=
  q.setFlag (opD w) (flagLogic o (q.flag (opA w)) (q.flag (opB w)))

def execCeq (c : CoreId) (flt : FetchFault) (s : State) : Answer := s.seqPure c flt 0x30 (cmpFlag 0)
def execCne (c : CoreId) (flt : FetchFault) (s : State) : Answer := s.seqPure c flt 0x31 (cmpFlag 1)
def execClt (c : CoreId) (flt : FetchFault) (s : State) : Answer := s.seqPure c flt 0x32 (cmpFlag 2)
def execCltu (c : CoreId) (flt : FetchFault) (s : State) : Answer := s.seqPure c flt 0x33 (cmpFlag 3)
def execCle (c : CoreId) (flt : FetchFault) (s : State) : Answer := s.seqPure c flt 0x34 (cmpFlag 4)
def execCleu (c : CoreId) (flt : FetchFault) (s : State) : Answer := s.seqPure c flt 0x35 (cmpFlag 5)
def execCtst (c : CoreId) (flt : FetchFault) (s : State) : Answer := s.seqPure c flt 0x36 (cmpFlag 6)
def execFand (c : CoreId) (flt : FetchFault) (s : State) : Answer := s.seqPure c flt 0x38 (logicFlag 0)
def execForF (c : CoreId) (flt : FetchFault) (s : State) : Answer := s.seqPure c flt 0x39 (logicFlag 1)
def execFxor (c : CoreId) (flt : FetchFault) (s : State) : Answer := s.seqPure c flt 0x3A (logicFlag 2)
def execFandn (c : CoreId) (flt : FetchFault) (s : State) : Answer := s.seqPure c flt 0x3B (logicFlag 3)

/-- FMOV: sD := fA as 0 or 1. -/
def execFmov (c : CoreId) (flt : FetchFault) (s : State) : Answer :=
  s.seqPure c flt 0x3C fun w q => q.setReg (opD w) (BitVec.ofNat 64 (ofBool (q.flag (opA w))))

/-- NOP: no effect. -/
def execNop (c : CoreId) (flt : FetchFault) (s : State) : Answer := s.seqPure c flt 0x46 fun _ q => q

/-! ### Bounded control flow (R50 to R56) -/

/-- What a control instruction does to the sequencer: the next sequencer state or a failure status. -/
abbrev Control := Except Nat SeqState

/-- Iterations a LOOP asks for (R51). -/
def SeqState.loopCountOf (q : SeqState) (w : Word) : Nat :=
  if opXbit w 0 then fld w 0 20 else fld (q.srcA w) 0 32

/-- LOOP (R51): a count of 0 skips the body, and the word counts as its last one having executed. The order of its causes is
the model's (DESIGN CHOICE, log entry 4). -/
def SeqState.doLoop (q : SeqState) (w : Word) : Control :=
  let stop := q.pc + (fld w 20 12 + 1)
  let n := q.loopCountOf w
  let outer := match q.loops with | l :: _ => decide (l.stop < stop) | [] => false
  if outer then .error 0x82
  else if n = 0 then .ok (q.passed stop)
  else if q.loops.length ≥ 4 then .error 0x85
  else .ok { q with loops := ⟨q.pc + 1, stop, n⟩ :: q.loops, pc := q.pc + 1 }

/-- The target of BR and CALL, when the offset and the target are in range (R50). -/
def SeqState.target (q : SeqState) (w : Word) : Option Nat :=
  let off := opSimm w
  let t : Int := q.pc + off
  if off ≠ 0 ∧ -4096 ≤ off ∧ off ≤ 4095 ∧ 0 ≤ t ∧ t < imemWords then some t.toNat else none

/-- Whether a word lies in the innermost open loop's body; with no loop open every word does (R54). -/
def SeqState.inLoop (q : SeqState) (t : Nat) : Bool :=
  match q.loops with
  | l :: _ => decide (l.start ≤ t ∧ t ≤ l.stop)
  | [] => true

/-- BR (R50, R54, R56): 0x82 before 0x86 where both hold (DESIGN CHOICE, log entry 4). -/
def SeqState.doBr (q : SeqState) (w : Word) : Control :=
  match q.target w with
  | none => .error 0x82
  | some t =>
    if !q.inLoop t then .error 0x82
    else if opSimm w < 0 then
      if q.budget = 0 then .error 0x86 else .ok { q with budget := q.budget - 1, pc := t }
    else .ok { q with pc := t }

/-- CALL (R50, R55): 0x82 before 0x83 where both hold (DESIGN CHOICE, log entry 4). -/
def SeqState.doCall (q : SeqState) (w : Word) : Control :=
  match q.target w with
  | none => .error 0x82
  | some t =>
    if q.calls.length ≥ 8 then .error 0x83
    else .ok { q with calls := ⟨q.pc + 1, q.loops.length⟩ :: q.calls, pc := t }

/-- RET (R55). -/
def SeqState.doRet (q : SeqState) (_ : Word) : Control :=
  match q.calls with
  | [] => .error 0x84
  | l :: ls => if q.loops.length > l.depth then .error 0x82 else .ok { q with calls := ls, pc := l.ret }

/-- LBRK (R54): the innermost loop closes, and its last word counts as executed for the loops around it. -/
def SeqState.doLbrk (q : SeqState) (_ : Word) : Control :=
  match q.loops with
  | [] => .error 0x82
  | l :: ls => .ok ({ q with loops := ls }.passed l.stop)

/-- A control instruction of opcode `o`. -/
def State.seqControl (s : State) (c : CoreId) (flt : FetchFault) (o : Nat) (f : SeqState → Word → Control) : Answer :=
  .next (s.seqStep c flt (· == o) fun w t =>
    match f t.cores[c].seq w with
    | .ok q => t.modSeq c fun _ => q
    | .error st => t.failTask c st)

def execLoop (c : CoreId) (flt : FetchFault) (s : State) : Answer := s.seqControl c flt 0x40 SeqState.doLoop
def execBr (c : CoreId) (flt : FetchFault) (s : State) : Answer := s.seqControl c flt 0x41 SeqState.doBr
def execCall (c : CoreId) (flt : FetchFault) (s : State) : Answer := s.seqControl c flt 0x42 SeqState.doCall
def execRet (c : CoreId) (flt : FetchFault) (s : State) : Answer := s.seqControl c flt 0x43 SeqState.doRet
def execLbrk (c : CoreId) (flt : FetchFault) (s : State) : Answer := s.seqControl c flt 0x44 SeqState.doLbrk

/-! ### HALT and DRAIN (R57, R58) -/

/-- The status HALT asks for: IMM[7:0] or bits [7:0] of A. -/
def SeqState.haltStatus (q : SeqState) (w : Word) : Nat :=
  if opXbit w 0 then fld w 0 8 else fld (q.srcA w) 0 8

/-- HALT: fetching stops and the Cuff is flushed; the hardware's own range 0x80 to 0xBF ends the task with 0x81. -/
def execHalt (c : CoreId) (flt : FetchFault) (s : State) : Answer :=
  .next (s.seqStep c flt (· == 0x45) fun w t =>
    let st := t.cores[c].seq.haltStatus w
    if 0x80 ≤ st ∧ st ≤ 0xBF then t.failTask c 0x81
    else (t.modSpd c SpdState.flushAll).modSeq c fun q => { q with phase := .halting (BitVec.ofNat 8 st) })

/-- Every operation has completed: the halting or ending task's status is written, CSYNC signalled and the slot
moved to DONE (R57, R74, R106). -/
def execHaltComplete (c : CoreId) (s : State) : Answer :=
  .next (match s.cores[c].seq.phase with
    | .halting st => if s.cores[c].inFlight = 0 then s.finishTask c st.toNat else s
    | .ending st => if s.cores[c].anyStarted then s else s.finishTask c st.toNat
    | _ => s)

/-- Whether every operation issued to the engines of a mask has completed (R58). -/
def CoreSt.drained (k : CoreSt) (mask : Nat) : Bool :=
  (List.finRange 7).all fun e => !mask.testBit e.val || (k.engines[e].queue.isEmpty && k.engines[e].active.isEmpty)

def execDrain (c : CoreId) (flt : FetchFault) (s : State) : Answer :=
  .next (s.seqStep c flt (· == 0x47) fun w t =>
    if t.cores[c].drained (fld w 0 7) then t.seqNext c id else t.seqWait c .drain)

def execDrainComplete (c : CoreId) (s : State) : Answer :=
  .next (if s.cores[c].seq.phase = .waiting .drain ∧ s.cores[c].drained (fld s.cores[c].word 0 7) then
    s.seqNext c id else s)

/-! ### Tags and sync objects (R59 to R62) -/

/-- TSET: the tag full when X[0] = 1, else empty. -/
def execTset (c : CoreId) (flt : FetchFault) (s : State) : Answer :=
  .next (s.seqStep c flt (· == 0x50) fun w t =>
    let n := t.cores[c].seq.tagNo w
    if n ≥ 4096 then t.failTask c 0x88
    else (t.modSpd c fun p => p.setTag n (opXbit w 0)).seqNext c id)

/-- Whether the condition of the TWAIT word holds. -/
def CoreSt.tagHolds (k : CoreSt) (w : Word) : Bool := (k.spd.tag (k.seq.tagNo w)).full == opXbit w 0

/-- TWAIT: fD := 1 at once when the tag has the state, else the sequencer waits. -/
def execTwait (c : CoreId) (flt : FetchFault) (s : State) : Answer :=
  .next (s.seqStep c flt (· == 0x51) fun w t =>
    let k := t.cores[c]
    if k.seq.tagNo w ≥ 4096 then t.failTask c 0x88
    else if k.tagHolds w then t.seqNext c fun q => q.setFlag (opD w) true
    else t.seqWait c (.tag k.seq.clk.toNat))

/-- An instruction on a sync object number below 512. -/
def State.seqSync (s : State) (c : CoreId) (flt : FetchFault) (o : Nat) (body : Word → Nat → State → State) : Answer :=
  .next (s.seqStep c flt (· == o) fun w t =>
    let n := t.cores[c].seq.syncNo w
    if n ≥ 512 then t.failTask c 0x88 else body w n t)

/-- SIG: the counter plus B, modulo 2^64. -/
def execSig (c : CoreId) (flt : FetchFault) (s : State) : Answer :=
  s.seqSync c flt 0x52 fun w n t => (t.syncAdd c n (t.cores[c].seq.srcB w)).seqNext c id

/-- Whether the condition of the SWAIT word holds: the counter is at least B, as u64. -/
def CoreSt.syncHolds (k : CoreSt) (w : Word) : Bool :=
  decide ((k.seq.srcB w).toNat ≤ (k.sync (k.seq.syncNo w)).toNat)

/-- SWAIT: fD := 1 at once when the counter is at least B, else the sequencer waits. -/
def execSwait (c : CoreId) (flt : FetchFault) (s : State) : Answer :=
  s.seqSync c flt 0x53 fun w _ t =>
    if t.cores[c].syncHolds w then t.seqNext c fun q => q.setFlag (opD w) true
    else t.seqWait c (.sync t.cores[c].seq.clk.toNat)

/-- SRD: sD := the counter. -/
def execSrd (c : CoreId) (flt : FetchFault) (s : State) : Answer :=
  s.seqSync c flt 0x54 fun w n t =>
    let v := t.cores[c].sync n
    t.seqNext c fun q => q.setReg (opD w) v

/-- SSET: the counter := B. -/
def execSset (c : CoreId) (flt : FetchFault) (s : State) : Answer :=
  s.seqSync c flt 0x55 fun w n t => (t.syncSet c n (t.cores[c].seq.srcB w)).seqNext c id

/-- The condition of a pending TWAIT or SWAIT holds: fD := 1 and the sequencer continues. -/
def execSeqWaitResume (c : CoreId) (s : State) : Answer :=
  let k := s.cores[c]
  .next (match k.seq.phase with
    | .waiting (.tag _) => if k.tagHolds k.word then s.seqNext c fun q => q.setFlag (opD k.word) true else s
    | .waiting (.sync _) => if k.syncHolds k.word then s.seqNext c fun q => q.setFlag (opD k.word) true else s
    | _ => s)

/-- Whether a timed wait that began at `since` has run its 2^(T+4) clk (R61). -/
def SeqState.timedOut (q : SeqState) (w : Word) (since : Nat) : Bool :=
  decide (fld w 16 5 ≠ 0) && decide (since + 2 ^ (fld w 16 5 + 4) ≤ q.clk.toNat)

/-- A TWAIT or SWAIT timeout expires: fD := 0 and the sequencer continues (R61). -/
def execWaitTimeout (c : CoreId) (s : State) : Answer :=
  let k := s.cores[c]
  .next (match k.seq.phase with
    | .waiting (.tag t) =>
      if k.seq.timedOut k.word t then s.seqNext c fun q => q.setFlag (opD k.word) false else s
    | .waiting (.sync t) =>
      if k.seq.timedOut k.word t then s.seqNext c fun q => q.setFlag (opD k.word) false else s
    | _ => s)

/-! ### Windows and events (R64, R65, R91) -/

/-- Whether WOPEN's parameters keep the limits of R64. -/
def wopenOk (base len par : Word) : Bool :=
  decide (base.toNat % 256 = 0) && decide (len.toNat % 256 = 0) && decide (256 ≤ len.toNat) &&
    decide (base.toNat + len.toNat ≤ spdBytes) && decide (par.toNat < 2 ^ 16)

/-- WOPEN: the window takes base A, length B, and match and mask from the register D names. -/
def execWopen (c : CoreId) (flt : FetchFault) (s : State) : Answer :=
  .next (s.seqStep c flt (· == 0x60) fun w t =>
    let q := t.cores[c].seq
    let a := q.srcA w
    let b := q.srcB w
    let d := q.srcD w
    if wopenOk a b d then
      let win : Window := ⟨true, a.toNat, b.toNat, BitVec.ofNat 8 (fld d 0 8), BitVec.ofNat 8 (fld d 8 8)⟩
      (t.modSpd c fun p => p.setWindow (fld w 0 6) win).seqNext c id
    else t.failTask c 0x88)

/-- WCLOSE: the window is closed; a closed one stays as it is. -/
def execWclose (c : CoreId) (flt : FetchFault) (s : State) : Answer :=
  .next (s.seqStep c flt (· == 0x61) fun w t =>
    (t.modSpd c fun p => p.closeWindow (fld w 0 6)).seqNext c id)

/-- EVT: event 0x1F00 + IMM[7:0]. -/
def execEvt (c : CoreId) (flt : FetchFault) (s : State) : Answer :=
  .next (s.seqStep c flt (· == 0x70) fun w t => (t.postCore c (0x1F00 + fld w 0 8)).seqNext c id)

/-! ### Engine issue (R66, R68, R70) -/

/-- Whether ISSUE to engine `e` must block. -/
def CoreSt.issueBlocked (k : CoreSt) (e : Fin 7) : Bool :=
  decide (64 ≤ k.engines[e].queue.length) || decide (512 ≤ k.inFlight)

/-- The command an ISSUE word assembles; ENG, OPC and PART come from the sequencer. -/
def State.issueCmd (s : State) (c : CoreId) (w : Word) : EngCmd :=
  let q := s.cores[c].seq
  let w0 := setFld (q.srcD w) 0 4 (opOpc w - 0x80)
  let w0 := setFld w0 4 8 (fld w 24 8)
  let w0 := setFld w0 50 2 (s.partOf c).val
  ⟨w0, q.srcA w, q.srcB w, q.reg (fld w 0 5)⟩

/-- ISSUE pushes its command, or blocks. -/
def State.issue (s : State) (c : CoreId) (w : Word) : State :=
  let e : Fin 7 := Fin.ofNat 7 (opOpc w - 0x80)
  if s.cores[c].issueBlocked e then s.seqWait c .issue
  else
    let cmd := s.issueCmd c w
    (s.modEng c e fun g => { g with queue := g.queue ++ [cmd] }).seqNext c id

def execIssue (c : CoreId) (flt : FetchFault) (s : State) : Answer :=
  .next (s.seqStep c flt (fun o => decide (0x80 ≤ o ∧ o ≤ 0x86)) fun w t => t.issue c w)

/-- A blocked ISSUE completes in the clk in which both conditions clear. -/
def execIssueUnblock (c : CoreId) (s : State) : Answer :=
  .next (if s.cores[c].seq.phase = .waiting .issue then s.issue c s.cores[c].word else s)

end Sys2Proof.Machine
end

