-- ==== Sys2Proof/Machine/Fabric.lean ====
section
/-! DEFINITION. The Rennus fabric (chapter 15): links and credits, routing, the issue and the arrival of WRITE and SIGNAL
packets, and SIGX. -/

namespace Sys2Proof

/-! ### Packets (R348 to R350) -/

/-- Flits of a packet. -/
def FabPkt.flits (p : FabPkt) : Nat := 1 + (p.payload.length - 32 + 63) / 64

/-- The virtual channel: 2 × TC + DC. -/
def FabPkt.vc (p : FabPkt) : Fin 4 := Fin.ofNat 4 (2 * ofBool p.tc + ofBool p.dc)

/-- PCRC over bytes 0x02 to 0x1B and the payload. -/
def FabPkt.crc (p : FabPkt) : BitVec 32 :=
  Machine.crc32 (leBytes 2 p.dst.toNat ++ leBytes 2 p.src.toNat ++ [p.sinit, p.rsv7] ++ leBytes 8 p.args0.toNat ++
    leBytes 8 p.args1.toNat ++ leBytes 4 p.rsv18.toNat ++ p.payload)

/-- Whether SINIT is a value that R350 gives packets of the type. -/
def FabPkt.sinitOk (p : FabPkt) : Bool :=
  match p.typ with
  | 3 => decide (p.sinit = 0x59)
  | 4 => decide (p.sinit = 0x70)
  | _ => decide (p.sinit.toNat < 0x40)

/-- Whether a packet carries a reserved encoding. -/
def FabPkt.reserved (p : FabPkt) : Bool :=
  !p.sinitOk || bit p.dst 15 || bit p.src 15 || decide (p.rsv7 ≠ 0) || decide (p.rsv18 ≠ 0) || (p.sr && decide (p.typ ≠ 4)) ||
    (p.tc != decide (p.typ = 3)) ||
    match p.typ with
    | 1 => decide (fld p.args0 48 16 ≠ 0) || decide (fld p.args1 12 52 ≠ 0) || decide (p.payload.length ≠ fld p.args1 0 12 + 1)
    | 2 => decide (fld p.args0 14 50 ≠ 0) || !p.payload.isEmpty
    | 3 => decide (fld p.args0 35 29 ≠ 0) || decide (fld p.args0 32 2 = 3) || decide (fld p.args1 16 16 ≠ 0) ||
        decide (fld p.args1 14 2 = 3) || decide (p.payload.length ≠ fld p.args1 0 12 + 1)
    | 4 => (if p.sr then bit p.args0 63 else decide (p.args0 ≠ 0)) || decide (fld p.args1 17 47 ≠ 0) ||
        decide (256 < fld p.args1 8 9) || decide (p.payload.length ≠ fld p.args1 8 9)
    | _ => true

/-- A packet that this module issues, its PCRC computed. -/
def FabPkt.make (typ : Fin 8) (src dst : BitVec 15) (sinit : Ini) (dc : Bool) (a0 a1 : Word) (payload : List Byte) : FabPkt :=
  let p : FabPkt := ⟨typ, dc, decide (typ = 3), 0, false, 0, dst.setWidth 16, src.setWidth 16, sinit, 0, a0, a1, 0, 0, payload⟩
  { p with pcrc := p.crc }

/-- Coordinate d of a module address (R351). -/
def coordOf (a : Nat) (d : Nat) : Nat := a / 8 ^ d % 8

/-- Whether FAB_FAIL marks the link from position i to i + 1 of the ring of dimension d through `cur`. -/
def FabMap.failed (m : FabMap) (d cur i : Nat) : Bool :=
  let a := if d = 0 then coordOf cur 1 else coordOf cur 0
  let b := if d = 2 then coordOf cur 1 else coordOf cur 2
  bit m.fail (8 * (64 * d + 8 * a + b) + i)

end Sys2Proof

namespace Sys2Proof.Machine

def State.modFab (s : State) (f : FabState → FabState) : State := { s with fab := f s.fab }
def State.modLink (s : State) (p : Fin 6) (f : FabPort → FabPort) : State :=
  s.modFab fun b => { b with ports := b.ports.set p (f b.ports[p]) }

/-- An event of the fabric. -/
def State.fabPost (s : State) (code : Nat) : State := s.postPart code 0xC8 none

/-- A packet dropped under event 0x3060 + k, and counted. -/
def State.fabDrop (s : State) (k : Fin 4) : State :=
  (s.modFab fun b => { b with drops := b.drops.set k (b.drops[k] + 1) }).fabPost (0x3060 + k.val)

/-! ### Links (R345 to R347, R358, R359) -/

/-- Flits of a virtual channel that the input buffer at the other end allots. -/
def FabPort.allot (x : FabPort) (vc : Fin 4) : Nat := if x.mode = 2 then (if vc.val < 2 then 896 else 128) else 512

/-- Whether a packet may start: credits for all its flits, and no unacknowledged codeword to overwrite. -/
def FabPort.hasCredit (x : FabPort) (p : FabPkt) : Bool :=
  decide ((x.sent[p.vc] - x.cnt[p.vc]).toNat + p.flits ≤ x.allot p.vc) && decide ((x.top - x.ack).toNat < 256)

/-- The number of the input an entry came from: its port, or 6 for the module itself. -/
def FabEntry.input (e : FabEntry) : Nat := match e.from' with | some f => f.1.val | none => 6

/-- Places of the packets that are first of their input and virtual channel. -/
def headsOf (es : List FabEntry) : List (Nat × FabEntry) :=
  (es.zipIdx.map fun e => (e.2, e.1)).filter fun e =>
    !(es.take e.1).any fun d => decide (d.input = e.2.input) && decide (d.pkt.vc = e.2.pkt.vc)

/-- Whether a port sends a packet now: awaiting its address only MGMT packets, and none new while a replay runs. -/
def FabPort.sends (x : FabPort) (k : FabPkt) : Bool :=
  decide (x.txCw = x.top) && (decide (x.state = 3) || decide (x.state = 5) || (decide (x.state = 2) && decide (k.typ = 4)))

/-- The packet granted next: rotating priority over inputs and, within one, over virtual channels. -/
def FabPort.grant (x : FabPort) : Option (Nat × FabEntry) :=
  let es := if x.state = 5 then x.queue.take x.drain else x.queue
  let hs := (headsOf es).filter fun e => x.sends e.2.pkt && x.hasCredit e.2.pkt
  ((List.range 7).flatMap fun i => (List.range 4).map fun v => ((x.tokIn + 1 + i) % 7, (x.tokVc + 1 + v) % 4)).findSome? fun k =>
    hs.find? fun e => decide (e.2.input = k.1) && decide (e.2.pkt.vc.val = k.2)

/-- The input buffer of an entry is freed. -/
def State.freeEntry (s : State) (e : FabEntry) : State :=
  match e.from' with
  | some (p, vc) => s.modLink p fun x => { x with freed := x.freed.set vc (x.freed[vc] + BitVec.ofNat 16 e.pkt.flits) }
  | none => s

/-- A packet sent joins the replay store, which keeps the last 256 codewords (R347). -/
def FabPort.keep (x : FabPort) (k : FabPkt) : List (BitVec 32 × FabPkt) :=
  (x.store.filter fun e => decide ((x.top - e.1).toNat < 256)) ++ [(x.txCw, k)]

/-- Packets leave port `p` while one is granted, at most `n`. -/
def State.fabPump (s : State) (p : Fin 6) : Nat → State
  | 0 => s
  | n + 1 =>
    match (s.fab.ports[p]).grant with
    | none => s
    | some (i, e) =>
      let vc := e.pkt.vc
      let s := s.modLink p fun x => { x with
        queue := x.queue.eraseIdx i, drain := x.drain - 1, tokIn := e.input, tokVc := vc.val, store := x.keep e.pkt
        sent := x.sent.set vc (x.sent[vc] + BitVec.ofNat 16 e.pkt.flits) }
      ((s.emit (.packet p e.pkt)).freeEntry e).fabPump p n

/-- Send what credits allow; a port that has drained trains again (R345). -/
def State.fabSend (s : State) (p : Fin 6) : State :=
  let s := s.fabPump p s.fab.ports[p].queue.length
  s.modLink p fun x => if x.state = 5 ∧ x.drain = 0 then { x with state := 1, lanes := 0, wait := true } else x

/-- A packet is accepted into the queue of port `p`; a port that is down, training or held drops it (R358), but one that has
drained to train without a lane keeps it waiting (R345). -/
def State.fabQueue (s : State) (p : Fin 6) (e : FabEntry) : State :=
  let x := s.fab.ports[p]
  if x.state = 0 ∨ (x.state = 1 ∧ !x.wait) ∨ x.state = 4 then (s.freeEntry e).fabDrop 2
  else (s.modLink p fun x => { x with queue := x.queue ++ [e] }).fabSend p

/-- A link goes down: packets held for it are lost, and both ends start anew (R358). -/
def State.fabDown (s : State) (p : Fin 6) : State :=
  let q := s.fab.ports[p].queue
  let s := q.foldl State.freeEntry s
  let s := s.modFab fun b => { b with drops := b.drops.set 2 (b.drops[2] + BitVec.ofNat 64 q.length) }
  let s := if q.isEmpty then s else s.fabPost 0x3062
  s.modLink p fun x => { FabPort.reset with uncw := x.uncw, csym := x.csym, excl := x.excl, replay := x.replay }

/-- FABRIC_LINK_DOWN. -/
def State.fabLinkDown (s : State) (p : Fin 6) : State :=
  if s.fab.ports[p].state = 0 then s else (s.fabDown p).fabPost (0x3020 + p.val)

/-- STAT.MODE that a port takes: trunk for Z ports on a slice face in hall mode (R368). -/
def FabState.modeOf (b : FabState) (p : Fin 6) : Nat :=
  let z := coordOf b.addr.toNat 2
  if b.hall ∧ b.valid ∧ ((p = 4 ∧ z + 1 = b.size[(2 : Fin 3)].val) ∨ (p = 5 ∧ z = 0)) then 2 else 1

/-- The four lowest lanes of a set; none when there are fewer. -/
def fourLanes (l : BitVec 5) : Option (BitVec 5) :=
  let ls := ((List.range 5).filter fun i => bit l i).take 4
  if ls.length = 4 then some (ls.foldl (fun w i => setBit w i true) 0) else none

/-- A port finishes training with these lanes trained at both ends (R345). -/
def State.fabTrained (s : State) (p : Fin 6) (lanes : BitVec 5) : State :=
  let x := s.fab.ports[p]
  if x.state ≤ 1 then
    match fourLanes (lanes &&& ~~~x.excl) with
    | none => if x.wait then s.fabLinkDown p else s.modLink p fun x => { x with state := 0, lanes := 0 }
    | some l =>
      let b := s.fab
      let s := s.modLink p fun x =>
        { FabPort.reset with
          state := if b.valid then 3 else 2, mode := b.modeOf p, lanes := l, uncw := x.uncw, csym := x.csym, excl := x.excl,
          replay := x.replay, queue := x.queue, peer := if x.wait then x.peer else none }
      (s.fabPost (0x3010 + p.val)).fabSend p
  else s

/-- Lane `l` passes 2^20 corrected symbols within 1 s: the port drains and trains without it (R345). -/
def State.laneRetire (s : State) (p : Fin 6) (l : Fin 5) : State :=
  let x := s.fab.ports[p]
  if bit x.lanes l.val && decide (2 ≤ x.state) then
    ((s.modLink p fun x => { x with
      state := 5, drain := x.queue.length, csym := satAdd 0xFFFF x.csym 1024, excl := setBit x.excl l.val true }).fabPost
      (0x3030 + p.val)).fabSend p
  else s

def execFabricLaneRetire (p : Fin 6) (l : Fin 5) (s : State) : Answer := .next (s.laneRetire p l)

/-- The receiver discards a codeword it cannot correct and waits for the replay (R347). -/
def State.badCodeword (s : State) (p : Fin 6) : State :=
  if 2 ≤ s.fab.ports[p].state then s.modLink p fun x => { x with uncw := satAdd 0xFFFF x.uncw 1, nak := true } else s

def execUncorrectableCodeword (p : Fin 6) (s : State) : Answer := .next (s.badCodeword p)

/-- Whether 500,000 ticks of 2 ns have passed since the last replay event, if any. -/
def replayDue (now : Word) : Option Word → Bool
  | none => true
  | some t => decide (500000 ≤ (now - t).toNat)

/-- The replay event, at most once in 1 ms. -/
def State.replayEvent (s : State) (p : Fin 6) : State :=
  if replayDue s.tb.cnt s.fab.ports[p].replay then
    (s.modLink p fun x => { x with replay := some s.tb.cnt }).fabPost (0x3050 + p.val)
  else s

/-- A CREDIT packet arrives: credits, ACK, and with NAK a replay from the codeword it names; the eighth NAK in a row of
one codeword takes the link down. -/
def State.creditIn (s : State) (p : Fin 6) (cnt : Vector (BitVec 16) 4) (ack : BitVec 32) (nak : Bool) : State :=
  let x := s.fab.ports[p]
  if x.state < 2 ∨ x.state = 4 then s
  else
    let naks := if nak then (if x.ack = ack ∧ 0 < x.naks then x.naks + 1 else 1) else 0
    let s := s.modLink p fun x => { x with cnt := cnt, ack := ack, naks := naks, txCw := if nak then ack else x.txCw }
    if 8 ≤ naks then (s.replayEvent p).fabLinkDown p
    else (if nak then s.replayEvent p else s).fabSend p

def execCreditSend (p : Fin 6) (s : State) : Answer :=
  .next (let x := s.fab.ports[p]; if 2 ≤ x.state ∧ x.state ≠ 4 then s.emit (.credit p x.freed x.rxCw x.nak) else s)

/-- One tick of 2 ns on a link: a codeword lasts 12.8 ns (R346). In a replay the number that is sent again advances. -/
def FabPort.tick (x : FabPort) : FabPort :=
  if x.state < 2 then x
  else if x.acc + 20 < 128 then { x with acc := x.acc + 20 }
  else { x with
    acc := x.acc + 20 - 128, txCw := x.txCw + 1, top := if x.txCw = x.top then x.top + 1 else x.top
    rxCw := if x.nak then x.rxCw else x.rxCw + 1 }

/-- The tick of port `p`: the packets of a codeword that a replay sends again leave unchanged, and when the replay has
caught up the port goes on with what waits (R347). -/
def State.linkTick (s : State) (p : Fin 6) : State :=
  let x := s.fab.ports[p]
  let y := x.tick
  let s := s.modLink p fun _ => y
  if x.txCw = x.top ∨ y.txCw = x.txCw then s
  else
    let s := (x.store.filter fun e => decide (e.1 = x.txCw)).foldl (fun t e => t.emit (.packet p e.2)) s
    if y.txCw = y.top then s.fabSend p else s

/-- A write of FAB_PORT.RETRAIN by host PF0 or Crown: the link goes down and the port trains (R352). -/
def State.retrain (s : State) (p : Fin 6) (ini : Ini) : State :=
  if ini = 0x60 ∨ ini = 0x70 then (s.fabDown p).modLink p fun x => { x with state := 1 } else s

/-! ### Routing (R355, R356, R369) -/

def FabState.sizeOf (b : FabState) (d : Nat) : Nat := (b.size[Fin.ofNat 3 d]).val
def FabState.wraps (b : FabState) (d : Nat) : Bool := b.wrap[Fin.ofNat 3 d] && !(b.hall && decide (d = 2))

/-- The links on the path of `n` links from coordinate c in a direction. -/
def pathLinks (size c n : Nat) (plus : Bool) : List Nat :=
  (List.range n).map fun k => if plus then (c + k) % size else (c + size * (k + 1) - 1 - k) % size

/-- blocked(d, c, dir) of R356; `out` says that the leg leaves the slice. -/
def FabState.blocked (b : FabState) (d cur dst : Nat) (plus out : Bool) : Bool :=
  let c := coordOf cur d
  let t := coordOf dst d
  let size := b.sizeOf d
  let n := if out then (if plus then size - 1 - c else c)
    else if b.wraps d then (if plus then (t + size - c) % size else (c + size - t) % size)
    else if plus then t - c else c - t
  (pathLinks size c n plus).any (b.map.failed d cur)

/-- FAB_SLICE of a slice. -/
def FabState.sliceTab (b : FabState) (sl : Nat) : Nat := fld b.slices (2 * sl) 2

/-- What next_port decides. -/
inductive Hop where
  | eject
  | drop
  /-- Out of a port, with the detour dimension the packet then carries, and whether a leg begins whatever the ports. -/
  | out (p : Fin 6) (dtr : Nat) (newLeg : Bool)
  deriving DecidableEq, Repr

/-- Port of dimension d in a direction. -/
def portOf (d : Nat) (plus : Bool) : Fin 6 := Fin.ofNat 6 (2 * d + if plus then 0 else 1)

/-- The direction of a leg along d, none when both ways are blocked. -/
def FabState.legDir (b : FabState) (d cur dst : Nat) : Option Bool :=
  let size := b.sizeOf d
  let up := (coordOf dst d + size - coordOf cur d) % size
  if b.wraps d then
    let dir := decide (up ≤ size - up)
    if !b.blocked d cur dst dir false then some dir
    else if !b.blocked d cur dst (!dir) false then some (!dir) else none
  else
    let dir := decide (coordOf cur d < coordOf dst d)
    if b.blocked d cur dst dir false then none else some dir

/-- next_port of R356 for a packet at `cur`, with `up` saying which ports have their link up. -/
def FabState.nextPort (b : FabState) (up : Fin 6 → Bool) (cur dst dtr : Nat) : Hop :=
  let far := b.hall && decide (dst / 512 ≠ cur / 512)
  let there (d : Nat) : Bool := decide (coordOf cur d = coordOf dst d) && !(far && decide (d = 2))
  let cleared := decide (dtr ≠ 0) && there (dtr - 1)
  let dtr := if cleared then 0 else dtr
  let dims := if dtr ≠ 0 then [dtr - 1] else [0, 1, 2]
  match dims.find? fun d => !there d with
  | none => if cur = dst then .eject else .drop
  | some d =>
    if far && decide (d = 2) then
      match b.sliceTab (dst / 512) with
      | 1 => if b.blocked 2 cur dst true true then .drop else .out 4 dtr cleared
      | 2 => if b.blocked 2 cur dst false true then .drop else .out 5 dtr cleared
      | _ => .drop
    else match b.legDir d cur dst with
      | some dir => .out (portOf d dir) dtr cleared
      | none =>
        if dtr ≠ 0 then .drop
        else
          let e := (d + 1) % 3
          if up (portOf e true) then .out (portOf e true) (d + 1) true
          else if up (portOf e false) then .out (portOf e false) (d + 1) true
          else .drop

/-- Whether the link of port p is the wrap link of its ring, or a trunk that FAB_HALL marks as the dateline. -/
def FabState.crosses (b : FabState) (p : Fin 6) : Bool :=
  let d := p.val / 2
  let c := coordOf b.addr.toNat d
  if b.modeOf p = 2 then (if p = 4 then b.dlp else b.dln)
  else b.wraps d && (if p.val % 2 = 0 then decide (c + 1 = b.sizeOf d) else decide (c = 0))

/-- The dateline class a packet leaves with (R356). -/
def FabState.dateline (b : FabState) (inp : Option (Fin 6)) (p : Fin 6) (newLeg dc : Bool) : Bool :=
  let same := match inp with | some i => decide (i.val / 2 = p.val / 2) && !newLeg | none => false
  (same && dc) || b.crosses p

/-- A packet of TC 0 at this module: out of a port, into the inbox, or dropped with event 0x3063. -/
def State.fabRoute (s : State) (e : FabEntry) : State :=
  let b := s.fab
  match b.nextPort (fun p => decide (b.ports[p].state = 3)) b.addr.toNat (e.pkt.dst.toNat % 2 ^ 15) e.pkt.dtr.val with
  | .eject => s.modFab fun b => { b with inbox := b.inbox ++ [e] }
  | .drop => (s.freeEntry e).fabDrop 3
  | .out p dtr newLeg =>
    let inp := e.from'.map (·.1)
    s.fabQueue p { e with pkt := { e.pkt with dtr := Fin.ofNat 4 dtr, dc := b.dateline inp p newLeg e.pkt.dc } }

/-! ### Issue (R350, R354, R357, R360, R369) -/

/-- Whether this module may send to a destination: reachable in its slice, or a slice its table names. -/
def FabState.reachable (b : FabState) (dst : Nat) : Bool :=
  if dst / 512 = b.addr.toNat / 512 then !bit b.map.unr (dst % 512) else decide (b.sliceTab (dst / 512) ≠ 0)

/-- The source I/O die accepts a WRITE or SIGNAL, or drops it with event 0x3060. -/
def State.fabIssue (s : State) (typ : Fin 8) (ini : Ini) (dst : BitVec 15) (a0 a1 : Word) (payload : List Byte) : State :=
  let b := s.fab
  if !b.valid || !b.reachable dst.toNat then s.fabDrop 0
  else s.fabRoute ⟨FabPkt.make typ b.addr dst ini false a0 a1 payload, none⟩

/-- A signal to a sync object of a core of another module. -/
def State.fabSignal (s : State) (ini : Ini) (dst : BitVec 15) (core sync : Nat) (v : Word) : State :=
  s.fabIssue 2 ini dst (pack [(9, 5, core), (0, 9, sync)]) v []

/-- A WRITE packet to another module. -/
def State.fabWrite (s : State) (ini : Ini) (dst : BitVec 15) (addr : Nat) (data : List Byte) : State :=
  s.fabIssue 1 ini dst (BitVec.ofNat 64 (addr % 2 ^ 48)) (BitVec.ofNat 64 (data.length - 1)) data

/-- SIGX (R63). -/
def State.sigx (s : State) (c : CoreId) (w : Word) : State :=
  let a := s.cores[c].seq.srcA w
  let v := s.cores[c].seq.srcB w
  let rem := bit a 30
  if fld a 31 33 ≠ 0 ∨ bit a 14 ∨ (!rem ∧ fld a 15 15 ≠ 0) ∨ (rem ∧ isSafety (s.partOf c)) then s.failTask c 0x88
  else
    let t := if rem then s.fabSignal (coreIni c) (BitVec.ofNat 15 (fld a 15 15)) (fld a 9 5) (fld a 0 9) v
      else if Fin.ofNat 32 (fld a 9 5) = c then s.syncAdd c (fld a 0 9) v
      else s.remoteSignal (Fin.ofNat 32 (fld a 9 5)) (coreIni c) (fld a 0 9) v
    t.seqNext c id

def execSigx (c : CoreId) (flt : FetchFault) (s : State) : Answer := .next (s.seqStep c flt (· == 0x56) fun w t => t.sigx c w)

/-! ### Arrival (R348, R350, R354, R361, R362, R368) -/

/-- The MGMT subtypes that a trunk passes: HELLO, PDREQ, PDRESP and BRIDGE (R368, R389). -/
def trunkSub (n : Nat) : Bool := [0x01, 0x10, 0x11, 0x13].contains n

/-- Why a MGMT packet that ends here is dropped on arrival at port p: the hop checks of R350, what a trunk passes (R368), and
PCRC (R361). -/
def FabState.mgmtStop (b : FabState) (p : Fin 6) (sub : Nat) (m : MgmtHead) : Option (Fin 4) :=
  let x := b.ports[p]
  if x.mode = 2 then (if !trunkSub sub then some 3 else if m.good then none else some 1)
  else if m.hops = 0 ∧ m.src.toNat ≠ (x.peer.map fun h => fld h.addr 0 15).getD 0 then some 1
  else if 63 ≤ m.hops.toNat then some 3
  else if m.good then none else some 1

/-- A MGMT packet that ends here arrives on port p; a held port takes none but HELLO (R352). -/
def State.mgmtIn (s : State) (p : Fin 6) (sub : Nat) (m : MgmtHead) (use : State → State) : State :=
  let x := s.fab.ports[p]
  if x.state < 2 ∨ x.state = 4 then s
  else
    let s := s.modLink p fun x => { x with nak := false }
    match s.fab.mgmtStop p sub m with
    | some k => s.fabDrop k
    | none => use s

/-- The hop checks of R350, and the packet with its hop counted; none where it is dropped with an event of class k. -/
def FabState.hopIn (b : FabState) (p : Fin 6) (k : FabPkt) : Except (Fin 4) FabPkt :=
  let x := b.ports[p]
  let peer := (x.peer.map fun h => fld h.addr 0 15).getD 0
  if k.reserved then .error 3
  else if x.mode = 2 then (if k.typ = 3 ∨ (k.typ = 4 ∧ !trunkSub (fld k.args1 0 8)) then .error 3 else .ok { k with hops := 1 })
  else if k.hops = 0 ∧ k.src.toNat ≠ peer then .error 1
  else if 63 ≤ k.hops.toNat then .error 3
  else .ok { k with hops := k.hops + 1 }

/-- The port a source route names for a hop; none where the route has ended. -/
def routePort (route : Word) (h : Nat) : Option (Fin 6) :=
  if h < 21 ∧ fld route (3 * h) 3 < 6 then some (Fin.ofNat 6 (fld route (3 * h) 3)) else none

/-- The virtual channel of the input buffer a packet arrives in. -/
def arrival (p : Fin 6) (k : FabPkt) : FabEntry := ⟨k, some (p, k.vc)⟩

/-- A packet that waits in its input buffer for a collective descriptor. -/
def State.fabFragment (s : State) (p : Fin 6) (k : FabPkt) : State :=
  s.modFab fun b => { b with frags := b.frags ++ [(p, k)] }

/-- A MGMT packet goes on: a source-routed one along its route, only while this module is held at VALID = 0 and over no
trunk (R354, R355, R368); a REPORT or a failure map of another module by dimension order. One that ends here is carried by
its own command, and only its room in the input buffer is freed. -/
def State.fabMgmt (s : State) (e : FabEntry) (q : FabPkt) : State :=
  let sub := fld q.args1 0 8
  if q.sr then
    match routePort q.args0 q.hops.toNat with
    | none => s.freeEntry e
    | some o =>
      if s.fab.valid || decide (s.fab.ports[o].mode = 2) then (s.freeEntry e).fabDrop 3
      else
        -- a SURVEY whose route ends one hop on makes that port a port of the survey tree
        let s := if sub = 2 ∧ (routePort q.args0 (q.hops.toNat + 1)).isNone then
            s.modFab fun b => { b with tree := setBit b.tree o.val true } else s
        s.fabQueue o { e with pkt := q }
  else if s.fab.valid && (decide (sub = 3) || decide (sub = 5)) && decide (q.dst.toNat ≠ s.fab.addr.toNat) then
    s.fabRoute { e with pkt := q }
  else s.freeEntry e

/-- A packet arrives on port p: checked, and routed onward or to this module (R355). -/
def State.fabForward (s : State) (p : Fin 6) (k : FabPkt) : State :=
  let x := s.fab.ports[p]
  if x.state ≠ 2 ∧ x.state ≠ 3 ∧ x.state ≠ 5 then s
  else
    let s := s.modLink p fun x => { x with nak := false }
    let e := arrival p k
    match s.fab.hopIn p k with
    | .error c => (s.freeEntry e).fabDrop c
    | .ok q =>
      if q.typ = 4 then s.fabMgmt e q
      else if !s.fab.valid then (s.freeEntry e).fabDrop 1
      else if q.typ = 3 then s.fabFragment p q
      else s.fabRoute { e with pkt := q }

def execFabricPacketForward (p : Fin 6) (k : FabPkt) (s : State) : Answer := inRange s (pktOk k) (s.fabForward p k)

/-- The core apertures (R34). -/
def apertureBase : Nat := 0x400000000000

/-- Whether a range lies in the apertures of the cores. -/
def inApertures (a n : Nat) : Bool := decide (apertureBase ≤ a) && decide (a + n ≤ apertureBase + 32 * 0x1000000)

/-- Writes into core apertures, line by line. -/
def State.apertureWrites (s : State) (i : Ini) (who : Sender) (a : Nat) (data : List Byte) : State :=
  (cut 256 (data.length + 1) a data).foldl (fun t r =>
    t.windowWrite (Fin.ofNat 32 ((r.1 - apertureBase) / 0x1000000)) i ((r.1 - apertureBase) % 0x1000000) r.2 who) s

/-- Whether the destination I/O die takes a packet: PCRC and admission. -/
def FabState.takes (b : FabState) (k : FabPkt) : Bool :=
  b.valid && decide (k.pcrc = k.crc) && bit b.admitMask (k.src.toNat / 512 % 64)

/-- The oldest arrived packet, when it is of this type, leaves the inbox. -/
def State.fabTake (s : State) (typ : Fin 8) (use : FabPkt → State → State) : State :=
  match s.fab.inbox with
  | [] => s
  | e :: rest =>
    if e.pkt.typ = typ then use e.pkt ((s.modFab fun b => { b with inbox := rest }).freeEntry e) else s

/-- A WRITE packet at its destination (R361). -/
def State.fabWriteIn (k : FabPkt) (s : State) : State :=
  let a := fld k.args0 0 48
  if s.fab.takes k && inApertures a k.payload.length then s.apertureWrites (k.sinit ||| 0x80) (.module (k.src.setWidth 15)) a k.payload
  else s.fabDrop 1

def execWrite (s : State) : Answer := .next (s.fabTake 1 State.fabWriteIn)

/-- A SIGNAL packet at its destination, after every WRITE that arrived before it. -/
def State.fabSignalIn (k : FabPkt) (s : State) : State :=
  if s.fab.takes k then
    s.remoteSignal (Fin.ofNat 32 (fld k.args0 9 5)) (k.sinit ||| 0x80) (fld k.args0 0 9) k.args1 (.module (k.src.setWidth 15))
  else s.fabDrop 1

def execSignal (s : State) : Answer := .next (s.fabTake 2 State.fabSignalIn)

end Sys2Proof.Machine
end

