-- ==== Sys2Proof/Machine/Discovery.lean ====
section
/-! DEFINITION. Discovery of a slice (R352 to R354) and the failure map (R357): HELLO, the origin's survey, placement,
the derivation of the maps, and their arrival. -/

namespace Sys2Proof.Machine

/-! ### HELLO (R352, R368) -/

/-- FAB_ADDR as it reads. -/
def FabState.addrWord (b : FabState) : Word := pack [(63, 1, ofBool b.valid), (62, 1, ofBool b.origin), (0, 15, b.addr.toNat)]

/-- The opposite port. -/
def oppPort (p : Fin 6) : Fin 6 := if p.val % 2 = 0 then Fin.ofNat 6 (p.val + 1) else Fin.ofNat 6 (p.val - 1)

def execHelloSend (p : Fin 6) (s : State) : Answer :=
  .next (if 2 ≤ s.fab.ports[p].state then
    s.emit (.hello p s.fab.addr 0x70 ⟨Config.deviceId, p, s.fab.cfgSlice, s.fab.origin, s.fab.addrWord⟩) else s)

/-- Whether what a HELLO says puts the port out of service. -/
def FabState.mismatch (b : FabState) (p : Fin 6) (h : Hello) : Bool :=
  let x := b.ports[p]
  decide (h.port ≠ oppPort p) ||
    (if x.mode = 2 then decide (h.slice = b.cfgSlice) else decide (h.slice ≠ b.cfgSlice)) ||
    (match x.peer with | some q => decide (q.ident ≠ h.ident) | none => false)

/-- A HELLO arrives. It names its sender's address itself, so R350's check against that address does not apply. -/
def State.helloIn (s : State) (p : Fin 6) (m : MgmtHead) (h : Hello) : State :=
  let x := s.fab.ports[p]
  if x.state < 2 then s
  else if !m.good then s.fabDrop 1
  else
    let bad := s.fab.mismatch p h
    let s := s.modLink p fun x => { x with nak := false, peer := some h, state := if bad then 4 else x.state }
    if bad && decide (x.state ≠ 4) then s.fabPost (0x3040 + p.val) else s

/-! ### The unreachable set (R357) -/

/-- A channel of TC 0: a module's output port and dateline class. -/
abbrev Channel := Nat × Nat × Bool

/-- Whether the links of a port are whole by the map. -/
def FabState.linkOk (b : FabState) (cur : Nat) (p : Fin 6) : Bool :=
  let d := p.val / 2
  let c := coordOf cur d
  let n := b.sizeOf d
  if p.val % 2 = 0 then !b.map.failed d cur c && (b.wraps d || decide (c + 1 < n))
  else !b.map.failed d cur ((c + n - 1) % n) && (b.wraps d || decide (0 < c))

/-- The module address a port leads to. -/
def FabState.step (b : FabState) (cur : Nat) (p : Fin 6) : Nat :=
  let d := p.val / 2
  let c := coordOf cur d
  let n := b.sizeOf d
  let c' := if p.val % 2 = 0 then (c + 1) % n else (c + n - 1) % n
  cur - c * 8 ^ d + c' * 8 ^ d

/-- The channels a packet takes from `cur`, entered by port `inp`. -/
def FabState.channels (b : FabState) (dst : Nat) : Nat → Nat → Option (Fin 6) → Nat → Bool → List Channel
  | 0, _, _, _, _ => []
  | n + 1, cur, inp, dtr, dc =>
    let here := { b with addr := BitVec.ofNat 15 cur }
    match here.nextPort (b.linkOk cur) cur dst dtr with
    | .out p dtr' leg =>
      let dc' := here.dateline inp p leg dc
      (cur, p.val, dc') :: b.channels dst n (b.step cur p) (some p) dtr' dc'
    | _ => []

/-- The addresses of a slice's box, this slice's number included. -/
def FabState.members (b : FabState) : List Nat :=
  ((List.range 512).filter fun a =>
    decide (coordOf a 0 < b.sizeOf 0) && decide (coordOf a 1 < b.sizeOf 1) && decide (coordOf a 2 < b.sizeOf 2)).map fun a =>
    a + 512 * b.cfgSlice.val

/-- Each channel with the one a packet takes after it. -/
def depsOf (cs : List Channel) : List (Channel × Channel) := cs.zip (cs.drop 1)

/-- The channel dependencies of every route to a reachable destination. -/
def FabState.deps (b : FabState) (unr : BitVec 512) : List (Channel × Channel) :=
  (b.members.filter fun d => !bit unr (d % 512)).flatMap fun dst =>
    b.members.flatMap fun src => depsOf (b.channels dst 64 src none 0 false)

/-- Dependencies left after those whose second channel leads nowhere are taken out, `n` times. -/
def pruneDeps : Nat → List (Channel × Channel) → List (Channel × Channel)
  | 0, es => es
  | n + 1, es => pruneDeps n (es.filter fun e => es.any fun f => decide (f.1 = e.2))

/-- Whether the graph of the routes holds a cycle. -/
def FabState.cyclic (b : FabState) (unr : BitVec 512) : Bool :=
  let es := b.deps unr
  !(pruneDeps es.length es).isEmpty

/-- The unreachable set: destinations marked in ascending address until no cycle remains. -/
def FabState.unreachable (b : FabState) : BitVec 512 :=
  (b.members.foldl (fun (u : BitVec 512) a => if b.cyclic u then setBit u (a % 512) true else u) (0 : BitVec 512))

/-! ### The survey (R353) -/

/-- Coordinates in the slice, 9 bits, one hop over port p; none across an edge that does not wrap. -/
def stepCoord (size : Vector (Fin 9) 3) (wrap : Vector Bool 3) (c : Nat) (p : Fin 6) : Option Nat :=
  let d := p.val / 2
  let n := (size[Fin.ofNat 3 d]).val
  let w := wrap[Fin.ofNat 3 d]
  let x := coordOf c d
  if p.val % 2 = 0 then
    if x + 1 < n then some (c + 8 ^ d) else if w then some (c - x * 8 ^ d) else none
  else if 0 < x then some (c - 8 ^ d) else if w then some (c + (n - 1) * 8 ^ d) else none

/-- The identities that this module's ports name: torus ports that are neither down nor held (R357, R368). -/
def FabState.peers (b : FabState) : Vector (Option Word) 6 :=
  b.ports.map fun x =>
    if x.mode ≠ 2 ∧ (x.state = 2 ∨ x.state = 3 ∨ x.state = 5 ∨ (x.state = 1 ∧ x.wait)) then x.peer.map (·.ident) else none

/-- A message leaves by the first port of its route. -/
def State.sendMgmt (s : State) (route : List (Fin 6)) (m : FabMgmt) : State :=
  match route with
  | p :: _ => s.emit (.mgmt p s.fab.addr 0x70 m)
  | [] => s

/-- A SURVEY is sent along a route, and its REPORT awaited. -/
def State.askSurvey (s : State) (route : List (Fin 6)) : State :=
  if 21 < route.length then s
  else
    (s.modFab fun b => { b with survey := b.survey.map fun v => { v with waiting := v.waiting ++ [route] } }).sendMgmt route
      (.survey route)

/-- The survey fails or ends with nothing assigned. -/
def State.surveyFault (s : State) : State := (s.modFab fun b => { b with survey := none }).fabPost 0x3081

/-- Whether the link from position c to the next of dimension d stands: both ends placed, each naming the other. -/
def linkStands (v : Survey) (size : Vector (Fin 9) 3) (wrap : Vector Bool 3) (c : Nat) (d : Nat) : Bool :=
  match stepCoord size wrap c (portOf d true) with
  | none => true
  | some t =>
    match v.nodes.find? (fun n => n.coord = c), v.nodes.find? (fun n => n.coord = t) with
    | some a, some z => decide (a.peers[portOf d true] = some z.ident) && decide (z.peers[portOf d false] = some a.ident)
    | _, _ => false

/-- FAB_FAIL from a survey. -/
def surveyFail (v : Survey) (size : Vector (Fin 9) 3) (wrap : Vector Bool 3) : BitVec 1536 :=
  (List.range 512).foldl (fun (w : BitVec 1536) c => (List.range 3).foldl (fun (w : BitVec 1536) d =>
    if (List.range 3).all (fun k => decide (coordOf c k < (size[Fin.ofNat 3 k]).val)) && !linkStands v size wrap c d then
      let a := if d = 0 then coordOf c 1 else coordOf c 0
      let b := if d = 2 then coordOf c 1 else coordOf c 2
      setBit w (8 * (64 * d + 8 * a + b) + coordOf c d) true
    else w) w) 0

/-- Whether the link of a placed module's port joins it to a placed module that does not lie one step away, or crosses a wrap
that the dimension does not have (R353). -/
def badPort (v : Survey) (size : Vector (Fin 9) 3) (wrap : Vector Bool 3) (n : SurveyNode) (p : Fin 6) : Option SurveyNode :=
  (n.peers[p]).bind fun id => (v.nodes.find? fun m => m.ident = id).bind fun m =>
    if stepCoord size wrap n.coord p = some m.coord then none else some m

/-- The modules left unplaced for such a link: those at both of its ends, the origin excepted, whose coordinates are given. -/
def misplaced (v : Survey) (size : Vector (Fin 9) 3) (wrap : Vector Bool 3) : List Word :=
  (v.nodes.flatMap fun n => (List.finRange 6).flatMap fun p =>
    match badPort v size wrap n p with
    | some m => [n, m]
    | none => []).filterMap fun n => if n.coord = 0 then none else some n.ident

/-- An address and the maps take effect on this module. -/
def State.assignSelf (s : State) (addr : BitVec 15) (size : Vector (Fin 9) 3) (wrap : Vector Bool 3) (map : FabMap) : State :=
  let s := s.modFab fun b => { b with addr := addr, size := size, wrap := wrap, map := map, valid := true }
  s.modFab fun b => { b with
    ports := Vector.ofFn fun p =>
      let x := b.ports[p]
      if x.state = 2 then { x with state := 3, mode := b.modeOf p } else { x with mode := if x.mode = 0 then 0 else b.modeOf p } }

/-- The wraps that the origin assigns: in hall mode Z does not wrap (R368). -/
def FabState.wrapsNow (b : FabState) : Vector Bool 3 := if b.hall then b.cfgWrap.set 2 false else b.cfgWrap

/-- This module is held at VALID = 0 for a survey: its up ports await an address (R354). -/
def State.unassign (s : State) : State :=
  s.modFab fun b => { b with valid := false, ports := b.ports.map fun x => if x.state = 3 then { x with state := 2 } else x }

/-- The survey is complete: maps derived, every placed module assigned, event 0x3080. -/
def State.surveyEnd (s : State) (v : Survey) : State :=
  let b := s.fab
  let out := misplaced v b.cfgSize b.wrapsNow
  let v := { v with nodes := v.nodes.filter fun n => !out.contains n.ident }
  let fail := surveyFail v b.cfgSize b.wrapsNow
  let b' := { b with size := b.cfgSize, wrap := b.wrapsNow, map := ⟨fail, 0⟩ }
  let map : FabMap := ⟨fail, b'.unreachable⟩
  let s := if out.isEmpty then s else s.fabPost 0x3081
  let base := 512 * b.cfgSlice.val
  -- the farthest first, so that a source route crosses only modules still held at VALID = 0
  let s := v.nodes.reverse.foldl (fun t n =>
    t.sendMgmt n.route (.assign n.route (BitVec.ofNat 15 (base + n.coord)) b.cfgSize b.wrapsNow map)) s
  let tree : BitVec 6 := v.nodes.foldl (fun w n => match n.route with | [p] => setBit w p.val true | _ => w) 0
  let s := s.modFab fun b => { b with survey := none, placed := v.nodes, parent := none, tree := tree }
  (s.assignSelf (BitVec.ofNat 15 base) b.cfgSize b.wrapsNow map).fabPost 0x3080

/-- The survey goes on to the modules that a placed one names, or ends when nothing is awaited. -/
def State.surveyOn (s : State) (n : SurveyNode) : State :=
  (List.finRange 6).foldl (fun t p =>
    match n.peers[p], t.fab.survey with
    | some id, some v =>
      if v.nodes.any (fun m => m.ident = id) || v.bad.contains id ||
          v.waiting.any (fun r => decide (r = n.route ++ [p])) then t
      else t.askSurvey (n.route ++ [p])
    | _, _ => t) s

def State.surveyCheck (s : State) : State :=
  match s.fab.survey with
  | some v => if v.waiting.isEmpty then s.surveyEnd v else s
  | none => s

/-- DISCOVERY_START: the origin gives itself the coordinates 0, 0, 0 and asks its neighbours. -/
def State.discoveryStart (s : State) : State :=
  if !s.fab.origin then s
  else
    let self : SurveyNode := ⟨Config.deviceId, 0, [], s.fab.peers⟩
    let s := s.unassign.modFab fun b => { b with survey := some ⟨[self], [], []⟩ }
    (s.surveyOn self).surveyCheck

def execDiscoveryStart (s : State) : Answer := .next (if s.serves .management then s.discoveryStart else s)

/-- A SURVEY that ends here, over port p: the module is held at VALID = 0 and answers with a REPORT; at another origin it is
a fault. -/
def State.surveyIn (s : State) (p : Fin 6) (route : List (Fin 6)) : State :=
  let s := s.unassign.modFab fun b => { b with parent := some p, tree := 0 }
  let t := s.emit (.mgmt p s.fab.addr 0x70 (.report route Config.deviceId s.fab.origin s.fab.peers))
  if s.fab.origin then t.surveyFault else t

/-- The failure map and the unreachable set that the placed modules' ends give; a map that has changed goes to every placed
module over the present one, and takes effect here (R357, R358). -/
def State.remap (s : State) : State :=
  let b := s.fab
  let fail := surveyFail ⟨b.placed, [], []⟩ b.size b.wrap
  if fail = b.map.fail then s
  else
    let map : FabMap := ⟨fail, { b with map := ⟨fail, 0⟩ }.unreachable⟩
    let tell (t : State) (n : SurveyNode) : State :=
      let dst := b.addr.toNat / 512 * 512 + n.coord
      match b.nextPort (fun p => decide (b.ports[p].state = 3)) b.addr.toNat dst 0 with
      | .out p _ _ => t.emit (.mgmt p b.addr 0x70 (.failureMap (BitVec.ofNat 15 dst) map))
      | _ => t
    ((b.placed.foldl tell s).modFab fun b => { b with map := map }).fabPost 0x3082

/-- What the ends of a placed module's links are has changed: the origin derives its maps anew. -/
def State.endsChanged (s : State) (ident : Word) (peers : Vector (Option Word) 6) : State :=
  if s.fab.valid && s.fab.origin then
    (s.modFab fun b => { b with placed := b.placed.map fun n => if n.ident = ident then { n with peers := peers } else n }).remap
  else s

/-- The ends of this module's links have changed: the origin derives its maps anew, and a placed module reports to its
origin (R357; the message that reports is DESIGN CHOICE, log 187). -/
def State.linksChanged (s : State) : State :=
  let b := s.fab
  if !b.valid then s
  else if b.origin then s.endsChanged Config.deviceId b.peers
  else
    match b.nextPort (fun p => decide (b.ports[p].state = 3)) b.addr.toNat (b.addr.toNat / 512 * 512) 0 with
    | .out p _ _ => s.emit (.mgmt p b.addr 0x70 (.report [] Config.deviceId false b.peers))
    | _ => s

/-- A REPORT reaches the origin: of a survey, or of a placed module whose links have changed. -/
def State.reportIn (s : State) (route : List (Fin 6)) (ident : Word) (origin : Bool) (peers : Vector (Option Word) 6) : State :=
  match s.fab.survey with
  | none => s.endsChanged ident peers
  | some v =>
    if !v.waiting.contains route then s
    else if origin && decide (ident ≠ Config.deviceId) then s.surveyFault
    else
      let v := { v with waiting := v.waiting.erase route }
      let parent := v.nodes.find? fun n => n.route = route.dropLast
      let coord := parent.bind fun n => (route.getLast?).bind fun p => stepCoord s.fab.cfgSize s.fab.wrapsNow n.coord p
      let known := v.nodes.find? fun n => n.ident = ident
      let taken := coord.bind fun c => v.nodes.find? fun n => n.coord = c
      match coord, known, taken with
      | some c, none, none =>
        if v.bad.contains ident then (s.modFab fun b => { b with survey := some v }).surveyCheck
        else
          let n : SurveyNode := ⟨ident, c, route, peers⟩
          ((s.modFab fun b => { b with survey := some { v with nodes := v.nodes ++ [n] } }).surveyOn n).surveyCheck
      | some c, some n, _ =>
        if n.coord = c then (s.modFab fun b => { b with survey := some v }).surveyCheck
        else
          -- a module that would need two coordinates is left unplaced
          let v := { v with nodes := v.nodes.filter fun m => decide (m.ident ≠ ident), bad := v.bad ++ [ident] }
          ((s.modFab fun b => { b with survey := some v }).fabPost 0x3081).surveyCheck
      | _, _, _ =>
        let v := { v with bad := v.bad ++ [ident] }
        ((s.modFab fun b => { b with survey := some v }).fabPost 0x3081).surveyCheck

/-- A new failure map and unreachable set take effect (R357, R358). -/
def State.newMap (s : State) (map : FabMap) : State := (s.modFab fun b => { b with map := map }).fabPost 0x3082

/-! ### Crown's management work in its turn (R461) -/

/-- What Crown does with a message that came over port p. -/
def State.messageWork (s : State) (p : Fin 6) (m : FabMgmt) : State :=
  match m with
  | .survey route => s.surveyIn p route
  | .report route ident origin peers => s.reportIn route ident origin peers
  | .assign _ addr size wrap map => s.assignSelf addr size wrap map
  | .failureMap _ map => s.newMap map

/-- TB_BRIDGE[k] takes a value (R389). -/
def State.bridgeStore (s : State) (k : Fin 2) (v : Word) : State :=
  { s with tb := { s.tb with
      bridge := s.tb.bridge.set k (setBit v 63 true), lastBridge := s.tb.lastBridge.set k (some s.tb.cnt) } }

/-- One piece of management work. -/
def State.mgmtWork (s : State) (w : MgmtWork) : State :=
  match w with
  | .message p m => s.messageWork p m
  | .bridge k v => s.bridgeStore k v
  | .links => s.linksChanged

/-- The oldest management work is done, if no class above is ready. -/
def State.mgmtServe (s : State) : State :=
  match s.crn.mgmtQ with
  | [] => s
  | w :: rest =>
    if s.serves .management then
      State.mgmtWork { s with crn := { s.crn with mgmtQ := rest } } w
    else s

/-- Management work arrives, behind what waits; Crown takes it up at once if it may. -/
def State.mgmtArrive (s : State) (w : MgmtWork) : State :=
  let n := s.crn.mgmtQ.length + 1
  (List.range n).foldl (fun t _ => t.mgmtServe) { s with crn := { s.crn with mgmtQ := s.crn.mgmtQ ++ [w] } }

/-- A command that may take a link of this module down, hold it or bring it back, which gives Crown work (R357, R461). -/
def State.watchLinks (s : State) (f : State → State) : State :=
  let t := f s
  if decide (t.fab.peers = s.fab.peers) then t else t.mgmtArrive .links

def execFabricPortTrained (p : Fin 6) (lanes : BitVec 5) (s : State) : Answer :=
  .next (s.watchLinks fun t => t.fabTrained p lanes)

def execFabricLinkDown (p : Fin 6) (s : State) : Answer := .next (s.watchLinks fun t => t.fabLinkDown p)

def execFabPortRetrain (p : Fin 6) (ini : Initiator) (s : State) : Answer := .next (s.watchLinks fun t => t.retrain p ini)

def execHello (p : MgmtAt) (h : Hello) (s : State) : Answer := .next (s.watchLinks fun t => t.helloIn p.port p.head h)

def execCredit (p : Fin 6) (cnt : Vector (BitVec 16) 4) (ack : BitVec 32) (nak : Bool) (s : State) : Answer :=
  .next (s.watchLinks fun t => t.creditIn p cnt ack nak)

def execSurvey (p : MgmtAt) (route : List (Fin 6)) (s : State) : Answer :=
  inRange s (routeOk route) (s.mgmtIn p.port 2 p.head fun s => s.mgmtArrive (.message p.port (.survey route)))

def execReport (p : MgmtAt) (route : List (Fin 6)) (who : ModuleIdent) (peers : Vector (Option Word) 6) (s : State) : Answer :=
  inRange s (routeOk route) (s.mgmtIn p.port 3 p.head fun s =>
    s.mgmtArrive (.message p.port (.report route who.ident who.origin peers)))

/-- ASSIGN: an address, sizes and maps. -/
def execAssign (p : MgmtAt) (addr : BitVec 15) (shape : SliceShape) (map : FabMap) (s : State) : Answer :=
  .next (s.mgmtIn p.port 4 p.head fun s => s.mgmtArrive (.message p.port (.assign [] addr shape.size shape.wrap map)))

def execFailureMap (x : MapAt) (s : State) : Answer :=
  .next (s.mgmtIn x.port 5 x.head fun s => s.mgmtArrive (.message x.port (.failureMap 0 x.map)))

end Sys2Proof.Machine
end

