-- ==== Sys2Proof/Machine/Engine.lean ====
section
/-! DEFINITION. How every engine handles its queue (R66 to R71, R74, R88, R90, R539): starting a command, refusing it,
performing it, completing it. Reads and writes obey the slot tags line by line: a command first reads its lines, each once its
tag permits, then works out its results, then writes them line by line; in between the engine holds its queue (log entry
16). -/

namespace Sys2Proof.Machine

/-! ### The common header (R67) -/

def EngCmd.cspec (q : EngCmd) : Nat := fld q.w0 56 8
def EngCmd.part (q : EngCmd) : Fin 4 := Fin.ofNat 4 (fld q.w0 50 2)
def EngCmd.setop (q : EngCmd) : Nat := fld q.w0 48 2
def EngCmd.settag (q : EngCmd) : Nat := fld q.w0 36 12
def EngCmd.waitop (q : EngCmd) : Nat := fld q.w0 34 2
def EngCmd.waittag (q : EngCmd) : Nat := fld q.w0 22 12
def EngCmd.csen (q : EngCmd) : Bool := bit q.w0 21
def EngCmd.csync (q : EngCmd) : Nat := fld q.w0 12 9
def EngCmd.opc (q : EngCmd) : Nat := fld q.w0 4 8

/-- Whether the header carries a reserved encoding (R67, R12). -/
def EngCmd.headerBad (q : EngCmd) : Bool :=
  decide (fld q.w0 52 4 ≠ 0) || decide (q.setop = 3) || decide (q.waitop = 3)

/-- Whether the start condition holds; it is checked once, at start (R69). -/
def EngCmd.mayStart (q : EngCmd) (p : SpdState) : Bool :=
  match q.waitop with
  | 1 => (p.tag q.waittag).full
  | 2 => !(p.tag q.waittag).full
  | _ => true

/-- What performing a command comes to. -/
inductive EngineRun where
  /-- A line's slot tag does not permit the access yet (R88, R90); `s` holds how far the command has come. -/
  | hold (s : State)
  /-- The engine refuses the command (R71). -/
  | refuse
  /-- The command stops and the task ends with this status; `s` holds what it did before (R330). -/
  | fail (status : Nat) (s : State)
  /-- Part of its work is performed, up to this phase; the rest comes when its row next comes. -/
  | wait (phase : Nat) (s : State)
  /-- Its results are worked out; its writes are due, and then its completion. -/
  | done (s : State)

/-- The same outcome with the state it holds changed. -/
def EngineRun.map (f : State → State) : EngineRun → EngineRun
  | .hold s => .hold (f s)
  | .refuse => .refuse
  | .fail st s => .fail st (f s)
  | .wait n s => .wait n (f s)
  | .done s => .done (f s)

/-- The same outcome, with `f` applied where the command holds. -/
def EngineRun.onHold (f : State → State) : EngineRun → EngineRun
  | .hold s => .hold (f s)
  | r => r

/-- The command at the head leaves the queue and is started (R70). -/
def EngState.start (g : EngState) : EngState :=
  match g.queue with
  | [] => g
  | q :: rest => { queue := rest, active := g.active ++ [⟨q, false⟩], phase := 0, work := EngWork.none }

/-- The started command that is not yet performed, if any. -/
def EngState.current (g : EngState) : Option EngCmd := (g.active.find? fun a => !a.done).map (·.cmd)

/-- The command in work is performed. -/
def EngState.perform (g : EngState) : EngState :=
  { g with active := g.active.map fun a => { a with done := true }, work := EngWork.none }

/-- The command in work stops without completion action. -/
def EngState.abandon (g : EngState) : EngState := { g with active := g.active.filter fun a => a.done, work := EngWork.none }

/-! ### Accesses, line by line (R69, R88, R539) -/

/-- The bytes of a range through the wide view: the banks', not the Cuff's (R83). -/
def SpdState.wideRead (p : SpdState) (a n : Nat) : List Byte := p.mem.read a n

/-- A wide write that reaches its bank at once. -/
def State.bankWrite (s : State) (c : CoreId) (a : Nat) (bs : List Byte) : State :=
  s.modSpd c fun p => { p with mem := p.mem.write a bs }

/-- Little-endian number of `n` bytes through the wide view. -/
def SpdState.num (p : SpdState) (a n : Nat) : Nat := p.mem.num a n

/-- Writes that engine `e`'s command in work has worked out, in order, cut into pieces of at most `unit` bytes. -/
def State.enginePut (s : State) (c : CoreId) (e : Fin 7) (narrow : Bool) (unit a : Nat) (bs : List Byte) : State :=
  s.modEng c e fun g => { g with work := { g.work with
    puts := g.work.puts ++ (cut unit (bs.length + 1) a bs).map fun r => ⟨r.1, r.2, narrow⟩ } }

/-- A wide write of engine `e`'s command in work. -/
def State.wideWrite (s : State) (c : CoreId) (e : Fin 7) (a : Nat) (bs : List Byte) : State := s.enginePut c e false 256 a bs

/-- Narrow writes of engine `e`'s command in work, of at most 8 bytes each (R47, R81). -/
def State.narrowPut (s : State) (c : CoreId) (e : Fin 7) (a : Nat) (bs : List Byte) : State := s.enginePut c e true 8 a bs

/-- A line read, with what it held, kept for the command in work. -/
def State.keepLine (s : State) (c : CoreId) (e : Fin 7) (l : Nat) (bs : List Byte) : State :=
  s.modEng c e fun g => { g with work := { g.work with latch := SMap.insert l bs g.work.latch } }

/-- The command in work has made an access that is not performed. -/
def State.loseAccess (s : State) (c : CoreId) (e : Fin 7) : State :=
  s.modEng c e fun g => { g with work := { g.work with lost := true } }

/-- Whether a line lies in the scratchpad and in a powered bank. -/
def SpdState.lineOn (p : SpdState) (l : Nat) : Bool := decide (256 * l < spdBytes) && p.powered (256 * l)

/-- Read lines in order up to the first whose tag does not permit it; whether all are read. A line without power is not read
and gives free bytes. -/
def State.readLines (c : CoreId) (e : Fin 7) : List Nat → State → Bool × State
  | [], s => (true, s)
  | l :: ls, s =>
    let p := s.cores[c].spd
    if s.cores[c].engines[e].work.latch.any fun x => x.1 = l then State.readLines c e ls s
    else if !p.lineOn l then
      let d := s.drawBytes 256
      State.readLines c e ls ((d.2.loseAccess c e).keepLine c e l d.1)
    else if p.mayRead l then State.readLines c e ls (s.keepLine c e l (p.wideRead (256 * l) 256))
    else (false, s)

/-- Lines that ranges (address, length) touch. -/
def rangeLines (rs : List (Nat × Nat)) : List Nat := rs.flatMap fun r => linesOf r.1 r.2

/-- Whether every line of some ranges is powered and its tag permits a read. -/
def SpdState.readable (p : SpdState) (rs : List (Nat × Nat)) : Bool := (rangeLines rs).all fun l => p.lineOn l && p.mayRead l

/-- The scratchpad as the command in work has read it: lines it keeps show what they held then. -/
def State.showLines (s : State) (c : CoreId) (e : Fin 7) : State :=
  let kept := s.cores[c].engines[e].work.latch
  s.modSpd c fun p => { p with mem := kept.foldl (fun m x => m.write (256 * x.1) x.2) p.mem }

/-- The scratchpad's bytes put back as they were. -/
def State.withMem (s : State) (c : CoreId) (m : Mem) : State := s.modSpd c fun p => { p with mem := m }

/-- A part of a command that reads some ranges of the scratchpad: `work` on what they hold, once all are read. Where every line
may be read at once the work is done at once; else the command holds with the lines it has, and `work` sees each line as it
was when it was read. -/
def State.overSpd (s : State) (c : CoreId) (e : Fin 7) (rs : List (Nat × Nat)) (work : State → EngineRun) : EngineRun :=
  let keep (t : State) : State := (State.readLines c e (rangeLines rs) t).2
  if s.cores[c].engines[e].work.latch.isEmpty && s.cores[c].spd.readable rs then (work s).onHold keep
  else
    let r := State.readLines c e (rangeLines rs) s
    if r.1 then (work (r.2.showLines c e)).map fun t => t.withMem c s.cores[c].spd.mem else .hold r.2

/-- A write reaches the Cuff or its bank. -/
def SpdState.putNow (p : SpdState) (e : Nat) (x : EngPut) : SpdState :=
  if x.narrow then p.narrowWrite x.addr x.bytes e else { p with mem := p.mem.write x.addr x.bytes }

/-- Make the writes that are due, in order, up to the first whose tag does not permit it: the scratchpad, the writes still due,
and whether one was not performed for want of power. -/
def drainPuts (e : Nat) : List EngPut → SpdState → Bool → SpdState × List EngPut × Bool
  | [], p, lost => (p, [], lost)
  | x :: xs, p, lost =>
    if !p.lineOn (x.addr / 256) then drainPuts e xs p true
    else if p.mayWrite (x.addr / 256) then drainPuts e xs (p.putNow e x) lost
    else (p, x :: xs, lost)

/-- An access that was not performed ends the task with 0x88 (R539); the started command goes on (R74 step 3). -/
def State.noteLost (s : State) (c : CoreId) (e : Fin 7) : State :=
  if s.cores[c].engines[e].work.lost then
    (s.modEng c e fun g => { g with work := { g.work with lost := false } }).failTask c 0x88
  else s

/-- The engine makes the writes that are due; once none is left the command in work is performed. -/
def State.finishWork (s : State) (c : CoreId) (e : Fin 7) : State :=
  let w := s.cores[c].engines[e].work
  let r := drainPuts e.val w.puts s.cores[c].spd w.lost
  let s := (s.modSpd c fun _ => r.1).modEng c e fun g => { g with work := { g.work with puts := r.2.1, lost := r.2.2 } }
  let s := s.noteLost c e
  if r.2.1.isEmpty then s.modEng c e EngState.perform else s

/-- The results of the command in work are worked out, and its writes begin. -/
def State.performed (s : State) (c : CoreId) (e : Fin 7) : State :=
  (s.modEng c e fun g => { g with work := { g.work with computed := true } }).finishWork c e

/-- One 16-bit counter of a register raised by one, saturating. -/
def count16 (w : Word) (lo : Nat) : Word := setFld w lo 16 (satAdd 0xFFFF (fld w lo 16) 1)

/-- VCNT and SELCNT count refused commands (R263, R282). -/
def CoreSt.countRefusal (k : CoreSt) (e : Fin 7) : CoreSt :=
  match e with
  | 2 => { k with vec := { k.vec with vcnt := count16 k.vec.vcnt 48 } }
  | 3 => { k with selcnt := count16 k.selcnt 48 }
  | _ => k

/-- The engine refuses the command in work: its own event, and the task ends with 0x87 (R71). -/
def State.engineRefuse (s : State) (c : CoreId) (e : Fin 7) (event : Nat) (src : Ini) : State :=
  let s := (s.modEng c e EngState.abandon).modCore c fun k => k.countRefusal e
  (s.post event src).failTask c 0x87

/-- The engine works on its command in work. -/
def State.engineWork (s : State) (c : CoreId) (e : Fin 7) (event : Nat) (src : Ini) (run : EngCmd → State → EngineRun) :
    State :=
  match s.cores[c].engines[e].current with
  | none => s
  | some q =>
    if s.cores[c].engines[e].work.computed then s.finishWork c e
    else if q.headerBad then s.engineRefuse c e event src
    else match run q s with
      | .hold t => t.noteLost c e
      | .refuse => s.engineRefuse c e event src
      | .fail st t => (t.modEng c e EngState.abandon).failTask c st
      | .wait n t => (t.modEng c e fun g => { g with phase := n }).noteLost c e
      | .done t => t.performed c e

/-- A step of engine `e`: the command in work, or the head once its WAITOP holds, when its opcode is one of
`mine`. An opcode outside `listed` belongs to no row, so every row of the engine refuses it. -/
def State.engineStep (s : State) (c : CoreId) (e : Fin 7) (mine listed : Nat → Bool) (event : Nat) (src : Ini)
    (run : EngCmd → State → EngineRun) : State :=
  let g := s.cores[c].engines[e]
  let takes (q : EngCmd) : Bool := mine q.opc || !listed q.opc
  let run' (q : EngCmd) (t : State) : EngineRun := if mine q.opc then run q t else .refuse
  match g.current with
  | some q => if takes q then s.engineWork c e event src run' else s
  | none =>
    match g.queue with
    | [] => s
    | q :: _ =>
      if takes q && q.mayStart s.cores[c].spd then (s.modEng c e EngState.start).engineWork c e event src run'
      else s

/-- An engine command finishes: after its writes are visible, SETOP and then CSYNC, in queue order (R69). Narrow
writes of the engine leave the Cuff first, so that every write is visible (R27). -/
def State.engineComplete (s : State) (c : CoreId) (e : Fin 7) : State :=
  match s.cores[c].engines[e].active with
  | [] => s
  | a :: rest =>
    if a.done then
      let q := a.cmd
      let s := s.modEng c e fun g => { g with active := rest }
      let s := s.modSpd c fun p => p.flushIf fun x => bit x.owners e.val
      let s := match q.setop with
        | 1 => s.modSpd c fun p => p.setTag q.settag true
        | 2 => s.modSpd c fun p => p.setTag q.settag false
        | _ => s
      if q.csen then s.syncAdd c q.csync 1 else s
    else s

/-- A DDR read of an engine for which the spec names no reaction to an error completion: the bytes are free then. -/
def State.ddrReadFree (s : State) (who : DdrWho) (a n : Nat) : State × List Byte :=
  match s.ddrRead who a n with
  | (t, some bs) => (t, bs)
  | (t, none) => let x := t.drawBytes n; (x.2, x.1)

/-! ### The fetch engine (R72, R330) -/

def fetListed (o : Nat) : Bool := decide (o = 1) || decide (o = 2)

/-- Copy the 256-byte lines of a list of (DDR address, scratchpad offset) in order, the `n`-th first: each is read from DDR once
its slot permits the write, a line without power is not written, and the first error completion stops the command. -/
def State.fetLines (c : CoreId) (who : DdrWho) : Nat → List (Nat × Nat) → State → EngineRun
  | _, [], s => .done s
  | n, (src, dst) :: rest, s =>
    if s.cores[c].spd.lineOn (dst / 256) && !s.cores[c].spd.mayWrite (dst / 256) then .wait n s
    else match s.ddrRead who src 256 with
      | (t, none) => .fail 0x8D t
      | (t, some bs) =>
        State.fetLines c who (n + 1) rest (if t.cores[c].spd.lineOn (dst / 256) then t.bankWrite c dst bs else t.loseAccess c 0)

/-- A FET command goes on with the line it has come to. -/
def State.fetFrom (s : State) (c : CoreId) (who : DdrWho) (lines : List (Nat × Nat)) : EngineRun :=
  let n := s.cores[c].engines[(0 : Fin 7)].phase
  State.fetLines c who n (lines.drop n) s

/-- The right of an engine command: the core's identifier and the partition in PART (R68). -/
def cmdWho (c : CoreId) (q : EngCmd) : DdrWho := .part (coreIni c) q.part

/-- Whether a length is a multiple of 256 B from 256 B to 8 MiB. -/
def lineLen (n : Nat) : Bool := decide (n % 256 = 0) && decide (256 ≤ n) && decide (n ≤ spdBytes)

/-- Limits of word 1 and of DST and LEN that both FET commands share. -/
def fetFormOk (q : EngCmd) : Bool :=
  decide (q.cspec = 0) && decide (fld q.w1 48 16 = 0) && decide (fld q.w1 0 48 % 256 = 0) &&
    decide (fld q.w2 23 9 = 0) && decide (fld q.w2 0 23 % 256 = 0) && lineLen (fld q.w2 32 32)

/-- Opcode 0x01: a linear range. -/
def State.fetLinear (s : State) (c : CoreId) (q : EngCmd) : EngineRun :=
  let src := fld q.w1 0 48
  let len := fld q.w2 32 32
  let dst := fld q.w2 0 23
  if !(fetFormOk q && decide (q.w3 = 0) && decide (dst + len ≤ spdBytes)) then .refuse
  else s.fetFrom c (cmdWho c q) ((List.range (len / 256)).map fun i => (src + 256 * i, dst + 256 * i))

/-- Opcode 0x02: strided rows, packed densely. -/
def State.fet2d (s : State) (c : CoreId) (q : EngCmd) : EngineRun :=
  let src := fld q.w1 0 48
  let len := fld q.w2 32 32
  let dst := fld q.w2 0 23
  let stride := fld q.w3 32 32
  let rows := fld q.w3 0 32
  if !(fetFormOk q && decide (stride % 256 = 0) && decide (len ≤ stride) && decide (1 ≤ rows) && decide (rows ≤ 32768) &&
      decide (dst + rows * len ≤ spdBytes)) then .refuse
  else s.fetFrom c (cmdWho c q) ((List.range rows).flatMap fun r =>
    (List.range (len / 256)).map fun i => (src + r * stride + 256 * i, dst + r * len + 256 * i))

def execFetLinear (c : CoreId) (s : State) : Answer :=
  .next (s.engineStep c 0 (· == 1) fetListed 0x1040 (coreIni c) fun q t => t.fetLinear c q)

def execFet2d (c : CoreId) (s : State) : Answer :=
  .next (s.engineStep c 0 (· == 2) fetListed 0x1040 (coreIni c) fun q t => t.fet2d c q)

end Sys2Proof.Machine
end

