-- ==== Sys2Proof/Machine/Matrix.lean ====
section
/-! DEFINITION. The matrix engine (chapter 08): formats, operand layout, integer and floating accumulation, MMUL, the
activity ramp, and the residue errors of all engines. -/

namespace Sys2Proof.Machine

def State.modMxe (s : State) (c : CoreId) (f : MxeState → MxeState) : State :=
  s.modCore c fun k => { k with mxe := f k.mxe }

/-! ### Formats and layout (R192 to R194) -/

/-- K-elements per line of a format. -/
def kPerLine (fmt : Nat) : Nat :=
  match fmt with
  | 1 => 32
  | 6 | 7 | 9 | 0xA => 8
  | 8 => 4
  | _ => 16

/-- Whether a format accumulates in INT32. -/
def fmtInt (fmt : Nat) : Bool := decide (fmt = 0) || decide (fmt = 1) || decide (fmt = 9) || decide (fmt = 0xA)

/-- Bytes of a result tile. -/
def tileBytes (fmt : Nat) : Nat := if fmt = 0xA then 2048 else 1024

/-- The floating format of operand A (`b` false) or B. -/
def fmtFloat (fmt : Nat) (b : Bool) : Fmt :=
  match fmt with
  | 2 => fp8e4m3
  | 3 => if b then fp8e5m2 else fp8e4m3
  | 4 => if b then fp8e4m3 else fp8e5m2
  | 5 => fp8e5m2
  | 6 => bf16
  | 7 => fp16
  | _ => fp32

/-- Element k of the 16-byte row at address `a`, as raw bits (R193). -/
def rawElem (p : SpdState) (fmt a k : Nat) : Nat :=
  match fmt with
  | 1 => let b := p.num (a + k / 2) 1; if k % 2 = 0 then b % 16 else b / 16
  | 6 | 7 | 9 => p.num (a + 2 * k) 2
  | 8 => p.num (a + 4 * k) 4
  | _ => p.num (a + k) 1

/-- The integer a raw element stands for. -/
def intElem (fmt raw : Nat) : Int := toSigned (if fmt = 1 then 4 else if fmt = 9 then 16 else 8) raw

/-- Saturation to INT32. -/
def sat32 (x : Int) : Int := max (-(2 ^ 31)) (min (2 ^ 31 - 1) x)

/-- Accumulation of step sums onto an entry in ascending K-line, and whether it ever saturated (R198). -/
def accumulate (start : Int) (steps : List Int) : Int × Bool :=
  steps.foldl (fun a x => (sat32 (a.1 + x), a.2 || decide (sat32 (a.1 + x) ≠ a.1 + x))) (start, false)

/-! ### Floating sums in an order the engine does not promise (R199, R200) -/

/-- The element at `i` taken out of a list. -/
def takeAt {α : Type} (l : List α) (i : Nat) : Option (α × List α) := (l[i]?).map fun x => (x, l.eraseIdx i)

/-- Terms combined two at a time in FP32, in the order that `ord` gives by step. -/
def sumTree (ord : Nat → Nat × Nat) : Nat → List FV → FV
  | 0, l => l.headD FV.zero
  | n + 1, l =>
    match takeAt l ((ord n).1 % l.length) with
    | none => FV.zero
    | some (a, r) => match takeAt r ((ord n).2 % r.length) with
      | none => a
      | some (b, q) => sumTree ord n (fp32.add a b :: q)

/-- The FP32 sum of terms for entry `e` under draw `d`. -/
def freeSum (d e : Nat) (l : List FV) : FV := sumTree (Config.fpOrder d e) (l.length - 1) l

/-- hi and lo of the split of an FP32 operand (R201). -/
def splitHi (x : FV) : FV :=
  match x with
  | .fin s m _ => if m = 0 then x else match bf16.round x with
    | .inf _ => .fin s bf16.maxFin.1 bf16.maxFin.2
    | y => y
  | y => y
def splitLo (x : FV) : FV :=
  match x with
  | .fin _ m _ => if m = 0 then FV.zero else bf16.round (x.add (splitHi x).neg)
  | _ => FV.zero

/-- A cross term: +0 when its lo factor is zero. -/
def crossTerm (hi lo : FV) : FV := if lo.isZero then FV.zero else fp32.mul hi lo

/-- The terms that one pair of floating elements contributes. Special values arise from hi times hi alone: where it is one, or
rounds to one, the cross terms add nothing to it. -/
def productTerms (fmt : Nat) (a b : FV) : List FV :=
  if fmt = 8 then
    let h := fp32.mul (splitHi a) (splitHi b)
    if h.isFinite then [h, crossTerm (splitHi a) (splitLo b), crossTerm (splitHi b) (splitLo a)] else [h]
  else [fp32.mul a b]

/-! ### Results -/

/-- What the entries of a command have come to: entries saturated, and whether one is a NaN or an infinity. -/
structure MmFlags where
  sat : Nat
  nan : Bool
  inf : Bool

def MmFlags.zero : MmFlags := ⟨0, false, false⟩

/-- The flags that a drained floating entry raises. -/
def MmFlags.drain (f : MmFlags) (bits : Nat) : MmFlags :=
  let v := fp32.decode bits
  { f with nan := f.nan || v.isNan, inf := f.inf || (match v with | .inf _ => true | _ => false) }

/-- The bits of entry `e` under draw `d`: what it starts with, to which its terms are added in an order the engine does not
promise; an entry with no term drains what it started with (R199, R231). -/
def floatEntry (d e start : Nat) (terms : List FV) : Nat :=
  if terms.isEmpty then start else fp32.encode (freeSum d e (fp32.decode start :: terms))

/-- The command status (R210); `extra` is MFL above bit 2. -/
def mmStatus (f : MmFlags) (extra : Nat) : List Byte :=
  leBytes 4 (min f.sat 0xFFFFFFFF) ++
    leBytes 4 (ofBool (decide (0 < f.sat)) + 2 * ofBool f.nan + 4 * ofBool f.inf + extra)

/-- clk added to MXCNT.THRK, in units of 1,024 clk. -/
def MxeState.throttle (m : MxeState) (n : Nat) : MxeState :=
  { m with
    thrClk := (m.thrClk + n) % 1024
    mxcnt := setFld m.mxcnt 0 16 (satAdd 0xFFFF (fld m.mxcnt 0 16) ((m.thrClk + n) / 1024)) }

/-- What a product command posts and counts (R198, R199, R208, R210); `steps` is the clk its steps lose where the Brim limit
lets one issue at most every second clk. -/
def State.mmEnd (s : State) (c : CoreId) (f : MmFlags) (steps : Nat) : State :=
  let thr := s.pwr.brim (dieOf c)
  let s := s.modMxe c fun m =>
    let m := if thr then m.throttle steps else m
    { m with
      idleClk := 0
      mxcnt := let w := if 0 < f.sat then count16 m.mxcnt 48 else m.mxcnt
               if f.nan || f.inf then count16 w 32 else w }
  let s := if 0 < f.sat then s.postCore c 0x5002 else s
  if f.nan || f.inf then s.postCore c 0x5003 else s

/-- The value of entry bits as the accumulator loads them. -/
def loadInt (p : SpdState) (acc : Bool) (a : Nat) : Int := if acc then toSigned 32 (p.num a 4) else 0
def loadFloat (p : SpdState) (acc : Bool) (a : Nat) : Nat := if acc then p.num a 4 else 0

/-! ### The ramp (R207) -/

/-- A ramp-up from the groups still enabled; one in progress goes on. -/
def MxeState.rampUp (m : MxeState) : MxeState :=
  if m.groups < 8 ∧ m.ramp ≠ .up then { m with ramp := .up, rampClk := 8 * (8 - m.groups), groups := m.groups + 1 } else m

/-- Whether steps may issue: every group is enabled and no ramp is under way. -/
def MxeState.ready (m : MxeState) : Bool := decide (m.groups = 8) && decide (m.ramp ≠ .up)

/-- A command that finds groups disabled when it starts ramps up at once; its phase keeps that it has. -/
def State.onRamp (s : State) (c : CoreId) (go : State → EngineRun) : EngineRun :=
  if s.cores[c].engines[(1 : Fin 7)].phase = 0 ∧ s.cores[c].mxe.ready = false then .wait 1 (s.modMxe c MxeState.rampUp)
  else (go s).onHold fun t => t.modEng c 1 fun g => { g with phase := 1 }

/-- The steps of a command, which issue once every group is enabled. -/
def State.steps (s : State) (c : CoreId) (go : State → EngineRun) : EngineRun :=
  if s.cores[c].mxe.ready then go s else .hold (s.modMxe c MxeState.rampUp)

/-! ### MMUL (R195 to R203) -/

/-- The fields of an MMUL. -/
structure MmCmd where
  aoff : Nat
  boff : Nat
  coff : Nat
  mb   : Nat
  nb   : Nat
  kl   : Nat
  fmt  : Nat
  acc  : Bool
  zpen : Bool
  zoff : Nat
  soff : Nat
  sen  : Bool

def mmCmd (q : EngCmd) : MmCmd :=
  ⟨fld q.w1 0 23, fld q.w1 23 23, fld q.w2 0 23, fld q.w2 24 11 + 1, fld q.w2 36 11 + 1, fld q.w2 48 12 + 1, fld q.w3 0 4,
    bit q.w3 4, bit q.w3 5, fld q.w3 8 23, fld q.w3 32 23, bit q.w3 55⟩

/-- The rules that word 3 follows for MMUL and SPMM (R195). -/
def word3Ok (x : MmCmd) (w3 : Word) : Bool :=
  decide (fld w3 6 2 = 0) && decide (fld w3 31 1 = 0) && decide (fld w3 56 8 = 0) && (x.zpen || decide (x.zoff = 0)) &&
    (!x.zpen || decide (x.fmt ≤ 1)) && (if x.sen then decide (x.soff % 8 = 0) else decide (x.soff = 0)) &&
    (!x.zpen || decide (x.zoff + 16 * (x.mb + x.nb) ≤ spdBytes)) && (!x.sen || decide (x.soff + 8 ≤ spdBytes))

/-- Limits of an MMUL (R195, R196), apart from the zero-point nibbles. -/
def mmOk (q : EngCmd) : Bool :=
  let x := mmCmd q
  let cn := tileBytes x.fmt * (x.mb * x.nb)
  decide (q.cspec = 0) && decide (fld q.w1 46 18 = 0) && decide (fld q.w2 23 1 = 0) && decide (fld q.w2 35 1 = 0) &&
    decide (fld q.w2 47 1 = 0) && decide (fld q.w2 60 4 = 0) && decide (x.aoff % 256 = 0) && decide (x.boff % 256 = 0) &&
    decide (x.coff % 1024 = 0) && between 1 x.mb 2048 && between 1 x.nb 2048 && decide (x.fmt ≤ 0xA) && word3Ok x q.w3 &&
    decide (x.aoff + 256 * (x.mb * x.kl) ≤ spdBytes) && decide (x.boff + 256 * (x.nb * x.kl) ≤ spdBytes) &&
    decide (x.coff + cn ≤ spdBytes) && !overlap x.coff cn x.aoff (256 * (x.mb * x.kl)) &&
    !overlap x.coff cn x.boff (256 * (x.nb * x.kl)) && !(x.zpen && overlap x.coff cn x.zoff (16 * (x.mb + x.nb))) &&
    !(x.sen && overlap x.coff cn x.soff 8)

/-- Zero points of INT4 whose reserved nibble is not 0 (R198). -/
def zpNibbleBad (p : SpdState) (fmt zoff n : Nat) : Bool :=
  decide (fmt = 1) && (List.range n).any fun i => decide (16 ≤ p.num (zoff + i) 1)

/-- Zero point `i` of a vector. -/
def zpAt (p : SpdState) (fmt zoff i : Nat) : Int := intElem fmt (p.num (zoff + i) 1)

/-- Entry (r, j) of tile (m, n) in an integer format other than complex: the INT32 value and whether it saturated. -/
def mmIntEntry (p : SpdState) (x : MmCmd) (m n r j : Nat) : Int × Bool :=
  let za : Int := if x.zpen then zpAt p x.fmt x.zoff (16 * m + r) else 0
  let zb : Int := if x.zpen then zpAt p x.fmt x.zoff (16 * x.mb + 16 * n + j) else 0
  let step (l : Nat) : Int :=
    ((List.range (kPerLine x.fmt)).map fun k =>
      (intElem x.fmt (rawElem p x.fmt (x.aoff + 256 * (m * x.kl + l) + 16 * r) k) - za) *
        (intElem x.fmt (rawElem p x.fmt (x.boff + 256 * (n * x.kl + l) + 16 * j) k) - zb)).foldl (· + ·) 0
  accumulate (loadInt p x.acc (x.coff + 1024 * (m * x.nb + n) + 4 * (16 * r + j))) ((List.range x.kl).map step)

/-- Entry (r, j) of tile (m, n) of a complex product, real (`im` false) or imaginary part (R203). -/
def mmCplxEntry (p : SpdState) (x : MmCmd) (m n r j : Nat) (im : Bool) : Int × Bool :=
  let e (base k part : Nat) : Int := toSigned 8 (p.num (base + 2 * k + part) 1)
  let step (l : Nat) : Int :=
    let a := x.aoff + 256 * (m * x.kl + l) + 16 * r
    let b := x.boff + 256 * (n * x.kl + l) + 16 * j
    ((List.range 8).map fun k =>
      if im then e a k 0 * e b k 1 + e a k 1 * e b k 0 else e a k 0 * e b k 0 - e a k 1 * e b k 1).foldl (· + ·) 0
  accumulate (loadInt p x.acc (x.coff + 2048 * (m * x.nb + n) + (if im then 1024 else 0) + 4 * (16 * r + j)))
    ((List.range x.kl).map step)

/-- The terms that entry (r, j) of tile (m, n) adds up in a floating format. -/
def mmTerms (p : SpdState) (x : MmCmd) (m n r j : Nat) : List FV :=
  (List.range x.kl).flatMap fun l => (List.range (kPerLine x.fmt)).flatMap fun k =>
    productTerms x.fmt ((fmtFloat x.fmt false).decode (rawElem p x.fmt (x.aoff + 256 * (m * x.kl + l) + 16 * r) k))
      ((fmtFloat x.fmt true).decode (rawElem p x.fmt (x.boff + 256 * (n * x.kl + l) + 16 * j) k))

/-- Where entry (r, j) of tile (m, n) of C lies, where a tile has 1 KiB. -/
def MmCmd.at (x : MmCmd) (m n : Nat) (e : Nat × Nat) : Nat := x.coff + 1024 * (m * x.nb + n) + 4 * (16 * e.1 + e.2)

/-- A list of entries as bytes, with the flags they raise. -/
def entriesInt (es : List (Int × Bool)) (f : MmFlags) : List Byte × MmFlags :=
  (es.flatMap fun e => leBytes 4 (wrapN 32 e.1), { f with sat := f.sat + (es.filter (·.2)).length })

def entriesFloat (es : List Nat) (f : MmFlags) : List Byte × MmFlags :=
  (es.flatMap fun e => leBytes 4 e, es.foldl MmFlags.drain f)

/-- The 256 places of a tile, row by row. -/
def tilePlaces : List (Nat × Nat) := (List.range 256).map fun i => (i / 16, i % 16)

/-- Tile (m, n) of an MMUL under draw `d`. -/
def mmTile (p : SpdState) (x : MmCmd) (d m n : Nat) (f : MmFlags) : List Byte × MmFlags :=
  if x.fmt = 0xA then
    let re := entriesInt (tilePlaces.map fun e => mmCplxEntry p x m n e.1 e.2 false) f
    let im := entriesInt (tilePlaces.map fun e => mmCplxEntry p x m n e.1 e.2 true) re.2
    (re.1 ++ im.1, im.2)
  else if fmtInt x.fmt then entriesInt (tilePlaces.map fun e => mmIntEntry p x m n e.1 e.2) f
  else entriesFloat (tilePlaces.map fun e =>
    floatEntry d (((m * x.nb + n) * 16 + e.1) * 16 + e.2) (loadFloat p x.acc (x.at m n e)) (mmTerms p x m n e.1 e.2)) f

/-- Every tile in ascending m and, within it, n (R197): the state with C written, and the flags. -/
def State.tiles (s : State) (c : CoreId) (mb nb coff tb : Nat) (tile : Nat → Nat → MmFlags → List Byte × MmFlags) :
    State × MmFlags :=
  ((List.range mb).flatMap fun m => (List.range nb).map fun n => (m, n)).foldl
    (fun a e => let t := tile e.1 e.2 a.2
                (a.1.wideWrite c 1 (coff + tb * (e.1 * nb + e.2)) t.1, t.2)) (s, MmFlags.zero)

/-- clk that the steps of `tiles` tiles of `kl` K-lines lose under the Brim limit: one for each step of one clk, and one for each
two K-lines of FP32, which take 3 clk; a step of 2 clk loses none (R192, R208). -/
def throttledClk (fmt tiles kl : Nat) : Nat :=
  match fmt with
  | 8 => tiles * (kl / 2)
  | 9 | 0xA => 0
  | _ => tiles * kl

/-- The ranges an MMUL reads besides the zero points. -/
def MmCmd.reads (x : MmCmd) : List (Nat × Nat) :=
  [(x.aoff, 256 * (x.mb * x.kl)), (x.boff, 256 * (x.nb * x.kl))] ++
    (if x.acc then [(x.coff, tileBytes x.fmt * (x.mb * x.nb))] else [])

/-- The zero points that a command reads first: a reserved nibble that is not 0 refuses it (R196, R198). -/
def State.onZeroPoints (s : State) (c : CoreId) (x : MmCmd) (go : State → EngineRun) : EngineRun :=
  if x.zpen then s.overSpd c 1 [(x.zoff, 16 * (x.mb + x.nb))] fun s =>
    if zpNibbleBad s.cores[c].spd x.fmt x.zoff (16 * (x.mb + x.nb)) then .refuse else go s
  else go s

/-- The products of an MMUL whose operands are read. -/
def State.mmWork (s : State) (c : CoreId) (x : MmCmd) : State :=
  let p := s.cores[c].spd
  let d := s.free
  let t := { s with free := s.free + 1 }.tiles c x.mb x.nb x.coff (tileBytes x.fmt) fun m n f => mmTile p x d m n f
  let s := if x.sen then t.1.wideWrite c 1 x.soff (mmStatus t.2 0) else t.1
  s.mmEnd c t.2 (throttledClk x.fmt (x.mb * x.nb) x.kl)

/-- Opcode 0x01. -/
def State.mmul (s : State) (c : CoreId) (q : EngCmd) : EngineRun :=
  let x := mmCmd q
  if !mmOk q then .refuse
  else s.onRamp c fun s => s.onZeroPoints c x fun s => s.overSpd c 1 x.reads fun s => s.steps c fun s => .done (s.mmWork c x)

def mxeListed (o : Nat) : Bool := decide (o = 1) || between 0x10 o 0x12

/-- MMUL; the row also refuses opcodes that no chapter defines (R195). -/
def execMmul (c : CoreId) (s : State) : Answer :=
  .next (s.engineStep c 1 (· == 1) mxeListed 0x5001 (coreIni c) fun q t => t.mmul c q)

/-! ### The end of activity (R207) and MXCLR (R210) -/

/-- A step of a ramp-down: the first group when no step has issued for 32 clk, one more every 8 clk after that; never during a
ramp-up. -/
def MxeState.rampDown (m : MxeState) : MxeState :=
  if m.ramp ≠ .up ∧ 0 < m.groups ∧ 32 + 8 * (8 - m.groups) ≤ m.idleClk then
    { m with groups := m.groups - 1, ramp := if m.groups = 1 then .idle else .down }
  else m

/-- `n` clk pass: a ramp-up enables a group every 8 clk, and steps issue at its end. -/
def MxeState.clk (m : MxeState) (n : Nat) : MxeState :=
  let left := m.rampClk - n
  let m := { m with idleClk := min 88 (m.idleClk + n), rampClk := left }
  if m.ramp = .up then
    if left = 0 then { m with groups := 8, ramp := .full } else { m with groups := 8 - (left - 1) / 8 }
  else m

/-- MXE has been idle for so long that one more cube group is disabled; a command that waits on a slot tag in mid-run does not
stop it. -/
def State.rampDown (s : State) (c : CoreId) : State := s.modMxe c MxeState.rampDown

def execMxeRampDown (c : CoreId) (s : State) : Answer := .next (s.rampDown c)

/-- A write of MXCLR. -/
def State.mxclr (s : State) (c : CoreId) (h : Half) (v : Word) : State :=
  if bit (carried h v) 0 then s.modMxe c fun m => { m with mxcnt := 0 } else s

/-- A write of SPCLR. -/
def State.spclr (s : State) (c : CoreId) (h : Half) (v : Word) : State :=
  if bit (carried h v) 0 then s.modMxe c fun m => { m with spcnt := 0 } else s

def execMxclr (c : CoreId) (h : Half) (v : Word) (s : State) : Answer := .next (s.mxclr c h v)

def execSpclr (c : CoreId) (h : Half) (v : Word) (s : State) : Answer := .next (s.spclr c h v)

/-! ### Residue and parity errors of the engines (R174, R189, R209, R234, R262, R281) -/

/-- The event of an engine's failed check. -/
def engFaultCode : EngFault → Nat
  | .mxe => 0x5020 | .sparse => 0x5120 | .vec => 0x5220 | .sel => 0x5320 | .geoResidue => 0x4220 | .geoParity => 0x4220 | .ray => 0x4320

/-- The counter of an engine's failed checks. -/
def CoreSt.countFault (k : CoreSt) : EngFault → CoreSt
  | .mxe => { k with mxe := { k.mxe with mxcnt := count16 k.mxe.mxcnt 16 } }
  | .sparse => { k with mxe := { k.mxe with spcnt := count16 k.mxe.spcnt 0 } }
  | .vec => { k with vec := { k.vec with vcnt := count16 k.vec.vcnt 0 } }
  | .sel => { k with selcnt := count16 k.selcnt 0 }
  | .geoResidue => { k with geo := { k.geo with qcnt := count16 k.geo.qcnt 0 } }
  | .geoParity => k
  | .ray => { k with geo := { k.geo with rcnt := count16 k.geo.rcnt 16 } }

/-- A check of an engine fails: the event, the count, the task ends with 0x8C, and the core fences itself whether or not
a task runs (R422). -/
def State.engineFault (s : State) (c : CoreId) (f : EngFault) : State :=
  (((s.modCore c fun k => k.countFault f).postCore c (engFaultCode f)).failTask c 0x8C).fenceCore c

def execMxeResidueError (c : CoreId) (f : EngFault) (s : State) : Answer := .next (s.engineFault c f)

end Sys2Proof.Machine
end

