-- ==== Sys2Proof/Machine/Vector.lean ====
section
/-! DEFINITION. The vector engine (chapter 10): element formats, tensor views, elementwise operations, reductions,
quantisation with two-level scales, requantisation, dequantisation, histograms, and the saturation streams. -/

namespace Sys2Proof.Machine

def State.modVec (s : State) (c : CoreId) (f : VecState → VecState) : State :=
  s.modCore c fun k => { k with vec := f k.vec }

/-- Narrow writes of VEC (R243). -/
def State.vecStore (s : State) (c : CoreId) (a : Nat) (bs : List Byte) : State :=
  s.narrowPut c 2 a bs

/-! ### Element formats (R236, R237) -/

/-- Bits of an element. -/
def vBits (f : Nat) : Nat :=
  match f with
  | 1 => 4
  | 4 | 5 | 8 => 16
  | 6 | 7 => 32
  | _ => 8

def vInt (f : Nat) : Bool := decide (f = 0) || decide (f = 1) || decide (f = 7) || decide (f = 8)
def vFp8 (f : Nat) : Bool := decide (f = 2) || decide (f = 3)

/-- The floating format of a VFMT. -/
def vFmt (f : Nat) : Fmt :=
  match f with
  | 2 => fp8e4m3
  | 3 => fp8e5m2
  | 4 => bf16
  | 5 => fp16
  | _ => fp32

/-- An element's value; a floating one carries its sign bit, which a NaN keeps in FP8. -/
inductive VV where
  | int (x : Int)
  | flt (v : FV) (neg : Bool)

/-- The value of raw bits. -/
def vDecode (f raw : Nat) : VV :=
  if vInt f then .int (toSigned (vBits f) raw) else .flt ((vFmt f).decode raw) (raw.testBit (vBits f - 1))

/-- The value as FP32; an integer beyond 24 bits is rounded. -/
def VV.fp32 : VV → FV
  | .int x => Machine.fp32.round (FV.ofInt x)
  | .flt v _ => v

/-- The result of an operation, NaNs being canonical. -/
def VV.ofFV (v : FV) : VV := .flt v v.isNeg

def qmin (f : Nat) : Int := -(2 ^ (vBits f - 1))
def qmax (f : Nat) : Int := 2 ^ (vBits f - 1) - 1
def clampTo (f : Nat) (x : Int) : Int := max (qmin f) (min (qmax f) x)

/-- A floating value as an integer, for a format: rounded with ties away from zero and saturated; NaN gives 0. -/
def fvInt (v : FV) (lo hi : Int) : Int :=
  match v with
  | .nan => 0
  | .inf s => if s then lo else hi
  | v => max lo (min hi (v.toIntAway.getD 0))

/-- What writing elements has come to (R255, R256). -/
structure VecCnt where
  sat  : Nat
  srow : Nat
  nanc : Nat
  infc : Nat
  rows : Nat
  /-- A NaN or an infinity was written. -/
  bad  : Bool
  /-- A histogram bin saturated. -/
  full : Bool

def VecCnt.zero : VecCnt := ⟨0, 0, 0, 0, 0, false, false⟩
def VecCnt.plus (a b : VecCnt) : VecCnt :=
  ⟨a.sat + b.sat, a.srow + b.srow, a.nanc + b.nanc, a.infc + b.infc, a.rows + b.rows, a.bad || b.bad, a.full || b.full⟩

/-- An FP8 result: saturated to ±FMAX, a NaN with its sign. -/
def fp8Encode (f : Nat) (v : FV) (neg : Bool) : Nat × VecCnt :=
  match v with
  | .nan => ((if f = 2 then 0x7F else 0x7E) + (if neg then 0x80 else 0), { VecCnt.zero with nanc := 1, bad := true })
  | v => ((vFmt f).encode ((vFmt f).clampMax v), { VecCnt.zero with sat := ofBool ((vFmt f).clampMax v != v) })

/-- A value in a destination format (R237): its bits and what it counts. -/
def vEncode (f : Nat) (v : VV) : Nat × VecCnt :=
  if vInt f then
    match v with
    | .int x => (wrapN (vBits f) (clampTo f x), { VecCnt.zero with sat := ofBool (decide (clampTo f x ≠ x)) })
    | .flt .nan _ => (0, { VecCnt.zero with nanc := 1 })
    | .flt (.inf s) _ => (wrapN (vBits f) (if s then qmin f else qmax f), { VecCnt.zero with sat := 1 })
    | .flt v _ =>
      let x := v.toIntAway.getD 0
      (wrapN (vBits f) (clampTo f x), { VecCnt.zero with sat := ofBool (decide (clampTo f x ≠ x)) })
  else
    let w : FV × Bool := match v with
      | .int x => (FV.ofInt x, decide (x < 0))
      | .flt v n => (v, n)
    if vFp8 f then fp8Encode f w.1 w.2
    else
      let r := (vFmt f).round w.1
      let inf := match r with | .inf _ => true | _ => false
      ((vFmt f).encode w.1,
        { VecCnt.zero with nanc := ofBool r.isNan, infc := ofBool inf, bad := r.isNan || inf })

/-! ### Tensor views (R239, R240) -/

/-- Elements per operand line. -/
def vKe (f : Nat) : Nat := if vBits f = 4 then 32 else if vBits f = 16 then 8 else 16

/-- A tensor: base offset, format, layout, and the number of rows and of elements in a row. -/
structure Tensor where
  off  : Nat
  fmt  : Nat
  lay  : Nat
  rows : Nat
  nel  : Nat
  deriving DecidableEq

/-- Bytes from row to row in layout 0b00. -/
def Tensor.rs (t : Tensor) : Nat := ((t.nel * vBits t.fmt + 7) / 8 + 15) / 16 * 16

/-- Lines of a row in layout 0b10. -/
def Tensor.kl (t : Tensor) : Nat := (t.nel + vKe t.fmt - 1) / vKe t.fmt

/-- Bytes a tensor takes. -/
def Tensor.len (t : Tensor) : Nat :=
  match t.lay with
  | 0 => t.rs * t.rows
  | 1 => 4 * (t.rows * t.nel)
  | _ => 256 * (t.rows / 16 * t.kl)

/-- Limits of a layout: alignment, formats, and multiples of 16. -/
def Tensor.ok (t : Tensor) : Bool :=
  match t.lay with
  | 0 => decide (t.off % 16 = 0)
  | 1 => decide (t.off % 1024 = 0) && decide (vBits t.fmt = 32) && decide (t.rows % 16 = 0) && decide (t.nel % 16 = 0)
  | 2 => decide (t.off % 256 = 0) && decide (vBits t.fmt ≤ 16) && decide (t.rows % 16 = 0)
  | _ => false

/-- An element of `bits` bits at place `i` of a dense run of bytes at `a`. -/
def denseElem (p : SpdState) (a bits i : Nat) : Nat :=
  if bits = 4 then let b := p.num (a + i / 2) 1; if i % 2 = 0 then b % 16 else b / 16
  else p.num (a + bits / 8 * i) (bits / 8)

/-- The raw bits of element (r, i). -/
def Tensor.raw (t : Tensor) (p : SpdState) (r i : Nat) : Nat :=
  match t.lay with
  | 0 => denseElem p (t.off + t.rs * r) (vBits t.fmt) i
  | 1 => p.num (t.off + 1024 * (r / 16 * (t.nel / 16) + i / 16) + 4 * (16 * (r % 16) + i % 16)) 4
  | _ => denseElem p (t.off + 256 * (r / 16 * t.kl + i / vKe t.fmt) + 16 * (r % 16)) (vBits t.fmt) (i % vKe t.fmt)

/-- Row r as values. -/
def Tensor.row (t : Tensor) (p : SpdState) (r : Nat) : List VV :=
  (List.range t.nel).map fun i => vDecode t.fmt (t.raw p r i)

/-- Elements packed densely; `last` is the high nibble of a last byte that no INT4 element fills. -/
def packElems (bits last : Nat) : List Nat → List Byte
  | [] => []
  | [x] => if bits = 4 then [BitVec.ofNat 8 (x % 16 + 16 * last)] else leBytes (bits / 8) x
  | x :: y :: r =>
    if bits = 4 then BitVec.ofNat 8 (x % 16 + 16 * (y % 16)) :: packElems bits last r
    else leBytes (bits / 8) x ++ packElems bits last (y :: r)

/-- Row r written: places of the last line beyond NEL take `fill` (R240). -/
def State.writeRow (s : State) (c : CoreId) (t : Tensor) (fill r : Nat) (xs : List Nat) : State :=
  let bits := vBits t.fmt
  match t.lay with
  | 0 =>
    let a := t.off + t.rs * r
    s.wideWrite c 2 a (packElems bits (s.cores[c].spd.num (a + t.nel / 2) 1 / 16) xs)
  | 1 => (List.range (t.nel / 16)).foldl (fun s k =>
      s.wideWrite c 2 (t.off + 1024 * (r / 16 * (t.nel / 16) + k) + 64 * (r % 16)) (packElems bits 0 ((xs.drop (16 * k)).take 16))) s
  | _ =>
    let ys := xs ++ List.replicate (t.kl * vKe t.fmt - t.nel) fill
    (List.range t.kl).foldl (fun s k =>
      s.wideWrite c 2 (t.off + 256 * (r / 16 * t.kl + k) + 16 * (r % 16))
        (packElems bits 0 ((ys.drop (vKe t.fmt * k)).take (vKe t.fmt)))) s

/-! ### The command words (R241) -/

structure VCmd where
  a    : Tensor
  boff : Nat
  vfb  : Nat
  d    : Tensor
  opx  : Nat
  w3   : Word
  strm : Fin 16
  sen  : Bool

def vCmd (q : EngCmd) : VCmd :=
  let rows := fld q.w1 46 18 + 1
  let nel := fld q.w2 23 14 + 1
  ⟨⟨fld q.w1 0 23, fld q.w2 37 4, fld q.w2 49 2, rows, nel⟩, fld q.w1 23 23, fld q.w2 41 4,
    ⟨fld q.w2 0 23, fld q.w2 45 4, fld q.w2 51 2, rows, nel⟩, fld q.w2 53 11, q.w3, Fin.ofNat 16 (q.cspec % 16),
    q.cspec.testBit 4⟩

/-- The checks that every opcode but VSET shares (R241, R243). -/
def VCmd.common (x : VCmd) (q : EngCmd) (v : VecState) : Bool :=
  decide (q.cspec < 32) && decide (x.a.fmt ≤ 8) && decide (x.vfb ≤ 8) && decide (x.d.fmt ≤ 8) && decide (x.d.lay < 3) && x.a.ok &&
    (!x.sen || v.stbase.isSome)

/-- Ranges within 8 MiB, no output over an input or another output (R243). -/
def rangesOk (ins outs : List (Nat × Nat)) : Bool :=
  (ins ++ outs).all (fun r => decide (r.1 + r.2 ≤ spdBytes)) &&
    outs.zipIdx.all fun o =>
      (ins.all fun i => !overlap o.1.1 o.1.2 i.1 i.2) &&
        (outs.drop (o.2 + 1)).all fun u => !overlap o.1.1 o.1.2 u.1 u.2

/-! ### Streams and stream records (R255, R256) -/

/-- A stream's counts at the end of a row with `n` clamped elements, and whether the alarm is raised. -/
def SatStream.row (t : SatStream) (n : Nat) : SatStream × Bool :=
  let t := { t with total := satAdd 0xFFFFFFFF t.total n }
  if t.win = 0 then (t, false)
  else
    let w := t.wcnt + n
    let tell := decide (t.thr < w) && !t.told
    let t := { t with wcnt := w % 2 ^ 32, wrows := t.wrows + 1, told := t.told || tell, alarm := t.alarm || tell }
    (if t.win ≤ t.wrows then { t with wcnt := 0, wrows := 0, told := false } else t, tell)

/-- A row of a quantising output stream ends. -/
def State.satRow (s : State) (c : CoreId) (k : Fin 16) (n : Nat) : State :=
  let r := (s.cores[c].vec.sat[k]).row n
  let s := s.modVec c fun v => { v with sat := v.sat.set k r.1 }
  if r.2 then s.postCore c (0x5210 + k.val) else s

/-- Whether a destination format makes a quantising output stream. -/
def isStream (f : Nat) : Bool := vInt f || vFp8 f

/-- Four bytes of a stream record raised. -/
def raise32 (p : SpdState) (a n : Nat) : List Byte := leBytes 4 (satAdd 0xFFFFFFFF (p.num a 4) n)

/-- What a command's counts leave: the record, the events, VCNT. -/
def State.vecEnd (s : State) (c : CoreId) (x : VCmd) (n : VecCnt) : State :=
  let s := match x.sen, s.cores[c].vec.stbase with
    | true, some base =>
      let p := s.cores[c].spd
      let a := base + 32 * x.strm.val
      let fl := (p.num (a + 0x14) 1 % 16) ||| (ofBool (decide (0 < n.sat)) + 2 * ofBool (decide (0 < n.srow)) +
        4 * ofBool (decide (0 < n.nanc)) + 8 * ofBool (decide (0 < n.infc)))
      s.wideWrite c 2 a (raise32 p a n.sat ++ raise32 p (a + 4) n.srow ++ raise32 p (a + 8) n.nanc ++ raise32 p (a + 12) n.infc ++
        raise32 p (a + 16) n.rows ++ leBytes 12 fl)
    | _, _ => s
  let s := if n.bad then (s.modVec c fun v => { v with vcnt := count16 v.vcnt 32 }).postCore c 0x5202 else s
  let s := if 0 < n.srow then (s.modVec c fun v => { v with vcnt := count16 v.vcnt 16 }).postCore c 0x5203 else s
  if n.full then s.postCore c 0x5204 else s

/-- The stream record of a command, if it writes one. -/
def VCmd.recordRange (x : VCmd) (v : VecState) : List (Nat × Nat) :=
  match x.sen, v.stbase with
  | true, some base => [(base + 32 * x.strm.val, 32)]
  | _, _ => []

/-- The course of a command after its checks: it reads its ranges and, with SEN = 1, the stream record, then does `work`. -/
def State.vecRun (s : State) (c : CoreId) (x : VCmd) (ins : List (Nat × Nat)) (work : State → State × VecCnt) : EngineRun :=
  s.overSpd c 2 (ins ++ x.recordRange s.cores[c].vec) fun s =>
    let r := work s
    .done (r.1.vecEnd c x r.2)

/-- The rows of a command in turn. -/
def State.vecRows (s : State) (n : Nat) (row : State → Nat → State × VecCnt) : State × VecCnt :=
  (List.range n).foldl (fun t r => let u := row t.1 r; (u.1, t.2.plus { u.2 with rows := 1 })) (s, VecCnt.zero)

/-- Elements encoded into a format. -/
def encodeRow (f : Nat) (vs : List VV) : List Nat × VecCnt :=
  vs.foldr (fun v a => let e := vEncode f v; (e.1 :: a.1, e.2.plus a.2)) ([], VecCnt.zero)

/-! ### Functions (R244, R245) -/

/-- Taylor terms of e^y in fixed point with 200 fraction bits. -/
def expSeries (y : Nat) : Nat → Nat → Nat → Nat
  | 0, _, _ => 0
  | fuel + 1, t, k => t + expSeries y fuel (t * y / 2 ^ 200 / (k + 1)) (k + 1)

/-- e^x for 0 ≤ x < 128 given as a fixed-point number with 200 fraction bits. -/
def expFix (x : Nat) : Nat :=
  (List.range 8).foldl (fun v _ => v * v / 2 ^ 200) (expSeries (x / 2 ^ 8) 48 (2 ^ 200) 0)

/-- e^x with far more bits than FP32 keeps. -/
def FV.exp (v : FV) : FV :=
  match v with
  | .nan => .nan
  | .inf s => if s then .zero else .inf false
  | .fin s m e =>
    if m = 0 then .fin false 1 0
    else if dyadicLt 127 0 m e then (if s then .fin false 1 (-1000) else .fin false 1 1000)
    else
      let x := if -200 ≤ e then m * 2 ^ (e + 200).toNat else m / 2 ^ (-200 - e).toNat
      let y := FV.fin false (2 * expFix x + 1) (-201)
      if s then (FV.fin false 1 0).quot y else y

/-- A finite FP32 result moved by `n` units in the last place. -/
def ulpMove (v : FV) (n : Int) : FV :=
  match v with
  | .fin s _ _ =>
    if n = 0 then v
    else
      let m : Int := (fp32.encode v % 2 ^ 31 : Nat)
      let k := (if s then -m else m) + n
      fp32.decode (min k.natAbs 0x7F800000 + if k < 0 then 2 ^ 31 else 0)
  | v => v

/-- A function result: the correctly rounded one, moved by a distance of at most 2 units that R245 leaves open. -/
def approx (eop : Nat) (a b exact : FV) : FV :=
  ulpMove (fp32.round exact) ((Config.vecUlp eop (fp32.encode a) (fp32.encode b) % 5 : Nat) - 2)

def fnExp (eop : Nat) (a b d : FV) : FV := if d.isFinite then approx eop a b d.exp else d.exp
def fnRcp (a : FV) : FV :=
  let r := (FV.fin false 1 0).quot a
  if a.isFinite && !a.isZero then approx 0x0B a .zero r else r
def fnRsq (a : FV) : FV :=
  let r := (FV.fin false 1 0).quot a.sqrt
  if a.isZero then .inf a.isNeg
  else if a.isFinite && !a.isNeg then approx 0x0C a .zero r else r

/-- Maximum and minimum: a NaN wins, and −0 lies below +0. -/
def fMax (a b : FV) : FV :=
  if a.isNan || b.isNan then .nan else if a.lt b then b else if b.lt a then a else if a.isNeg then b else a
def fMin (a b : FV) : FV :=
  if a.isNan || b.isNan then .nan else if a.lt b then a else if b.lt a then b else if a.isNeg then a else b

/-- Elementwise operations on integers. -/
def ewInt (eop : Nat) (a b d : Int) : Int :=
  match eop with
  | 0x00 => a + b
  | 0x01 => a - b
  | 0x02 => a * b
  | 0x03 => a * b + d
  | 0x04 => max a b
  | 0x05 => min a b
  | 0x06 => a.natAbs
  | 0x07 => -a
  | 0x08 => max a 0
  | _ => a

/-- Elementwise operations on FP32 values. -/
def ewFlt (eop : Nat) (a b d : FV) : FV :=
  match eop with
  | 0x00 => fp32.add a b
  | 0x01 => fp32.sub a b
  | 0x02 => fp32.mul a b
  | 0x03 => fp32.fma a b d
  | 0x04 => fMax a b
  | 0x05 => fMin a b
  | 0x06 => a.abs
  | 0x07 => a.neg
  | 0x08 => fMax a .zero
  | 0x0A => fnExp 0x0A a .zero a
  | 0x0B => fnRcp a
  | 0x0C => fnRsq a
  | 0x0D => fnExp 0x0D a b (a.add b.neg)
  | _ => a

/-- One element: operands of one kind, and the D that FMA adds. -/
def ewElem (eop : Nat) (a b d : VV) : VV :=
  if eop = 0x09 then a
  else match a, b with
    | .int x, .int y =>
      (match eop, d with
      | 0x03, .flt w _ => .ofFV (fp32.fma (FV.ofInt x) (FV.ofInt y) w)
      | _, .int w => .int (ewInt eop x y w)
      | _, _ => .int (ewInt eop x y 0))
    | _, _ =>
      let w : FV := match d with | .int z => FV.ofInt z | .flt v _ => v
      .ofFV (ewFlt eop a.fp32 b.fp32 w)

/-! ### Rotation (R251) -/

/-- One butterfly stage: pairs i and i + 2^k. -/
def butterfly (k : Nat) (xs : List FV) : List FV :=
  xs.zipIdx.map fun e =>
    if e.2.testBit k then fp32.sub (xs.getD (e.2 - 2 ^ k) .zero) e.1 else fp32.add e.1 (xs.getD (e.2 + 2 ^ k) .zero)

/-- The rotation of size 2^h. -/
def rotate (h : Nat) (xs : List FV) : List FV :=
  let c := fp32.round (FV.fin false 1 (-h)).sqrt
  ((List.range h).foldl (fun ys k => butterfly k ys) xs).map fun x => fp32.mul x c

/-! ### EW (R244) -/

def VCmd.eop (x : VCmd) : Nat := fld x.w3 0 5
def VCmd.bmode (x : VCmd) : Nat := fld x.w3 5 2
def VCmd.rsen (x : VCmd) : Bool := bit x.w3 7
def VCmd.roff (x : VCmd) : Nat := fld x.w3 9 23

/-- Whether an EOP takes B. -/
def ewBinary (eop : Nat) : Bool := decide (eop ≤ 5) || decide (eop = 0x0D)

/-- Whether EW also writes row sums. -/
def VCmd.sums (x : VCmd) : Bool := x.rsen && !vInt x.d.fmt

/-- B as a full tensor. -/
def VCmd.b (x : VCmd) : Tensor := ⟨x.boff, x.vfb, x.a.lay, x.a.rows, x.a.nel⟩

/-- Bytes of an element rounded up to 16. -/
def VCmd.bStep (_ : VCmd) : Nat := 16

/-- The range of B. -/
def VCmd.bRange (x : VCmd) : List (Nat × Nat) :=
  if !ewBinary x.eop then []
  else match x.bmode with
    | 0 => [(x.boff, x.b.len)]
    | 1 => [(x.boff, x.bStep * x.a.rows)]
    | 2 => [(x.boff, (x.a.nel * vBits x.vfb + 7) / 8)]
    | _ => []

/-- Limits of an EW apart from its ranges. -/
def VCmd.ewOk (x : VCmd) : Bool :=
  let fl := !vInt x.a.fmt
  decide (x.eop ≤ 0x0E) && !bit x.w3 8 && x.d.ok &&
    (if x.eop = 0x0E then decide (x.opx < 5) && decide (x.a.nel % 2 ^ (x.opx + 4) = 0) else decide (x.opx = 0)) &&
    (ewBinary x.eop || decide (x.bmode = 0)) && (decide (x.eop < 0x0A) || fl) &&
    (!ewBinary x.eop || decide (x.bmode = 3) || decide (vInt x.vfb = vInt x.a.fmt)) &&
    (!ewBinary x.eop || decide (x.bmode ≠ 0) || x.b.ok) && (!x.sums || decide (x.roff % 4 = 0))

/-- Element i of B in row r. -/
def VCmd.bElem (x : VCmd) (p : SpdState) (r i : Nat) : VV :=
  match x.bmode with
  | 0 => vDecode x.vfb (x.b.raw p r i)
  | 1 => vDecode x.vfb (denseElem p (x.boff + x.bStep * r) (vBits x.vfb) 0)
  | 2 => vDecode x.vfb (denseElem p x.boff (vBits x.vfb) i)
  | _ => if vInt x.a.fmt then .int (sfld x.w3 32 32) else vDecode 6 (fld x.w3 32 32)

/-- The results of a row. -/
def VCmd.ewRow (x : VCmd) (p : SpdState) (r : Nat) : List VV :=
  if x.eop = 0x0E then (rotate (x.opx + 4) ((x.a.row p r).map VV.fp32)).map VV.ofFV
  else (x.a.row p r).zipIdx.map fun e =>
    let b := if ewBinary x.eop then x.bElem p r e.2 else e.1
    let d := if x.eop = 3 then vDecode x.d.fmt (x.d.raw p r e.2) else e.1
    ewElem x.eop e.1 b d

/-- The FP32 sum of a row, in an order that depends on its length only (R238). -/
def rowSum (xs : List FV) : FV := sumTree (Config.vecOrder xs.length) (xs.length - 1) xs

/-- A per-row FP32 result and what it counts. -/
def fpResult (v : FV) : List Byte × VecCnt := let e := vEncode 6 (.ofFV v); (leBytes 4 e.1, e.2)

/-- One row of an EW; `p` is the scratchpad as the command found it. -/
def State.ewWrite (s : State) (c : CoreId) (x : VCmd) (p : SpdState) (r : Nat) : State × VecCnt :=
  let e := encodeRow x.d.fmt (x.ewRow p r)
  let s := s.writeRow c x.d 0 r e.1
  let s := if isStream x.d.fmt then s.satRow c x.strm e.2.sat else s
  if x.sums then
    let f := fpResult (rowSum (e.1.map fun w => (vDecode x.d.fmt w).fp32))
    (s.vecStore c (x.roff + 4 * r) f.1, e.2.plus f.2)
  else (s, e.2)

/-- Opcode 0x01. -/
def State.ew (s : State) (c : CoreId) (q : EngCmd) : EngineRun :=
  let x := vCmd q
  let dr : Nat × Nat := (x.d.off, x.d.len)
  let sr := if x.sums then [(x.roff, 4 * x.a.rows)] else []
  let ar : Nat × Nat := (x.a.off, x.a.len)
  let inPlace := decide (x.a = x.d)
  if !(x.common q s.cores[c].vec && x.ewOk && rangesOk (x.bRange ++ if inPlace then [] else [ar]) (dr :: sr)) then .refuse
  else s.vecRun c x (ar :: (x.bRange ++ if x.eop = 3 then [dr] else [])) fun s =>
    let p := s.cores[c].spd
    s.vecRows x.a.rows fun t r => t.ewWrite c x p r

/-! ### RED (R246) -/

/-- The bytes of a reduction result. -/
def VCmd.redBytes (x : VCmd) : Nat := if vInt x.a.fmt && decide (fld x.w3 0 3 ≠ 1) && decide (fld x.w3 0 3 ≠ 2) then 8 else 4

/-- The reduction of a row. -/
def redRow (rop : Nat) (vs : List VV) : List Byte × VecCnt :=
  match vs with
  | [] => ([], VecCnt.zero)
  | .int x0 :: _ =>
    let xs := vs.map fun v => match v with | .int x => x | .flt _ _ => 0
    let wide (y : Int) : List Byte × VecCnt := (leBytes 8 (wrapN 64 (max (-(2 ^ 63)) (min (2 ^ 63 - 1) y))), VecCnt.zero)
    (match rop with
    | 1 => (leBytes 4 (wrapN 32 (xs.foldl max x0)), VecCnt.zero)
    | 2 => (leBytes 4 (wrapN 32 (xs.foldl min x0)), VecCnt.zero)
    | 3 => wide (xs.foldl (fun a y => a + y * y) 0)
    | 4 => wide (xs.foldl (fun a y => a + (y.natAbs : Int)) 0)
    | _ => wide (xs.foldl (· + ·) 0))
  | .flt x0 _ :: _ =>
    let xs := vs.map VV.fp32
    fpResult (match rop with
      | 1 => xs.foldl fMax x0
      | 2 => xs.foldl fMin x0
      | 3 => rowSum (xs.map fun y => fp32.mul y y)
      | 4 => rowSum (xs.map FV.abs)
      | _ => rowSum xs)

/-- Opcode 0x03. -/
def State.red (s : State) (c : CoreId) (q : EngCmd) : EngineRun :=
  let x := vCmd q
  let ar : Nat × Nat := (x.a.off, x.a.len)
  let out : Nat × Nat := (x.d.off, x.redBytes * x.a.rows)
  if !(x.common q s.cores[c].vec && decide (x.opx = 0) && decide (x.d.fmt = 0) && decide (fld x.w3 0 3 ≤ 4) &&
      decide (fld x.w3 3 61 = 0) && rangesOk [ar] [out]) then .refuse
  else s.vecRun c x [ar] fun s =>
    let p := s.cores[c].spd
    s.vecRows x.a.rows fun t r =>
      let b := redRow (fld x.w3 0 3) (x.a.row p r)
      (t.vecStore c (x.d.off + x.redBytes * r) b.1, b.2)

/-! ### Scales (R247, R248) -/

/-- dec(c). -/
def decScale (c : Nat) : FV := if c / 16 = 0 then .fin false (c % 16) (-10) else .fin false (16 + c % 16) ((c / 16 : Nat) - 11)

/-- The scale descriptor. -/
structure ScaleDesc where
  base : Nat
  sc   : Nat
  zp   : Nat
  bs   : Nat
  ef   : Nat
  rf   : Nat
  cf   : Nat
  h    : Nat
  hlo  : FV
  hhi  : FV

def scaleDesc (p : SpdState) (a : Nat) : ScaleDesc :=
  let n (o : Nat) : Nat := p.num (a + o) 4
  ⟨a, n 0, n 4, n 8, n 0xC, n 0x10, n 0x14, n 0x18, fp32.decode (n 0x1C), fp32.decode (n 0x20)⟩

def ScaleDesc.efen (d : ScaleDesc) : Bool := d.ef.testBit 31
def ScaleDesc.efoff (d : ScaleDesc) : Nat := d.ef % 2 ^ 31
def ScaleDesc.hen (d : ScaleDesc) : Bool := d.h.testBit 31
def ScaleDesc.hsel (d : ScaleDesc) : Bool := d.h.testBit 30
def ScaleDesc.hacc (d : ScaleDesc) : Bool := d.h.testBit 29
def ScaleDesc.hoff (d : ScaleDesc) : Nat := d.h % 2 ^ 29

/-- An offset field that is used: no reserved bit, and the alignment it needs. -/
def offOk (f al : Nat) : Bool := decide (f < 2 ^ 23) && decide (f % al = 0)

/-- The histogram fields of a command with HEN = 1. -/
def ScaleDesc.histOk (d : ScaleDesc) : Bool := offOk d.hoff 16 && d.hlo.isFinite && d.hhi.isFinite && d.hlo.lt d.hhi
def ScaleDesc.histRange (d : ScaleDesc) : Nat × Nat := (d.hoff, 272)

/-- Blocks of 256 rows. -/
def blocksOf (rows : Nat) : Nat := (rows + 255) / 256

/-- An INT32 source dequantised (R254). -/
def dequant32 (p : SpdState) (d : ScaleDesc) (r : Nat) (vs : List VV) : List FV :=
  let rf := fp32.decode (p.num (d.rf + 4 * r) 4)
  vs.zipIdx.map fun e => fp32.mul (fp32.mul e.1.fp32 rf) (fp32.decode (p.num (d.cf + 4 * e.2) 4))

/-- Word 3 of a command with a scale descriptor. -/
def descWordOk (w3 : Word) : Bool := decide (fld w3 23 41 = 0) && decide (fld w3 0 23 % 64 = 0)

/-! ### Histograms (R258, R259) -/

/-- The bin of a value. -/
def histBin (d : ScaleDesc) (v : FV) : Nat :=
  let f := fp32.div (FV.ofInt 62) (fp32.sub d.hhi d.hlo)
  if v.lt d.hlo then 0
  else if !v.lt d.hhi then 63
  else
    let t := fp32.mul (fp32.sub v d.hlo) f
    let k : Int := match t with | .nan => 0 | .inf _ => 61 | t => min 61 (t.floor.getD 0)
    (1 + k).toNat

/-- A 32-bit count that is not said to saturate: what it shows beyond its range is open, as a function of what is added
(R238). -/
def openSum (a b : Nat) : Nat := if a + b < 2 ^ 32 then a + b else (Config.openResult 1 [a, b]).toNat % 2 ^ 32

/-- A histogram record with values counted into it, and whether a bin saturated. -/
def histBytes (d : ScaleDesc) (p : SpdState) (vs : List FV) : List Byte × Bool :=
  let old (o : Nat) : Nat := if d.hacc then p.num (d.hoff + o) 4 else 0
  let good := vs.filter fun v => !v.isNan
  let some' := decide (old 4 < old 0)
  let vmin := (if some' then fp32.decode (old 8) :: good else good)
  let vmax := (if some' then fp32.decode (old 12) :: good else good)
  let pick (f : FV → FV → FV) (l : List FV) (o : Nat) : Nat :=
    match l with | [] => old o | v :: r => fp32.encode (r.foldl f v)
  let bins := (List.range 64).map fun b => old (0x10 + 4 * b) + (good.filter fun v => decide (histBin d v = b)).length
  (leBytes 4 (openSum (old 0) vs.length) ++ leBytes 4 (openSum (old 4) (vs.length - good.length)) ++
    leBytes 4 (pick fMin vmin 8) ++ leBytes 4 (pick fMax vmax 12) ++ bins.flatMap fun n => leBytes 4 (min n 0xFFFFFFFF),
    bins.any fun n => decide (0xFFFFFFFF < n))

/-- The record written. -/
def State.histWrite (s : State) (c : CoreId) (d : ScaleDesc) (vs : List FV) : State × Bool :=
  let b := histBytes d s.cores[c].spd vs
  (s.wideWrite c 2 d.hoff b.1, b.2)

/-- Opcode 0x07. -/
def State.hist (s : State) (c : CoreId) (q : EngCmd) : EngineRun :=
  let x := vCmd q
  let ar : Nat × Nat := (x.a.off, x.a.len)
  let da := fld x.w3 0 23
  if !(x.common q s.cores[c].vec && decide (x.opx = 0) && decide (x.d.fmt = 0) && descWordOk x.w3) then .refuse
  else s.overSpd c 2 [(da, 64)] fun s =>
    let d := scaleDesc s.cores[c].spd da
    if !(d.hen && d.histOk && rangesOk [ar, (da, 64)] [d.histRange]) then .refuse
    else s.vecRun c x (ar :: if d.hacc then [d.histRange] else []) fun s =>
      let vs := (List.range x.a.rows).flatMap fun r => (x.a.row s.cores[c].spd r).map VV.fp32
      let h := s.histWrite c d vs
      (h.1, { VecCnt.zero with full := h.2 })

/-! ### QNT (R249, R250) -/

/-- Fields of QNT in OPX. -/
def VCmd.rot (x : VCmd) : Nat := x.opx % 8
def VCmd.sym (x : VCmd) : Bool := x.opx.testBit 3
def VCmd.bsauto (x : VCmd) : Bool := x.opx.testBit 4

/-- A row entering quantisation, each value with the sign bit of its source. -/
def VCmd.qntRow (x : VCmd) (p : SpdState) (d : ScaleDesc) (r : Nat) : List VV :=
  let vs := x.a.row p r
  let us := if x.a.fmt = 7 then (dequant32 p d r vs).map VV.ofFV else vs
  if x.rot = 0 then us else (rotate (x.rot + 3) (us.map VV.fp32)).map VV.ofFV

/-- hi and lo of a row. -/
def rowHi (xs : List FV) : FV := (xs.filter fun v => !v.isNan).foldl fMax .zero
def rowLo (xs : List FV) : FV := (xs.filter fun v => !v.isNan).foldl fMin .zero

/-- need of a row. -/
def needOf (vfd : Nat) (sym : Bool) (xs : List FV) : FV :=
  let hi := rowHi xs
  let lo := rowLo xs
  if vInt vfd && !sym then fp32.div (fp32.sub hi lo) (FV.ofInt (qmax vfd - qmin vfd - 1))
  else if vInt vfd then fp32.div (fMax hi lo.neg) (FV.ofInt (qmax vfd))
  else fp32.div (fMax hi lo.neg) (.fin false (vFmt vfd).maxFin.1 (vFmt vfd).maxFin.2)

/-- a ≥ b, false when either is a NaN. -/
def FV.ge (a b : FV) : Bool := (a.lt? b) == some false

/-- The scale code of a row. -/
def scaleCode (sb need : FV) : Nat := ((List.range 256).find? fun c => ((decScale c).mul sb).ge need).getD 0xFF

/-- S_b chosen for a block whose largest need is `m` (R250). -/
def autoScale (m : FV) : FV :=
  match m with
  | .fin _ n e =>
    if n = 0 then .fin false 1 0
    else
      let up : Int := if 2 ^ (bitLen n - 1) = n then (bitLen n : Int) - 1 + e else bitLen n + e
      .fin false 1 (max (-126) (up - 8))
  | _ => .fin false 1 0

/-- A quantised row. -/
structure QRow where
  codes : List Nat
  c     : Nat
  zp    : Int
  s     : FV
  cnt   : VecCnt

/-- One element's code (R249). -/
def qntElem (vfd c : Nat) (zp : Int) (s : FV) (v : VV) : Nat × VecCnt :=
  let x := v.fp32
  if x.isNan then
    (if vInt vfd then (wrapN (vBits vfd) zp, { VecCnt.zero with nanc := 1 }) else vEncode vfd v)
  else if c = 0 then (wrapN (vBits vfd) zp, VecCnt.zero)
  else
    let q := fp32.div x s
    if vInt vfd then vEncode vfd (.int (fvInt q (-(2 ^ 200)) (2 ^ 200) + zp))
    else vEncode vfd (.ofFV q)

/-- The row of the pseudocode of R249. -/
def quantise (vfd : Nat) (sym : Bool) (sb : FV) (vs : List VV) : QRow :=
  let xs := vs.map VV.fp32
  let need := needOf vfd sym xs
  let c := scaleCode sb need
  let s := fp32.mul (decScale c) sb
  let zp : Int := if c ≠ 0 ∧ vInt vfd ∧ !sym then clampTo vfd (qmin vfd - fvInt (fp32.div (rowLo xs) s) (-(2 ^ 40)) (2 ^ 40)) else 0
  let e := vs.foldr (fun v a => let e := qntElem vfd c zp s v; (e.1 :: a.1, e.2.plus a.2)) ([], VecCnt.zero)
  let short := decide (c = 0xFF) && ((decScale 0xFF).mul sb).lt need
  ⟨e.1, c, zp, s, { e.2 with srow := ofBool short }⟩

/-- S_b of the block of row r. -/
def VCmd.blockScale (x : VCmd) (p : SpdState) (d : ScaleDesc) (b : Nat) : FV :=
  if x.bsauto then
    autoScale (((List.range (min 256 (x.a.rows - 256 * b))).map fun i =>
      needOf x.d.fmt x.sym ((x.qntRow p d (256 * b + i)).map VV.fp32)).foldl fMax .zero)
  else fp32.decode (p.num (d.bs + 4 * b) 4)

/-- Limits of a QNT and of the descriptor fields it uses. -/
def VCmd.qntOk (x : VCmd) : Bool :=
  (decide (x.a.fmt = 4) || decide (x.a.fmt = 5) || decide (x.a.fmt = 6) || decide (x.a.fmt = 7)) && decide (x.d.fmt ≤ 3) &&
    x.d.ok && decide (x.opx < 32) && decide (x.rot < 6) &&
    (decide (x.rot = 0) || decide (x.a.nel % 2 ^ (x.rot + 3) = 0)) && descWordOk x.w3

def VCmd.qntIns (x : VCmd) (d : ScaleDesc) : List (Nat × Nat) :=
  [(x.a.off, x.a.len), (d.base, 64)] ++ (if x.bsauto then [] else [(d.bs, 4 * blocksOf x.a.rows)]) ++
    if x.a.fmt = 7 then [(d.rf, 4 * x.a.rows), (d.cf, 4 * x.a.nel)] else []

def VCmd.qntOuts (x : VCmd) (d : ScaleDesc) : List (Nat × Nat) :=
  [(x.d.off, x.d.len), (d.sc, x.a.rows), (d.zp, x.a.rows)] ++ (if x.bsauto then [(d.bs, 4 * blocksOf x.a.rows)] else []) ++
    (if d.efen then [(d.efoff, 4 * x.a.rows)] else []) ++ if d.hen then [d.histRange] else []

def VCmd.qntDescOk (x : VCmd) (d : ScaleDesc) : Bool :=
  offOk d.sc 1 && offOk d.zp 1 && offOk d.bs 4 && (!d.efen || offOk d.efoff 4) &&
    (decide (x.a.fmt ≠ 7) || (offOk d.rf 4 && offOk d.cf 4)) && (!d.hen || d.histOk)

/-- One row of a QNT. -/
def State.qntWrite (s : State) (c : CoreId) (x : VCmd) (p : SpdState) (d : ScaleDesc) (r : Nat) : State × VecCnt :=
  let sb := x.blockScale p d (r / 256)
  let s := if x.bsauto ∧ r % 256 = 0 then s.vecStore c (d.bs + 4 * (r / 256)) (leBytes 4 (fp32.encode sb)) else s
  let w := quantise x.d.fmt x.sym sb (x.qntRow p d r)
  let s := s.writeRow c x.d (if vInt x.d.fmt then wrapN (vBits x.d.fmt) w.zp else 0) r w.codes
  let s := (s.vecStore c (d.sc + r) (leBytes 1 w.c)).vecStore c (d.zp + r) (leBytes 1 (wrapN 8 w.zp))
  let s := if d.efen then s.vecStore c (d.efoff + 4 * r) (leBytes 4 (fp32.encode w.s)) else s
  (s.satRow c x.strm w.cnt.sat, w.cnt)

/-- The values of a row that the histogram counts. -/
def VCmd.histRow (x : VCmd) (p : SpdState) (d : ScaleDesc) (r : Nat) : List FV :=
  let vs := x.qntRow p d r
  if d.hsel then (quantise x.d.fmt x.sym (x.blockScale p d (r / 256)) vs).codes.map fun w => (vDecode x.d.fmt w).fp32
  else vs.map VV.fp32

/-- Opcode 0x04. -/
def State.qnt (s : State) (c : CoreId) (q : EngCmd) : EngineRun :=
  let x := vCmd q
  let da := fld x.w3 0 23
  if !(x.common q s.cores[c].vec && x.qntOk) then .refuse
  else s.overSpd c 2 [(da, 64)] fun s =>
    let d := scaleDesc s.cores[c].spd da
    if !(x.qntDescOk d && rangesOk (x.qntIns d) (x.qntOuts d)) then .refuse
    else s.vecRun c x (x.qntIns d ++ if d.hen && d.hacc then [d.histRange] else []) fun s =>
      let p := s.cores[c].spd
      let t := s.vecRows x.a.rows fun t r => t.qntWrite c x p d r
      if d.hen then
        let h := t.1.histWrite c d ((List.range x.a.rows).flatMap fun r => x.histRow p d r)
        (h.1, { t.2 with full := h.2 })
      else t

/-! ### RQ (R252) -/

/-- Multiplier, shift and zero point from the bits of word 3 or of a table entry. -/
structure RqPar where
  m  : Int
  s  : Nat
  zo : Int

def rqPar (w : Nat) : RqPar := ⟨toSigned 32 w, w / 2 ^ 32 % 64, toSigned 8 (w / 2 ^ 38)⟩

def VCmd.msrc (x : VCmd) : Nat := fld x.w3 46 2

/-- Entries of the table, if there is one. -/
def VCmd.rqEntries (x : VCmd) : Nat := match x.msrc with | 1 => x.a.nel | 2 => x.a.rows | _ => 0

/-- The parameters of element (r, i). -/
def VCmd.rqAt (x : VCmd) (p : SpdState) (r i : Nat) : RqPar :=
  match x.msrc with
  | 1 => rqPar (p.num (x.boff + 8 * i) 8)
  | 2 => rqPar (p.num (x.boff + 8 * r) 8)
  | _ => rqPar (fld x.w3 0 46)

/-- One element before the clamp. -/
def rqElem (k : RqPar) (a : Int) : Int := rnd (a * k.m) k.s + k.zo

/-- What the places of the last line beyond NEL take: the row's zero point; where the columns have their own, which one the
row's is stays open, as a function of the table alone, so that equal inputs give equal outputs (R238, R240). -/
def VCmd.rqFill (x : VCmd) (p : SpdState) (r : Nat) : Nat :=
  if x.msrc = 1 then
    (Config.openResult 0 ((List.range x.a.nel).map fun i => p.num (x.boff + 8 * i) 8)).toNat % 2 ^ vBits x.d.fmt
  else wrapN (vBits x.d.fmt) (clampTo x.d.fmt (x.rqAt p r 0).zo)

/-- One row of an RQ. -/
def State.rqWrite (s : State) (c : CoreId) (x : VCmd) (p : SpdState) (r : Nat) : State × VecCnt :=
  let vs := (x.a.row p r).zipIdx.map fun e =>
    match e.1 with | .int a => VV.int (rqElem (x.rqAt p r e.2) a) | v => v
  let e := encodeRow x.d.fmt vs
  ((s.writeRow c x.d (x.rqFill p r) r e.1).satRow c x.strm e.2.sat, e.2)

/-- Opcode 0x05. -/
def State.rq (s : State) (c : CoreId) (q : EngCmd) : EngineRun :=
  let x := vCmd q
  let ins : List (Nat × Nat) := (x.a.off, x.a.len) :: if x.msrc = 0 then [] else [(x.boff, 8 * x.rqEntries)]
  let outs : List (Nat × Nat) := [(x.d.off, x.d.len)]
  if !(x.common q s.cores[c].vec && decide (x.a.fmt = 7) && vInt x.d.fmt && x.d.ok && decide (x.opx = 0) &&
      decide (fld x.w3 48 16 = 0) && decide (x.msrc < 3) && (decide (x.msrc = 0) || decide (x.vfb = 0)) && rangesOk ins outs) then
    .refuse
  else s.overSpd c 2 (if x.msrc = 0 then [] else [(x.boff, 8 * x.rqEntries)]) fun s =>
    if (List.range x.rqEntries).any fun i => decide (2 ^ 46 ≤ s.cores[c].spd.num (x.boff + 8 * i) 8) then .refuse
    else s.vecRun c x ins fun s =>
      let p := s.cores[c].spd
      s.vecRows x.a.rows fun t r => t.rqWrite c x p r

/-! ### DQ (R253, R254) -/

/-- One row dequantised. -/
def VCmd.dqRow (x : VCmd) (p : SpdState) (d : ScaleDesc) (r : Nat) : List FV :=
  let vs := x.a.row p r
  if x.a.fmt = 7 then dequant32 p d r vs
  else
    let s := fp32.mul (decScale (p.num (d.sc + r) 1)) (fp32.decode (p.num (d.bs + 4 * (r / 256)) 4))
    let zp := toSigned 8 (p.num (d.zp + r) 1)
    vs.map fun v => match v with
      | .int a => fp32.mul s (FV.ofInt (a - zp))
      | .flt a _ => fp32.mul s a

def VCmd.dqIns (x : VCmd) (d : ScaleDesc) : List (Nat × Nat) :=
  [(x.a.off, x.a.len), (d.base, 64)] ++
    if x.a.fmt = 7 then [(d.rf, 4 * x.a.rows), (d.cf, 4 * x.a.nel)]
    else [(d.sc, x.a.rows), (d.bs, 4 * blocksOf x.a.rows)] ++ if vInt x.a.fmt then [(d.zp, x.a.rows)] else []

def VCmd.dqDescOk (x : VCmd) (d : ScaleDesc) : Bool :=
  if x.a.fmt = 7 then offOk d.rf 4 && offOk d.cf 4
  else offOk d.sc 1 && offOk d.bs 4 && (!vInt x.a.fmt || offOk d.zp 1)

/-- One row of a DQ. -/
def State.dqWrite (s : State) (c : CoreId) (x : VCmd) (p : SpdState) (d : ScaleDesc) (r : Nat) : State × VecCnt :=
  let e := encodeRow x.d.fmt ((x.dqRow p d r).map VV.ofFV)
  (s.writeRow c x.d 0 r e.1, e.2)

/-- Opcode 0x06. -/
def State.dq (s : State) (c : CoreId) (q : EngCmd) : EngineRun :=
  let x := vCmd q
  let da := fld x.w3 0 23
  let outs : List (Nat × Nat) := [(x.d.off, x.d.len)]
  if !(x.common q s.cores[c].vec && (vInt x.a.fmt || vFp8 x.a.fmt) && between 4 x.d.fmt 6 && x.d.ok && decide (x.opx = 0) &&
      descWordOk x.w3) then .refuse
  else s.overSpd c 2 [(da, 64)] fun s =>
    let d := scaleDesc s.cores[c].spd da
    if !(x.dqDescOk d && rangesOk (x.dqIns d) outs) then .refuse
    else s.vecRun c x (x.dqIns d) fun s =>
      let p := s.cores[c].spd
      s.vecRows x.a.rows fun t r => t.dqWrite c x p d r

/-! ### VSET and the registers (R242, R255, R263) -/

/-- Opcode 0x08. -/
def State.vset (s : State) (c : CoreId) (q : EngCmd) : EngineRun :=
  if !(decide (q.cspec < 32) && decide (q.w2 = 0) && decide (q.w3 = 0) && decide (fld q.w1 23 41 = 0) &&
      decide (fld q.w1 0 23 % 512 = 0) && (!q.cspec.testBit 4 || s.cores[c].vec.stbase.isSome)) then .refuse
  else .done (s.modVec c fun v => { v with stbase := some (fld q.w1 0 23) })

/-- Opcodes of VEC (R241). -/
def vecListed (o : Nat) : Bool := decide (o = 1) || between 3 o 8

def State.vecStep (s : State) (c : CoreId) (op : Nat) (run : EngCmd → State → EngineRun) : State :=
  s.engineStep c 2 (· == op) (if op = 1 then vecListed else fun _ => true) 0x5201 (coreIni c) run

def execEw (c : CoreId) (s : State) : Answer := .next (s.vecStep c 1 fun q t => t.ew c q)
def execRed (c : CoreId) (s : State) : Answer := .next (s.vecStep c 3 fun q t => t.red c q)
def execQnt (c : CoreId) (s : State) : Answer := .next (s.vecStep c 4 fun q t => t.qnt c q)
def execRq (c : CoreId) (s : State) : Answer := .next (s.vecStep c 5 fun q t => t.rq c q)
def execDq (c : CoreId) (s : State) : Answer := .next (s.vecStep c 6 fun q t => t.dq c q)
def execHist (c : CoreId) (s : State) : Answer := .next (s.vecStep c 7 fun q t => t.hist c q)
def execVset (c : CoreId) (s : State) : Answer := .next (s.vecStep c 8 fun q t => t.vset c q)

/-- SATCFG as it reads. -/
def SatStream.cfg (t : SatStream) : Word := pack [(32, 32, t.win), (0, 32, t.thr)]
/-- SATST as it reads. -/
def SatStream.low (t : SatStream) : Word := pack [(32, 32, t.total), (0, 32, t.wcnt)]
def SatStream.high (t : SatStream) : Word := pack [(32, 32, t.wrows), (0, 1, ofBool t.alarm)]

/-- A write of SATCFG[k] by host PF0 or Crown (R263): it zeroes the window counts. -/
def State.satcfg (s : State) (c : CoreId) (k : Fin 16) (ini : Ini) (h : Half) (v : Word) : State :=
  if ini = 0x60 ∨ ini = 0x70 then
    s.modVec c fun e =>
      let w := mergeHalf h (e.sat[k]).cfg v
      { e with sat := e.sat.set k { e.sat[k] with win := fld w 32 32, thr := fld w 0 32, wcnt := 0, wrows := 0, told := false } }
  else s

def execSatcfgWrite (c : CoreId) (k : Fin 16) (ini : Initiator) (h : Half) (v : Word) (s : State) : Answer :=
  .next (s.satcfg c k ini h v)

/-- A write of SATST[k] high: ALARM is W1C. -/
def State.satAlarm (s : State) (c : CoreId) (k : Fin 16) (h : Half) (v : Word) : State :=
  if bit (carried h v) 0 then s.modVec c fun e => { e with sat := e.sat.set k { e.sat[k] with alarm := false } } else s

/-- A write of VCLR. -/
def State.vclr (s : State) (c : CoreId) (h : Half) (v : Word) : State :=
  if bit (carried h v) 0 then
    s.modVec c fun e => { e with vcnt := 0, sat := e.sat.map fun t => { t with total := 0 } }
  else s

def execVclr (c : CoreId) (h : Half) (v : Word) (s : State) : Answer := .next (s.vclr c h v)

end Sys2Proof.Machine
end

