-- ==== Sys2Proof/Machine/Collective.lean ====
section
/-! DEFINITION. The collective engine (R363 to R367) and parity errors of the fabric (R372). -/

namespace Sys2Proof.Machine

/-! ### The descriptor (R363) -/

def coOp (d : Rec64) : Nat := recField d 0 1 % 4
def coFmt (d : Rec64) : Nat := recField d 0 1 / 4 % 4
def coId (d : Rec64) : Nat := recField d 1 1
def coLo (d : Rec64) : Nat := recField d 4 2
def coHi (d : Rec64) : Nat := recField d 6 2
def coRoot (d : Rec64) : Nat := recField d 8 2
def coDone (d : Rec64) : Nat := recField d 0xA 2
def coLen (d : Rec64) : Nat := recField d 0xC 4
def coSrc (d : Rec64) : Nat := recField d 0x10 8
def coDst (d : Rec64) : Nat := recField d 0x18 8
def coSeq (d : Rec64) : Nat := recField d 0x3C 4

/-- GCHK: the CRC-32 of OPF, LEN, LO, HI and ROOT (R364). -/
def coCheck (d : Rec64) : BitVec 32 :=
  crc32 (leBytes 1 (recField d 0 1) ++ leBytes 4 (coLen d) ++ leBytes 2 (coLo d) ++ leBytes 2 (coHi d) ++ leBytes 2 (coRoot d))

/-- Fragments of 4,096 bytes, and the bytes of one. -/
def coFrags (d : Rec64) : Nat := (coLen d + 4095) / 4096
def fragLen (d : Rec64) (f : Nat) : Nat := min 4096 (coLen d - 4096 * f)

/-- Whether coordinates lie in the box, and the box in the slice. -/
def inGroup (d : Rec64) (c : Nat) : Bool := (List.range 3).all fun k => between (coordOf (coLo d) k) (coordOf c k) (coordOf (coHi d) k)
def boxOk (b : FabState) (d : Rec64) : Bool :=
  (List.range 3).all fun k => decide (coordOf (coLo d) k ≤ coordOf (coHi d) k) && decide (coordOf (coHi d) k < b.sizeOf k)

/-- Whether a descriptor carries a reserved encoding. -/
def coReserved (d : Rec64) : Bool :=
  decide (coFmt d = 3) || decide (recField d 0 1 / 16 ≠ 0) || decide (4 ≤ recField d 2 1) || decide (recField d 3 1 ≠ 0) ||
    decide (512 ≤ coLo d) || decide (512 ≤ coHi d) || decide (512 ≤ coRoot d) || (decide (coOp d ≠ 3) && decide (coRoot d ≠ 0)) ||
    decide (coDone d / 2 ^ 14 % 2 ≠ 0) || decide (coLen d % 256 ≠ 0) || decide (coLen d = 0) || decide (2 ^ 48 ≤ coSrc d) ||
    decide (2 ^ 48 ≤ coDst d) || decide (coSrc d % 256 ≠ 0) || decide (coDst d % 256 ≠ 0) || decide (recField d 0x20 28 ≠ 0)

/-- The access right of the collective engine for a partition. -/
def coWho (p : Fin 4) : DdrWho := .part 0x59 p

/-- The partition of a descriptor: PF0 names it, a DMA engine's is its core's. -/
def State.coPart (s : State) (ini : Ini) (d : Rec64) : Fin 4 :=
  if ini = 0x60 then Fin.ofNat 4 (recField d 2 1) else (s.srcPart ini).getD 0

/-- Whether the engine accepts a descriptor (R363). -/
def State.coOk (s : State) (ini : Ini) (d : Rec64) : Bool :=
  let b := s.fab
  let p := s.coPart ini d
  (decide (ini = 0x60) || between 0x20 ini.toNat 0x3F) && !coReserved d && !isSafety p && b.valid &&
    boxOk b d && inGroup d (b.addr.toNat % 512) && (decide (coOp d ≠ 3) || inGroup d (coRoot d)) &&
    s.ddr.admitsAll (coWho p) false (coSrc d) (coLen d) && s.ddr.admitsAll (coWho p) true (coDst d) (coLen d) &&
    (decide (coSrc d = coDst d) || decide (coSrc d + coLen d ≤ coDst d) || decide (coDst d + coLen d ≤ coSrc d)) &&
    !b.ops.any (fun o => decide (coId o.desc = coId d)) && decide (b.ops.length < 16)

/-! ### Values (R365) -/

/-- Two 4- or 2-byte elements combined; the last part says that an INT32 sum saturated. -/
def coElem (op fmt a b : Nat) : Nat × Bool :=
  if fmt = 2 then
    let x := toSigned 32 a
    let y := toSigned 32 b
    match op with
    | 1 => (wrapN 32 (max x y), false)
    | 2 => (wrapN 32 (min x y), false)
    | _ => (wrapN 32 (sat32 (x + y)), decide (sat32 (x + y) ≠ x + y))
  else
    let k := if fmt = 0 then bf16 else fp32
    let x := k.decode a
    let y := k.decode b
    match op with
    | 1 => (k.encode (fMax x y), false)
    | 2 => (k.encode (fMin x y), false)
    | _ => (k.encode (fp32.add x y), false)

/-- Bytes of an element. -/
def coBytes (fmt : Nat) : Nat := if fmt = 0 then 2 else 4

/-- Element `i` of a byte list. -/
def elemAt (w i : Nat) (bs : List Byte) : Nat := leNat ((bs.drop (w * i)).take w)

/-- Two fragments combined, and whether a sum saturated. -/
def coCombine (op fmt : Nat) (x y : List Byte) : List Byte × Bool :=
  let w := coBytes fmt
  (List.range (x.length / w)).foldr (fun i a =>
    let e := coElem op fmt (elemAt w i x) (elemAt w i y)
    (leBytes w e.1 ++ a.1, e.2 || a.2)) ([], false)

/-- Whether a fragment holds a NaN. -/
def coHasNan (fmt : Nat) (x : List Byte) : Bool :=
  decide (fmt ≠ 2) && (List.range (x.length / coBytes fmt)).any fun i =>
    ((if fmt = 0 then bf16 else fp32).decode (elemAt (coBytes fmt) i x)).isNan

/-! ### Progress (R364, R367) -/

/-- COL_STAT of an operation. -/
def coStat (seq state cause : Nat) (sat nan : Bool) : BitVec 128 :=
  BitVec.ofNat 128 (seq + state * 2 ^ 32 + cause * 2 ^ 40 + (ofBool sat + 2 * ofBool nan) * 2 ^ 48)

def State.coStatus (s : State) (id : Nat) (w : BitVec 128) : State :=
  s.modFab fun b => { b with colStat := SMap.set 0 b.colStat id w }

/-- The completion signal, with identifier 0x59. -/
def State.coSignal (s : State) (d : Rec64) : State :=
  if coDone d / 2 ^ 15 % 2 = 1 then s.remoteSignal (Fin.ofNat 32 (coDone d / 2 ^ 9 % 32)) 0x59 (coDone d % 2 ^ 9) 1 else s

def State.coDrop (s : State) (id : Nat) : State :=
  s.modFab fun b => { b with ops := b.ops.filter fun o => decide (coId o.desc ≠ id) }

/-- Waiting fragments are discarded, and their input buffers freed (R359). -/
def State.dropFrags (s : State) (p : FabPkt → Bool) : State :=
  ((s.fab.frags.filter fun f => p f.2).foldl (fun t f => t.freeEntry (arrival f.1 f.2)) s).modFab fun b =>
    { b with frags := b.frags.filter fun f => !p f.2 }

/-- An abort: event 0x3071, STATE 3, the signal; DST holds free bytes. -/
def State.coAbort (s : State) (o : ColOp) (cause : Nat) : State :=
  let d := o.desc
  let x := s.drawBytes (coLen d)
  let s := x.2.ddrPut (coWho o.part) (coDst d) x.1
  let s := (s.coDrop (coId d)).dropFrags fun f => decide (fld f.args0 0 8 = coId d)
  ((s.coStatus (coId d) (coStat (coSeq d) 3 cause o.sat o.nan)).coSignal d).fabPost 0x3071

/-- The dimensions of the phases. -/
def coPhases (d : Rec64) : List Nat := (List.range 3).filter fun k => decide (coordOf (coLo d) k < coordOf (coHi d) k)

/-- A fragment leaves over a port of dimension d; at VALID = 0 it is dropped at the source (R354). -/
def State.coSend (s : State) (o : ColOp) (d : Nat) (plus down : Bool) (f : Nat) (data : List Byte) : State :=
  let b := s.fab
  let p := portOf d plus
  let a0 := pack [(0, 8, coId o.desc), (8, 24, f), (32, 2, d), (34, 1, ofBool down)]
  let a1 := pack [(0, 12, data.length - 1), (12, 2, coOp o.desc), (14, 2, coFmt o.desc), (32, 32, (coCheck o.desc).toNat)]
  if !b.valid then s.fabDrop 0
  else s.fabQueue p ⟨FabPkt.make 3 b.addr (BitVec.ofNat 15 (b.step b.addr.toNat p)) 0x59 down a0 a1 data, none⟩

def State.modOp (s : State) (id : Nat) (f : ColOp → ColOp) : State :=
  s.modFab fun b => { b with ops := b.ops.map fun o => if coId o.desc = id then f o else o }

/-- The running operation with a number. -/
def State.opOf (s : State) (id : Nat) : Option ColOp := s.fab.ops.find? fun o => coId o.desc = id

/-- The operation is complete: status and signal. -/
def State.coComplete (s : State) (o : ColOp) : State :=
  ((s.coDrop (coId o.desc)).coStatus (coId o.desc) (coStat (coSeq o.desc) 2 0 o.sat o.nan)).coSignal o.desc

/-- The last result of a fragment is written to DST. -/
def State.coResult (s : State) (o : ColOp) (f : Nat) (data : List Byte) : State :=
  let r := s.ddrWrite (coWho o.part) (coDst o.desc + 4096 * f) data
  if !r.2 then r.1.coAbort o 4
  else
    let o' := { o with done := o.done + 1, nan := o.nan || coHasNan (coFmt o.desc) data }
    let s := r.1.modOp (coId o.desc) fun _ => o'
    if o'.done = coFrags o.desc then s.coComplete o' else s

/-- This module's contribution to phase k of fragment f is at hand: sent up from the low end of the line, kept until the
line's partial result comes elsewhere, and written when no phase is left. -/
def State.coAdvance (s : State) (id k f : Nat) (data : List Byte) : State :=
  match s.opOf id with
  | none => s
  | some o =>
    match (coPhases o.desc)[k]? with
    | none => s.coResult o f data
    | some d =>
      if coordOf s.fab.addr.toNat d = coordOf (coLo o.desc) d then s.coSend o d true false f data
      else s.modOp id fun o => { o with store := o.store ++ [(k, f, data)] }

/-- SRC of a fragment: +0 for a BCAST member that is not the root. -/
def State.coSource (s : State) (o : ColOp) (f : Nat) : State × Option (List Byte) :=
  if coOp o.desc = 3 ∧ coRoot o.desc ≠ s.fab.addr.toNat % 512 then (s, some (List.replicate (fragLen o.desc f) 0))
  else s.ddrRead (coWho o.part) (coSrc o.desc + 4096 * f) (fragLen o.desc f)

/-- A fragment of a line on its way up meets this module's contribution. -/
def State.coUp (s : State) (o : ColOp) (k d f : Nat) (got own : List Byte) : State :=
  let id := coId o.desc
  let r := coCombine (coOp o.desc) (coFmt o.desc) got own
  let s := s.modOp id fun o => { o with sat := o.sat || r.2, store := o.store.filter fun e => !(decide (e.1 = k) && decide (e.2.1 = f)) }
  if coordOf s.fab.addr.toNat d = coordOf (coHi o.desc) d then (s.coSend o d false true f r.1).coAdvance id (k + 1) f r.1
  else s.coSend o d true false f r.1

/-- Bytes of phase results in the engine's fragment store. -/
def FabState.stored (b : FabState) : Nat := (b.ops.flatMap fun o => o.store.map fun e => e.2.2.length).foldl (· + ·) 0

/-- Whether this module's result of a phase would need room in a full fragment store before the next phase takes it: the
store holds 2 MiB, and only a module that is not the low end of the next line keeps the result (R364). -/
def State.coFull (s : State) (o : ColOp) (k len : Nat) : Bool :=
  match (coPhases o.desc)[k]? with
  | none => false
  | some d => decide (coordOf s.fab.addr.toNat d ≠ coordOf (coLo o.desc) d) && decide (2 ^ 21 < s.fab.stored + len)

/-- A fragment whose GCHK differs: the operation aborts, and a fragment on its way up is answered on its way down, by which
the other module meets this descriptor's GCHK and aborts too (R364; the answer is DESIGN CHOICE, log 86). -/
def State.coDiffer (s : State) (o : ColOp) (k : FabPkt) : State :=
  let s := if bit k.args0 34 then s
    else s.coSend o (fld k.args0 32 2) false true (fld k.args0 8 24) k.payload
  s.coAbort o 2

/-- A fragment meets its operation: the state after it, and whether it must wait, for a phase result or for room. -/
def State.coMeet (s : State) (o : ColOp) (k : FabPkt) : State × Bool :=
  let d := fld k.args0 32 2
  let f := fld k.args0 8 24
  if BitVec.ofNat 32 (fld k.args1 32 32) ≠ coCheck o.desc then (s.coDiffer o k, false)
  else
    match (coPhases o.desc).findIdx? (· = d) with
    | none => (s.fabDrop 3, false)
    | some i =>
      let top := decide (coordOf s.fab.addr.toNat d = coordOf (coHi o.desc) d)
      if (bit k.args0 34 || top) && s.coFull o (i + 1) k.payload.length then (s, true)
      else if bit k.args0 34 then
        let s := if coordOf s.fab.addr.toNat d = coordOf (coLo o.desc) d then s else s.coSend o d false true f k.payload
        (s.coAdvance (coId o.desc) (i + 1) f k.payload, false)
      else if i = 0 then
        match s.coSource o f with
        | (t, none) => (t.coAbort o 4, false)
        | (t, some own) => (t.coUp o i d f k.payload own, false)
      else match o.store.find? fun e => decide (e.1 = i) && decide (e.2.1 = f) with
        | some e => (s.coUp o i d f k.payload e.2.2, false)
        | none => (s, true)

/-- A fragment, its input buffer freed unless it must wait. -/
def State.coTake (s : State) (p : Fin 6) (k : FabPkt) : State :=
  match s.opOf (fld k.args0 0 8) with
  | none => s.modFab fun b => { b with frags := b.frags ++ [(p, k)] }
  | some o =>
    let r := s.coMeet o k
    if r.2 then r.1.modFab fun b => { b with frags := b.frags ++ [(p, k)] } else r.1.freeEntry (arrival p k)

/-- Waiting fragments are tried again, each once, oldest first. -/
def State.coRetry (s : State) : State :=
  let fs := s.fab.frags
  fs.foldl (fun t e => t.coTake e.1 e.2) (s.modFab fun b => { b with frags := [] })

/-- A COLL fragment arrives on port p (R350, R364, R368). -/
def State.coFragment (s : State) (p : Fin 6) (k : FabPkt) : State :=
  let x := s.fab.ports[p]
  if x.state ≠ 2 ∧ x.state ≠ 3 ∧ x.state ≠ 5 then s
  else
    let s := s.modLink p fun x => { x with nak := false }
    match s.fab.hopIn p k with
    | .error c => (s.freeEntry (arrival p k)).fabDrop c
    | .ok q =>
      if q.typ ≠ 3 then s
      else if !s.fab.valid then (s.freeEntry (arrival p k)).fabDrop 1
      else if q.pcrc ≠ q.crc then
        let s := (s.freeEntry (arrival p k)).fabDrop 1
        match s.opOf (fld q.args0 0 8) with
        | some o => s.coAbort o 3
        | none => s
      else (s.coTake p q).coRetry

def execCollFragment (p : Fin 6) (k : FabPkt) (s : State) : Answer := inRange s (pktOk k) (s.coFragment p k)

/-- An accepted descriptor starts: its contributions at the low end of the first line, or its results where the box has
one module only; fragments that came early meet it. -/
def State.coStart (s : State) (o : ColOp) : State :=
  let d := o.desc
  let id := coId d
  let s := (s.modFab fun b => { b with ops := b.ops ++ [o] }).coStatus id (coStat (coSeq d) 1 0 false false)
  let low := match coPhases d with | [] => true | k :: _ => decide (coordOf s.fab.addr.toNat k = coordOf (coLo d) k)
  let s := if low then
      (List.range (coFrags d)).foldl (fun t f =>
        match t.opOf id with
        | none => t
        | some o => match t.coSource o f with
          | (t, none) => t.coAbort o 4
          | (t, some data) => t.coAdvance id 0 f data) s
    else s
  s.coRetry

/-- A write into COL_Q; covering bytes 0x3C to 0x3F submits the descriptor (R363, R540). -/
def State.colqWrite (s : State) (ini : Ini) (off : Nat) (data : List Byte) : State :=
  let d := recStore s.fab.colq off data
  let s := s.modFab fun b => { b with colq := d }
  if !covers off data.length 0x3C 0x3F then s
  else if s.coOk ini d then s.coStart ⟨d, s.coPart ini d, 0, false, false, []⟩
  else (s.modFab fun b => { b with colRef := b.colRef + 1 }).fabPost 0x3070

def execCollDescriptor (ini : Initiator) (off : Nat) (data : List Byte) (s : State) : Answer :=
  inRange s (bytesIn off data 64) (s.colqWrite ini off data)

/-- Fragments of an operation that was not posted have waited COL_TMO (R367). -/
def State.colTimeout (s : State) (id : Fin 256) : State :=
  let mine (k : FabPkt) : Bool := decide (fld k.args0 0 8 = id.val)
  if (s.opOf id.val).isSome || !s.fab.frags.any (fun f => mine f.2) then s
  else
    let s := s.dropFrags mine
    (s.coStatus id.val (coStat 0 3 1 false false)).fabPost 0x3071

def execColTimeout (id : Fin 256) (s : State) : Answer := .next (s.colTimeout id)

/-- Running operations of the partitions that satisfy `p` are aborted: a partition restart, or a reset of the engine. -/
def State.coAbortAll (s : State) (p : Fin 4 → Bool) (cause : Nat) : State :=
  (s.fab.ops.filter fun o => p o.part).foldl (fun t o => t.coAbort o cause) s

/-- A parity error drops the packets concerned and resets the port or the engine (R372). -/
def State.fabParity (s : State) (f : FabFault) : State :=
  match f with
  | .port p => ((s.fabDown p).modLink p fun x => { x with state := 1 }).fabPost 0x3090
  | .engine =>
    let s := s.coAbortAll (fun _ => true) 0
    (s.dropFrags fun _ => true).fabPost 0x3090

def execFabricParityError (f : FabFault) (s : State) : Answer := .next (s.watchLinks fun t => t.fabParity f)

end Sys2Proof.Machine
end

