-- ==== Sys2Proof/Machine/Tables.lean ====
section
/-! DEFINITION. The near-memory gather units (chapter 12): tables and rows, requests, lookups, changes, migration, epochs,
and the faults of the units. -/

namespace Sys2Proof.Machine

def State.modNmg (s : State) (f : NmgState → NmgState) : State := { s with nmg := f s.nmg }
def State.modUnit (s : State) (u : Fin 16) (f : NmgUnit → NmgUnit) : State :=
  s.modNmg fun n => { n with units := n.units.set u (f n.units[u]) }

/-- The identifier of unit u, and its die. -/
def nmgIni (u : Fin 16) : Ini := BitVec.ofNat 8 (0x42 + u.val)
def nmgDie (u : Fin 16) : Fin 2 := if u.val < 8 then 0 else 1

def State.nmgPost (s : State) (u : Fin 16) (code : Nat) : State := s.postPart code (nmgIni u) none

/-! ### Table descriptors (R284) -/

def tbEn (t : Rec64) : Bool := bit t 0
def tbKeyed (t : Rec64) : Bool := bit t 1
def tbU4 (t : Rec64) : Bool := bit t 2
def tbIhot (t : Rec64) : Bool := bit t 3
def tbWpart (t : Rec64) : Fin 4 := Fin.ofNat 4 (recField t 1 1)
def tbLpart (t : Rec64) : Nat := recField t 1 1 / 16
def tbHome (t : Rec64) : Nat := recField t 2 1
def tbD (t : Rec64) : Nat := recField t 4 2
def tbRstr (t : Rec64) : Nat := recField t 6 2
def tbIbase (t : Rec64) : Nat := recField t 8 8
def tbNind (t : Rec64) : Nat := recField t 0x10 4

/-- Bytes of the indirection table. -/
def tbLen (t : Rec64) : Nat := tbNind t * if tbKeyed t then 16 else 8

/-- Segment of a partition in the hot stores: base and length in bytes. -/
def segOf (w : Word) : Nat × Nat := (65536 * fld w 0 9, 65536 * fld w 16 10)
def NmgState.inSeg (n : NmgState) (p : Fin 4) (a len : Nat) : Bool :=
  let g := segOf n.hseg[p]
  decide (g.1 ≤ a) && decide (a + len ≤ g.1 + g.2)

/-- Reserved fields of a descriptor. -/
def tabReserved (t : Rec64) : Bool :=
  decide (recField t 0 1 / 16 ≠ 0) || decide (recField t 1 1 / 4 % 4 ≠ 0) || decide (recField t 2 1 / 16 ≠ 0) ||
    decide (recField t 3 1 ≠ 0) || decide (2 ^ 48 ≤ tbIbase t) || decide (recField t 0x14 44 ≠ 0)

/-- Limits of a descriptor. -/
def State.tabOk (s : State) (t : Rec64) : Bool :=
  let d := tbD t
  let r := tbRstr t
  (if tbU4 t then between 2 d 8184 && decide (d % 2 = 0) else between 1 d 4092) &&
    (decide (r = 16) || decide (r = 32) || decide (r = 64) || decide (r = 128) || (decide (r % 256 = 0) && between 256 r 4096)) &&
    decide (4 + (if tbU4 t then d / 2 else d) ≤ r) && decide (tbIbase t % 64 = 0) && decide (1 ≤ tbNind t) &&
    (!tbKeyed t || decide (tbNind t % 4 = 0)) &&
    (decide (tbLpart t % 4 = 0) || decide (tbLpart t = 2 ^ (tbWpart t).val)) &&
    (if tbIhot t then s.nmg.inSeg (tbWpart t) (tbIbase t) (tbLen t)
     else s.ddr.admitsAll (.part 0x42 (tbWpart t)) false (tbIbase t) (tbLen t))

/-- Bytes written to NMG_TAB[t]: limits are checked when the descriptor they give has EN = 1. -/
def State.nmgTabWrite (s : State) (t : Fin 64) (ini : Ini) (off : Nat) (data : List Byte) : State :=
  let old := s.nmg.tab[t]
  let w := recStore old off data
  if (ini ≠ 0x60 ∧ ini ≠ 0x70) ∨ (tbEn old ∧ tbEn w) ∨ tabReserved w ∨ (tbEn w ∧ !s.tabOk w) then s.nmgPost 0 0x2201
  else s.modNmg fun n => { n with tab := n.tab.set t w }

def execNmgTabWrite (t : Fin 64) (ini : Initiator) (off : Nat) (data : List Byte) (s : State) : Answer :=
  inRange s (bytesIn off data 64) (s.nmgTabWrite t ini off data)

/-- The bits of NMG_HSEG. -/
def hsegMask : Word := 0x3FF01FF#64

/-- Whether the segments, with partition p's replaced, neither overlap nor reach beyond 32 MiB. -/
def NmgState.segsOk (n : NmgState) (p : Fin 4) (w : Word) : Bool :=
  let g := segOf w
  decide (fld w 16 10 ≤ 512) && decide (g.1 + g.2 ≤ 2 ^ 25) &&
    (List.finRange 4).all fun q => decide (q = p) || !overlap g.1 g.2 (segOf n.hseg[q]).1 (segOf n.hseg[q]).2

/-- A write of NMG_HSEG[p] (R302). -/
def State.hsegWrite (s : State) (p : Fin 4) (ini : Ini) (h : Half) (v : Word) : State :=
  let w := maskWrite hsegMask s.nmg.hseg[p] (mergeHalf h s.nmg.hseg[p] v)
  if (ini ≠ 0x60 ∧ ini ≠ 0x70) ∨ s.nmg.tab.toList.any (fun t => tbEn t && decide (tbWpart t = p)) ∨ !s.nmg.segsOk p w then
    s.nmgPost 0 0x2201
  else s.modNmg fun n => { n with hseg := n.hseg.set p w }

def execNmgHsegWrite (p : Fin 4) (ini : Initiator) (h : Half) (v : Word) (s : State) : Answer := .next (s.hsegWrite p ini h v)

/-! ### Requests (R288 to R290) -/

def rqKind (r : Rec64) : Nat := recField r 0 1 % 8
def rqRop (r : Rec64) : Nat := recField r 0 1 / 8 % 4
def rqBf (r : Rec64) : Bool := bit r 5
def rqTid (r : Rec64) : Nat := recField r 1 1
def rqNbag (r : Rec64) : Nat := recField r 4 4
def rqIds (r : Rec64) : Nat := recField r 8 8
def rqBofs (r : Rec64) : Nat := recField r 0x10 8
def rqDest (r : Rec64) : Nat := recField r 0x18 4 % 2 ^ 23
def rqCore (r : Rec64) : CoreId := Fin.ofNat 32 (recField r 0x18 4 / 2 ^ 23)
def rqOstr (r : Rec64) : Nat := recField r 0x1C 4
def rqSync (r : Rec64) : Nat := recField r 0x20 2
def rqSeq (r : Rec64) : BitVec 32 := BitVec.ofNat 32 (recField r 0x3C 4)

/-- Bytes of an output element. -/
def rqWidth (r : Rec64) : Nat := if rqBf r then 2 else 4

/-- Reserved encodings of a request. -/
def reqReserved (r : Rec64) : Bool :=
  let k := rqKind r
  decide (4 < k) || decide (recField r 0 1 / 64 ≠ 0) || decide (64 ≤ rqTid r) || decide (4 ≤ recField r 2 1) ||
    decide (recField r 3 1 ≠ 0) || decide (recField r 0x18 4 / 2 ^ 28 ≠ 0) || decide (rqSync r / 2 ^ 9 % 64 ≠ 0) ||
    decide (recField r 0x22 26 ≠ 0) ||
    (if k = 0 then decide (rqRop r = 3) && decide (rqBofs r ≠ 0)
     else decide (recField r 0 1 / 8 ≠ 0) || decide (rqNbag r ≠ 0) || decide (rqOstr r ≠ 0) || (decide (k = 4) && decide (rqTid r ≠ 0)))

/-- Fields of a pointer (R286). -/
def ptrValid (p : Word) : Bool := bit p 63
def ptrHot (p : Word) : Bool := bit p 62
def ptrAddr (p : Word) : Nat := fld p 0 48
def ptrWell (t : Rec64) (p : Word) : Bool := decide (fld p 48 14 = 0) && decide (ptrAddr p % min (tbRstr t) 256 = 0)

/-- Whether a new pointer names a place that R284 and R287 allow. A keyed table's must be valid (R293). A FLIP that
removes a row names no place, and its ADDR is not judged (DESIGN CHOICE, log 186); a MIGR copies to ADDR all the same. -/
def State.nptrOk (s : State) (r : Rec64) (t : Rec64) (part : Fin 4) : Bool :=
  let p := BitVec.ofNat 64 (rqBofs r)
  ptrWell t p && (ptrValid p || !tbKeyed t) &&
    if !ptrValid p && decide (rqKind r = 3) then true
    else if ptrHot p then s.nmg.inSeg (tbWpart t) (ptrAddr p) (tbRstr t)
    else s.ddr.admitsAll (.part 0x42 part) true (ptrAddr p) (tbRstr t)

/-- Limits of a request that depend on its kind. -/
def State.kindOk (s : State) (u : Fin 16) (r t : Rec64) (part : Fin 4) : Bool :=
  let who : DdrWho := .part (nmgIni u) part
  match rqKind r with
  | 0 =>
    tbEn t && (tbLpart t).testBit part.val && between 1 (rqNbag r) 65536 && decide (rqIds r % 8 = 0) && decide (rqIds r < 2 ^ 48) &&
      decide (rqBofs r % 4 = 0) && decide (rqBofs r < 2 ^ 48) && decide (rqOstr r % 16 = 0) &&
      decide ((tbD t * rqWidth r + 15) / 16 * 16 ≤ rqOstr r) && decide (rqDest r + 16 + rqNbag r * rqOstr r ≤ spdBytes) &&
      s.ddr.admitsAll who false (rqIds r) (if rqRop r = 3 then rqNbag r * (if tbKeyed t then 8 else 4) else 8) &&
      (decide (rqRop r = 3) || s.ddr.admitsAll who false (rqBofs r) (4 * (rqNbag r + 1)))
  | 4 => true
  | k =>
    tbEn t && decide (tbWpart t = part) && decide (tbHome t = u.val) &&
      if k = 1 then decide (rqBofs r < 2 ^ 48) && s.ddr.admitsAll who false (rqBofs r) (tbRstr t) else s.nptrOk r t part

/-- Whether unit u accepts a request of a partition (R290). -/
def State.reqOk (s : State) (u : Fin 16) (ini : Ini) (r t : Rec64) (part : Fin 4) : Bool :=
  (decide (ini = 0x60) || between 0x20 ini.toNat 0x3F) && !reqReserved r &&
    decide ((s.nmg.units[u].queues[part]).length < 16) &&
    !(decide (part = 0) && decide (nmgDie u = 1)) && !(decide (part = 1) && decide (nmgDie u = 0)) &&
    decide (s.partOf (rqCore r) = part) && decide (rqDest r % 16 = 0) && decide (rqDest r + 16 ≤ spdBytes) && s.kindOk u r t part

/-- A request refused (R290). -/
def State.nmgRefuse (s : State) (u : Fin 16) (r : Rec64) : State :=
  (s.modUnit u fun x => { x with refc := satAdd 0xFFFF x.refc 1, lref := rqSeq r }).nmgPost u 0x2201

/-- Bytes written to NMG_REQ[u][p]; covering bytes 0x3C to 0x3F submits the request (R288, R540). -/
def State.nmgReqWrite (s : State) (u : Fin 16) (p : Fin 4) (ini : Ini) (off : Nat) (data : List Byte) : State :=
  let r := recStore s.nmg.units[u].staged[p] off data
  let s := s.modUnit u fun x => { x with staged := x.staged.set p r }
  if !covers off data.length 0x3C 0x3F then s
  else
    let part := if ini = 0x60 then Fin.ofNat 4 (recField r 2 1) else (s.srcPart ini).getD 0
    let t := s.nmg.tab[Fin.ofNat 64 (rqTid r)]
    if s.reqOk u ini r t part then
      s.modUnit u fun x => { x with queues := x.queues.set part (x.queues[part] ++ [⟨r, part, t⟩]) }
    else s.nmgRefuse u r

def execNmgReqWrite (u : Fin 16) (p : Fin 4) (ini : Initiator) (off : Nat) (data : List Byte) (s : State) : Answer :=
  inRange s (bytesIn off data 64) (s.nmgReqWrite u p ini off data)

/-! ### Grants (R288, R295) -/

/-- Partitions in the order in which unit u looks at them. -/
def NmgUnit.order (x : NmgUnit) : List (Fin 4) :=
  (if x.tok01 = 0 then [1, 0] else [0, 1]) ++ if x.tok23 = 0 then [3, 2] else [2, 3]

/-- Requests that unit u runs: those whose status is due, its migrations and its RETIRE. A held request does not run. -/
def NmgState.running (n : NmgState) (u : Fin 16) : Nat :=
  let x := n.units[u]
  x.run.length + x.migr.length + match n.retire with | some r => ofBool (decide (r.1 = u)) | none => 0

/-- Whether a change goes to a row that is being migrated. -/
def NmgUnit.migrates (x : NmgUnit) (r : NmgReq) : Bool :=
  x.migr.any fun m => decide (rqIds m.r.req = rqIds r.req) && decide (rqTid m.r.req = rqTid r.req)

/-- Whether the request at the head of a queue may start: at most 8 run at once (R288); a change that will be held takes
none of the 8. No change of any kind starts while the hold queue is full (R295), and no RETIRE beside another (R296). -/
def NmgState.mayStart (n : NmgState) (u : Fin 16) (r : NmgReq) : Bool :=
  let x := n.units[u]
  let room := decide (n.running u < 8)
  let change := decide (x.held.length < 64)
  match rqKind r.req with
  | 0 => room
  | 4 => room && change && n.retire.isNone
  | _ => change && (room || x.migrates r)

/-- The request granted next, with its partition. -/
def State.granted (s : State) (u : Fin 16) : Option (Fin 4 × NmgReq) :=
  let x := s.nmg.units[u]
  x.order.findSome? fun p => match x.queues[p] with
    | r :: _ => if s.nmg.mayStart u r then some (p, r) else none
    | [] => none

/-- The granted request leaves its queue and the token advances. -/
def State.takeReq (s : State) (u : Fin 16) (p : Fin 4) : State :=
  s.modUnit u fun x => { x with
    queues := x.queues.set p (x.queues[p].drop 1)
    tok01 := if p.val < 2 then Fin.ofNat 2 p.val else x.tok01
    tok23 := if p.val < 2 then x.tok23 else Fin.ofNat 2 p.val }

/-- Unit u works on the granted request when it is of this kind. -/
def State.nmgStep (s : State) (u : Fin 16) (kind : Nat) (work : NmgReq → State → State) : State :=
  match s.granted u with
  | some (p, r) => if rqKind r.req = kind then work r (s.takeReq u p) else s
  | none => s

/-! ### Reads of the hot store and of DDR (R286, R287, R292) -/

/-- What a read of a pointer or a record gives. -/
inductive NmgRead (α : Type) where
  | ok (v : α)
  | absent
  /-- The target refused it or could not correct it: absent, with ERR and event 0x2211. -/
  | failed

/-- Bytes of a unit's own hot store; none where a word is bad. -/
def NmgState.hotRead (n : NmgState) (die : Fin 2) (a len : Nat) : Option (List Byte) :=
  if len ≠ 0 ∧ (List.range ((a + len - 1) / 8 - a / 8 + 1)).any (fun i => SMap.get false n.bad[die] (a / 8 + i)) then none
  else some (n.hot.read a len)

/-- Bytes written to both mirrors; words covered whole are good again. -/
def State.hotWrite (s : State) (a : Nat) (data : List Byte) : State :=
  s.modNmg fun n => { n with
    hot := n.hot.write a data
    bad := n.bad.map fun m => SMap.drop (fun w => decide (a ≤ 8 * w) && decide (8 * w + 8 ≤ a + data.length)) m }

/-- `len` bytes of a table's place, in the hot store or in DDR. -/
def State.placeRead (s : State) (u : Fin 16) (r : NmgReq) (hot : Bool) (a len : Nat) : State × Option (List Byte) :=
  if hot then
    (if s.nmg.inSeg (tbWpart r.tab) a len then (s, s.nmg.hotRead (nmgDie u) a len) else (s, none))
  else s.ddrRead (.part (nmgIni u) r.part) a len

/-- `data` written to a place. -/
def State.placeWrite (s : State) (u : Fin 16) (r : NmgReq) (hot : Bool) (a : Nat) (data : List Byte) : State :=
  if hot then (if s.nmg.inSeg (tbWpart r.tab) a data.length then s.hotWrite a data else s)
  else s.ddrPut (.part (nmgIni u) r.part) a data

/-- The home slot of a key (R286). -/
def keySlot (nind id : Nat) : Nat := ((id * 0xC2B2AE3D27D4EB4F) % 2 ^ 64 / 2 ^ 32) * nind / 2 ^ 32

/-- Probes of a keyed table: where the pointer of `id` lies. -/
def State.probeKey (s : State) (u : Fin 16) (r : NmgReq) (id : Nat) : List Nat → State × NmgRead Nat
  | [] => (s, .absent)
  | slot :: rest =>
    let a := tbIbase r.tab + 16 * slot
    match s.placeRead u r (tbIhot r.tab) a 8 with
    | (t, none) => (t, .failed)
    | (t, some k) =>
      if leNat k = 0xFFFFFFFFFFFFFFFF then (t, .absent)
      else if leNat k = id then (t, .ok (a + 8))
      else State.probeKey t u r id rest

/-- The address of the pointer of row `id` in the indirection table. -/
def State.ptrPlace (s : State) (u : Fin 16) (r : NmgReq) (id : Nat) : State × NmgRead Nat :=
  let n := tbNind r.tab
  if tbKeyed r.tab then s.probeKey u r id ((List.range 16).map fun i => (keySlot n id + i) % n)
  else if n ≤ id then (s, .absent)
  else (s, .ok (tbIbase r.tab + 8 * id))

/-- The pointer of row `id`, with its place. -/
def State.rowPtr (s : State) (u : Fin 16) (r : NmgReq) (id : Nat) : State × NmgRead (Nat × Word) :=
  match s.ptrPlace u r id with
  | (t, .absent) => (t, .absent)
  | (t, .failed) => (t, .failed)
  | (t, .ok a) =>
    match t.placeRead u r (tbIhot r.tab) a 8 with
    | (t, none) => (t, .failed)
    | (t, some b) =>
      let p := BitVec.ofNat 64 (leNat b)
      if ptrValid p && ptrWell r.tab p then (t, .ok (a, p)) else (t, .absent)

/-- The record of row `id`. -/
def State.rowRead (s : State) (u : Fin 16) (r : NmgReq) (id : Nat) : State × NmgRead (List Byte) :=
  match s.rowPtr u r id with
  | (t, .absent) => (t, .absent)
  | (t, .failed) => (t, .failed)
  | (t, .ok (_, p)) =>
    match t.placeRead u r (ptrHot p) (ptrAddr p) (tbRstr r.tab) with
    | (t, none) => (t, .failed)
    | (t, some b) => (t, .ok b)

/-! ### Lookups (R285, R291, R292) -/

/-- Element e of a record. -/
def rowElem (t : Rec64) (b : List Byte) (e : Nat) : FV :=
  let code := if tbU4 t then
      let x := (b.getD (4 + e / 2) 0).toNat
      if e % 2 = 0 then x % 16 else x / 16
    else (b.getD (4 + e) 0).toNat
  fp32.add (fp32.mul (fp16.decode (leNat (b.take 2))) (FV.ofInt code)) (fp16.decode (leNat ((b.drop 2).take 2)))

/-- A row decoded. -/
def rowVals (t : Rec64) (b : List Byte) : List FV := (List.range (tbD t)).map (rowElem t b)

/-- The reduction of the rows found, in order. -/
def reduceRows (rop d : Nat) (rows : List (List FV)) : List FV :=
  match rows with
  | [] => List.replicate d .zero
  | r :: rs =>
    match rop with
    | 2 => rs.foldl (List.zipWith fMax) r
    | 1 => (rs.foldl (List.zipWith fp32.add) r).map fun v => fp32.div v (FV.ofInt rows.length)
    | _ => rs.foldl (List.zipWith fp32.add) r

/-- What a lookup has counted. -/
structure NmgCnt where
  found : Nat
  miss  : Nat
  empty : Bool
  nan   : Bool
  err   : Bool
  badbag : Bool

/-- The rows of a list of ids. -/
def State.rowsOf (s : State) (u : Fin 16) (r : NmgReq) (n : NmgCnt) (ids : List Nat) : State × NmgCnt × List (List FV) :=
  ids.foldl (fun (t : State × NmgCnt × List (List FV)) id =>
    match t.1.rowRead u r id with
    | (x, .ok b) => (x, { t.2.1 with found := t.2.1.found + 1 }, t.2.2 ++ [rowVals r.tab b])
    | (x, .absent) => (x, { t.2.1 with miss := t.2.1.miss + 1 }, t.2.2)
    | (x, .failed) => (x.nmgPost u 0x2211, { t.2.1 with miss := t.2.1.miss + 1, err := true }, t.2.2)) (s, n, [])

/-- The ids at positions lo to hi − 1 of the id array; an id that cannot be read counts as a failed row. -/
def State.idsOf (s : State) (u : Fin 16) (r : NmgReq) (lo hi : Nat) : State × List (Option Nat) :=
  let w := if tbKeyed r.tab then 8 else 4
  (List.range (hi - lo)).foldl (fun (t : State × List (Option Nat)) i =>
    let x := t.1.ddrRead (.part (nmgIni u) r.part) (rqIds r.req + w * (lo + i)) w
    (x.1, t.2 ++ [x.2.map leNat])) (s, [])

/-- Output row b of a bag with ids at lo to hi − 1. -/
def State.bagOut (s : State) (u : Fin 16) (r : NmgReq) (n : NmgCnt) (b lo hi : Nat) : State × NmgCnt :=
  let ids := s.idsOf u r lo hi
  let lost := (ids.2.filter Option.isNone).length
  let s := (List.range lost).foldl (fun t _ => t.nmgPost u 0x2211) ids.1
  let n := { n with miss := n.miss + lost, err := n.err || decide (0 < lost) }
  let x := s.rowsOf u r n (ids.2.filterMap id)
  let vs := reduceRows (rqRop r.req) (tbD r.tab) x.2.2
  let f := if rqBf r.req then bf16 else fp32
  let bytes := vs.flatMap fun v => leBytes (rqWidth r.req) (f.encode v)
  let n := x.2.1
  (x.1.windowWrites (rqCore r.req) (nmgIni u) (rqDest r.req + 16 + b * rqOstr r.req) bytes,
    { n with empty := n.empty || x.2.2.isEmpty, nan := n.nan || vs.any FV.isNan })

/-- The bags as position ranges, with BADBAG; none where the offsets cannot be read. -/
def State.bagsOf (s : State) (u : Fin 16) (r : NmgReq) : State × Option (List (Nat × Nat × Bool)) :=
  let n := rqNbag r.req
  if rqRop r.req = 3 then (s, some ((List.range n).map fun b => (b, b + 1, false)))
  else match s.ddrRead (.part (nmgIni u) r.part) (rqBofs r.req) (4 * (n + 1)) with
    | (t, none) => (t, none)
    | (t, some bs) =>
      let o (i : Nat) : Nat := leNat ((bs.drop (4 * i)).take 4)
      (t, some ((List.range n).map fun b =>
        let bad := decide (o (b + 1) < o b) || decide (o n < o (b + 1))
        (o b, if bad then o b else o (b + 1), bad)))

/-- A request's work is done; its status is due. -/
def State.nmgDone (s : State) (u : Fin 16) (x : NmgRun) : State :=
  let s := if 0 < x.miss then (s.modUnit u fun y => { y with missc := satAdd 0xFFFF y.missc 1 }).nmgPost u 0x2202 else s
  s.modUnit u fun y => { y with run := y.run ++ [x] }

/-- LOOKUP of a granted request. -/
def State.nmgLookup (s : State) (u : Fin 16) (r : NmgReq) : State :=
  let ep := s.nmg.ep
  let bs := s.bagsOf u r
  let n0 : NmgCnt := ⟨0, 0, false, false, false, false⟩
  let t : State × NmgCnt := match bs.2 with
    | none =>
      (List.range (rqNbag r.req)).foldl (fun t b => t.1.bagOut u r t.2 b 0 0) (bs.1.nmgPost u 0x2211, { n0 with err := true })
    | some l => l.zipIdx.foldl (fun t b => t.1.bagOut u r { t.2 with badbag := t.2.badbag || b.1.2.2 } b.2 b.1.1 b.1.2.1) (bs.1, n0)
  let n := t.2
  t.1.nmgDone u ⟨r, n.found, n.miss, 2 * ofBool n.empty + 4 * ofBool n.nan + 8 * ofBool n.err + 16 * ofBool n.badbag, some ep⟩

def execLookup (u : Fin 16) (s : State) : Answer := .next (s.nmgStep u 0 fun r t => t.nmgLookup u r)

/-! ### Changes (R293 to R295) -/

/-- The end of a change: FOUND, an absent row counted in MISS, ERR, HELD. -/
def State.changeDone (s : State) (u : Fin 16) (r : NmgReq) (found err held : Bool) : State :=
  s.nmgDone u ⟨r, ofBool found, ofBool (!found), 8 * ofBool err + 32 * ofBool held, none⟩

/-- UPD: the record at SRC over the row's current location. -/
def State.nmgUpd (s : State) (u : Fin 16) (held : Bool) (r : NmgReq) : State :=
  match s.rowPtr u r (rqIds r.req) with
  | (t, .absent) => t.changeDone u r false false held
  | (t, .failed) => (t.nmgPost u 0x2211).changeDone u r false true held
  | (t, .ok (_, p)) =>
    match t.ddrRead (.part (nmgIni u) r.part) (rqBofs r.req) (tbRstr r.tab) with
    | (t, none) => (t.nmgPost u 0x2211).changeDone u r true true held
    | (t, some b) => (t.placeWrite u r (ptrHot p) (ptrAddr p) b).changeDone u r true false held

/-- NPTR. -/
def nptr (r : NmgReq) : Word := BitVec.ofNat 64 (rqBofs r.req)

/-- FLIP: the pointer of a row that is present becomes NPTR. -/
def State.nmgFlip (s : State) (u : Fin 16) (held : Bool) (r : NmgReq) : State :=
  match s.rowPtr u r (rqIds r.req) with
  | (t, .absent) => t.changeDone u r false false held
  | (t, .failed) => (t.nmgPost u 0x2211).changeDone u r false true held
  | (t, .ok (a, _)) => (t.placeWrite u r (tbIhot r.tab) a (leBytes 8 (nptr r).toNat)).changeDone u r true false held

/-- A migration's copy lands and the pointer flips. -/
def State.migrLand (s : State) (u : Fin 16) (held : Bool) (r : NmgReq) (data : List Byte) : State :=
  (s.placeWrite u r (ptrHot (nptr r)) (ptrAddr (nptr r)) data).nmgFlip u held r

/-- A held change, applied after the flip. -/
def State.applyHeld (s : State) (u : Fin 16) (r : NmgReq) : State :=
  match rqKind r.req with
  | 1 => s.nmgUpd u true r
  | 3 => s.nmgFlip u true r
  | _ =>
    match s.rowRead u r (rqIds r.req) with
    | (t, .ok b) => t.migrLand u true r b
    | (t, .absent) => t.changeDone u r false false true
    | (t, .failed) => (t.nmgPost u 0x2211).changeDone u r false true true

/-- A change to a row under migration is held; the 64th fills the queue (R295). -/
def State.orHold (s : State) (u : Fin 16) (r : NmgReq) (work : State → State) : State :=
  if s.nmg.units[u].migrates r then
    let s := s.modUnit u fun x => { x with held := x.held ++ [r] }
    if s.nmg.units[u].held.length = 64 then s.postFull 0x2203 (nmgIni u) none (isSafety (tbWpart r.tab)) else s
  else work s

def execUpd (u : Fin 16) (s : State) : Answer := .next (s.nmgStep u 1 fun r t => t.orHold u r fun t => t.nmgUpd u false r)
def execFlip (u : Fin 16) (s : State) : Answer := .next (s.nmgStep u 3 fun r t => t.orHold u r fun t => t.nmgFlip u false r)

/-- A migration starts: the current record is copied. Migrations of several rows go on side by side. -/
def State.migrStart (s : State) (u : Fin 16) (r : NmgReq) : State :=
  match s.rowRead u r (rqIds r.req) with
  | (t, .ok b) => t.modUnit u fun x => { x with migr := x.migr ++ [⟨r, b⟩] }
  | (t, .absent) => t.changeDone u r false false false
  | (t, .failed) => (t.nmgPost u 0x2211).changeDone u r false true false

/-- Migration `m` of unit u goes: `land` says what becomes of the row, and then the changes held for it are applied in
arrival order. -/
def State.migrGo (s : State) (u : Fin 16) (m : NmgMigr) (land : State → State) : State :=
  let mine (r : NmgReq) : Bool := decide (rqIds m.r.req = rqIds r.req) && decide (rqTid m.r.req = rqTid r.req)
  let held := s.nmg.units[u].held.filter mine
  let s := s.modUnit u fun x => { x with migr := x.migr.filter fun y => !mine y.r, held := x.held.filter fun r => !mine r }
  held.foldl (fun t r => t.applyHeld u r) (land s)

/-- The migration ends: the copy lands and the pointer flips. -/
def State.migrEnd (s : State) (u : Fin 16) (m : NmgMigr) : State := s.migrGo u m fun t => t.migrLand u false m.r m.data

/-- MIGR: the migration granted starts, or is held; with none granted, the oldest under way ends. -/
def execMigr (u : Fin 16) (s : State) : Answer :=
  .next (if (s.granted u).any fun g => decide (rqKind g.2.req = 2) then
      s.nmgStep u 2 fun r t => t.orHold u r fun t => t.migrStart u r
    else match s.nmg.units[u].migr with
      | m :: _ => s.migrEnd u m
      | [] => s)

/-! ### Epochs (R296) -/

/-- RETIRE: EP toggles, and the old epoch's lookups are waited for. -/
def State.nmgRetire (s : State) (u : Fin 16) (r : NmgReq) : State :=
  s.modNmg fun n => { n with ep := !n.ep, retire := some (u, r, n.ep) }

def execRetire (u : Fin 16) (s : State) : Answer := .next (s.nmgStep u 4 fun r t => t.nmgRetire u r)

/-- LOOKUP requests of an epoch in progress on a unit. -/
def NmgUnit.inEpoch (x : NmgUnit) (e : Bool) : Nat := (x.run.filter fun y => decide (y.epoch = some e)).length

/-! ### Status and signal (R291, R293, R296) -/

/-- The status block. -/
def NmgRun.status (x : NmgRun) : List Byte :=
  leBytes 4 (rqSeq x.r.req).toNat ++ leBytes 4 x.found ++ leBytes 4 x.miss ++ leBytes 4 (x.flags + ofBool (decide (0 < x.miss)))

/-- A request writes its status and then signals. -/
def State.nmgFinish (s : State) (u : Fin 16) (x : NmgRun) : State :=
  let r := x.r.req
  let s := s.windowWrites (rqCore r) (nmgIni u) (rqDest r) x.status
  if rqSync r / 2 ^ 15 % 2 = 1 then s.remoteSignal (rqCore r) (nmgIni u) (rqSync r % 2 ^ 9) 1 else s

/-- The oldest request whose work is done. -/
def execNmgRequestComplete (u : Fin 16) (s : State) : Answer :=
  .next (match s.nmg.units[u].run with
    | [] => s
    | x :: rest => (s.nmgFinish u x).modUnit u fun y => { y with run := rest })

/-- Every unit's count for the old epoch is 0: the RETIRE is complete. -/
def State.retireEnd (s : State) : State :=
  match s.nmg.retire with
  | none => s
  | some (u, r, old) =>
    if s.nmg.units.toList.all fun x => decide (x.inEpoch old = 0) then
      (s.nmgFinish u ⟨r, 0, 0, 0, none⟩).modNmg fun n => { n with retire := none }
    else s

def execRetireEpochDrain (s : State) : Answer := .next s.retireEnd

/-! ### Faults and resets (R300, R302) -/

/-- A request ends with ERR: its status is due with nothing found. -/
def State.endErr (s : State) (u : Fin 16) (r : NmgReq) (held : Bool) : State :=
  s.modUnit u fun x => { x with run := x.run ++ [⟨r, 0, 0, 8 + 32 * ofBool held, none⟩] }

/-- The request that a residue or parity error hits ends with ERR, wherever it stands (R300). -/
def State.endHit (s : State) (u : Fin 16) (h : NmgHit) : State :=
  let x := s.nmg.units[u]
  match h with
  | .running i => s.modUnit u fun x => { x with run := x.run.modify i.val fun y => { y with flags := y.flags ||| 8 } }
  | .queued p i => (match x.queues[p][i.val]? with
    | some r => (s.modUnit u fun x => { x with queues := x.queues.set p (x.queues[p].eraseIdx i.val) }).endErr u r false
    | none => s)
  | .held i => (match x.held[i.val]? with
    | some r => (s.modUnit u fun x => { x with held := x.held.eraseIdx i.val }).endErr u r true
    | none => s)
  | .migrating i => (match x.migr[i.val]? with
    | some m => s.migrGo u m fun t => t.endErr u m.r false
    | none => s)
  | .retire => (match s.nmg.retire with
    | some (v, r, _) => if v = u then (s.modNmg fun n => { n with retire := none }).endErr u r false else s
    | none => s)
  | .nothing => s

/-- A unit's fault. -/
def State.nmgFault (s : State) (u : Fin 16) (f : NmgFault) : State :=
  match f with
  | .corrected => (s.modUnit u fun x => { x with cecc := satAdd 0xFFFF x.cecc 1 }).nmgPost u 0x2210
  | .uncorrectable a =>
    s.modNmg fun n => { n with bad := n.bad.set (nmgDie u) (SMap.set false n.bad[nmgDie u] (a.val / 8) true) }
  | .logic h => ((s.endHit u h).modUnit u fun x => { x with reserr := satAdd 0xFFFF x.reserr 1 }).nmgPost u 0x2212

def execNmgError (u : Fin 16) (f : NmgFault) (s : State) : Answer := .next (s.nmgFault u f)

/-- A partition's reset: its queues empty, its requests end without status and release their epochs. -/
def State.nmgReset (s : State) (p : Fin 4) : State :=
  s.modNmg fun n => { n with
    units := n.units.map fun x => { x with
      queues := x.queues.set p []
      run := x.run.filter fun y => decide (y.r.part ≠ p)
      migr := x.migr.filter fun m => decide (m.r.part ≠ p)
      held := x.held.filter fun r => decide (r.part ≠ p) }
    retire := match n.retire with | some x => if x.2.1.part = p then none else some x | none => none }

/-! ### Registers as they read -/

def NmgState.epochWord (n : NmgState) : Word := pack [(1, 1, ofBool n.retire.isSome), (0, 1, ofBool n.ep)]
def NmgUnit.low (x : NmgUnit) : Word := pack [(48, 16, x.refc), (32, 16, x.missc), (16, 16, x.reserr), (0, 16, x.cecc)]
def NmgUnit.high (x : NmgUnit) : Word :=
  pack ([(32, 32, x.lref.toNat), (24, 8, x.held.length)] ++ (List.finRange 4).map fun p => (5 * p.val, 5, (x.queues[p]).length))

end Sys2Proof.Machine
end

