-- ==== Sys2Proof/Machine/FltOps.lean ====
section
/-! DEFINITION. Partition restarts and the repair map, shared by the FLT block, Gauntlet and the module's restarts
(R18 to R21, R425, R426, R433). -/

namespace Sys2Proof.Machine

/-- The FLT block changed. -/
def State.modFlt (s : State) (f : FltState → FltState) : State := { s with flt := f s.flt }

/-- FLT block's event. -/
def State.fltPost (s : State) (code : Nat) : State := s.postPart code 0xC5 none

/-- The logical cores that partition `p` holds in force. -/
def State.coresOf (s : State) (p : Fin 4) : List CoreId := (List.finRange 32).filter fun c => s.partOf c = p

/-! ### The repair map (R18, R19, R21) -/

/-- Compute die of a physical core. -/
def physDie (q : Nat) : Nat := q / 9

/-- The lowest physical core of die `d` that has not failed and serves no logical core. -/
def FltState.spare (f : FltState) (d : Nat) : Option Nat :=
  ((List.range 9).map (9 * d + ·)).find? fun q => !f.failed.contains q && !f.bind.toList.contains (some q)

/-- A repair record for a core, both of its copies good, with no number yet. -/
def coreRecord (q : Nat) : RepairRec := ⟨1, 0, 0, BitVec.ofNat 64 q, true, true⟩

/-- Physical core `q` is known to have failed; its record waits for Crown. -/
def FltState.failCore (f : FltState) (q : Nat) : FltState :=
  if f.failed.contains q then f else { f with failed := q :: f.failed, repairQ := f.repairQ ++ [coreRecord q] }

/-- Logical core `c` has no physical core: UNBOUND, CRN_COREAV and event 0x9005 (R21). -/
def State.unbindCore (s : State) (c : CoreId) (src : Ini) : State :=
  { s with
    flt := { s.flt with bind := s.flt.bind.set c none, unbound := setBit s.flt.unbound c.val true }
    crn := { s.crn with coreAv := setBit s.crn.coreAv c.val false } }.postPart 0x9005 src none

/-- A failed logical core takes its die's spare, or stays unbound. -/
def State.rebind (s : State) (src : Ini) (c : CoreId) : State :=
  match s.flt.spare (c.val / 8) with
  | some q => s.modFlt fun f => { f with bind := f.bind.set c (some q) }
  | none => s.unbindCore c src

/-- Whether the physical core behind `c` has failed. -/
def FltState.lost' (f : FltState) (c : CoreId) : Bool :=
  match f.bind[c] with | some q => f.failed.contains q | none => false

/-- Failed cores of a die in the order in which they take spares: P0 and P1 first, then by logical number (R21). -/
def State.rebindOrder (s : State) (cs : List CoreId) : List CoreId :=
  let failed := cs.filter s.flt.lost'
  failed.filter (fun c => isSafety (s.partOf c)) ++ failed.filter fun c => !isSafety (s.partOf c)

/-- Every failed core among `cs` is bound anew. -/
def State.rebindAll (s : State) (cs : List CoreId) (src : Ini) : State := (s.rebindOrder cs).foldl (fun t c => t.rebind src c) s

/-! ### Scratchpad row groups (R433) -/

/-- The location of a row group: physical core, bank and row group. -/
def rowLoc (q bank row : Nat) : Nat := (q * 16 + bank) * 32 + row

/-- Valid records of a type. -/
def FltState.records (f : FltState) (t : Byte) : List RepairRec := f.table.filter fun r => decide (r.type = t) && (r.ok1 || r.ok2)

/-- Row groups that records of type 2 name, valid ones and those that wait for Crown (R426, R432), each once. -/
def FltState.rowGroups (f : FltState) : List Nat :=
  ((f.records 2 ++ f.repairQ.filter fun r => decide (r.type = 2)).map fun r => r.loc.toNat).eraseDups

/-- Whether the table already holds a record for a location. -/
def FltState.known (f : FltState) (t : Byte) (loc : Word) : Bool :=
  (f.table ++ f.repairQ).any fun r => decide (r.type = t) && decide (r.loc = loc)

/-- A record is due, unless one for the location exists. -/
def State.queueRepair (s : State) (t : Byte) (loc : Word) : State :=
  if s.flt.known t loc then s else s.modFlt fun f => { f with repairQ := f.repairQ ++ [⟨t, 0, 0, loc, true, true⟩] }

/-- Row groups that failed test 0x05 are due records of type 2 (R431). -/
def State.failRows (s : State) (rows : List RowFail) : State :=
  rows.foldl (fun t r => match t.flt.bind[r.1] with
    | some q => t.queueRepair 2 (BitVec.ofNat 64 (rowLoc q r.2.1.val r.2.2.val))
    | none => t) s

/-- Whether a bank of physical core `q` needs a third spare. -/
def FltState.rowsFail (f : FltState) (q : Nat) : Bool :=
  (List.range 16).any fun b => decide (2 < (f.rowGroups.filter fun r => r / 32 = q * 16 + b).length)

/-- The spare row groups of the physical cores in `qs` are applied; a core with a failed bank is a failed core. -/
def FltState.applyRows (f : FltState) (qs : List Nat) : FltState :=
  let f := { f with rowMap := f.rowMap.filter (fun r => !qs.contains (r / 512)) ++ f.rowGroups.filter fun r => qs.contains (r / 512) }
  (qs.filter f.rowsFail).foldl FltState.failCore f

/-- Physical cores behind the logical cores in `cs`. -/
def FltState.physOf (f : FltState) (cs : List CoreId) : List Nat := cs.filterMap fun c => f.bind[c]

/-! ### Partition restarts (R425 step 4, R426) -/

/-- A core held in reset: every register at its reset value, IMEM cleared, the launch slots as they were (R105,
R426). -/
def CoreSt.heldReset (k : CoreSt) : CoreSt := { CoreSt.reset with spd := { SpdState.reset with slots := k.spd.slots } }

/-- What a reset of partition `p` does outside its cores: DMA channels, gather queues, collectives, the spill
segment's holder and the ring. -/
def State.partReset (s : State) (p : Fin 4) : State :=
  let s := (s.nmgReset p).coAbortAll (fun q => decide (q = p)) 0
  { s with
    grd := { s.grd with holder := s.grd.holder.set p 0 }
    ing := { s.ing with ring := s.ing.ring.set p { s.ing.ring[p] with suspended := true } } }

/-- A core of a restarting partition: its slots end, then it is held in reset with its DMA engine. -/
def State.holdCore (s : State) (c : CoreId) : State :=
  let s := s.endHeldCore c
  { (s.modCore c CoreSt.heldReset) with dma := { s.dma with cores := s.dma.cores.set c (Vector.replicate 8 DmaChan.reset) } }

/-- The first step of a restart of partition `p`, and event 0x6080 + p. -/
def State.startRestart (s : State) (p : Fin 4) : State :=
  let s := (s.coresOf p).foldl State.holdCore s
  let s := s.partReset p
  (s.modFlt fun f => { f with
    part := f.part.set p .restarting
    rcnt := satAdd 0xFFFFFFFF f.rcnt 1 }).fltPost (0x6080 + p.val)

/-- Partition `p` stays held: event 0x6088 + p (R426). -/
def State.holdPart (s : State) (p : Fin 4) : State :=
  (s.modFlt fun f => { f with part := f.part.set p .held }).fltPost (0x6088 + p.val)

/-- A core of a released partition: its slots take their reset values, EMPTY among them, and its fence ends (R105,
R422). -/
def State.releaseCore (s : State) (c : CoreId) : State :=
  (s.modSpd c fun q => { q with slots := SpdState.reset.slots }).modFlt fun f =>
    { f with fenced := setBit f.fenced c.val false }

/-- Partition `p` accepts launches: event 0x6084 + p, and its events take MSI-X routes again (R425 item 1, R426). -/
def State.releasePart (s : State) (p : Fin 4) : State :=
  let s := (s.coresOf p).foldl State.releaseCore s
  let s := { s with evt := { s.evt with fenced := setBit s.evt.fenced p.val false } }
  (s.modFlt fun f => { f with part := f.part.set p .running }).fltPost (0x6084 + p.val)

end Sys2Proof.Machine
end

