-- ==== Sys2Proof/Machine/Gauntlet.lean ====
section
/-! DEFINITION. Gauntlet (chapter 17): notices, comparison, verdicts, age monitors, the safe state, arming and the fault
outputs. Golden patterns and path fences stand in Machine/Golden.lean. -/

namespace Sys2Proof.Machine

/-! ### Parts of the block -/

def State.modGnt (s : State) (f : GntState → GntState) : State := { s with gnt := f s.gnt }

def State.modStrm (s : State) (i : Fin 64) (f : Stream → Stream) : State :=
  s.modGnt fun g => { g with strm := g.strm.set i (f g.strm[i]) }

/-- Gauntlet's event. -/
def State.gntPost (s : State) (code : Nat) : State := s.postPart code 0x71 none

def Stream.en (t : Stream) : Bool := bit t.w0 63
def Stream.crit (t : Stream) : Bool := bit t.w0 62
def Stream.dom (t : Stream) : Fin 2 := Fin.ofNat 2 (fld t.w0 61 1)
def Stream.fmt (t : Stream) : Nat := fld t.w0 58 3
/-- MAXAGE in ns. -/
def Stream.maxAge (t : Stream) : Nat := 1000 * fld t.w0 0 32
def Stream.relTol (t : Stream) : Nat := fld t.w1 32 32
def Stream.absTol (t : Stream) : Nat := fld t.w1 0 32
def Stream.maxBad (t : Stream) : Nat := fld t.w2 0 32

/-- Bytes of an element of a format. -/
def gntWidth (fmt : Nat) : Nat := if fmt = 0 ∨ fmt = 3 then 4 else if fmt = 5 then 1 else 2

/-- The present time of a stream's domain. -/
def State.strmNow (s : State) (i : Fin 64) : Word := s.domTime s.gnt.strm[i].dom

/-- The surviving path in mode SINGLE. -/
def GntState.survivor (g : GntState) : Option (Fin 2) :=
  if g.mode = .single then some (if bit g.fence 0 then 1 else 0) else none

/-! ### The safe state (R413) -/

/-- A warm restart of the module is due; a cold one already asked for stays. -/
def State.askWarm (s : State) : State :=
  s.modFlt fun f => { f with mrst := if f.mrst = .cold then .cold else .warm }

/-- Gauntlet enters the safe state, in whatever other mode it is: fault outputs low, no more verdicts, event 0x6040, and a
warm restart follows. -/
def State.enterSafe (s : State) (cause : Byte) : State :=
  if s.gnt.mode = .safe then s
  else
    let armed := s.armed
    let s := s.modGnt fun g => { g with
      mode := .safe, safecause := cause, faultA := false, faultB := false, wasArmed := g.wasArmed || armed }
    (s.gntPost 0x6040).askWarm

/-! ### Notices and pairs (R397, R399) -/

def nqSeq (w : BitVec 256) : BitVec 32 := BitVec.ofNat 32 (fld w 0 32)
def nqSid (w : BitVec 256) : Fin 64 := Fin.ofNat 64 (fld w 32 6)
def nqGolden (w : BitVec 256) : Bool := bit w 38
def nqBase (w : BitVec 256) : Word := BitVec.ofNat 64 (fld w 64 64)
def nqAddr (w : BitVec 256) : Nat := fld w 128 48
def nqLen (w : BitVec 256) : Nat := fld w 192 32
def nqReserved (w : BitVec 256) : Bool :=
  bit w 39 || decide (fld w 41 7 ≠ 0) || decide (fld w 48 16 ≠ 0) || decide (fld w 176 16 ≠ 0)

/-- The notice that 32 bytes spell. -/
def noticeOf (w : BitVec 256) (cnt seen : Word) (no : Nat) : Notice :=
  ⟨nqSeq w, nqSid w, nqGolden w, bit w 40, nqBase w, nqAddr w, nqLen w, BitVec.ofNat 32 (fld w 224 32), cnt, seen, no⟩

/-- Partition of a path. -/
def pathPart (p : Fin 2) : Fin 4 := Fin.ofNat 4 p.val

/-- Whether an initiator is a per-core DMA engine of path `p`. -/
def State.pathDma (s : State) (p : Fin 2) (ini : Ini) : Bool :=
  decide (0x20 ≤ ini.toNat) && decide (s.srcPart ini = some (pathPart p))

/-- Whether a path may give notices: both in ARMED; in SINGLE the surviving one, and for golden scans a restarted one
that waits to be readmitted (R397, R412, R425 item 5). -/
def GntState.takes (g : GntState) (p : Fin 2) (golden : Bool) : Bool :=
  decide (g.mode = .armed) ||
    (decide (g.mode = .single) && (decide (g.survivor = some p) || (golden && bit g.readmit p.val)))

/-- The refusals of R397. -/
def State.noticeBad (s : State) (p : Fin 2) (ini : Ini) (w : BitVec 256) : Bool :=
  let t := s.gnt.strm[nqSid w]
  !s.pathDma p ini || !t.en || nqReserved w || decide (nqLen w % gntWidth t.fmt ≠ 0) || decide (524288 < nqLen w) ||
    !s.ddr.admitsAll (.part 0x71 (pathPart p)) false (nqAddr w) (nqLen w) || !s.gnt.takes p (nqGolden w)

/-- A notice counted in NREF, with its event. -/
def State.noticeRefuse (s : State) (code : Nat) : State :=
  (s.modGnt fun g => { g with nref := satAdd 0xFFFF g.nref 1 }).gntPost code

/-- A path's notice of a pair. -/
def Pair.notice (r : Pair) (p : Fin 2) : Option Notice := if p = 0 then r.n0 else r.n1

def Pair.setNotice (r : Pair) (p : Fin 2) (n : Notice) : Pair := if p = 0 then { r with n0 := some n } else { r with n1 := some n }

/-- The pair of a scan. -/
def Stream.pair (t : Stream) (seq : BitVec 32) (golden : Bool) : Option Pair :=
  t.pairs.find? fun r => decide (r.scanseq = seq) && decide (r.golden = golden)

def Stream.setPair (t : Stream) (r : Pair) : Stream :=
  { t with pairs := t.pairs.map fun q => if q.scanseq = r.scanseq ∧ q.golden = r.golden then r else q }

def Stream.dropPair (t : Stream) (seq : BitVec 32) (golden : Bool) : Stream :=
  { t with pairs := t.pairs.filter fun q => !(decide (q.scanseq = seq) && decide (q.golden = golden)) }

/-- Whether a pair holds an unpaired notice of path `p`. -/
def Pair.lone (r : Pair) (p : Fin 2) : Bool := !r.dropped && (r.notice p).isSome && (r.notice (1 - p)).isNone

/-- A pair whose only notice is discarded: its scan is MISSING, and a golden run lacks the notice (R399, R407). -/
def Pair.discard (r : Pair) : Pair := if r.golden then { r with n0 := none, n1 := none, dropped := true } else { r with dropped := true }

/-- With 17 unpaired notices of a path, golden ones among them, the oldest is discarded (R399). -/
def Stream.discard (t : Stream) (p : Fin 2) : Stream :=
  if (t.pairs.filter fun r => r.lone p).length ≤ 16 then t
  else match t.pairs.find? fun r => r.lone p with
    | some r => t.setPair r.discard
    | none => t

/-- Whether a golden scan awaits notices. -/
def GntState.goldenOpen (g : GntState) (seq : BitVec 32) : Bool := g.runs.any fun r => decide (r.stag.setWidth 32 = seq)

/-- A scan's notice meets its pair, or opens one. A complete pair, or in SINGLE the surviving notice, is due for
comparison. -/
def State.noticePair (s : State) (p : Fin 2) (n : Notice) : State :=
  let t := s.gnt.strm[n.sid]
  let known := t.pair n.scanseq n.golden
  let past := if n.golden then !s.gnt.goldenOpen n.scanseq else t.judged.contains n.scanseq
  let twice := match known with | some r => (r.notice p).isSome || (r.dropped && !r.golden) | none => false
  if past || twice then s.noticeRefuse 0x6002
  else
    let r := (known.getD ⟨n.scanseq, n.golden, none, none, none, false⟩).setNotice p n
    let t := if known.isSome then t.setPair r else { t with pairs := t.pairs ++ [r] }
    let ready := !n.golden && (decide (s.gnt.mode = .single) || (r.n0.isSome && r.n1.isSome))
    s.modGnt fun g => { g with
      notices := g.notices + 1
      strm := g.strm.set n.sid (if decide (g.mode = .armed) then t.discard p else t)
      cmpq := if ready then g.cmpq ++ [(n.sid, n.scanseq)] else g.cmpq }

/-- Bytes written to GNT_NQ[p]; covering bytes 0x1C to 0x1F delivers the notice (R397, R540). -/
def State.noticeWrite (s : State) (p : Fin 2) (ini : Ini) (off : Nat) (data : List Byte) : State :=
  let w := if s.pathDma p ini then stage32 s.gnt.nqStage[p] off data else s.gnt.nqStage[p]
  let s := s.modGnt fun g => { g with nqStage := g.nqStage.set p w }
  if !covers off data.length 0x1C 0x1F then s
  else if s.noticeBad p ini w then s.noticeRefuse 0x6001
  else s.noticePair p (noticeOf w s.tb.cnt (s.strmNow (nqSid w)) s.gnt.notices)

def execGntNotice (p : Fin 2) (ini : Initiator) (off : Nat) (data : List Byte) (s : State) : Answer :=
  inRange s (bytesIn off data 32) (s.noticeWrite p ini off data)

/-! ### Comparison (R400, R403) -/

/-- A value of a floating stream format. -/
def gntValue (fmt v : Nat) : FV := (if fmt = 0 then fp32 else if fmt = 1 then bf16 else fp16).decode v

/-- Whether two elements of a floating format are out of tolerance: a NaN, or R400's test as FP64 evaluates it. With an
infinity the test's bound is an infinity or a NaN, which nothing exceeds (DEDUCED, log entry 193). -/
def floatBad (rel abs : FV) (a b : FV) : Bool :=
  match a, b with
  | .nan, _ => true
  | _, .nan => true
  | a, b =>
    let m := if a.abs.lt b.abs then b.abs else a.abs
    (fp64.add abs (fp64.mul rel m)).lt (fp64.sub a b).abs

/-- Whether two elements are out of tolerance. -/
def Stream.elemBad (t : Stream) (a b : Nat) : Bool :=
  if t.fmt < 3 then floatBad (fp32.decode t.relTol) (fp32.decode t.absTol) (gntValue t.fmt a) (gntValue t.fmt b)
  else
    let w := 8 * gntWidth t.fmt
    decide (t.absTol < (toSigned w a - toSigned w b).natAbs)

/-- NBAD of two tensors; `none` is one that could not be read. -/
def Stream.nbad (t : Stream) (la lb : Nat) (a b : Option (List Byte)) : Nat :=
  let w := gntWidth t.fmt
  if la ≠ lb then max la lb / w
  else match a, b with
    | some x, some y => ((List.range (la / w)).filter fun i => t.elemBad (elemAt w i x) (elemAt w i y)).length
    | _, _ => la / w

/-- Gauntlet reads a notice's tensor through channel 15 of its path's memory die (R318, R400), unless a fence has disabled the
channel (R411). -/
def State.gntRead (s : State) (p : Fin 2) (n : Notice) : State × Option (List Byte) :=
  if bit s.gnt.cut15 p.val then (s, none) else
  let g := s.dma.drgn[p][(1 : Fin 2)]
  let ini : Ini := BitVec.ofNat 8 (0x40 + p.val)
  match s.ddrRead (.priv ini g.base (g.limit + 1 - g.base)) n.addr n.len with
  | (s, none) => (s.postPart 0x2300 ini none, none)
  | r => r

/-- The pair at the head of the comparison queue is compared. -/
def State.gntCompare (s : State) : State :=
  match s.gnt.cmpq with
  | [] => s
  | (i, seq) :: rest =>
    let s := s.modGnt fun g => { g with cmpq := rest }
    let t := s.gnt.strm[i]
    match t.pair seq false with
    | none => s
    | some r =>
      let put (s : State) (n : Nat) (c : BitVec 32) : State := s.modStrm i fun t => t.setPair { r with result := some (n, c) }
      match s.gnt.mode, r.n0, r.n1 with
      | .armed, some a, some b =>
        let x := s.gntRead 0 a
        let y := x.1.gntRead 1 b
        put y.1 (t.nbad a.len b.len x.2 y.2) (crc32 (x.2.getD []))
      | .single, _, _ =>
        let p : Fin 2 := s.gnt.survivor.getD 0
        (match r.notice p with
          | some a =>
            let x := s.gntRead p a
            put x.1 (if x.2.isSome then 0 else a.len / gntWidth t.fmt) (crc32 (x.2.getD []))
          | none => s)
      | _, _, _ => s

def execGntCompare (s : State) : Answer := .next s.gntCompare

/-! ### Verdicts (R401, R402, R408 to R410) -/

def gpEn (w : BitVec 256) : Bool := bit w 63
/-- Patterns with GEN = 1, as a mask. -/
def GntState.patterns (g : GntState) : BitVec 4 :=
  (List.finRange 4).foldl (fun m i => setBit m i.val (gpEn g.gpat[i])) 0

/-- Distance from scan `b` up to scan `a`. -/
def seqDist (a b : BitVec 32) : Nat := (a - b).toNat

/-- Whether a history calls for the safe state (R410). -/
def escalates (h : List (BitVec 32)) : Bool :=
  h.any fun n => h.contains (n - 1) || decide (4 ≤ (h.filter fun x => seqDist n x ≤ 255).length)

/-- A disagreeing scan (R408 to R410). -/
def State.disagree (s : State) (n : BitVec 32) : State :=
  let s := s.modGnt fun g => { g with
    forced := g.forced ||| g.patterns
    disc := if g.history.contains n then g.disc else satAdd 0xFFFF g.disc 1
    history := n :: g.history.filter fun x => decide (x ≠ n) && (decide (seqDist n x ≤ 255) || decide (seqDist x n ≤ 255)) }
  if escalates s.gnt.history then s.enterSafe 0x01 else s

/-- Whether a STEP of a domain was applied after the moment it showed BASE of a scan with notices `ns`. It was when BASE lies
before the time that the newest STEP set. Otherwise a STEP that left a time not before BASE counts when a notice had come by
then, when the domain had not come back to BASE as a notice came, and, BASE being in doubt, for `age` ns of the counter
(DEDUCED, log entry 194). -/
def TbDom.steppedAfter (d : TbDom) (cnt : Word) (ns : List Notice) (base : Word) (age : Nat) : Bool :=
  (match d.stepLog with
    | (_, _, new) :: _ => decide (base.toNat < new.toNat)
    | [] => false) ||
    d.stepLog.any fun e => decide (base.toNat ≤ e.2.1.toNat) &&
      ((ns.any fun n => decide (n.at'.toNat ≤ e.1.toNat) || decide (n.seen.toNat < base.toNat)) || decide (2 * (cnt - e.1).toNat ≤ age))

/-- The notices of a pair. -/
def Pair.notices (r : Pair) : List Notice := r.n0.toList ++ r.n1.toList

/-- The notice that a pair's verdict is about: the surviving path's in SINGLE, else the primary's; or the only one. -/
def GntState.mainNotice (g : GntState) (r : Pair) : Option Notice :=
  let p : Fin 2 := g.survivor.getD 0
  if (r.notice p).isSome then r.notice p else r.notice (1 - p)

/-- VERD of a pair, when its verdict is due: the first row of R401's table that applies. A lone notice is not due before it is
too old, and then LATE, the earlier row, applies (DEDUCED, log entry 195). -/
def State.verdOf (s : State) (i : Fin 64) (r : Pair) : Option Nat :=
  let t := s.gnt.strm[i]
  match s.gnt.mainNotice r with
  | none => none
  | some n =>
    let late := decide ((t.maxAge : Int) < (s.strmNow i - n.base).toInt)
    let gone := r.dropped || (match s.gnt.survivor with | some p => (r.notice p).isNone | none => false)
    if r.golden || !s.armed then none
    else if s.tb.dom[t.dom].steppedAfter s.tb.cnt r.notices n.base t.maxAge then some 5
    else if late then some 4
    else if gone then some 3
    else match r.result with
      | some (bad, _) => if t.maxBad < bad then some 2 else some (if s.gnt.mode = .single then 1 else 0)
      | none => none

/-- The bytes of a verdict record (R402). -/
def verdictRec (n : Notice) (verd : Nat) (deg deliv : Bool) (bad : Nat) (vtime : Word) (crc : BitVec 32) : VerdictRec :=
  recStore 0 0 (leBytes 4 n.scanseq.toNat ++ leBytes 1 (n.sid.val + 64 * ofBool n.golden) ++
    leBytes 1 (verd + 8 * ofBool deg + 16 * ofBool deliv) ++ leBytes 2 (min bad 0xFFFF) ++ leBytes 8 n.base.toNat ++
    leBytes 8 vtime.toNat ++ leBytes 8 (if deliv then n.addr else 0) ++ leBytes 4 (if deliv then n.len else 0) ++
    leBytes 4 (if deliv then crc.toNat else 0))

/-- A record joins the stream's ring. -/
def Stream.append (t : Stream) (v : VerdictRec) : Stream :=
  { t with ring := SMap.set 0 t.ring (t.vwidx.toNat % 256) v, vwidx := t.vwidx + 1 }

/-- DEGRADED of a pair. -/
def Pair.degraded (r : Pair) : Bool := r.notices.any fun n => n.degraded

/-- A verdict is written, its event posted, and a disagreeing scan reacted to (R402, R404, R409). -/
def State.giveVerdict (s : State) (i : Fin 64) (r : Pair) (verd : Nat) (n : Notice) : State :=
  let deliv := decide (verd < 2)
  let res := r.result.getD (0, 0)
  let v := verdictRec n verd r.degraded deliv res.1 (s.strmNow i) res.2
  let s := s.modStrm i fun t =>
    let t := { (t.append v).dropPair r.scanseq false with judged := r.scanseq :: t.judged }
    if deliv then { t with ref := n.base, stale := false } else t
  let s := if deliv then (if s.gnt.ven then s.gntPost 0x6008 else s) else s.gntPost (0x6010 + verd - 2)
  if verd = 2 ∨ verd = 3 then s.disagree r.scanseq else s

/-- The oldest pair of a stream whose verdict is due gets it. -/
def State.judge (s : State) (i : Fin 64) : State :=
  match s.gnt.strm[i].pairs.find? fun r => (s.verdOf i r).isSome with
  | none => s
  | some r => match s.verdOf i r, s.gnt.mainNotice r with
    | some v, some n => s.giveVerdict i r v n
    | _, _ => s

def execGntVerdict (i : Fin 64) (s : State) : Answer := .next (s.judge i)

/-! ### Age monitors (R404) -/

/-- The age of one stream is looked at. -/
def State.ageOne (s : State) (i : Fin 64) : State :=
  let t := s.gnt.strm[i]
  if !t.en || !s.armed then s
  else
    let now := s.strmNow i
    let old := decide ((t.maxAge : Int) < (now - t.ref).toInt)
    let s := if old && !t.stale then (s.modStrm i fun t => { t with stale := true, staleAt := now }).gntPost 0x6014 else s
    if t.stale && t.crit && decide (2 * (t.maxAge : Int) ≤ (now - t.staleAt).toInt) then s.enterSafe 0x03 else s

def execAgeCheck (s : State) : Answer := .next ((List.finRange 64).foldl State.ageOne s)

/-! ### Arming (R395, R405, R418) -/

/-- The single compute die that holds all of `cs`, when there is one. -/
def oneDie (cs : List CoreId) : Option Nat :=
  match cs with
  | [] => none
  | c :: _ => if cs.all fun d => d.val / 8 = c.val / 8 then some (c.val / 8) else none

/-- Cores of the safety paths (R395). -/
def State.coresSafe (s : State) : Bool :=
  let a := s.coresOf 0
  let b := s.coresOf 1
  between 1 a.length 8 && decide (a.length = b.length) &&
    (decide (oneDie a = some 0) || decide (oneDie a = some 1)) && (decide (oneDie b = some 2) || decide (oneDie b = some 3))

/-- Enabled regions that name path `p`. -/
def DdrState.pathRegions (d : DdrState) (p : Fin 2) : List Word :=
  d.rgn.toList.filter fun w => rgnEn w && (rgnRdm w ||| rgnWrm w).testBit p.val

/-- Regions and minimum bandwidth of the paths (R395). -/
def DdrState.pathsSafe (d : DdrState) : Bool :=
  ((List.finRange 2).all fun p => (d.pathRegions p).all fun w => !rgnSafetyBad w && !rgnHostBad w) &&
    decide (8 ≤ bwMin d.bw[(0 : Fin 2)] 0) && decide (8 ≤ bwMin d.bw[(1 : Fin 2)] 1)

/-- Gather tables of the paths (R395). -/
def NmgState.tablesSafe (n : NmgState) : Bool :=
  n.tab.toList.all fun t => !tbEn t || (List.range 2).all fun p => !(tbLpart t).testBit p || decide ((tbWpart t).val = p)

/-- A stream with legal fields. -/
def Stream.valid (t : Stream) : Bool :=
  let pos (v : Nat) : Bool := decide (v ≤ 0x7F800000)
  decide (t.fmt ≤ 5) && between 1 (fld t.w0 0 32) 4000000 &&
    (if t.fmt < 3 then pos t.relTol && pos t.absTol else decide (t.relTol = 0) && decide (t.absTol < 2 ^ 31))

end Sys2Proof.Machine
end

