-- ==== Sys2Proof/Machine/CloCommands.lean ====
section
/-! DEFINITION. Cloche's command channels and commands (R444, R450, R454 to R456, R458). The layout of ARG is the model's
own: numbers of 4 bytes from its first byte, RSEQ and DDR addresses of 8 or 6 bytes (DESIGN CHOICE: R454 names the
arguments and gives no offsets). -/

namespace Sys2Proof.Machine

/-- A channel. -/
def CloState.chan (x : CloState) (b : Bool) : CloChan := if b then x.chB else x.chA

def CloState.setChan (x : CloState) (b : Bool) (c : CloChan) : CloState := if b then { x with chB := c } else { x with chA := c }

/-- The channel whose command is executed next: they alternate when both hold one. -/
def CloState.nextChan (x : CloState) : Option Bool :=
  if x.chA.exec && x.chB.exec then some x.tokB else if x.chA.exec then some false else if x.chB.exec then some true else none

/-- A result code with the response's data. -/
abbrev CloRes := Nat × List Byte

/-- The response of a channel: written, DONE, LASTRES and vector 0 for channel A. -/
def State.cloRespond (s : State) (b : Bool) (r : CloRes) : State :=
  let c := s.clo.chan b
  let data := r.2.take 504
  let rsp := [c.area.byte 0, BitVec.ofNat 8 r.1] ++ c.area.read 2 2 ++ leBytes 4 data.length ++ data
  let s := s.modClo fun x => { (x.setChan b { c with exec := false, done := true, rsp := rsp, mute := false }) with
    tokB := !b, lastRes := if b then x.lastRes else BitVec.ofNat 8 r.1 }
  if b || c.mute then s else s.raise true 0

/-- Opcodes allowed on channel B, and in NOFW. -/
def cloOnB (opc : Nat) : Bool := [1, 2, 3, 0xD, 0x12].contains opc
def cloInNofw (opc : Nat) : Bool := [1, 2, 0x10, 0x11].contains opc

/-- The command with opcode `opc` executes if it is the one due; `f` is its effect and result. A reserved byte that is not 0 is
BADARG (R12). -/
def State.cloExec (s : State) (opc : Nat) (f : CloChan → State → State × CloRes) : State :=
  match s.clo.nextChan with
  | none => s
  | some b =>
    let c := s.clo.chan b
    if (c.area.byte 0).toNat ≠ opc then s
    else if (b && !cloOnB opc) || (s.clo.nofw && !cloInNofw opc) then s.cloRespond b (4, [])
    else if c.area.byte 1 ≠ 0 then s.cloRespond b (3, [])
    else let r := f c s; r.1.cloRespond b r.2

/-- Bytes written to a channel's command area; covering bytes 0xFC to 0xFF starts execution. A command under an unknown
opcode is answered at once. -/
def State.cloSubmit (s : State) (b : Bool) (off : Nat) (data : List Byte) : State :=
  let c := s.clo.chan b
  if !s.clo.on then s
  else if c.exec then (s.modClo fun x => { x with cmdref := satAdd 0xFFFF x.cmdref 1 }).cloPost 0x8001
  else
    let area := c.area.write off data
    if covers off data.length 0xFC 0xFF then
      let s := s.modClo fun x => x.setChan b { c with area := area, exec := true, done := false }
      if between 1 (area.byte 0).toNat 0x12 then s else s.cloRespond b (4, [])
    else s.modClo fun x => x.setChan b { c with area := area }

/-- A number in ARG. -/
def CloChan.arg (c : CloChan) (o n : Nat) : Nat := c.area.num (4 + o) n

/-! ### Registers -/

/-- CAP. -/
def CloState.capCode (x : CloState) : Nat := match x.cap with | some c => c.kind | none => 0

/-- CLO_STAT. -/
def CloState.stat (x : CloState) : Word :=
  pack [(32, 32, x.evcnt.toNat), (16, 8, x.lastRes.toNat), (10, 2, x.capCode), (8, 2, if x.chA.exec then 1 else if x.chA.done then 2 else 0),
    (7, 1, ofBool x.fault), (6, 1, ofBool x.nofw), (5, 1, ofBool x.pvalid), (4, 1, ofBool x.refValid), (3, 1, ofBool x.sealOpen)]

/-- CLO_CNT. -/
def CloState.cnt (x : CloState) : Word := pack [(32, 32, x.ndropf), (16, 16, x.cmdref), (0, 16, x.cecc)]

/-! ### Reading commands -/

/-- FWHASH. -/
def CloState.fwHash (x : CloState) : List Byte := sha256 x.imageBytes

/-- GETID's data. -/
def CloState.ident (x : CloState) : List Byte :=
  (List.range 16).map (Config.cloSwid x.imageBytes) ++ x.fwHash ++ leBytes 4 x.evcnt.toNat ++ x.phash ++ leBytes 8 x.rseq.toNat ++
    (List.range 384).map Config.cloModulus

def execGetid (s : State) : Answer := .next (s.cloExec 1 fun _ s => (s, 0, s.clo.ident))

/-- GETSTAT's data. -/
def CloState.status (x : CloState) : List Byte := leBytes 8 x.stat.toNat ++ leBytes 8 x.cnt.toNat ++ leBytes 8 x.zseq.toNat

def execGetstat (s : State) : Answer := .next (s.cloExec 2 fun _ s => (s, 0, s.clo.status))

/-- The staged copy of a block, the effective one where nothing is staged. -/
def CloState.stagedBlock (x : CloState) (b : Nat) : List Byte :=
  if (x.staged.any fun e => e.1 = b) then blockBytes x.staged b else blockBytes x.blocks b

/-- GETPARAM: up to 256 bytes of a block from an offset. -/
def getparam (c : CloChan) (x : CloState) : CloRes :=
  let b := c.arg 0 4
  if cloSize b = 0 ∨ cloSize b < c.arg 4 4 ∨ 1 < c.arg 8 4 then (3, [])
  else (0, (((if c.arg 8 4 = 1 then x.stagedBlock b else blockBytes x.blocks b).drop (c.arg 4 4)).take 256))

def execGetparam (s : State) : Answer := .next (s.cloExec 3 fun c s => (s, getparam c s.clo))

/-- GETAUDIT: up to 7 entries from the first asked for. -/
def getaudit (c : CloChan) (x : CloState) : CloRes :=
  if x.audit.length ≤ c.arg 0 4 then (9, []) else (0, ((x.audit.drop (c.arg 0 4)).take 7).flatten)

def execGetaudit (s : State) : Answer := .next (s.cloExec 0xD fun c s => (s, getaudit c s.clo))

def execGetkey (s : State) : Answer := .next (s.cloExec 0x12 fun _ s => (s, 0, (List.range 384).map Config.cloKeySig))

/-- GETREC: a record that flash still holds returns to CLO_REC. -/
def State.getrec (s : State) (n : Nat) : State × CloRes :=
  match s.clo.recs.find? fun r => r.1.toNat = n with
  | some r => (s.modClo fun x => { x with slots := x.slots.set (Fin.ofNat 16 n) r.2 }, 0, [])
  | none => (s, 9, [])

def execGetrec (s : State) : Answer := .next (s.cloExec 0xC fun c s => s.getrec (c.arg 0 8))

/-! ### Parameters (R444) -/

/-- A list with bytes stored from an offset. -/
def storeBytes (l : List Byte) (o : Nat) (bs : List Byte) : List Byte := l.take o ++ bs ++ l.drop (o + bs.length)

/-- SETPARAM. -/
def State.setparam (s : State) (c : CloChan) : State × CloRes :=
  let b := c.arg 0 4
  let n := c.arg 8 4
  if !s.clo.sealOpen then (s, 2, [])
  else if cloSize b = 0 ∨ 240 < n ∨ cloSize b < c.arg 4 4 + n then (s, 3, [])
  else (s.modClo fun x => { x with
    staged := SMap.insert b (storeBytes (x.stagedBlock b) (c.arg 4 4) (c.area.read 0x10 n)) x.staged }, 0, [])

def execSetparam (s : State) : Answer := .next (s.cloExec 4 fun c s => s.setparam c)

/-- COMMIT. -/
def State.commitParam (s : State) (b : Nat) : State × CloRes :=
  let x := s.clo
  if !x.sealOpen then (s, 2, [])
  else if x.evcnt = 0xFFFFFFFF then (s, 8, [])
  else if cloSize b = 0 ∨ !blockOk b (x.stagedBlock b) then (s, 3, [])
  else
    let old := blockBytes x.blocks b
    let new := x.stagedBlock b
    let m := SMap.insert b new x.blocks
    let y := ({ x with
      blocks := m, evcnt := x.evcnt + 1, staged := SMap.erase b x.staged, lost := x.lost.filter (· ≠ b) } : CloState).addAudit
        1 b (sha256 old) (sha256 new)
    let s := ({ s with clo := { y with phash := cloPhash m, pvalid := y.paramsOk } }).cloPost 0x8005
    (s, 0, leBytes 4 s.clo.evcnt.toNat)

def execCommit (s : State) : Answer := .next (s.cloExec 5 fun c s => s.commitParam (c.arg 0 4))

/-! ### Captures (R450, R455) -/

/-- A capture that starts now under the effective parameters. -/
def State.newCap (s : State) (kind : Nat) : CloCap :=
  let x := s.clo
  ⟨kind, x.blocks, x.evcnt, x.phash, none, 0, 0, 0, 0, [], x.sealOpen, false, s.aInDoubt, Vector.replicate 4 0, Vector.replicate 4 0,
    0, 0, 0, false, x.enc, x.enc, none, s.tb.cnt⟩

/-- RSEQ to come. -/
def CloState.toCome (x : CloState) : List Byte := leBytes 8 (x.rseq + 1).toNat

/-- A capture starts, unless one runs or the parameters or the reference do not allow it. -/
def State.startCap (s : State) (kind : Nat) (fits : Bool) : State × CloRes :=
  if s.clo.cap.isSome then (s, 1, [])
  else if !s.clo.pvalid then (s, 6, [])
  else if !fits then (s, 0xA, [])
  else if kind ≠ 3 ∧ !s.clo.refValid then (s, 5, [])
  else
    let s := s.modClo fun x => { x with
      cap := some (s.newCap kind), track := x.track.map fun t => { t with inCap := false } }
    (s.tapPorts, 0, if kind = 2 then [] else s.clo.toCome)

/-- MODE of the effective parameters. -/
def CloState.belt (x : CloState) : Bool := gBelt (blockBytes x.blocks 0)

def execZero (s : State) : Answer := .next (s.cloExec 6 fun _ s => s.startCap 3 true)
def execMeasure (s : State) : Answer := .next (s.cloExec 7 fun _ s => s.startCap 1 (!s.clo.belt))
def execBeltstart (s : State) : Answer := .next (s.cloExec 8 fun _ s => s.startCap 2 s.clo.belt)

/-- BELTREAD and BELTSTOP: a record of the run. -/
def State.beltEnd (s : State) (final : Bool) : State × CloRes :=
  match s.clo.cap with
  | some c => if c.kind = 2 then (s.beltRecord c final false false, 0, s.clo.toCome) else (s, 0xA, [])
  | none => (s, if s.clo.belt then 3 else 0xA, [])

def execBeltread (s : State) : Answer := .next (s.cloExec 9 fun _ s => s.beltEnd false)
def execBeltstop (s : State) : Answer := .next (s.cloExec 0xA fun _ s => s.beltEnd true)

/-- ABORT. INCOMPLETE is set for a static capture or a zeroing only. -/
def State.cloAbort (s : State) : State × CloRes :=
  match s.clo.cap with
  | some c =>
    if c.kind = 2 then (s.beltRecord c true false true, 0, s.clo.toCome) else (s.capCut c true, 0, s.clo.toCome)
  | none => (s, 0, [])

def execAbort (s : State) : Answer := .next (s.cloExec 0xB fun _ s => s.cloAbort)

/-! ### Exports (R456) -/

/-- Whether a range lies wholly within one enabled region that names neither P0 nor P1 and has HOSTR = 1. -/
def DdrState.exportOk (d : DdrState) (lo hi : Nat) : Bool :=
  decide (lo ≤ hi) && d.rgn.toList.any fun w =>
    rgnEn w && decide ((rgnRdm w ||| rgnWrm w) % 4 = 0) && bit w 51 && decide (rgnBase w * 2 ^ 30 ≤ lo) &&
      decide (hi < (rgnBase w + rgnSize w) * 2 ^ 30)

/-- SETEXP: the range goes to DRGN[14] of MD0. -/
def State.setexp (s : State) (lo hi : Nat) : State × CloRes :=
  if s.ddr.exportOk lo hi then
    ({ s with dma := { s.dma with drgn := s.dma.drgn.set 0 (s.dma.drgn[(0 : Fin 2)].set 0 ⟨lo, hi⟩) } }, 0, [])
  else (s, 3, [])

def execSetexp (s : State) : Answer := .next (s.cloExec 0xE fun c s => s.setexp (c.arg 0 6) (c.arg 6 6))

/-- What an EXPORT writes: the height map as S in 3 bytes and N in 1 by cell; the reference as R in 3 bytes by cell; the
audit log and the records, oldest first. -/
def CloState.exportData (x : CloState) (sel : Nat) : List Byte :=
  if sel = 0 then
    (List.range x.mapCells).flatMap fun k => let v := SMap.get (0, 0) x.map k; leBytes 3 (wrapN 24 v.1) ++ leBytes 1 v.2
  else if sel = 1 then
    (List.range (gCells (blockBytes x.blocks 0))).flatMap fun k => leBytes 3 (wrapN 24 (SMap.get refUndef x.ref k))
  else if sel = 2 then x.audit.reverse.flatten
  else (x.recs.reverse.map fun r => r.2).flatten

/-- EXPORT through channel 14 of MD0. -/
def State.cloExport (s : State) (sel dst : Nat) : State × CloRes :=
  let g := s.dma.drgn[(0 : Fin 2)][(0 : Fin 2)]
  let data := s.clo.exportData sel
  if 3 < sel ∨ !s.ddr.exportOk g.base g.limit ∨ dst < g.base ∨ g.limit + 1 < dst + data.length then (s, 3, [])
  else
    let r := s.ddrWrite (.priv 0x40 g.base (g.limit + 1 - g.base)) dst data
    (r.1, 0, leBytes 4 (if r.2 then data.length else 0))

def execExportMap (s : State) : Answer := .next (s.cloExec 0xF fun c s => s.cloExport (c.arg 0 4) (c.arg 4 8))

/-! ### Firmware (R458) -/

/-- FWLOAD stages image bytes. -/
def State.fwload (s : State) (c : CloChan) : State × CloRes :=
  let n := c.arg 4 4
  if !s.clo.sealOpen then (s, 2, [])
  else if 240 < n ∨ 524288 < c.arg 0 4 + n then (s, 3, [])
  else (s.modClo fun x => { x with fwStage := x.fwStage.write (c.arg 0 4) (c.area.read 0x10 n) }, 0, [])

def execFwload (s : State) : Answer := .next (s.cloExec 0x10 fun c s => s.fwload c)

/-- FWCOMMIT: the staged image is verified and written. -/
def State.fwcommit (s : State) (n : Nat) (writeOk : Bool) : State × CloRes :=
  let x := s.clo
  let img := x.fwStage.read 0 n
  if !x.sealOpen then (s, 2, [])
  else if x.evcnt = 0xFFFFFFFF then (s, 8, [])
  else if n = 0 ∨ 524288 < n then (s, 3, [])
  else if !Config.cloImageOk img then (s, 7, [])
  else
    let y := ({ x with image := some img, imageBad := !writeOk, evcnt := x.evcnt + 1 }).addAudit 2 0 x.fwHash (sha256 img)
    (({ s with clo := y }).cloPost 0x8006, 0, [])

/-- FWCOMMIT answers, and on success Cloche restarts. -/
def State.fwcommitAll (s : State) (writeOk : Bool) : State :=
  let t := s.cloExec 0x11 fun c s => s.fwcommit (c.arg 0 4) writeOk
  if t.clo.evcnt = s.clo.evcnt then t else t.cloStart false false

def execFwcommit (writeOk : Bool) (s : State) : Answer := .next (s.fwcommitAll writeOk)

end Sys2Proof.Machine
end

