-- ==== Sys2Proof/Machine/Golden.lean ====
section
/-! DEFINITION. Gauntlet's golden patterns, arming, path fences, routed events, start-time tests, fault outputs and
registers (R395, R405 to R407, R411 to R418, R423 to R425). -/

namespace Sys2Proof.Machine

/-! ### Patterns (R405)

The model's layout of GNT_GPAT[g]: bits [3:0] SENS, [47:16] GPER, [63] GEN; [127:64] GPHASE in ns; [159:128] offset and
[191:160] length of the frames in the golden store; [223:192] points; [255:224] offset of the expected-tensor table.
DESIGN CHOICE: the spec names the fields and gives no layout. -/

def gpSens (w : BitVec 256) : Fin 16 := Fin.ofNat 16 (fld w 0 4)
def gpPer (w : BitVec 256) : Nat := fld w 16 32
def gpPhase (w : BitVec 256) : Nat := fld w 64 64
def gpFofs (w : BitVec 256) : Nat := fld w 128 32
def gpFlen (w : BitVec 256) : Nat := fld w 160 32
def gpPoints (w : BitVec 256) : Nat := fld w 192 32
def gpTable (w : BitVec 256) : Nat := fld w 224 32

/-- The frames of a pattern, from `a` to `stop`: each a 16-bit length and its bytes. -/
def goldFrames (store : Mem) (stop : Nat) : Nat → Nat → List (List Byte)
  | 0, _ => []
  | fuel + 1, a =>
    let n := store.num a 2
    if n = 0 ∨ stop < a + 2 + n then [] else store.read (a + 2) n :: goldFrames store stop fuel (a + 2 + n)

/-- Frames of pattern `w`. -/
def GntState.frames (g : GntState) (w : BitVec 256) : List (List Byte) :=
  goldFrames g.store (gpFofs w + gpFlen w) (min (gpFlen w) 65536) (gpFofs w)

/-- The limits of a pattern: 8,192 points, 200 µs at the port's line rate with FCS, preamble and gap, and a sensor whose
RINGS name P0 and P1. -/
def State.patternOk (s : State) (w : BitVec 256) : Bool :=
  let e := s.ing.sens[gpSens w]
  let wire := ((s.gnt.frames w).map fun f => f.length + 24).foldl (· + ·) 0
  decide (gpPoints w ≤ 8192) && decide (wire ≤ lineBytes s.ing.port[Fin.ofNat 4 (sensPort e)].phy) && decide (sensRings e % 4 = 3)

/-- The expected tensor of stream `i`: offset and length in the store. An entry of the table has 16 bytes: offset,
length, and bit 0 of the third word says that it is present. -/
def GntState.expected (g : GntState) (w : BitVec 256) (i : Fin 64) : Option (Nat × Nat) :=
  let a := gpTable w + 16 * i.val
  if g.strm[i].en && (g.store.num (a + 8) 1).testBit 0 then some (g.store.num a 4, g.store.num (a + 4) 4) else none

/-- The streams that a pattern's judgement looks at. -/
def GntState.goldStreams (g : GntState) (w : BitVec 256) : List (Fin 64) :=
  (List.finRange 64).filter fun i => (g.expected w i).isSome

/-! ### Arming (R418) -/

/-- The failing item of the arming check: `none` when it passes, and an inner `none` where the spec numbers no item. -/
def State.armFails (s : State) : Option (Option Byte) :=
  let g := s.gnt
  if s.crn.unlocked then some (some 0x10)
  else if !s.coresSafe || !s.ddr.pathsSafe || !slotsSafe s.ing.slotmap || !s.nmg.tablesSafe ||
      (List.finRange 4).any (fun i => gpEn g.gpat[i] && !s.patternOk g.gpat[i]) || g.strm.toList.any (fun t => t.en && !t.valid)
  then some none
  else if s.evt.routes.toList.any fun w => rtEn w && s.rtSafety w then some (some 0x11)
  else if (List.finRange 32).any fun c =>
      let e := fld s.flt.peff (2 * c.val) 2
      let m := fld s.flt.pmap (2 * c.val) 2
      decide (e ≠ m) && (decide (e < 2) || decide (m < 2))
  then some (some 0x13)
  else none

/-- The addresses that a path's channel 15 may read: from its lowest region to the end of its highest. -/
def DdrState.pathDrgn (d : DdrState) (p : Fin 2) : Drgn :=
  match d.pathRegions p with
  | [] => ⟨1, 0⟩
  | w :: ws =>
    let lo := ws.foldl (fun m v => min m (rgnBase v)) (rgnBase w)
    let hi := ws.foldl (fun m v => max m (rgnBase v + rgnSize v)) (rgnBase w + rgnSize w)
    ⟨lo * 2 ^ 30, hi * 2 ^ 30 - 1⟩

/-- Every stream's age counts from now; STALE stays until a deliverable verdict clears it (R404). -/
def State.ageFromNow (s : State) : State :=
  s.modGnt fun g => { g with strm := Vector.ofFn fun i : Fin 64 => { g.strm[i] with ref := s.strmNow i } }

/-- Gauntlet enters ARMED: DRGN of channel 15 on both dies, the streams' references with no scan judged, and the fault
outputs. With a path still fenced it enters SINGLE (R412; DESIGN CHOICE, log entry 196). -/
def State.enterArmed (s : State) : State :=
  let s := { s with dma := { s.dma with
    drgn := Vector.ofFn fun d : Fin 2 => s.dma.drgn[d].set (1 : Fin 2) (s.ddr.pathDrgn d) } }
  s.ageFromNow.modGnt fun g => { g with
    mode := if g.fence = 0 then .armed else .single
    strm := g.strm.map fun t => { t with pairs := [], judged := [] }
    wasArmed := false, history := [], cmpq := [], runs := []
    since := Vector.replicate 4 0, faultA := true, faultB := false }

/-- An arming refused: ARMFAIL and event 0x6051. An item without a number in the spec is a free value. -/
def State.armRefuse (s : State) (item : Option Byte) : State :=
  match item with
  | some b => (s.modGnt fun g => { g with armfail := b }).gntPost 0x6051
  | none =>
    let d := s.drawWord
    (d.2.modGnt fun g => { g with armfail := d.1.setWidth 8 }).gntPost 0x6051

/-- The arming check and its outcome. -/
def State.armCheck (s : State) : State :=
  match s.armFails with
  | none => s.enterArmed
  | some item => (s.modGnt fun g => { g with mode := .off }).armRefuse item

/-- Whether a core of P0 or P1 has a task running. -/
def State.safetyBusy (s : State) : Bool :=
  (List.finRange 32).any fun c => isSafety (s.partOf c) && decide (s.cores[c].seq.phase ≠ .idle)

/-- Host PF0 and Crown write the block. -/
def gntOwner (ini : Ini) : Bool := decide (ini = 0x60) || decide (ini = 0x70)

/-- A write of GNT_ARM.ARM. The first after a DOZE exit runs the tests of the blocks that were powered down. -/
def State.arm (s : State) (ini : Ini) : State :=
  if !gntOwner ini || decide (s.gnt.mode ≠ .off) then s
  else if s.gnt.dozed then
    if s.safetyBusy then s.armRefuse (some 0x12) else s.modGnt fun g => { g with mode := .test }
  else s.armCheck

def execArm (ini : Initiator) (s : State) : Answer := .next (s.arm ini)

/-- A write of GNT_ARM.DISARM. -/
def State.disarm (s : State) (ini : Ini) : State :=
  if gntOwner ini && s.armed then s.modGnt fun g => { g with mode := .off, faultA := false, faultB := false, runs := [], cmpq := [] }
  else s

def execDisarm (ini : Initiator) (s : State) : Answer := .next (s.disarm ini)

/-- A write of GNT_ARM.SAFE. -/
def State.askSafe (s : State) (ini : Ini) : State := if gntOwner ini then s.enterSafe 0x07 else s

def execSafe (ini : Initiator) (s : State) : Answer := .next (s.askSafe ini)

/-- A write of GNT_GCTL.DEFER, by host PF0 or a DMA engine of P0. -/
def State.askDefer (s : State) (ini : Ini) : State :=
  if decide (ini = 0x60) || s.pathDma 0 ini then s.modGnt fun g => { g with defer := true } else s

def execDefer (ini : Initiator) (s : State) : Answer := .next (s.askDefer ini)

/-- The start-time tests end (R414), or those after a DOZE exit (R418); a failing core and the row groups
that failed test 0x05 are due records (R431). -/
def State.testsDone (s : State) (fail : Bool) (test : Fin 12) (inst : BitVec 16) (rows : List RowFail) : State :=
  if s.gnt.mode ≠ .test ∨ s.pwr.mode ≠ .run ∨ s.pwr.start ≠ .none then s
  else if fail then
    let s := if test = 4 then s.failRows rows else s
    let c : CoreId := Fin.ofNat 32 inst.toNat
    let s := match s.flt.bind[c] with
      | some q => if between 4 test.val 6 then s.modFlt fun f => f.failCore q else s
      | none => s
    (s.modGnt fun g => { g with
      mode := .failed, testfail := BitVec.ofNat 8 (test.val + 1), testinst := inst, wasArmed := false
      faultA := false, faultB := false }).gntPost 0x6050
  else if s.gnt.dozed then (s.modGnt fun g => { g with mode := .off, dozed := false }).armCheck
  else if s.gnt.wasArmed then s.enterArmed
  else s.modGnt fun g => { g with mode := .off, faultA := false, faultB := false }

def execStartTestsDone (fail : Bool) (test : Fin 12) (place : TestPlace) (s : State) : Answer :=
  .next (s.testsDone fail test place.inst place.rows)

/-! ### Fault outputs and Gauntlet's own errors (R413, R417) -/

/-- Whether the start-time tests of a module start run, test 0x0C among them; after a DOZE exit it is not run. -/
def GntState.startTests (g : GntState) : Bool := decide (g.mode = .test) && !g.dozed

/-- The fault outputs swap levels; in test 0x0C both are high together and then low together (R414, R417). -/
def State.faultToggle (s : State) : State :=
  if s.armed then s.modGnt fun g => { g with faultA := !g.faultA, faultB := g.faultA }
  else if s.gnt.startTests then s.modGnt fun g => { g with faultA := !g.faultA, faultB := !g.faultA }
  else s

def execFaultOutputToggle (s : State) : Answer := .next s.faultToggle

/-- What a line to Gauntlet reports: a corrected word of its SRAM, a fault in itself, which enters the safe state, or a parity
error of the event unit, whose event 0x6091 comes back to Gauntlet as a routed one. -/
def State.gntReport (s : State) : GntFault → State
  | .corrected => s.gntPost 0x6070
  | .own => s.enterSafe 0x04
  | .eventUnit => s.post 0x6091 0xC0

def execGntLockstepError (f : GntFault) (s : State) : Answer := .next (s.gntReport f)

/-! ### Path fences (R411, R412, R424, R425) -/

/-- The place of a pair in the order of completion: complete ones by their later notice, then those that the fence completes. -/
def Pair.place (r : Pair) : Nat × Nat :=
  match r.n0, r.n1 with
  | some a, some b => (0, max a.no b.no)
  | some a, none => (1, a.no)
  | none, some b => (1, b.no)
  | none, none => (1, 0)

/-- A pair is queued behind those that come before it. -/
def queueBy (x : Fin 64 × Pair) : List (Fin 64 × Pair) → List (Fin 64 × Pair)
  | [] => [x]
  | y :: ys =>
    if x.2.place.1 < y.2.place.1 ∨ (x.2.place.1 = y.2.place.1 ∧ x.2.place.2 < y.2.place.2) then x :: y :: ys else y :: queueBy x ys

/-- Open pairs after a fence: results are void, and those with the surviving notice wait to be read, in order of completion. -/
def GntState.reopen (g : GntState) (p : Fin 2) : GntState :=
  let due := (List.finRange 64).flatMap fun i =>
    (g.strm[i].pairs.filter fun r => !r.golden && !r.dropped && (r.notice p).isSome).map fun r => (i, r)
  { g with
    strm := g.strm.map fun t => { t with pairs := t.pairs.map fun r => { r with result := none } }
    cmpq := (due.foldl (fun q x => queueBy x q) []).map fun x => (x.1, x.2.scanseq) }

/-- MSI-X routes of partition `p` stop (R425 item 1). -/
def State.muteEvents (s : State) (p : Fin 4) : State := { s with evt := { s.evt with fenced := setBit s.evt.fenced p.val true } }

/-- Channel 15 of path `p`'s memory die is disabled, and what it was doing ends (R411). -/
def State.cutChannel (s : State) (p : Fin 2) : State :=
  { s with
    dma := { s.dma with dies := s.dma.dies.set p (s.dma.dies[p].set (15 : Fin 16) DmaChan.reset) }
    gnt := { s.gnt with cut15 := setBit s.gnt.cut15 p.val true } }

/-- The fence of path `p` begins: SINGLE, its event, channel 15 and its MSI-X routes; its partition restarts. -/
def State.fencePath (s : State) (p : Fin 2) : State :=
  let s := s.modGnt fun g => { g with mode := .single, fence := setBit 0 p.val true, readmit := setBit g.readmit p.val false }
  (((s.gntPost (0x6031 + p.val)).cutChannel p).muteEvents (pathPart p)).startRestart (pathPart p)

/-- Path `p` is fenced and its partition restarts; `stay` keeps it fenced until the next module restart. A fault of a path
that is fenced already fences it anew once its partition has been released. A cause for the second path enters the safe
state. -/
def State.pathFence (s : State) (p : Fin 2) (stay : Bool) : State :=
  let held (s : State) : State := if stay then s.modGnt fun g => { g with stuck := setBit g.stuck p.val true } else s
  match s.gnt.mode with
  | .armed => ((held s).fencePath p).modGnt fun g => g.reopen (1 - p)
  | .single =>
    if !bit s.gnt.fence p.val then s.enterSafe 0x06
    else if bit s.gnt.readmit p.val then (held s).fencePath p
    else held s
  | _ => s

/-- A restarted path is fenced again, until the next module restart (R412). -/
def State.fenceAgain (s : State) (p : Fin 2) : State :=
  let s := s.modGnt fun g => { g with stuck := setBit g.stuck p.val true, readmit := setBit g.readmit p.val false }
  let s := ((s.gntPost 0x6034).cutChannel p).muteEvents (pathPart p)
  let s := (s.coresOf (pathPart p)).foldl State.holdCore s
  (s.partReset (pathPart p)).holdPart (pathPart p)

/-- Both paths pass the readmission: back to ARMED (R412). -/
def State.readmitted (s : State) : State :=
  ((s.modGnt fun g => { g with mode := .armed, fence := 0, readmit := 0 }).gntPost 0x6033).ageFromNow

/-! ### Injection (R406) -/

/-- A pattern's sweep whose opportunity has come and has not been used. -/
def State.oppDue (s : State) (g : Fin 4) : Option (Byte × BitVec 32) :=
  let w := s.gnt.gpat[g]
  let n := gpSens w
  if !gpEn w || !s.armed then none
  else match s.ing.sn[n].newest with
    | none => none
    | some x =>
      let now : Word := s.domTime (Fin.ofNat 2 (ofBool (sensDom s.ing.sens[n])))
      if decide (s.gnt.lastOpp[g] = some x) || decide ((now.setWidth 32 - x.2).toNat < gpPhase w) then none else some x

/-- The frames of a pattern enter the receive FIFO of its port, behind the frames already there (R127). -/
def State.inject (s : State) (g : Fin 4) : State :=
  let w := s.gnt.gpat[g]
  let n := gpSens w
  let run : GoldenRun := ⟨g, s.ing.sn[n].starts, s.tb.cnt, decide (s.gnt.readmit ≠ 0)⟩
  let p : Fin 4 := Fin.ofNat 4 (sensPort s.ing.sens[n])
  let s := (s.gnt.frames w).foldl (fun t f => t.fifoPut p ⟨f, s.domTime 0, s.domTime 1, some n⟩) s
  let s := s.modPort p fun q => { q with fifo := q.fifo ++ [.patternEnd n] }
  s.modGnt fun x => { x with
    runs := x.runs ++ [run], forced := setBit x.forced g.val false, since := x.since.set g 0, defrun := 0 }

/-- The opportunity of pattern `g`; `taken` says that a lower one has injected now. -/
def State.oppOne (r : State × Bool) (g : Fin 4) : State × Bool :=
  let s := r.1
  match s.oppDue g with
  | none => r
  | some x =>
    let n := s.gnt.since[g] + 1
    let force := bit s.gnt.forced g.val
    let s := s.modGnt fun y => { y with lastOpp := y.lastOpp.set g (some x), since := y.since.set g n }
    if r.2 || !(force || decide (gpPer s.gnt.gpat[g] ≤ n)) then (s, r.2)
    else if !force && s.gnt.defer && decide (s.gnt.defrun < 3) then
      ((s.modGnt fun y => { y with defer := false, defrun := y.defrun + 1, gdef := satAdd 0xFFFF y.gdef 1 }).gntPost 0x6020, r.2)
    else (s.inject g, true)

def execGoldenOpportunity (s : State) : Answer := .next ((List.finRange 4).foldl State.oppOne (s, false)).1

/-! ### Judgement (R407, R411, R412) -/

/-- The paths whose notices a run needs. -/
def GntState.needs (g : GntState) (r : GoldenRun) : List (Fin 2) :=
  match g.survivor with
  | none => [0, 1]
  | some p => if r.readmit then [0, 1] else [p]

/-- The pair of a run on a stream, empty when no notice has come. -/
def GntState.runPair (g : GntState) (r : GoldenRun) (i : Fin 64) : Pair :=
  (g.strm[i].pair (r.stag.setWidth 32) true).getD ⟨r.stag.setWidth 32, true, none, none, none, false⟩

/-- Whether every notice that a run needs has come. -/
def GntState.runComplete (g : GntState) (r : GoldenRun) : Bool :=
  (g.goldStreams g.gpat[r.pat]).all fun i => (g.needs r).all fun p => ((g.runPair r i).notice p).isSome

/-- A pair as a run looks at it: the notices of the paths it needs. -/
def GntState.wanted (g : GntState) (r : GoldenRun) (q : Pair) : Pair :=
  { q with n0 := if (g.needs r).contains 0 then q.n0 else none, n1 := if (g.needs r).contains 1 then q.n1 else none }

/-- One path's tensor against the expected one: its bytes, and NBAD. -/
def State.goldPath (s : State) (i : Fin 64) (want : Nat × Nat) (p : Fin 2) (n : Option Notice) :
    State × Option (List Byte) × Option Nat :=
  match n with
  | none => (s, none, none)
  | some n =>
    let x := s.gntRead p n
    (x.1, x.2, some (s.gnt.strm[i].nbad n.len want.2 x.2 (some (s.gnt.store.read want.1 want.2))))

/-- One stream of a run: its record is written; which paths fail. -/
def State.goldStream (r : GoldenRun) (acc : State × Bool × Bool) (i : Fin 64) : State × Bool × Bool :=
  let s := acc.1
  let g := s.gnt
  let t := g.strm[i]
  let want := (g.expected g.gpat[r.pat] i).getD (0, 0)
  let q := g.wanted r (g.runPair r i)
  let a := s.goldPath i want 0 q.n0
  let b := a.1.goldPath i want 1 q.n1
  let bad (x : Option Nat) : Bool := match x with | some n => decide (t.maxBad < n) | none => true
  let need (p : Fin 2) : Bool := (g.needs r).contains p
  let f0 := need 0 && bad a.2.2
  let f1 := need 1 && bad b.2.2
  let gone := (g.needs r).any fun p => (q.notice p).isNone
  let cross : Nat := match q.n0, q.n1 with
    | some x, some y => t.nbad x.len y.len a.2.1 b.2.1
    | some _, none => a.2.2.getD 0
    | none, _ => b.2.2.getD 0
  let n := (g.mainNotice q).getD ⟨q.scanseq, i, true, false, 0, 0, 0, 0, 0, 0, 0⟩
  let verd := if gone then 3 else if f0 || f1 || (need 0 && need 1 && decide (t.maxBad < cross)) then 2
    else if (g.needs r).length = 1 then 1 else 0
  let v := verdictRec n verd q.degraded false cross (s.strmNow i) 0
  (b.1.modStrm i fun t => (t.append v).dropPair q.scanseq true, acc.2.1 || f0, acc.2.2 || f1)

/-- What a judged run leads to. -/
def State.goldReact (s : State) (r : GoldenRun) (f0 f1 : Bool) : State :=
  let s := s.gntPost (0x6021 + ofBool f0 + 2 * ofBool f1)
  match s.gnt.survivor with
  | none =>
    if f0 && f1 then s.enterSafe 0x02
    else if f0 then s.pathFence 0 false
    else if f1 then s.pathFence 1 false
    else (s.modGnt fun g => { g with gtrans := satAdd 0xFFFF g.gtrans 1 }).gntPost 0x6030
  | some p =>
    if (if p = 0 then f0 else f1) then s.enterSafe 0x02
    else if !r.readmit then s
    else if f0 || f1 then s.fenceAgain (1 - p)
    else s.readmitted

/-- A run is judged with the notices that have come. -/
def State.goldJudge (s : State) (r : GoldenRun) : State :=
  let s := s.modGnt fun g => { g with runs := g.runs.erase r }
  let x := (s.gnt.goldStreams s.gnt.gpat[r.pat]).foldl (State.goldStream r) (s, false, false)
  x.1.goldReact r x.2.1 x.2.2

/-- The oldest run whose notices have all come. -/
def execGoldenJudge (s : State) : Answer :=
  .next (if s.armed then (match s.gnt.runs.find? s.gnt.runComplete with | some r => s.goldJudge r | none => s) else s)

/-- The oldest run that lacks a notice 200 ms after its injection. -/
def State.goldTimeout (s : State) : State :=
  if !s.armed then s
  else match s.gnt.runs.find? fun r => !s.gnt.runComplete r && decide (100000000 ≤ (s.tb.cnt - r.cnt).toNat) with
    | some r => s.goldJudge r
    | none => s

def execGoldenNoticeTimeout (s : State) : Answer := .next s.goldTimeout

/-! ### Routed events (R423, R424) -/

/-- Codes whose reaction is a core fence and, on P0 and P1, a path fence. -/
def coreFenceCode (c : Nat) : Bool :=
  [0x1089, 0x108A, 0x108B, 0x108C, 0x4121, 0x4122, 0x4220, 0x4320, 0x5020, 0x5120, 0x5220, 0x5320].contains c

/-- Codes whose reaction is the safe state. A code 0x4031 reaches Gauntlet only for a sensor of P0 or P1. -/
def safeCode (c : Nat) : Bool := [0x6091, 0x4031, 0x7080, 0x9060, 0x9070].contains c

/-- Whether a link of the package network concerns a path: its memory die, or a compute die with a core of its partition. -/
def State.linkConcerns (s : State) (p : Fin 2) (l : Link) : Bool :=
  let die (d : Fin 4) : Bool := (List.finRange 32).any fun c => decide (dieOf c = d) && decide (s.partOf c = pathPart p)
  match l with
  | .mem d m => decide (m = p) || die d
  | .io d => die d
  | .memIo m => decide (m = p)

/-- Whether a stopped link concerns a path. -/
def State.linkLost (s : State) (p : Fin 2) : Bool := s.net.stopped.any (s.linkConcerns p)

/-- A stopped link fences the paths it concerns until the next module restart; of an error inside XD nothing is trusted. -/
def State.linkEvent (s : State) (xd : Bool) : State :=
  if xd then s.enterSafe 0x06
  else if !s.armed then s
  else
    let s := if s.linkLost 0 then s.pathFence 0 true else s
    if s.linkLost 1 then s.pathFence 1 true else s

/-- The path that a fence would concern. -/
def routedPath (q : Posted) : Option (Fin 2) :=
  let c := q.code.toNat
  let src := q.src.toNat
  let ofPart : Option (Fin 2) := match q.part with | some p => if p = 0 then some 0 else if p = 1 then some 1 else none | none => none
  if coreFenceCode c then ofPart
  else if c = 0x2302 then (if src = 0x40 then some 0 else if src = 0x41 then some 1 else ofPart)
  else if c = 0x2212 then some (if src < 0x4A then 0 else 1)
  else if within c 0x2020 0x202F || within c 0x2090 0x209F then some (if c % 16 < 8 then 0 else 1)
  else none

/-- A safe-state cause that Gauntlet has in the same µs as the oldest event, 500 ticks: it wins over a fence (R424). -/
def safeWith (x q : Posted) : Bool :=
  safeCode q.code.toNat && decide (q.cnt.toNat / 500 = x.cnt.toNat / 500)

/-- Gauntlet takes the next routed event, the oldest unless a safe-state cause shares its µs. A safe-state cause counts in every mode; a path is fenced in ARMED and SINGLE (log
entry 107). -/
def State.routedEvent (s : State) : State :=
  match s.evt.gntQ with
  | [] => s
  | x :: _ =>
    let q := s.evt.gntQ.find? (safeWith x) |>.getD x
    let s := { s with evt := { s.evt with gntQ := s.evt.gntQ.erase q } }
    if q.code = 0x6090 then s.linkEvent q.gnt
    else if safeCode q.code.toNat then s.enterSafe 0x06
    else match routedPath q with
      | some p => s.pathFence p (within q.code.toNat 0x2090 0x209F)
      | none => s

def execGntRoutedEvent (s : State) : Answer := .next s.routedEvent

/-! ### Registers -/

/-- A write of GNT_GCTL: VEN, in OFF only. DEFER is a command of its own. -/
def State.gctlWrite (s : State) (ini : Ini) (h : Half) (v : Word) : State :=
  if !gntOwner ini || decide (s.gnt.mode ≠ .off) then s
  else s.modGnt fun g => { g with ven := bit (mergeHalf h (pack [(1, 1, ofBool g.ven)]) v) 1 }

/-- A write of word `k` of GNT_STRM[i], in OFF only. -/
def State.strmWrite (s : State) (i : Fin 64) (k : Fin 4) (ini : Ini) (h : Half) (v : Word) : State :=
  if !gntOwner ini || decide (s.gnt.mode ≠ .off) then s
  else s.modStrm i fun t =>
    if k = 0 then
      let w := maskWrite 0xFC000000FFFFFFFF#64 0 (mergeHalf h t.w0 v)
      { t with w0 := w, ref := if bit w 63 && !t.en then s.domTime (Fin.ofNat 2 (fld w 61 1)) else t.ref }
    else if k = 1 then { t with w1 := mergeHalf h t.w1 v }
    else if k = 2 then { t with w2 := maskWrite 0xFFFFFFFF#64 0 (mergeHalf h t.w2 v) }
    else t

/-- Bytes written to GNT_GPAT[g], in OFF only; an enabled pattern beyond the limits is refused with event 0x6051. -/
def State.gpatWrite (s : State) (g : Fin 4) (ini : Ini) (off : Nat) (data : List Byte) : State :=
  if !gntOwner ini || decide (s.gnt.mode ≠ .off) then s
  else
    let w := stage32 s.gnt.gpat[g] off data
    if gpEn w && !s.patternOk w then s.gntPost 0x6051 else s.modGnt fun x => { x with gpat := x.gpat.set g w }

/-- Bytes written to GNT_GWIN, in OFF only. -/
def State.gwinWrite (s : State) (ini : Ini) (off : Nat) (data : List Byte) : State :=
  if !gntOwner ini || decide (s.gnt.mode ≠ .off) then s
  else s.modGnt fun g => { g with store := g.store.write off data }

/-- MODE of GNT_STATE. -/
def GntMode.code : GntMode → Nat
  | .off => 0
  | .test => 1
  | .armed => 2
  | .single => 3
  | .safe => 4
  | .failed => 5

def GntState.stateWord (g : GntState) : Word :=
  pack [(56, 8, g.testfail.toNat), (40, 16, g.testinst.toNat), (32, 8, g.safecause.toNat), (24, 8, g.armfail.toNat),
    (8, 2, g.fence.toNat), (0, 3, g.mode.code)]

def GntState.gctlWord (g : GntState) : Word :=
  pack [(4, 4, g.forced.toNat), (2, 2, g.defrun), (1, 1, ofBool g.ven), (0, 1, ofBool g.defer)]

def GntState.cntWord (g : GntState) : Word := pack [(48, 16, g.nref), (32, 16, g.gtrans), (16, 16, g.gdef), (0, 16, g.disc)]

/-- Word `k` of GNT_STRM[i]. -/
def Stream.word (t : Stream) (k : Nat) : Word :=
  if k = 0 then setBit t.w0 32 t.stale else if k = 1 then t.w1 else if k = 2 then t.w2 else 0

end Sys2Proof.Machine
end

