-- ==== Sys2Proof/Machine/Faults.lean ====
section
/-! DEFINITION. The FLT block's commands: partition and module restarts asked for, a partition's release, the staged
partition map, and Crown's fault log with its repair records (R19, R415, R426 to R438). -/

namespace Sys2Proof.Machine

/-- Event 0x6099: an FLT write dropped or refused (R437). -/
def State.fltRefuse (s : State) : State := s.fltPost 0x6099

/-! ### Restarts (R426, R427, R437, R438) -/

/-- Partition of a logical core in a partition map. -/
def mapPart (m : Word) (c : CoreId) : Fin 4 := Fin.ofNat 4 (fld m (2 * c.val) 2)

/-- Whether every partition that gains or loses a core under the staged map starts its restart in `set`. -/
def FltState.mapMoves (f : FltState) (set : List (Fin 4)) : Bool :=
  (List.finRange 32).all fun c =>
    decide (mapPart f.peff c = mapPart f.pmap c) || (set.contains (mapPart f.peff c) && set.contains (mapPart f.pmap c))

/-- Restarts of `set` start together; the tasks of the old cores end, the staged map may take effect, and the cores of
the new map are held in reset. -/
def State.startRestarts (s : State) (set : List (Fin 4)) : State :=
  let s := set.foldl (fun t p => (t.coresOf p).foldl State.holdCore t) s
  let s := if s.flt.mapMoves set then s.modFlt fun f => { f with peff := f.pmap } else s
  set.foldl State.startRestart s

/-- A write of FLT_PRST. -/
def State.prstWrite (s : State) (ini : Ini) (h : Half) (v : Word) : State :=
  if !gntOwner ini then s.fltRefuse
  else
    let asked := (List.finRange 4).filter fun p => bit (carried h v) p.val
    let bad := asked.filter fun p => isSafety p && s.armed
    let set := asked.filter fun p => !(isSafety p && s.armed) && decide (s.flt.part[p] = .running)
    let s := if bad.isEmpty then s else s.fltRefuse
    s.startRestarts set

def execFltPrst (ini : Initiator) (h : Half) (v : Word) (s : State) : Answer := .next (s.prstWrite ini h v)

/-- A write of FLT_MRST; COLD wins. -/
def State.mrstWrite (s : State) (ini : Ini) (warm cold : Bool) : State :=
  if !gntOwner ini then s.fltRefuse
  else if cold then s.modFlt fun f => { f with mrst := .cold }
  else if warm then s.askWarm else s

def execFltMrstWarm (ini : Initiator) (s : State) : Answer := .next (s.mrstWrite ini true false)

def execFltMrstCold (ini : Initiator) (s : State) : Answer := .next (s.mrstWrite ini false true)

/-! ### Release (R19, R415, R426, R433) -/

/-- What the restart tests of a partition find: failing cores, failing spares by die, failing DDR channels. -/
def State.failCores (s : State) (cs : List CoreId) (bad : BitVec 32) : State :=
  (s.flt.physOf (cs.filter fun c => bit bad c.val)).foldl (fun t q => t.modFlt fun f => f.failCore q) s

/-- Whether a restart ends in a failed test: of a spare newly bound to a core of `cs`, of DDR, or, for P0 and P1 (`path`), of a
core that no spare replaces (R415, R426). -/
def heldAfter (old new : Vector (Option Nat) 32) (cs : List CoreId) (path : Bool) (spares : BitVec 4) (ddr : Bool) : Bool :=
  (path && ddr) || cs.any fun c =>
    decide (old[c] ≠ new[c]) && (if new[c].isSome then bit spares (c.val / 8) else path)

/-- Gauntlet learns that partition `p` is released: a fenced path has its channel 15 back and waits for its golden pattern
(R412). -/
def State.gntReleased (s : State) (p : Fin 4) : State :=
  if p.val < 2 ∧ bit s.gnt.fence p.val then
    let first := (List.finRange 4).find? fun g => gpEn s.gnt.gpat[g]
    s.modGnt fun g => { g with
      cut15 := setBit g.cut15 p.val false
      readmit := setBit 0 p.val true
      forced := match first with | some i => setBit g.forced i.val true | none => g.forced }
  else s

/-- Whether Gauntlet keeps a path fenced until the next module restart. -/
def GntState.keeps (g : GntState) (p : Fin 4) : Bool := decide (p.val < 2) && bit g.stuck p.val

/-- The restart of partition `p` ends. `bad` are the cores that failed their tests, `spares` the dies whose newly bound spare
did, `rows` the row groups that failed test 0x05, and `ddr` says that test 0x08 failed. -/
def State.partRelease (s : State) (p : Fin 4) (bad : BitVec 32) (spares : BitVec 4) (ddr : Bool) (rows : List RowFail) : State :=
  if s.flt.part[p] ≠ .restarting then s
  else
    let cs := s.coresOf p
    let s := ((s.failCores cs bad).failRows (rows.filter fun r => cs.contains r.1)).modFlt fun f => f.applyRows (f.physOf cs)
    let old := s.flt.bind
    let s := s.rebindAll cs 0xC5
    let s := s.modFlt fun f => f.applyRows (f.physOf cs)
    let failed := heldAfter old s.flt.bind cs (isSafety p) spares ddr
    if failed || s.gnt.keeps p then
      let news := (cs.filter fun c => decide (old[c] ≠ s.flt.bind[c]) && bit spares (c.val / 8))
      let s := (s.flt.physOf news).foldl (fun t q => t.modFlt fun f => f.failCore q) s
      let s := if isSafety p && failed then
          (s.modGnt fun g => { g with stuck := setBit g.stuck p.val true }).gntPost 0x6050 else s
      s.holdPart p
    else (s.releasePart p).gntReleased p

def execPartitionRelease (p : Fin 4) (found : CoreTests) (spares : BitVec 4) (ddr : Bool) (s : State) : Answer :=
  .next (s.partRelease p found.bad spares ddr found.rows)

/-! ### The staged map (R438) -/

/-- Whether a staged value would move a core of P0 or P1 (R438). -/
def FltState.mapRefused (f : FltState) (v : Word) : Bool :=
  (List.finRange 32).any fun c =>
    [f.peff, f.pmap, v].any (fun m => isSafety (mapPart m c)) && decide (mapPart v c ≠ mapPart f.peff c)

/-- A write of FLT_PMAP. -/
def State.pmapWrite (s : State) (ini : Ini) (h : Half) (v : Word) : State :=
  let w := mergeHalf h s.flt.pmap v
  if ini ≠ 0x70 ∨ (s.armed ∧ s.flt.mapRefused w) then s.fltRefuse
  else s.modFlt fun f => { f with pmap := w }

def execFltPmapWrite (ini : Initiator) (h : Half) (v : Word) (s : State) : Answer := .next (s.pmapWrite ini h v)

/-! ### The fault log and repair records (R430, R431, R434) -/

/-- ACT of an entry for a code: the reaction of R423. `path` says that it concerns P0 or P1 with Gauntlet armed. -/
def logAct (c : Nat) (path : Bool) : Nat :=
  if coreFenceCode c ∨ c = 0x2302 then (if path then 2 else if c = 0x2302 then 0 else 1)
  else if within c 0x60A0 0x60BF then 1
  else if c = 0x6031 ∨ c = 0x6032 ∨ c = 0x6034 then 2
  else if within c 0x2020 0x202F ∨ within c 0x2090 0x209F ∨ c = 0x2212 then (if path then 2 else 0)
  else if within c 0x6080 0x608B then 3
  else if c = 0x6040 ∨ safeCode c ∨ within c 0x6060 0x606F then 4
  else if c = 0x6092 then 5
  else 0

/-- The entry of an event. -/
def State.logEntry (s : State) (q : Posted) (detail : Word) : LogEntry :=
  let core := coreOfIni q.src
  let phys := match core with | some c => s.flt.bind[c] | none => none
  ⟨s.tb.cnt, s.domTime 0, q.code, q.src, match q.part with | some p => BitVec.ofNat 8 p.val | none => 0xFF,
    match phys with | some n => BitVec.ofNat 16 n | none => 0xFFFF,
    BitVec.ofNat 8 (if q.code = 0x6090 then (if q.gnt then 4 else if s.armed && (s.linkLost 0 || s.linkLost 1) then 2 else 0)
      else logAct q.code.toNat (s.armed && (routedPath q).isSome)), detail⟩

/-- An entry joins Crown's ring of 4,096, and with ACT at least 1 the flash ring of 1,024; newest first. -/
def FltState.addLog (f : FltState) (e : LogEntry) : FltState :=
  { f with
    log := (e :: f.log).take 4096
    flashLog := if 1 ≤ e.act.toNat then (e :: f.flashLog).take 1024 else f.flashLog }

/-- An entry that Crown writes of its own: ACT 5 for a full repair table, ACT 6 for lost events. -/
def State.ownEntry (s : State) (act : Nat) (detail : Nat) : State :=
  let e : LogEntry := ⟨s.tb.cnt, s.domTime 0, 0, 0x70, 0xFF, 0xFFFF, BitVec.ofNat 8 act, BitVec.ofNat 64 detail⟩
  s.modFlt fun f => f.addLog e

/-- Records of the table whose copies pass. -/
def FltState.valid (f : FltState) : Nat := (f.table.filter fun r => r.ok1 || r.ok2).length

/-- Crown writes a record to flash, or logs the refusal when the table is full (R430). -/
def State.writeRepair (s : State) (r : RepairRec) : State :=
  if 512 ≤ s.flt.table.length then s.ownEntry 5 0
  else
    let n := match s.flt.table.getLast? with | some x => x.seq + 1 | none => 0
    (s.modFlt fun f => { f with table := f.table ++ [{ r with seq := n, ok1 := true, ok2 := true }] }).post 0x6092 0x70

/-- TB ticks of a time in hours. -/
def hours (n : Nat) : Nat := n * 1800000000000

/-- A corrected error of a row or row group; `n` of them within 24 h are due a record. -/
def State.rowError (s : State) (t : Byte) (loc : Word) (n : Nat) : State :=
  let recent (e : Byte × Word × Word) : Bool := decide ((s.tb.cnt - e.2.2).toNat ≤ hours 24)
  let errs := (t, loc, s.tb.cnt) :: s.flt.rowErr.filter recent
  let s := s.modFlt fun f => { f with rowErr := errs }
  if n ≤ (errs.filter fun e => decide (e.1 = t) && decide (e.2.1 = loc)).length then s.queueRepair t loc else s

/-- DDR rows of a channel with an uncorrectable error are due a record (R340). -/
def State.rowsFailed (s : State) (ch : Nat) : State :=
  let mine (w : Word) : Bool := decide (fld w 0 8 = ch)
  (s.flt.rowUe.filter mine).foldl (fun t w => t.queueRepair 4 w) (s.modFlt fun f => { f with rowUe := f.rowUe.filter fun w => !mine w })

/-- DDR rows of a channel with 4 or more corrected errors in 24 h are due a record (R340). -/
def State.rowsWorn (s : State) (ch : Nat) : State :=
  let errs := s.flt.rowErr.filter fun e =>
    decide (e.1 = 4) && decide (fld e.2.1 0 8 = ch) && decide ((s.tb.cnt - e.2.2).toNat ≤ hours 24)
  (errs.map fun e => e.2.1).eraseDups.foldl (fun t w =>
    if 4 ≤ (errs.filter fun e => decide (e.2.1 = w)).length then t.queueRepair 4 w else t) s

/-- Repair records that an event calls for (R431). `detail` locates a scratchpad row group or a lane, which the event does
not carry. -/
def State.repairFor (s : State) (q : Posted) (detail : Word) : State :=
  let c := q.code.toNat
  let ch := c % 16
  if within c 0x60A0 0x60BF then
    match s.flt.bind[Fin.ofNat 32 (c - 0x60A0)] with
    | none => s
    | some n =>
      let recent := s.flt.fences.filter fun e => decide (e.1 = n) && decide ((s.tb.cnt - e.2).toNat ≤ hours 168)
      if 3 ≤ recent.length then s.modFlt fun f => f.failCore n else s
  else if c = 0x108B then s.queueRepair 2 detail
  else if c = 0x1120 then s.rowError 2 detail 16
  else if within c 0x3030 0x3035 then s.queueRepair 3 detail
  else if within c 0x2020 0x202F then s.rowsFailed ch
  else if within c 0x2010 0x201F then s.rowsWorn ch
  else if within c 0x2030 0x203F then
    let k := s.ddr.ch[Fin.ofNat 16 ch]
    s.queueRepair 5 (pack [(0, 8, ch), (8, 8, ofBool k.frank), (16, 8, k.fdev)])
  else s

/-- Crown writes the records that wait. -/
def State.writeAllRepairs (s : State) : State :=
  let rs := s.flt.repairQ
  rs.foldl State.writeRepair (s.modFlt fun f => { f with repairQ := [] })

/-- Crown writes the records that wait, unless a firmware write is in progress (R468). -/
def State.writeRepairs (s : State) : State := if s.crn.update.isSome then s else s.writeAllRepairs

/-- Crown takes the next event of its queue: a log entry and the repair records that are due, and an entry for events
lost before it (R434). -/
def State.faultLog (s : State) (detail : Word) : State :=
  if s.crn.mode ≠ .running then s
  else
    let s := if s.evt.crownLost = 0 then s
      else let n := s.evt.crownLost; ({ s with evt := { s.evt with crownLost := 0 } }).ownEntry 6 n
    match s.evt.crownQ with
    | [] => s.writeRepairs
    | q :: rest =>
      let s := { s with evt := { s.evt with crownQ := rest } }
      let e := s.logEntry q detail
      let s := if loggedCode q.code.toNat then s.modFlt fun f => f.addLog e else s
      (s.repairFor q detail).writeRepairs

def execFaultLogEntry (detail : Word) (s : State) : Answer := .next (if s.serves .faults then s.faultLog detail else s)

/-! ### Registers as they read -/

def PartState.code : PartState → Nat
  | .running => 0
  | .restarting => 1
  | .held => 2

def FltState.pstat (f : FltState) : Word :=
  pack ((32, 32, f.rcnt) :: (List.finRange 4).map fun p => (2 * p.val, 2, (f.part[p]).code))

def FltState.cfence (f : FltState) : Word := pack [(32, 32, f.unbound.toNat), (0, 32, f.fenced.toNat)]

def FltState.logst (f : FltState) : Word := pack [(32, 32, f.lost), (16, 16, f.flashLog.length), (0, 10, f.valid)]

end Sys2Proof.Machine
end

