-- ==== Sys2Proof/Machine/Pcie.lean ====
section
/-! DEFINITION. The PCI Express host interface (chapter 21): link, resets, configuration, the host windows and the
DDR aperture. Reads of BAR0 and BAR2 stand in Machine/HostRead.lean. -/

namespace Sys2Proof.Machine

/-! ### Readiness (R491) -/

/-- Whether the module's PCIe controller is there to answer: running, or in DOZE (R508). -/
def State.pcieAlive (s : State) : Bool := decide (s.pwr.mode = .run) || decide (s.pwr.mode = .doze)

/-- The start-time tests of this module start have passed; those that follow a DOZE exit leave PF0 ready (R414, R418). -/
def State.startTested (s : State) : Bool :=
  (decide (s.gnt.mode ≠ .test) && decide (s.gnt.mode ≠ .failed)) || s.gnt.dozed

/-- PF0 is ready: Crown RUNNING, DDR ready and Gauntlet out of TEST; or Crown in RECOVERY. -/
def State.pf0Ready (s : State) : Bool :=
  decide (s.pwr.mode = .run) &&
    (decide (s.crn.mode = .recovery) ||
      (decide (s.crn.mode = .running) && bit s.ddr.cfg 63 && s.startTested))

/-- PF0 takes memory requests: ready, with Memory Space Enable, and not in D3hot (PRESUMED: PCI Express). -/
def State.pf0Memory (s : State) : Bool := s.pf0Ready && s.pci.pf0.memEn && !s.pci.pf0.d3hot

/-- PF1 is ready when Cloche accepts commands or is in NOFW. -/
def State.pf1Ready (s : State) : Bool := decide (s.pwr.mode = .run) && s.clo.on

/-- PF1 takes memory requests. -/
def State.pf1Memory (s : State) : Bool := s.pf1Ready && s.pci.pf1.memEn && !s.pci.pf1.d3hot

/-- While Crown is in RECOVERY after a module start only the CRN block responds (R498). -/
def State.onlyCrn (s : State) : Bool := decide (s.crn.mode = .recovery) && s.crn.atStart

/-- An Unsupported Request completion of a function: AER, PCI_ERR.URC and event 0xA003 (R488). As an advisory non-fatal error
it counts as a correctable one (PRESUMED, log entry 201). -/
def State.unsupportedBy (s : State) (pf1 : Bool) : State :=
  let s := s.modFn pf1 fun f => { f with aerUr := true }
  ({ s with pci := { s.pci with urc := satAdd 0xFFFF s.pci.urc 1, corr := satAdd 0xFFFF s.pci.corr 1 } }.post 0xA003 0xC1).emit (.hostCompletion none)

/-- One of PF0. -/
def State.unsupported (s : State) : State := s.unsupportedBy false

/-- A TLP for a function that fails ECRC or is poisoned is dropped, logged, counted and posted (R488). -/
def State.tlpDropBy (s : State) (pf1 : Bool) (f : TlpFault) : State :=
  match f with
  | .none => s
  | .ecrc =>
    let s := s.modFn pf1 fun x => { x with aerEcrc := true }
    { s with pci := { s.pci with ecrce := satAdd 0xFFFF s.pci.ecrce 1 } }.post 0xA004 0xC1
  | .poisoned =>
    let s := s.modFn pf1 fun x => { x with aerPois := true }
    { s with pci := { s.pci with pois := satAdd 0xFFFF s.pci.pois 1 } }.post 0xA004 0xC1

/-- One for PF0. -/
def State.tlpDrop (s : State) (f : TlpFault) : State := s.tlpDropBy false f

/-! ### Link and resets (R485, R492) -/

/-- The link reaches L0 at a speed and width; a further time counts as a retraining. -/
def State.linkUp (s : State) (speed : Fin 5) (width : Fin 3) : State :=
  if s.pwr.mode = .run then
    { s with pci := { s.pci with
      linkUp := true
      speed := BitVec.ofNat 3 (speed.val + 1)
      width := BitVec.ofNat 3 (2 ^ width.val)
      retr := if s.pci.linkUp then satAdd 0xFFFF s.pci.retr 1 else s.pci.retr } }.post 0xA001 0xC1
  else s

/-- The link leaves DL_Active. -/
def State.linkDown (s : State) : State :=
  if s.pci.linkUp then { s with pci := { s.pci with linkUp := false } }.post 0xA002 0xC1 else s

/-- Both functions, BAR sizes, APBASE and HWIN return to reset (R492). -/
def State.pcieReset (s : State) : State :=
  let s := s.linkDown
  { s with pci := { s.pci with
    retr := 0, apbase := PciState.reset.apbase, hwin := PciState.reset.hwin, pf0 := PciFn.reset, pf1 := PciFn.reset } }

/-- FLR of PF0; the size of BAR4 stays. -/
def State.flr0 (s : State) : State :=
  { s with pci := { s.pci with
    apbase := PciState.reset.apbase, hwin := PciState.reset.hwin
    pf0 := { PciFn.reset with bar4Size := s.pci.pf0.bar4Size } } }.post 0xA020 0xC1

def execPcieLinkUp (speed : Fin 5) (width : Fin 3) (s : State) : Answer := .next (s.linkUp speed width)
def execPcieLinkDown (s : State) : Answer := .next s.linkDown
def execPcieReset (s : State) : Answer := .next s.pcieReset
def execFlrPf0 (s : State) : Answer := .next s.flr0

/-! ### PCI registers (R489, R490) -/

/-- A write of PCI_APBASE: BASE, refused when no multiple of the BAR4 size. -/
def State.apbaseWrite (s : State) (ini : Ini) (h : Half) (v : Word) : State :=
  if ini ≠ 0x60 ∧ ini ≠ 0x70 then s
  else
    let w := mergeHalf h s.pci.apbase v &&& 0x0000FFFFC0000000#64
    if w.toNat % (2 ^ s.pci.pf0.bar4Size * 2 ^ 30) ≠ 0 then s.post 0xA005 0xC1
    else { s with pci := { s.pci with apbase := w } }

/-- A write of PCI_HWIN[k]. -/
def State.hwinWrite (s : State) (k : Fin 32) (ini : Ini) (h : Half) (v : Word) : State :=
  if ini ≠ 0x60 ∧ ini ≠ 0x70 then s
  else { s with pci := { s.pci with hwin := s.pci.hwin.set k (mergeHalf h s.pci.hwin[k] v &&& 0x3F#64) } }

def execPciApbaseWrite (ini : Initiator) (h : Half) (v : Word) (s : State) : Answer := .next (s.apbaseWrite ini h v)
def execPciHwinWrite (k : Fin 32) (ini : Initiator) (h : Half) (v : Word) (s : State) : Answer := .next (s.hwinWrite k ini h v)

/-! ### Host windows and the DDR aperture (R489, R490) -/

/-- A write through host window `k` reaches its core's window input with identifier 0x60. -/
def State.hostWindow (s : State) (k : Fin 32) (off : Nat) (data : List Byte) (f : TlpFault) : State :=
  if !s.pcieAlive then s
  else if f ≠ .none then s.tlpDrop f
  else if !s.pf0Memory || s.onlyCrn then s
  else
    let w := s.pci.hwin[k]
    s.windowWrites (Fin.ofNat 32 (fld w 0 5)) 0x60 (fld w 5 1 * 0x400000 + off) data

def execHostWindowWrite (k : Fin 32) (off : Nat) (data : List Byte) (f : TlpFault) (s : State) : Answer :=
  inRange s (hostWindowOk off data) (s.hostWindow k off data f)

/-- A BAR4 access at device address APBASE + off, under the host bits of the region. -/
def State.hostDdr (s : State) (off : Nat) (op : DdrOp) (f : TlpFault) : State :=
  if !s.pcieAlive then s
  else if f ≠ .none then s.tlpDrop f
  else
    let n := op.size
    let a := s.pci.apbase.toNat + off
    let inBar := decide (off + n ≤ 2 ^ s.pci.pf0.bar4Size * 2 ^ 30)
    match op with
    | .read n =>
      if !s.pf0Memory || s.onlyCrn || !inBar then s.unsupported
      else
        let x := s.ddrRead .host a n
        (match x.2 with
          | some bs => x.1.emit (.hostCompletion (some bs))
          | none => x.1.unsupported)
    | .write d => if !s.pf0Memory || s.onlyCrn || !inBar then s else s.ddrPut .host a d

def execHostDdrAccess (off : Nat) (op : DdrOp) (f : TlpFault) (s : State) : Answer :=
  inRange s (hostDdrOk op) (s.hostDdr off op f)

/-! ### Configuration requests (R491) -/

/-- A base address in a BAR of 2 ^ n bytes: the bits below its size read 0. -/
def barBase (n : Nat) (v : Word) : Word := v >>> n <<< n

/-- A configuration write applied to a function, with the BAR sizes of R486; PF1 has BAR0 alone. -/
def PciFn.config (f : PciFn) (pf1 : Bool) (op : CfgOp) : PciFn :=
  match op with
  | .readId => f
  | .memEn b => { f with memEn := b }
  | .busMaster b => { f with busMaster := b }
  | .msixEn b => { f with msixEn := b }
  | .msixMask b => { f with msixMask := b }
  | .bar0 v => { f with bar0 := barBase (if pf1 then 16 else 26) v }
  | .bar2 v => if pf1 then f else { f with bar2 := barBase 28 v }
  | .bar4 v => if pf1 then f else { f with bar4 := barBase (30 + f.bar4Size) v }
  | .bar4Size n => if pf1 || f.memEn then f else { f with bar4Size := n.val, bar4 := barBase (30 + n.val) f.bar4 }
  | .mps n => { f with mps := n.val }
  | .d3hot b => { f with d3hot := b }

/-- Vendor and device identifiers of a function (R486). -/
def fnId (pf1 : Bool) : Word := if pf1 then 0x32811D9B#64 else 0x32801D9B#64

end Sys2Proof.Machine
end

