-- ==== Sys2Proof/Machine/Power.lean ====
section
/-! DEFINITION. The PWR block (chapter 22): DVFS, Brim's hardware current limit, NAP, temperatures and the trip, loss of the
main rails, and PWR_CTL. What a restart and DOZE do stands in Machine/Restart.lean. -/

namespace Sys2Proof.Machine

/-- The PWR block changed. -/
def State.modPwr (s : State) (f : PwrState → PwrState) : State := { s with pwr := f s.pwr }

/-- The PWR block's event (R517). -/
def State.pwrPost (s : State) (code : Nat) : State := s.postPart code 0xC7 none

/-- Event 0x9078: a PWR write refused. -/
def State.pwrRefuse (s : State) : State := s.pwrPost 0x9078

/-- Whether the blocks outside the always-on domain run and no trip holds the cores. -/
def State.mainUp (s : State) : Bool := decide (s.pwr.mode = .run) && !s.pwr.trip

/-! ### Points (R510) -/

/-- FP and VP of die `d` in a word laid out as PT. -/
def ptFp (w : BitVec 32) (d : Fin 4) : Nat := fld w (8 * d.val) 3
def ptVp (w : BitVec 32) (d : Fin 4) : Nat := fld w (8 * d.val + 4) 3

/-- FP and VP of die `d` set. -/
def ptSet (w : BitVec 32) (d : Fin 4) (vp fp : Nat) : BitVec 32 := setFld w (8 * d.val) 8 (16 * (vp % 8) + fp % 8)

/-- CCLK of a point in tenths of a GHz times 10: MHz. -/
def pointMHz (fp : Nat) : Nat :=
  match fp with
  | 0 => 400 | 1 => 500 | 2 => 600 | 3 => 750 | 4 => 900 | 5 => 1050 | 6 => 1200 | _ => 1350

/-- Every die satisfies FP ≤ VP. -/
def pointsOk (w : BitVec 32) : Bool := (List.finRange 4).all fun d => decide (ptFp w d ≤ ptVp w d)

/-- The bits of TGT that name points. -/
def tgtMask : BitVec 32 := 0x77777777#32

/-- Gauntlet's clock monitor of die `d` takes the new setpoint of CCLK, in the clk of the switch (R511). -/
def State.monClock (s : State) (d : Fin 4) (fp : Nat) : State := s.modMon d fun k => { k with fp := fp }

/-- Gauntlet's voltage monitor of die `d` takes a new setpoint at the start of a voltage change, and accepts the old one beside
it until the regulator has settled or for 100 µs (R511). -/
def State.monRail (s : State) (d : Fin 4) (vp : Nat) : State :=
  s.modMon d fun k => if k.vp = vp then k else { k with vp := vp, other := some (k.vp, s.tb.cnt) }

/-- A DVFS change of die `d` begins: a raise of the voltage waits for the regulator, everything else happens at once,
the frequency never above the voltage's point. -/
def PwrState.startChange (p : PwrState) (tgt : BitVec 32) (d : Fin 4) : PwrState :=
  let vp := ptVp tgt d
  let fp := ptFp tgt d
  if ptVp p.pt d < vp then
    { p with
      pt := ptSet p.pt d (ptVp p.pt d) (min fp (ptFp p.pt d))
      settle := p.settle.set d (some (BitVec.ofNat 8 (16 * vp + fp))) }
  else { p with pt := ptSet p.pt d vp fp, settle := p.settle.set d none }

/-! ### Brim (R512) -/

/-- Causes that hold, as PWR_STAT.BCAUSE. -/
def PwrState.bcause (p : PwrState) : Nat :=
  ofBool (decide (p.ocCause ≠ 0)) + 2 * ofBool p.hbCause + 4 * ofBool p.pinCause

/-- Bits of PWR_STAT.BRIM. -/
def PwrState.brims (p : PwrState) : BitVec 4 := (List.finRange 4).foldl (fun w d => setBit w d.val (p.brim d)) 0

/-- Event 0x5004 of a core whose matrix engine is active when the limit asserts (R208). -/
def State.throttled (s : State) (c : CoreId) : State :=
  if s.cores[c].mxe.ramp ≠ .idle then s.postCore c 0x5004 else s

/-- A cause is added: the event of the cause when it is new, and R208 on the dies newly limited. -/
def State.brimAssert (s : State) (code : Nat) (isNew : Bool) (f : PwrState → PwrState) : State :=
  let old := s.pwr.brims
  let s := s.modPwr f
  let s := if isNew then s.pwrPost code else s
  s.eachCore fun c t => if s.pwr.brim (dieOf c) && !bit old (dieOf c).val then t.throttled c else t

/-- Causes are removed: event 0x9053 when no die is limited any longer. -/
def State.brimRelease (s : State) (f : PwrState → PwrState) : State :=
  let old := s.pwr.brims
  let s := s.modPwr f
  if old ≠ 0 ∧ s.pwr.brims = 0 then s.pwrPost 0x9053 else s

def execBrimOvercurrent (d : Fin 4) (s : State) : Answer :=
  .next (s.brimAssert 0x9050 (!bit s.pwr.ocCause d.val) fun p =>
    { p with ocLow := setBit p.ocLow d.val true, ocCause := setBit p.ocCause d.val true })

def execBrimPinAssert (s : State) : Answer :=
  .next (s.brimAssert 0x9052 (!s.pwr.pinCause) fun p => { p with brimLow := true, pinCause := true })

/-- OC_Cd_N (0 to 3) or BRIM_N (4) has been high for 1 ms. -/
def execBrimClear (pin : Fin 5) (s : State) : Answer :=
  .next (s.brimRelease fun p =>
    if pin.val < 4 then { p with ocLow := setBit p.ocLow pin.val false, ocCause := setBit p.ocCause pin.val false }
    else { p with brimLow := false, pinCause := false })

/-- OC_Cd_N has stayed low for another 100 µs: FP falls by one point, VP stays; a raise in progress gives way. -/
def State.stepDown (s : State) (d : Fin 4) : State :=
  let fp := ptFp s.pwr.pt d
  if !bit s.pwr.ocLow d.val || decide (fp = 0) then s
  else
    ((s.modPwr fun p => { p with
      pt := ptSet p.pt d (ptVp p.pt d) (fp - 1)
      settle := p.settle.set d (p.settle[d].map fun b => setFld b 0 3 (fp - 1)) }).monClock d (fp - 1)).pwrPost 0x9054

def execBrimStepDown (d : Fin 4) (s : State) : Answer := .next (s.stepDown d)

/-- Three power-loop periods have passed without a heartbeat (R463). -/
def State.heartbeatMiss (s : State) : State :=
  let s := s.brimAssert 0x9051 (!s.pwr.hbCause) fun p => { p with hbCause := true }
  { s with crn := { s.crn with hbMissed := true } }

def execHeartbeatMiss (s : State) : Answer := .next s.heartbeatMiss

/-- A write of PWR_HB (R516). -/
def State.hbWrite (s : State) (ini : Ini) (h : Half) (v : Word) : State :=
  if ini ≠ 0x70 then s.pwrRefuse
  else if bit (carried h v) 0 then s.brimRelease fun p => { p with hbCause := false }
  else s

def execPwrHb (ini : Initiator) (h : Half) (v : Word) (s : State) : Answer := .next (s.hbWrite ini h v)

/-! ### DVFS (R510, R516) -/

/-- Whether a target raises FP of a die that Brim limits. -/
def PwrState.raisesLimited (p : PwrState) (tgt : BitVec 32) : Bool :=
  (List.finRange 4).any fun d => p.brim d && decide (ptFp p.pt d < ptFp tgt d)

/-- A change of die `d` towards the points of `tgt` begins, and Gauntlet's monitors learn of it. -/
def State.pointChange (tgt : BitVec 32) (s : State) (d : Fin 4) : State :=
  let s := (s.modPwr fun p => p.startChange tgt d).monRail d (ptVp tgt d)
  s.monClock d (ptFp s.pwr.pt d)

/-- A write of PWR_DVFS. -/
def State.dvfsWrite (s : State) (ini : Ini) (h : Half) (v : Word) : State :=
  let tgt : BitVec 32 := (mergeHalf h s.pwr.dvfs v).setWidth 32 &&& tgtMask
  if ini ≠ 0x70 ∨ !pointsOk tgt ∨ s.pwr.raisesLimited tgt then s.pwrRefuse
  else (List.finRange 4).foldl (State.pointChange tgt) (s.modPwr fun p => { p with dvfs := tgt.setWidth 64 })

def execPwrDvfsWrite (ini : Initiator) (h : Half) (v : Word) (s : State) : Answer := .next (s.dvfsWrite ini h v)

/-- The regulator of die `d` has settled, and only one voltage window holds (R511); at a raised voltage VP, then CCLK. -/
def State.settled (s : State) (d : Fin 4) : State :=
  let s := s.modMon d fun k => { k with other := none }
  match s.pwr.settle[d] with
  | none => s
  | some b =>
    let s := s.modPwr fun p => { p with
      pt := ptSet p.pt d (fld b 4 3) (if p.brim d then min (fld b 0 3) (ptFp p.pt d) else fld b 0 3)
      settle := p.settle.set d none }
    s.monClock d (ptFp s.pwr.pt d)

def execDvfsVoltageSettled (d : Fin 4) (s : State) : Answer := .next (s.settled d)

/-! ### NAP (R506) -/

/-- PWR_CTL fields. -/
def PwrState.napEn (p : PwrState) : Bool := bit p.ctl 16
def PwrState.cap (p : PwrState) : Nat := fld p.ctl 0 10

/-- Cores of a compute die. -/
def dieCores (d : Fin 4) : List CoreId := (List.finRange 32).filter fun c => dieOf c = d

/-- Whether a launch slot of a core is PENDING. -/
def CoreSt.waiting (k : CoreSt) : Bool := k.spd.slots.toList.any fun l => decide (l.state = .pending)

/-- Whether core `c` lets its die nap: no task, no PENDING slot, nothing in flight, no DMA channel busy. -/
def State.coreIdle (s : State) (c : CoreId) : Bool :=
  let k := s.cores[c]
  decide (k.seq.phase = .idle) && !k.waiting && decide (k.inFlight = 0) && !s.dma.cores[c].toList.any fun x => x.busy

/-- A die enters NAP, and Gauntlet's clock monitor of it checks that its CCLK is stopped (R507). -/
def State.napEnter (s : State) (d : Fin 4) : State :=
  if s.mainUp && s.pwr.napEn && (dieCores d).all s.coreIdle then
    (s.modPwr fun p => { p with nap := setBit p.nap d.val true }).modMon d fun k => { k with stopped := true }
  else s

def execNapEnter (d : Fin 4) (s : State) : Answer := .next (s.napEnter d)

/-- A die wakes on a PENDING slot of its cores or when NAPEN is clear; the other causes wake it in their own commands. -/
def State.napWake (s : State) (d : Fin 4) : State :=
  if !s.pwr.napEn || (dieCores d).any fun c => s.cores[c].waiting then s.wakeDie d else s

def execNapWake (d : Fin 4) (s : State) : Answer := .next (s.napWake d)

/-! ### Everything stops (R504, R514) -/

/-- Every engine and DMA transfer stops, the cores are held in reset, and every DDR channel goes into self-refresh. -/
def State.stopAll (s : State) : State :=
  let s := s.eachCore fun c t => t.holdCore c
  { s with
    dma := { s.dma with dies := Vector.replicate 2 (Vector.replicate 16 DmaChan.reset) }
    ddr := { s.ddr with selfRefresh := true } }

/-- PWROK_MAIN falls; in DOZE that is no fault (R504, R508). -/
def State.powerDown (s : State) : State :=
  match s.pwr.mode with
  | .off => s
  | .aoOnly => s.modPwr fun p => { p with main := false }
  | .doze => s.modPwr fun p => { p with main := false }
  | _ => (s.stopAll.modPwr fun p => { p with main := false, mode := .aoOnly, settle := Vector.replicate 4 none }).pwrPost 0x9070

def execPowerDown (s : State) : Answer := .next s.powerDown

/-! ### Temperature (R513, R514) -/

/-- Trip temperature of a sensor in 1/16 degree C. -/
def tripAt (k : Fin 24) : Int := if k.val = 23 then 1600 else 1760

/-- Throttle limit of a sensor in 1/16 degree C. -/
def throttleAt (k : Fin 24) : Int := if k.val < 16 then 1520 else if k.val = 23 then 1360 else 1600

/-- The trip: an unfinished DVFS change is abandoned. -/
def State.trip (s : State) : State :=
  (s.stopAll.modPwr fun p => { p with trip := true, settle := Vector.replicate 4 none }).pwrPost 0x9060

/-- The duplicated trip comparators or Brim logic disagree: event 0x9078, routed to Gauntlet (R517). -/
def State.pwrMismatch (s : State) : State := if s.mainUp then s.postFull 0x9078 0xC7 none true else s

/-- Every sensor is sampled, raw values in 1/16 degree C; `off` gives the user offsets (R474). -/
def State.thermalSample (s : State) (raw : Vector (BitVec 16) 24) (off : Fin 24 → Int) : State :=
  match s.pwr.mode with
  | .off => s
  | .aoOnly => s
  | .doze => s
  | _ =>
    let fact := Vector.ofFn fun k : Fin 24 => raw[k].toInt + (Config.factoryTemp k.val).toInt
    let cool := (List.finRange 24).all fun k => decide (fact[k] ≤ tripAt k - 320)
    let hot := (List.finRange 24).any fun k => decide (tripAt k ≤ fact[k])
    let s := s.modPwr fun p => { p with
      temps := fact
      eff := Vector.ofFn fun k : Fin 24 => fact[k] + off k
      cool := if cool then some (p.cool.getD s.tb.cnt) else none }
    if hot && !s.pwr.trip then s.trip else s

/-! ### The always-on clock (R509) -/

def execAoClockLoss (s : State) : Answer :=
  .next (if s.pwr.aoClkLost ∨ s.pwr.mode = .off then s else (s.modPwr fun p => { p with aoClkLost := true }).pwrPost 0x9074)

/-! ### DOZE and PWR_CTL (R508, R516) -/

/-- A write of PWR_CTL.DOZE. -/
def State.dozeEnter (s : State) (ini : Ini) : State :=
  if !gntOwner ini then s.pwrRefuse
  else if s.pwr.mode ≠ .run then s
  else if s.armed || (List.finRange 32).any fun c => decide (s.cores[c].seq.phase ≠ .idle) then s.pwrPost 0x9073
  else
    let s := (List.finRange 4).foldl State.wakeDie s.linkDown
    ({ s with
      pwr := { s.pwr with mode := .doze }
      ddr := { s.ddr with selfRefresh := true } } : State).pwrPost 0x9071

def execDozeEnter (ini : Initiator) (s : State) : Answer := .next (s.dozeEnter ini)

/-- Writable bits of PWR_CTL, less CAP for host PF0. -/
def ctlMask (crown : Bool) : Word := if crown then 0x00000000FF0103FF#64 else 0x00000000FF010000#64

/-- A write of PWR_CTL. -/
def State.pwrCtlWrite (s : State) (ini : Ini) (h : Half) (v : Word) : State :=
  let old := s.pwr.ctl
  let new := maskWrite (ctlMask (decide (ini = 0x70))) old (mergeHalf h old v)
  let cap := fld (mergeHalf h old v) 0 10
  if !gntOwner ini then s.pwrRefuse
  else if ini = 0x70 ∧ !between 300 cap 620 then s.pwrRefuse
  else
    let s := if ini = 0x60 ∧ cap ≠ s.pwr.cap then s.pwrRefuse else s
    let s := s.modPwr fun p => { p with ctl := new }
    let s := if bit new 16 then s else (List.finRange 4).foldl State.wakeDie s
    if bit (carried h v) 32 then s.dozeEnter ini else s

/-! ### Registers as they read -/

/-- PWR_STAT. -/
def PwrState.stat (p : PwrState) : Word :=
  pack [(43, 1, ofBool p.trip), (40, 3, p.bcause), (36, 4, p.brims.toNat), (32, 4, p.nap.toNat), (0, 32, p.pt.toNat)]

end Sys2Proof.Machine
end

