-- ==== Sys2Proof/Machine/Crown.lean ====
section
/-! DEFINITION. Crown's own work (chapter 20): the start from ROM, load, the power and thermal loops, DIMM temperatures,
telemetry, and the lapse of a debug challenge. -/

namespace Sys2Proof.Machine

/-- Crown changed. -/
def State.modCrn (s : State) (f : CrnState → CrnState) : State := { s with crn := f s.crn }

/-- Crown's event (R483). -/
def State.crnPost (s : State) (code : Nat) : State := s.postPart code 0x70 none

/-! ### The image (R465, R466) -/

/-- Bytes of an image; none is the factory's. -/
def imgBytes (i : Option (List Byte)) : List Byte := i.getD Config.crnImage

/-- A number of `n` bytes at `o`. -/
def numAt (bs : List Byte) (o n : Nat) : Nat := leNat ((bs.drop o).take n)

def imgSvn (bs : List Byte) : Nat := numAt bs 6 1
def imgRaise (bs : List Byte) : Bool := (numAt bs 7 1).testBit 0
def imgVer (bs : List Byte) : Nat := numAt bs 8 2
def imgLen (bs : List Byte) : Nat := numAt bs 0x0C 4

/-- MAGIC, HVER, reserved fields and LEN. -/
def imgHeaderOk (bs : List Byte) : Bool :=
  decide (numAt bs 0 4 = 0x46574E43) && decide (numAt bs 4 2 = 1) && decide (imgSvn bs ≤ 63) && decide (numAt bs 7 1 < 2) &&
    decide (numAt bs 0x0A 2 = 0) && decide (numAt bs 0x10 0x30 = 0) && between 64 (imgLen bs) 4193920 &&
    decide (imgLen bs + 384 ≤ bs.length)

/-- The result a bad image gives: BADSIG 5 or OLDSVN 6. -/
def imgFault (bs : List Byte) (minSvn : Nat) : Option Nat :=
  if !imgHeaderOk bs then some 5
  else if imgSvn bs < minSvn then some 6
  else if !Config.crnSigOk (bs.take (imgLen bs)) ((bs.drop (imgLen bs)).take 384) then some 5
  else none

/-- Whether the image in flash passes the ROM's checks; the factory's does. -/
def CrnState.imageOk (c : CrnState) : Bool :=
  !c.imageBad && (match c.image with | none => true | some bs => (imgFault bs c.minSvn).isNone)

/-- The firmware starts from the image in flash, and RAISE acts; or recovery is entered. -/
def CrnState.rom (c : CrnState) (atStart : Bool) : CrnState :=
  if c.imageOk then
    let bs := imgBytes c.image
    { c with mode := .running, atStart := false, running := c.image, minSvn := if imgRaise bs then max c.minSvn (imgSvn bs) else c.minSvn }
  else { c with mode := .recovery, atStart := atStart }

/-- A start of Crown from ROM (R466, R467). -/
def State.romStart (s : State) (atStart : Bool) : State :=
  let s := s.modCrn fun c => { c.rom atStart with loopAt := s.tb.cnt, thermAt := s.tb.cnt }
  if s.crn.mode = .recovery then s.crnPost 0x9013 else s

/-- STATE of CRN_STAT. -/
def CrnState.code (c : CrnState) : Nat :=
  match c.mode with
  | .rom => 0
  | .running => if c.update.isSome then 4 else 2
  | .recovery => 3

/-! ### Load (R462) -/

/-- Crown's load over the last 100 ms. -/
def State.loadCheck (s : State) (load : Nat) : State :=
  let c := s.crn
  let low : Option Word := if load < 70 then some (c.lowSince.getD s.tb.cnt) else none
  let s := s.modCrn fun c => { c with load := load, lowSince := low }
  if !c.coal && decide (80 < load) then (s.modCrn fun c => { c with coal := true }).crnPost 0x9002
  else match low with
    | some t =>
      if c.coal && decide (500000000 ≤ (s.tb.cnt - t).toNat) then (s.modCrn fun c => { c with coal := false }).crnPost 0x9003 else s
    | none => s

def execCrownLoadCheck (load : Fin 101) (s : State) : Answer := .next (if s.crownRuns then s.loadCheck load.val else s)

/-! ### Power and thermal loops (R463, R482) -/

/-- The point that both loops agree on for die `d`: the lower one, and no raise while Brim limits the die. -/
def State.wanted (s : State) (d : Fin 4) : Nat :=
  let q := min s.crn.pts[d].val s.crn.thermal[d].val
  if s.pwr.brim d then min q (ptFp s.pwr.pt d) else q

/-- Crown writes PWR_DVFS. -/
def State.setPoints (s : State) : State :=
  let tgt : BitVec 32 := (List.finRange 4).foldl (fun w d => ptSet w d (s.wanted d) (s.wanted d)) 0
  s.dvfsWrite 0x70 .full (tgt.setWidth 64)

/-- The lowest CCLK of the four compute dies in MHz. -/
def PwrState.lowClk (p : PwrState) : Nat := (List.finRange 4).foldl (fun m d => min m (pointMHz (ptFp p.pt d))) 1350

/-- What the next telemetry record gathers. -/
def State.gather (s : State) : State :=
  s.modCrn fun c => { c with
    clkMin := some (min s.pwr.lowClk (c.clkMin.getD 1350))
    sawBrim := c.sawBrim || decide (s.pwr.brims ≠ 0)
    sawThrot := c.sawThrot || (List.finRange 4).any fun d => decide (c.thermal[d].val < c.pts[d].val) }

/-- A power-loop period: the points that hold the cap are the environment's, for the rail readings they rest on are. -/
def State.powerLoop (s : State) (pts : Vector (Fin 8) 4) : State :=
  let s := if s.crn.hbMissed then (s.modCrn fun c => { c with hbMissed := false }).crnPost 0x9020 else s
  let s := (s.modCrn fun c => { c with pts := pts, loopAt := s.tb.cnt }).setPoints
  s.gather.hbWrite 0x70 .full 1

def execPowerLoop (pts : Vector (Fin 8) 4) (s : State) : Answer := .next (if s.crownRuns then s.powerLoop pts else s)

/-- How far each sensor of a compute die is above its throttle limit, in 1/16 degree C (R513). -/
def dieExcess (p : PwrState) (d : Fin 4) : List Int :=
  (List.range 4).map fun i => let k : Fin 24 := Fin.ofNat 24 (4 * d.val + i); p.eff[k] - throttleAt k

/-- The thermal loop on one die: one point down while a sensor exceeds its limit; one point up once all have been 5 degrees
below it for 1 s. -/
def State.thermalDie (s : State) (d : Fin 4) : State :=
  let c := s.crn
  let ts := dieExcess s.pwr d
  let was := decide (c.thermal[d].val < c.pts[d].val)
  let cool : Option Word := if ts.all fun t => decide (t ≤ -80) then some (c.coolAt[d].getD s.tb.cnt) else none
  let long : Bool := match cool with | some t => decide (500000000 ≤ (s.tb.cnt - t).toNat) | none => false
  let b : Fin 8 :=
    if ts.any fun t => decide (0 < t) then Fin.ofNat 8 (min c.thermal[d].val c.pts[d].val - 1)
    else if long then Fin.ofNat 8 (min 7 (c.thermal[d].val + 1))
    else c.thermal[d]
  let s := s.modCrn fun c => { c with thermal := c.thermal.set d b, coolAt := c.coolAt.set d cool }
  let now := decide (b.val < c.pts[d].val)
  if now && !was then s.crnPost 0x9058 else if was && !now then s.crnPost 0x9059 else s

def State.thermalLoop (s : State) : State :=
  ((List.finRange 4).foldl State.thermalDie (s.modCrn fun c => { c with thermAt := s.tb.cnt })).setPoints.gather

def execThermalLoop (s : State) : Answer := .next (if s.crownRuns then s.thermalLoop else s)

/-- User offset of temperature sensor k in 1/16 degree C (R474). -/
def CrnState.tempOffset (c : CrnState) (k : Fin 24) : Int := toSigned 16 (leNat (SMap.get [] c.userCal k.val))

def State.sampleTemps (s : State) (raw : Vector (BitVec 16) 24) : State :=
  let s := s.thermalSample raw s.crn.tempOffset
  s.modCrn fun c => { c with tmax := Vector.ofFn fun k : Fin 24 => max c.tmax[k] s.pwr.eff[k] }

def execThermalSample (t : ThermalReading) (s : State) : Answer :=
  .next (let u := s.sampleTemps t.raw; if t.mismatch then u.pwrMismatch else u)

/-- Every DIMM's temperature is read (R334). -/
def State.dimmTemps (s : State) (t : Vector Byte 16) : State :=
  (List.finRange 16).foldl (fun x ch => x.modChan ch fun c => { c with temp := t[ch] }) s

def execDimmTempRead (t : Vector Byte 16) (s : State) : Answer := .next (if s.crownRuns then s.dimmTemps t else s)

/-! ### Telemetry (R481) -/

/-- The flags of a record. -/
def State.telemFlags (s : State) : Nat :=
  let c := s.crn
  let throt := (List.finRange 4).any fun d => decide (c.thermal[d].val < c.pts[d].val)
  ofBool c.coal + 2 * ofBool (c.sawBrim || decide (s.pwr.brims ≠ 0)) + 4 * ofBool (c.sawThrot || throt) + 8 * ofBool c.gap

/-- The record of now. -/
def State.telemRecord (s : State) (pwr ic vc : BitVec 16) : List Byte :=
  let c := s.crn
  let clk := if c.coal then min s.pwr.lowClk (c.clkMin.getD 1350) else s.pwr.lowClk
  let temp (k : Fin 24) : Int := if c.coal then max c.tmax[k] s.pwr.eff[k] else s.pwr.eff[k]
  leBytes 8 s.tb.cnt.toNat ++ leBytes 8 (s.domTime 0).toNat ++ leBytes 2 pwr.toNat ++ leBytes 2 ic.toNat ++ leBytes 2 vc.toNat ++
    leBytes 2 clk ++ leBytes 1 c.load ++ leBytes 1 s.telemFlags ++ leBytes 6 0 ++
    (List.finRange 24).flatMap (fun k => leBytes 2 (wrapN 16 (temp k))) ++ s.ddr.ch.toList.map (fun x => x.temp) ++ leBytes 32 0

/-- A record is written: kept, and placed in the ring. -/
def State.telemetry (s : State) (pwr ic vc : BitVec 16) : State :=
  let r := s.telemRecord pwr ic vc
  let s := s.modCrn fun c => { c with newest := r, gap := false, tmax := s.pwr.eff, clkMin := none, sawBrim := false, sawThrot := false }
  match s.crn.ring with
  | none => s
  | some g =>
    let s := s.ddrPut .crown (g.base + 128 * (s.crn.twidx.toNat % g.entries)) r
    s.modCrn fun c => { c with twidx := c.twidx + 1 }

def execTelemetrySample (pwr ic vc : BitVec 16) (s : State) : Answer :=
  .next (if s.crownRuns && s.serves .telemetry then s.telemetry pwr ic vc else s)

/-! ### Debug challenge (R472) -/

/-- Whether the challenge is still valid: 60 s. -/
def State.chalValid (s : State) : Bool :=
  match s.crn.chal with
  | some c => decide ((s.tb.cnt - c.cnt).toNat < 30000000000)
  | none => false

def execDbgChallengeExpire (s : State) : Answer := .next (if s.chalValid then s else s.modCrn fun c => { c with chal := none })

/-! ### Registers as they read -/

/-- CRN_STAT. -/
def CrnState.stat (c : CrnState) : Word :=
  let bs := imgBytes c.running
  let up := decide (c.mode = .running)
  pack [(48, 16, if up then imgVer bs else 0), (40, 8, if up then imgSvn bs else 0), (32, 8, c.minSvn), (24, 8, c.rst), (16, 8, c.load),
    (7, 1, ofBool c.coal), (6, 1, ofBool Config.grade), (0, 3, c.code)]

/-- CRN_DBG. -/
def State.dbgWord (s : State) : Word :=
  pack [(8, 8, s.crn.refn), (2, 2, s.crn.scope.toNat), (1, 1, ofBool s.crn.unlocked), (0, 1, ofBool s.chalValid)]

end Sys2Proof.Machine
end

