-- ==== Sys2Proof/Machine/CrnMail.lean ====
section
/-! DEFINITION. Crown's mailbox: the two channels, the order in which requests are executed, and responses (R476 to R478,
R480); and its watchdog (R464). -/

namespace Sys2Proof.Machine

/-- A result code with the response's data. -/
abbrev MbxRes := Nat × List Byte

/-- A channel. -/
def CrnState.chan (c : CrnState) (smb : Bool) : MbxChan := if smb then c.smb else c.pcie

def CrnState.setChan (c : CrnState) (smb : Bool) (x : MbxChan) : CrnState :=
  if smb then { c with smb := x } else { c with pcie := x }

/-- A channel of Crown changed. -/
def State.modMbx (s : State) (smb : Bool) (f : MbxChan → MbxChan) : State :=
  s.modCrn fun c => c.setChan smb (f (c.chan smb))

/-- The request executed next: in acceptance order, alternating between the channels when both hold one. -/
def CrnState.nextReq (c : CrnState) : Option (Bool × MbxReq) :=
  match c.pcie.queue, c.smb.queue with
  | [], [] => none
  | r :: _, [] => some (false, r)
  | [], r :: _ => some (true, r)
  | p :: _, q :: _ => some (if c.tokSmb then (true, q) else (false, p))

/-- Responses of the PCIe channel that the host has not read. -/
def CrnState.unread (c : CrnState) : Nat := (c.rwidx - c.rridx).toNat

/-- Requests outstanding on the PCIe channel, and on the SMBus channel, whose BUSY answers do not count. -/
def CrnState.outstanding (c : CrnState) : Nat := c.pcie.queue.length + c.unread
def CrnState.smbOutstanding (c : CrnState) : Nat := c.smb.queue.length + (c.smbRsp.filter fun r => decide (r.res ≠ 1)).length

/-- A response is written (R476, R480). -/
def State.respond (s : State) (smb : Bool) (r : MbxReq) (x : MbxRes) : State :=
  let rsp : MbxRsp := ⟨r.opc, r.tag, BitVec.ofNat 8 x.1, x.2⟩
  if smb then s.modCrn fun c => { c with smbRsp := c.smbRsp ++ [rsp] }
  else
    (s.modCrn fun c => { c with
      rspRing := SMap.insert (c.rwidx.toNat % 64) rsp c.rspRing, rwidx := c.rwidx + 1 }).post 0xA010 0xC1

/-- The request executed next leaves its queue with a response. -/
def State.answer (s : State) (smb : Bool) (r : MbxReq) (x : MbxRes) : State :=
  ((s.modMbx smb fun q => { q with queue := q.queue.drop 1 }).modCrn fun c => { c with tokSmb := !smb }).respond smb r x

/-- The opcodes of R478. -/
def mbxOpcodes : List Nat :=
  [1, 2, 3, 4, 5, 0x10, 0x11, 0x18, 0x19, 0x20, 0x21, 0x28, 0x29, 0x30, 0x31, 0x38, 0x40, 0x48, 0x49]

/-- Those that SMBus accepts, and those that recovery answers. -/
def mbxOnSmb (o : Nat) : Bool := !([0x10, 0x21, 0x29, 0x30, 0x40, 0x48, 0x49] : List Nat).contains o
def mbxRecovery (o : Nat) : Bool := [1, 0x11, 0x18, 0x19].contains o

/-- Whether Crown or the ROM in recovery executes requests. -/
def State.mbxServes (s : State) : Bool := decide (s.crn.mode ≠ .rom) && decide (s.pwr.mode = .run)

/-- Whether the opcode, the channel and the state permit a request. -/
def State.mbxAllowed (s : State) (smb : Bool) (o : Nat) : Bool :=
  (!smb || mbxOnSmb o) && (if s.crn.mode = .recovery then mbxRecovery o else decide (o ≠ 0x18) && decide (o ≠ 0x19))

/-- Requests under unknown opcodes at the front are answered NOTALLOWED; `fuel` bounds their number. -/
def State.mbxFlush : Nat → State → State
  | 0, s => s
  | fuel + 1, s =>
    match s.crn.nextReq with
    | none => s
    | some (b, r) => if mbxOpcodes.contains r.opc.toNat then s else State.mbxFlush fuel (s.answer b r (3, []))

/-- The same while Crown serves the mailbox and no work of a higher class is ready (R461). -/
def State.mbxSettle (s : State) : State := if s.mbxServes && s.serves .requests then State.mbxFlush 36 s else s

/-- The request with opcode `opc` executes if it is the one due; `f` is its effect and result. -/
def State.mbxExec (s : State) (opc : Nat) (f : Bool → MbxReq → State → State × MbxRes) : State :=
  let s := s.mbxSettle
  if !s.mbxServes || !s.serves .requests then s
  else match s.crn.nextReq with
    | none => s
    | some (b, r) =>
      if r.opc.toNat ≠ opc then s
      else if !s.mbxAllowed b opc then (s.answer b r (3, [])).mbxSettle
      else let x := f b r s; (x.1.answer b r x.2).mbxSettle

/-! ### Submission (R476, R480) -/

/-- LEN of a request header. -/
def reqLen (m : Mem) : Nat := m.num 4 2

/-- The request that the 256 bytes of MBX_REQ hold. -/
def reqOf (m : Mem) : MbxReq := ⟨BitVec.ofNat 16 (m.num 0 2), BitVec.ofNat 16 (m.num 2 2), m.read 8 (reqLen m)⟩

/-- A reserved encoding in the header or in bytes 0xFC to 0xFF. -/
def reqBad (m : Mem) : Bool := decide (244 < reqLen m) || decide (m.num 6 2 ≠ 0) || decide (m.num 0xFC 4 ≠ 0)

/-- Bytes written to MBX_REQ; covering bytes 0xFC to 0xFF submits. -/
def State.mbxWrite (s : State) (ini : Ini) (off : Nat) (data : List Byte) : State :=
  if ini ≠ 0x60 ∨ s.pwr.mode ≠ .run then s
  else
    let m := s.crn.reqArea.write off data
    let s := s.modCrn fun c => { c with reqArea := m }
    if !covers off data.length 0xFC 0xFF then s
    else
      let r := reqOf m
      let res := if reqBad m then 2 else if 32 ≤ s.crn.outstanding then 1 else 0
      let s := s.modCrn fun c => { c with
        lastTag := r.tag, lastRes := res, busyN := if res = 1 then satAdd 0xFFFF c.busyN 1 else c.busyN }
      if res = 0 then (s.modMbx false fun q => { q with queue := q.queue ++ [r] }).mbxSettle else s

def execMbxSubmit (ini : Initiator) (off : Nat) (data : List Byte) (s : State) : Answer :=
  inRange s (bytesIn off data 256) (s.mbxWrite ini off data)

/-- A write of MBX_IDX: RRIDX, ignored beyond RWIDX. -/
def State.mbxIdxWrite (s : State) (ini : Ini) (h : Half) (v : Word) : State :=
  if ini ≠ 0x60 ∨ h = .high then s
  else
    let r : BitVec 16 := BitVec.ofNat 16 (fld v 16 16)
    if (s.crn.rwidx - r).toNat ≤ s.crn.unread then s.modCrn fun c => { c with rridx := r } else s

/-- An SMBus Block Write. A bad PEC, another command code or a block without a header is not taken; more data than a request
holds is beyond its limits. -/
def State.smbusWrite (s : State) (pecOk : Bool) (code : Byte) (data : List Byte) : State :=
  if !pecOk || decide (code ≠ 1) || decide (data.length < 8) || decide (s.pwr.mode ≠ .run) then s
  else
    let m : Mem := Mem.write [] 0 data
    let r : MbxReq := ⟨BitVec.ofNat 16 (m.num 0 2), BitVec.ofNat 16 (m.num 2 2), data.drop 8⟩
    if 4 ≤ s.crn.smbOutstanding then s.respond true r (1, [])
    else if decide (252 < data.length) || decide (m.num 4 2 ≠ data.length - 8) || decide (m.num 6 2 ≠ 0) then s.respond true r (2, [])
    else (s.modMbx true fun q => { q with queue := q.queue ++ [r] }).mbxSettle

def execSmbusBlockWrite (pecOk : Bool) (code : Byte) (data : List Byte) (s : State) : Answer :=
  inRange s (decide (data.length ≤ 255)) (s.smbusWrite pecOk code data)

/-- A response as bytes: header, then data. -/
def MbxRsp.bytes (r : MbxRsp) : List Byte :=
  leBytes 2 r.opc.toNat ++ leBytes 2 r.tag.toNat ++ [r.res, 0] ++ leBytes 2 r.data.length ++ r.data

/-- An SMBus Block Read: the oldest unread response, or an empty block. -/
def State.smbusRead (s : State) : State :=
  match s.crn.smbRsp with
  | [] => s.emit (.smbus [])
  | r :: rest => (s.modCrn fun c => { c with smbRsp := rest }).emit (.smbus r.bytes)

def execSmbusBlockRead (s : State) : Answer := .next (if s.pwr.mode = .run then s.smbusRead else s)

/-! ### Watchdog (R464) -/

/-- An unfinished firmware write ends: with the erase begun no valid image remains (R468). -/
def CrnState.cutUpdate (c : CrnState) (erased : Bool) : CrnState :=
  { c with update := none, imageBad := c.imageBad || (c.update.isSome && erased) }

/-- Crown alone restarts from ROM; `busy` says that the request at the front was executing, `erased` that a firmware write
had begun to erase. -/
def State.watchdog (s : State) (busy erased : Bool) : State :=
  if s.crn.mode = .rom ∨ s.pwr.mode ≠ .run then s
  else
    let s := match busy, s.crn.nextReq with
      | true, some (b, r) => s.answer b r (8, [])
      | _, _ => s
    let s := s.modCrn fun c => { (c.cutUpdate erased) with
      chal := none, gap := true, rst := satAdd 0xFF c.rst 1 }
    ((s.romStart (s.crn.mode = .recovery && s.crn.atStart)).crnPost 0x9001).mbxSettle

def execCrownWatchdog (busy erased : Bool) (s : State) : Answer := .next (s.watchdog busy erased)

/-! ### Registers as they read -/

def CrnState.lastWord (c : CrnState) : Word := pack [(32, 16, c.lastTag.toNat), (16, 16, c.busyN), (0, 2, c.lastRes)]
def CrnState.idxWord (c : CrnState) : Word := pack [(32, 6, c.outstanding), (16, 16, c.rridx.toNat), (0, 16, c.rwidx.toNat)]

/-- The 256 bytes of MBX_RSP[k]. -/
def CrnState.rspBytes (c : CrnState) (k : Nat) : List Byte :=
  let bs := match c.rspRing.find? fun e => e.1 = k with | some e => e.2.bytes | none => []
  (bs ++ List.replicate 256 0).take 256

end Sys2Proof.Machine
end

