-- ==== Sys2Proof/Machine/CrnCommands.lean ====
section
/-! DEFINITION. The mailbox commands (R467 to R475, R478, R479, R481), but for RECOVER_COMMIT, which restarts Crown
(Machine/Restart.lean). The layout of DATA is the model's own: the fields that R478 names, in its order, little-endian
(DESIGN CHOICE: the spec gives no offsets). -/

namespace Sys2Proof.Machine

/-- A field of a request's data. -/
def MbxReq.num (r : MbxReq) (o n : Nat) : Nat := numAt r.data o n

/-- A request whose data must have exactly `n` bytes. -/
def MbxReq.sized (r : MbxReq) (n : Nat) (s : State) (f : State × MbxRes) : State × MbxRes :=
  if r.data.length = n then f else (s, 2, [])

/-- A result of `bs` in a channel's result buffer, under the request's TAG. -/
def State.setResult (s : State) (smb : Bool) (r : MbxReq) (bs : List Byte) : State × MbxRes :=
  (s.modMbx smb fun q => { q with result := q.result.write 0 (bs.take 4096), resTag := some r.tag }, 0, [])

/-! ### Identity (R469, R478) -/

/-- GET_ID: DEVID, grade, FWVER, SVN, MINSVN, STATE. -/
def State.idData (s : State) : List Byte :=
  let bs := imgBytes s.crn.running
  let up := decide (s.crn.mode = .running)
  leBytes 8 Config.deviceId.toNat ++ leBytes 1 (ofBool Config.grade) ++ leBytes 2 (if up then imgVer bs else 0) ++
    leBytes 1 (if up then imgSvn bs else 0) ++ leBytes 1 s.crn.minSvn ++ leBytes 1 s.crn.code

def execGetId (s : State) : Answer := .next (s.mbxExec 1 fun _ r s => r.sized 0 s (s, 0, s.idData))

/-- GET_CERT. -/
def execGetCert (s : State) : Answer :=
  .next (s.mbxExec 2 fun b r s => r.sized 0 s (s.setResult b r ((List.range 2048).map Config.cert)))

/-! ### Attestation (R470, R471) -/

/-- Words as bytes. -/
def wordBytes (ws : List Word) : List Byte := ws.flatMap fun w => leBytes 8 w.toNat

/-- The measured content of index 4: Gauntlet. -/
def GntState.measured (g : GntState) : List Byte :=
  leBytes 1 g.mode.code ++ leBytes 8 g.gctlWord.toNat ++ (g.strm.toList.flatMap fun t => wordBytes ((List.range 4).map t.word)) ++
    (g.gpat.toList.flatMap fun w => leBytes 32 w.toNat) ++ g.store.read 0 65536

/-- The measured content of index 5: memory, slots, tables, cores and partitions. -/
def State.measured5 (s : State) : List Byte :=
  wordBytes s.ddr.rgn.toList ++ wordBytes s.ddr.bw.toList ++ leBytes 16 s.ing.slotmap.toNat ++
    (s.nmg.tab.toList.flatMap fun t => leBytes 64 t.toNat) ++ wordBytes s.nmg.hseg.toList ++
    wordBytes [s.crn.coreAv.setWidth 64, s.flt.peff]

/-- The measured content of index 7: user calibration, then stored configuration, each item with its number. -/
def CrnState.measured (c : CrnState) : List Byte :=
  (c.userCal.flatMap fun e => leBytes 2 e.1 ++ e.2) ++ c.stored.flatMap fun e => leBytes 2 e.1 ++ leBytes 16 e.2.toNat

/-- Measurement `i`. -/
def State.measurement (s : State) (i : Nat) : List Byte :=
  match i with
  | 0 => let bs := imgBytes s.crn.running; sha256 (bs.take (imgLen bs))
  | 1 => (List.range 32).map Config.crnRomHash
  | 2 => s.clo.fwHash
  | 3 => (s.clo.phash ++ List.replicate 32 0).take 32
  | 4 => sha256 s.gnt.measured
  | 5 => sha256 s.measured5
  | 6 => (List.range 32).map (Config.fuseHash s.crn.minSvn)
  | _ => sha256 s.crn.measured

/-- Bytes 0x000 to 0x17F of the report. -/
def State.report (s : State) (nonce : List Byte) : List Byte :=
  let bs := imgBytes s.crn.running
  leBytes 4 0x54415943 ++ leBytes 2 1 ++ leBytes 1 (ofBool Config.grade) ++
    leBytes 1 (ofBool s.crn.unlocked + 2 * ofBool s.armed + 4 * ofBool s.clo.nofw) ++ leBytes 8 Config.deviceId.toNat ++ nonce ++
    leBytes 8 s.tb.cnt.toNat ++ leBytes 1 (imgSvn bs) ++ leBytes 1 s.crn.minSvn ++ leBytes 2 (imgVer bs) ++ leBytes 4 0 ++
    (List.range 8).flatMap s.measurement ++ leBytes 64 0

/-- ATTEST. The signature's salt is random. -/
def State.attest (s : State) (smb : Bool) (r : MbxReq) : State × MbxRes :=
  let bs := s.report r.data
  let x := s.drawBytes 384
  x.2.setResult smb r (bs ++ x.1)

def execAttest (s : State) : Answer := .next (s.mbxExec 3 fun b r s => r.sized 32 s (s.attest b r))

/-! ### Buffers (R477) -/

/-- BUF_READ: TAG, offset, length, 2 bytes each. -/
def State.bufRead (s : State) (smb : Bool) (r : MbxReq) : State × MbxRes :=
  let q := s.crn.chan smb
  if q.resTag ≠ some (BitVec.ofNat 16 (r.num 0 2)) then (s, 7, [])
  else if 240 < r.num 4 2 ∨ 4096 < r.num 2 2 + r.num 4 2 then (s, 2, [])
  else (s, 0, q.result.read (r.num 2 2) (r.num 4 2))

def execBufRead (s : State) : Answer := .next (s.mbxExec 4 fun b r s => r.sized 6 s (s.bufRead b r))

/-- BUF_WRITE: offset in 2 bytes, then the bytes. -/
def State.bufWrite (s : State) (smb : Bool) (r : MbxReq) : State × MbxRes :=
  if r.data.length < 2 ∨ 4096 < r.num 0 2 + (r.data.length - 2) then (s, 2, [])
  else (s.modMbx smb fun q => { q with input := q.input.write (r.num 0 2) (r.data.drop 2) }, 0, [])

def execBufWrite (s : State) : Answer := .next (s.mbxExec 5 fun b r s => s.bufWrite b r)

/-! ### Firmware (R467, R468) -/

/-- Whether `n ≥ 1` bytes at `a` lie inside one enabled region with all of the bits `bits` that names neither P0 nor
P1. -/
def DdrState.insideFor (d : DdrState) (bits : List Nat) (a n : Nat) : Bool :=
  decide (0 < n) && d.rgn.toList.any fun w =>
    rgnEn w && decide ((rgnRdm w ||| rgnWrm w) % 4 = 0) && bits.all (bit w) && decide (rgnBase w * 2 ^ 30 ≤ a) &&
      decide (a + n ≤ (rgnBase w + rgnSize w) * 2 ^ 30)

/-- FW_UPDATE: DDR address in 8 bytes, length in 4. Pending repair records are written before the erase. -/
def State.fwUpdate (s : State) (r : MbxReq) : State × MbxRes :=
  let a := r.num 0 8
  let n := r.num 8 4
  if s.crn.update.isSome then (s, 9, [])
  else if !s.ddr.insideFor [50] a n || decide (4194304 < n) then (s, 2, [])
  else
    let x := s.ddrRead .crown a n
    match x.2 with
    | none => (x.1, 2, [])
    | some bs => match imgFault bs x.1.crn.minSvn with
      | some e => (x.1, e, [])
      | none =>
        let s := x.1.crnPost 0x9010
        (s.writeAllRepairs.modCrn fun c => { c with update := some (bs.take (imgLen bs + 384)) }, 0, [])

def execFwUpdate (s : State) : Answer := .next (s.mbxExec 0x10 fun _ r s => r.sized 12 s (s.fwUpdate r))

/-- The flash write and read-back end. -/
def State.fwWritten (s : State) (ok : Bool) : State :=
  match s.crn.update with
  | none => s
  | some bs =>
    let s := s.modCrn fun c => { c with
      update := none, image := some bs, imageBad := !ok, fwRes := if ok then 0 else 0x0A }
    s.writeAllRepairs.crnPost (if ok then 0x9011 else 0x9012)

def execFwFlashWriteDone (ok : Bool) (s : State) : Answer := .next (s.fwWritten ok)

/-- FW_STATUS: STATE, bytes written, last result. How far a write has come is open. -/
def State.fwStatus (s : State) : State × MbxRes :=
  let x := s.drawWord
  match s.crn.update with
  | some bs => (x.2, 0, leBytes 1 s.crn.code ++ leBytes 4 (x.1.toNat % (bs.length + 1)) ++ [s.crn.fwRes])
  | none => (s, 0, leBytes 1 s.crn.code ++ leBytes 4 (match s.crn.image with | some bs => bs.length | none => 0) ++ [s.crn.fwRes])

def execFwStatus (s : State) : Answer := .next (s.mbxExec 0x11 fun _ r s => r.sized 0 s s.fwStatus)

/-- RECOVER_LOAD: offset in 4 bytes, then up to 240 bytes. -/
def State.recoverLoad (s : State) (r : MbxReq) : State × MbxRes :=
  if r.data.length < 4 ∨ 244 < r.data.length ∨ 4194304 < r.num 0 4 + (r.data.length - 4) then (s, 2, [])
  else (s.modCrn fun c => { c with staging := c.staging.write (r.num 0 4) (r.data.drop 4) }, 0, [])

def execRecoverLoad (s : State) : Answer := .next (s.mbxExec 0x18 fun _ r s => s.recoverLoad r)

/-! ### Calibration (R474, R475) -/

/-- The parameter blocks of Cloche that item 0x60 + j shows. -/
def cloItem (j : Nat) : List Nat :=
  match j with
  | 0 => [0]
  | 1 => [0x10, 0x11, 0x12, 0x13]
  | 2 => [0x20, 0x21, 0x22, 0x23]
  | 3 => [0x30, 0x31, 0x32, 0x33]
  | _ => [0x40, 0x41, 0x42, 0x43]

/-- A user value, zeros where none is stored. -/
def CrnState.user (c : CrnState) (item n : Nat) : List Byte := (SMap.get [] c.userCal item ++ List.replicate n 0).take n

/-- Factory, user and effective value of an item, one after the other; none for an item that R474 does not list. -/
def State.calItem (s : State) (i : Nat) : Option (List Byte) :=
  let c := s.crn
  if i ≤ 0x17 then
    let f := Config.factoryTemp i
    some (leBytes 2 f.toNat ++ c.user i 2 ++ leBytes 2 (wrapN 16 (f.toInt + toSigned 16 (leNat (c.user i 2)))))
  else if i = 0x20 then some (leBytes 2 Config.factoryTrim.toNat ++ c.user i 4 ++ leBytes 4 c.calRate.toNat)
  else if i = 0x21 then
    let f := (List.range 16).map Config.voltTrim
    some (f ++ leBytes 16 0 ++ f)
  else if i = 0x22 then
    let f := (List.range 38).map Config.serdesCal
    some (f ++ leBytes 38 0 ++ f)
  else if i = 0x23 then some [Config.speedBin, 0, Config.speedBin]
  else if between 0x40 i 0x4F then some (leBytes 64 0 ++ c.user i 64 ++ leBytes 64 (s.ing.ext[Fin.ofNat 16 i]).toNat)
  else if between 0x60 i 0x64 then some ((cloItem (i - 0x60)).flatMap (blockBytes s.clo.blocks))
  else none

/-- CAL_READ: item in 2 bytes; a longer result goes to the result buffer. Cloche must take commands. -/
def State.calRead (s : State) (smb : Bool) (r : MbxReq) : State × MbxRes :=
  let i := r.num 0 2
  if 0x60 ≤ i ∧ (!s.clo.on ∨ s.clo.nofw) then (s, 4, [])
  else match s.calItem i with
    | none => (s, 2, [])
    | some bs => if bs.length ≤ 240 then (s, 0, bs) else s.setResult smb r bs

def execCalRead (s : State) : Answer := .next (s.mbxExec 0x20 fun b r s => r.sized 2 s (s.calRead b r))

/-- The result of a value that a CAL_WRITE may not write: NOTALLOWED 3 or BADARG 2. -/
def calRefusal (i : Nat) (v : List Byte) : Option Nat :=
  if i ≤ 0x17 then
    let x := toSigned 16 (leNat v)
    if v.length = 2 ∧ -80 ≤ x ∧ x ≤ 80 then none else some 2
  else if i = 0x20 then
    let x := toSigned 32 (leNat v)
    if v.length = 4 ∧ -109951163 ≤ x ∧ x ≤ 109951163 then none else some 2
  else if between 0x40 i 0x4F then
    let e : Rec64 := BitVec.ofNat 512 (leNat v)
    if v.length = 64 ∧ e &&& extMask = e then none else some 2
  else if between 0x21 i 0x23 || between 0x60 i 0x64 then some 3
  else some 2

/-- CAL_WRITE: item in 2 bytes, then the value; `flashOk` says whether both flash copies were written. -/
def State.calWrite (s : State) (r : MbxReq) (flashOk : Bool) : State × MbxRes :=
  let i := r.num 0 2
  let v := r.data.drop 2
  if r.data.length < 2 then (s, 2, [])
  else match calRefusal i v with
    | some e => (s, e, [])
    | none =>
      if !flashOk then (s, 0x0A, [])
      else
        let s := s.modCrn fun c => { c with userCal := SMap.insert i v c.userCal }
        let s := if between 0x40 i 0x4F then s.extWrite (Fin.ofNat 16 i) 0x70 0 v else s
        (s.crnPost 0x9030, 0, [])

def execCalWrite (flashOk : Bool) (s : State) : Answer := .next (s.mbxExec 0x21 fun _ r s => s.calWrite r flashOk)

/-! ### Configuration (R479)

Items: 0 to 15 DDR_RGN, 16 and 17 DDR_BW, 18 FLT_PMAP, 19 FAB_CFG, 20 FAB_HALL, 21 FAB_ADMIT, 22 FAB_SLICE, 23 TB_CFG,
24 and 25 WDMS of domains A and B, 26 to 29 the PHY modes. FAB_CFG has DX, DY, DZ in bits [3:0], [7:4], [11:8], the wraps in
[14:12] and the slice number in [21:16]; FAB_HALL has hall mode, DLP and DLN in bits 0 to 2; a PHY mode counts the modes of
R109 from 0, off. DESIGN CHOICE: the spec numbers no items and gives these registers no layout. -/

/-- Writable bits of TB_CFG. -/
def tbCfgMask : Word := 0x0001C0FFFFFF3F00#64

/-- The PHY mode of a number. -/
def phyOf (n : Nat) : PhyMode :=
  match n with
  | 1 => .base1000x
  | 2 => .r10g
  | 3 => .r25g
  | 4 => .r25gBaseFec
  | 5 => .r25gRsFec
  | _ => .off

/-- Whether a value can be given to an item at all. -/
def cfgValid (i : Nat) (v : BitVec 128) : Bool :=
  if i = 22 then true
  else if i = 19 then (List.range 3).all (fun k => between 1 (fld v (4 * k) 4) 8) && decide (fld v 15 1 = 0) && decide (fld v 22 106 = 0)
  else if i = 20 then decide (fld v 3 125 = 0)
  else if between 24 i 25 then decide (fld v 16 112 = 0)
  else if between 26 i 29 then decide (v.toNat ≤ 5)
  else decide (i < 30) && decide (fld v 64 64 = 0)

/-- FAB_CFG as the user configures it. -/
def FabState.cfgWord (b : FabState) : Nat :=
  (pack [(0, 4, b.cfgSize[(0 : Fin 3)].val), (4, 4, b.cfgSize[(1 : Fin 3)].val), (8, 4, b.cfgSize[(2 : Fin 3)].val),
    (12, 1, ofBool b.cfgWrap[(0 : Fin 3)]), (13, 1, ofBool b.cfgWrap[(1 : Fin 3)]), (14, 1, ofBool b.cfgWrap[(2 : Fin 3)]),
    (16, 6, b.cfgSlice.val)]).toNat

/-- The current value of an item. -/
def State.cfgCurrent (s : State) (i : Nat) : BitVec 128 :=
  BitVec.ofNat 128 (
    if i < 16 then (s.ddr.rgn[Fin.ofNat 16 i]).toNat
    else if i < 18 then (s.ddr.bw[Fin.ofNat 2 (i - 16)]).toNat
    else if i = 18 then s.flt.pmap.toNat
    else if i = 19 then s.fab.cfgWord
    else if i = 20 then ofBool s.fab.hall + 2 * ofBool s.fab.dlp + 4 * ofBool s.fab.dln
    else if i = 21 then s.fab.admitMask.toNat
    else if i = 22 then s.fab.slices.toNat
    else if i = 23 then s.tb.cfg.toNat
    else if i < 26 then s.tb.dom[Fin.ofNat 2 (i - 24)].wdms
    else s.ing.port[Fin.ofNat 4 (i - 26)].phy.code)

/-- Crown writes an item's register under the block's own rules. -/
def State.cfgApply (s : State) (i : Nat) (v : BitVec 128) : State :=
  let w : Word := v.setWidth 64
  if i < 16 then s.rgnWrite (Fin.ofNat 16 i) 0x70 .full w
  else if i < 18 then s.bwWrite (Fin.ofNat 2 (i - 16)) 0x70 .full w
  else if i = 18 then s.pmapWrite 0x70 .full w
  else if i = 19 then { s with fab := { s.fab with
    cfgSize := Vector.ofFn fun k : Fin 3 => Fin.ofNat 9 (fld v (4 * k.val) 4)
    cfgWrap := Vector.ofFn fun k : Fin 3 => bit v (12 + k.val)
    cfgSlice := Fin.ofNat 64 (fld v 16 6) } }
  else if i = 20 then { s with fab := { s.fab with hall := bit v 0, dlp := bit v 1, dln := bit v 2 } }
  else if i = 21 then { s with fab := { s.fab with admitMask := w } }
  else if i = 22 then { s with fab := { s.fab with slices := v } }
  else if i = 23 then { s with tb := { s.tb with cfg := w &&& tbCfgMask } }
  else if i < 26 then s.modDom (Fin.ofNat 2 (i - 24)) fun d => { d with wdms := fld v 0 16 }
  else
    let p : Fin 4 := Fin.ofNat 4 (i - 26)
    let s := s.modTx p fun x => { x with lat := Config.phyLat p.val v.toNat }
    s.modPort p fun q => { q with phy := phyOf v.toNat, up := q.up && decide (q.phy = phyOf v.toNat) }

/-- CFG_READ: item in 2 bytes. The answer: whether a value is stored, the stored value, the current value. -/
def State.cfgRead (s : State) (r : MbxReq) : State × MbxRes :=
  let i := r.num 0 2
  if 30 ≤ i then (s, 2, [])
  else
    let st := s.crn.stored.find? fun e => e.1 = i
    (s, 0, leBytes 1 (ofBool st.isSome) ++ leBytes 16 (match st with | some e => e.2.toNat | none => 0) ++
      leBytes 16 (s.cfgCurrent i).toNat)

def execCfgRead (s : State) : Answer := .next (s.mbxExec 0x28 fun _ r s => r.sized 2 s (s.cfgRead r))

/-- CFG_WRITE: item in 2 bytes, value in 16, NOW and STORE in one. A block that refuses the write posts its event. -/
def State.cfgWrite (s : State) (r : MbxReq) (flashOk : Bool) : State × MbxRes :=
  let i := r.num 0 2
  let v : BitVec 128 := BitVec.ofNat 128 (r.num 2 16)
  let fl := r.num 18 1
  if 4 ≤ fl ∨ !cfgValid i v then (s, 2, [])
  else
    let t := if fl.testBit 0 then s.cfgApply i v else s
    if t.evt.incoming.length ≠ s.evt.incoming.length then (t, 4, [])
    else if fl.testBit 1 && !flashOk then (t, 0x0A, [])
    else
      let t := if fl.testBit 1 then t.modCrn fun c => { c with stored := SMap.insert i v c.stored } else t
      (t.crnPost 0x9031, 0, [])

def execCfgWrite (flashOk : Bool) (s : State) : Answer :=
  .next (s.mbxExec 0x29 fun _ r s => r.sized 19 s (s.cfgWrite r flashOk))

/-! ### Telemetry, log, origin (R353, R434, R481) -/

/-- TELEM_CFG: DDR base in 8 bytes, entries in 4. -/
def State.telemCfg (s : State) (r : MbxReq) : State × MbxRes :=
  let a := r.num 0 8
  let n := r.num 8 4
  if !between 64 n 65536 || decide (2 ^ Nat.log2 n ≠ n) || !s.ddr.insideFor [50, 51] a (128 * n) then (s, 2, [])
  else (s.modCrn fun c => { c with ring := some ⟨a, n⟩ }, 0, [])

def execTelemCfg (s : State) : Answer := .next (s.mbxExec 0x30 fun _ r s => r.sized 12 s (s.telemCfg r))

/-- TELEM_LAST; NOTFOUND before the first record. -/
def execTelemLast (s : State) : Answer :=
  .next (s.mbxExec 0x31 fun _ r s => r.sized 0 s (if s.crn.newest.isEmpty then (s, 7, []) else (s, 0, s.crn.newest)))

/-- The 32 bytes of a log entry. -/
def LogEntry.bytes (e : LogEntry) : List Byte :=
  leBytes 8 e.cnt.toNat ++ leBytes 8 e.timea.toNat ++ leBytes 2 e.code.toNat ++ [e.src, e.part] ++ leBytes 2 e.phys.toNat ++
    [e.act, 0] ++ leBytes 8 e.detail.toNat

/-- LOG_READ: first entry in 4 bytes, counted from the newest, and count in 1; the answer holds the number found. -/
def State.logRead (s : State) (smb : Bool) (r : MbxReq) : State × MbxRes :=
  if 64 < r.num 4 1 then (s, 2, [])
  else
    let es := (s.flt.log.drop (r.num 0 4)).take (r.num 4 1)
    let x := s.setResult smb r (es.flatMap LogEntry.bytes)
    (x.1, 0, leBytes 1 es.length)

def execLogRead (s : State) : Answer := .next (s.mbxExec 0x38 fun b r s => r.sized 5 s (s.logRead b r))

/-- SET_ORIGIN: one byte, 0 or 1. -/
def execSetOrigin (s : State) : Answer :=
  .next (s.mbxExec 0x40 fun _ r s => r.sized 1 s
    (if 1 < r.num 0 1 then (s, 2, []) else ({ s with fab := { s.fab with origin := decide (r.num 0 1 = 1) } }, 0, [])))

/-! ### Debug access (R472) -/

/-- DBG_CHAL: 32 random bytes. -/
def State.dbgChal (s : State) : State × MbxRes :=
  let x := s.drawBytes 32
  (x.2.modCrn fun c => { c with chal := some ⟨x.1, s.tb.cnt⟩ }, 0, x.1)

def execDbgChal (s : State) : Answer := .next (s.mbxExec 0x48 fun _ r s => r.sized 0 s s.dbgChal)

/-- Whether the token in the input buffer opens the TAPs. -/
def State.tokenOk (s : State) : Bool :=
  let t := s.crn.pcie.input.read 0 448
  let scope := numAt t 0x28 1
  s.chalValid && decide (some ((t.drop 8).take 32) = s.crn.chal.map fun c => c.bytes) &&
    decide (numAt t 0 8 = Config.deviceId.toNat) && between 1 scope 3 && decide (numAt t 0x29 0x17 = 0) && !s.armed &&
    Config.dbgSigOk (t.take 0x40) ((t.drop 0x40).take 384)

/-- DBG_UNLOCK. -/
def State.dbgUnlock (s : State) : State × MbxRes :=
  let ok := s.tokenOk
  let scope : BitVec 2 := BitVec.ofNat 2 (s.crn.pcie.input.num 0x28 1)
  let s := s.modCrn fun c => { c with chal := none }
  if ok then ((s.modCrn fun c => { c with unlocked := true, scope := c.scope ||| scope }).crnPost 0x9040, 0, [])
  else ((s.modCrn fun c => { c with refn := satAdd 0xFF c.refn 1 }).crnPost 0x9041, 5, [])

def execDbgUnlock (s : State) : Answer := .next (s.mbxExec 0x49 fun _ r s => r.sized 0 s s.dbgUnlock)

end Sys2Proof.Machine
end

