-- ==== Sys2Proof/Machine/Grid.lean ====
section
/-! DEFINITION. Building the brick grid (chapter 05): voxel coordinates, keys and owners, the owner builder, the spill
agent, and the grid commands GINIT, GINS, GFIN, GNBR and GREL. -/

namespace Sys2Proof.Machine

def State.modGeo (s : State) (c : CoreId) (f : GeoCore → GeoCore) : State :=
  s.modCore c fun k => { k with geo := f k.geo }

def State.modCounts (s : State) (c : CoreId) (f : ScanCounts → ScanCounts) : State :=
  s.modGeo c fun g => { g with cnt := f g.cnt }

/-! ### The grid descriptor (R144) -/

def gdGid (d : Rec64) : BitVec 32 := BitVec.ofNat 32 (recField d 0 4)
def gdSet (d : Rec64) : Nat := recField d 4 4
def gdO (d : Rec64) (i : Nat) : Int := toSigned 32 (recField d (8 + 4 * i) 4)
def gdEdge (d : Rec64) : Nat := recField d 0x14 2
def gdVacc (d : Rec64) : Bool := bit d (8 * 0x16)
def gdDropDup (d : Rec64) : Bool := bit d (8 * 0x16 + 1)
def gdClip (d : Rec64) : Bool := bit d (8 * 0x16 + 2)
def gdSpill (d : Rec64) : Bool := bit d (8 * 0x16 + 3)
/-- Minimum (`hi` false) or maximum of the box along axis `i`. -/
def gdBox (d : Rec64) (i : Nat) (hi : Bool) : Int := toSigned 24 (recField d (0x18 + 6 * i + (if hi then 3 else 0)) 3)
def gdAccBase (d : Rec64) : Nat := fld d (8 * 0x2C) 23
def gdAccCap (d : Rec64) : Nat := recField d 0x30 4

/-- The cores of a set in ascending number. -/
def setCores (m : Nat) : List CoreId := (List.finRange 32).filter fun c => m.testBit c.val

/-- A core's rank in a set. -/
def rankIn (m : Nat) (c : CoreId) : Nat := ((setCores m).filter fun d => d.val < c.val).length

/-! ### Voxels, bricks and keys (R132 to R136) -/

/-- Voxel coordinate and quarter-offset code along an axis (R132): floor((c − o) / E) and floor(4r / E). -/
def voxelOf (d : Rec64) (i : Nat) (c : Int) : Int × Nat :=
  let e : Int := gdEdge d
  let v := (c - gdO d i).fdiv e
  let r := c - gdO d i - v * e
  (v, (4 * r / e).toNat)

/-- Whether a point is skipped (R133). -/
def clipped (d : Rec64) (x : Nat → Int) : Bool :=
  (List.range 3).any fun i =>
    let v := (voxelOf d i (x i)).1
    decide (v < -131072) || decide (131071 < v) ||
      (gdClip d && (decide (x i < gdBox d i false) || decide (gdBox d i true < x i)))

/-- The key of brick coordinates (R134). -/
def brickKey (bx by' bz : Int) : Word := pack [(0, 16, wrapN 16 bx), (16, 16, wrapN 16 by'), (32, 16, wrapN 16 bz)]

/-- Coordinate of a key along axis `i`. -/
def keyCoord (k : Word) (i : Nat) : Int := sfld k (16 * i) 16

/-- The owner of a key over a core set (R135). -/
def ownerOf (m : Nat) (k : Word) : CoreId :=
  let h := (k.toNat * 0x9E3779B97F4A7C15) % 2 ^ 64 / 2 ^ 32
  let cs := setCores m
  cs.getD (h * cs.length / 2 ^ 32) 0

/-- The slot hash of a key. -/
def slotHash (k : Word) : Nat := (k.toNat * 0xC2B2AE3D27D4EB4F) % 2 ^ 64

/-- The home table slot (R136). -/
def homeSlot (k : Word) : Nat := slotHash k / 2 ^ 49

/-! ### Spill segments (R137, R159) -/

/-- Entries of partition `p`'s segment. -/
def State.spillQ (s : State) (p : Fin 4) : Nat := s.grd.quota[p] * 4096

/-- DDR address of spill entry `i`, and of its accumulator block. -/
def State.spillAt (s : State) (p : Fin 4) (i : Nat) : Nat := s.grd.spbase[p].toNat + 32 * i
def State.spillAccAt (s : State) (p : Fin 4) (i : Nat) : Nat := s.grd.spbase[p].toNat + 32 * s.spillQ p + 512 * i

/-- A brick entry as 32 bytes (R139), and back. -/
def Brick.bytes (b : Brick) (gid : BitVec 32) : List Byte :=
  leBytes 8 b.key.toNat ++ leBytes 8 b.occ.toNat ++ leBytes 4 b.bidx ++ [b.swm, b.bstat] ++ leBytes 2 b.npts ++
    leBytes 4 gid.toNat ++ leBytes 4 0

def brickOfBytes (bs : List Byte) : Brick :=
  let n (o k : Nat) : Nat := leNat ((bs.drop o).take k)
  ⟨BitVec.ofNat 64 (n 0 6), BitVec.ofNat 64 (n 8 8), n 0x10 4 % 2 ^ 20, bs.getD 0x14 0, bs.getD 0x15 0, n 0x16 2⟩

/-- The GID of an entry's bytes. -/
def gidOfBytes (bs : List Byte) : BitVec 32 := BitVec.ofNat 32 (leNat ((bs.drop 0x18).take 4))

/-- GEO's accesses to DDR carry the core's identifier and the grid's partition. -/
def geoWho (c : CoreId) (g : GeoCore) : DdrWho := .part (coreIni c) g.part

/-- Spill entry `i` as the spill agent reads it from DDR (R157): the brick where its GID is the grid's. -/
def State.spillRead (s : State) (c : CoreId) (i : Nat) : State × Option Brick :=
  let g := s.cores[c].geo
  let r := s.ddrReadFree (geoWho c g) (s.spillAt g.part i) 32
  (r.1, if gidOfBytes r.2 = g.gid then some (brickOfBytes r.2) else none)

/-- The entries of a list of positions that core `c` owns, each with its brick (R137). -/
def State.ownedSpills (c : CoreId) : List Nat → State → State × List (Nat × Brick)
  | [], s => (s, [])
  | i :: is, s =>
    let r := s.spillRead c i
    let t := State.ownedSpills c is r.1
    (t.1, match r.2 with
      | some b => if ownerOf (gdSet s.cores[c].geo.desc) b.key = c then (i, b) :: t.2 else t.2
      | none => t.2)

/-- The spilled entries a core owns, in ascending position. -/
def State.spills (s : State) (c : CoreId) : State × List (Nat × Brick) :=
  let g := s.cores[c].geo
  if gdSpill g.desc then State.ownedSpills c (List.range (s.spillQ g.part)) s else (s, [])

/-! ### The owner's insertion (R136 to R141) -/

/-- What the owner finds for a key. -/
inductive Place where
  | local_ (slot : Nat) (b : Brick)
  | newLocal (slot : Nat)
  | spill (i : Nat) (b : Brick)
  | newSpill (i : Nat)
  | refused
  deriving DecidableEq, Repr

/-- The first of 16 slots that holds the key or is free. -/
def probe (look : Nat → Option Brick) (k : Word) (n home : Nat) : Option (Nat × Option Brick) :=
  ((List.range 16).map fun j => (home + j) % n).findSome? fun t =>
    match look t with
    | none => some (t, none)
    | some b => if b.key = k then some (t, some b) else none

/-- The brick in a table slot. -/
def GeoCore.at (g : GeoCore) (t : Nat) : Option Brick := (g.table.find? fun e => e.1 = t).map (·.2)

/-- Whether the core may create a local brick. -/
def GeoCore.roomLeft (g : GeoCore) : Bool :=
  decide (g.lcount < 32768) && (!gdVacc g.desc || decide (g.lcount < gdAccCap g.desc))

/-- The spill agent's search over some positions (R137): an entry whose GID differs counts as free. -/
def State.spillProbe (c : CoreId) (k : Word) : List Nat → State → State × Place
  | [], s => (s, .refused)
  | i :: is, s =>
    let r := s.spillRead c i
    match r.2 with
    | none => (r.1, .newSpill i)
    | some b => if b.key = k then (r.1, .spill i b) else State.spillProbe c k is r.1

/-- The spill agent's search (R137). -/
def State.spillPlace (s : State) (c : CoreId) (k : Word) : State × Place :=
  let g := s.cores[c].geo
  let q := s.spillQ g.part
  if !gdSpill g.desc ∨ q = 0 then (s, .refused)
  else State.spillProbe c k ((List.range 16).map fun j => (slotHash k / 2 ^ 32 * q / 2 ^ 32 + j) % q) s

/-- Where the owner puts a point of a key (R136 to R138). -/
def State.placeOf (s : State) (c : CoreId) (k : Word) : State × Place :=
  let g := s.cores[c].geo
  match probe g.at k 32768 (homeSlot k) with
  | some (t, some b) => (s, .local_ t b)
  | some (t, none) => if g.roomLeft then (s, .newLocal t) else s.spillPlace c k
  | none => s.spillPlace c k

/-- An accumulator after a point (R140, R141), and whether the voxel was saturated. -/
def accAdd (a : Word) (p : RoutedPoint) : Word × Bool :=
  let swb := fld a 40 8
  let w := p.slot
  let top := Nat.log2 swb
  let ntag := if swb = 0 ∨ top < w then p.stag else if w = top then max (fld a 32 8) p.stag else fld a 32 8
  let a := setFld a 32 8 ntag
  let a := setFld a 48 8 (max (fld a 48 8) p.inten)
  let a := setFld a 40 8 (swb ||| 2 ^ w)
  if fld a 56 8 = 255 then (a, true)
  else
    let a := setFld a 56 8 (fld a 56 8 + 1)
    let a := setFld a 0 10 (fld a 0 10 + p.qx)
    let a := setFld a 10 10 (fld a 10 10 + p.qy)
    (setFld a 20 10 (fld a 20 10 + p.qz), false)

/-- A brick after a point (R141). -/
def Brick.add (b : Brick) (p : RoutedPoint) (sat : Bool) : Brick :=
  { b with
    occ := setBit b.occ p.vox true
    swm := setBit b.swm p.slot true
    npts := min 65535 (b.npts + 1)
    bstat :=
      let x := if sat then setBit b.bstat 1 true else b.bstat
      let x := if p.syn then setBit x 2 true else setBit x 3 true
      if p.gld then setBit x 5 true else x }

/-- The narrow port of the builder stores bytes, line by line (R81, R140); a line without power is not written, and the
task ends with 0x88 (R539). -/
def State.accStore (s : State) (c : CoreId) (a : Nat) (bs : List Byte) : State :=
  (cut 256 (bs.length + 1) a bs).foldl (fun t r =>
    if t.cores[c].spd.lineOn (r.1 / 256) then t.modSpd c fun p => p.narrowWrite r.1 r.2 4 else t.failTask c 0x88) s

/-- The narrow port of the builder reads an accumulator; one without power gives a free value. -/
def State.accLoad (s : State) (c : CoreId) (a : Nat) : State × List Byte :=
  if s.cores[c].spd.lineOn (a / 256) then (s, s.cores[c].spd.narrowRead a 8)
  else let d := s.drawBytes 8; (d.2, d.1)

/-- The accumulator of a voxel of a brick, updated; the flag says that the voxel was saturated. -/
def State.accUpdate (s : State) (c : CoreId) (spilled : Bool) (n : Nat) (p : RoutedPoint) : State × Bool :=
  let g := s.cores[c].geo
  if !gdVacc g.desc then (s, false)
  else if spilled then
    let a := s.spillAccAt g.part n + 8 * p.vox
    let r := s.ddrReadFree (geoWho c g) a 8
    let x := accAdd (BitVec.ofNat 64 (leNat r.2)) p
    (r.1.ddrPut (geoWho c g) a (leBytes 8 x.1.toNat), x.2)
  else
    let a := gdAccBase g.desc + 512 * n + 8 * p.vox
    let r := s.accLoad c a
    let x := accAdd (BitVec.ofNat 64 (leNat r.2)) p
    (r.1.accStore c a (leBytes 8 x.1.toNat), x.2)

/-- The accumulator block of a new brick is zeroed (R140). -/
def State.accZero (s : State) (c : CoreId) (spilled : Bool) (n : Nat) : State :=
  let g := s.cores[c].geo
  if !gdVacc g.desc then s
  else if spilled then s.ddrPut (geoWho c g) (s.spillAccAt g.part n) (List.replicate 512 0)
  else s.accStore c (gdAccBase g.desc + 512 * n) (List.replicate 512 0)

/-- Post an event of an owner builder at most once in a scan; `b` is its mark. -/
def State.geoOnce (s : State) (c : CoreId) (b code : Nat) : State :=
  if bit s.cores[c].geo.posted b then s
  else (s.modGeo c fun g => { g with posted := setBit g.posted b true }).postCore c code

/-- A point reaches brick `b`, local or spilled, whose place number is `n` (table slot or spill entry). -/
def State.brickPoint (s : State) (c : CoreId) (spilled : Bool) (n : Nat) (b : Brick) (p : RoutedPoint) : State :=
  let g := s.cores[c].geo
  let block := if spilled then n else b.bidx
  let x := s.accUpdate c spilled block p
  let s := x.1
  let b := b.add p x.2
  let s := if spilled then s.ddrPut (geoWho c g) (s.spillAt g.part n) (b.bytes g.gid)
    else s.modGeo c fun g => { g with table := SMap.insert n b g.table }
  let s := s.modCounts c fun k => { k with
    pins := k.pins + 1, psat := k.psat + (if x.2 then 1 else 0), synth := k.synth || p.syn, golden := k.golden || p.gld }
  if x.2 then s.geoOnce c 2 0x4105 else s

/-- The owner inserts a point of its grid (R136 to R141). -/
def State.insertPoint (s : State) (c : CoreId) (p : RoutedPoint) : State :=
  let r := s.placeOf c p.key
  let s := r.1
  let n := s.cores[c].geo.lcount
  match r.2 with
  | .local_ t b => s.brickPoint c false t b p
  | .newLocal t =>
    ((s.accZero c false n).modGeo c fun g => { g with lcount := n + 1 }).brickPoint c false t ⟨p.key, 0, n, 0, 1, 0⟩ p
  | .spill i b => s.brickPoint c true i b p
  | .newSpill i =>
    ((s.accZero c true i).brickPoint c true i ⟨p.key, 0, 2 ^ 19 + i, 0, 0x11, 0⟩ p).geoOnce c 1 0x4104
  | .refused => (s.modCounts c fun k => { k with pref := k.pref + 1 }).geoOnce c 0 0x4101

/-- What reaches the head of a builder's queue is applied (R148 to R150). -/
def State.applyItem (s : State) (c sender : CoreId) (i : GeoItem) : State :=
  let g := s.cores[c].geo
  let mine (gid : BitVec 32) : Bool := decide (g.st ≠ 0) && decide (gid = g.gid) && (gdSet g.desc).testBit sender.val
  match i with
  | .point p =>
    if mine p.gid then s.insertPoint c p
    else (s.modGeo c fun g => { g with stray := g.stray + 1 }).postCore c 0x4106
  | .mark gid => if mine gid then s.modGeo c fun g => { g with marks := SMap.set 0 g.marks sender.val (SMap.get 0 g.marks sender.val + 1) } else s

/-- The oldest item that source `k` (GEO of core k below 32, RAY above) has for builder `c`. -/
def State.itemFrom (s : State) (k : Nat) (c : CoreId) : Option (CoreId × GeoItem) :=
  let g := s.cores[Fin.ofNat 32 k].geo
  (if k < 32 then g.outq else g.rayq).find? fun x => x.1 = c

/-- That item leaves its source. -/
def State.itemTake (s : State) (k : Nat) (x : CoreId × GeoItem) : State :=
  s.modGeo (Fin.ofNat 32 k) fun g =>
    if k < 32 then { g with outq := g.outq.erase x } else { g with rayq := g.rayq.erase x }

/-- The builder grants one source, while its queue has room (R149). -/
def State.builderGrant (s : State) (c : CoreId) : State :=
  if 64 ≤ s.cores[c].geo.inq.length then s
  else
    match (rotated 64 s.cores[c].geo.token).findSome? fun k => (s.itemFrom k c).map fun x => (k, x) with
    | none => s
    | some (k, x) =>
      (s.itemTake k x).modGeo c fun g => { g with inq := g.inq ++ [(Fin.ofNat 32 k, x.2)], token := k }

/-- A step of a builder: it grants one sender and applies the item at the head of its queue. -/
def State.builderStep (s : State) (c : CoreId) : State :=
  let s := s.builderGrant c
  match s.cores[c].geo.inq with
  | [] => s
  | (d, i) :: rest => (s.modGeo c fun g => { g with inq := rest }).applyItem c d i

def execBuilderPointInsert (c : CoreId) (s : State) : Answer := .next (s.builderStep c)

/-! ### GINIT (R144, R145) -/

/-- The opcodes of GEO. -/
def geoListed (o : Nat) : Bool := between 0x10 o 0x14 || between 0x20 o 0x23

/-- Limits and reserved fields of a descriptor, by itself. -/
def gdOk (d : Rec64) : Bool :=
  decide (gdGid d ≠ 0) && (List.range 3).all (fun i => decide ((gdO d i).natAbs < 2 ^ 24)) &&
    between 2 (gdEdge d) 2047 && decide (fld d (8 * 0x16 + 4) 12 = 0) && decide (recField d 0x2A 2 = 0) &&
    decide (fld d (8 * 0x2C + 23) 9 = 0) && decide (recField d 0x34 12 = 0) &&
    (if gdVacc d then decide (gdAccBase d % 512 = 0) && between 1 (gdAccCap d) 16384 &&
        decide (gdAccBase d + 512 * gdAccCap d ≤ spdBytes)
      else decide (gdAccBase d = 0) && decide (gdAccCap d = 0)) &&
    (!gdClip d || (List.range 3).all fun i => decide (gdBox d i false ≤ gdBox d i true))

/-- Whether the segment of a grid with SPILL = 1 can be used (R145). -/
def State.spillOk (s : State) (c : CoreId) (p : Fin 4) (d : Rec64) : Bool :=
  let q := s.spillQ p
  let n := 32 * q + (if gdVacc d then 512 * q else 0)
  let who : DdrWho := .part (coreIni c) p
  !gdSpill d || (decide (0 < q) && s.ddr.admitsAll who false s.grd.spbase[p].toNat n &&
    s.ddr.admitsAll who true s.grd.spbase[p].toNat n && (decide (s.grd.holder[p] = 0) || decide (s.grd.holder[p] = gdGid d)))

/-- Opcode 0x10. -/
def State.ginit (s : State) (c : CoreId) (q : EngCmd) : EngineRun :=
  let a := fld q.w1 0 23
  if q.cspec ≠ 0 ∨ fld q.w1 23 41 ≠ 0 ∨ q.w2 ≠ 0 ∨ q.w3 ≠ 0 ∨ a % 64 ≠ 0 then .refuse
  else s.overSpd c 4 [(a, 64)] fun s =>
    let d : Rec64 := BitVec.ofNat 512 (s.cores[c].spd.num a 64)
    let p := q.part
    if !gdOk d || !(gdSet d).testBit c.val || (setCores (gdSet d)).any (fun e => decide (s.partOf e ≠ p)) || !s.spillOk c p d
    then .refuse
    else
      let s := s.modGeo c fun g => { g with
        gid := gdGid d, st := 1, desc := d, part := p, table := [], lcount := 0, cnt := ScanCounts.zero, posted := 0
        stray := 0, nstale := 0, cecc := 0, qcnt := 0, marks := [], exchanged := none, spl := [] }
      .done (if gdSpill d then { s with grd := { s.grd with holder := s.grd.holder.set p (gdGid d) } } else s)

/-! ### GINS (R146, R147) -/

/-- A point record's fields. -/
def prCoord (r : List Byte) (i : Nat) : Int := toSigned 24 (leNat ((r.drop (3 * i)).take 3))
def prByte (r : List Byte) (i : Nat) : Nat := (r.getD i 0).toNat
def prFlag (r : List Byte) (b : Nat) : Bool := (prByte r 11).testBit b

/-- The point a record becomes for a grid, and its owner; none where R133 skips it. -/
def routeRecord (g : GeoCore) (r : List Byte) (slot : Nat) : Option (CoreId × RoutedPoint) :=
  let d := g.desc
  if clipped d (prCoord r) then none
  else
    let v (i : Nat) := voxelOf d i (prCoord r i)
    let b (i : Nat) : Int := (v i).1.fdiv 4
    let l (i : Nat) : Nat := ((v i).1 - 4 * b i).toNat
    let key := brickKey (b 0) (b 1) (b 2)
    some (ownerOf (gdSet d) key, {
      gid := g.gid, key := key, vox := l 0 + 4 * l 1 + 16 * l 2, qx := (v 0).2, qy := (v 1).2, qz := (v 2).2
      inten := prByte r 9, stag := prByte r 15, slot := slot, syn := prFlag r 5, gld := prFlag r 4, job := 0 })

/-- A record read by GINS: counted, skipped or sent to its owner. -/
def State.sendRecord (s : State) (c : CoreId) (slot : Nat) (htrunc : Bool) (r : List Byte) : State :=
  let g := s.cores[c].geo
  let s := s.modCounts c fun k => { k with
    pin := k.pin + 1, ptrunc := k.ptrunc + (if htrunc || prFlag r 7 then 1 else 0) }
  if gdDropDup g.desc && prFlag r 6 then s.modCounts c fun k => { k with pdup := k.pdup + 1 }
  else match routeRecord g r slot with
    | none => s.modCounts c fun k => { k with pclip := k.pclip + 1 }
    | some (o, p) => s.modGeo c fun g => { g with outq := g.outq ++ [(o, .point p)] }

/-- An entry of the sweep list. -/
structure SweepEntry where
  hidx  : Nat
  count : Nat
  slot  : Nat
  scr   : Bool

def sweepEntry (bs : List Byte) : SweepEntry :=
  ⟨leNat (bs.take 4), leNat ((bs.drop 4).take 4), prByte bs 8 % 8, (prByte bs 8).testBit 3⟩

/-- Limits and reserved fields of an entry. -/
def sweepEntryOk (bs : List Byte) : Bool :=
  let e := sweepEntry bs
  decide (prByte bs 8 < 16) && (bs.drop 9).all (· == 0) &&
    (if e.scr then between 1 e.count 524288 && decide (16 * (e.hidx + e.count) ≤ spdBytes) else decide (e.count = 0))

/-- The share of rank `j` of `n` cores of `count` records from `first` (R147): the first record and how many. -/
def shareOf (first count j n : Nat) : Nat × Nat :=
  let lo := count * j / n
  (first + lo, count * (j + 1) / n - lo)

/-- The share of an entry whose records lie in the scratchpad. -/
def scrShare (g : GeoCore) (c : CoreId) (e : SweepEntry) : Nat × Nat :=
  shareOf e.hidx e.count (rankIn (gdSet g.desc) c) (setCores (gdSet g.desc)).length

/-- The records of one entry, read and sent in ascending order. -/
def State.insertEntry (s : State) (c : CoreId) (who : DdrWho) (rbase hbase : Nat) (e : SweepEntry) : State :=
  let g := s.cores[c].geo
  if e.scr then
    let sh := scrShare g c e
    (List.range sh.2).foldl (fun t i => t.sendRecord c e.slot false (t.cores[c].spd.wideRead (16 * (sh.1 + i)) 16)) s
  else
    let h := s.ddrReadFree who (hbase + 32 * (e.hidx % 4096)) 32
    let hd := h.2
    let first := leNat ((hd.drop 8).take 4)
    let count := leNat ((hd.drop 12).take 4)
    let tr := (prByte hd 4).testBit 4
    let s := h.1.modCounts c fun k => { k with htrunc := k.htrunc || tr, golden := k.golden || (prByte hd 4).testBit 6 }
    let sh := shareOf first count (rankIn (gdSet g.desc) c) (setCores (gdSet g.desc)).length
    (List.range sh.2).foldl (fun t i =>
      let r := t.ddrReadFree who (rbase + 16 * ((sh.1 + i) % 2 ^ 24)) 16
      r.1.sendRecord c e.slot tr r.2) s

/-- Opcode 0x11: the share is read and sent; the command ends once no point of it waits for its builder. -/
def State.gins (s : State) (c : CoreId) (q : EngCmd) : EngineRun :=
  let n := fld q.w1 32 8
  let a := fld q.w1 0 23
  let g := s.cores[c].geo
  if s.cores[c].engines[(4 : Fin 7)].phase = 1 then (if g.outq.isEmpty then .done s else .hold s)
  else if q.cspec ≠ 0 ∨ fld q.w1 23 9 ≠ 0 ∨ fld q.w1 40 24 ≠ 0 ∨ fld q.w2 48 16 ≠ 0 ∨ fld q.w3 48 16 ≠ 0 ∨ n = 0 ∨ 128 < n ∨
      a % 16 ≠ 0 ∨ spdBytes < a + 16 * n ∨ g.st = 0 then .refuse
  else s.overSpd c 4 [(a, 16 * n)] fun s =>
    let raw := (List.range n).map fun i => s.cores[c].spd.wideRead (a + 16 * i) 16
    let es := raw.map sweepEntry
    if !raw.all sweepEntryOk || (es.any (fun e => !e.scr) && (decide (fld q.w2 0 48 % 2 ^ 20 ≠ 0) || decide (fld q.w3 0 48 % 4096 ≠ 0)))
    then .refuse
    else
      let own := (es.filter (·.scr)).map fun e => let sh := scrShare g c e; (16 * sh.1, 16 * sh.2)
      s.overSpd c 4 own fun s =>
        .wait 1 (es.foldl (fun t e => t.insertEntry c (cmdWho c q) (fld q.w2 0 48) (fld q.w3 0 48) e) s)

/-! ### GFIN (R150, R151) -/

/-- Counts of two cores together. -/
def ScanCounts.plus (a b : ScanCounts) : ScanCounts :=
  ⟨a.pin + b.pin, a.pins + b.pins, a.pref + b.pref, a.pclip + b.pclip, a.pdup + b.pdup, a.psat + b.psat,
    a.ptrunc + b.ptrunc, a.bloc + b.bloc, a.bspl + b.bspl, a.htrunc || b.htrunc, a.golden || b.golden, a.synth || b.synth⟩

/-- Whether core `d` has an end marker of this GFIN from every core of the grid and has applied every point it received. -/
def State.drained (s : State) (gid : BitVec 32) (set : Nat) (d : CoreId) : Bool :=
  let g := s.cores[d].geo
  decide (g.gid = gid) && (setCores set).all (fun e => decide (0 < SMap.get 0 g.marks e.val)) && g.inq.isEmpty

/-- A core's own counts with its bricks; its spilled ones are looked up, and it keeps them. -/
def State.ownCounts (s : State) (d : CoreId) : State × ScanCounts :=
  let r := s.spills d
  let g := s.cores[d].geo
  (r.1.modGeo d fun g => { g with spl := r.2.map (·.1) }, { g.cnt with bloc := g.lcount, bspl := r.2.length })

/-- The counts of the set record TRUNC (R151). -/
def ScanCounts.truncated (t : ScanCounts) : Bool := decide (0 < t.pref) || decide (0 < t.ptrunc) || t.htrunc

/-- The scan status block. -/
def statusBlock (gid : BitVec 32) (safety : Bool) (t own : ScanCounts) : List Byte :=
  let sfl := ofBool t.truncated + 2 * ofBool (t.truncated && safety) + 4 * ofBool (decide (0 < t.bspl)) +
    8 * ofBool (decide (0 < t.psat)) + 16 * ofBool t.synth + 32 * ofBool t.golden
  leBytes 4 gid.toNat ++ leBytes 4 sfl ++ leBytes 4 t.pin ++ leBytes 4 t.pins ++ leBytes 4 t.pref ++ leBytes 4 t.pclip ++
    leBytes 4 t.pdup ++ leBytes 4 t.psat ++ leBytes 4 t.bloc ++ leBytes 4 t.bspl ++ leBytes 4 own.bloc ++ leBytes 4 own.bspl ++
    leBytes 4 t.ptrunc ++ List.replicate 12 0

/-- A core of the set takes the exchanged counts and uses up one end marker of each core. -/
def GeoCore.agree (g : GeoCore) (set : Nat) (t : ScanCounts) : GeoCore :=
  { g with
    exchanged := some t
    marks := (setCores set).foldl (fun m e => SMap.set 0 m e.val (SMap.get 0 m e.val - 1)) g.marks }

/-- The set exchanges its counts once every core of it is drained. -/
def State.exchange (s : State) (set : Nat) : State :=
  let r := (setCores set).foldl (fun (a : State × ScanCounts) d => let o := a.1.ownCounts d; (o.1, a.2.plus o.2)) (s, ScanCounts.zero)
  (setCores set).foldl (fun t d => t.modGeo d fun g => g.agree set r.2) r.1

/-- GFIN ends: every update of an accumulator is visible, the grid is finished, and the status block is written (R140, R150,
R151). -/
def State.gfinEnd (s : State) (c : CoreId) (a : Nat) (t : ScanCounts) : State :=
  let g := s.cores[c].geo
  let own : ScanCounts := { ScanCounts.zero with bloc := g.lcount, bspl := g.spl.length }
  let s := s.modSpd c fun p => p.flushIf fun x => bit x.owners 4
  let s := s.wideWrite c 4 a (statusBlock g.gid (isSafety g.part) t own)
  let s := s.modGeo c fun g => { g with st := 2, exchanged := none }
  if t.truncated then s.postCore c (if isSafety g.part then 0x4103 else 0x4102) else s

/-- Opcode 0x12: end markers to every builder of the set, then the status block. -/
def State.gfin (s : State) (c : CoreId) (q : EngCmd) : EngineRun :=
  let a := fld q.w1 0 23
  let g := s.cores[c].geo
  let set := gdSet g.desc
  if s.cores[c].engines[(4 : Fin 7)].phase = 0 then
    if q.cspec ≠ 0 ∨ fld q.w1 23 41 ≠ 0 ∨ q.w2 ≠ 0 ∨ q.w3 ≠ 0 ∨ a % 64 ≠ 0 ∨ g.st = 0 then .refuse
    else .wait 1 (s.modGeo c fun g => { g with outq := g.outq ++ (setCores set).map fun d => (d, .mark g.gid) })
  else
    let s := if g.exchanged.isNone && (setCores set).all (s.drained g.gid set) then s.exchange set else s
    match s.cores[c].geo.exchanged with
    | none => .hold s
    | some t => .done (s.gfinEnd c a t)

/-! ### GNBR (R153, R154) -/

/-- The null reference. -/
def nullRef : Nat := 0xFFFFFFFF

/-- A reference to a brick. -/
def brickRef (owner : CoreId) (bidx : Nat) : Nat := owner.val * 2 ^ 20 + bidx % 2 ^ 20

/-- A core's local bricks in ascending brick index. -/
def GeoCore.bricks (g : GeoCore) : List (Nat × Brick) :=
  (List.range g.lcount).filterMap fun i => (g.table.find? fun e => e.2.bidx = i).map fun e => (i, e.2)

/-- The bricks a core owns in the order of GNBR: the local ones, then those it spilled, read from DDR. -/
def State.ownBricks (s : State) (c : CoreId) : State × List Brick :=
  let g := s.cores[c].geo
  let r := State.ownedSpills c g.spl s
  (r.1, g.bricks.map (·.2) ++ r.2.map (·.2))

/-- The key at offset number `i` of a key; none where a coordinate leaves the i16 range. -/
def neighbourKey (k : Word) (i : Nat) : Option Word :=
  let x := keyCoord k 0 + (i % 3 : Nat) - 1
  let y := keyCoord k 1 + (i / 3 % 3 : Nat) - 1
  let z := keyCoord k 2 + (i / 9 : Nat) - 1
  let ok (v : Int) : Bool := decide (-32768 ≤ v) && decide (v ≤ 32767)
  if ok x && ok y && ok z then some (brickKey x y z) else none

/-- The brick index under which the owner holds a key: in its table, or in a spill entry that it owns, whichever grid of the same
GID left it (R137, R153). -/
def State.findBrick (s : State) (c : CoreId) (k : Word) : State × Option Nat :=
  match probe s.cores[c].geo.at k 32768 (homeSlot k) with
  | some (_, some b) => (s, some b.bidx)
  | _ => let r := s.spills c; (r.1, (r.2.find? fun e => e.2.key = k).map fun e => 2 ^ 19 + e.1)

/-- The lookups of a GNBR: reference number 27 r + i of brick record r. -/
def asksOf (set : Nat) (bs : List Brick) : List (CoreId × Word × Nat) :=
  bs.zipIdx.flatMap fun b => (List.range 27).filterMap fun i =>
    if i = 13 then none else (neighbourKey b.1.key i).map fun k => (ownerOf set k, k, 27 * b.2 + i)

/-- A brick record of 128 bytes. -/
def brickRecord (c : CoreId) (ans : SMap Nat) (r : Nat) (b : Brick) : List Byte :=
  (List.range 27).flatMap (fun i =>
    leBytes 4 (if i = 13 then brickRef c b.bidx else SMap.get nullRef ans (27 * r + i))) ++
    leBytes 8 b.key.toNat ++ leBytes 8 b.occ.toNat ++ [b.swm, b.bstat] ++ leBytes 2 b.npts

/-- Limits of a GNBR (R143, R153). -/
def gnbrOk (q : EngCmd) (g : GeoCore) : Bool :=
  let out := fld q.w1 0 23
  let cap := fld q.w2 0 17
  decide (q.cspec = 0) && decide (fld q.w1 23 41 = 0) && decide (fld q.w2 17 47 = 0) && decide (q.w3 = 0) && decide (out % 256 = 0) &&
    between 1 cap 65536 && decide (g.lcount + g.spl.length ≤ cap) && decide (out + 128 * cap ≤ spdBytes) && decide (g.st = 2)

/-- Opcode 0x13: lookups to the owners, then the records once every answer has come. -/
def State.gnbr (s : State) (c : CoreId) (q : EngCmd) : EngineRun :=
  let g := s.cores[c].geo
  if s.cores[c].engines[(4 : Fin 7)].phase = 0 then
    if !gnbrOk q g then .refuse
    else
      let r := s.ownBricks c
      .wait 1 (r.1.modGeo c fun g => { g with asks := asksOf (gdSet g.desc) r.2, answers := [] })
  else if !g.asks.isEmpty then .hold s
  else
    let r := s.ownBricks c
    .done ((r.1.wideWrite c 4 (fld q.w1 0 23) (r.2.zipIdx.flatMap fun b => brickRecord c g.answers b.2 b.1)).modGeo c fun g =>
      { g with answers := [] })

/-- Builder `c` answers one lookup, of the requester that the rotating token grants; it waits until its own GFIN has
completed when the lookup is for its current grid (R154). -/
def State.lookupStep (s : State) (c : CoreId) : State :=
  let ask (d : CoreId) : Option (CoreId × Word × Nat) := s.cores[d].geo.asks.find? fun x => x.1 = c
  match (rotated 32 s.cores[c].geo.askTok).findSome? fun k => (ask (Fin.ofNat 32 k)).map fun x => (k, x) with
  | none => s
  | some (k, x) =>
    let d : CoreId := Fin.ofNat 32 k
    let g := s.cores[c].geo
    let gid := s.cores[d].geo.gid
    let give (s : State) (ref : Nat) : State :=
      (s.modGeo d fun h => { h with asks := h.asks.erase x, answers := SMap.set nullRef h.answers x.2.2 ref }).modGeo c
        fun g => { g with askTok := k }
    if g.st = 0 ∨ g.gid ≠ gid then
      ((give s nullRef).modGeo d fun h => { h with nstale := satAdd 0xFFFF h.nstale 1 }).postCore d 0x4107
    else if g.st ≠ 2 then s
    else
      let r := s.findBrick c x.2.1
      give r.1 (match r.2 with | some b => brickRef c b | none => nullRef)

def execNeighbourLookup (c : CoreId) (s : State) : Answer := .next (s.lookupStep c)

/-! ### GREL (R155) -/

/-- Opcode 0x14. -/
def State.grel (s : State) (c : CoreId) (q : EngCmd) : EngineRun :=
  let gid : BitVec 32 := BitVec.ofNat 32 (fld q.w1 0 32)
  let g := s.cores[c].geo
  if q.cspec ≠ 0 ∨ fld q.w1 32 32 ≠ 0 ∨ q.w2 ≠ 0 ∨ q.w3 ≠ 0 then .refuse
  else if g.st = 0 ∨ g.gid ≠ gid then .done s
  else
    let s := s.modGeo c GeoCore.noGrid
    .done (if s.grd.holder[q.part] = gid then { s with grd := { s.grd with holder := s.grd.holder.set q.part 0 } } else s)

/-- A grid row: GEO's step for one opcode. The row of GINIT also refuses opcodes that no chapter defines. -/
def State.geoStep (s : State) (c : CoreId) (op : Nat) (run : EngCmd → State → EngineRun) : State :=
  s.engineStep c 4 (· == op) (if op = 0x10 then geoListed else fun _ => true) (if op < 0x20 then 0x4110 else 0x4201)
    (coreIni c) run

def execGinit (c : CoreId) (s : State) : Answer := .next (s.geoStep c 0x10 fun q t => t.ginit c q)
def execGins (c : CoreId) (s : State) : Answer := .next (s.geoStep c 0x11 fun q t => t.gins c q)
def execGfin (c : CoreId) (s : State) : Answer := .next (s.geoStep c 0x12 fun q t => t.gfin c q)
def execGnbr (c : CoreId) (s : State) : Answer := .next (s.geoStep c 0x13 fun q t => t.gnbr c q)
def execGrel (c : CoreId) (s : State) : Answer := .next (s.geoStep c 0x14 fun q t => t.grel c q)

/-! ### Registers and faults (R157, R159) -/

/-- Whether partition `p`'s spill registers may be written by this initiator. -/
def State.spillOpen (s : State) (p : Fin 4) (ini : Ini) : Bool :=
  (decide (ini = 0x60) || decide (ini = 0x70)) && decide (s.grd.holder[p] = 0)

/-- Event 0x4111: a spill register write refused. -/
def State.spillRefuse (s : State) : State := s.post 0x4111 0xC6

/-- A write of GRD_SPBASE[p] (`ctl` false) or GRD_SPCTL[p]. -/
def State.spillWrite (s : State) (p : Fin 4) (ctl : Bool) (ini : Ini) (h : Half) (v : Word) : State :=
  if !s.spillOpen p ini then s.spillRefuse
  else if ctl then
    let q := match h with | .high => s.grd.quota[p] | _ => fld v 12 7
    let sum : Nat := (s.grd.quota.set p q).toList.foldl (· + ·) 0
    if 64 < sum then s.spillRefuse else { s with grd := { s.grd with quota := s.grd.quota.set p q } }
  else { s with grd := { s.grd with
    spbase := s.grd.spbase.set p (mergeHalf h s.grd.spbase[p] v &&& 0x0000FFFFFFFFF000#64) } }

def execGrdSpillWrite (p : Fin 4) (ctl : Bool) (ini : Initiator) (h : Half) (v : Word) (s : State) : Answer :=
  .next (s.spillWrite p ctl ini h v)

/-- A fault of a builder (R157). -/
def State.builderFault (s : State) (c : CoreId) (f : BuilderFault) : State :=
  match f with
  | .single => (s.modGeo c fun g => { g with cecc := satAdd 0xFFFF g.cecc 1 }).postCore c 0x4120
  | .double => ((s.postCore c 0x4121).failTask c 0x8B).fenceCore c
  | .parity => ((s.postCore c 0x4122).failTask c 0x8C).fenceCore c

def execBrickTableEccError (c : CoreId) (f : BuilderFault) (s : State) : Answer := .next (s.builderFault c f)

/-- GSTAT, GCNT1 and GCNT2 as they read. -/
def GeoCore.gstat (g : GeoCore) : Word := pack [(32, 32, g.gid.toNat), (30, 2, g.st.toNat), (0, 16, g.lcount)]
def GeoCore.gcnt1 (g : GeoCore) : Word := pack [(32, 32, g.cnt.pins), (0, 32, g.cnt.pref)]
def GeoCore.gcnt2 (g : GeoCore) : Word := pack [(32, 32, g.stray), (16, 16, g.nstale), (0, 16, g.cecc)]

end Sys2Proof.Machine
end

