-- ==== Sys2Proof/Machine/Scratchpad.lean ====
section
/-! DEFINITION. What reaches a core from outside its sequencer: IMEM and tag-descriptor writes, window writes,
remote signals, launch records, and the start of a task (chapter 03). -/

namespace Sys2Proof.Machine

/-! ### Registers of the SPD block as they read -/

/-- TAGDESC as it reads. -/
def TagDesc.word (t : TagDesc) : Word :=
  pack [(23, 1, ofBool t.en), (22, 1, ofBool t.full), (18, 4, t.size), (0, 15, t.base)]

/-- The descriptor a TAGDESC value describes; reserved bits are ignored (R11). -/
def tagOfWord (w : Word) : TagDesc := ⟨bit w 23, bit w 22, fld w 18 4, fld w 0 15⟩

/-- WIN low. -/
def Window.low (w : Window) : Word :=
  pack [(63, 1, ofBool w.isOpen), (48, 8, w.mask.toNat), (40, 8, w.matchv.toNat), (0, 23, w.base)]

/-- WIN high. -/
def Window.high (w : Window) : Word := pack [(0, 24, w.len)]

/-- SPD_STAT. -/
def SpdState.stat (p : SpdState) : Word :=
  pack [(48, 16, p.wviol), (32, 16, p.sgref), (16, 16, p.cecc), (0, 16, p.bankOn.toNat)]

/-- SPD_LAST. -/
def SpdState.last (p : SpdState) : Word := pack [(48, 8, p.lastIni.toNat), (0, 24, p.lastOff)]

/-- Code of a slot state in LSTAT. -/
def SlotState.code : SlotState → Nat
  | .empty => 0 | .pending => 1 | .running => 2 | .done => 3

/-- LSTAT. -/
def LaunchSlot.stat (l : LaunchSlot) : Word :=
  pack [(32, 32, l.seqno.toNat), (16, 8, l.status.toNat), (8, 2, l.state.code)]

/-! ### Writes from outside -/

/-- Whether a core has a task: a slot taken and not ended. -/
def CoreSt.busy (k : CoreSt) : Bool := decide (k.seq.phase ≠ .idle)

/-- Whether an initiator may write IMEM and tag descriptors of core `c`: host PF0 and the core's own DMA engine
(R41, R87). -/
def ownsTables (c : CoreId) (ini : Ini) : Bool := decide (ini = 0x60) || decide (ini = dmaIni c)

/-- An IMEM write (R41): dropped with event 0x1030 while a task runs. -/
def State.imemWrite (s : State) (c : CoreId) (ini : Ini) (i : Nat) (h : Half) (v : Word) : State :=
  if !ownsTables c ini then s
  else if s.cores[c].busy then s.postCore c 0x1030
  else s.modCore c fun k => { k with imem := SMap.set 0 k.imem i (mergeHalf h (SMap.get 0 k.imem i) v) }

/-- A tag-descriptor write (R87): dropped while a task runs, refused for a misaligned BASE. -/
def State.tagWrite (s : State) (c : CoreId) (ini : Ini) (t : Nat) (h : Half) (v : Word) : State :=
  if !ownsTables c ini then s
  else if s.cores[c].busy then s.postCore c 0x1110
  else
    let d := tagOfWord (mergeHalf h (s.cores[c].spd.tag t).word v)
    if d.base % 2 ^ d.size ≠ 0 then s.postCore c 0x1111
    else s.modSpd c fun p => { p with tags := SMap.set TagDesc.zero p.tags t d }

/-- A SYNCADD write (R98): 8 bytes from host PF0 signal through the gate; anything else is refused under R96. -/
def State.syncaddWrite (s : State) (c : CoreId) (ini : Ini) (n : Nat) (h : Half) (v : Word) : State :=
  if h = .full ∧ ini = 0x60 then s.remoteSignal c ini n v else (s.wakeDie (dieOf c)).signalRefused c

/-- A write of SPD_CLR: CLR clears WVIOL, SGREF, CECC and SPD_LAST. -/
def State.spdClr (s : State) (c : CoreId) (h : Half) (v : Word) : State :=
  if bit (carried h v) 0 then
    s.modSpd c fun p => { p with wviol := 0, sgref := 0, cecc := 0, lastIni := 0, lastOff := 0 }
  else s

/-- The core and the slot within it of launch slot number `n` (R99). -/
def slotCore (n : Fin 128) : CoreId := Fin.ofNat 32 (n.val / 4)
def slotIdx (n : Fin 128) : Fin 4 := Fin.ofNat 4 n.val

/-- A write into a launch slot's bytes (R99, R100, R540): only host PF0's, only in EMPTY or DONE; covering bytes
0x3C to 0x3F makes the record complete. Bytes 0x40 upward are read-only. -/
def State.launchWrite (s : State) (n : Fin 128) (ini : Ini) (off : Nat) (data : List Byte) : State :=
  let c := slotCore n
  let i := slotIdx n
  if ini ≠ 0x60 ∨ 0x40 ≤ off ∨ s.pwr.mode ≠ .run then s
  else
    let l := s.cores[c].spd.slots[i]
    if l.state = .pending ∨ l.state = .running then s.postCore c 0x1131
    else
      let r := recStore l.record off data
      let full := covers off data.length 0x3C 0x3F
      let l' : LaunchSlot :=
        if full then { l with record := r, state := .pending, seqno := BitVec.ofNat 32 (recField r 0x10 4) }
        else { l with record := r }
      let s := s.modSpd c fun p => { p with slots := p.slots.set i l' }
      if full then s.wakeDie (dieOf c) else s

def execImemWrite (c : CoreId) (ini : Initiator) (i : Fin 32768) (h : Half) (v : Word) (s : State) : Answer :=
  .next (s.imemWrite c ini i h v)

def execTagdescWrite (c : CoreId) (ini : Initiator) (t : Fin 4096) (h : Half) (v : Word) (s : State) : Answer :=
  .next (s.tagWrite c ini t h v)

/-- The writes that engine `e` has due are tried again. -/
def State.retryPuts (s : State) (c : CoreId) (e : Fin 7) : State :=
  if s.cores[c].engines[e].work.computed then s.finishWork c e else s

/-- Accesses waiting on a slot are retried after its state changed: the sequencer's LD or ST, and the writes that engines have
due; an engine whose reads wait tries again when its command's row next comes (R89). -/
def execTagWaitResume (c : CoreId) (s : State) : Answer :=
  .next ((List.finRange 7).foldl (fun t e => t.retryPuts c e) (s.retryLine c))

/-- A Cuff entry that has had no write for 64 clk is flushed (R82). -/
def execCuffIdleFlush (c : CoreId) (line : Nat) (s : State) : Answer :=
  .next (s.modSpd c fun p => p.flushIf fun e => decide (e.line = line))

def execWindowWrite (c : CoreId) (src : SentBy) (off : Nat) (data : List Byte) (s : State) : Answer :=
  inRange s (lineWriteOk off data) ((s.netFault (cdPath (dieOf c) (iniDie src.ini)) src.fault).windowWrite c src.ini off data)

def execRemoteSignal (c : CoreId) (src : SentBy) (n : Fin 512) (v : Word) (s : State) : Answer :=
  .next ((s.netFault (cdPath (dieOf c) (iniDie src.ini)) src.fault).remoteSignal c src.ini n v)

def execSyncaddWrite (c : CoreId) (ini : Initiator) (n : Fin 512) (h : Half) (v : Word) (s : State) : Answer :=
  .next (s.syncaddWrite c ini n h v)

def execSpdClr (c : CoreId) (h : Half) (v : Word) (s : State) : Answer := .next (s.spdClr c h v)

def execLaunchRecordWrite (n : Fin 128) (ini : Initiator) (off : Nat) (data : List Byte) (s : State) : Answer :=
  inRange s (bytesIn off data 0x80) (s.launchWrite n ini off data)

/-! ### Taking a slot (R101, R103, R104) -/

/-- The slot the next search finds: upward from the one after the last taken, modulo 4 (R101). -/
def SpdState.nextPending (p : SpdState) : Option (Fin 4) :=
  let first := match p.lastTaken with | some i => i.val + 1 | none => 0
  (List.range 4 |>.map fun j => Fin.ofNat 4 (first + j)).find? fun i => decide (p.slots[i].state = .pending)

/-- Whether a reserved field of a launch record is non-zero, or SGBASE + SGCNT exceeds 512 (R102, R103). -/
def recReserved (r : Rec64) : Bool :=
  decide (fld r 15 1 ≠ 0) || decide (fld r (8 * 2 + 3) 5 ≠ 0) || decide (recField r 3 1 ≠ 0) ||
    decide (fld r (8 * 0x14 + 9) 6 ≠ 0) || decide (fld r (8 * 0x16 + 9) 7 ≠ 0) ||
    decide (fld r (8 * 0x18 + 10) 6 ≠ 0) || decide (recField r 0x1C 4 ≠ 0) ||
    decide (fld r (8 * 0x16) 9 + fld r (8 * 0x18) 10 > 512)

/-- The status a record is refused with, if it is (R103): of several causes the first of the table, an order the spec does not
give (DESIGN CHOICE, log entry 176). -/
def State.launchRefusal (s : State) (c : CoreId) (r : Rec64) : Option Nat :=
  let set := recField r 8 4
  if recReserved r then some 0x90
  else if !set.testBit c.val || (List.finRange 32).any fun d => set.testBit d.val && !s.isBound d then some 0x91
  else if (List.finRange 32).any fun d => set.testBit d.val && decide (s.partOf d ≠ s.partOf c) then some 0x92
  else if s.isStopped c then some 0x93
  else none

/-- Steps 1 to 3 of R104: WCLR, TCLR, SCLR, the signal gate, and the banks not named powered down. -/
def SpdState.prepare (p : SpdState) (r : Rec64) : SpdState :=
  let banks : BitVec 16 := BitVec.ofNat 16 (recField r 4 2)
  { p with
    windows := if fld r 16 1 = 1 then p.windows.map fun e => (e.1, { e.2 with isOpen := false }) else p.windows
    tags := if fld r 17 1 = 1 then
      (p.tags.map fun e => (e.1, { e.2 with full := false })).filter fun e => e.2 ≠ TagDesc.zero else p.tags
    sync := if fld r 18 1 = 1 then [] else p.sync
    sgBase := fld r (8 * 0x16) 9
    sgCnt := fld r (8 * 0x18) 10
    sgMatch := recByte r 0x1A
    sgMask := recByte r 0x1B
    mem := SMap.drop (fun a => !bit banks (a / 0x80000)) p.mem
    bankOn := p.bankOn &&& banks
    held := [] }

/-- An access that waited for its bank is applied (R94, R95). -/
def SpdState.applyHeld (p : SpdState) : HeldAccess → SpdState
  | .write _ off data => { p with mem := p.mem.write off data }
  | .signal _ n v => { p with sync := SMap.set 0 p.sync n (SMap.get 0 p.sync n + v) }

/-- Steps 4 and 5 of R104, and the held accesses applied after the clear, oldest first (R94, R95). -/
def SpdState.ready (p : SpdState) (r : Rec64) : SpdState :=
  let banks : BitVec 16 := BitVec.ofNat 16 (recField r 4 2)
  let keep : BitVec 16 := BitVec.ofNat 16 (recField r 6 2)
  let kept := p.bankOn &&& keep
  let mem := SMap.drop (fun a => !bit kept (a / 0x80000)) p.mem
  p.held.foldl SpdState.applyHeld { p with mem := mem, bankOn := banks, held := [] }

/-- The sequencer's state at task start (R40). -/
def SeqState.start (slot : Fin 4) (r : Rec64) : SeqState :=
  let regs := (List.range 4).foldl
    (fun v i => v.set (Fin.ofNat 32 (i + 1)) (BitVec.ofNat 64 (recField r (0x20 + 8 * i) 8))) (Vector.replicate 32 0)
  ⟨.running, fld r 0 15, regs, 0, [], [], BitVec.ofNat 32 (recField r 0x0C 4), 0, slot⟩

/-- An idle sequencer takes a PENDING slot, unless the module is not running, its die naps or Gauntlet's tests of the safety paths run or have failed (R414), validates its record and starts preparing the task, or refuses it. -/
def State.slotTake (s : State) (c : CoreId) : State :=
  let k := s.cores[c]
  if s.pwr.mode ≠ .run ∨ s.pwr.trip ∨ k.busy ∨ bit s.pwr.nap (dieOf c).val ∨ ((s.gnt.mode = .test ∨ s.gnt.mode = .failed) ∧ isSafety (s.partOf c)) then s
  else match k.spd.nextPending with
    | none => s
    | some i =>
      let r := k.spd.slots[i].record
      let s := s.modSpd c fun p =>
        { p with lastTaken := some i, slots := p.slots.set i { p.slots[i] with state := .running } }
      match s.launchRefusal c r with
      | some st => (s.slotDone c i st false true).postCore c (0x1000 + st)
      | none => (s.modSpd c fun p => p.prepare r).modSeq c fun q => { q with phase := .preparing, slot := i }

def execLaunchSlotTake (c : CoreId) (s : State) : Answer := .next (s.slotTake c)

/-- Power-up and clears end; the state of R40 is loaded and execution starts at ENTRY. -/
def State.taskStart (s : State) (c : CoreId) : State :=
  let k := s.cores[c]
  if k.seq.phase = .preparing then
    let r := k.record
    ((s.modSpd c fun p => p.ready r).modSeq c fun q => SeqState.start q.slot r).modCore c fun k => { k with geo := k.geo.noGrid }
  else s

def execTaskStart (c : CoreId) (s : State) : Answer := .next (s.taskStart c)

/-! ### Scratchpad faults (R108) -/

/-- A parity error in control state: the task of the RUNNING slot ends with 0x8C under R74, also one still being prepared;
with no slot RUNNING, the PENDING ones end with it, without a signal or an event (log entry 11). -/
def State.spdControlParity (s : State) (c : CoreId) : State :=
  match s.cores[c].seq.phase with
  | .idle => s.cores[c].slotsToEnd.foldl (fun t i => t.slotDone c i 0x8C false false) s
  | .preparing => s.failPreparing c 0x8C
  | _ => s.failTask c 0x8C

/-- What a storage fault of the scratchpad does, apart from the LD that may meet it. -/
def execSpdParityError (c : CoreId) (f : SpdFault) (s : State) : Answer :=
  .next (match f with
    | .control => s.spdControlParity c
    | .bankSingle => s.spdCorrected c
    | .bankDouble => s.failTask c 0x8B)

end Sys2Proof.Machine
end

