-- ==== Sys2Proof/Machine/Select.lean ====
section
/-! DEFINITION. The select engine (chapter 11): keys and their order, input forms, result records, top-k, bucket top-k,
merging, sorting and searching. -/

namespace Sys2Proof.Machine

def State.modSel (s : State) (c : CoreId) (f : Word → Word) : State := s.modCore c fun k => { k with selcnt := f k.selcnt }

/-! ### Keys (R265, R266) -/

def keyBytes (kf : Nat) : Nat := match kf with | 0 => 1 | 1 | 5 | 6 => 2 | 4 => 8 | _ => 4
def pairBytes (kf : Nat) : Nat := if kf = 4 then 16 else 8

/-- The value of a key. -/
inductive Key where
  | int (x : Int)
  | flt (v : FV)

def keyOf (kf raw : Nat) : Key :=
  match kf with
  | 0 => .int (toSigned 8 raw)
  | 1 => .int (toSigned 16 raw)
  | 2 => .int (toSigned 32 raw)
  | 3 => .int (raw % 2 ^ 32 : Nat)
  | 4 => .int (raw : Nat)
  | 5 => .flt (bf16.decode raw)
  | 6 => .flt (fp16.decode raw)
  | _ => .flt (fp32.decode raw)

def Key.isNan : Key → Bool
  | .flt v => v.isNan
  | _ => false

/-- a > b as numbers. -/
def Key.gt (a b : Key) : Bool :=
  match a, b with
  | .int x, .int y => decide (y < x)
  | .flt x, .flt y => y.lt x
  | _, _ => false

/-- Key a ranks before key b (R266). -/
def ranksBefore (kf : Nat) (dir : Bool) (a b : Nat) : Bool :=
  let x := keyOf kf a
  let y := keyOf kf b
  (x.isNan && !y.isNan) || (!x.isNan && !y.isNan && if dir then y.gt x else x.gt y)

/-- An element read: its key, its index, whether it is owned, and its input position. -/
structure SelElem where
  key   : Nat
  idx   : Nat
  owned : Bool
  pos   : Nat
  deriving DecidableEq

/-- An element put behind all that it does not come before. -/
def insertRank {α : Type} (before : α → α → Bool) (e : α) : List α → List α
  | [] => [e]
  | x :: r => if before e x then e :: x :: r else x :: insertRank before e r

/-- A list in rank order; equal elements keep their order. -/
def rankSort {α : Type} (before : α → α → Bool) (l : List α) : List α := l.foldl (fun a e => insertRank before e a) []

/-! ### Commands (R268, R270, R271) -/

structure SelCmd where
  ioff  : Nat
  n     : Nat
  nseg  : Nat
  ooff  : Nat
  k     : Nat
  kf    : Nat
  iform : Nat
  dir   : Bool
  vout  : Bool
  sumen : Bool
  poff  : Nat
  woff  : Nat
  pen   : Bool

def selCmd (q : EngCmd) : SelCmd :=
  ⟨fld q.w1 0 23, fld q.w1 23 20 + 1, fld q.w1 43 20 + 1, fld q.w2 0 23, fld q.w2 23 20 + 1, fld q.w2 43 4, fld q.w2 47 2,
    bit q.w2 49, bit q.w2 50, bit q.w2 51, fld q.w3 0 23, fld q.w3 23 23, bit q.w3 46⟩

/-- The parameter block (R268). -/
structure SelPar where
  sstr  : Nat
  ibase : Nat
  olo   : Nat
  ohi   : Nat
  ownen : Bool
  bper  : Nat
  nbkt  : Nat
  ok    : Bool

/-- The default stride of a segment. -/
def SelCmd.stride (x : SelCmd) : Nat :=
  (match x.iform with
    | 0 => x.n * keyBytes x.kf
    | 1 => x.n * pairBytes x.kf
    | _ => 16 + 16 * x.n) + 15 |> fun v => v / 16 * 16

def SelCmd.par (x : SelCmd) (p : SpdState) : SelPar :=
  if x.pen then
    let n (o k : Nat) : Nat := p.num (x.poff + o) k
    ⟨n 0 4, n 4 4, n 8 4, if n 0xC 4 = 0 then 2 ^ 32 else n 0xC 4, decide (n 0x10 1 = 1), n 0x11 1, n 0x12 2,
      decide (n 0 4 % 16 = 0) && decide (n 0x10 1 < 2) && decide (n 0x14 12 = 0)⟩
  else ⟨x.stride, 0, 0, 2 ^ 32, false, 0, 0, true⟩

/-- Size of an entry, and the stride of result records (R269). -/
def SelCmd.es (x : SelCmd) : Nat := if x.vout then pairBytes x.kf else 4
def SelCmd.ostr (x : SelCmd) : Nat := (32 + x.k * x.es + 15) / 16 * 16

/-- The words that every opcode reserves or limits. -/
def SelCmd.words (x : SelCmd) (q : EngCmd) : Bool :=
  decide (q.cspec = 0) && bit q.w1 63 == false && decide (fld q.w2 52 12 = 0) && decide (fld q.w3 47 17 = 0) &&
    decide (x.ioff % 16 = 0) && decide (x.kf ≤ 7)

/-- Limits of ARGMAX, TOPK, BTOPK and SORT apart from their ranges. -/
def SelCmd.segOk (x : SelCmd) (q : EngCmd) : Bool :=
  x.words q && decide (x.ooff % 16 = 0) && decide (x.n ≤ 524288) && decide (x.nseg ≤ 524288) && decide (x.iform < 3) && (decide (x.iform ≠ 2) || decide (x.kf = 4)) &&
    decide (x.poff % 32 = 0) && decide (x.woff % 256 = 0) && !(x.sumen && decide (x.kf = 4))

/-- Bytes of a segment that a command may read. -/
def SelCmd.segLen (x : SelCmd) : Nat :=
  match x.iform with
  | 0 => x.n * keyBytes x.kf
  | 1 => x.n * pairBytes x.kf
  | _ => 16 + 16 * x.n

/-- Where segment s starts. -/
def SelCmd.segAt (x : SelCmd) (r : SelPar) (s : Nat) : Nat := x.ioff + r.sstr * s

/-- The segments. -/
def SelCmd.segments (x : SelCmd) (r : SelPar) : List (Nat × Nat) := (List.range x.nseg).map fun s => (x.segAt r s, x.segLen)

/-! ### Elements (R267) -/

/-- OVF and BADRNG of a KNNC row header, QFL at byte 8 (R161). -/
def rowFlags (h : Nat) : Nat := h / 2 ^ 64 % 4

/-- The number of elements read of the segment at `a`. -/
def SelCmd.count (x : SelCmd) (p : SpdState) (a : Nat) : Nat :=
  if x.iform = 2 then if rowFlags (p.num a 16) ≠ 0 then 0 else min (p.num a 4) x.n else x.n

/-- The headers of the segments, which KNNC rows have. -/
def SelCmd.heads (x : SelCmd) (r : SelPar) : List (Nat × Nat) :=
  if x.iform = 2 then (List.range x.nseg).map fun s => (x.segAt r s, 16) else []

/-- What is read of the segments, their headers known. -/
def SelCmd.segReads (x : SelCmd) (p : SpdState) (r : SelPar) : List (Nat × Nat) :=
  (List.range x.nseg).map fun s =>
    let a := x.segAt r s
    if x.iform = 2 then (a + 16, 16 * x.count p a) else (a, x.segLen)

/-- The elements of segment s. -/
def SelCmd.elems (x : SelCmd) (p : SpdState) (r : SelPar) (s : Nat) : List SelElem :=
  let a := x.segAt r s
  let own (i : Nat) : Bool := !r.ownen || (decide (r.olo ≤ i) && decide (i < r.ohi))
  let kb := keyBytes x.kf
  let mk (key idx pos : Nat) : SelElem := ⟨key, idx, own idx, pos⟩
  (List.range (x.count p a)).map fun i =>
    match x.iform with
    | 0 => mk (p.num (a + kb * i) kb) ((r.ibase + i) % 2 ^ 32) i
    | 1 =>
      let b := a + pairBytes x.kf * i
      mk (p.num b kb) (p.num (b + if x.kf = 4 then 8 else 4) 4) i
    | _ =>
      let b := a + 16 + 16 * i
      mk (p.num b 8) (p.num (b + 8) 4) i

/-! ### Results (R269) -/

/-- A pair as bytes. -/
def pairOf (kf key idx : Nat) : List Byte :=
  if kf = 4 then leBytes 8 key ++ leBytes 4 idx ++ leBytes 4 0 else leBytes 4 (key % 2 ^ (8 * keyBytes kf)) ++ leBytes 4 idx

/-- A sum of keys as its 8 bytes: an i64, or an FP32 in the low four. An i64 that overflows is open, as a function of the exact
sum: sums repeat for the same input. -/
def sumBytes (kf : Nat) (start : Key) (l : List Nat) : Key × List Byte :=
  match start with
  | .int x0 =>
    let t := l.foldl (fun a k => match keyOf kf k with | .int x => a + x | .flt _ => a) x0
    (.int t, if -(2 ^ 63) ≤ t ∧ t < 2 ^ 63 then leBytes 8 (wrapN 64 t) else leBytes 8 (Config.openResult 2 [wrapN 128 t]).toNat)
  | .flt v0 =>
    let t := l.foldl (fun a k => match keyOf kf k with | .flt v => fp32.add a v | .int _ => a) v0
    (.flt t, leBytes 4 (fp32.encode t) ++ leBytes 4 0)

def zeroKey (kf : Nat) : Key := if kf ≤ 4 then .int 0 else .flt .zero

/-- SRC: logical core and module address. -/
def State.selSrc (s : State) (c : CoreId) : Nat := c.val + 32 * s.fab.addr.toNat

/-- A result record. -/
def SelCmd.record (x : SelCmd) (src : Nat) (sel : List SelElem) (nin rfl nsatb : Nat) (sums : List Byte) : List Byte :=
  let nan := sel.any fun e => (keyOf x.kf e.key).isNan
  let fl := rfl + ofBool (decide (sel.length < x.k)) + 2 * ofBool nan
  let entry (key idx : Nat) : List Byte := if x.vout then pairOf x.kf key idx else leBytes 4 idx
  leBytes 4 sel.length ++ leBytes 4 nin ++ leBytes 1 fl ++ [0] ++ leBytes 2 (min nsatb 0xFFFF) ++ leBytes 4 src ++
    (if x.sumen then sums else leBytes 16 0) ++ sel.flatMap (fun e => entry e.key e.idx) ++
    (List.range (x.k - sel.length)).flatMap (fun _ => entry 0 0xFFFFFFFF)

/-- SUMSEL and SUMOUT of a selection. -/
def SelCmd.sums (x : SelCmd) (sel all : List SelElem) : List Byte :=
  (sumBytes x.kf (zeroKey x.kf) ((sel.filter (·.owned)).map (·.key))).2 ++
    (sumBytes x.kf (zeroKey x.kf)
      ((all.filter fun e => e.owned && !sel.any fun t => decide (t.pos = e.pos)).map (·.key))).2

/-- Rank order of elements: by key, then by position. -/
def SelCmd.rank (x : SelCmd) (l : List SelElem) : List SelElem := rankSort (fun a b => ranksBefore x.kf x.dir a.key b.key) l

/-! ### TOPK and ARGMAX (R272), BTOPK (R274) -/

/-- A selection: the elements chosen and the saturated buckets. -/
structure Selection where
  sel  : List SelElem
  sat  : Nat

/-- The exact top K. -/
def SelCmd.topk (x : SelCmd) (l : List SelElem) : Selection := ⟨(x.rank l).take x.k, 0⟩

/-- Top K through B buckets of b candidates. -/
def SelCmd.btopk (x : SelCmd) (r : SelPar) (l : List SelElem) : Selection :=
  let n := l.length
  let bs := (List.range r.nbkt).map fun j =>
    (x.rank (l.filter fun e => decide (n * j / r.nbkt ≤ e.pos) && decide (e.pos < n * (j + 1) / r.nbkt))).take r.bper
  let cand := rankSort (fun a b => decide (a.pos < b.pos)) bs.flatten
  let sel := (x.rank cand).take x.k
  ⟨sel, (bs.filter fun b => decide (b.length = r.bper) && b.all fun e => sel.contains e).length⟩

/-- A record written: the entries, then the header (R279). -/
def State.putRecord (s : State) (c : CoreId) (a : Nat) (bs : List Byte) : State :=
  (s.wideWrite c 3 (a + 32) (bs.drop 32)).wideWrite c 3 a (bs.take 32)

/-- One segment of a selection: its record written. -/
def State.selSegment (s : State) (c : CoreId) (x : SelCmd) (p : SpdState) (r : SelPar) (choose : List SelElem → Selection) (k : Nat) :
    State × Bool :=
  let l := x.elems p r k
  let z := choose l
  let bytes := x.record (s.selSrc c) z.sel l.length (4 * ofBool (decide (0 < z.sat))) z.sat (x.sums z.sel l)
  (s.putRecord c (x.ooff + x.ostr * k) bytes, decide (0 < z.sat))

/-- Ranges whose bytes are open. -/
def State.openRanges (s : State) (c : CoreId) (rs : List (Nat × Nat)) : State :=
  rs.foldl (fun t w => let d := t.drawBytes w.2; d.2.wideWrite c 3 w.1 d.1) s

/-- The work of a command that uses a workspace: the output ranges are open too where the workspace lies over an input, which
no rule refuses and none gives a result for. The workspace is open afterwards (R277). -/
def State.throughWork (s : State) (c : CoreId) (ins outs work : List (Nat × Nat)) (go : State → State) : State :=
  let lies := work.any fun w => ins.any fun i => overlap w.1 w.2 i.1 i.2
  (if lies then s.openRanges c outs else go s).openRanges c work

/-- The parameter block, where there is one. -/
def SelCmd.parRange (x : SelCmd) : List (Nat × Nat) := if x.pen then [(x.poff, 32)] else []

/-- A command over segments: the parameter block is read and the ranges are checked, then the segments are read. No output may
lie over an input, the parameter block or the workspace (R271). -/
def State.overSegs (s : State) (c : CoreId) (x : SelCmd) (outs work : List (Nat × Nat)) (parOk : SelPar → Bool)
    (go : SelPar → State → State) : EngineRun :=
  if !rangesOk x.parRange [] then .refuse
  else s.overSpd c 3 x.parRange fun s =>
    let r := x.par s.cores[c].spd
    let ins := x.segments r ++ x.parRange
    if !(r.ok && parOk r && rangesOk (ins ++ work) outs) then .refuse
    else s.overSpd c 3 (x.heads r) fun s => s.overSpd c 3 (x.segReads s.cores[c].spd r) fun s =>
      .done (s.throughWork c ins outs work (go r))

/-- A segmented selection. -/
def State.selRun (s : State) (c : CoreId) (x : SelCmd) (work : List (Nat × Nat)) (parOk : SelPar → Bool)
    (choose : SelPar → List SelElem → Selection) : EngineRun :=
  s.overSegs c x [(x.ooff, x.ostr * x.nseg)] work parOk fun r s =>
    let p := s.cores[c].spd
    let t := (List.range x.nseg).foldl (fun (t : State × Bool) k =>
      let u := t.1.selSegment c x p r (choose r) k
      (u.1, t.2 || u.2)) (s, false)
    if t.2 then (t.1.modSel c fun w => count16 w 32).postCore c 0x5302 else t.1

/-- Opcode 0x01. -/
def State.argmax (s : State) (c : CoreId) (q : EngCmd) : EngineRun :=
  let x := selCmd q
  if !(x.segOk q && decide (x.k = 1)) then .refuse
  else s.selRun c x [] (fun _ => true) fun _ => x.topk

/-- Opcode 0x02. -/
def State.topkRun (s : State) (c : CoreId) (q : EngCmd) : EngineRun :=
  let x := selCmd q
  let big := decide (16384 < x.k)
  if !(x.segOk q && decide (x.k ≤ x.n) && !(big && decide (262144 < x.n))) then .refuse
  else s.selRun c x (if big then [(x.woff, x.n * pairBytes x.kf)] else []) (fun _ => true) fun _ => x.topk

/-- Opcode 0x03. -/
def State.btopkRun (s : State) (c : CoreId) (q : EngCmd) : EngineRun :=
  let x := selCmd q
  if !(x.segOk q && decide (x.k ≤ x.n) && decide (x.k ≤ 16384) && x.pen) then .refuse
  else s.selRun c x []
    (fun r => between 1 r.bper 8 && between 2 r.nbkt 4096 && decide (x.k ≤ r.nbkt * r.bper) && decide (r.nbkt * r.bper ≤ 16384))
    fun r => x.btopk r

/-! ### MERGE (R275, R276) -/

/-- The header of a list. -/
structure MList where
  off   : Nat
  valid : Nat
  src   : Nat
  bsat  : Bool
  nsatb : Nat
  raw   : Nat
  out   : Nat

def mList (p : SpdState) (off : Nat) : MList :=
  ⟨off, p.num off 4, p.num (off + 0xC) 4, (p.num (off + 8) 1).testBit 2, p.num (off + 0xA) 2, p.num (off + 0x10) 8, p.num (off + 0x18) 8⟩

/-- SRC in the order of R275: module address, then logical core. -/
def srcRank (src : Nat) : Nat := (src / 32 % 2 ^ 15) * 32 + src % 32

/-- An entry of a list: key, index, SRC and position. -/
structure MEntry where
  key : Nat
  idx : Nat
  src : Nat
  pos : Nat

/-- Entries of a list up to the first that ranks before its predecessor, and whether there was one. -/
def SelCmd.orderCut (x : SelCmd) : List MEntry → List MEntry × Bool
  | [] => ([], false)
  | [e] => ([e], false)
  | e :: f :: r =>
    if ranksBefore x.kf x.dir f.key e.key then ([e], true)
    else let t := x.orderCut (f :: r); (e :: t.1, t.2)

def SelCmd.entries (x : SelCmd) (p : SpdState) (l : MList) : List MEntry × Bool :=
  x.orderCut ((List.range l.valid).map fun i =>
    let a := l.off + 32 + pairBytes x.kf * i
    ⟨p.num a (keyBytes x.kf), p.num (a + if x.kf = 4 then 8 else 4) 4, srcRank l.src, i⟩)

/-- Whether entry a comes before entry b in the union. -/
def SelCmd.before (x : SelCmd) (a b : MEntry) : Bool :=
  ranksBefore x.kf x.dir a.key b.key ||
    (!ranksBefore x.kf x.dir b.key a.key && (decide (a.src < b.src) || (decide (a.src = b.src) && decide (a.pos < b.pos))))

/-- The first copy of each index in a ranked list. -/
def firstCopies (seen : List Nat) : List MEntry → List MEntry
  | [] => []
  | e :: r => if seen.contains e.idx then firstCopies seen r else e :: firstCopies (e.idx :: seen) r

/-- A stored sum. -/
def storedSum (kf w : Nat) : Key := if kf ≤ 4 then .int (toSigned 64 w) else .flt (fp32.decode (w % 2 ^ 32))

/-- Two sums added or subtracted. -/
def Key.plus (a b : Key) (neg : Bool) : Key :=
  match a, b with
  | .int x, .int y => .int (if neg then x - y else x + y)
  | .flt x, .flt y => .flt (if neg then fp32.sub x y else fp32.add x y)
  | a, _ => a

/-- SUMSEL and SUMOUT of a merge. -/
def SelCmd.mergeSums (x : SelCmd) (ls : List MList) (sel : List MEntry) : List Byte :=
  let a := sumBytes x.kf (zeroKey x.kf) (sel.map (·.key))
  let ordered := rankSort (fun a b => decide (srcRank a.src < srcRank b.src)) ls
  let t := ordered.foldl (fun t l => t.plus ((storedSum x.kf l.raw).plus (storedSum x.kf l.out) false) false) (zeroKey x.kf)
  a.2 ++ (sumBytes x.kf (t.plus a.1 true) []).2

/-- The record of a merge, and whether a list was cut. -/
def SelCmd.merge (x : SelCmd) (src : Nat) (xs : Bool) (p : SpdState) (ls : List MList) : List Byte × Bool :=
  let es := ls.map fun l => x.entries p l
  let bad := es.any (·.2)
  let all := es.flatMap (·.1)
  let sel := (firstCopies [] (rankSort x.before all)).take x.k
  let rfl := 4 * ofBool (ls.any (·.bsat)) + 8 * ofBool bad + 16 * ofBool xs
  (x.record src (sel.map fun e => ⟨e.key, e.idx, true, e.pos⟩) all.length rfl
    ((ls.map (·.nsatb)).foldl (· + ·) 0) (x.mergeSums ls sel), bad)

/-- Opcode 0x04. -/
def State.mergeRun (s : State) (c : CoreId) (q : EngCmd) : EngineRun :=
  let x := selCmd q
  let n := fld q.w1 43 6 + 1
  let tab : Nat × Nat := (x.ioff, 4 * n)
  let out : Nat × Nat := (x.ooff, x.ostr)
  if !(x.words q && decide (fld q.w1 23 20 = 0) && decide (fld q.w1 49 14 = 0) && decide (x.iform = 0) && decide (fld q.w3 0 46 = 0) &&
      !(x.pen && x.sumen) && !(x.sumen && decide (x.kf = 4)) && rangesOk [tab] [out]) then .refuse
  else s.overSpd c 3 [tab] fun s =>
    let p := s.cores[c].spd
    let offs := (List.range n).map fun i => p.num (x.ioff + 4 * i) 4
    if offs.any fun o => decide (2 ^ 23 ≤ o) || decide (o % 16 ≠ 0) || decide (spdBytes < o + 32) then .refuse
    else s.overSpd c 3 (offs.map fun o => (o, 32)) fun s =>
      let ls := offs.map (mList s.cores[c].spd)
      let ins : List (Nat × Nat) := ls.map fun l => (l.off, 32 + l.valid * pairBytes x.kf)
      if !rangesOk (tab :: ins) [out] then .refuse
      else s.overSpd c 3 ins fun s =>
        let m := x.merge (s.selSrc c) x.pen s.cores[c].spd ls
        let s := s.putRecord c x.ooff m.1
        .done (if m.2 then (s.modSel c fun w => count16 w 16).postCore c 0x5303 else s)

/-! ### SORT (R277) and SEARCH (R278) -/

/-- Opcode 0x05. -/
def State.sortRun (s : State) (c : CoreId) (q : EngCmd) : EngineRun :=
  let x := selCmd q
  let len := x.n * pairBytes x.kf
  let ostr := (len + 15) / 16 * 16
  if !(x.segOk q && decide (x.iform < 2) && decide (x.n ≤ 262144) && decide (x.k = 1) && !x.vout && !x.sumen) then .refuse
  else s.overSegs c x [(x.ooff, ostr * x.nseg)] [(x.woff, len)] (fun _ => true) fun r s =>
    let p := s.cores[c].spd
    (List.range x.nseg).foldl (fun t k =>
      t.wideWrite c 3 (x.ooff + ostr * k) ((x.rank (x.elems p r k)).flatMap fun e => pairOf x.kf e.key e.idx)) s

/-- The first position from lo whose element satisfies `p`, by binary search. -/
def firstWhere (p : Nat → Bool) : Nat → Nat → Nat → Nat
  | 0, lo, _ => lo
  | n + 1, lo, hi =>
    if hi ≤ lo then lo
    else
      let mid := (lo + hi) / 2
      if p mid then firstWhere p n lo mid else firstWhere p n (mid + 1) hi

/-- LO and CNT of one query. -/
def SelCmd.search (x : SelCmd) (key : Nat → Nat) (query : Nat) : Nat × Nat :=
  let lo := firstWhere (fun i => !ranksBefore x.kf x.dir (key i) query) 32 0 x.n
  let hi := firstWhere (fun i => ranksBefore x.kf x.dir query (key i)) 32 0 x.n
  (lo, hi - lo)

/-- Opcode 0x06. -/
def State.searchRun (s : State) (c : CoreId) (q : EngCmd) : EngineRun :=
  let x := selCmd q
  let kb := keyBytes x.kf
  let eb := if x.iform = 0 then kb else pairBytes x.kf
  let nq := fld q.w3 23 20 + 1
  let ins : List (Nat × Nat) := [(x.ioff, x.n * eb), (x.poff, nq * kb)]
  let outs : List (Nat × Nat) := [(x.ooff, 8 * nq)]
  if !(x.words q && decide (x.ooff % 16 = 0) && decide (x.n ≤ 524288) && decide (x.nseg = 1) && decide (fld q.w2 23 20 = 0) && decide (x.iform < 2) && !x.vout &&
      !x.sumen && decide (x.poff % 16 = 0) && decide (fld q.w3 43 21 = 0) && decide (nq ≤ 524288) && rangesOk ins outs) then .refuse
  else s.overSpd c 3 ins fun s =>
    let p := s.cores[c].spd
    .done ((List.range nq).foldl (fun t i =>
      let r := x.search (fun j => p.num (x.ioff + eb * j) kb) (p.num (x.poff + kb * i) kb)
      t.wideWrite c 3 (x.ooff + 8 * i) (leBytes 4 r.1 ++ leBytes 4 r.2)) s)

/-- Opcodes of SEL. -/
def selListed (o : Nat) : Bool := between 1 o 6

def State.selStep (s : State) (c : CoreId) (op : Nat) (run : EngCmd → State → EngineRun) : State :=
  s.engineStep c 3 (· == op) (if op = 2 then selListed else fun _ => true) 0x5301 (coreIni c) run

def execArgmax (c : CoreId) (s : State) : Answer := .next (s.selStep c 1 fun q t => t.argmax c q)
def execTopk (c : CoreId) (s : State) : Answer := .next (s.selStep c 2 fun q t => t.topkRun c q)
def execBtopk (c : CoreId) (s : State) : Answer := .next (s.selStep c 3 fun q t => t.btopkRun c q)
def execMerge (c : CoreId) (s : State) : Answer := .next (s.selStep c 4 fun q t => t.mergeRun c q)
def execSort (c : CoreId) (s : State) : Answer := .next (s.selStep c 5 fun q t => t.sortRun c q)
def execSearch (c : CoreId) (s : State) : Answer := .next (s.selStep c 6 fun q t => t.searchRun c q)

/-- A write of SELCLR. -/
def State.selclr (s : State) (c : CoreId) (h : Half) (v : Word) : State :=
  if bit (carried h v) 0 then s.modSel c fun _ => 0 else s

def execSelclr (c : CoreId) (h : Half) (v : Word) (s : State) : Answer := .next (s.selclr c h v)

end Sys2Proof.Machine
end

