-- ==== Sys2Proof/Machine/SliceTime.lean ====
section
/-! DEFINITION. Slice time over the fabric and over trunks (R388, R389). -/

namespace Sys2Proof.Machine

def State.modTb (s : State) (f : TbState → TbState) : State := { s with tb := f s.tb }

/-- TB_CFG.FABEN, and the domain that carries slice time. -/
def State.fabEn (s : State) : Bool := bit s.tb.cfg 47
def State.fabDom (s : State) : Fin 2 := if bit s.tb.cfg 46 then 1 else 0

/-- Whether port p is up. -/
def State.linkUp' (s : State) (p : Fin 6) : Bool := decide (s.fab.ports[p].state = 3)

/-- A stamp: ticks of 2 ns. -/
def State.stamp (s : State) : Word := s.tb.cnt + s.tb.cnt

/-- Every 10 ms an up port sends PDREQ, stamped where it is sent. -/
def State.pdreqSend (s : State) (p : Fin 6) : State :=
  if s.fabEn && s.linkUp' p then
    (s.modTb fun b => { b with peer := b.peer.set p { b.peer[p] with t1 := some s.stamp } }).emit (.time p s.fab.addr 0x70 .pdreq)
  else s

def execPdreqSend (p : Fin 6) (s : State) : Answer := .next (s.pdreqSend p)

/-- PDREQ is answered with its receive and send stamps. -/
def execPdreq (p : MgmtAt) (s : State) : Answer :=
  .next (s.mgmtIn p.port 0x10 p.head fun s =>
    if s.fabEn && s.linkUp' p.port then s.emit (.time p.port s.fab.addr 0x70 (.pdresp s.stamp s.stamp)) else s)

/-- PDRESP gives the link delay, ((t4 − t1) − (t3 − t2)) ÷ 2. -/
def State.pdresp (s : State) (p : Fin 6) (t2 t3 : Word) : State :=
  match s.tb.peer[p].t1 with
  | none => s
  | some t1 =>
    if s.fabEn && s.linkUp' p then
      let d := ((s.stamp - t1) - (t3 - t2)).toInt / 2
      s.modTb fun b => { b with peer := b.peer.set p ⟨none, d⟩ }
    else s

def execPdresp (p : MgmtAt) (t2 t3 : Word) (s : State) : Answer :=
  .next (s.mgmtIn p.port 0x11 p.head fun s => s.pdresp p.port t2 t3)

/-- SYNC to the children of the survey tree. -/
def State.syncOut (s : State) (time : Word) : State :=
  (List.finRange 6).foldl (fun t p =>
    if bit t.fab.tree p.val && t.linkUp' p && decide (t.fab.ports[p].mode = 1) then t.emit (.time p t.fab.addr 0x70 (.sync time)) else t) s

/-- Every 1 ms the origin sends SYNC with its slice time. -/
def execSliceSyncSend (s : State) : Answer :=
  .next (if s.fabEn && s.fab.valid && s.fab.origin then s.syncOut (s.domTime s.fabDom) else s)

/-- SYNC from the parent: Crown steers FABDOM with the rate its servo chooses, and the children get the time raised by
the parent link's delay. -/
def State.syncIn (s : State) (p : Fin 6) (time : Word) (r : BitVec 32) : State :=
  if s.fabEn && s.linkUp' p && decide (s.fab.parent = some p) && decide (s.fab.ports[p].mode = 1) then
    let s := (s.modTb fun b => { b with lastSync := some b.cnt }).domRate s.fabDom r
    s.syncOut (time + BitVec.ofInt 64 s.tb.peer[p].delay)
  else s

def execSync (p : MgmtAt) (time : Word) (r : BitVec 32) (s : State) : Answer :=
  .next (s.mgmtIn p.port 0x12 p.head fun s => s.syncIn p.port time r)

/-- No SYNC for 10 ms. -/
def State.syncLoss (s : State) : State :=
  match s.tb.lastSync with
  | some t =>
    if s.fabEn && decide (5000000 ≤ (s.tb.cnt - t).toNat) then
      (((s.modTb fun b => { b with lastSync := none }).domHoldover s.fabDom).post 0x7070 0xC4)
    else s
  | none => s

def execSliceSyncLoss (s : State) : Answer := .next s.syncLoss

/-- The trunk port of TB_BRIDGE[k]. -/
def trunkPort (k : Fin 2) : Fin 6 := if k = 0 then 4 else 5

/-- Whether port Z+ or Z− is an up trunk. -/
def State.trunkUp (s : State) (k : Fin 2) : Bool := s.linkUp' (trunkPort k) && decide (s.fab.ports[trunkPort k].mode = 2)

def execBridgeSend (k : Fin 2) (s : State) : Answer :=
  .next (if s.fabEn && s.trunkUp k && s.serves .management then s.emit (.time (trunkPort k) s.fab.addr 0x70 (.bridge (s.domTime s.fabDom))) else s)

/-- BRIDGE: the value carried, plus the link delay, minus this module's FABDOM when it arrives, is Crown's to store. -/
def State.bridgeIn (s : State) (k : Fin 2) (time : Word) : State :=
  if s.fabEn && s.trunkUp k then
    let v := time + BitVec.ofInt 64 s.tb.peer[trunkPort k].delay - s.domTime s.fabDom
    s.mgmtArrive (.bridge k v)
  else s

def execBridge (k : Fin 2) (b : BridgeTime) (s : State) : Answer :=
  .next (s.mgmtIn (trunkPort k) 0x13 b.head fun s => s.bridgeIn k b.time)

/-- 100 ms without BRIDGE. -/
def State.bridgeLoss (s : State) (k : Fin 2) : State :=
  match s.tb.lastBridge[k] with
  | some t =>
    if 50000000 ≤ (s.tb.cnt - t).toNat then
      (s.modTb fun b => { b with
        bridge := b.bridge.set k (setBit b.bridge[k] 63 false), lastBridge := b.lastBridge.set k none }).post 0x7071 0xC4
    else s
  | none => s

def execBridgeLoss (k : Fin 2) (s : State) : Answer := .next (s.bridgeLoss k)

end Sys2Proof.Machine
end

