-- ==== Sys2Proof/Machine/RegRead.lean ====
section
/-! DEFINITION. Every register of PF0 BAR0, BAR2 and PF1 BAR0 as it reads (the register sections of every chapter; R9,
R11, R498), and reads of device physical addresses (R34, R35, R92). -/

namespace Sys2Proof.Machine

/-- Doubleword `k` of a wider register. -/
def dword {n : Nat} (w : BitVec n) (k : Nat) : Word := BitVec.ofNat 64 (fld w (64 * k) 64)

/-- Two 4-byte registers in one doubleword. -/
def twoWords (lo hi : BitVec 32) : Word := pack [(0, 32, lo.toNat), (32, 32, hi.toNat)]

/-- Whether an offset lies in a range of `len` bytes from `base`. -/
def offIn (base len o : Nat) : Bool := decide (base ≤ o) && decide (o < base + len)

/-- A register whose contents the manual names without a layout: free bytes. -/
def State.freeReg (s : State) (o : Nat) : Word :=
  BitVec.ofNat 64 (leNat ((List.range 8).map fun i => Config.freeByte s.free (o + i)))

/-! ### PCI, EVT, PWR -/

def PciState.link (p : PciState) : Word :=
  pack [(48, 16, p.retr), (16, 3, p.width.toNat), (8, 1, ofBool p.linkUp), (0, 3, p.speed.toNat)]

def PciState.err (p : PciState) : Word := pack [(48, 16, p.corr), (32, 16, p.urc), (16, 16, p.ecrce), (0, 16, p.pois)]

/-- A doubleword of an MSI-X table: address, or data and vector control. -/
def PciFn.tableWord (f : PciFn) (o : Nat) : Word :=
  let v := f.vect (o / 16)
  if o % 16 = 0 then v.addr else pack [(0, 32, v.data.toNat), (32, 1, ofBool v.masked)]

/-- A doubleword of a pending-bit array. -/
def PciFn.pbaWord (f : PciFn) (k : Nat) : Word :=
  pack ((List.range 64).map fun i => (i, 1, ofBool (f.vect (64 * k + i)).pending))

def State.pciWord (s : State) (o : Nat) : Word :=
  let p := s.pci
  if o = 0 then p.link
  else if o = 8 then p.err
  else if o = 0x10 then p.apbase
  else if offIn 0x100 0x100 o then p.hwin[Fin.ofNat 32 ((o - 0x100) / 8)]
  else if offIn 0x8000 0x1000 o then p.pf0.tableWord (o - 0x8000)
  else if offIn 0x9000 0x20 o then p.pf0.pbaWord ((o - 0x9000) / 8)
  else 0

def State.evtWord (s : State) (o : Nat) : Word :=
  let e := s.evt
  if o < 0x800 then e.routes[Fin.ofNat 256 (o / 8)]
  else if o = 0x800 then e.stat
  else if o = 0x808 then e.idx
  else if offIn 0x10000 0x4000 o then
    let r := SMap.get (⟨0, 0, 0, 0⟩ : RingEntry) e.ring ((o - 0x10000) / 16)
    if o % 16 = 0 then r.low else r.cnt
  else 0

def State.pwrWord (s : State) (o : Nat) : Word :=
  if o = 0 then s.pwr.stat else if o = 8 then s.pwr.dvfs else if o = 0x10 then s.pwr.ctl else 0

/-! ### The blocks of the cores -/

def State.spdWord (s : State) (c : CoreId) (o : Nat) : Word :=
  let k := s.cores[c]
  if o < 0x40000 then SMap.get 0 k.imem (o / 8)
  else if offIn 0x40000 0x8000 o then (k.spd.tag ((o - 0x40000) / 8)).word
  else if offIn 0x48000 0x1000 o then k.sync ((o - 0x48000) / 8)
  else if offIn 0x4A000 0x400 o then
    let w := k.spd.window ((o - 0x4A000) / 16)
    if o % 16 = 0 then w.low else w.high
  else if o = 0x4B000 then k.spd.stat
  else if o = 0x4B008 then k.spd.last
  else 0

def State.grdWord (s : State) (o : Nat) : Word :=
  if o < 0x40 then
    let p : Fin 4 := Fin.ofNat 4 (o / 16)
    if o % 16 = 0 then s.grd.spbase[p] else pack [(32, 32, s.grd.holder[p].toNat), (12, 7, s.grd.quota[p])]
  else if offIn 0x1000 0x800 o then
    let g := s.cores[Fin.ofNat 32 ((o - 0x1000) / 64)].geo
    match o % 64 with
    | 0 => g.gstat
    | 8 => g.gcnt1
    | 16 => g.gcnt2
    | 24 => g.qcnt
    | 32 => g.rcnt
    | _ => 0
  else 0

def Ramp.code : Ramp → Nat
  | .idle => 0 | .up => 1 | .full => 2 | .down => 3

/-- MXSTAT; THR while the die's power points throttle the engine (R208). -/
def State.mxstat (s : State) (c : CoreId) : Word :=
  let k := s.cores[c]
  pack [(4, 4, k.mxe.groups), (3, 1, ofBool (bit s.pwr.brims (dieOf c).val)), (1, 2, k.mxe.ramp.code),
    (0, 1, ofBool !k.engines[(1 : Fin 7)].active.isEmpty)]

def State.mxeWord (s : State) (c : CoreId) (o : Nat) : Word :=
  if o = 0 then s.mxstat c else if o = 8 then s.cores[c].mxe.mxcnt else if o = 0x18 then s.cores[c].mxe.spcnt else 0

def State.vecWord (s : State) (c : CoreId) (o : Nat) : Word :=
  let v := s.cores[c].vec
  if o = 0 then (match v.stbase with | some b => pack [(23, 1, 1), (0, 23, b)] | none => 0)
  else if o = 8 then v.vcnt
  else if offIn 0x100 0x100 o then (if o % 16 = 0 then v.sat[Fin.ofNat 16 ((o - 0x100) / 16)].cfg else 0)
  else if offIn 0x200 0x100 o then
    let t := v.sat[Fin.ofNat 16 ((o - 0x200) / 16)]
    if o % 16 = 0 then t.low else t.high
  else 0

/-! ### Ingest and gather units -/

def State.ingWord (s : State) (o : Nat) : Word :=
  let g := s.ing
  if o < 0x400 then dword g.tpl[Fin.ofNat 16 (o / 64)] (o % 64 / 8)
  else if offIn 0x400 0x200 o then dword g.sens[Fin.ofNat 16 ((o - 0x400) / 32)] (o % 32 / 8)
  else if offIn 0x800 0x400 o then dword g.ext[Fin.ofNat 16 ((o - 0x800) / 64)] (o % 64 / 8)
  else if offIn 0x1000 0x4000 o then
    twoWords (SMap.get 0 g.beam ((o - 0x1000) / 4)) (SMap.get 0 g.beam ((o - 0x1000) / 4 + 1))
  else if offIn 0x5000 0x100 o then
    let r := g.ring[Fin.ofNat 4 ((o - 0x5000) / 64)]
    let k := o % 64
    if k = 0 then r.rbase else if k = 8 then r.hbase else if k = 0x10 then r.rctl
    else if k = 0x18 then twoWords r.rhold r.hhold else if k = 0x20 then twoWords r.rwidx r.hwidx else 0
  else if offIn 0x5100 0x10 o then dword g.slotmap ((o - 0x5100) / 8)
  else if o = 0x5110 then pack [(0, 16, g.tplVal.toNat)]
  else if offIn 0x5200 0x80 o then dword g.injStage[Fin.ofNat 4 ((o - 0x5200) / 32)] (o % 32 / 8)
  else if offIn 0x5280 0x20 o then g.injStat (Fin.ofNat 4 ((o - 0x5280) / 8))
  else if offIn 0x5400 0x80 o then dword g.port[Fin.ofNat 4 ((o - 0x5400) / 32)].stat (o % 32 / 8)
  else if offIn 0x5600 0x200 o then dword g.sn[Fin.ofNat 16 ((o - 0x5600) / 32)].cnt.stat (o % 32 / 8)
  else 0

def State.nmgWord (s : State) (o : Nat) : Word :=
  let n := s.nmg
  if o < 0x1000 then dword n.tab[Fin.ofNat 64 (o / 64)] (o % 64 / 8)
  else if offIn 0x1000 0x20 o then n.hseg[Fin.ofNat 4 ((o - 0x1000) / 8)]
  else if o = 0x1100 then n.epochWord
  else if offIn 0x3000 0x100 o then
    let u := n.units[Fin.ofNat 16 ((o - 0x3000) / 16)]
    if o % 16 = 0 then u.low else u.high
  else 0

/-! ### DMA -/

/-- DCH_CTL as it reads; GO shows while the list it started runs. -/
def DmaChan.ctl (c : DmaChan) : Word :=
  pack [(16, 16, c.cnt), (6, 2, c.part), (4, 2, c.prio), (1, 1, ofBool c.stop), (0, 1, ofBool (c.busy && c.reg))]

def DmaChan.stat (c : DmaChan) : Word :=
  pack [(32, 32, c.descs), (16, 16, c.nbad), (8, 2, c.endc), (1, 1, ofBool c.reg), (0, 1, ofBool c.busy)]

def DmaChan.curWord (c : DmaChan) : Word := pack [(48, 1, ofBool c.csp), (0, 48, c.cur)]

def DmaChan.word (c : DmaChan) (k : Nat) : Word :=
  if k = 0 then c.head else if k = 8 then c.ctl else if k = 0x10 then c.stat else c.curWord

def State.dmaWord (s : State) (o : Nat) : Word :=
  if o < 0x4000 then
    (if o % 0x200 < 0x100 then s.dma.cores[Fin.ofNat 32 (o / 0x200)][Fin.ofNat 8 (o % 0x200 / 0x20)].word (o % 0x20) else 0)
  else if offIn 0x10000 0x800 o then
    let d : Fin 2 := Fin.ofNat 2 ((o - 0x10000) / 0x400)
    let k := o % 0x400
    if k < 0x200 then s.dma.dies[d][Fin.ofNat 16 (k / 0x20)].word (k % 0x20)
    else if k < 0x220 then
      let g := s.dma.drgn[d][Fin.ofNat 2 ((k - 0x200) / 16)]
      BitVec.ofNat 64 (if k % 16 = 0 then g.base else g.limit)
    else 0
  else 0

/-! ### DDR, FAB, TB -/

def State.ddrWord (s : State) (o : Nat) : Word :=
  let d := s.ddr
  if o < 0x80 then d.rgn[Fin.ofNat 16 (o / 8)]
  else if offIn 0x100 0x10 o then d.bw[Fin.ofNat 2 ((o - 0x100) / 8)]
  else if o = 0x200 then d.cfg
  else if offIn 0x400 0x400 o then
    let c := d.ch[Fin.ofNat 16 ((o - 0x400) / 64)]
    if o % 64 = 0 then c.stat else if o % 64 = 8 then c.cntReg else 0
  else if o = 0x800 then d.ueLo
  else if o = 0x808 then d.ueHi
  else if o = 0x810 then d.refLo
  else if o = 0x818 then d.refHi
  else 0

def FabPort.stat (x : FabPort) : Word :=
  pack [(48, 16, x.uncw), (32, 16, x.csym), (16, 5, x.lanes.toNat), (8, 2, x.mode), (0, 3, x.state)]

def State.fabWord (s : State) (o : Nat) : Word :=
  let b := s.fab
  if o = 0 then b.addrWord
  else if o = 8 then
    pack [(0, 4, b.size[(0 : Fin 3)].val), (4, 4, b.size[(1 : Fin 3)].val), (8, 4, b.size[(2 : Fin 3)].val),
      (12, 1, ofBool b.wrap[(0 : Fin 3)]), (13, 1, ofBool b.wrap[(1 : Fin 3)]), (14, 1, ofBool b.wrap[(2 : Fin 3)])]
  else if o = 0x10 then pack [(0, 1, ofBool b.hall), (1, 1, ofBool b.dlp), (2, 1, ofBool b.dln)]
  else if o = 0x18 then b.admitMask
  else if offIn 0x20 0x10 o then dword b.slices ((o - 0x20) / 8)
  else if offIn 0x100 0xC0 o then dword b.map.fail ((o - 0x100) / 8)
  else if offIn 0x200 0x40 o then dword b.map.unr ((o - 0x200) / 8)
  else if offIn 0x400 0x180 o then (if o % 64 = 8 then b.ports[Fin.ofNat 6 ((o - 0x400) / 64)].stat else s.freeReg o)
  else if offIn 0x800 0x20 o then b.drops[Fin.ofNat 4 ((o - 0x800) / 8)]
  else if o = 0x1040 then b.colTmo
  else if offIn 0x2000 0x1000 o then dword (SMap.get 0 b.colStat ((o - 0x2000) / 16)) (o % 16 / 8)
  else 0

def State.tbDomWord (s : State) (d : Fin 2) (k : Nat) : Word :=
  let x := s.tb.dom[d]
  if k = 0 then s.readTime d else if k = 8 then x.epoch else if k = 0x10 then x.ofs else if k = 0x18 then x.anc
  else if k = 0x20 then pack [(0, 32, x.rate.toNat)] else if k = 0x30 then x.dstat else 0

def State.tbWord (s : State) (o : Nat) : Word :=
  let b := s.tb
  if o = 0 then b.cnt
  else if o = 8 then b.cfg
  else if o = 0x18 then b.snapC
  else if o = 0x20 then b.snapA
  else if o = 0x28 then b.snapB
  else if offIn 0x100 0x80 o then s.tbDomWord (Fin.ofNat 2 ((o - 0x100) / 64)) (o % 64)
  else if offIn 0x300 0x80 o then
    let p := b.evo[Fin.ofNat 4 ((o - 0x300) / 32)]
    if o % 32 = 0 then p.startN else if o % 32 = 8 then p.pwN else if o % 32 = 16 then p.ctl else 0
  else if offIn 0x500 0x40 o then
    let x := b.tx[Fin.ofNat 4 ((o - 0x500) / 16)]
    if o % 16 = 0 then x.stat else x.stamp
  else if offIn 0x600 0x20 o then b.tx[Fin.ofNat 4 ((o - 0x600) / 8)].lat
  else if offIn 0x700 0x10 o then b.bridge[Fin.ofNat 2 ((o - 0x700) / 8)]
  else if offIn 0x10000 0x20000 o then
    BitVec.ofNat 64 (b.tx[Fin.ofNat 4 ((o - 0x10000) / 0x8000)].buf.num ((o - 0x10000) % 0x8000) 8)
  else 0

/-! ### GNT, FLT, CRN -/

def State.gntWord (s : State) (o : Nat) : Word :=
  let g := s.gnt
  if o = 0 then g.stateWord
  else if o = 0x10 then g.gctlWord
  else if o = 0x18 then g.cntWord
  else if offIn 0x100 0x800 o then g.strm[Fin.ofNat 64 ((o - 0x100) / 32)].word (o % 32 / 8)
  else if offIn 0x900 0x100 o then
    twoWords g.strm[Fin.ofNat 64 ((o - 0x900) / 4)].vwidx g.strm[Fin.ofNat 64 ((o - 0x900) / 4 + 1)].vwidx
  else if offIn 0xA00 0x80 o then dword g.gpat[Fin.ofNat 4 ((o - 0xA00) / 32)] (o % 32 / 8)
  else if offIn 0x10000 0x10000 o then BitVec.ofNat 64 (g.store.num (o - 0x10000) 8)
  else if offIn 0x100000 0x100000 o then
    let i := (o - 0x100000) / 64
    dword (SMap.get 0 g.strm[Fin.ofNat 64 (i / 256)].ring (i % 256)) (o % 64 / 8)
  else 0

def State.fltWord (s : State) (o : Nat) : Word :=
  let f := s.flt
  if o = 8 then (match f.mrst with | .none => 0 | .warm => 1 | .cold => 2)
  else if o = 0x10 then f.pstat
  else if o = 0x18 then f.cfence
  else if o = 0x20 then f.logst
  else if o = 0x28 then f.pmap
  else if o = 0x30 then f.peff
  else 0

/-- A slot of the response ring: 256 bytes (R477). -/
def State.crnWord (s : State) (o : Nat) : Word :=
  let c := s.crn
  if o = 0 then c.stat
  else if o = 8 then pack [(0, 32, c.coreAv.toNat)]
  else if o = 0x10 then s.dbgWord
  else if o = 0x18 then pack [(0, 32, c.twidx.toNat)]
  else if o = 0x20 then c.lastWord
  else if o = 0x28 then c.idxWord
  else if offIn 0x2000 0x4000 o then
    BitVec.ofNat 64 (leNat (((c.rspBytes ((o - 0x2000) / 256)).drop (o % 256)).take 8))
  else 0

/-- The doubleword at BAR0 offset `o`, a multiple of 8; reserved offsets read as 0. -/
def State.regWord (s : State) (o : Nat) : Word :=
  if o < 0x10000 then s.pciWord o
  else if offIn 0x100000 0x20000 o then s.evtWord (o - 0x100000)
  else if offIn 0x200000 0x100000 o then s.pwrWord (o - 0x200000)
  else if offIn 0x1000000 0x1000000 o then s.spdWord (Fin.ofNat 32 ((o - 0x1000000) / 0x80000)) (o % 0x80000)
  else if offIn 0x2400000 0x200000 o then s.ingWord (o - 0x2400000)
  else if offIn 0x2600000 0x200000 o then s.grdWord (o - 0x2600000)
  else if offIn 0x2800000 0x800 o then s.mxeWord (Fin.ofNat 32 ((o - 0x2800000) / 0x40)) (o % 0x40)
  else if offIn 0x2A00000 0x8000 o then s.vecWord (Fin.ofNat 32 ((o - 0x2A00000) / 0x400)) (o % 0x400)
  else if offIn 0x2C00000 0x800 o then (if o % 0x40 = 0 then s.cores[Fin.ofNat 32 ((o - 0x2C00000) / 0x40)].selcnt else 0)
  else if offIn 0x2E00000 0x200000 o then s.nmgWord (o - 0x2E00000)
  else if offIn 0x3000000 0x200000 o then s.dmaWord (o - 0x3000000)
  else if offIn 0x3200000 0x200000 o then s.ddrWord (o - 0x3200000)
  else if offIn 0x3400000 0x200000 o then s.fabWord (o - 0x3400000)
  else if offIn 0x3600000 0x200000 o then s.tbWord (o - 0x3600000)
  else if offIn 0x3800000 0x200000 o then s.gntWord (o - 0x3800000)
  else if offIn 0x3A00000 0x200000 o then s.fltWord (o - 0x3A00000)
  else if offIn 0x3C00000 0x200000 o then s.crnWord (o - 0x3C00000)
  else 0

/-- Byte `i` of a word. -/
def byteOf (w : Word) (i : Nat) : Byte := BitVec.ofNat 8 (fld w (8 * i) 8)

/-- `n` bytes of BAR0 from offset `a`. -/
def State.regBytes (s : State) (a n : Nat) : List Byte :=
  (List.range n).map fun i => byteOf (s.regWord ((a + i) / 8 * 8)) ((a + i) % 8)

/-- Whether a BAR0 offset lies in the CRN block, which only PF0 reaches. -/
def inCrn (o : Nat) : Bool := offIn 0x3C00000 0x200000 o

/-! ### BAR2 and PF1 BAR0 -/

/-- Byte `o` of a launch slot (R99). -/
def LaunchSlot.byteAt (l : LaunchSlot) (o : Nat) : Byte :=
  if o < 0x40 then recByte l.record o
  else if o < 0x48 then byteOf l.stat (o - 0x40)
  else if o < 0x50 then byteOf l.lclk (o - 0x48)
  else if o < 0x58 then byteOf l.ltime (o - 0x50)
  else 0

/-- Byte `o` of BAR2 below the host windows. -/
def State.bar2Byte (s : State) (o : Nat) : Byte :=
  if o < 0x4000 then
    let n : Fin 128 := Fin.ofNat 128 (o / 0x80)
    (s.cores[slotCore n].spd.slots[slotIdx n]).byteAt (o % 0x80)
  else 0

/-- The doubleword at offset `o` of PF1 BAR0. -/
def State.pf1Word (s : State) (o : Nat) : Word :=
  let c := s.clo
  if o = 0 then c.stat
  else if o = 8 then c.cnt
  else if offIn 0x200 0x200 o then BitVec.ofNat 64 (leNat ((c.chA.rsp.drop (o - 0x200)).take 8))
  else if offIn 0x2000 0x2000 o then
    BitVec.ofNat 64 (leNat ((c.slots[Fin.ofNat 16 ((o - 0x2000) / 512)].drop (o % 512)).take 8))
  else if offIn 0xF000 0x80 o then s.pci.pf1.tableWord (o - 0xF000)
  else if o = 0xF800 then pack ((List.range 8).map fun i => (i, 1, ofBool (s.pci.pf1.vect i).pending))
  else 0

/-! ### Device physical addresses (R34, R35) -/

/-- What a range of device physical addresses lies in. -/
inductive AddrKind where
  | ddr | aperture | regs
  /-- A reserved range, or one that crosses from one kind to another. -/
  | none
  deriving DecidableEq, Repr

/-- Device physical address of the control registers. -/
def regBase : Nat := 0x7F0000000000

def addrKind (a n : Nat) : AddrKind :=
  if a + n ≤ 2 ^ 40 then .ddr
  else if inApertures a n then .aperture
  else if regBase ≤ a ∧ a + n ≤ 2 ^ 48 then .regs
  else .none

/-- A read of device memory or registers. A core refuses a read through its aperture as a window violation; a reserved range is
refused as DDR outside every region (R35, R92). -/
def State.devRead (s : State) (who : DdrWho) (a n : Nat) : State × Option (List Byte) :=
  match addrKind a n with
  | .ddr => s.ddrRead who a n
  | .regs => if inCrn (a - regBase) then (s, none) else ({ s with free := s.free + 1 }, some (s.regBytes (a - regBase) n))
  | .aperture => (s.windowViolation (Fin.ofNat 32 ((a - apertureBase) / 0x1000000)) who.ini ((a - apertureBase) % 0x1000000), none)
  | .none => (s.ddrRefuse who false a n, none)

end Sys2Proof.Machine
end

