-- ==== Sys2Proof/Machine/DmaOps.lean ====
section
/-! DEFINITION. DMA channels: identity and rights, fetching descriptors, starting and ending lists, and the channels'
registers (R303 to R306, R312, R315, R317 to R320). -/

namespace Sys2Proof.Machine

/-- A channel. -/
def State.dch (s : State) (e : DmaEng) (ch : Fin 16) : DmaChan :=
  match e with
  | .core c => s.dma.cores[c][Fin.ofNat 8 ch.val]
  | .die d => s.dma.dies[d][ch]

/-- The module with a channel changed. -/
def State.modDch (s : State) (e : DmaEng) (ch : Fin 16) (f : DmaChan → DmaChan) : State :=
  match e with
  | .core c =>
    let i : Fin 8 := Fin.ofNat 8 ch.val
    { s with dma := { s.dma with cores := s.dma.cores.set c (s.dma.cores[c].set i (f s.dma.cores[c][i])) } }
  | .die d => { s with dma := { s.dma with dies := s.dma.dies.set d (s.dma.dies[d].set ch (f s.dma.dies[d][ch])) } }

/-- Whether a channel is one of the privileged ones (R318). -/
def isPriv (e : DmaEng) (ch : Fin 16) : Bool := match e with | .core _ => false | .die _ => decide (14 ≤ ch.val)

/-- The controller that owns a privileged channel: Cloche 14, Gauntlet 15. -/
def privOwner (ch : Fin 16) : Ini := if ch.val = 14 then 0x72 else 0x71

/-- The region register of a privileged channel. -/
def State.drgnOf (s : State) (d : Fin 2) (ch : Fin 16) : Drgn := s.dma.drgn[d][Fin.ofNat 2 (ch.val - 14)]

/-- The right of a channel's accesses (R305, R318, R329). -/
def State.dmaWho (s : State) (e : DmaEng) (ch : Fin 16) : DdrWho :=
  match e with
  | .core c => .part e.ini (s.partOf c)
  | .die d =>
    if ch.val < 14 then .part e.ini (Fin.ofNat 4 (s.dch e ch).part)
    else .priv e.ini (s.drgnOf d ch).base ((s.drgnOf d ch).limit + 1 - (s.drgnOf d ch).base)

/-- The partition a channel carries (R305). -/
def State.dmaPart (s : State) (e : DmaEng) (ch : Fin 16) : Fin 4 :=
  match e with
  | .core c => s.partOf c
  | .die _ => Fin.ofNat 4 (s.dch e ch).part

/-- An event of a channel; `fault` marks 0x2300 to 0x2302, which go to Gauntlet for P0 and P1 (R322). -/
def State.dmaPost (s : State) (e : DmaEng) (ch : Fin 16) (code : Nat) (fault : Bool) : State :=
  s.postFull code e.ini (some (s.dmaPart e ch)) (fault && isSafety (s.dmaPart e ch))

/-- Event 0x2303. -/
def State.dmaRefuse (s : State) (e : DmaEng) : State := s.post 0x2303 e.ini

/-! ### Descriptors (R306, R317) -/

/-- Fields of a descriptor. -/
def dNext (d : Rec64) : Nat := fld d 0 48
def dNsp (d : Rec64) : Bool := bit d 48
def dLast (d : Rec64) : Bool := bit d 63
def dOp (d : Rec64) : Nat := fld d 64 3
def dSw (d : Rec64) : Nat := fld d 72 2
def dDw (d : Rec64) : Nat := fld d 74 2
def dSgn (d : Rec64) : Bool := bit d 76
def dSat (d : Rec64) : Bool := bit d 77
def dSsp (d : Rec64) : Bool := bit d 80
def dDsp (d : Rec64) : Bool := bit d 81
def dRem (d : Rec64) : Bool := bit d 82
def dHen (d : Rec64) : Bool := bit d 88
def dDen (d : Rec64) : Bool := bit d 89
def dSmode (d : Rec64) : Bool := bit d 90
def dSync (d : Rec64) : Nat := fld d 96 9
def dCore (d : Rec64) : CoreId := Fin.ofNat 32 (fld d 105 5)
def dMod (d : Rec64) : BitVec 15 := BitVec.ofNat 15 (fld d 112 15)
def dSrc (d : Rec64) : Nat := fld d 128 48
def dConst (d : Rec64) : Nat := fld d 128 64
def dDst (d : Rec64) : Nat := fld d 192 48
def dNel (d : Rec64) : Nat := fld d 256 32
def dRows (d : Rec64) : Nat := fld d 288 32
def dSstr (d : Rec64) : Nat := fld d 320 32
def dDstr (d : Rec64) : Nat := fld d 352 32
def dDoff (d : Rec64) : Nat := fld d 384 48
def dCfmt (d : Rec64) : Nat := fld d 432 2
def dZcode (d : Rec64) : Nat := fld d 440 8

/-- What fetching a descriptor comes to. -/
inductive DescFetch where
  /-- A slot tag does not permit the read yet (R312). -/
  | wait
  | unreadable
  | got (d : Rec64)

/-- Whether an access of a privileged channel lies in its region (R318). -/
def State.inRegion (s : State) (e : DmaEng) (ch : Fin 16) (a n : Nat) : Bool :=
  match s.dmaWho e ch with
  | .priv _ b l => decide (b ≤ a) && decide (a + n ≤ b + l)
  | _ => true

/-- The engine reads a descriptor (R312, R317). -/
def State.descRead (s : State) (e : DmaEng) (ch : Fin 16) (a : Nat) (sp : Bool) : State × DescFetch :=
  if a % 64 ≠ 0 then (s, .unreadable)
  else if sp then
    match e with
    | .core c =>
      let p := s.cores[c].spd
      if !p.poweredAll a 64 then (s, .unreadable)
      else if !p.mayReadAll a 64 then (s, .wait)
      else (s, .got (BitVec.ofNat 512 (p.num a 64)))
    | .die _ => (s, .unreadable)
  else if !s.inRegion e ch a 64 then (s, .unreadable)
  else match s.devRead (s.dmaWho e ch) a 64 with
    | (t, none) => (t, .unreadable)
    | (t, some bs) => (t, .got (BitVec.ofNat 512 (leNat bs)))

/-! ### Ending a list (R315, R317 to R319) -/

/-- The list status of R319. -/
def DmaChan.listStatus (c : DmaChan) (endc : Nat) : List Byte :=
  leBytes 4 c.descs ++ leBytes 4 c.nbad ++ leBytes 1 endc ++ leBytes 7 0

/-- Whether the list status can be written now, as far as slot tags say. -/
def State.mayEnd (s : State) (e : DmaEng) (ch : Fin 16) : Bool :=
  match e with
  | .core c => !(s.dch e ch).sen || s.cores[c].spd.mayWriteAll (s.dch e ch).soff 16
  | .die _ => true

/-- Started commands that name channel `ch` have done their work (R319). -/
def EngState.chanDone (g : EngState) (ch : Nat) : EngState :=
  { g with active := g.active.map fun a => if fld a.cmd.w2 0 3 = ch then { a with done := true } else a }

/-- The list of a channel ends: END, the list status of a RUN, the completion of its command, and the interrupt of a
privileged channel. -/
def State.endList (s : State) (e : DmaEng) (ch : Fin 16) (endc : Nat) : State :=
  let c := s.dch e ch
  let s := s.modDch e ch fun x =>
    { x with busy := false, stop := false, endc := endc, phase := .idle, next := .none, prog := DmaProg.zero }
  match e with
  | .core k =>
    let s := if c.sen && s.cores[k].spd.poweredAll c.soff 16 then
        s.modSpd k fun p => { p with mem := p.mem.write c.soff (c.listStatus endc) } else s
    s.modEng k 6 fun g => g.chanDone ch.val
  | .die d =>
    if isPriv e ch then
      { s with dma := { s.dma with irq := s.dma.irq.set d (s.dma.irq[d].set (Fin.ofNat 2 ch.val) true) } }
    else s

/-- The next descriptor cannot be read: the list ends with END = 0b10 and event 0x2301. -/
def State.breakList (s : State) (e : DmaEng) (ch : Fin 16) : State := (s.endList e ch 2).dmaPost e ch 0x2301 true

/-- The fetched descriptor `d` becomes the one in progress. -/
def DmaChan.take (x : DmaChan) (d : Rec64) : DmaChan :=
  { x with cur := x.want, csp := x.wsp, phase := .fetched, desc := d, next := .none, prog := DmaProg.zero, half := false, status := 0 }

/-- The next descriptor is fetched when none has been; a stop asked for ends the list instead, and DCH_CUR keeps the
last one executed. -/
def State.fetchCur (s : State) (e : DmaEng) (ch : Fin 16) : State :=
  let c := s.dch e ch
  if c.busy && decide (c.phase = .idle) then
    if c.stop then (if s.mayEnd e ch then s.endList e ch 1 else s)
    else match s.descRead e ch c.want c.wsp with
      | (_, .wait) => s
      | (t, .unreadable) => if s.mayEnd e ch then t.breakList e ch else s
      | (t, .got d) => t.modDch e ch fun x => x.take d
  else s

/-- A list starts (R304); a privileged channel counts down from CNT (R318). -/
def DmaChan.start (c : DmaChan) (head : Nat) (hsp : Bool) (level soff : Nat) (sen reg : Bool) : DmaChan :=
  { c with
    stop := false, descs := 0, nbad := 0, reg := reg, busy := true, want := head, wsp := hsp, phase := .idle, next := .none
    prog := DmaProg.zero, left := c.cnt, half := false, soff := soff, sen := sen, level := level }

def State.startList (s : State) (e : DmaEng) (ch : Fin 16) (head : Nat) (hsp : Bool) (level soff : Nat) (sen reg : Bool) :
    State :=
  (s.modDch e ch fun x => x.start head hsp level soff sen reg).fetchCur e ch

/-! ### GO and STOP (R304, R305, R315, R318) -/

/-- Whether a GO keeps the limits of R304, R305 and R318. The engine of MD0 takes no channel of P1, and that of MD1 none of
P0, the privileged channels among them. -/
def State.goOk (s : State) (e : DmaEng) (ch : Fin 16) (ini : Ini) : Bool :=
  match e with
  | .core c => decide (ini = 0x60) && !s.cores[c].busy
  | .die d =>
    (if isPriv e ch then decide (ini = privOwner ch) else decide (ini = 0x60) || decide (ini = 0x70)) &&
      decide ((s.dch e ch).part ≠ (if d = 0 then 1 else 0)) && !(decide (ch.val = 15) && bit s.gnt.cut15 d.val)

/-- Whether an initiator may write the registers of a channel (R318). -/
def mayWriteDch (e : DmaEng) (ch : Fin 16) (ini : Ini) : Bool := !isPriv e ch || decide (ini = privOwner ch)

/-- A write of 1 to GO: dropped with 0x2303 on another's privileged channel, ignored while the channel is busy, refused when
it breaks a limit. A per-core engine held in reset takes none. -/
def State.chanGo (s : State) (e : DmaEng) (ch : Fin 16) (ini : Ini) : State :=
  let c := s.dch e ch
  if !mayWriteDch e ch ini then s.dmaRefuse e
  else if c.busy then s
  else if !s.goOk e ch ini then s.dmaRefuse e
  else match e with
    | .core k =>
      if s.flt.part[s.partOf k] ≠ .running then s
      else (s.wakeDie (dieOf k)).startList e ch (fld c.head 0 48) (bit c.head 48) c.prio 0 false true
    | .die _ => s.startList e ch (fld c.head 0 48) false c.prio 0 false true

/-- A write of 1 to STOP. -/
def State.chanStop (s : State) (e : DmaEng) (ch : Fin 16) : State :=
  s.modDch e ch fun x => if x.busy then { x with stop := true } else x

def execDchGo (e : DmaEng) (ch : Fin 16) (ini : Initiator) (s : State) : Answer := inRange s (dmaChanOk e ch) (s.chanGo e ch ini)

def execDchStop (e : DmaEng) (ch : Fin 16) (ini : Initiator) (s : State) : Answer :=
  inRange s (dmaChanOk e ch) (if mayWriteDch e ch ini then s.chanStop e ch else s.dmaRefuse e)

/-- The fields of DCH_CTL that a write sets. -/
def DmaChan.ctlSet (c : DmaChan) (die priv : Bool) (v : Word) : DmaChan :=
  { c with
    prio := fld v 4 2
    part := if die then fld v 6 2 else c.part
    cnt := if priv then fld v 16 16 else c.cnt }

/-- A write of register `k` of a channel: DCH_HEAD, ignored while BUSY, or DCH_CTL. -/
def State.dchWrite (s : State) (e : DmaEng) (ch : Fin 16) (k : Nat) (ini : Ini) (h : Half) (v : Word) : State :=
  let die := match e with | .core _ => false | .die _ => true
  if !mayWriteDch e ch ini then s.dmaRefuse e
  else if k = 0 then
    let mask : Word := if die then 0x0000FFFFFFFFFFFF#64 else 0x0001FFFFFFFFFFFF#64
    s.modDch e ch fun x => if x.busy then x else { x with head := mergeHalf h x.head v &&& mask }
  else if k = 8 then
    let s := s.modDch e ch fun x => x.ctlSet die (isPriv e ch) (mergeHalf h x.ctl v)
    let s := if bit (carried h v) 1 then s.chanStop e ch else s
    if bit (carried h v) 0 then s.chanGo e ch ini else s
  else s

/-- A write of DRGN: BASE or LIMIT, by the owner (R318). -/
def State.drgnWrite (s : State) (d : Fin 2) (i : Fin 2) (limit : Bool) (ini : Ini) (h : Half) (v : Word) : State :=
  if ini ≠ (if i = 0 then 0x72 else 0x71) then s.dmaRefuse (.die d)
  else
    let g := s.dma.drgn[d][i]
    let w (x : Nat) : Nat := fld (mergeHalf h (BitVec.ofNat 64 x) v) 0 48
    let g := if limit then { g with limit := w g.limit } else { g with base := w g.base }
    { s with dma := { s.dma with drgn := s.dma.drgn.set d (s.dma.drgn[d].set i g) } }

/-! ### Commands of a per-core engine (R319, R320) -/

def dmaListed (o : Nat) : Bool := decide (o = 1) || decide (o = 2)

/-- Reserved encodings of RUN, and SOFF beyond the scratchpad. -/
def dmaRunBad (q : EngCmd) : Bool :=
  q.headerBad || decide (q.cspec ≠ 0) || decide (fld q.w1 49 15 ≠ 0) || decide (fld q.w1 0 48 % 64 ≠ 0) ||
    decide (fld q.w2 3 1 ≠ 0) || decide (fld q.w2 6 58 ≠ 0) || decide (fld q.w3 24 40 ≠ 0) || decide (fld q.w3 0 23 % 16 ≠ 0) ||
    decide (spdBytes < fld q.w3 0 23 + 16)

/-- Reserved encodings of STOP. -/
def dmaStopBad (q : EngCmd) : Bool :=
  q.headerBad || decide (q.cspec ≠ 0) || decide (q.w1 ≠ 0) || decide (fld q.w2 3 61 ≠ 0) || decide (q.w3 ≠ 0)

/-- The engine refuses the command at its queue's head (R71, R320). -/
def State.dmaCmdRefuse (s : State) (c : CoreId) : State :=
  ((s.modEng c 6 fun g => { g with queue := g.queue.drop 1 }).post 0x2303 (dmaIni c)).failTask c 0x87

/-- Work of the queue's head, when its opcode is one of `mine` and its WAITOP holds. -/
def State.dmaHead (s : State) (c : CoreId) (mine : Nat → Bool) (bad : EngCmd → Bool) (run : EngCmd → Fin 16 → State) : State :=
  match s.cores[c].engines[(6 : Fin 7)].queue with
  | [] => s
  | q :: _ =>
    if !(mine q.opc && q.mayStart s.cores[c].spd) then s
    else if bad q then s.dmaCmdRefuse c
    else run q (Fin.ofNat 16 (fld q.w2 0 3))

/-- RUN; the row also refuses opcodes that no chapter defines. A busy channel holds the queue. -/
def State.dmaRun (s : State) (c : CoreId) : State :=
  s.dmaHead c (fun o => o = 1 || !dmaListed o) (fun q => decide (q.opc ≠ 1) || dmaRunBad q) fun q ch =>
    if (s.dch (.core c) ch).busy then s
    else (s.modEng c 6 EngState.start).startList (.core c) ch (fld q.w1 0 48) (bit q.w1 48) (fld q.w2 4 2) (fld q.w3 0 23)
      (bit q.w3 23) false

/-- STOP starts without waiting for its channel, and ends with the list it stops. -/
def State.dmaStop (s : State) (c : CoreId) : State :=
  s.dmaHead c (fun o => o = 2) dmaStopBad fun _ ch =>
    let t := s.modEng c 6 EngState.start
    if (s.dch (.core c) ch).busy then t.chanStop (.core c) ch
    else t.modEng c 6 fun g => g.chanDone ch.val

def execDmaRun (c : CoreId) (s : State) : Answer := .next (s.dmaRun c)
def execDmaStop (c : CoreId) (s : State) : Answer := .next (s.dmaStop c)

end Sys2Proof.Machine
end

