-- ==== Sys2Proof/Machine/Bus.lean ====
section
/-! DEFINITION. Writes to registers by their BAR0 offset, under each block's own rules (R9, R11, R306, R487, R540), and
writes to device physical addresses (R34, R35, R317). -/

namespace Sys2Proof.Machine

/-- The half of a 64-bit register that a write of 4 or 8 aligned bytes carries, with its data. -/
def pieceHalf (o : Nat) (data : List Byte) : Option (Half × Word) :=
  let v : Word := BitVec.ofNat 64 (leNat data)
  if data.length = 8 ∧ o % 8 = 0 then some (.full, v)
  else if data.length = 4 ∧ o % 4 = 0 then some (if o % 8 = 0 then .low else .high, v)
  else none

/-- A write to a 64-bit register; other sizes and alignments do nothing. -/
def State.onHalf (s : State) (o : Nat) (data : List Byte) (f : Half → Word → State) : State :=
  match pieceHalf o data with
  | some (h, v) => f h v
  | none => s

/-- A write to a doubleword of an MSI-X table: address, or data and vector control. -/
def PciFn.tableWrite (f : PciFn) (o : Nat) (h : Half) (v : Word) : PciFn :=
  let k := o / 16
  let x := f.vect k
  let w := mergeHalf h (f.tableWord (o / 8 * 8)) v
  let x : Vect := if o / 8 % 2 = 0 then { x with addr := w } else { x with data := BitVec.ofNat 32 (fld w 0 32), masked := bit w 32 }
  { f with vects := SMap.set Vect.reset f.vects k x }

def State.pciPut (s : State) (ini : Ini) (o : Nat) (data : List Byte) : State :=
  s.onHalf o data fun h v =>
    if o / 8 = 2 then s.apbaseWrite ini h v
    else if offIn 0x100 0x100 o then s.hwinWrite (Fin.ofNat 32 ((o - 0x100) / 8)) ini h v
    else if offIn 0x8000 0x1000 o && decide (ini = 0x60) then s.modFn false fun f => f.tableWrite (o - 0x8000) h v
    else s

def State.evtPut (s : State) (ini : Ini) (o : Nat) (data : List Byte) : State :=
  s.onHalf o data fun h v =>
    if o < 0x800 then s.routeWrite (Fin.ofNat 256 (o / 8)) ini h v
    else if o / 8 = 0x100 then s.evtStatWrite ini h v
    else if o / 8 = 0x101 then s.evtIdxWrite ini h v
    else s

def State.pwrPut (s : State) (ini : Ini) (o : Nat) (data : List Byte) : State :=
  s.onHalf o data fun h v =>
    if o / 8 = 1 then s.dvfsWrite ini h v
    else if o / 8 = 2 then s.pwrCtlWrite ini h v
    else if o / 8 = 3 then s.hbWrite ini h v
    else if o / 8 = 0 then s.pwrRefuse
    else s

def State.spdPut (s : State) (c : CoreId) (ini : Ini) (o : Nat) (data : List Byte) : State :=
  s.onHalf o data fun h v =>
    if o < 0x40000 then s.imemWrite c ini (o / 8) h v
    else if offIn 0x40000 0x8000 o then s.tagWrite c ini ((o - 0x40000) / 8) h v
    else if offIn 0x49000 0x1000 o then s.syncaddWrite c ini ((o - 0x49000) / 8) h v
    else if o / 8 = 0x9602 then s.spdClr c h v
    else s

/-- Registers of a ring. -/
def State.ringPut (s : State) (p : Fin 4) (ini : Ini) (k : Nat) (h : Half) (v : Word) : State :=
  match k with
  | 0 => s.ringBaseWrite p ini false h v
  | 1 => s.ringBaseWrite p ini true h v
  | 2 => s.rctlWrite p ini h v
  | 3 => s.holdWrite p ini h v
  | _ => s

def State.ingPut (s : State) (ini : Ini) (o : Nat) (data : List Byte) : State :=
  if o < 0x400 then s.tplWrite (Fin.ofNat 16 (o / 64)) ini (o % 64) data
  else if offIn 0x400 0x200 o then s.sensWrite (Fin.ofNat 16 ((o - 0x400) / 32)) ini (o % 32) data
  else if offIn 0x800 0x400 o then s.extWrite (Fin.ofNat 16 ((o - 0x800) / 64)) ini (o % 64) data
  else if offIn 0x1000 0x4000 o then
    (cut 4 3 o data).foldl (fun t r => t.beamWrite ((r.1 - 0x1000) / 4) ini (r.1 % 4) r.2) s
  else if offIn 0x5000 0x100 o then
    s.onHalf o data fun h v => s.ringPut (Fin.ofNat 4 ((o - 0x5000) / 64)) ini (o % 64 / 8) h v
  else if offIn 0x5100 0x10 o then s.slotmapWrite ini (o - 0x5100) data
  else if offIn 0x5200 0x80 o then s.injqWrite (Fin.ofNat 4 ((o - 0x5200) / 32)) ini (o % 32) data
  else s

def State.grdPut (s : State) (ini : Ini) (o : Nat) (data : List Byte) : State :=
  s.onHalf o data fun h v => if o < 0x40 then s.spillWrite (Fin.ofNat 4 (o / 16)) (decide (o / 8 % 2 = 1)) ini h v else s

def State.mxePut (s : State) (c : CoreId) (o : Nat) (data : List Byte) : State :=
  s.onHalf o data fun h v => if o / 8 = 2 then s.mxclr c h v else if o / 8 = 4 then s.spclr c h v else s

def State.vecPut (s : State) (c : CoreId) (ini : Ini) (o : Nat) (data : List Byte) : State :=
  s.onHalf o data fun h v =>
    if o / 8 = 2 then s.vclr c h v
    else if offIn 0x100 0x100 o && decide (o / 8 % 2 = 0) then s.satcfg c (Fin.ofNat 16 ((o - 0x100) / 16)) ini h v
    else if offIn 0x200 0x100 o && decide (o / 8 % 2 = 1) then s.satAlarm c (Fin.ofNat 16 ((o - 0x200) / 16)) h v
    else s

def State.selPut (s : State) (c : CoreId) (o : Nat) (data : List Byte) : State :=
  s.onHalf o data fun h v => if o / 8 = 1 then s.selclr c h v else s

def State.nmgPut (s : State) (ini : Ini) (o : Nat) (data : List Byte) : State :=
  if o < 0x1000 then s.nmgTabWrite (Fin.ofNat 64 (o / 64)) ini (o % 64) data
  else if offIn 0x1000 0x20 o then s.onHalf o data fun h v => s.hsegWrite (Fin.ofNat 4 ((o - 0x1000) / 8)) ini h v
  else if offIn 0x2000 0x1000 o then
    s.nmgReqWrite (Fin.ofNat 16 ((o - 0x2000) / 256)) (Fin.ofNat 4 (o % 256 / 64)) ini (o % 64) data
  else s

def State.dmaPut (s : State) (ini : Ini) (o : Nat) (data : List Byte) : State :=
  s.onHalf o data fun h v =>
    if o < 0x4000 then
      (if o % 0x200 < 0x100 then
        s.dchWrite (.core (Fin.ofNat 32 (o / 0x200))) (Fin.ofNat 16 (o % 0x200 / 0x20)) (o % 0x20 / 8 * 8) ini h v else s)
    else if offIn 0x10000 0x800 o then
      let d : Fin 2 := Fin.ofNat 2 ((o - 0x10000) / 0x400)
      let k := o % 0x400
      if k < 0x200 then s.dchWrite (.die d) (Fin.ofNat 16 (k / 0x20)) (k % 0x20 / 8 * 8) ini h v
      else if k < 0x220 then s.drgnWrite d (Fin.ofNat 2 ((k - 0x200) / 16)) (decide (k / 8 % 2 = 1)) ini h v
      else s
    else s

def State.ddrRegPut (s : State) (ini : Ini) (o : Nat) (data : List Byte) : State :=
  s.onHalf o data fun h v =>
    if o < 0x80 then s.rgnWrite (Fin.ofNat 16 (o / 8)) ini h v
    else if offIn 0x100 0x10 o then s.bwWrite (Fin.ofNat 2 ((o - 0x100) / 8)) ini h v
    else s

/-- A wide register with the doubleword at `k` changed. -/
def putDword {n : Nat} (w : BitVec n) (k : Nat) (h : Half) (v : Word) : BitVec n :=
  setFld w (64 * k) 64 (mergeHalf h (dword w k) v).toNat

/-- What Crown writes in the FAB block through its own port; FAB_CFG and FAB_HALL in the layout of CFG_WRITE. -/
def State.fabCrown (s : State) (o : Nat) (h : Half) (v : Word) : State :=
  let b := s.fab
  if o / 8 = 1 then s.cfgApply 19 ((mergeHalf h (BitVec.ofNat 64 b.cfgWord) v).setWidth 128)
  else if o / 8 = 2 then s.cfgApply 20 ((mergeHalf h ((s.cfgCurrent 20).setWidth 64) v).setWidth 128)
  else if o / 8 = 3 then s.modFab fun x => { x with admitMask := mergeHalf h x.admitMask v }
  else if offIn 0x20 0x10 o then s.modFab fun x => { x with slices := putDword x.slices ((o - 0x20) / 8) h v }
  else if offIn 0x100 0xC0 o then
    s.modFab fun x => { x with map := { x.map with fail := putDword x.map.fail ((o - 0x100) / 8) h v } }
  else if offIn 0x200 0x40 o then
    s.modFab fun x => { x with map := { x.map with unr := putDword x.map.unr ((o - 0x200) / 8) h v } }
  else if o / 8 = 0x208 then s.modFab fun x => { x with colTmo := mergeHalf h x.colTmo v }
  else s

def State.fabPut (s : State) (ini : Ini) (o : Nat) (data : List Byte) : State :=
  if offIn 0x1000 0x40 o then s.colqWrite ini (o - 0x1000) data
  else s.onHalf o data fun h v =>
    if offIn 0x400 0x180 o && decide (o % 64 < 8) then
      (if bit (carried h v) Config.retrainBit then s.retrain (Fin.ofNat 6 ((o - 0x400) / 64)) ini else s)
    else if ini = 0x70 then s.fabCrown o h v
    else s

/-- Registers of a time domain. -/
def State.tbDomPut (s : State) (d : Fin 2) (ini : Ini) (k : Nat) (h : Half) (v : Word) : State :=
  match k with
  | 4 => s.rateWrite d ini h v
  | 5 => s.stepWrite d ini h v
  | 6 => s.dstatWrite d ini h v
  | _ => s.tbRefuse

/-- A write to the TB block; every write that no rule takes is dropped with event 0x7058, Crown's too (R392). -/
def State.tbPut (s : State) (ini : Ini) (o : Nat) (data : List Byte) : State :=
  if offIn 0x400 0x40 o then s.txqWrite (Fin.ofNat 4 ((o - 0x400) / 16)) ini (o % 16) data
  else if offIn 0x10000 0x20000 o then
    (if tbHostOrCrown ini then
      s.modTx (Fin.ofNat 4 ((o - 0x10000) / 0x8000)) fun x => { x with buf := x.buf.write ((o - 0x10000) % 0x8000) data }
    else s.tbRefuse)
  else match pieceHalf o data with
    | none => s.tbRefuse
    | some (h, v) =>
      if o / 8 = 1 then
        (if ini = 0x70 then { s with tb := { s.tb with cfg := maskWrite tbCfgMask 0 (mergeHalf h s.tb.cfg v) } } else s.tbRefuse)
      else if o / 8 = 2 then s.tbSnap ini h v
      else if offIn 0x100 0x80 o then s.tbDomPut (Fin.ofNat 2 ((o - 0x100) / 64)) ini (o % 64 / 8) h v
      else if offIn 0x300 0x80 o && decide (o % 32 < 24) then
        s.evoWrite (Fin.ofNat 4 ((o - 0x300) / 32)) ini (Fin.ofNat 3 (o % 32 / 8)) h v
      else if offIn 0x600 0x20 o then
        (if ini = 0x70 then s.modTx (Fin.ofNat 4 ((o - 0x600) / 8)) fun x => { x with lat := mergeHalf h x.lat v } else s.tbRefuse)
      else s.tbRefuse

/-- GNT_ARM: each bit set asks for its action, SAFE last. -/
def State.gntArmPut (s : State) (ini : Ini) (w : Word) : State :=
  let s := if bit w 0 then s.arm ini else s
  let s := if bit w 1 then s.disarm ini else s
  if bit w 2 then s.askSafe ini else s

def State.gntPut (s : State) (ini : Ini) (o : Nat) (data : List Byte) : State :=
  if offIn 0x40 0x40 o then s.noticeWrite (Fin.ofNat 2 ((o - 0x40) / 32)) ini (o % 32) data
  else if offIn 0xA00 0x80 o then s.gpatWrite (Fin.ofNat 4 ((o - 0xA00) / 32)) ini (o % 32) data
  else if offIn 0x10000 0x10000 o then s.gwinWrite ini (o - 0x10000) data
  else s.onHalf o data fun h v =>
    if o / 8 = 1 then s.gntArmPut ini (carried h v)
    else if o / 8 = 2 then
      let s := s.gctlWrite ini h v
      if bit (carried h v) 0 then s.askDefer ini else s
    else if offIn 0x100 0x800 o then s.strmWrite (Fin.ofNat 64 ((o - 0x100) / 32)) (Fin.ofNat 4 (o % 32 / 8)) ini h v
    else s

def State.fltPut (s : State) (ini : Ini) (o : Nat) (data : List Byte) : State :=
  s.onHalf o data fun h v =>
    if o / 8 = 0 then s.prstWrite ini h v
    else if o / 8 = 1 then s.mrstWrite ini (bit (carried h v) 0) (bit (carried h v) 1)
    else if o / 8 = 5 then s.pmapWrite ini h v
    else if decide (o < 0x38) && !gntOwner ini then s.fltRefuse
    else s

def State.crnPut (s : State) (ini : Ini) (o : Nat) (data : List Byte) : State :=
  if offIn 0x1000 0x100 o then s.mbxWrite ini (o - 0x1000) data
  else s.onHalf o data fun h v => if o / 8 = 5 then s.mbxIdxWrite ini h v else s

/-- Bytes written inside one doubleword of BAR0. -/
def State.regPut (s : State) (ini : Ini) (o : Nat) (data : List Byte) : State :=
  if o < 0x10000 then s.pciPut ini o data
  else if offIn 0x100000 0x20000 o then s.evtPut ini (o - 0x100000) data
  else if offIn 0x200000 0x100000 o then s.pwrPut ini (o - 0x200000) data
  else if offIn 0x1000000 0x1000000 o then s.spdPut (Fin.ofNat 32 ((o - 0x1000000) / 0x80000)) ini (o % 0x80000) data
  else if offIn 0x2400000 0x200000 o then s.ingPut ini (o - 0x2400000) data
  else if offIn 0x2600000 0x200000 o then s.grdPut ini (o - 0x2600000) data
  else if offIn 0x2800000 0x800 o then s.mxePut (Fin.ofNat 32 ((o - 0x2800000) / 0x40)) (o % 0x40) data
  else if offIn 0x2A00000 0x8000 o then s.vecPut (Fin.ofNat 32 ((o - 0x2A00000) / 0x400)) ini (o % 0x400) data
  else if offIn 0x2C00000 0x800 o then s.selPut (Fin.ofNat 32 ((o - 0x2C00000) / 0x40)) (o % 0x40) data
  else if offIn 0x2E00000 0x200000 o then s.nmgPut ini (o - 0x2E00000) data
  else if offIn 0x3000000 0x200000 o then s.dmaPut ini (o - 0x3000000) data
  else if offIn 0x3200000 0x200000 o then s.ddrRegPut ini (o - 0x3200000) data
  else if offIn 0x3400000 0x200000 o then s.fabPut ini (o - 0x3400000) data
  else if offIn 0x3600000 0x200000 o then s.tbPut ini (o - 0x3600000) data
  else if offIn 0x3800000 0x200000 o then s.gntPut ini (o - 0x3800000) data
  else if offIn 0x3A00000 0x200000 o then s.fltPut ini (o - 0x3A00000) data
  else if offIn 0x3C00000 0x200000 o then s.crnPut ini (o - 0x3C00000) data
  else s

/-- Bytes written to registers, doubleword by doubleword. -/
def State.regWrite (s : State) (ini : Ini) (o : Nat) (data : List Byte) : State :=
  (cut 8 (data.length / 8 + 2) o data).foldl (fun t r => t.regPut ini r.1 r.2) s

/-- Whether a core refuses an initiator's write at BAR0 offset `o` without an event: IMEM and tag descriptors of a core take
none but those of host PF0 and of the core's own engine (R41, R87). -/
def silentRefusal (ini : Ini) (o : Nat) : Bool :=
  offIn 0x1000000 0x1000000 o && decide (o % 0x80000 < 0x48000) && !ownsTables (Fin.ofNat 32 ((o - 0x1000000) / 0x80000)) ini

/-- Register writes of a DMA channel, up to the first that a block refuses; whether one was (R317). -/
def State.regPuts (s : State) (ini : Ini) : List (Nat × List Byte) → State × Bool
  | [] => (s, false)
  | r :: rest =>
    let t := s.regPut ini r.1 r.2
    if silentRefusal ini r.1 || t.evt.incoming.length ≠ s.evt.incoming.length then (t, true) else t.regPuts ini rest

/-- A write to a device physical address, and whether a register refused it. A write to a reserved range is
refused as DDR outside every region (R35). -/
def State.devWrite (s : State) (who : DdrWho) (a : Nat) (data : List Byte) : State × Bool :=
  match addrKind a data.length with
  | .ddr => (s.ddrPut who a data, false)
  | .aperture => (s.apertureWrites who.ini (.ini who.ini) a data, false)
  | .regs => s.regPuts who.ini (cut 8 (data.length / 8 + 2) (a - regBase) data)
  | .none => (s.ddrRefuse who true a data.length, false)

end Sys2Proof.Machine
end

