-- ==== Sys2Proof/Machine/Dma.lean ====
section
/-! DEFINITION. How a DMA channel checks, executes and ends a descriptor (R306 to R317, R322, R541). A checked descriptor
moves burst by burst: a burst is a read or a write inside one 256-byte line, the engine grants one at a time, and one in
the own scratchpad waits for its line's slot tag (R312, R314). -/

namespace Sys2Proof.Machine

/-! ### Checks before issue (R306, R307) -/

/-- Bytes of a source row, and of a destination row. -/
def dSrcRow (d : Rec64) : Nat := dNel d * 2 ^ dSw d
def dDstRow (d : Rec64) : Nat := dNel d * 2 ^ dDw d

/-- Worst-case bytes of a line's record (R311). -/
def dWorst (d : Rec64) : Nat := if dCfmt d = 1 then 192 else if dCfmt d = 3 then 272 else 288

/-- A reserved encoding, or a field outside the limits of R306 (ECODE 0x1). -/
def dBadField (d : Rec64) (die priv : Bool) : Bool :=
  let op := dOp d
  decide (fld d 49 14 ≠ 0) || decide (fld d 64 8 > 3) || decide (fld d 78 2 ≠ 0) || decide (fld d 83 5 ≠ 0) ||
    decide (fld d 91 5 ≠ 0) || decide (fld d 110 2 ≠ 0) || bit d 127 || decide (fld d 240 16 ≠ 0) ||
    decide (op ≠ 1 ∧ fld d 176 16 ≠ 0) || (!dRem d && decide (dMod d ≠ 0)) ||
    !between 1 (dNel d) (2 ^ 24) || !between 1 (dRows d) 65536 || decide (dSstr d % 2 ^ dSw d ≠ 0) ||
    decide (dDstr d % 2 ^ dDw d ≠ 0) || (decide (1 < dRows d) && decide (dDstr d < dDstRow d)) ||
    decide (2 ^ 32 < dSrcRow d * dRows d) || decide (2 ^ 32 < dDstRow d * dRows d) || decide (dDst d % 2 ^ dDw d ≠ 0) ||
    decide (op ≠ 1 ∧ dSrc d % 2 ^ dSw d ≠ 0) ||
    (if op = 3 then decide (fld d 72 8 ≠ 0) || decide (dRows d ≠ 1) || decide (dDoff d % 16 ≠ 0) || decide (fld d 434 6 ≠ 0) ||
        (decide (2 ≤ dCfmt d) && decide (dZcode d ≠ 0))
      else decide (fld d 384 64 ≠ 0)) ||
    (die && (dSsp d || dDsp d || dNsp d)) || (priv && decide (fld d 88 8 ≠ 0)) || (!dLast d && decide (dNext d % 64 ≠ 0))

/-- The rows of a range: first address and bytes of each. -/
def rowsOf (a stride rows n : Nat) : List (Nat × Nat) := (List.range rows).map fun r => (a + r * stride, n)

/-- The ranges a descriptor reads as its source. -/
def dSrcRanges (d : Rec64) : List (Nat × Nat) :=
  match dOp d with
  | 1 => []
  | 3 => [(dSrc d, 256 * dNel d)]
  | _ => rowsOf (dSrc d) (dSstr d) (dRows d) (dSrcRow d)

/-- The ranges of its destination; CMP reads them. -/
def dDstRanges (d : Rec64) : List (Nat × Nat) :=
  match dOp d with
  | 3 => [(dDst d, 8 * dNel d), (dDoff d, dWorst d * dNel d)]
  | _ => rowsOf (dDst d) (dDstr d) (dRows d) (dDstRow d)

/-- Whether the engine may use a range (R307, R318, R539): powered banks of the own scratchpad, DDR regions of its partition,
the region of a privileged channel. A range it writes, `wr`, or compares against may also be one of apertures or registers,
but a source is DDR. -/
def State.rangeOk (s : State) (e : DmaEng) (ch : Fin 16) (sp wr src : Bool) (r : Nat × Nat) : Bool :=
  if sp then (match e with | .core c => s.cores[c].spd.poweredAll r.1 r.2 | .die _ => false)
  else if isPriv e ch then decide (addrKind r.1 r.2 = .ddr) && s.ddr.admitsAll (s.dmaWho e ch) wr r.1 r.2
  else match addrKind r.1 r.2 with
    | .ddr => s.ddr.admitsAll (s.dmaWho e ch) wr r.1 r.2
    | .none => false
    | _ => !src

/-- ECODE of the checks of R307, 0 for none, in the order of its table. -/
def State.descCheck (s : State) (e : DmaEng) (ch : Fin 16) (d : Rec64) : Nat :=
  let die := match e with | .core _ => false | .die _ => true
  let foreign := match e with | .core c => isSafety (s.partOf c) | .die _ => true
  if dBadField d die (isPriv e ch) then 1
  else if !(decide (die = true ∧ ch.val = 14)) && !(dSrcRanges d).all (fun r => s.rangeOk e ch (dSsp d) false true r) then 2
  else if dRem d && (dDsp d || !(dDstRanges d).all fun r => inApertures r.1 r.2) then 3
  else if !dRem d && !(dDstRanges d).all (fun r => s.rangeOk e ch (dDsp d) (decide (dOp d ≠ 2)) false r) then 3
  else if dRem d && (foreign || decide (2 ≤ dOp d)) then 7
  else 0

/-! ### Data movement (R308 to R311, R541) -/

/-- The engine reads a range; a bank that has lost its power answers as one outside the scratchpad. -/
def State.dmaRead (s : State) (e : DmaEng) (ch : Fin 16) (sp : Bool) (a n : Nat) : State × Option (List Byte) :=
  match e, sp with
  | .core c, true => (s, if s.cores[c].spd.poweredAll a n then some (s.cores[c].spd.wideRead a n) else none)
  | _, _ => s.devRead (s.dmaWho e ch) a n

/-- The engine reads its source; that of channel 14 is Cloche's record buffer, whose bytes the manual does not place. -/
def State.dmaSrc (s : State) (e : DmaEng) (ch : Fin 16) (sp : Bool) (a n : Nat) : State × Option (List Byte) :=
  match e with
  | .core _ => s.dmaRead e ch sp a n
  | .die _ => if ch.val = 14 then let x := s.drawBytes n; (x.2, some x.1) else s.dmaRead e ch sp a n

/-- The engine writes in its own module, and whether a register refused it. -/
def State.dmaWrite (s : State) (e : DmaEng) (ch : Fin 16) (sp : Bool) (a : Nat) (bs : List Byte) : State × Bool :=
  match e, sp with
  | .core c, true => (if s.cores[c].spd.poweredAll a bs.length then s.bankWrite c a bs else s, false)
  | _, _ => s.devWrite (s.dmaWho e ch) a bs

/-- What a descriptor came to: ECODE, MISM, SATD and VAL. -/
structure DescEnd where
  ecode : Nat
  mism  : Bool
  satd  : Bool
  val   : Nat
  deriving DecidableEq, Repr

/-- The end of a descriptor that did its work and has nothing to report. -/
def DescEnd.clean : DescEnd := ⟨0, false, false, 0⟩

/-- STATUS (R316). -/
def DescEnd.status (x : DescEnd) : Word :=
  pack [(63, 1, 1), (62, 1, ofBool (decide (x.ecode ≠ 0))), (61, 1, ofBool x.mism), (60, 1, ofBool x.satd),
    (56, 4, x.ecode), (0, 32, x.val)]

/-- An element carried from one width to another, and whether it was clamped (R308). -/
def dmaElem (sw dw : Nat) (sgn sat : Bool) (v : Nat) : Nat × Bool :=
  let sb := 8 * 2 ^ sw
  let db := 8 * 2 ^ dw
  let x : Int := if sgn then toSigned sb v else (v % 2 ^ sb : Nat)
  let lo : Int := if sgn then -(2 ^ (db - 1)) else 0
  let hi : Int := if sgn then 2 ^ (db - 1) - 1 else 2 ^ db - 1
  if dw < sw && sat then
    (if x < lo then (wrapN db lo, true) else if hi < x then (wrapN db hi, true) else (wrapN db x, false))
  else (wrapN db x, false)

/-- The elements of a byte string, `2^sw` bytes each. -/
def elemsOf (sw : Nat) : Nat → List Byte → List Nat
  | 0, _ => []
  | n + 1, bs => leNat (bs.take (2 ^ sw)) :: elemsOf sw n (bs.drop (2 ^ sw))

/-- Converted elements, and whether an element was clamped. -/
def dmaRow (d : Rec64) (n : Nat) (bs : List Byte) : List Byte × Bool :=
  let es := (elemsOf (dSw d) n bs).map (dmaElem (dSw d) (dDw d) (dSgn d) (dSat d))
  (es.flatMap fun e => leBytes (2 ^ dDw d) e.1, es.any fun e => e.2)

/-- The destination of a BAD descriptor, or of one whose result is undefined, takes free bytes. -/
def State.dmaUndef (s : State) (e : DmaEng) (ch : Fin 16) (d : Rec64) : State :=
  if dRem d then s
  else (dDstRanges d).foldl (fun t r =>
    if dDsp d || decide (addrKind r.1 r.2 = .ddr) then let x := t.drawBytes r.2; (x.2.dmaWrite e ch (dDsp d) r.1 x.1).1
    else t) s

/-- Whether two lists of ranges share a byte. -/
def rangesMeet (xs ys : List (Nat × Nat)) : Bool := xs.any fun x => ys.any fun y => overlap x.1 x.2 y.1 y.2

/-- The bank copy of R85 applies. -/
def dBankCopy (d : Rec64) : Bool :=
  decide (dOp d = 0) && dSsp d && dDsp d && decide (dSw d = dDw d) && decide (dRows d = 1) && decide (dSrc d % 256 = 0) &&
    decide (dDst d % 256 = 0) && decide (dSrcRow d % 256 = 0)

/-- A bank copy whose destination overlaps its source from above proceeds from the highest line downward (R85). -/
def dDown (d : Rec64) : Bool :=
  dBankCopy d && decide (dSrc d < dDst d) && decide (dDst d < dSrc d + dSrcRow d)

/-- Whether source and destination share bytes of one address space, so that R308 or R311 leaves the result open. -/
def dOverlap (d : Rec64) : Bool :=
  !dRem d && dSsp d == dDsp d && !dBankCopy d && (decide (dOp d = 0) || decide (dOp d = 3)) &&
    rangesMeet (dSrcRanges d) (dDstRanges d)

/-! ### COMPRESS (R221, R213, R214, R311) -/

/-- K-elements per line, and bits of an element, of CFMT. -/
def cfK (cf : Nat) : Nat := if cf = 1 then 32 else if cf = 3 then 8 else 16
def cfBits (cf : Nat) : Nat := if cf = 1 then 4 else if cf = 3 then 16 else 8

/-- Element k of row r of a dense line (R193). -/
def lineElem (cf : Nat) (line : Nat) (r k : Nat) : Nat := line / 2 ^ (128 * r + cfBits cf * k) % 2 ^ cfBits cf

/-- Whether an element counts as zero. -/
def cfZero (cf z v : Nat) : Bool :=
  match cf with
  | 0 => decide (v = z)
  | 1 => decide (v = z % 16)
  | 2 => decide (v % 128 = 0)
  | _ => decide (v % 2 ^ 15 = 0)

/-- The 16 elements of block j of a line. -/
def blockElems (cf line j : Nat) : List Nat := (List.range 16).map fun e => lineElem cf line (4 * (j % 4) + e / 4) (4 * (j / 4) + e % 4)

/-- Bytes of stored elements: INT4 two to a byte, low nibble first. -/
def cfPack (cf : Nat) (es : List Nat) : List Byte :=
  leBytes ((es.length * cfBits cf + 7) / 8) ((es.zipIdx.map fun x => x.1 * 2 ^ (cfBits cf * x.2)).foldl (· + ·) 0)

/-- A byte string with zero bytes up to a multiple of 16. -/
def pad16 (bs : List Byte) : List Byte := bs ++ List.replicate ((16 - bs.length % 16) % 16) 0

/-- PRES and the record of a dense line. -/
def compressLine (cf z line : Nat) : Nat × List Byte :=
  let blocks := (List.range (cfK cf)).map fun j => (j, blockElems cf line j)
  let present := blocks.filter fun b => b.2.any fun v => !cfZero cf z v
  let bitmap (es : List Nat) : Nat := ((es.zipIdx.map fun x => if cfZero cf z x.1 then 0 else 2 ^ x.2)).foldl (· + ·) 0
  if present.isEmpty then (0, [])
  else
    ((present.map fun b => 2 ^ b.1).foldl (· + ·) 0,
      pad16 (present.flatMap fun b => leBytes 2 (bitmap b.2)) ++
        pad16 (cfPack cf (present.flatMap fun b => b.2.filter fun v => !cfZero cf z v)))

/-- The index entry of a line; a record offset that ROFS cannot hold leaves the entry free. -/
def State.indexEntry (s : State) (pres off : Nat) : State × List Byte :=
  if pres = 0 ∨ off < 2 ^ 23 then (s, leBytes 8 (pres * 2 ^ 32 + off % 2 ^ 23))
  else let x := s.drawBytes 8; (x.2, x.1)

/-! ### Bursts (R308 to R312, R541) -/

/-- Elements, or lines of a COMPRESS, of a descriptor. -/
def dUnits (d : Rec64) : Nat := dNel d * dRows d

/-- Bytes from an address to the end of its line. -/
def lineRest (a : Nat) : Nat := 256 - a % 256

/-- The place of the elements a channel takes up next: elements before them, source and destination address, and how many
lie in one line of the source and, for FILL and CMP, of the destination. -/
structure DmaChunk where
  pos : Nat
  src : Nat
  dst : Nat
  n   : Nat

def DmaProg.chunk (x : DmaProg) (d : Rec64) : DmaChunk :=
  let k := if dDown d then dUnits d - x.unit - 256 / 2 ^ dSw d else x.unit
  let i := k % dNel d
  let src := dSrc d + k / dNel d * dSstr d + i * 2 ^ dSw d
  let dst := dDst d + k / dNel d * dDstr d + i * 2 ^ dDw d
  let ns := lineRest src / 2 ^ dSw d
  let nd := lineRest dst / 2 ^ dDw d
  let n := match dOp d with | 0 => ns | 1 => nd | _ => min ns nd
  ⟨k, src, dst, min n (dNel d - i)⟩

/-- The next burst of a descriptor. -/
inductive DmaAct where
  | src (a n : Nat)
  /-- CMP reads its second operand. -/
  | dst (a n : Nat)
  | put (a : Nat) (bs : List Byte)
  | finish
  deriving DecidableEq, Repr

def DmaProg.act (x : DmaProg) (d : Rec64) : DmaAct :=
  match x.puts with
  | (a, bs) :: _ => .put a (bs.take (lineRest a))
  | [] =>
    if dUnits d ≤ x.unit then .finish
    else
      let k := x.chunk d
      match dOp d with
      | 0 => .src k.src (k.n * 2 ^ dSw d)
      | 1 => .put k.dst (List.replicate k.n (leBytes (2 ^ dDw d) (dConst d))).flatten
      | 2 => if x.got.isEmpty then .src k.src (k.n * 2 ^ dSw d) else .dst k.dst (k.n * 2 ^ dDw d)
      | _ => let a := dSrc d + 256 * x.unit + x.got.length; .src a (min (256 - x.got.length) (lineRest a))

/-- Whether a slot tag lets a burst go now (R88, R312). -/
def State.actMay (s : State) (e : DmaEng) (d : Rec64) : DmaAct → Bool
  | .src a _ => (match e with | .core c => !dSsp d || s.cores[c].spd.mayRead (a / 256) | .die _ => true)
  | .dst a _ => (match e with | .core c => !dDsp d || s.cores[c].spd.mayRead (a / 256) | .die _ => true)
  | .put a _ => (match e with | .core c => !dDsp d || s.cores[c].spd.mayWrite (a / 256) | .die _ => true)
  | .finish => true

/-- The module with the progress of a channel's descriptor replaced. -/
def State.setProg (s : State) (e : DmaEng) (ch : Fin 16) (x : DmaProg) : State := s.modDch e ch fun y => { y with prog := x }

/-- The descriptor in progress has done its accesses, with this STATUS. -/
def State.descEnd (s : State) (e : DmaEng) (ch : Fin 16) (x : DescEnd) : State :=
  s.modDch e ch fun y => { y with phase := .executed, status := x.status }

/-- The descriptor in progress fails during its transfer: no further access, and its destination is undefined (R317). -/
def State.descFail (s : State) (e : DmaEng) (ch : Fin 16) (d : Rec64) (x : DmaProg) (ecode : Nat) : State :=
  (s.dmaUndef e ch d).descEnd e ch ⟨ecode, false, x.satd, 0⟩

/-- What source bytes come to: COPY converts them, CMP keeps them for its second operand, and COMPRESS forms the index entry
and the record of a whole line. -/
def State.srcTaken (s : State) (d : Rec64) (x : DmaProg) (bs : List Byte) : State × DmaProg :=
  let k := x.chunk d
  match dOp d with
  | 0 =>
    let y := dmaRow d k.n bs
    (s, { x with unit := x.unit + k.n, puts := [(k.dst, y.1)], satd := x.satd || y.2 })
  | 2 => (s, { x with got := bs })
  | _ =>
    let line := x.got ++ bs
    if line.length < 256 then (s, { x with got := line })
    else
      let c := compressLine (dCfmt d) (dZcode d) (leNat line)
      let i := s.indexEntry c.1 x.val
      (i.1, { x with
        unit := x.unit + 1, got := [], val := x.val + c.2.length
        puts := (dDst d + 8 * x.unit, i.2) :: (if c.2.isEmpty then [] else [(dDoff d + x.val, c.2)]) })

/-- CMP compares what it has read up to the first element that differs (R310). -/
def DmaProg.compare (x : DmaProg) (d : Rec64) (bs : List Byte) : DmaProg :=
  let k := x.chunk d
  let want := (elemsOf (dSw d) k.n x.got).map fun v => (dmaElem (dSw d) (dDw d) (dSgn d) (dSat d) v).1
  match (want.zip (elemsOf (dDw d) k.n bs)).findIdx? fun v => v.1 ≠ v.2 with
  | some j => { x with
      unit := dUnits d, got := [], mism := true, val := (k.pos + j) * 2 ^ dDw d, done := (k.pos + j) * 2 ^ dDw d }
  | none => { x with unit := x.unit + k.n, got := [], done := x.done + bs.length }

/-- Progress once the burst `bs` at `a` has been issued. -/
def DmaProg.putDone (x : DmaProg) (d : Rec64) (a : Nat) (bs : List Byte) : DmaProg :=
  match x.puts with
  | [] => { x with unit := x.unit + bs.length / 2 ^ dDw d, done := x.done + bs.length }
  | w :: rest => { x with
      puts := if w.2.length ≤ bs.length then rest else (a + bs.length, w.2.drop bs.length) :: rest
      done := x.done + bs.length }

/-- A burst for another module fills the WRITE packet, which closes at the end of a row, at a multiple of 4,096 B and at the
end of the descriptor (R541). -/
def State.putRemote (s : State) (e : DmaEng) (ch : Fin 16) (d : Rec64) (x : DmaProg) (a : Nat) (bs : List Byte) : State :=
  let y := x.putDone d a bs
  let at0 := if x.pkt.isEmpty then a else x.pktAt
  let pkt := x.pkt ++ bs
  if (y.puts.isEmpty && decide (y.unit % dNel d = 0)) || decide ((a + bs.length) % 4096 = 0) then
    (s.fabWrite e.ini (dMod d) at0 pkt).setProg e ch { y with pktAt := 0, pkt := [], done := x.done + pkt.length }
  else s.setProg e ch { y with pktAt := at0, pkt := pkt, done := x.done }

/-- What a descriptor that has done its work reports. -/
def DmaProg.report (x : DmaProg) (d : Rec64) : DescEnd :=
  ⟨0, x.mism, x.satd, if dOp d = 2 && !x.mism then 0xFFFFFFFF else x.val⟩

/-- One burst of a channel. -/
def State.dmaBurst (s : State) (e : DmaEng) (ch : Fin 16) : State :=
  let c := s.dch e ch
  let d := c.desc
  let x := c.prog
  match x.act d with
  | .src a n =>
    (match s.dmaSrc e ch (dSsp d) a n with
    | (t, none) => t.descFail e ch d x 4
    | (t, some bs) => let y := t.srcTaken d x bs; y.1.setProg e ch y.2)
  | .dst a n =>
    (match s.dmaRead e ch (dDsp d) a n with
    | (t, none) => t.descFail e ch d x 4
    | (t, some bs) => t.setProg e ch (x.compare d bs))
  | .put a bs =>
    if dRem d then s.putRemote e ch d x a bs
    else
      let w := s.dmaWrite e ch (dDsp d) a bs
      if w.2 then w.1.descFail e ch d x 5 else w.1.setProg e ch (x.putDone d a bs)
  | .finish => (if dOverlap d then s.dmaUndef e ch d else s).descEnd e ch (x.report d)

/-! ### Grants (R314) -/

/-- The channels of an engine. -/
def engChans (e : DmaEng) : Nat := match e with | .core _ => 8 | .die _ => 16

/-- Whether a channel has a burst ready. -/
def State.burstReady (s : State) (e : DmaEng) (ch : Fin 16) : Bool :=
  let c := s.dch e ch
  c.busy && decide (c.phase = .running) && s.actMay e c.desc (c.prog.act c.desc)

/-- The channel an engine granted last. -/
def State.dmaTok (s : State) (e : DmaEng) : Fin 16 := match e with | .core c => s.dma.coreTok[c] | .die d => s.dma.dieTok[d]

def State.setDmaTok (s : State) (e : DmaEng) (ch : Fin 16) : State :=
  match e with
  | .core c => { s with dma := { s.dma with coreTok := s.dma.coreTok.set c ch } }
  | .die d => { s with dma := { s.dma with dieTok := s.dma.dieTok.set d ch } }

/-- The channel an engine serves next: of those with a burst ready, the highest level, and within it the first after the
rotating token. -/
def State.dmaGrant (s : State) (e : DmaEng) : Option (Fin 16) :=
  let ready := ((rotated (engChans e) (s.dmaTok e).val).map (Fin.ofNat 16)).filter (s.burstReady e)
  ready.find? fun ch => ready.all fun o => decide ((s.dch e o).level ≤ (s.dch e ch).level)

/-- The engine grants bursts as long as channel `ch` has one ready. -/
def State.dmaServe (e : DmaEng) (ch : Fin 16) : Nat → State → State
  | 0, s => s
  | n + 1, s =>
    if s.burstReady e ch then
      match s.dmaGrant e with
      | none => s
      | some x => State.dmaServe e ch n ((s.setDmaTok e x).dmaBurst e x)
    else s

/-- A bound of the bursts the engine's descriptors still take. -/
def State.burstBound (s : State) (e : DmaEng) : Nat :=
  (((List.range (engChans e)).map (Fin.ofNat 16)).map fun ch => 16 * dUnits (s.dch e ch).desc + 16).sum

/-! ### A descriptor's course -/

/-- The next descriptor is fetched once this one has started and a tag permits it (R312). -/
def State.prefetch (s : State) (e : DmaEng) (ch : Fin 16) : State :=
  let c := s.dch e ch
  if dLast c.desc || decide (c.next ≠ .none) then s
  else match s.descRead e ch (dNext c.desc) (dNsp c.desc) with
    | (_, .wait) => s
    | (t, .unreadable) => t.modDch e ch fun x => { x with next := .unreadable }
    | (t, .got n) => t.modDch e ch fun x => { x with next := .some n }

/-- A fetched descriptor is checked and starts, or is marked BAD (R307). -/
def State.descStart (s : State) (e : DmaEng) (ch : Fin 16) : State :=
  let c := s.dch e ch
  if !(c.busy && decide (c.phase = .fetched)) then s
  else
    let code := s.descCheck e ch c.desc
    let t := s.prefetch e ch
    if code ≠ 0 then t.descEnd e ch ⟨code, false, false, 0⟩
    else t.modDch e ch fun x => { x with phase := .running, prog := DmaProg.zero }

/-- Every channel of the engine fetches and starts what it can: each competes for the engine's ports. -/
def State.startAll (s : State) (e : DmaEng) : State :=
  ((List.range (engChans e)).map (Fin.ofNat 16)).foldl (fun t x => (t.fetchCur e x).descStart e x) s

/-- The channel executes its descriptor, as far as slot tags let it, when the row's operation is the descriptor's; a reserved
operation is marked BAD by the COPY row. -/
def State.dmaExec (s : State) (e : DmaEng) (ch : Fin 16) (op : Nat) : State :=
  let s := s.fetchCur e ch
  let c := s.dch e ch
  if !(c.busy && (decide (c.phase = .fetched) || decide (c.phase = .running))) then s
  else if !(dOp c.desc = op || (op = 0 && 3 < dOp c.desc)) then s
  else
    let t := s.startAll e
    (State.dmaServe e ch (t.burstBound e) t).prefetch e ch

def execDmaCopy (e : DmaEng) (ch : Fin 16) (s : State) : Answer := inRange s (dmaChanOk e ch) (s.dmaExec e ch 0)

def execDmaFill (e : DmaEng) (ch : Fin 16) (s : State) : Answer := inRange s (dmaChanOk e ch) (s.dmaExec e ch 1)

def execDmaCmp (e : DmaEng) (ch : Fin 16) (s : State) : Answer := inRange s (dmaChanOk e ch) (s.dmaExec e ch 2)

def execDmaCompress (e : DmaEng) (ch : Fin 16) (s : State) : Answer := inRange s (dmaChanOk e ch) (s.dmaExec e ch 3)

/-! ### Signals and the end of a descriptor (R313, R316, R317) -/

/-- The done code of a channel; the half code lies 0x200 above. -/
def doneCode (e : DmaEng) (ch : Fin 16) : Nat :=
  match e with | .core c => 0x2400 + 8 * c.val + ch.val | .die d => 0x2500 + 16 * d.val + ch.val

/-- The signal of a descriptor. One for another module that its engine may not send is not sent (R32, R38). -/
def State.dmaSignal (s : State) (e : DmaEng) (ch : Fin 16) (d : Rec64) (half : Bool) : State :=
  if dSmode d then s.dmaPost e ch (doneCode e ch + if half then 0x200 else 0) false
  else match e with
    | .core c =>
      if dRem d then
        (if isSafety (s.partOf c) then s else s.fabSignal e.ini (dMod d) (dCore d).val (dSync d) 1)
      else if dCore d = c then s.syncAdd c (dSync d) 1
      else s.remoteSignal (dCore d) e.ini (dSync d) 1
    | .die _ => if dRem d then s else s.remoteSignal (dCore d) e.ini (dSync d) 1

/-- BAD of a STATUS. -/
def stBad (w : Word) : Bool := bit w 62

/-- Window writes of an initiator still wait for their bank, so they are not visible yet (R27, R94). -/
def State.writesHeld (s : State) (i : Ini) : Bool := s.cores.toList.any fun k => k.spd.holdsWrite (.ini i)

/-- The first half of a descriptor's destination bytes, or of what a CMP compares, is done (R313). A COMPRESS knows how many
bytes it writes once it has formed its last record. -/
def DmaChan.halfDone (c : DmaChan) : Bool :=
  decide (c.phase = .executed) ||
    (decide (c.phase = .running) &&
      (if dOp c.desc = 3 then decide (dUnits c.desc ≤ c.prog.unit) && decide (8 * dNel c.desc + c.prog.val ≤ 2 * c.prog.done)
       else decide (dDstRow c.desc * dRows c.desc ≤ 2 * c.prog.done)))

/-- The first half of a descriptor's work is visible; a BAD one signals at its end. -/
def State.halfSignal (s : State) (e : DmaEng) (ch : Fin 16) : State :=
  let c := s.dch e ch
  if c.busy && c.halfDone && dHen c.desc && !c.half && !stBad c.status && !s.writesHeld e.ini then
    (s.dmaSignal e ch c.desc true).modDch e ch fun x => { x with half := true }
  else s

def execDmaHalfSignal (e : DmaEng) (ch : Fin 16) (s : State) : Answer := inRange s (dmaChanOk e ch) (s.halfSignal e ch)

/-- The STATUS of the descriptor that DCH_CUR names is written; in a bank no longer powered it is lost. -/
def State.putStatus (s : State) (e : DmaEng) (ch : Fin 16) (c : DmaChan) : State :=
  let bs := leBytes 8 c.status.toNat
  match e, c.csp with
  | .core k, true => if s.cores[k].spd.poweredAll (c.cur + 56) 8 then s.bankWrite k (c.cur + 56) bs else s
  | _, _ => (s.devWrite (s.dmaWho e ch) (c.cur + 56) bs).1

/-- Whether the list ends with the descriptor in progress. -/
def State.willEnd (s : State) (e : DmaEng) (ch : Fin 16) : Bool :=
  let c := s.dch e ch
  dLast c.desc || c.stop || (isPriv e ch && decide (c.left ≤ 1)) || decide (c.next = .unreadable)

/-- Whether a descriptor's writes are visible and slot tags permit STATUS, and the list status where the list ends. -/
def State.mayClose (s : State) (e : DmaEng) (ch : Fin 16) : Bool :=
  let c := s.dch e ch
  (match e, c.csp with
    | .core k, true => s.cores[k].spd.mayWriteAll (c.cur + 56) 8
    | _, _ => true) && (!s.willEnd e ch || s.mayEnd e ch) && !s.writesHeld e.ini

/-- The list goes on with the next descriptor, or ends (R312, R315, R317). -/
def State.advance (s : State) (e : DmaEng) (ch : Fin 16) : State :=
  let c := s.dch e ch
  let d := c.desc
  if c.stop then s.endList e ch 1
  else if dLast d || (isPriv e ch && decide (c.left = 0)) then s.endList e ch 0
  else match c.next with
    | .unreadable => s.breakList e ch
    | .some n => s.modDch e ch fun x => { x with want := dNext d, wsp := dNsp d }.take n
    | .none => (s.modDch e ch fun x => { x with want := dNext d, wsp := dNsp d, phase := .idle }).fetchCur e ch

/-- A descriptor ends: its half signal if it is still due, STATUS, event 0x2300 for the first BAD one of the list, its
done signal, and the list goes on or ends. -/
def State.descDone (s : State) (e : DmaEng) (ch : Fin 16) : State :=
  let c := s.dch e ch
  if !(c.busy && decide (c.phase = .executed) && s.mayClose e ch) then s
  else
    let d := c.desc
    let bad := stBad c.status
    let s := if dHen d && !c.half then s.dmaSignal e ch d true else s
    let s := s.putStatus e ch c
    let s := if bad && decide (c.nbad = 0) then s.dmaPost e ch 0x2300 true else s
    let s := if dDen d then s.dmaSignal e ch d false else s
    let s := s.modDch e ch fun x => { x with
      half := true, descs := (x.descs + 1) % 2 ^ 32, nbad := if bad then satAdd 0xFFFF x.nbad 1 else x.nbad
      left := x.left - 1 }
    s.advance e ch

def execDmaDescriptorDone (e : DmaEng) (ch : Fin 16) (s : State) : Answer := inRange s (dmaChanOk e ch) (s.descDone e ch)

/-- A parity error halts the channel (R322); on a per-core engine the task ends with 0x8C and the core fences itself
(R422). -/
def State.dmaParity (s : State) (e : DmaEng) (ch : Fin 16) : State :=
  let s := if (s.dch e ch).busy then s.modDch e ch fun x => { x.halt with nbad := satAdd 0xFFFF x.nbad 1 } else s
  let s := s.dmaPost e ch 0x2302 true
  match e with
  | .core c => (s.failTask c 0x8C).fenceCore c
  | .die _ => s

def execDmaParityHalt (e : DmaEng) (ch : Fin 16) (s : State) : Answer := inRange s (dmaChanOk e ch) (s.dmaParity e ch)

end Sys2Proof.Machine
end

