-- ==== Sys2Proof/Machine/HostRead.lean ====
section
/-! DEFINITION. Host reads of BAR0, BAR2 and PF1 BAR0, register writes without a row of their own, configuration requests
and the Function Level Reset of PF1 (R9, R454, R487, R488, R491, R492, R498). -/

namespace Sys2Proof.Machine

/-- An aligned request of 4 or 8 bytes (R487). -/
def barAligned (off n : Nat) : Bool := (decide (n = 4) || decide (n = 8)) && decide (off % n = 0)

/-- A completion with data; the registers read may have held free values. -/
def State.complete (s : State) (bs : List Byte) : State := { s with free := s.free + 1 }.emit (.hostCompletion (some bs))

/-- A read of PF0 BAR0; one of an SPD register wakes a die in NAP (R506). -/
def State.readBar0 (s : State) (off n : Nat) : State :=
  if !s.pf0Memory || !barAligned off n || (s.onlyCrn && !inCrn off) then s.unsupported
  else
    let s := if offIn 0x1000000 0x1000000 off then s.wakeDie (dieOf (Fin.ofNat 32 ((off - 0x1000000) / 0x80000))) else s
    s.complete (s.regBytes off n)

/-- A read of PF0 BAR2: launch slots. The reserved range above them and the host windows answer no reads (R35, R488,
R489; log entry 173). -/
def State.readBar2 (s : State) (off n : Nat) : State :=
  if !s.pf0Memory || s.onlyCrn || decide (0x4000 < off + n) then s.unsupported
  else s.complete ((List.range n).map fun i => s.bar2Byte (off + i))

/-- A read of PF1 BAR0. -/
def State.readPf1 (s : State) (off n : Nat) : State :=
  if !s.pf1Memory || !barAligned off n then s.unsupportedBy true
  else s.complete ((List.range n).map fun i => byteOf (s.pf1Word ((off + i) / 8 * 8)) ((off + i) % 8))

/-- HOST_READ. -/
def State.hostRead (s : State) (b : HostSpace) (off n : Nat) (f : TlpFault) : State :=
  if !s.pcieAlive then s
  else if f ≠ .none then s.tlpDropBy (decide (b = .pf1)) f
  else match b with
    | .bar0 => s.readBar0 off n
    | .bar2 => s.readBar2 off n
    | .pf1 => s.readPf1 off n

def execHostRead (b : HostSpace) (off n : Nat) (f : TlpFault) (s : State) : Answer :=
  inRange s (hostReadOk b off n) (s.hostRead b off n f)

/-- A write to PF1 BAR0: Cloche's command area, or the MSI-X table. -/
def State.pf1Put (s : State) (off : Nat) (data : List Byte) : State :=
  if offIn 0x100 0x100 off then s.cloSubmit false (off - 0x100) data
  else if offIn 0xF000 0x80 off then s.onHalf off data fun h v => s.modFn true fun f => f.tableWrite (off - 0xF000) h v
  else s

/-- A write to PF0 BAR0 from an initiator. The host's must be aligned, and reach only CRN in a recovery at start. -/
def State.bar0Put (s : State) (ini : Ini) (off : Nat) (data : List Byte) : State :=
  if ini = 0x60 ∧ (!s.pf0Memory || !barAligned off data.length || (s.onlyCrn && !inCrn off)) then s
  else if inCrn off ∧ ini ≠ 0x60 then s
  else s.regWrite ini off data

/-- REGISTER_WRITE: the write reaches its register under the block's rules (R9, R11); every row of the table that is a
register's own write has the same effect through its offset. -/
def State.regAccess (s : State) (b : RegSpace) (off : Nat) (data : List Byte) (f : TlpFault) : State :=
  if s.pwr.mode ≠ .run then s
  else match b with
    | .bar0 ini => if f ≠ .none ∧ ini.val = 0x60 then s.tlpDrop f else s.bar0Put ini off data
    | .pf1 =>
      if f ≠ .none then s.tlpDropBy true f
      else if !s.pf1Memory || !barAligned off data.length then s
      else s.pf1Put off data
    | .cloB => s.cloSubmit true off data

def execRegisterWrite (b : RegSpace) (off : Nat) (data : List Byte) (f : TlpFault) (s : State) : Answer :=
  inRange s (regWriteOk b off data) (s.regAccess b off data f)

/-- CONFIGURATION_REQUEST. -/
def State.cfgRequest (s : State) (pf1 : Bool) (op : CfgOp) : State :=
  if !s.pcieAlive then s
  else if s.pwr.mode = .doze then s.unsupportedBy pf1
  else if !(if pf1 then s.pf1Ready else s.pf0Ready) then s.emit (.cfgCompletion pf1 none)
  else (s.modFn pf1 fun f => f.config pf1 op).emit (.cfgCompletion pf1 (some (if op = .readId then fnId pf1 else 0)))

def execConfigurationRequest (pf1 : Bool) (op : CfgOp) (s : State) : Answer := .next (s.cfgRequest pf1 op)

/-- FLR of PF1: its configuration space, MSI-X table and PBA return to reset; the completion interrupt of a Cloche command
in progress is lost (R492). -/
def State.flr1 (s : State) : State :=
  let s := s.modClo fun x => { x with chA := { x.chA with mute := x.chA.exec } }
  { s with pci := { s.pci with pf1 := PciFn.reset } }.post 0xA021 0xC1

def execFlrPf1 (s : State) : Answer := .next s.flr1

end Sys2Proof.Machine
end

