-- ==== Sys2Proof/Machine/Monitors.lean ====
section
/-! DEFINITION. Gauntlet's clock and voltage monitors (R416, R507, R511). -/

namespace Sys2Proof.Machine

/-- A monitor's number in its event. The spec's list comes to 16 with the CCLK monitors of the two dies that hold paths, CD0
or CD1 and CD2 or CD3, under one number each (DESIGN CHOICE, log entry 197). -/
def monitorNumber : Monitor → Nat
  | .ref => 0
  | .xd => 1
  | .memClk m => 2 + m.val
  | .cclk d => 4 + d.val / 2
  | .vddC d => 6 + d.val
  | .vddM => 10
  | .vddX => 11
  | .vddAo => 12
  | .ddrq => 13
  | .sa09 => 14
  | .sa12 => 15

/-- Whether a monitor's clock or rail is up in the module's power state (R505, R509). -/
def State.watched (s : State) (m : Monitor) : Bool :=
  match m with
  | .ref => decide (s.pwr.mode ≠ .off)
  | .vddAo => decide (s.pwr.mode ≠ .off)
  | .cclk d => decide (s.pwr.mode = .run) && !s.pwr.trip && ((List.finRange 32).any fun c => decide (dieOf c = d) && isSafety (s.partOf c))
  | _ => decide (s.pwr.mode = .run)

/-- Within ±`pct` percent of a setpoint. -/
def nearTo (pct set x : Nat) : Bool := decide (100 * x ≤ (100 + pct) * set) && decide ((100 - pct) * set ≤ 100 * x)

/-- VDD_Cd of a voltage point, µV (R510). -/
def pointUv (vp : Nat) : Nat :=
  match vp with
  | 0 => 600000 | 1 => 610000 | 2 => 630000 | 3 => 650000 | 4 => 680000 | 5 => 710000 | 6 => 750000 | _ => 850000

/-- CCLK within the window of its die's monitor, kHz: stopped in NAP, any for 2 µs after the restart (R416, R507). -/
def DieMon.clockOk (k : DieMon) (cnt : Word) (x : Nat) : Bool :=
  if k.stopped then decide (x = 0)
  else nearTo 5 (1000 * pointMHz k.fp) x || (match k.back with | some t => decide ((cnt - t).toNat < 1000) | none => false)

/-- VDD_Cd within the window of its die's monitor, µV: of either setpoint for at most 100 µs of a change (R416, R511). -/
def DieMon.railOk (k : DieMon) (cnt : Word) (x : Nat) : Bool :=
  nearTo 8 (pointUv k.vp) x ||
    (match k.other with | some (v, t) => decide ((cnt - t).toNat ≤ 50000) && nearTo 8 (pointUv v) x | none => false)

/-- Whether monitor `m` accepts a clock of `x` kHz or a rail of `x` µV. -/
def State.monitorOk (s : State) (m : Monitor) (x : Nat) : Bool :=
  match m with
  | .ref => nearTo 5 25000 x
  | .xd => nearTo 5 1000000 x
  | .memClk _ => nearTo 5 1600000 x
  | .cclk d => s.gnt.mon[d].clockOk s.tb.cnt x
  | .vddC d => s.gnt.mon[d].railOk s.tb.cnt x
  | .sa09 => nearTo 8 900000 x
  | .sa12 => nearTo 8 1200000 x
  | .ddrq => nearTo 8 1200000 x
  | _ => nearTo 8 800000 x

/-- Monitor `m` has seen a clock of `x` kHz or a rail of `x` µV for 5 µs. -/
def State.monitored (s : State) (m : Monitor) (x : Nat) : State :=
  if s.watched m && !s.monitorOk m x then (s.gntPost (0x6060 + monitorNumber m)).enterSafe 0x05 else s

def execMonitorViolation (x : Measured) (s : State) : Answer := .next (s.monitored x.monitor x.value)

end Sys2Proof.Machine
end

