-- ==== Sys2Proof/Machine/Query.lean ====
section
/-! DEFINITION. The query commands of GEO (chapter 06): BALL, KNNC, FPS and VDOWN. -/

namespace Sys2Proof.Machine

/-- A position record's coordinate, through the wide view. -/
def SpdState.coord (p : SpdState) (a i : Nat) : Int := toSigned 24 (p.num (a + 3 * i) 3)

/-- The exact squared distance of two position records (R161). -/
def SpdState.dist2 (p : SpdState) (a b : Nat) : Nat :=
  ((List.range 3).map fun i => let d := p.coord a i - p.coord b i; (d * d).natAbs).foldl (· + ·) 0

/-- Fields of BALL and KNNC (R162). -/
structure QueryCmd where
  qbase : Nat
  nq    : Nat
  clo   : Nat
  cbase : Nat
  ccnt  : Nat
  k     : Nat
  out   : Nat
  rsq   : Nat
  rmode : Bool
  self' : Bool
  ofmt  : Bool

def queryCmd (q : EngCmd) : QueryCmd :=
  ⟨fld q.w1 0 23, fld q.w1 24 20, fld q.w1 44 20, fld q.w2 0 23, fld q.w2 24 20, fld q.w2 44 13, fld q.w3 0 23,
    fld q.w3 32 32, bit q.w0 56, bit q.w0 57, bit q.w0 58⟩

/-- Row stride of BALL or KNNC (R166). -/
def QueryCmd.stride (x : QueryCmd) (knn : Bool) : Nat :=
  if knn || x.ofmt then 16 + 16 * x.k else (16 + 4 * x.k + 15) / 16 * 16

/-- Limits of BALL and KNNC (R162, R163). -/
def queryOk (q : EngCmd) (knn : Bool) : Bool :=
  let x := queryCmd q
  decide (fld q.w0 59 5 = 0) && (!knn || !x.ofmt) && decide (fld q.w1 23 1 = 0) && decide (x.qbase % 16 = 0) &&
    between 1 x.nq 524288 && decide (fld q.w2 23 1 = 0) && decide (fld q.w2 57 7 = 0) && decide (x.cbase % 16 = 0) &&
    between 1 x.k 4096 && decide (fld q.w3 23 9 = 0) && decide (x.out % 16 = 0) &&
    decide (x.qbase + 16 * x.nq ≤ spdBytes) && decide (x.out + x.nq * x.stride knn ≤ spdBytes) &&
    (if x.rmode then decide (x.clo = 0)
      else between 1 x.ccnt 524288 && decide (x.cbase + 16 * (x.clo + x.ccnt) ≤ spdBytes))

/-- The range table entry of query `i`: its list and the number of ranges; none where the query is BADRNG for it (R164). -/
def SpdState.rangeEntry (p : SpdState) (x : QueryCmd) (i : Nat) : Option (Nat × Nat) :=
  let at' := x.ccnt * 8 + 8 * i
  let e : Word := BitVec.ofNat 64 (p.num at' 8)
  let nr := fld e 24 5
  let lst := fld e 0 23
  if spdBytes < at' + 8 ∨ fld e 29 35 ≠ 0 ∨ bit e 23 ∨ nr = 0 ∨ 27 < nr ∨ lst % 8 ≠ 0 ∨ spdBytes < lst + 8 * nr then none
  else some (lst, nr)

/-- A query's ranges (LO, COUNT) in list order; none where the query is BADRNG (R164). -/
def SpdState.ranges (p : SpdState) (x : QueryCmd) (i : Nat) : Option (List (Nat × Nat)) :=
  if !x.rmode then some [(x.clo, x.ccnt)]
  else match p.rangeEntry x i with
    | none => none
    | some (lst, nr) =>
      let rs := (List.range nr).map fun j => (p.num (lst + 8 * j) 4, p.num (lst + 8 * j + 4) 4)
      if rs.any fun r => decide (0 < r.2) && decide (spdBytes < x.cbase + 16 * (r.1 + r.2)) then none else some rs

/-- The range table entries within the scratchpad. -/
def QueryCmd.entryReads (x : QueryCmd) : List (Nat × Nat) :=
  if x.rmode then (List.range x.nq).filterMap fun i =>
    let a := x.ccnt * 8 + 8 * i
    if spdBytes < a + 8 then none else some (a, 8)
  else []

/-- The range lists that the entries name. -/
def SpdState.listReads (p : SpdState) (x : QueryCmd) : List (Nat × Nat) :=
  if x.rmode then (List.range x.nq).filterMap fun i => (p.rangeEntry x i).map fun e => (e.1, 8 * e.2) else []

/-- The queries and the candidates that they visit. -/
def SpdState.candReads (p : SpdState) (x : QueryCmd) : List (Nat × Nat) :=
  (x.qbase, 16 * x.nq) :: (List.range x.nq).flatMap fun i =>
    match p.ranges x i with
    | some rs => rs.map fun r => (x.cbase + 16 * r.1, 16 * r.2)
    | none => []

/-- The candidates a query visits, in order (R164). -/
def visits (x : QueryCmd) (i : Nat) (rs : List (Nat × Nat)) : List Nat :=
  (rs.flatMap fun r => (List.range r.2).map (· + r.1)).filter fun c => !(x.self' && decide (c = i))

/-- The qualifying candidates of query `i`, with squared distances, in visit order. -/
def SpdState.qualify (p : SpdState) (x : QueryCmd) (i : Nat) (rs : List (Nat × Nat)) : List (Nat × Nat) :=
  ((visits x i rs).map fun c => (c, p.dist2 (x.qbase + 16 * i) (x.cbase + 16 * c))).filter
    fun e => decide (x.rsq = 0xFFFFFFFF) || decide (e.2 ≤ x.rsq)

/-- A 16-byte row header (R166). -/
def rowHeader (valid found qfl : Nat) : List Byte :=
  leBytes 4 valid ++ leBytes 4 (min found 0xFFFFFFFF) ++ leBytes 1 qfl ++ List.replicate 7 0

/-- Clamp to the i24 range. -/
def sat24 (x : Int) : Int := max (-8388608) (min 8388607 x)

/-- A member of radius grouping (R166). -/
def SpdState.member (p : SpdState) (x : QueryCmd) (i c : Nat) : List Byte :=
  let a := x.cbase + 16 * c
  let d (k : Nat) : Int := sat24 (p.coord a k - p.coord (x.qbase + 16 * i) k)
  leBytes 4 c ++ leBytes 3 (wrapN 24 (d 0)) ++ leBytes 3 (wrapN 24 (d 1)) ++ leBytes 3 (wrapN 24 (d 2)) ++
    [p.mem.byte (a + 9)] ++ [0, 0]

/-- The row of BALL for query `i` (R165). -/
def SpdState.ballRow (p : SpdState) (x : QueryCmd) (i : Nat) : List Byte :=
  match p.ranges x i with
  | none => rowHeader 0 0 2 ++ (List.replicate x.k (if x.ofmt then leBytes 4 nullRef ++ List.replicate 12 0 else leBytes 4 nullRef)).flatten
  | some rs =>
    let qs := p.qualify x i rs
    let es := qs.take x.k
    rowHeader es.length qs.length 0 ++
      (es.flatMap fun e => if x.ofmt then p.member x i e.1 else leBytes 4 e.1) ++
      (List.replicate (x.k - es.length) (if x.ofmt then leBytes 4 nullRef ++ List.replicate 12 0 else leBytes 4 nullRef)).flatten

/-- The row of KNNC for query `i`, without the entry places that hold undefined data, and whether it overflowed
(R167). -/
def SpdState.knnRow (p : SpdState) (x : QueryCmd) (i : Nat) : List Byte × Bool :=
  match p.ranges x i with
  | none => (rowHeader 0 0 2, false)
  | some rs =>
    let qs := p.qualify x i rs
    if x.k < qs.length then (rowHeader 0 qs.length 1, true)
    else (rowHeader qs.length qs.length 0 ++ qs.flatMap fun e => leBytes 8 e.2 ++ leBytes 4 e.1 ++ leBytes 4 i, false)

/-- A BALL or KNNC reads its range table, then the lists, then the queries and candidates. -/
def State.overQuery (s : State) (c : CoreId) (x : QueryCmd) (work : State → EngineRun) : EngineRun :=
  s.overSpd c 4 x.entryReads fun s => s.overSpd c 4 (s.cores[c].spd.listReads x) fun s =>
    s.overSpd c 4 (s.cores[c].spd.candReads x) work

/-- A field of QCNT raised by `n`, saturating. -/
def qcntAdd (w : Word) (lo n : Nat) : Word := setFld w lo 16 (satAdd 0xFFFF (fld w lo 16) n)

/-- The undefined entry places of a KNNC row hold free bytes. -/
def State.knnStore (s : State) (c : CoreId) (x : QueryCmd) (i : Nat) (row : List Byte) : State :=
  let a := x.out + i * x.stride true
  let d := s.drawBytes (x.stride true - row.length)
  d.2.wideWrite c 4 a (row ++ d.1)

/-- What a query command counts and posts at its end: BADRNG and OVF queries (R164, R167). -/
def State.queryEnd (s : State) (c : CoreId) (bad ovf : Nat) : State :=
  let s := s.modGeo c fun g => { g with qcnt := qcntAdd (qcntAdd g.qcnt 32 bad) 48 ovf }
  let s := if 0 < bad then s.postCore c 0x4203 else s
  if 0 < ovf then s.postCore c 0x4202 else s

/-- The queries of a command whose range entry is BADRNG. -/
def SpdState.badCount (p : SpdState) (x : QueryCmd) : Nat :=
  ((List.range x.nq).filter fun i => (p.ranges x i).isNone).length

/-- Opcode 0x20. Every query reads the operands as the command found them. -/
def State.ball (s : State) (c : CoreId) (q : EngCmd) : EngineRun :=
  let x := queryCmd q
  if !queryOk q false then .refuse
  else s.overQuery c x fun s =>
    let p := s.cores[c].spd
    .done (((List.range x.nq).foldl (fun t i => t.wideWrite c 4 (x.out + i * x.stride false) (p.ballRow x i)) s).queryEnd c
      (p.badCount x) 0)

/-- Opcode 0x21. -/
def State.knnc (s : State) (c : CoreId) (q : EngCmd) : EngineRun :=
  let x := queryCmd q
  if !queryOk q true then .refuse
  else s.overQuery c x fun s =>
    let p := s.cores[c].spd
    .done (((List.range x.nq).foldl (fun t i => t.knnStore c x i (p.knnRow x i).1) s).queryEnd c
      (p.badCount x) ((List.range x.nq).filter fun i => (p.knnRow x i).2).length)

/-! ### Farthest-point sampling (R169) -/

/-- The position of the largest value, the lowest on equal values. -/
def argMax (w : List Nat) : Nat := (w.zipIdx.foldl (fun b e => if b.1 < e.1 then e else b) (w.headD 0, 0)).2

/-- Samples after the first: `w` holds the distances to the samples so far. -/
def fpsLoop (d : Nat → Nat → Nat) (n : Nat) : Nat → List Nat → List Nat
  | 0, _ => []
  | m + 1, w =>
    let j := argMax w
    j :: fpsLoop d n m ((w.zip ((List.range n).map fun i => d i j)).map fun e => min e.1 e.2)

/-- WORK is written, then, for a second sample, read and written again: each pass waits for the tags it needs; `t` is the state
with all samples worked out. -/
def State.fpsPasses (s : State) (c : CoreId) (wk n m : Nat) (t : State) : EngineRun :=
  let p := s.cores[c].spd
  let ls := (rangeLines [(wk, 8 * n)]).filter p.lineOn
  let canRead := decide (m = 1) || ls.all p.mayRead
  if s.cores[c].engines[(4 : Fin 7)].phase = 0 then
    if !ls.all p.mayWrite then .hold s else if canRead then .done t else .wait 1 s
  else if canRead then .done t else .hold s

/-- Opcode 0x22. WORK is undefined afterwards. Where WORK, OUT and the candidates share bytes, which no rule refuses and none gives
a result for, the samples are open too. -/
def State.fps (s : State) (c : CoreId) (q : EngCmd) : EngineRun :=
  let clo := fld q.w1 44 20
  let cbase := fld q.w2 0 23
  let n := fld q.w2 24 20
  let m := fld q.w2 44 13
  let out := fld q.w3 0 23
  let wk := fld q.w3 32 23
  if fld q.w0 56 8 ≠ 0 ∨ fld q.w1 0 44 ≠ 0 ∨ fld q.w2 23 1 ≠ 0 ∨ fld q.w2 57 7 ≠ 0 ∨ fld q.w3 23 9 ≠ 0 ∨ fld q.w3 55 9 ≠ 0 ∨
      cbase % 16 ≠ 0 ∨ n = 0 ∨ 524288 < n ∨ m = 0 ∨ 4096 < m ∨ n < m ∨ out % 16 ≠ 0 ∨ wk % 256 ≠ 0 ∨
      spdBytes < cbase + 16 * (clo + n) ∨ spdBytes < out + 4 * m ∨ spdBytes < wk + 8 * n then .refuse
  else s.overSpd c 4 [(cbase + 16 * clo, 16 * n)] fun s =>
    let p := s.cores[c].spd
    let d (i j : Nat) : Nat := p.dist2 (cbase + 16 * (clo + i)) (cbase + 16 * (clo + j))
    let samples := 0 :: fpsLoop d n (m - 1) ((List.range n).map fun i => d i 0)
    let outs := samples.flatMap fun i => leBytes 4 (clo + i)
    let lies := overlap wk (8 * n) (cbase + 16 * clo) (16 * n) || overlap wk (8 * n) out (4 * m) ||
      overlap out (4 * m) (cbase + 16 * clo) (16 * n)
    let o := if lies then s.drawBytes outs.length else (outs, s)
    let w := o.2.drawBytes (8 * n)
    s.fpsPasses c wk n m ((w.2.wideWrite c 4 wk w.1).wideWrite c 4 out o.1)

/-! ### Voxel downsampling (R170, R171) -/

/-- The record coordinate of a voxel along an axis (R170). -/
def voxelMean (o e v : Int) (sum n : Nat) : Int :=
  sat24 (o + e * v + (e * (2 * sum + n) + 4 * n).fdiv (8 * n))

/-- The voxel record of voxel `l` of a brick with accumulator `a`. -/
def voxelRecord (d : Rec64) (c : CoreId) (b : Brick) (l : Nat) (a : Word) : List Byte :=
  let pos (i : Nat) : Int := 4 * keyCoord b.key i + ((l / 4 ^ i % 4 : Nat) : Int)
  let m (i : Nat) : Int := voxelMean (gdO d i) (gdEdge d) (pos i) (fld a (10 * i) 10) (fld a 56 8)
  leBytes 3 (wrapN 24 (m 0)) ++ leBytes 3 (wrapN 24 (m 1)) ++ leBytes 3 (wrapN 24 (m 2)) ++ leBytes 1 (fld a 48 8) ++
    leBytes 1 (fld a 56 8) ++ leBytes 1 (fld a 40 8) ++ leBytes 4 (l * 2 ^ 25 + brickRef c b.bidx)

/-- What VDOWN has done so far. -/
structure VdRun where
  s       : State
  written : Nat
  occ     : Nat
  stale   : Bool

/-- One brick of VDOWN, given its accumulator block's bytes. -/
def vdBrick (c : CoreId) (d : Rec64) (out cap : Nat) (runs : Option Nat) (r : Nat) (b : Brick) (block : List Byte) (x : VdRun) : VdRun :=
  let vox := (List.range 64).filter fun l => bit b.occ l
  let room := min vox.length (cap - x.written)
  let recs := (vox.take room).flatMap fun l => voxelRecord d c b l (BitVec.ofNat 64 (leNat ((block.drop (8 * l)).take 8)))
  let s := x.s.wideWrite c 4 (out + 16 + 16 * x.written) recs
  let s := match runs with
    | some a => s.wideWrite c 4 (a + 8 * r) (leBytes 4 x.written ++ leBytes 4 room)
    | none => s
  { s := s, written := x.written + room, occ := x.occ + vox.length, stale := x.stale }

/-- A spilled brick of VDOWN: skipped where its GID no longer matches, else its accumulators are read from DDR (R171, R173). -/
def vdSpilled (c : CoreId) (g : GeoCore) (out cap : Nat) (runs : Option Nat) (n i : Nat) (x : VdRun) : VdRun :=
  let r := x.s.spillRead c i
  match r.2 with
  | none => { x with s := r.1, stale := true }
  | some b =>
    let a := r.1.ddrReadFree (geoWho c g) (r.1.spillAccAt g.part i) 512
    vdBrick c g.desc out cap runs n b a.2 { x with s := a.1 }

/-- All bricks of VDOWN, the local ones first, then the status and the events. -/
def State.vdWork (s : State) (c : CoreId) (out cap : Nat) (runs : Option Nat) : State :=
  let g := s.cores[c].geo
  let p := s.cores[c].spd
  let x := g.bricks.foldl (fun x e => vdBrick c g.desc out cap runs e.1 e.2 (p.wideRead (gdAccBase g.desc + 512 * e.1) 512) x)
    (VdRun.mk s 0 0 false)
  let x := g.spl.zipIdx.foldl (fun x e => vdSpilled c g out cap runs (g.lcount + e.2) e.1 x) x
  let ovf := decide (cap < x.occ)
  let s := x.s.wideWrite c 4 out (leBytes 4 x.written ++ leBytes 4 x.occ ++
    leBytes 1 (ofBool ovf + 2 * ofBool x.stale) ++ List.replicate 7 0)
  let s := if ovf then (s.modGeo c fun g => { g with qcnt := qcntAdd g.qcnt 16 1 }).postCore c 0x4204 else s
  if x.stale then s.postCore c 0x4205 else s

/-- Limits of a VDOWN (R162, R163). -/
def vdownOk (q : EngCmd) (g : GeoCore) : Bool :=
  let out := fld q.w1 0 23
  let cap := fld q.w1 24 20
  let runEn := bit q.w0 59
  let ra := fld q.w2 0 23
  decide (fld q.w0 56 3 = 0) && decide (fld q.w0 60 4 = 0) && decide (fld q.w1 23 1 = 0) && decide (fld q.w1 44 20 = 0) &&
    decide (q.w3 = 0) && decide (fld q.w2 23 41 = 0) && (runEn || decide (ra = 0)) && decide (ra % 8 = 0) && decide (out % 16 = 0) &&
    between 1 cap 524287 && decide (out + 16 * (cap + 1) ≤ spdBytes) &&
    (!runEn || decide (ra + 8 * (g.lcount + g.spl.length) ≤ spdBytes)) && decide (g.st = 2) && gdVacc g.desc

/-- Opcode 0x23. -/
def State.vdown (s : State) (c : CoreId) (q : EngCmd) : EngineRun :=
  let g := s.cores[c].geo
  if !vdownOk q g then .refuse
  else s.overSpd c 4 [(gdAccBase g.desc, 512 * g.lcount)] fun s =>
    .done (s.vdWork c (fld q.w1 0 23) (fld q.w1 24 20) (if bit q.w0 59 then some (fld q.w2 0 23) else none))

def execBall (c : CoreId) (s : State) : Answer := .next (s.geoStep c 0x20 fun q t => t.ball c q)
def execKnnc (c : CoreId) (s : State) : Answer := .next (s.geoStep c 0x21 fun q t => t.knnc c q)
def execFps (c : CoreId) (s : State) : Answer := .next (s.geoStep c 0x22 fun q t => t.fps c q)
def execVdown (c : CoreId) (s : State) : Answer := .next (s.geoStep c 0x23 fun q t => t.vdown c q)

end Sys2Proof.Machine
end

