-- ==== Sys2Proof/Machine/Ray.lean ====
section
/-! DEFINITION. The ray engine (chapter 07): the exact walk of a ray through the occupancy pyramid, the synthetic
return, and the command CAST. -/

namespace Sys2Proof.Machine

/-! ### Operands (R176, R179) -/

/-- Everything RAY reads at the start of a command: the 64-byte items by value, and where they came from. -/
structure RayCmd where
  scn   : Rec64
  smod  : Rec64
  pose  : Rec64
  ext   : Rec64
  blo   : Nat
  bn    : Nat
  azlo  : Nat
  azn   : Nat
  stat  : Nat
  slot  : Nat
  maxStep : Nat
  omode : Bool

def rSO (d : Rec64) (i : Nat) : Int := toSigned 32 (recField d (4 * i) 4)
def rEdge (d : Rec64) : Nat := recField d 0x0C 2
/-- Groups along axis `i`. -/
def rG (d : Rec64) (i : Nat) : Nat := recField d (0x0E + i) 1
def rGtab (d : Rec64) : Nat := fld d (8 * 0x14) 23
def rBdat (d : Rec64) : Nat := fld d (8 * 0x18) 23
def rNbrk (d : Rec64) : Nat := recField d 0x1C 4
def mRq (m : Rec64) : Nat := recField m 1 1
def mNbeam (m : Rec64) : Nat := recField m 2 2
def mNaz (m : Rec64) : Nat := recField m 4 2
def mRmax (m : Rec64) : Nat := recField m 0x10 4
def mTstep (m : Rec64) : Nat := recField m 0x14 4
def mBeams (m : Rec64) : Nat := fld m (8 * 0x1C) 23
def mAtt (m : Rec64) : Nat := fld m (8 * 0x20) 23
def mExt (m : Rec64) : Nat := fld m (8 * 0x24) 23
/-- Rays of the command. -/
def RayCmd.rays (x : RayCmd) : Nat := x.bn * x.azn

/-- A 64-byte item of the scratchpad. -/
def SpdState.rec64 (p : SpdState) (a : Nat) : Rec64 := BitVec.ofNat 512 (p.num a 64)

/-- The command with its items. -/
def rayCmd (p : SpdState) (q : EngCmd) : RayCmd :=
  let m := p.rec64 (fld q.w1 23 23)
  { scn := p.rec64 (fld q.w1 0 23), smod := m, pose := p.rec64 (fld q.w2 0 23), ext := p.rec64 (mExt m)
    blo := fld q.w2 23 8, bn := fld q.w2 31 8 + 1, azlo := fld q.w2 39 12, azn := fld q.w2 51 12 + 1
    stat := fld q.w3 0 23, slot := fld q.w3 24 3, maxStep := fld q.w3 32 16, omode := bit q.w0 56 }

/-- Limits of the command words by themselves (R179, R180). -/
def rayWordsOk (q : EngCmd) : Bool :=
  decide (fld q.w0 57 7 = 0) && decide (fld q.w1 0 23 % 64 = 0) && decide (fld q.w1 23 23 % 64 = 0) &&
    decide (fld q.w1 46 18 = 0) && decide (fld q.w2 0 23 % 64 = 0) && decide (fld q.w2 63 1 = 0) &&
    decide (fld q.w3 0 23 % 64 = 0) && decide (fld q.w3 23 1 = 0) && decide (fld q.w3 27 5 = 0) &&
    decide (fld q.w3 48 16 = 0) && decide (fld q.w3 32 16 ≠ 0) && (!bit q.w0 56 || decide (fld q.w3 24 3 = 0)) &&
    decide (fld q.w1 0 23 + 64 ≤ spdBytes) && decide (fld q.w1 23 23 + 64 ≤ spdBytes) &&
    decide (fld q.w2 0 23 + 64 ≤ spdBytes)

/-- Limits of the scene descriptor. -/
def sceneOk (d : Rec64) : Bool :=
  (List.range 3).all (fun i => decide ((rSO d i).natAbs < 2 ^ 24) && between 1 (rG d i) 64) && between 2 (rEdge d) 2047 &&
    decide (recField d 0x11 3 = 0) && decide (fld d (8 * 0x14 + 23) 9 = 0) && decide (rGtab d % 256 = 0) &&
    decide (fld d (8 * 0x18 + 23) 9 = 0) && decide (rBdat d % 256 = 0) && decide (rNbrk d ≤ 131072) &&
    decide (recField d 0x20 32 = 0) && decide (rG d 0 * rG d 1 * rG d 2 ≤ 32768) &&
    decide (rGtab d + 16 * (rG d 0 * rG d 1 * rG d 2) ≤ spdBytes) && decide (rBdat d + 64 * rNbrk d ≤ spdBytes)

/-- Limits of the sensor model. -/
def modelOk (m : Rec64) : Bool :=
  decide (recField m 0 1 < 16) && between 1 (mRq m) 16 && between 1 (mNbeam m) 256 && between 1 (mNaz m) 4096 &&
    decide (0 < recField m 0x0E 2) && between 1 (mRmax m) 8388607 && decide ((mNaz m - 1) * mTstep m ≤ 262140000) &&
    decide (fld m (8 * 0x1C + 23) 9 = 0) && decide (fld m (8 * 0x20 + 23) 9 = 0) && decide (fld m (8 * 0x24 + 23) 9 = 0) &&
    decide (mBeams m % 64 = 0) && decide (mAtt m % 64 = 0) && decide (mExt m % 64 = 0) && decide (recField m 0x28 24 = 0) &&
    decide (mBeams m + 4 * mNbeam m ≤ spdBytes) && decide (mAtt m + 128 ≤ spdBytes) && decide (mExt m + 64 ≤ spdBytes)

/-- The extrinsic entry's reserved bytes are 0 (R12, R117). -/
def RayCmd.extOk (x : RayCmd) : Bool := decide (recField x.ext 2 2 = 0) && decide (recField x.ext 0x34 12 = 0)

/-- R180 for a command whose items have been read, but for the state of the grid. -/
def RayCmd.ok (x : RayCmd) : Bool :=
  sceneOk x.scn && modelOk x.smod && decide (recField x.pose 0x33 1 = 0) && decide (recField x.pose 0x3C 4 = 0) &&
    decide (x.blo + x.bn ≤ mNbeam x.smod) && decide (x.azlo + x.azn ≤ mNaz x.smod) &&
    decide (x.stat + 64 + (if x.omode then 16 * x.rays else 0) ≤ spdBytes)

/-! ### The ray (R181) -/

/-- A ray in the scene frame: origin in 1/256 mm and direction in Q30. -/
structure Ray where
  o : Nat → Int
  d : Nat → Int
  az : Nat
  el : Nat

/-- Row `i` of a Q2.30 matrix whose first byte is at `off`, applied to a vector, before rounding. -/
def matRow (m : Rec64) (off i : Nat) (v : Nat → Int) : Int :=
  let e (j : Nat) : Int := toSigned 32 (recField m (off + 4 * (3 * i + j)) 4)
  e 0 * v 0 + e 1 * v 1 + e 2 * v 2

/-- Ray of azimuth step `s` on beam `b`, whose beam entry is `entry`. -/
def RayCmd.ray (x : RayCmd) (entry : BitVec 32) (s : Nat) : Ray :=
  let a := wrapN 16 ((recField x.smod 8 2 : Int) + s * recField x.smod 6 2 + toSigned 16 (fld entry 16 16))
  let e := fld entry 0 16
  let ds (i : Nat) : Int := match i with | 0 => rnd (COS e * COS a) 30 | 1 => rnd (COS e * SIN a) 30 | _ => SIN e
  let dm (i : Nat) : Int := rnd (matRow x.ext 4 i ds) 30
  let ts (i : Nat) : Int := toSigned 32 (recField x.ext (0x28 + 4 * i) 4)
  { d := fun i => rnd (matRow x.pose 0 i dm) 30
    o := fun i => rnd (matRow x.pose 0 i ts) 30 + toSigned 32 (recField x.pose (0x24 + 4 * i) 4)
    az := a, el := e }

/-! ### The walk (R177, R182) -/

/-- The parameter n / d of a crossing, d > 0, and the axis crossed. -/
structure Cross where
  n : Int
  d : Int
  axis : Nat

/-- Order of crossings: by parameter, then x before y before z. -/
def Cross.le (a b : Cross) : Bool :=
  decide (a.n * b.d < b.n * a.d) || (decide (a.n * b.d = b.n * a.d) && decide (a.axis ≤ b.axis))

/-- The crossing of the plane of voxel boundary `k` on axis `i`; none where the ray never moves along the axis. -/
def planeCross (sc : Rec64) (r : Ray) (i : Nat) (k : Int) : Option Cross :=
  let p := 256 * (rSO sc i + k * rEdge sc) - r.o i
  if r.d i = 0 then none
  else if 0 < r.d i then some ⟨p * 2 ^ 30, r.d i, i⟩ else some ⟨-p * 2 ^ 30, -r.d i, i⟩

/-- Voxel coordinate of the origin on axis `i`, floored. -/
def originVoxel (sc : Rec64) (r : Ray) (i : Nat) : Int := (r.o i - 256 * rSO sc i).fdiv (256 * rEdge sc)

/-- The voxel coordinate on axis `j` once every crossing up to `c` has been made, from `cur` on. -/
def coordAt (sc : Rec64) (r : Ray) (c : Cross) (cur : Int) (j : Nat) : Int :=
  let num := (r.o j - 256 * rSO sc j) * c.d * 2 ^ 30 + c.n * r.d j
  let den := 256 * (rEdge sc : Int) * c.d * 2 ^ 30
  if r.d j = 0 then cur
  else if 0 < r.d j then max cur (if j ≤ c.axis then num.fdiv den else (num - 1).fdiv den)
  else min cur (if j ≤ c.axis then (num - 1).fdiv den else num.fdiv den)

/-- Voxels of the box along axis `i`. -/
def boxN (sc : Rec64) (i : Nat) : Int := 16 * (rG sc i : Int)

/-- Whether a voxel coordinate lies in the box. -/
def inBox (sc : Rec64) (v : Nat → Int) : Bool := (List.range 3).all fun i => decide (0 ≤ v i) && decide (v i < boxN sc i)

/-- Where a ray is: the voxel it has entered and the crossing by which it did, none at an origin in the box. -/
structure WalkAt where
  v : Nat → Int
  by' : Option Cross

/-- Where the walk starts; none for a ray that never enters the box (R182). -/
def walkStart (sc : Rec64) (r : Ray) : Option WalkAt :=
  let o := originVoxel sc r
  if inBox sc o then some ⟨o, none⟩
  else
    let out : List (Option Cross) := (List.range 3).filterMap fun i =>
      if o i < 0 then some (if 0 < r.d i then planeCross sc r i 0 else none)
      else if boxN sc i ≤ o i then some (if r.d i < 0 then planeCross sc r i (boxN sc i) else none)
      else none
    let last := out.foldl (fun a c => match a, c with
      | some none, some c => some (some c)
      | some (some a), some c => some (some (if a.le c then c else a))
      | _, _ => none) (some none)
    match last with
    | some (some e) =>
      let v (j : Nat) : Int :=
        if j = e.axis then (if 0 < r.d j then 0 else boxN sc j - 1) else coordAt sc r e (o j) j
      if inBox sc v then some ⟨v, some e⟩ else none
    | _ => none

/-- How a ray ends. -/
inductive RayEnd where
  | miss
  | slim
  | block
  | bad
  | hit (by' : Cross) (code : Nat)

/-- What a voxel's cell is: its side in voxels, and its code where it is a voxel of an occupied brick; none for a brick
index out of range, and for a group entry with a reserved byte that is not 0, which RAY refuses to use (R12). -/
def cellAt (p : SpdState) (sc : Rec64) (v : Nat → Int) : Nat × Option Nat :=
  let n (i : Nat) : Nat := (v i).toNat
  let g := n 0 / 16 + rG sc 0 * (n 1 / 16 + rG sc 1 * (n 2 / 16))
  let at' := rGtab sc + 16 * g
  let mask := p.num at' 8
  if p.num (at' + 12) 4 ≠ 0 then (1, none)
  else if mask = 0 then (16, some 0)
  else
    let b := n 0 / 4 % 4 + 4 * (n 1 / 4 % 4) + 16 * (n 2 / 4 % 4)
    if !mask.testBit b then (4, some 0)
    else
      let below := ((List.range b).filter fun i => mask.testBit i).length
      let idx := p.num (at' + 8) 4 + below
      if rNbrk sc ≤ idx then (1, none)
      else (1, some (p.mem.byte (rBdat sc + 64 * idx + n 0 % 4 + 4 * (n 1 % 4) + 16 * (n 2 % 4))).toNat)

/-- The next crossing out of a cell of side `w` at voxel `v`. -/
def nextCross (sc : Rec64) (r : Ray) (w : Nat) (v : Nat → Int) : Option Cross :=
  ((List.range 3).filterMap fun i =>
    let lo := (v i).fdiv w * w
    planeCross sc r i (if 0 < r.d i then lo + w else lo)).foldl (fun a c => match a with
      | none => some c
      | some a => some (if a.le c then a else c)) none

/-- What is read of the scene to see a cell: the group entry, and the voxel's code where its brick is occupied and in range. -/
def cellReads (p : SpdState) (sc : Rec64) (v : Nat → Int) : List (Nat × Nat) :=
  let n (i : Nat) : Nat := (v i).toNat
  let at' := rGtab sc + 16 * (n 0 / 16 + rG sc 0 * (n 1 / 16 + rG sc 1 * (n 2 / 16)))
  let mask := p.num at' 8
  let b := n 0 / 4 % 4 + 4 * (n 1 / 4 % 4) + 16 * (n 2 / 4 % 4)
  let idx := p.num (at' + 8) 4 + ((List.range b).filter fun i => mask.testBit i).length
  (at', 16) :: if decide (p.num (at' + 12) 4 = 0) && mask.testBit b && decide (idx < rNbrk sc) then
    [(rBdat sc + 64 * idx + n 0 % 4 + 4 * (n 1 % 4) + 16 * (n 2 % 4), 1)] else []

/-- The walk from a cell just entered, with at most `fuel` steps; the end, the steps taken, and what was
read of the scene (R178, R182). -/
def walk (p : SpdState) (sc : Rec64) (rmax : Nat) (r : Ray) : Nat → WalkAt → Nat → List (Nat × Nat) → RayEnd × Nat × List (Nat × Nat)
  | 0, _, steps, seen => (.slim, steps, seen)
  | fuel + 1, w, steps, seen =>
    let seen := seen ++ cellReads p sc w.v
    match cellAt p sc w.v with
    | (_, none) => (.bad, steps + 1, seen)
    | (side, some code) =>
      if code ≠ 0 then (match w.by' with | some c => .hit c code | none => .block, steps + 1, seen)
      else match nextCross sc r side w.v with
        | none => (.miss, steps + 1, seen)
        | some c =>
          if 256 * (rmax : Int) * c.d < c.n then (.miss, steps + 1, seen)
          else
            let v (j : Nat) : Int :=
              if j = c.axis then
                (let lo := (w.v j).fdiv side * side
                 if 0 < r.d j then lo + side else lo - 1)
              else coordAt sc r c (w.v j) j
            if !inBox sc v then (.miss, steps + 1, seen) else walk p sc rmax r fuel ⟨v, some c⟩ (steps + 1) seen

/-- A ray's end, its steps and what it read of the scene (R182). -/
def RayCmd.cast (x : RayCmd) (p : SpdState) (r : Ray) : RayEnd × Nat × List (Nat × Nat) :=
  let rmax := mRmax x.smod
  match walkStart x.scn r with
  | none => (.miss, 1, [])
  | some w =>
    let far := match w.by' with | some c => decide (256 * (rmax : Int) * c.d < c.n) | none => false
    if far then (.miss, 1, []) else walk p x.scn rmax r x.maxStep w 0 []

/-! ### The return (R184, R185) -/

/-- The mixing function of R184. -/
def mix64 (x : Word) : Word :=
  let x := (x ^^^ (x >>> 30)) * 0xBF58476D1CE4E5B9#64
  let x := (x ^^^ (x >>> 27)) * 0x94D049BB133111EB#64
  x ^^^ (x >>> 31)

/-- The random draw of a ray. -/
def RayCmd.draw (x : RayCmd) (ray : Nat) : Word :=
  let seed : Word := BitVec.ofNat 64 (recField x.smod 0x18 4 + recField x.pose 0x30 2 * 2 ^ 32)
  mix64 (mix64 seed ^^^ BitVec.ofNat 64 (recField x.pose 0x34 4 * 2 ^ 20) ^^^ BitVec.ofNat 64 ray)

/-- What a hit gives. -/
inductive Return where
  | drop | oor | lowi
  | rec' (bytes : List Byte)

/-- The return of a hit (R184, R185); `att` reads the attenuation table. -/
def RayCmd.ret (x : RayCmd) (r : Ray) (b s : Nat) (c : Cross) (code : Nat) (att : Nat → Nat) : Return :=
  let u := x.draw (b * 4096 + s)
  if fld u 0 16 < recField x.smod 0x0A 2 then .drop
  else
    let jit := rnd (((fld u 16 16 + fld u 32 16 : Nat) - 65535 : Int) * (recField x.smod 0x0D 1 : Int)) 8
    let rr := (max 0 (c.n.fdiv c.d + jit)).toNat
    let q := mRq x.smod
    let rq := q * ((rr + 128 * q) / (256 * q))
    if mRmax x.smod < rq then .oor
    else
      let cosi := min 32768 ((r.d c.axis).natAbs / 2 ^ 15)
      let i := min 63 (rq / recField x.smod 0x0E 2)
      let inty := min 255 (rnd ((code * cosi * att i : Nat) : Int) 31).toNat
      if inty < recField x.smod 0x0C 1 then .lowi
      else
        let h := rnd (256 * (rq : Int) * COS r.el) 30
        let xs := rnd (h * COS r.az) 30
        let ys := rnd (h * SIN r.az) 30
        let zs := rnd (256 * (rq : Int) * SIN r.el) 30
        let cc := extApply x.ext xs ys zs
        if (List.range 3).any fun i => decide (8388607 < (cc i).natAbs) then .oor
        else .rec' (recordBytes ⟨cc 0, cc 1, cc 2, inty, none⟩ b (0x20 + recField x.smod 0 1)
          ((s * mTstep x.smod + 2000) / 4000) 0 (recField x.pose 0x32 1))

/-! ### The command (R179, R183, R186, R187) -/

/-- The counts of a status block. -/
structure RayCounts where
  ret : Nat
  miss : Nat
  drop : Nat
  lowi : Nat
  oor : Nat
  slim : Nat
  block : Nat
  bad : Nat
  steps : Nat

/-- Ray s of beam b, the beam table in the scratchpad. -/
def RayCmd.rayOf (x : RayCmd) (p : SpdState) (s b : Nat) : Ray :=
  x.ray (BitVec.ofNat 32 (p.num (mBeams x.smod + 4 * b) 4)) s

/-- The rays of the command in ascending s and then b. -/
def RayCmd.order (x : RayCmd) : List (Nat × Nat) :=
  (List.range x.azn).flatMap fun s => (List.range x.bn).map fun b => (x.azlo + s, x.blo + b)

/-- What the rays read of the scene, in order. -/
def RayCmd.sceneReads (x : RayCmd) (p : SpdState) : List (Nat × Nat) :=
  x.order.flatMap fun e => (x.cast p (x.rayOf p e.1 e.2)).2.2

/-- One ray: the counts and the record, if it returns one. -/
def RayCmd.one (x : RayCmd) (p : SpdState) (s b : Nat) (k : RayCounts) : RayCounts × Option (List Byte) :=
  let r := x.rayOf p s b
  let e := x.cast p r
  let k := { k with steps := k.steps + e.2.1 }
  match e.1 with
  | .miss => ({ k with miss := k.miss + 1 }, none)
  | .slim => ({ k with slim := k.slim + 1 }, none)
  | .block => ({ k with block := k.block + 1 }, none)
  | .bad => ({ k with bad := k.bad + 1 }, none)
  | .hit c code =>
    match x.ret r b s c code fun i => p.num (mAtt x.smod + 2 * i) 2 with
    | .drop => ({ k with drop := k.drop + 1 }, none)
    | .oor => ({ k with oor := k.oor + 1 }, none)
    | .lowi => ({ k with lowi := k.lowi + 1 }, none)
    | .rec' bs => (k, some bs)

/-- All rays in ascending s and then b: the counts and the records in order. -/
def RayCmd.all (x : RayCmd) (p : SpdState) : RayCounts × List (List Byte) :=
  x.order.foldl
    (fun a e => let o := x.one p e.1 e.2 a.1
                (o.1, match o.2 with | some bs => a.2 ++ [bs] | none => a.2))
    (⟨0, 0, 0, 0, 0, 0, 0, 0, 0⟩, [])

/-- The status block. -/
def RayCmd.status (x : RayCmd) (k : RayCounts) : List Byte :=
  leBytes 4 x.rays ++ leBytes 4 k.ret ++ leBytes 4 k.miss ++ leBytes 4 k.drop ++ leBytes 4 k.lowi ++ leBytes 4 k.oor ++
    leBytes 4 k.slim ++ leBytes 4 k.block ++ leBytes 4 k.bad ++ leBytes 4 0 ++ leBytes 8 k.steps ++
    leBytes 4 (recField x.pose 0x38 4) ++
    leBytes 1 (ofBool (decide (0 < k.slim)) + 2 * ofBool (decide (0 < k.bad))) ++ List.replicate 11 0

/-- Routed records of a CAST: kept ones go to their owners, clipped ones are counted; the number kept. -/
def State.rayRoute (s : State) (c : CoreId) (slot job : Nat) (rs : List (List Byte)) : State × Nat :=
  rs.foldl (fun a r =>
    let s := a.1.modCounts c fun k => { k with pin := k.pin + 1 }
    match routeRecord (s.cores[c].geo) r slot with
    | none => (s.modCounts c fun k => { k with pclip := k.pclip + 1 }, a.2)
    | some (o, p) => (s.modGeo c fun g => { g with rayq := g.rayq ++ [(o, .point { p with job := job })] }, a.2 + 1)) (s, 0)

/-- What a CAST counts and posts for its core. -/
def State.rayNote (s : State) (c : CoreId) (k : RayCounts) : State :=
  let up (w : Word) (lo n : Nat) : Word := if 0 < n then qcntAdd w lo 1 else w
  let s := s.modGeo c fun g => { g with rcnt := up (up g.rcnt 48 k.slim) 32 k.bad }
  let s := if 0 < k.slim then s.postCore c 0x4302 else s
  if 0 < k.bad then s.postCore c 0x4303 else s

/-- Whether an item is a point of CAST `job`. -/
def GeoItem.ofJob (job : Nat) : GeoItem → Bool
  | .point p => decide (p.job = job)
  | .mark _ => false

/-- Whether a point that CAST `job` of core `c` routed has not been applied yet. -/
def State.onTheWay (s : State) (c : CoreId) (job : Nat) : Bool :=
  (s.cores[c].geo.rayq.any fun e => e.2.ofJob job) ||
    (List.finRange 32).any fun d => s.cores[d].geo.inq.any fun e => decide (e.1 = c) && e.2.ofJob job

/-- Work over what is read of the scene, which depends on what is read: it is read in order until nothing new is due, at most
`fuel` times over. -/
def State.overScene (c : CoreId) (x : RayCmd) (work : State → EngineRun) : Nat → State → EngineRun
  | 0, s => work s
  | fuel + 1, s => s.overSpd c 5 (x.sceneReads s.cores[c].spd) fun s =>
    let p := s.cores[c].spd
    let kept := s.cores[c].engines[(5 : Fin 7)].work.latch
    if (rangeLines (x.sceneReads p)).all fun l => (kept.any fun e => e.1 = l) || (p.lineOn l && p.mayRead l) then work s
    else State.overScene c x work fuel s

/-- The rays of a CAST: to the buffer, or to the builders, where its status block waits until its points are applied. -/
def State.castRays (s : State) (c : CoreId) (x : RayCmd) : State :=
  let r := x.all s.cores[c].spd
  let s := s.rayNote c r.1
  if x.omode then
    (s.wideWrite c 5 (x.stat + 64) r.2.flatten).wideWrite c 5 x.stat (x.status { r.1 with ret := r.2.length })
  else
    let job := 1 + (s.cores[c].geo.rayDue.map (·.job)).foldl max 0
    let t := s.rayRoute c x.slot job r.2
    t.1.modGeo c fun g => { g with rayDue := g.rayDue ++ [⟨job, x.stat, x.status { r.1 with ret := t.2 }⟩] }

/-- Opcode 0x01. The descriptors and tables are read when it starts; its rays end before the next command's start. -/
def State.cast (s : State) (c : CoreId) (q : EngCmd) : EngineRun :=
  if !rayWordsOk q then .refuse
  else s.overSpd c 5 [(fld q.w1 0 23, 64), (fld q.w1 23 23, 64), (fld q.w2 0 23, 64)] fun s =>
    let x := rayCmd s.cores[c].spd q
    if !x.ok then .refuse
    else if s.cores[c].engines[(5 : Fin 7)].phase = 0 ∧ !x.omode ∧ s.cores[c].geo.st ≠ 1 then .refuse
    else (s.overSpd c 5 [(mBeams x.smod, 4 * mNbeam x.smod), (mAtt x.smod, 128), (mExt x.smod, 64)] fun s =>
      let x := rayCmd s.cores[c].spd q
      if !x.extOk then .refuse else State.overScene c x (fun s => .done (s.castRays c x)) 32768 s).onHold fun t => t.modEng c 5 fun g => { g with phase := 1 }

/-- A CAST in grid mode completes: every point it routed is applied, and its status block is written once its slot's tag
permits (R88, R187, R539). -/
def State.castComplete (s : State) (c : CoreId) : State :=
  match s.cores[c].geo.rayDue with
  | [] => s
  | d :: rest =>
    let p := s.cores[c].spd
    let on := p.lineOn (d.stat / 256)
    if s.onTheWay c d.job || (on && !p.mayWrite (d.stat / 256)) then s
    else
      let s := s.modGeo c fun g => { g with rayDue := rest }
      if on then (s.bankWrite c d.stat d.block).engineComplete c 5 else (s.failTask c 0x88).engineComplete c 5

/-- Whether the oldest started command of RAY is a performed CAST in grid mode. -/
def EngState.gridCast (g : EngState) : Bool :=
  match g.active with
  | [] => false
  | a :: _ => a.done && !bit a.cmd.w0 56

/-- The oldest started command of an engine completes, once it is performed. -/
def State.commandComplete (s : State) (c : CoreId) (e : Fin 7) : State :=
  if e = 5 ∧ s.cores[c].engines[e].gridCast then s.castComplete c else s.engineComplete c e

/-- ENGINE_COMMAND_COMPLETE. -/
def execEngineCommandComplete (c : CoreId) (e : Fin 7) (s : State) : Answer := .next (s.commandComplete c e)

def execCast (c : CoreId) (s : State) : Answer :=
  .next (s.engineStep c 5 (· == 1) (· == 1) 0x4301 (coreIni c) fun q t => t.cast c q)

end Sys2Proof.Machine
end

