-- ==== Sys2Proof/Machine/Restart.lean ====
section
/-! DEFINITION. Restarts of the module, DOZE exit and OFF (R340, R341, R378, R414, R426 to R433, R438, R466, R467, R474, R479,
R501 to R508, R514, R524 to R527). A restart is one step from its cause to the end of its work, unless it holds at its
first step, and its start-time tests end in START_TESTS_DONE. -/

namespace Sys2Proof.Machine

/-! ### What each block keeps -/

/-- Ingest at reset; what Cloche took from the ports and how its parameters assign them stay Cloche's (R128, R440). -/
def IngState.restart (g : IngState) : IngState :=
  { IngState.reset with tap := g.tap, port := Vector.ofFn fun p : Fin 4 => { EthPort.reset with clo := g.port[p].clo } }

/-- A transmit port whose queue is empty. -/
def TxPort.empty (x : TxPort) : TxPort := { x with queue := [], stage := 0, fwd := [], lat := 0, busy := none }

/-- A pulse output that is disabled. -/
def Pulse.disable (p : Pulse) : Pulse := { p with en := false, on := false }

/-- Hatband after a module reset: transmit queues empty, pulse outputs disabled, Crown's servos started anew. -/
def TbState.restart (b : TbState) : TbState :=
  { b with tx := b.tx.map TxPort.empty, evo := b.evo.map Pulse.disable, servo := Vector.replicate 2 PtpServo.reset }

/-- A domain after a cold restart (R378). -/
def TbDom.cold (d : TbDom) : TbDom := { d with ofs := 0, anc := 0, rate := 0, state := .free }

/-- A channel at reset; a DIMM that drives EVENT_n keeps it at 2x refresh. -/
def ChanState.restart (c : ChanState) : ChanState :=
  { ChanState.reset with eventN := c.eventN, ref2x := c.eventN, eventOff := c.eventOff, limit := c.limit }

/-- The DDR block at reset, in self-refresh: the contents and what the SPDs gave stay. -/
def DdrState.restart (d : DdrState) : DdrState :=
  { DdrState.reset with
    mem := d.mem, bad := d.bad, cfg := setBit d.cfg 63 false, soft := d.soft, ch := d.ch.map ChanState.restart, selfRefresh := true }

/-- Gauntlet at a module start: TEST. A warm one keeps its configuration, the golden store, GNT_CNT and
SAFECAUSE, and empties the rings and queues (R414, R418, R428). -/
def GntState.restart (g : GntState) (armed : Bool) : GntState :=
  { g with
    mode := .test, testfail := 0, testinst := 0, armfail := 0, fence := 0, cut15 := 0, wasArmed := g.wasArmed || armed
    dozed := false, stuck := 0, readmit := 0, forced := 0, defrun := 0, defer := false, nqStage := Vector.replicate 2 0
    history := [], cmpq := [], runs := []
    since := Vector.replicate 4 0, lastOpp := Vector.replicate 4 none, faultA := false, faultB := false
    strm := g.strm.map fun t => { t with pairs := [], judged := [], ring := [], vwidx := 0, stale := false }
    mon := Vector.replicate 4 DieMon.reset }

/-- The event unit: a warm restart keeps EVT_ROUTE and EVT_STAT and clears the ring, EVT_IDX and the queues. -/
def EvtState.restart (e : EvtState) : EvtState :=
  { EvtState.reset with routes := e.routes, ovf := e.ovf, ovfc := e.ovfc, noroute := e.noroute }

/-- The PWR block at a module start: PWR_CTL stays on a warm one (R517); the pins and temperatures are as they are. -/
def PwrState.restart (p : PwrState) (cold : Bool) : PwrState :=
  { p with
    pt := 0x66666666#32, dvfs := PwrState.reset.dvfs, ctl := if cold then PwrState.reset.ctl else p.ctl, nap := 0
    settle := Vector.replicate 4 none, ocCause := p.ocLow, hbCause := false, pinCause := p.brimLow
    acc := Vector.replicate 4 0 }

/-- The FLT block at a module start: every partition is held, fences end; a cold start resets FLT_PSTAT and FLT_PMAP, and
with Crown's SRAM the log goes. -/
def FltState.restart (f : FltState) (cold : Bool) : FltState :=
  { f with
    part := Vector.replicate 4 .held, fenced := 0, mrst := .none
    rcnt := if cold then 0 else f.rcnt, lost := if cold then 0 else f.lost, pmap := if cold then pmapReset else f.pmap
    log := if cold then [] else f.log }

/-- The stored configuration of the fabric, item 19 (R479). -/
def CrnState.fabStart (c : CrnState) (strap : Bool) (excl : Vector (BitVec 5) 6) : FabState :=
  match c.stored.find? fun e => e.1 = 19 with
  | some e =>
    FabState.start (Fin.ofNat 64 (fld e.2 16 6)) (Vector.ofFn fun k : Fin 3 => Fin.ofNat 9 (fld e.2 (4 * k.val) 4))
      (Vector.ofFn fun k : Fin 3 => bit e.2 (12 + k.val)) strap excl
  | none => FabState.start 0 (Vector.replicate 3 1) (Vector.replicate 3 false) strap excl

/-- Crown before its ROM runs: flash, fuses and the straps stay. -/
def CrnState.restart (c : CrnState) (smb : BitVec 2) : CrnState :=
  CrnState.start c.image c.imageBad c.userCal c.stored c.minSvn c.calRate smb

/-! ### The first step -/

/-- Reset is asserted: transfers are aborted and every block that does not keep its state returns to reset (R428). -/
def State.assertReset (s : State) (cold erased : Bool) : State :=
  let tb := s.tb.restart
  { s with
    cores := Vector.replicate 32 CoreSt.reset
    ddr := s.ddr.restart
    tb := if cold then { tb with dom := tb.dom.map TbDom.cold } else tb
    evt := if cold then EvtState.reset else s.evt.restart
    pci := PciState.reset
    flt := s.flt.restart cold
    pwr := s.pwr.restart cold
    dma := DmaState.reset
    net := NetState.reset
    gnt := if cold then { GntState.reset with mode := .test } else s.gnt.restart s.armed
    crn := (s.crn.cutUpdate erased).restart s.crn.smbAddr
    ing := s.ing.restart
    grd := GrdState.reset
    fab := s.crn.fabStart s.fab.strap (Vector.replicate 6 0)
    nmg := NmgState.reset }

/-- A restart begins, and holds at its first step. One that meets an unfinished cold start is cold. -/
def State.restartBegin (s : State) (r : Restart) (erased : Bool) : State :=
  let r := if s.pwr.start = .cold ∨ s.pwr.mode = .held .cold then .cold else r
  (s.assertReset (decide (r = .cold)) erased).modPwr fun p => { p with mode := .held r, start := .none }

/-! ### Repair (R18, R19, R21, R340, R430, R432, R433, R345) -/

/-- Records whose copies fail are ignored, each with event 0x6093. -/
def State.checkRecords (s : State) (lost : List (Fin 512)) : State :=
  let rs := s.flt.table.mapIdx fun i r => if lost.any fun k => k.val = i then { r with ok1 := false, ok2 := false } else r
  let gone := rs.filter fun r => !r.ok1 && !r.ok2
  gone.foldl (fun t _ => t.crnPost 0x6093) (s.modFlt fun f => { f with table := rs })

/-- The cores known to have failed, by fuse and by record. -/
def FltState.known1 (f : FltState) : List Nat := (f.fuses ++ (f.records 1).map fun r => r.loc.toNat).eraseDups

/-- The repair map is built anew, and CRN_COREAV with it. -/
def State.buildMap (s : State) : State :=
  let s := s.modFlt fun f => { f with failed := f.known1, bind := FltState.reset.bind, unbound := 0, rowMap := [] }
  let s := s.modFlt fun f => f.applyRows (List.range 36)
  (s.modCrn fun c => { c with coreAv := BitVec.allOnes 32 }).rebindAll (List.finRange 32) 0x70

/-- Lanes that records of type 3 exclude: port and lane in the low bytes of LOC. -/
def FltState.lanes (f : FltState) : Vector (BitVec 5) 6 :=
  Vector.ofFn fun p : Fin 6 => (f.records 3).foldl
    (fun w r => if fld r.loc 0 8 = p.val ∧ fld r.loc 8 8 < 5 then setBit w (fld r.loc 8 8) true else w) 0

/-- The lanes are excluded before training. -/
def State.excludeLanes (s : State) : State :=
  let x := s.flt.lanes
  { s with fab := { s.fab with ports := Vector.ofFn fun p : Fin 6 => { s.fab.ports[p] with excl := x[p] } } }

/-- At a cold start the first row of each channel in `hard`, whose DIMM has a resource left, that is not yet repaired so takes a
hard repair: at most one for each channel (R340, R429). -/
def hardRepairs (hard : BitVec 16) : List RepairRec → List RepairRec
  | [] => []
  | r :: rs =>
    let ch := fld r.loc 0 8
    if r.type = 4 ∧ (r.ok1 || r.ok2) ∧ !bit r.rfl' 0 ∧ ch < 16 ∧ bit hard ch then
      { r with rfl' := setBit r.rfl' 0 true } :: hardRepairs (setBit hard ch false) rs
    else r :: hardRepairs hard rs

/-- A device that a record of type 5 names is marked failed. -/
def ChanState.markFailed (c : ChanState) (r : RepairRec) : ChanState :=
  { c with fvalid := true, frank := bit r.loc 8, fdev := fld r.loc 16 8 }

def State.markDevices (s : State) : State :=
  (s.flt.records 5).foldl (fun t r => if fld r.loc 0 8 < 16 then t.modChan (Fin.ofNat 16 (fld r.loc 0 8)) fun c => c.markFailed r else t) s

/-! ### Memory (R325, R341) -/

/-- Channels run, out of self-refresh. -/
def DdrState.running (d : DdrState) (cfg : Word) : DdrState :=
  { d with cfg := setBit cfg 63 true, ch := d.ch.map fun c => { c with state := 2 }, selfRefresh := false }

/-- A DIMM that the module uses (R324). -/
def dimmFits (d : Dimm) : Bool :=
  d.present && d.rdimm && decide (3200 ≤ d.rate) && [8, 16, 32, 64].contains d.cap && [1, 2].contains d.ranks &&
    [4, 8].contains d.width && [8, 16].contains d.dens

/-- Two DIMMs alike in what R325 compares. -/
def dimmAlike (a b : Dimm) : Bool :=
  decide (a.cap = b.cap) && decide (a.ranks = b.ranks) && decide (a.width = b.width) && decide (a.dens = b.dens)

/-- The DIMM the others are compared with: the lowest channel's that fits (DESIGN CHOICE, log entry 178). -/
def startModel (e : StartEnv) : Option Dimm := e.dimms.toList.find? dimmFits

/-- The channels at fault: empty, of a type not used, not alike, or not trained (R325). -/
def startBad (e : StartEnv) : List (Fin 16) :=
  (List.finRange 16).filter fun k => !(dimmFits e.dimms[k] && e.dimms[k].trains && ((startModel e).map (dimmAlike e.dimms[k])).getD false)

/-- DDR_CFG less READY, as the SPDs give it. -/
def spdCfg (e : StartEnv) : Word :=
  match startModel e with
  | none => 0
  | some d => pack [(16, 8, d.cap), (8, 1, ofBool (decide (d.ranks = 2))), (4, 1, ofBool (decide (d.width = 8))),
      (0, 1, ofBool (decide (d.dens = 16)))]

/-- The channels whose DIMM has a hard-repair resource left (R340). -/
def startHard (e : StartEnv) : BitVec 16 := (List.finRange 16).foldl (fun m k => if e.dimms[k].hard then setBit m k.val true else m) 0

/-- Rows that take soft repair: those on record without a hard repair (R340). -/
def softRows (table : List RepairRec) : List Word :=
  (table.filter fun r => decide (r.type = 4) && (r.ok1 || r.ok2) && !bit r.rfl' 0).map fun r => r.loc

/-- A cold start reads SPDs, trains, repairs rows and initialises; a channel at fault stops all of it. -/
def State.ddrCold (s : State) (e : StartEnv) : State :=
  if !(startBad e).isEmpty then
    let s := { s with ddr := { s.ddr with
      mem := [], bad := [], cfg := 0, selfRefresh := false
      ch := Vector.ofFn fun k : Fin 16 => { s.ddr.ch[k] with state := if (startBad e).contains k then 4 else 0 } } }
    (startBad e).foldl (fun t k => t.postPart (0x2070 + k.val) 0x70 none) s
  else
    let s := s.modFlt fun f => { f with table := hardRepairs (startHard e) f.table }
    { s with ddr := { s.ddr with mem := [], bad := [], soft := softRows s.flt.table }.running (spdCfg e) }

/-- Crown programs the DIMMs' thermal sensors (R334). -/
def State.dimmLimits (s : State) : State := s.eachChan fun c => { c with limit := some 85 }

/-- A warm start leaves self-refresh; memory that no cold start has initialised stays off. -/
def State.ddrWarm (s : State) : State :=
  if fld s.ddr.cfg 16 8 = 0 then { s with ddr := { s.ddr with selfRefresh := false } }
  else { s with ddr := s.ddr.running s.ddr.cfg }

/-! ### The steps after Crown's firmware runs -/

/-- Stored configuration in ascending item. -/
def State.applyStored (s : State) : State := s.crn.stored.foldl (fun t e => t.cfgApply e.1 e.2) s

/-- User calibration: the extrinsics, and at a cold start the rate of domain A (R378, R474). -/
def State.applyExt (s : State) : State :=
  (List.finRange 16).foldl (fun t k => match t.crn.userCal.find? fun e => e.1 = 0x40 + k.val with
    | some e => t.extWrite k 0x70 0 e.2
    | none => t) s

def State.applyRate (s : State) : State :=
  let r : BitVec 32 := BitVec.ofNat 32 (leNat (s.crn.user 0x20 4))
  (s.domRate 0 r).modCrn fun c => { c with calRate := r }

/-- FLT_PMAP from stored configuration; FLT_PEFF takes the result (R438). -/
def State.applyMap (s : State) : State :=
  let s := match s.crn.stored.find? fun e => e.1 = 18 with
    | some e => s.cfgApply 18 e.2
    | none => s
  s.modFlt fun f => { f with peff := f.pmap }

/-- Every partition accepts launches, once PF0 is ready. -/
def State.releaseAll (s : State) : State :=
  (s.modFlt fun f => { f with part := Vector.replicate 4 .running }).modPwr fun p => { p with start := .none }

/-- The later steps of a start. -/
def State.startRest (s : State) (r : Restart) (e : StartEnv) : State :=
  let s := (s.checkRecords e.lost).applyMap.buildMap.excludeLanes.markDevices
  let s := if r = .cold then
      (s.ddrCold e).applyRate
    else s.ddrWarm
  let s := s.dimmLimits
  s.applyStored.applyExt.releaseAll

/-- A held restart proceeds: the straps are sampled and Crown's ROM runs. In recovery the later steps wait. -/
def State.proceed (s : State) (e : StartEnv) : State :=
  match s.pwr.mode with
  | .held r =>
    if s.pwr.rstLow || s.pwr.trip || e.testEn then s
    else
      let s := (s.modPwr fun p => { p with mode := .run, start := r }).modCrn fun c => { c with smbAddr := e.smb }
      let s := { s with fab := { s.fab with strap := e.origin, origin := e.origin } }
      let s := s.romStart true
      if s.crn.mode = .running then s.startRest r e else s
  | _ => s

/-! ### Commands -/

/-- PWROK_AO: the always-on domain starts. -/
def State.aoGood (s : State) : State :=
  if s.pwr.mode ≠ .off then s
  else { s with tb := TbState.reset, pwr := { s.pwr with ao := true, mode := .aoOnly } }

def execAoPowerGood (s : State) : Answer := .next s.aoGood

/-- A cold restart: PWROK_MAIN is high with the module not started, or FLT_MRST.COLD asks for it. -/
def State.coldRestart (s : State) (erased : Bool) (e : StartEnv) : State :=
  match s.pwr.mode with
  | .aoOnly =>
    if s.pwr.rstLow then s
    else ((s.restartBegin .cold erased).modPwr fun p => { p with main := true, trip := false }).proceed e
  | .run => if s.flt.mrst = .cold then (s.restartBegin .cold erased).proceed e else s
  | _ => s

def execColdRestart (erased : Bool) (e : StartEnv) (s : State) : Answer := .next (s.coldRestart erased e)

/-- A warm restart: MOD_RST_N is low, or one has been asked for. A cold restart asked for before is not lost to the pin. -/
def State.warmRestart (s : State) (pin erased : Bool) (e : StartEnv) : State :=
  let s := if pin then s.modPwr fun p => { p with rstLow := true } else s
  match s.pwr.mode with
  | .run =>
    let r := if s.flt.mrst = .cold then .cold else .warm
    if pin || decide (s.flt.mrst = .warm) then (s.restartBegin r erased).proceed e else s
  | _ => s

def execWarmRestart (pin erased : Bool) (e : StartEnv) (s : State) : Answer := .next (s.warmRestart pin erased e)

/-- MOD_RST_N rises. -/
def State.rstRelease (s : State) (e : StartEnv) : State := (s.modPwr fun p => { p with rstLow := false }).proceed e

def execModRstRelease (e : StartEnv) (s : State) : Answer := .next (s.rstRelease e)

/-- Every sensor has stayed 20 degrees below its trip for 10 s: 5,000,000,000 ticks. -/
def State.cooled (s : State) : Bool :=
  match s.pwr.cool with
  | some t => decide (5000000000 ≤ (s.tb.cnt - t).toNat)
  | none => false

/-- The trip ends, and the restart it held proceeds. -/
def State.tripRelease (s : State) (e : StartEnv) : State :=
  if s.pwr.trip && s.cooled && decide (s.pwr.mode ≠ .run) then ((s.modPwr fun p => { p with trip := false }).pwrPost 0x9061).proceed e
  else s

def execTripRelease (e : StartEnv) (s : State) : Answer := .next (s.tripRelease e)

/-- PWROK_AO falls: the module is OFF. Flash and fuses keep what they hold, and Cloche has its own supply. -/
def State.powerOff (s : State) (erased : Bool) : State :=
  { State.reset with
    flt := { FltState.reset with fuses := s.flt.fuses, table := s.flt.table, flashLog := s.flt.flashLog }
    crn := (s.crn.cutUpdate erased).restart 3
    clo := s.clo
    ing := s.ing.restart
    out := s.out, free := s.free, pending := s.pending }

def execPowerOff (erased : Bool) (s : State) : Answer := .next (s.powerOff erased)

/-- The FLT block after DOZE: no fence, every partition running, the staged map in force. -/
def FltState.wake (f : FltState) : FltState :=
  { f with part := Vector.replicate 4 .running, fenced := 0, rcnt := 0, lost := 0, mrst := .none, peff := f.pmap }

/-- The fabric after DOZE: ports retrain, and the registers that only Crown writes are as they were. -/
def FabState.wake (b : FabState) : FabState :=
  { FabState.start b.cfgSlice b.cfgSize b.cfgWrap b.strap (b.ports.map fun p => p.excl) with
    origin := b.origin, hall := b.hall, dlp := b.dlp, dln := b.dln, admitMask := b.admitMask, slices := b.slices }

/-- Ingest after DOZE: at reset, with the PHY modes. -/
def IngState.wake (g : IngState) : IngState :=
  let r := g.restart
  { r with port := Vector.ofFn fun p : Fin 4 => { r.port[p] with phy := g.port[p].phy } }

/-- The module resumes from DOZE without a module start (R508). -/
def State.resume (s : State) : State :=
  let s := { s with
    cores := Vector.replicate 32 CoreSt.reset
    ddr := { s.ddr.restart with rgn := s.ddr.rgn, bw := s.ddr.bw, cfg := s.ddr.cfg }
    flt := s.flt.wake
    pwr := { s.pwr with main := true, mode := .run }
    dma := DmaState.reset
    gnt := { s.gnt with dozed := true }
    ing := s.ing.wake
    grd := GrdState.reset
    fab := s.fab.wake
    nmg := NmgState.reset
    net := NetState.reset }
  (s.markDevices.ddrWarm.applyExt).pwrPost 0x9072

/-- A wake sequence; with MOD_RST_N low it ends in a held warm restart (R527). -/
def State.dozeExit (s : State) (erased : Bool) : State :=
  if s.pwr.mode ≠ .doze then s
  else if s.pwr.rstLow then (s.restartBegin .warm erased).modPwr fun p => { p with main := true }
  else s.resume

def execDozeExit (erased : Bool) (s : State) : Answer := .next (s.dozeExit erased)

/-! ### Recovery (R467) -/

/-- The staged image goes to flash and Crown starts from it; a module start goes on. -/
def State.commitImage (s : State) (bs : List Byte) (e : StartEnv) : State :=
  let r := s.pwr.start
  let s := s.modCrn fun c => { c with image := some (bs.take (imgLen bs + 384)), imageBad := false, chal := none }
  let s := s.romStart s.crn.atStart
  if r ≠ .none ∧ s.crn.mode = .running then s.startRest r e else s

/-- RECOVER_COMMIT: the length in 4 bytes; `flashOk` says whether the image reads back right. -/
def State.recoverCommit (s : State) (r : MbxReq) (flashOk : Bool) (e : StartEnv) : State × MbxRes :=
  let n := r.num 0 4
  if 4194304 < n then (s, 2, [])
  else
    let bs := s.crn.staging.read 0 n
    match imgFault bs s.crn.minSvn with
    | some k => (s, k, [])
    | none =>
      if flashOk then (s.commitImage bs e, 0, [])
      else (s.modCrn fun c => { c with imageBad := true }, 0x0A, [])

def execRecoverCommit (flashOk : Bool) (e : StartEnv) (s : State) : Answer :=
  .next (s.mbxExec 0x19 fun _ r s => r.sized 4 s (s.recoverCommit r flashOk e))

end Sys2Proof.Machine
end

