-- ==== Sys2Proof/Machine/Sparse.lean ====
section
/-! DEFINITION. The sparse commands of the matrix engine (chapter 09): SPMM with compressed B, NBMAP, and the brick
convolution SCONV. -/

namespace Sys2Proof.Machine

/-- Ones among the low `n` bits of a number. -/
def onesBelow (w n : Nat) : Nat := ((List.range n).filter w.testBit).length

/-- `n` rounded up to a multiple of 16. -/
def up16 (n : Nat) : Nat := (n + 15) / 16 * 16

/-! ### The compressed block format (R212 to R214, R219) -/

/-- Bits of an element in a compressed record. -/
def elemBits (fmt : Nat) : Nat := if fmt = 1 then 4 else if fmt = 6 ∨ fmt = 7 then 16 else 8

/-- A compressed line: where its stored elements begin, and its present blocks with their number, bitmap and the stored
elements of the line before them. -/
structure SpLine where
  elems  : Nat
  blocks : List (Nat × Nat × Nat)

/-- Present blocks with running positions. -/
def runOn : Nat → List (Nat × Nat) → List (Nat × Nat × Nat)
  | _, [] => []
  | n, (j, eb) :: r => (j, eb, n) :: runOn (n + onesBelow eb 16) r

/-- The line whose index entry is `e`: its blocks, the bytes its record has, and whether the entry is good. -/
def spLine (p : SpdState) (fmt doff e : Nat) : SpLine × Nat × Bool :=
  let pres := e / 2 ^ 32
  let js := (List.range (kPerLine fmt)).filter pres.testBit
  let rofs := e % 2 ^ 23
  let a := doff + rofs
  let head := up16 (2 * js.length)
  if pres = 0 then (⟨0, []⟩, 0, true)
  else if pres ≥ 2 ^ kPerLine fmt ∨ rofs % 16 ≠ 0 ∨ (e / 2 ^ 23) % 2 ^ 9 ≠ 0 ∨ spdBytes < a + head then (⟨0, []⟩, 0, false)
  else
    let ebs := js.zipIdx.map fun x => (x.1, p.num (a + 2 * x.2) 2)
    let stored := (ebs.map fun x => onesBelow x.2 16).foldl (· + ·) 0
    let len := head + up16 ((stored * elemBits fmt + 7) / 8)
    if spdBytes < a + len then (⟨0, []⟩, 0, false) else (⟨a + head, runOn 0 ebs⟩, len, true)

/-- An element of compressed B. -/
inductive BElem where
  /-- In a block that is not present: the cube skips it. -/
  | absent
  /-- In a present block, not stored: it counts as zero, or as the zero point. -/
  | unstored
  | raw (bits : Nat)

/-- Element k of row r of a compressed line. -/
def SpLine.elem (x : SpLine) (p : SpdState) (fmt r k : Nat) : BElem :=
  match x.blocks.find? fun b => b.1 = r / 4 + 4 * (k / 4) with
  | none => .absent
  | some (_, eb, n) =>
    let e := 4 * (r % 4) + k % 4
    if !eb.testBit e then .unstored
    else
      let i := n + onesBelow eb e
      match elemBits fmt with
      | 4 => let b := p.num (x.elems + i / 2) 1; .raw (if i % 2 = 0 then b % 16 else b / 16)
      | 16 => .raw (p.num (x.elems + 2 * i) 2)
      | _ => .raw (p.num (x.elems + i) 1)

/-! ### SPMM (R217 to R219) -/

/-- The fields of an SPMM, as those of an MMUL; `boff` is DOFF. -/
def spCmd (q : EngCmd) : MmCmd :=
  ⟨fld q.w1 0 23, fld q.w2 0 23, fld q.w2 23 23, fld q.w1 46 11 + 1, fld q.w2 46 11 + 1, fld q.w2 57 6 + 1, fld q.w3 0 4,
    bit q.w3 4, bit q.w3 5, fld q.w3 8 23, fld q.w3 32 23, bit q.w3 55⟩

/-- The offset of the index. -/
def spIndex (q : EngCmd) : Nat := fld q.w1 23 23

/-- Limits of an SPMM (R217, R218). -/
def spOk (q : EngCmd) : Bool :=
  let x := spCmd q
  let io := spIndex q
  let il := 8 * (x.nb * x.kl)
  let cn := 1024 * (x.mb * x.nb)
  decide (q.cspec = 0) && decide (fld q.w1 57 7 = 0) && decide (fld q.w2 63 1 = 0) && decide (x.aoff % 256 = 0) &&
    decide (io % 8 = 0) && decide (x.boff % 16 = 0) && decide (x.coff % 1024 = 0) && decide (x.fmt ≤ 7) && word3Ok x q.w3 &&
    decide (x.aoff + 256 * (x.mb * x.kl) ≤ spdBytes) && decide (io + il ≤ spdBytes) && decide (x.coff + cn ≤ spdBytes) &&
    !overlap x.coff cn x.aoff (256 * (x.mb * x.kl)) && !overlap x.coff cn io il &&
    !(x.zpen && overlap x.coff cn x.zoff (16 * (x.mb + x.nb))) && !(x.sen && overlap x.coff cn x.soff 8)

/-- What an element of compressed B adds to an integer step: one that is not stored adds nothing. -/
def spIntTerm (fmt : Nat) (a zb : Int) (b : BElem) : Int :=
  match b with
  | .raw w => a * (intElem fmt w - zb)
  | _ => 0

/-- Entry (r, j) of tile (m, n) in an integer format. -/
def spIntEntry (p : SpdState) (x : MmCmd) (ls : List SpLine) (m n r j : Nat) : Int × Bool :=
  let za : Int := if x.zpen then zpAt p x.fmt x.zoff (16 * m + r) else 0
  let zb : Int := if x.zpen then zpAt p x.fmt x.zoff (16 * x.mb + 16 * n + j) else 0
  let step (l : Nat) : Int :=
    ((List.range (kPerLine x.fmt)).map fun k =>
      spIntTerm x.fmt (intElem x.fmt (rawElem p x.fmt (x.aoff + 256 * (m * x.kl + l) + 16 * r) k) - za) zb
        ((ls.getD (n * x.kl + l) ⟨0, []⟩).elem p x.fmt j k)).foldl (· + ·) 0
  accumulate (loadInt p x.acc (x.coff + 1024 * (m * x.nb + n) + 4 * (16 * r + j))) ((List.range x.kl).map step)

/-- The terms that entry (r, j) of tile (m, n) adds up in a floating format. -/
def spTerms (p : SpdState) (x : MmCmd) (ls : List SpLine) (m n r j : Nat) : List FV :=
  (List.range x.kl).flatMap fun l => (List.range (kPerLine x.fmt)).flatMap fun k =>
    let a := (fmtFloat x.fmt false).decode (rawElem p x.fmt (x.aoff + 256 * (m * x.kl + l) + 16 * r) k)
    match (ls.getD (n * x.kl + l) ⟨0, []⟩).elem p x.fmt j k with
    | .absent => []
    | .unstored => [fp32.mul a FV.zero]
    | .raw w => [fp32.mul a ((fmtFloat x.fmt true).decode w)]

/-- Tile (m, n) of an SPMM under draw `d`. -/
def spTile (p : SpdState) (x : MmCmd) (ls : List SpLine) (d m n : Nat) (f : MmFlags) : List Byte × MmFlags :=
  if fmtInt x.fmt then entriesInt (tilePlaces.map fun e => spIntEntry p x ls m n e.1 e.2) f
  else entriesFloat (tilePlaces.map fun e =>
    floatEntry d (((m * x.nb + n) * 16 + e.1) * 16 + e.2) (loadFloat p x.acc (x.at m n e)) (spTerms p x ls m n e.1 e.2)) f

/-- Tile (m, n) whose results are undefined (R218): free entries under draw `d`, and in an integer format a free number of them
saturated. -/
def openTile (fmt d i : Nat) (f : MmFlags) : List Byte × MmFlags :=
  let es := (List.range 256).map fun e => (Config.freeWord (d + 1024 * i + e)).toNat % 2 ^ 32
  if fmtInt fmt then (es.flatMap (leBytes 4 ·), { f with sat := f.sat + (Config.freeWord (d + 1024 * i + 256)).toNat % 257 })
  else entriesFloat es f

/-- What a bad index line leaves behind besides the status (R219). -/
def State.badIndex (s : State) (c : CoreId) : State :=
  (s.modMxe c fun m => { m with spcnt := count16 m.spcnt 48 }).postCore c 0x5102

/-- The index entry of line `i`. -/
def spEntry (p : SpdState) (io i : Nat) : Nat := p.num (io + 8 * i) 8

/-- The element bitmaps of a line's record: their range, none where the line has no present block or its entry is bad. -/
def spHead (fmt doff e : Nat) : List (Nat × Nat) :=
  let n := onesBelow (e / 2 ^ 32) (kPerLine fmt)
  let a := doff + e % 2 ^ 23
  if e / 2 ^ 32 = 0 ∨ e / 2 ^ 32 ≥ 2 ^ kPerLine fmt ∨ e % 2 ^ 32 % 16 ≠ 0 ∨ 2 ^ 23 ≤ e % 2 ^ 32 ∨ spdBytes < a + up16 (2 * n) then []
  else [(a, 2 * n)]

/-- The records of the good lines with a present block. -/
def spRecords (p : SpdState) (x : MmCmd) (io : Nat) (ls : List (SpLine × Nat × Bool)) : List (Nat × Nat) :=
  ls.zipIdx.filterMap fun l => if l.1.2.1 = 0 then none else some (x.boff + spEntry p io l.2 % 2 ^ 23, l.1.2.1)

/-- Steps that the lines `ls` of one window take: Q blocks of each row block in a step (R215). -/
def windowSteps (fmt : Nat) (ls : List SpLine) : Nat :=
  let q := kPerLine fmt / 4
  let perBlock (rb : Nat) : Nat := ((ls.flatMap fun l => l.blocks.filter fun b => b.1 % 4 = rb)).length
  max 1 (((List.range 4).map fun rb => (perBlock rb + q - 1) / q).foldl max 0)

/-- Steps of all tiles of an SPMM (R215). -/
def spSteps (x : MmCmd) (ls : List SpLine) : Nat :=
  x.mb * ((List.range x.nb).map fun n => ((List.range ((x.kl + 7) / 8)).map fun w =>
    windowSteps x.fmt (((ls.drop (n * x.kl)).take x.kl).drop (8 * w) |>.take 8)).foldl (· + ·) 0).foldl (· + ·) 0

/-- The products of an SPMM whose operands are read. A record in the C range leaves the results undefined (R218). -/
def State.spWork (s : State) (c : CoreId) (x : MmCmd) (ls : List (SpLine × Nat × Bool)) (recs : List (Nat × Nat)) : State :=
  let p := s.cores[c].spd
  let d := s.free
  let bad := ls.any fun l => !l.2.2
  let lines := ls.map Prod.fst
  let inC := recs.any fun r => overlap x.coff (1024 * (x.mb * x.nb)) r.1 r.2
  let t := { s with free := s.free + 1 + if inC then 1024 * (x.mb * x.nb) else 0 }.tiles c x.mb x.nb x.coff 1024 fun m n f =>
    if inC then openTile x.fmt d (m * x.nb + n) f else spTile p x lines d m n f
  let s := if x.sen then t.1.wideWrite c 1 x.soff (mmStatus t.2 (if bad then 8 else 0)) else t.1
  let s := if bad then s.badIndex c else s
  s.mmEnd c t.2 (spSteps x lines)

/-- Opcode 0x10: the index, then the bitmaps it names, then the records and the other operands. -/
def State.spmm (s : State) (c : CoreId) (q : EngCmd) : EngineRun :=
  let x := spCmd q
  let io := spIndex q
  let n := x.nb * x.kl
  if !spOk q then .refuse
  else s.onRamp c fun s => s.onZeroPoints c x fun s => s.overSpd c 1 [(io, 8 * n)] fun s =>
    s.overSpd c 1 ((List.range n).flatMap fun i => spHead x.fmt x.boff (spEntry s.cores[c].spd io i)) fun s =>
      let p := s.cores[c].spd
      let ls := (List.range n).map fun i => spLine p x.fmt x.boff (spEntry p io i)
      let recs := spRecords p x io ls
      s.overSpd c 1 ([(x.aoff, 256 * (x.mb * x.kl))] ++ recs ++ if x.acc then [(x.coff, 1024 * (x.mb * x.nb))] else []) fun s =>
        s.steps c fun s => .done (s.spWork c x ls recs)

def execSpmm (c : CoreId) (s : State) : Answer :=
  .next (s.engineStep c 1 (· == 0x10) (fun _ => true) 0x5101 (coreIni c) fun q t => t.spmm c q)

/-! ### NBMAP (R223 to R225) -/

/-- The fields of an NBMAP. -/
structure NbCmd where
  recs  : Nat
  nrec  : Nat
  myloc : Nat
  runs  : Nat
  map   : Nat
  gid   : Nat
  soff  : Nat
  sen   : Bool
  strd  : Bool

def nbCmd (q : EngCmd) : NbCmd :=
  ⟨fld q.w1 0 23, fld q.w1 24 17, fld q.w1 44 16, fld q.w2 0 23, fld q.w2 23 23, fld q.w3 0 32, fld q.w3 32 23, bit q.w3 55,
    bit q.w0 56⟩

/-- Records and runs that lie within the limits. -/
def NbCmd.reads (x : NbCmd) : Nat := max x.nrec x.myloc

def nbOk (q : EngCmd) : Bool :=
  let x := nbCmd q
  decide (q.cspec ≤ 1) && decide (fld q.w1 23 1 = 0) && decide (fld q.w1 41 3 = 0) && decide (fld q.w1 60 4 = 0) &&
    decide (fld q.w2 46 18 = 0) && decide (fld q.w3 56 8 = 0) && decide (x.recs % 256 = 0) && between 1 x.nrec 65536 &&
    decide (x.myloc ≤ 32768) && decide (x.runs % 8 = 0) && decide (x.map % 512 = 0) && decide (x.soff % 16 = 0) &&
    decide (x.recs + 128 * x.reads ≤ spdBytes) && decide (x.runs + 8 * x.reads ≤ spdBytes) &&
    decide (x.map + 512 * x.nrec ≤ spdBytes) && (!x.sen || decide (x.soff + 16 ≤ spdBytes))

/-- What NBMAP counts: items written, CUT, SNF, and the sum of popcount(COCC). -/
structure NbCounts where
  items : Nat
  cut   : Nat
  snf   : Nat
  rows  : Nat

/-- The 8-bit map of occupied 2×2×2 cells of an occupancy. -/
def coarse (occ : Nat) : Nat :=
  ((List.range 8).map fun c =>
    if (List.range 64).any (fun l =>
        occ.testBit l && decide (l % 4 / 2 + 2 * (l / 4 % 4 / 2) + 4 * (l / 32) = c)) then 2 ^ c else 0).foldl (· + ·) 0

/-- Reference i of the record at position r. -/
def nbRef (p : SpdState) (x : NbCmd) (r i : Nat) : Nat := p.num (x.recs + 128 * r + 4 * i) 4
def nbOcc (p : SpdState) (x : NbCmd) (r : Nat) : Nat := p.num (x.recs + 128 * r + 0x74) 8

/-- Binary search of NBR[13] over positions lo to hi − 1. -/
def nbSearch (p : SpdState) (x : NbCmd) (ref : Nat) : Nat → Nat → Nat → Option Nat
  | 0, _, _ => none
  | n + 1, lo, hi =>
    if hi ≤ lo then none
    else
      let mid := (lo + hi) / 2
      let v := nbRef p x mid 13
      if v = ref then some mid
      else if v < ref then nbSearch p x ref n (mid + 1) hi
      else nbSearch p x ref n lo mid

/-- An item as bytes. -/
def nbItem (occ row gid : Nat) : List Byte := leBytes 8 occ ++ leBytes 4 row ++ leBytes 4 gid

/-- What a reference names (R224). -/
inductive NbRef where
  | null
  /-- A brick of another core: its item is not written. -/
  | other
  /-- A brick of this core that has no record. -/
  | notFound
  /-- The record at this position. -/
  | record (r : Nat)

/-- The reference looked up, a spilled brick by binary search. -/
def nbLook (c : CoreId) (p : SpdState) (x : NbCmd) (ref : Nat) : NbRef :=
  let idx := ref % 2 ^ 20
  if ref = 0xFFFFFFFF then .null
  else if ref / 2 ^ 20 ≠ c.val then .other
  else if idx < x.myloc then .record idx
  else if 2 ^ 19 ≤ idx then
    match nbSearch p x ref 18 x.myloc x.nrec with
    | some r => .record r
    | none => .notFound
  else .notFound

/-- The item for a reference: none where it is not written, else its bytes with CUT and SNF. -/
def nbItemOf (c : CoreId) (p : SpdState) (x : NbCmd) (ref : Nat) : Option (List Byte × Bool × Bool) :=
  let null (cut snf : Bool) := some (nbItem 0 0xFFFFFFFF x.gid, cut, snf)
  match nbLook c p x ref with
  | .null => null false false
  | .other => none
  | .notFound => null false true
  | .record r =>
    let occ := nbOcc p x r
    if p.num (x.runs + 8 * r + 4) 4 = onesBelow occ 64 then some (nbItem occ (p.num (x.runs + 8 * r) 4) x.gid, false, false)
    else null true false

/-- What NBMAP reads once it has its records: the records and runs they name, and, with STRD = 0, the ROWBASE of an ITEM[13]
that it does not write. -/
def nbReads (c : CoreId) (p : SpdState) (x : NbCmd) : List (Nat × Nat) :=
  (List.range x.nrec).flatMap fun r => (List.range 27).flatMap fun i =>
    match nbLook c p x (nbRef p x r i) with
    | .record t => [(x.recs + 128 * t, 128), (x.runs + 8 * t, 8)]
    | .other => if i = 13 ∧ !x.strd then [(x.map + 512 * r + 13 * 16 + 8, 4)] else []
    | _ => []

/-- One map record: its writes, through the narrow port (R225). -/
def State.nbRecord (s : State) (c : CoreId) (x : NbCmd) (n : NbCounts) (r : Nat) : State × NbCounts :=
  let p := s.cores[c].spd
  let a := x.map + 512 * r
  let t := (List.range 27).foldl (fun (t : State × NbCounts) i =>
    match nbItemOf c p x (nbRef p x r i) with
    | none => t
    | some (bs, cut, snf) =>
      (t.1.narrowPut c 1 (a + 16 * i) bs,
        { t.2 with items := t.2.items + 1, cut := t.2.cut + ofBool cut, snf := t.2.snf + ofBool snf })) (s, n)
  let cocc := coarse (nbOcc p x r)
  let base := match nbItemOf c p x (nbRef p x r 13) with
    | some (bs, _) => leNat (bs.drop 8 |>.take 4)
    | none => leNat (p.narrowRead (a + 13 * 16 + 8) 4)
  let orow := if x.strd then t.2.rows % 2 ^ 32 else base
  (t.1.narrowPut c 1 (a + 0x1B0) (leBytes 4 orow ++ leBytes 1 cocc), { t.2 with rows := t.2.rows + onesBelow cocc 8 })

/-- All map records and the status. -/
def State.nbWork (s : State) (c : CoreId) (x : NbCmd) : State :=
  let t := (List.range x.nrec).foldl (fun (t : State × NbCounts) r => t.1.nbRecord c x t.2 r) (s, ⟨0, 0, 0, 0⟩)
  let n := t.2
  let s := if x.sen then t.1.wideWrite c 1 x.soff (leBytes 4 n.items ++ leBytes 4 n.cut ++ leBytes 4 n.snf ++
    leBytes 4 (ofBool (decide (0 < n.cut)) + 2 * ofBool (decide (0 < n.snf)))) else t.1
  if 0 < n.cut ∨ 0 < n.snf then s.postCore c 0x5106 else s

/-- Opcode 0x11. -/
def State.nbmap (s : State) (c : CoreId) (q : EngCmd) : EngineRun :=
  let x := nbCmd q
  if !nbOk q then .refuse
  else s.overSpd c 1 [(x.recs, 128 * x.nrec)] fun s => s.overSpd c 1 (nbReads c s.cores[c].spd x) fun s => .done (s.nbWork c x)

def execNbmap (c : CoreId) (s : State) : Answer :=
  .next (s.engineStep c 1 (· == 0x11) (fun _ => true) 0x5101 (coreIni c) fun q t => t.nbmap c q)

/-! ### SCONV (R226 to R233) -/

/-- The fields of an SCONV and of its descriptor. -/
structure ScCmd where
  xoff  : Nat
  map   : Nat
  woff  : Nat
  zoff  : Nat
  nrec  : Nat
  nx    : Nat
  kmask : Nat
  kmode : Nat
  fmt   : Nat
  zpen  : Bool
  kl    : Nat
  nb    : Nat
  nrow  : Nat
  gid   : Nat
  soff  : Nat
  sen   : Bool
  coff  : Nat
  glo   : Nat
  ng    : Nat
  acc   : Bool

def scCmd (q : EngCmd) (p : SpdState) : ScCmd :=
  let d := fld q.w1 0 23
  let n (o k : Nat) : Nat := p.num (d + o) k
  ⟨n 0 4, n 4 4, n 8 4, n 0xC 4, n 0x10 4, n 0x14 4, n 0x18 4, n 0x1C 1, n 0x1D 1 % 16, (n 0x1D 1).testBit 4, n 0x1E 1 + 1,
    n 0x1F 1 + 1, n 0x20 4, n 0x24 4, fld q.w1 32 23, bit q.w1 55, fld q.w2 0 23, fld q.w2 32 13, fld q.w2 48 13 + 1,
    bit q.w3 0⟩

/-- Limits of the command words (R229). -/
def scWordsOk (q : EngCmd) : Bool :=
  decide (q.cspec = 0) && decide (fld q.w1 23 9 = 0) && decide (fld q.w1 56 8 = 0) && decide (fld q.w2 23 9 = 0) &&
    decide (fld q.w2 45 3 = 0) && decide (fld q.w2 61 3 = 0) && decide (fld q.w3 1 63 = 0) &&
    decide (fld q.w1 0 23 % 64 = 0) && decide (fld q.w1 32 23 % 32 = 0) && decide (fld q.w2 0 23 % 1024 = 0)

/-- Enabled offsets, in ascending i. -/
def ScCmd.offs (x : ScCmd) : List Nat := (List.range 27).filter x.kmask.testBit
def ScCmd.rb (x : ScCmd) : Nat := 16 * x.kl
def ScCmd.wlen (x : ScCmd) : Nat := 256 * (x.nb * x.kl) * x.offs.length
def ScCmd.zlen (x : ScCmd) : Nat := 16 * x.nb + x.nx
def ScCmd.clen (x : ScCmd) : Nat := 4096 * (x.nb * x.ng)

/-- Limits of the descriptor and of the ranges (R228, R230). -/
def ScCmd.ok (x : ScCmd) (p : SpdState) (desc : Nat) : Bool :=
  let fmtb := p.num (desc + 0x1D) 1
  decide (x.xoff < 2 ^ 23) && decide (x.map < 2 ^ 23) && decide (x.woff < 2 ^ 23) && decide (x.zoff < 2 ^ 23) &&
    decide (x.xoff % 16 = 0) && decide (x.map % 512 = 0) && decide (x.woff % 256 = 0) && (x.zpen || decide (x.zoff = 0)) &&
    between 1 x.nrec 65536 && between 1 x.nx 524288 && decide (x.kmask < 2 ^ 27) && decide (x.kmask ≠ 0) &&
    decide (x.kmode < 3) && (decide (x.kmode ≠ 2) || decide (x.kmask < 2 ^ 8)) && decide (fmtb < 2 ^ 5) &&
    (decide (x.fmt = 0) || between 2 x.fmt 7) && (!x.zpen || decide (x.fmt = 0)) && decide (x.kl ≤ 16) &&
    decide (x.nb ≤ 64) && between 1 x.nrow 524288 && decide (p.num (desc + 0x28) 24 = 0) &&
    decide (x.glo + x.ng ≤ (x.nrow + 63) / 64) &&
    decide (x.xoff + x.rb * x.nx ≤ spdBytes) && decide (x.map + 512 * x.nrec ≤ spdBytes) &&
    decide (x.woff + x.wlen ≤ spdBytes) && (!x.zpen || decide (x.zoff + x.zlen ≤ spdBytes)) &&
    decide (x.coff + x.clen ≤ spdBytes) && (!x.sen || decide (x.soff + 32 ≤ spdBytes)) &&
    !overlap x.coff x.clen x.xoff (x.rb * x.nx) && !overlap x.coff x.clen x.map (512 * x.nrec) &&
    !overlap x.coff x.clen x.woff x.wlen && !(x.zpen && overlap x.coff x.clen x.zoff x.zlen) &&
    !(x.sen && overlap x.coff x.clen x.soff 32)

/-- Whether item i of map record r carries the descriptor's GID (R226), and its occupancy, 0 where it does not. -/
def ScCmd.good (x : ScCmd) (p : SpdState) (r i : Nat) : Bool := decide (p.num (x.map + 512 * r + 16 * i + 12) 4 = x.gid)
def ScCmd.occ (x : ScCmd) (p : SpdState) (r i : Nat) : Nat :=
  if x.good p r i then p.num (x.map + 512 * r + 16 * i) 8 else 0

/-- The output cells of map record r and their output rows (R227). -/
def ScCmd.cells (x : ScCmd) (p : SpdState) (r : Nat) : List (Nat × Nat) :=
  let orow := p.num (x.map + 512 * r + 0x1B0) 4
  let m := if x.kmode = 0 then x.occ p r 13 else p.num (x.map + 512 * r + 0x1B4) 1
  ((List.range 64).filter m.testBit).map fun l => (l, orow + onesBelow m l)

/-- The input voxel of a cell at offset i, by axis. -/
def ScCmd.voxel (x : ScCmd) (l i axis : Nat) : Int :=
  let base : Nat := if x.kmode = 0 then l / 4 ^ axis % 4 else 2 * (l / 2 ^ axis % 2)
  let d : Int := if x.kmode = 2 then (i / 2 ^ axis % 2 : Nat) else ((i / 3 ^ axis % 3 : Nat) : Int) - 1
  base + d

/-- The item an input voxel lies in and its place there. -/
def ScCmd.inItem (x : ScCmd) (l i : Nat) : Nat × Nat :=
  let v (axis : Nat) : Int := x.voxel l i axis
  let b (axis : Nat) : Int := (v axis).fdiv 4 + 1
  ((9 * b 2 + 3 * b 1 + b 0).toNat, ((v 0) % 4 + 4 * ((v 1) % 4) + 16 * ((v 2) % 4)).toNat)

/-- The pair of a cell at an offset, if its input voxel is occupied. -/
def ScCmd.pair (x : ScCmd) (p : SpdState) (r i : Nat) (cell : Nat × Nat) : Option (Nat × Nat) :=
  let a := x.inItem cell.1 i
  let occ := x.occ p r a.1
  if occ.testBit a.2 then some (cell.2, p.num (x.map + 512 * r + 16 * a.1 + 8) 4 + onesBelow occ a.2) else none

/-- The cells of map record r whose output row lies in group g. -/
def ScCmd.cellsIn (x : ScCmd) (p : SpdState) (r g : Nat) : List (Nat × Nat) :=
  (x.cells p r).filter fun e => decide (e.2 / 64 = g)

/-- The pairs of group g at offset i, in the order formed, before those beyond NX are dropped. -/
def ScCmd.pairs (x : ScCmd) (p : SpdState) (g i : Nat) : List (Nat × Nat) :=
  (List.range x.nrec).flatMap fun r => (x.cellsIn p r g).filterMap (x.pair p r i)

/-- Item reads refused for their GID in group g: once for each record, offset and item that its cells need. -/
def ScCmd.missIn (x : ScCmd) (p : SpdState) (g : Nat) : Nat :=
  ((List.range x.nrec).map fun r => (x.offs.map fun i =>
    (((x.cellsIn p r g).map fun e => (x.inItem e.1 i).1).eraseDups.filter fun a => !x.good p r a).length).foldl (· + ·) 0).foldl
    (· + ·) 0

/-- Records whose ITEM[13] is refused when it is read for the output cells. -/
def ScCmd.missOwn (x : ScCmd) (p : SpdState) : Nat :=
  if x.kmode = 0 then ((List.range x.nrec).filter fun r => !x.good p r 13).length else 0

/-- The pairs of a group by rank and offset, those beyond NX dropped. -/
def ScCmd.kept (x : ScCmd) (p : SpdState) (g : Nat) : List (Nat × List (Nat × Nat)) :=
  x.offs.zipIdx.map fun e => (e.2, (x.pairs p g e.1).filter fun t => decide (t.2 < x.nx))

/-- What the shifter counts. -/
structure ScCounts where
  pairs  : Nat
  chunks : Nat
  miss   : Nat
  range  : Nat
  mpass  : Nat

/-- The counts of a command. -/
def ScCmd.counts (x : ScCmd) (p : SpdState) : ScCounts :=
  (List.range x.ng).foldl (fun n k =>
    let g := x.glo + k
    let all := (x.offs.map fun i => (x.pairs p g i).length).foldl (· + ·) 0
    let kept := (x.kept p g).map fun e => e.2.length
    let ng := kept.foldl (· + ·) 0
    ⟨n.pairs + all, n.chunks + (kept.map fun m => (m + 15) / 16).foldl (· + ·) 0, n.miss + x.missIn p g,
      n.range + (all - ng), n.mpass + ofBool (decide (65536 / x.rb < ng))⟩) ⟨0, 0, x.missOwn p, 0, 0⟩

/-- Address of row `j` of weight line l for N-block n at the offset of rank q. -/
def ScCmd.wAddr (x : ScCmd) (q n l j : Nat) : Nat := x.woff + 256 * (x.nb * x.kl * q + n * x.kl + l) + 16 * j

/-- The input rows, by rank of offset, that add into output row `o` of group g. -/
def rowsInto (kept : List (Nat × List (Nat × Nat))) (o : Nat) : List (Nat × Nat) :=
  kept.flatMap fun e => (e.2.filter fun t => decide (t.1 = o)).map fun t => (e.1, t.2)

/-- An integer entry of output row `o`, column j of N-block n. -/
def ScCmd.intEntry (x : ScCmd) (p : SpdState) (rows : List (Nat × Nat)) (a n j : Nat) : Int × Bool :=
  let zb : Int := if x.zpen then zpAt p 0 x.zoff (16 * n + j) else 0
  accumulate (loadInt p x.acc a) (rows.flatMap fun e => (List.range x.kl).map fun l =>
    let za : Int := if x.zpen then zpAt p 0 x.zoff (16 * x.nb + e.2) else 0
    ((List.range 16).map fun k =>
      (intElem 0 (rawElem p 0 (x.xoff + x.rb * e.2 + 16 * l) k) - za) *
        (intElem 0 (rawElem p 0 (x.wAddr e.1 n l j) k) - zb)).foldl (· + ·) 0)

/-- The terms that a floating entry adds up. -/
def ScCmd.terms (x : ScCmd) (p : SpdState) (rows : List (Nat × Nat)) (n j : Nat) : List FV :=
  rows.flatMap fun e => (List.range x.kl).flatMap fun l =>
    (List.range (kPerLine x.fmt)).map fun k =>
      fp32.mul ((fmtFloat x.fmt false).decode (rawElem p x.fmt (x.xoff + x.rb * e.2 + 16 * l) k))
        ((fmtFloat x.fmt true).decode (rawElem p x.fmt (x.wAddr e.1 n l j) k))

/-- C tile (m, n) of an SCONV: block m mod 4 of group GLO + m / 4, under draw `d`. -/
def ScCmd.tile (x : ScCmd) (p : SpdState) (d m n : Nat) (f : MmFlags) : List Byte × MmFlags :=
  let g := x.glo + m / 4
  let kept := x.kept p g
  let at' (e : Nat × Nat) : Nat := x.coff + 1024 * (m * x.nb + n) + 4 * (16 * e.1 + e.2)
  let rows (r : Nat) := rowsInto kept (64 * g + 16 * (m % 4) + r)
  if x.fmt = 0 then entriesInt (tilePlaces.map fun e => x.intEntry p (rows e.1) (at' e) n e.2) f
  else entriesFloat (tilePlaces.map fun e =>
    floatEntry d (((m * x.nb + n) * 16 + e.1) * 16 + e.2) (loadFloat p x.acc (at' e)) (x.terms p (rows e.1) n e.2)) f

/-- The status of an SCONV (R233). -/
def scStatus (n : ScCounts) (f : MmFlags) : List Byte :=
  leBytes 4 n.pairs ++ leBytes 4 n.chunks ++ leBytes 4 n.miss ++ leBytes 4 n.range ++ leBytes 4 (min f.sat 0xFFFFFFFF) ++
    leBytes 12 (ofBool (decide (0 < f.sat)) + 2 * ofBool f.nan + 4 * ofBool f.inf + 8 * ofBool (decide (0 < n.miss)) +
      16 * ofBool (decide (0 < n.range)) + 32 * ofBool (decide (0 < n.mpass)))

/-- Events and counters of an SCONV. -/
def State.scEnd (s : State) (c : CoreId) (n : ScCounts) : State :=
  let s := s.modMxe c fun m => { m with
    spcnt := let w := if 0 < n.miss ∨ 0 < n.range then count16 m.spcnt 32 else m.spcnt
             setFld w 16 16 (satAdd 0xFFFF (fld w 16 16) n.mpass) }
  let s := if 0 < n.miss then s.postCore c 0x5103 else s
  let s := if 0 < n.mpass then s.postCore c 0x5104 else s
  if 0 < n.range then s.postCore c 0x5105 else s

/-- What an SCONV reads once it has its map records: the rows its pairs name with their zero points, the weights of the offsets
with a pair, the column zero points, and the C tiles it adds onto. -/
def ScCmd.reads (x : ScCmd) (p : SpdState) : List (Nat × Nat) :=
  let kept := (List.range x.ng).flatMap fun k => x.kept p (x.glo + k)
  let rows := kept.flatMap fun e => e.2.map (·.2)
  let ranks := (kept.filter fun e => !e.2.isEmpty).map (·.1)
  (rows.map fun r => (x.xoff + x.rb * r, x.rb)) ++
    (ranks.map fun q => (x.woff + 256 * (x.nb * x.kl * q), 256 * (x.nb * x.kl))) ++
    (if x.zpen then (x.zoff, 16 * x.nb) :: rows.map fun r => (x.zoff + 16 * x.nb + r, 1) else []) ++
    if x.acc then [(x.coff, x.clen)] else []

/-- The products of an SCONV whose operands are read. -/
def State.scWork (s : State) (c : CoreId) (x : ScCmd) : State :=
  let p := s.cores[c].spd
  let d := s.free
  let n := x.counts p
  let t := { s with free := s.free + 1 }.tiles c (4 * x.ng) x.nb x.coff 1024 fun m n f => x.tile p d m n f
  let s := if x.sen then t.1.wideWrite c 1 x.soff (scStatus n t.2) else t.1
  (s.scEnd c n).mmEnd c t.2 (n.chunks * x.kl * x.nb)

/-- Opcode 0x12: the descriptor, then the map records, then what their pairs name. -/
def State.sconv (s : State) (c : CoreId) (q : EngCmd) : EngineRun :=
  if !scWordsOk q then .refuse
  else s.onRamp c fun s => s.overSpd c 1 [(fld q.w1 0 23, 64)] fun s =>
    let x := scCmd q s.cores[c].spd
    if !x.ok s.cores[c].spd (fld q.w1 0 23) then .refuse
    else s.overSpd c 1 [(x.map, 512 * x.nrec)] fun s => s.overSpd c 1 (x.reads s.cores[c].spd) fun s =>
      s.steps c fun s => .done (s.scWork c x)

def execSconv (c : CoreId) (s : State) : Answer :=
  .next (s.engineStep c 1 (· == 0x12) (fun _ => true) 0x5101 (coreIni c) fun q t => t.sconv c q)

end Sys2Proof.Machine
end

