-- ==== Sys2Proof/Machine/Dispatch.lean ====
section
/-! DEFINITION. One arm per command: a direct call of its meaning, or a rejection by name. -/

namespace Sys2Proof.Machine

def exec (i : Instr) (s : State) : Host.Outcome State Fault Refusal :=
  match i with
  | .add c flt => Sys2Proof.Machine.execAdd c flt s
  | .sub c flt => Sys2Proof.Machine.execSub c flt s
  | .mul c flt => Sys2Proof.Machine.execMul c flt s
  | .mulhu c flt => Sys2Proof.Machine.execMulhu c flt s
  | .mulhs c flt => Sys2Proof.Machine.execMulhs c flt s
  | .and c flt => Sys2Proof.Machine.execAnd c flt s
  | .or c flt => Sys2Proof.Machine.execOr c flt s
  | .xor c flt => Sys2Proof.Machine.execXor c flt s
  | .shl c flt => Sys2Proof.Machine.execShl c flt s
  | .shr c flt => Sys2Proof.Machine.execShr c flt s
  | .sar c flt => Sys2Proof.Machine.execSar c flt s
  | .min c flt => Sys2Proof.Machine.execMin c flt s
  | .max c flt => Sys2Proof.Machine.execMax c flt s
  | .minu c flt => Sys2Proof.Machine.execMinu c flt s
  | .maxu c flt => Sys2Proof.Machine.execMaxu c flt s
  | .clz c flt => Sys2Proof.Machine.execClz c flt s
  | .addi c flt => Sys2Proof.Machine.execAddi c flt s
  | .subi c flt => Sys2Proof.Machine.execSubi c flt s
  | .muli c flt => Sys2Proof.Machine.execMuli c flt s
  | .mulhui c flt => Sys2Proof.Machine.execMulhui c flt s
  | .mulhsi c flt => Sys2Proof.Machine.execMulhsi c flt s
  | .andi c flt => Sys2Proof.Machine.execAndi c flt s
  | .ori c flt => Sys2Proof.Machine.execOri c flt s
  | .xori c flt => Sys2Proof.Machine.execXori c flt s
  | .shli c flt => Sys2Proof.Machine.execShli c flt s
  | .shri c flt => Sys2Proof.Machine.execShri c flt s
  | .sari c flt => Sys2Proof.Machine.execSari c flt s
  | .mini c flt => Sys2Proof.Machine.execMini c flt s
  | .maxi c flt => Sys2Proof.Machine.execMaxi c flt s
  | .minui c flt => Sys2Proof.Machine.execMinui c flt s
  | .maxui c flt => Sys2Proof.Machine.execMaxui c flt s
  | .ld c flt ecc => Sys2Proof.Machine.execLd c flt ecc s
  | .st c flt => Sys2Proof.Machine.execSt c flt s
  | .li c flt => Sys2Proof.Machine.execLi c flt s
  | .lih c flt => Sys2Proof.Machine.execLih c flt s
  | .movs c flt => Sys2Proof.Machine.execMovs c flt s
  | .fence c flt => Sys2Proof.Machine.execFence c flt s
  | .fenceComplete c => Sys2Proof.Machine.execFenceComplete c s
  | .ceq c flt => Sys2Proof.Machine.execCeq c flt s
  | .cne c flt => Sys2Proof.Machine.execCne c flt s
  | .clt c flt => Sys2Proof.Machine.execClt c flt s
  | .cltu c flt => Sys2Proof.Machine.execCltu c flt s
  | .cle c flt => Sys2Proof.Machine.execCle c flt s
  | .cleu c flt => Sys2Proof.Machine.execCleu c flt s
  | .ctst c flt => Sys2Proof.Machine.execCtst c flt s
  | .fand c flt => Sys2Proof.Machine.execFand c flt s
  | .forF c flt => Sys2Proof.Machine.execForF c flt s
  | .fxor c flt => Sys2Proof.Machine.execFxor c flt s
  | .fandn c flt => Sys2Proof.Machine.execFandn c flt s
  | .fmov c flt => Sys2Proof.Machine.execFmov c flt s
  | .loop c flt => Sys2Proof.Machine.execLoop c flt s
  | .br c flt => Sys2Proof.Machine.execBr c flt s
  | .call c flt => Sys2Proof.Machine.execCall c flt s
  | .ret c flt => Sys2Proof.Machine.execRet c flt s
  | .lbrk c flt => Sys2Proof.Machine.execLbrk c flt s
  | .halt c flt => Sys2Proof.Machine.execHalt c flt s
  | .haltComplete c => Sys2Proof.Machine.execHaltComplete c s
  | .nop c flt => Sys2Proof.Machine.execNop c flt s
  | .drain c flt => Sys2Proof.Machine.execDrain c flt s
  | .drainComplete c => Sys2Proof.Machine.execDrainComplete c s
  | .tset c flt => Sys2Proof.Machine.execTset c flt s
  | .twait c flt => Sys2Proof.Machine.execTwait c flt s
  | .sig c flt => Sys2Proof.Machine.execSig c flt s
  | .swait c flt => Sys2Proof.Machine.execSwait c flt s
  | .seqWaitResume c => Sys2Proof.Machine.execSeqWaitResume c s
  | .waitTimeout c => Sys2Proof.Machine.execWaitTimeout c s
  | .srd c flt => Sys2Proof.Machine.execSrd c flt s
  | .sset c flt => Sys2Proof.Machine.execSset c flt s
  | .sigx c flt => Sys2Proof.Machine.execSigx c flt s
  | .wopen c flt => Sys2Proof.Machine.execWopen c flt s
  | .wclose c flt => Sys2Proof.Machine.execWclose c flt s
  | .evt c flt => Sys2Proof.Machine.execEvt c flt s
  | .issue c flt => Sys2Proof.Machine.execIssue c flt s
  | .issueUnblock c => Sys2Proof.Machine.execIssueUnblock c s
  | .engineCommandComplete c e => Sys2Proof.Machine.execEngineCommandComplete c e s
  | .fetLinear c => Sys2Proof.Machine.execFetLinear c s
  | .fet2d c => Sys2Proof.Machine.execFet2d c s
  | .imemWrite c ini idx h v => Sys2Proof.Machine.execImemWrite c ini idx h v s
  | .tagdescWrite c ini t h v => Sys2Proof.Machine.execTagdescWrite c ini t h v s
  | .tagWaitResume c => Sys2Proof.Machine.execTagWaitResume c s
  | .cuffIdleFlush c line => Sys2Proof.Machine.execCuffIdleFlush c line s
  | .windowWrite c src off data => Sys2Proof.Machine.execWindowWrite c src off data s
  | .remoteSignal c src n v => Sys2Proof.Machine.execRemoteSignal c src n v s
  | .syncaddWrite c ini n h v => Sys2Proof.Machine.execSyncaddWrite c ini n h v s
  | .spdClr c h v => Sys2Proof.Machine.execSpdClr c h v s
  | .launchRecordWrite n ini off data => Sys2Proof.Machine.execLaunchRecordWrite n ini off data s
  | .launchSlotTake c => Sys2Proof.Machine.execLaunchSlotTake c s
  | .taskStart c => Sys2Proof.Machine.execTaskStart c s
  | .spdParityError c f => Sys2Proof.Machine.execSpdParityError c f s
  | .frameReceive p data fcsOk => Sys2Proof.Machine.execFrameReceive p data fcsOk s
  | .ingestFrameProcess p => Sys2Proof.Machine.execIngestFrameProcess p s
  | .recordWriterBurst => Sys2Proof.Machine.execRecordWriterBurst s
  | .tplWrite t ini off data => Sys2Proof.Machine.execTplWrite t ini off data s
  | .sensWrite n ini off data => Sys2Proof.Machine.execSensWrite n ini off data s
  | .extWrite n ini off data => Sys2Proof.Machine.execExtWrite n ini off data s
  | .holdWrite p ini h v => Sys2Proof.Machine.execHoldWrite p ini h v s
  | .rctlWrite p ini h v => Sys2Proof.Machine.execRctlWrite p ini h v s
  | .slotmapWrite ini off data => Sys2Proof.Machine.execSlotmapWrite ini off data s
  | .injqWrite p ini off data => Sys2Proof.Machine.execInjqWrite p ini off data s
  | .injectionExecute p => Sys2Proof.Machine.execInjectionExecute p s
  | .ethLinkUp p => Sys2Proof.Machine.execEthLinkUp p s
  | .ethLinkDown p => Sys2Proof.Machine.execEthLinkDown p s
  | .ingestEccError f => Sys2Proof.Machine.execIngestEccError f s
  | .ginit c => Sys2Proof.Machine.execGinit c s
  | .gins c => Sys2Proof.Machine.execGins c s
  | .gfin c => Sys2Proof.Machine.execGfin c s
  | .gnbr c => Sys2Proof.Machine.execGnbr c s
  | .grel c => Sys2Proof.Machine.execGrel c s
  | .builderPointInsert c => Sys2Proof.Machine.execBuilderPointInsert c s
  | .neighbourLookup c => Sys2Proof.Machine.execNeighbourLookup c s
  | .grdSpillWrite p ctl ini h v => Sys2Proof.Machine.execGrdSpillWrite p ctl ini h v s
  | .brickTableEccError c f => Sys2Proof.Machine.execBrickTableEccError c f s
  | .ball c => Sys2Proof.Machine.execBall c s
  | .knnc c => Sys2Proof.Machine.execKnnc c s
  | .fps c => Sys2Proof.Machine.execFps c s
  | .vdown c => Sys2Proof.Machine.execVdown c s
  | .cast c => Sys2Proof.Machine.execCast c s
  | .mmul c => Sys2Proof.Machine.execMmul c s
  | .mxeRampDown c => Sys2Proof.Machine.execMxeRampDown c s
  | .mxclr c h v => Sys2Proof.Machine.execMxclr c h v s
  | .spmm c => Sys2Proof.Machine.execSpmm c s
  | .nbmap c => Sys2Proof.Machine.execNbmap c s
  | .sconv c => Sys2Proof.Machine.execSconv c s
  | .spclr c h v => Sys2Proof.Machine.execSpclr c h v s
  | .mxeResidueError c f => Sys2Proof.Machine.execMxeResidueError c f s
  | .ew c => Sys2Proof.Machine.execEw c s
  | .red c => Sys2Proof.Machine.execRed c s
  | .qnt c => Sys2Proof.Machine.execQnt c s
  | .rq c => Sys2Proof.Machine.execRq c s
  | .dq c => Sys2Proof.Machine.execDq c s
  | .hist c => Sys2Proof.Machine.execHist c s
  | .vset c => Sys2Proof.Machine.execVset c s
  | .satcfgWrite c k ini h v => Sys2Proof.Machine.execSatcfgWrite c k ini h v s
  | .vclr c h v => Sys2Proof.Machine.execVclr c h v s
  | .argmax c => Sys2Proof.Machine.execArgmax c s
  | .topk c => Sys2Proof.Machine.execTopk c s
  | .btopk c => Sys2Proof.Machine.execBtopk c s
  | .merge c => Sys2Proof.Machine.execMerge c s
  | .sort c => Sys2Proof.Machine.execSort c s
  | .search c => Sys2Proof.Machine.execSearch c s
  | .selclr c h v => Sys2Proof.Machine.execSelclr c h v s
  | .nmgTabWrite t ini off data => Sys2Proof.Machine.execNmgTabWrite t ini off data s
  | .nmgHsegWrite p ini h v => Sys2Proof.Machine.execNmgHsegWrite p ini h v s
  | .nmgReqWrite u p ini off data => Sys2Proof.Machine.execNmgReqWrite u p ini off data s
  | .lookup u => Sys2Proof.Machine.execLookup u s
  | .upd u => Sys2Proof.Machine.execUpd u s
  | .migr u => Sys2Proof.Machine.execMigr u s
  | .flip u => Sys2Proof.Machine.execFlip u s
  | .retire u => Sys2Proof.Machine.execRetire u s
  | .retireEpochDrain => Sys2Proof.Machine.execRetireEpochDrain s
  | .nmgRequestComplete u => Sys2Proof.Machine.execNmgRequestComplete u s
  | .nmgError u f => Sys2Proof.Machine.execNmgError u f s
  | .dmaRun c => Sys2Proof.Machine.execDmaRun c s
  | .dmaStop c => Sys2Proof.Machine.execDmaStop c s
  | .dchGo e ch ini => Sys2Proof.Machine.execDchGo e ch ini s
  | .dchStop e ch ini => Sys2Proof.Machine.execDchStop e ch ini s
  | .dmaCopy e ch => Sys2Proof.Machine.execDmaCopy e ch s
  | .dmaFill e ch => Sys2Proof.Machine.execDmaFill e ch s
  | .dmaCmp e ch => Sys2Proof.Machine.execDmaCmp e ch s
  | .dmaCompress e ch => Sys2Proof.Machine.execDmaCompress e ch s
  | .dmaHalfSignal e ch => Sys2Proof.Machine.execDmaHalfSignal e ch s
  | .dmaDescriptorDone e ch => Sys2Proof.Machine.execDmaDescriptorDone e ch s
  | .dmaParityHalt e ch => Sys2Proof.Machine.execDmaParityHalt e ch s
  | .ddrAccess r a op e f => Sys2Proof.Machine.execDdrAccess r a op e f s
  | .ddrRgnWrite idx ini h v => Sys2Proof.Machine.execDdrRgnWrite idx ini h v s
  | .ddrBwWrite d ini h v => Sys2Proof.Machine.execDdrBwWrite d ini h v s
  | .ddrRefresh ch => Sys2Proof.Machine.execDdrRefresh ch s
  | .dimmEventAssert e => Sys2Proof.Machine.execDimmEventAssert e s
  | .refresh1xReturn ch => Sys2Proof.Machine.execRefresh1xReturn ch s
  | .ddrScrub ch e => Sys2Proof.Machine.execDdrScrub ch e s
  | .ddrCaParityError ch retryFails own => Sys2Proof.Machine.execDdrCaParityError ch retryFails own s
  | .fabricPortTrained p lanes => Sys2Proof.Machine.execFabricPortTrained p lanes s
  | .fabricLaneRetire p l => Sys2Proof.Machine.execFabricLaneRetire p l s
  | .uncorrectableCodeword p => Sys2Proof.Machine.execUncorrectableCodeword p s
  | .credit p cnt ack nak => Sys2Proof.Machine.execCredit p cnt ack nak s
  | .creditSend p => Sys2Proof.Machine.execCreditSend p s
  | .fabricPacketForward p k => Sys2Proof.Machine.execFabricPacketForward p k s
  | .write => Sys2Proof.Machine.execWrite s
  | .signal => Sys2Proof.Machine.execSignal s
  | .fabricLinkDown p => Sys2Proof.Machine.execFabricLinkDown p s
  | .helloSend p => Sys2Proof.Machine.execHelloSend p s
  | .hello p h => Sys2Proof.Machine.execHello p h s
  | .discoveryStart => Sys2Proof.Machine.execDiscoveryStart s
  | .survey p route => Sys2Proof.Machine.execSurvey p route s
  | .report p route who peers => Sys2Proof.Machine.execReport p route who peers s
  | .assign p addr shape map => Sys2Proof.Machine.execAssign p addr shape map s
  | .failureMap x => Sys2Proof.Machine.execFailureMap x s
  | .collDescriptor ini off data => Sys2Proof.Machine.execCollDescriptor ini off data s
  | .collFragment p k => Sys2Proof.Machine.execCollFragment p k s
  | .colTimeout id => Sys2Proof.Machine.execColTimeout id s
  | .fabricParityError f => Sys2Proof.Machine.execFabricParityError f s
  | .tbRateWrite d ini h v => Sys2Proof.Machine.execTbRateWrite d ini h v s
  | .tbStepWrite d ini h v => Sys2Proof.Machine.execTbStepWrite d ini h v s
  | .tbStateWrite d ini h v => Sys2Proof.Machine.execTbStateWrite d ini h v s
  | .tbLostWrite d ini => Sys2Proof.Machine.execTbLostWrite d ini s
  | .tbWatchdogExpire d => Sys2Proof.Machine.execTbWatchdogExpire d s
  | .epochLatch d => Sys2Proof.Machine.execEpochLatch d s
  | .tbSnap ini h v => Sys2Proof.Machine.execTbSnap ini h v s
  | .syncAccept d port src seq r => Sys2Proof.Machine.execSyncAccept d port src seq r s
  | .announceTimeout d => Sys2Proof.Machine.execAnnounceTimeout d s
  | .tbTxqWrite p ini off data => Sys2Proof.Machine.execTbTxqWrite p ini off data s
  | .timedFrameLaunch p => Sys2Proof.Machine.execTimedFrameLaunch p s
  | .tbEvoWrite k ini reg h v => Sys2Proof.Machine.execTbEvoWrite k ini reg h v s
  | .pulseEdge k => Sys2Proof.Machine.execPulseEdge k s
  | .pulseWidthEnd k => Sys2Proof.Machine.execPulseWidthEnd k s
  | .pdreqSend p => Sys2Proof.Machine.execPdreqSend p s
  | .pdreq p => Sys2Proof.Machine.execPdreq p s
  | .pdresp p t2 t3 => Sys2Proof.Machine.execPdresp p t2 t3 s
  | .sliceSyncSend => Sys2Proof.Machine.execSliceSyncSend s
  | .sync p time r => Sys2Proof.Machine.execSync p time r s
  | .sliceSyncLoss => Sys2Proof.Machine.execSliceSyncLoss s
  | .bridgeSend k => Sys2Proof.Machine.execBridgeSend k s
  | .bridge k b => Sys2Proof.Machine.execBridge k b s
  | .bridgeLoss k => Sys2Proof.Machine.execBridgeLoss k s
  | .tbMismatch => Sys2Proof.Machine.execTbMismatch s
  | .gntNotice p ini off data => Sys2Proof.Machine.execGntNotice p ini off data s
  | .gntCompare => Sys2Proof.Machine.execGntCompare s
  | .gntVerdict idx => Sys2Proof.Machine.execGntVerdict idx s
  | .ageCheck => Sys2Proof.Machine.execAgeCheck s
  | .goldenOpportunity => Sys2Proof.Machine.execGoldenOpportunity s
  | .goldenJudge => Sys2Proof.Machine.execGoldenJudge s
  | .goldenNoticeTimeout => Sys2Proof.Machine.execGoldenNoticeTimeout s
  | .gntRoutedEvent => Sys2Proof.Machine.execGntRoutedEvent s
  | .arm ini => Sys2Proof.Machine.execArm ini s
  | .disarm ini => Sys2Proof.Machine.execDisarm ini s
  | .safe ini => Sys2Proof.Machine.execSafe ini s
  | .defer ini => Sys2Proof.Machine.execDefer ini s
  | .startTestsDone fail test place => Sys2Proof.Machine.execStartTestsDone fail test place s
  | .monitorViolation x => Sys2Proof.Machine.execMonitorViolation x s
  | .faultOutputToggle => Sys2Proof.Machine.execFaultOutputToggle s
  | .gntLockstepError f => Sys2Proof.Machine.execGntLockstepError f s
  | .fltPrst ini h v => Sys2Proof.Machine.execFltPrst ini h v s
  | .partitionRelease p found spares ddr => Sys2Proof.Machine.execPartitionRelease p found spares ddr s
  | .fltMrstWarm ini => Sys2Proof.Machine.execFltMrstWarm ini s
  | .fltMrstCold ini => Sys2Proof.Machine.execFltMrstCold ini s
  | .fltPmapWrite ini h v => Sys2Proof.Machine.execFltPmapWrite ini h v s
  | .faultLogEntry detail => Sys2Proof.Machine.execFaultLogEntry detail s
  | .clocheStart lost badRef => Sys2Proof.Machine.execClocheStart lost badRef s
  | .sealChange isOpen => Sys2Proof.Machine.execSealChange isOpen s
  | .cloFrameTap => Sys2Proof.Machine.execCloFrameTap s
  | .captureEnd => Sys2Proof.Machine.execCaptureEnd s
  | .captureTimeout => Sys2Proof.Machine.execCaptureTimeout s
  | .cloRecordWrite => Sys2Proof.Machine.execCloRecordWrite s
  | .encoderCount a b => Sys2Proof.Machine.execEncoderCount a b s
  | .getid => Sys2Proof.Machine.execGetid s
  | .getstat => Sys2Proof.Machine.execGetstat s
  | .getparam => Sys2Proof.Machine.execGetparam s
  | .setparam => Sys2Proof.Machine.execSetparam s
  | .commit => Sys2Proof.Machine.execCommit s
  | .zero => Sys2Proof.Machine.execZero s
  | .measure => Sys2Proof.Machine.execMeasure s
  | .beltstart => Sys2Proof.Machine.execBeltstart s
  | .beltread => Sys2Proof.Machine.execBeltread s
  | .beltstop => Sys2Proof.Machine.execBeltstop s
  | .abort => Sys2Proof.Machine.execAbort s
  | .getrec => Sys2Proof.Machine.execGetrec s
  | .getaudit => Sys2Proof.Machine.execGetaudit s
  | .setexp => Sys2Proof.Machine.execSetexp s
  | .exportMap => Sys2Proof.Machine.execExportMap s
  | .fwload => Sys2Proof.Machine.execFwload s
  | .fwcommit writeOk => Sys2Proof.Machine.execFwcommit writeOk s
  | .getkey => Sys2Proof.Machine.execGetkey s
  | .cloWatchdog canSign => Sys2Proof.Machine.execCloWatchdog canSign s
  | .cloSramCorrect => Sys2Proof.Machine.execCloSramCorrect s
  | .crownLoadCheck load => Sys2Proof.Machine.execCrownLoadCheck load s
  | .powerLoop pts => Sys2Proof.Machine.execPowerLoop pts s
  | .thermalLoop => Sys2Proof.Machine.execThermalLoop s
  | .dimmTempRead t => Sys2Proof.Machine.execDimmTempRead t s
  | .telemetrySample pwr ic vc => Sys2Proof.Machine.execTelemetrySample pwr ic vc s
  | .heartbeatMiss => Sys2Proof.Machine.execHeartbeatMiss s
  | .pwrHb ini h v => Sys2Proof.Machine.execPwrHb ini h v s
  | .crownWatchdog busy erased => Sys2Proof.Machine.execCrownWatchdog busy erased s
  | .mbxSubmit ini off data => Sys2Proof.Machine.execMbxSubmit ini off data s
  | .getId => Sys2Proof.Machine.execGetId s
  | .getCert => Sys2Proof.Machine.execGetCert s
  | .attest => Sys2Proof.Machine.execAttest s
  | .bufRead => Sys2Proof.Machine.execBufRead s
  | .bufWrite => Sys2Proof.Machine.execBufWrite s
  | .fwUpdate => Sys2Proof.Machine.execFwUpdate s
  | .fwFlashWriteDone ok => Sys2Proof.Machine.execFwFlashWriteDone ok s
  | .fwStatus => Sys2Proof.Machine.execFwStatus s
  | .recoverLoad => Sys2Proof.Machine.execRecoverLoad s
  | .recoverCommit flashOk e => Sys2Proof.Machine.execRecoverCommit flashOk e s
  | .calRead => Sys2Proof.Machine.execCalRead s
  | .calWrite flashOk => Sys2Proof.Machine.execCalWrite flashOk s
  | .cfgRead => Sys2Proof.Machine.execCfgRead s
  | .cfgWrite flashOk => Sys2Proof.Machine.execCfgWrite flashOk s
  | .telemCfg => Sys2Proof.Machine.execTelemCfg s
  | .telemLast => Sys2Proof.Machine.execTelemLast s
  | .logRead => Sys2Proof.Machine.execLogRead s
  | .setOrigin => Sys2Proof.Machine.execSetOrigin s
  | .dbgChal => Sys2Proof.Machine.execDbgChal s
  | .dbgUnlock => Sys2Proof.Machine.execDbgUnlock s
  | .dbgChallengeExpire => Sys2Proof.Machine.execDbgChallengeExpire s
  | .smbusBlockWrite pecOk code data => Sys2Proof.Machine.execSmbusBlockWrite pecOk code data s
  | .smbusBlockRead => Sys2Proof.Machine.execSmbusBlockRead s
  | .eventRoute => Sys2Proof.Machine.execEventRoute s
  | .eventQueueDeliver => Sys2Proof.Machine.execEventQueueDeliver s
  | .msixPendingSend pf1 v => Sys2Proof.Machine.execMsixPendingSend pf1 v s
  | .evtRouteWrite idx ini h v => Sys2Proof.Machine.execEvtRouteWrite idx ini h v s
  | .pciApbaseWrite ini h v => Sys2Proof.Machine.execPciApbaseWrite ini h v s
  | .pciHwinWrite k ini h v => Sys2Proof.Machine.execPciHwinWrite k ini h v s
  | .hostWindowWrite k off data f => Sys2Proof.Machine.execHostWindowWrite k off data f s
  | .hostDdrAccess off op f => Sys2Proof.Machine.execHostDdrAccess off op f s
  | .pcieLinkUp speed width => Sys2Proof.Machine.execPcieLinkUp speed width s
  | .pcieLinkDown => Sys2Proof.Machine.execPcieLinkDown s
  | .pcieReset => Sys2Proof.Machine.execPcieReset s
  | .flrPf0 => Sys2Proof.Machine.execFlrPf0 s
  | .flrPf1 => Sys2Proof.Machine.execFlrPf1 s
  | .aoPowerGood => Sys2Proof.Machine.execAoPowerGood s
  | .coldRestart erased e => Sys2Proof.Machine.execColdRestart erased e s
  | .warmRestart pin erased e => Sys2Proof.Machine.execWarmRestart pin erased e s
  | .modRstRelease e => Sys2Proof.Machine.execModRstRelease e s
  | .powerDown => Sys2Proof.Machine.execPowerDown s
  | .powerOff erased => Sys2Proof.Machine.execPowerOff erased s
  | .dozeEnter ini => Sys2Proof.Machine.execDozeEnter ini s
  | .dozeExit erased => Sys2Proof.Machine.execDozeExit erased s
  | .napEnter d => Sys2Proof.Machine.execNapEnter d s
  | .napWake d => Sys2Proof.Machine.execNapWake d s
  | .pwrDvfsWrite ini h v => Sys2Proof.Machine.execPwrDvfsWrite ini h v s
  | .dvfsVoltageSettled d => Sys2Proof.Machine.execDvfsVoltageSettled d s
  | .brimOvercurrent d => Sys2Proof.Machine.execBrimOvercurrent d s
  | .brimPinAssert => Sys2Proof.Machine.execBrimPinAssert s
  | .brimStepDown d => Sys2Proof.Machine.execBrimStepDown d s
  | .brimClear pin => Sys2Proof.Machine.execBrimClear pin s
  | .thermalSample t => Sys2Proof.Machine.execThermalSample t s
  | .tripRelease e => Sys2Proof.Machine.execTripRelease e s
  | .aoClockLoss => Sys2Proof.Machine.execAoClockLoss s
  | .registerWrite b off data f => Sys2Proof.Machine.execRegisterWrite b off data f s
  | .hostRead b off n f => Sys2Proof.Machine.execHostRead b off n f s
  | .configurationRequest pf1 op => Sys2Proof.Machine.execConfigurationRequest pf1 op s
  | .fabPortRetrain p ini => Sys2Proof.Machine.execFabPortRetrain p ini s

end Sys2Proof.Machine
end

