-- ==== Sys2Proof/Machine/Tick.lean ====
section
/-! DEFINITION. What one tick of the time base, 2 ns, does with no command waiting: TB_CNT counts, the core clocks run, links
carry codewords, forwarded PTP frames leave, and the memory channels let bursts through (R332, R346, R374, R384, R386, R505,
R510). -/

namespace Sys2Proof.Machine

/-- Tenths of a clk that a point's CCLK gives in 2 ns. -/
def clkTenths (fp : Nat) : Nat := pointMHz fp / 50

/-- Tenths of a clk due to die `d` at this tick; none in NAP. -/
def PwrState.due (p : PwrState) (d : Fin 4) : Nat := p.acc[d] + if bit p.nap d.val then 0 else clkTenths (ptFp p.pt d)

/-- A task's clock counter after `n` more clk. -/
def SeqState.count (q : SeqState) (n : Nat) : SeqState :=
  match q.phase with
  | .idle => q
  | .preparing => q
  | _ => { q with clk := q.clk + BitVec.ofNat 64 n }

/-- The core clocks of a tick. -/
def State.clocks (s : State) : State :=
  { s with
    cores := Vector.ofFn fun c : Fin 32 =>
      let n := s.pwr.due (dieOf c) / 10
      { s.cores[c] with seq := s.cores[c].seq.count n, mxe := s.cores[c].mxe.clk n }
    pwr := { s.pwr with acc := Vector.ofFn fun d : Fin 4 => s.pwr.due d % 10 } }

/-- Whether a PTP frame may start now: none does while another frame is sent, or that would still be sent at the head timed
frame's launch (R386). -/
def State.fwdMay (s : State) (p : Fin 4) (w : FwdFrame) : Bool :=
  !s.sending p && match s.tb.tx[p].queue with
    | [] => true
    | d :: _ =>
      !d.now && decide ((s.domTime (if d.dom then 1 else 0)).toNat + wireNs s.ing.port[p].phy w.bytes.length ≤ d.launch.toNat)

/-- The oldest PTP frame of a port leaves: a forwarded one with its residence time, one of the module's own with its egress
stamp taken. -/
def State.fwdTick (s : State) (p : Fin 4) : State :=
  match s.tb.tx[p].fwd with
  | [] => s
  | w :: rest =>
    if s.ing.port[p].up && s.fwdMay p w then
      let s := (s.modTx p fun x => { x with fwd := rest }).lineBusy p w.bytes.length
      match w.own with
      | none => s.emit (.frame p (ptpEgress w.bytes (s.residence p w)))
      | some d => (s.emit (.frame p w.bytes)).ownSent d p w.bytes
    else s

/-- Once a second the servos send their requests (R383). -/
def State.ptpTick (s : State) : State :=
  if s.tb.cnt.toNat % 500000000 ≠ 0 then s
  else (List.finRange 2).foldl (fun t d => (List.finRange 4).foldl (fun t p => t.ptpRequest d p) t) s

/-- Crown takes up what waited for work of a higher class: requests that only need an answer, then management work. -/
def State.crownTick (s : State) : State := s.mbxSettle.mgmtServe

/-- A tick of the blocks outside the always-on domain. -/
def State.mainTick (s : State) : State :=
  let s := s.clocks
  let s := (List.finRange 6).foldl State.linkTick s
  ((List.finRange 4).foldl State.fwdTick s.ptpTick).ddrTick.crownTick

/-- One tick: none in OFF. -/
def State.tick (s : State) : State :=
  if s.pwr.mode = .off then s
  else
    let s := { s with tb := { s.tb with cnt := s.tb.cnt + 1 } }
    if s.mainUp then s.mainTick else s

end Sys2Proof.Machine
end

