-- ==== Sys2Proof/Safety.lean ====
section
/-! DEFINITION. What counts as a safe state and a safe run, and the conditions under which a command has its own effect, in
the terms that claims use. -/

namespace Sys2Proof.Machine

/-- An outcome is a next state. -/
def Completes (o : Host.Outcome State Fault Refusal) : Prop := ∃ t, o = .next t

/-- The host's PF0 and Crown as the initiators of a command (R31). -/
def pf0 : Initiator := ⟨0x60, rfl⟩
def crown : Initiator := ⟨0x70, rfl⟩

/-- Every command waiting is well formed. -/
def State.queueOk (s : State) : Prop := ∀ c ∈ s.pending, c.wf = true

/-! ### Sequencers -/

/-- The word `w` at the pc of core `c` executes: a task runs, the fetch finds no fault, and the predicate is true (R42,
R43, R53). -/
def State.Executes (s : State) (c : CoreId) (w : Word) : Prop :=
  s.cores[c].seq.phase = .running ∧ s.cores[c].fetch .none = .word w ∧ s.cores[c].seq.executes w = true

/-- The state with another sequencer on core `c`. -/
def State.withSeq (s : State) (c : CoreId) (q : SeqState) : State :=
  { s with cores := s.cores.set c { s.cores[c] with seq := q } }

/-- The state with another scratchpad side and another sequencer on core `c`. -/
def State.withSpdSeq (s : State) (c : CoreId) (p : SpdState) (q : SeqState) : State :=
  { s with cores := s.cores.set c { s.cores[c] with spd := p, seq := q } }

/-- A row that fetches an instruction: its core, what the storage does on the fetch, and the opcodes it stands for. -/
structure FetchRow where
  core : CoreId
  flt  : FetchFault
  mine : Nat → Bool

/-- The rows of the Dvoryth instructions (R44). -/
def fetchRow : Instr → Option FetchRow
  | .add c f => some ⟨c, f, (· == 0)⟩
  | .sub c f => some ⟨c, f, (· == 1)⟩
  | .mul c f => some ⟨c, f, (· == 2)⟩
  | .mulhu c f => some ⟨c, f, (· == 3)⟩
  | .mulhs c f => some ⟨c, f, (· == 4)⟩
  | .and c f => some ⟨c, f, (· == 5)⟩
  | .or c f => some ⟨c, f, (· == 6)⟩
  | .xor c f => some ⟨c, f, (· == 7)⟩
  | .shl c f => some ⟨c, f, (· == 8)⟩
  | .shr c f => some ⟨c, f, (· == 9)⟩
  | .sar c f => some ⟨c, f, (· == 10)⟩
  | .min c f => some ⟨c, f, (· == 11)⟩
  | .max c f => some ⟨c, f, (· == 12)⟩
  | .minu c f => some ⟨c, f, (· == 13)⟩
  | .maxu c f => some ⟨c, f, (· == 14)⟩
  | .clz c f => some ⟨c, f, (· == 15)⟩
  | .addi c f => some ⟨c, f, (· == 16)⟩
  | .subi c f => some ⟨c, f, (· == 17)⟩
  | .muli c f => some ⟨c, f, (· == 18)⟩
  | .mulhui c f => some ⟨c, f, (· == 19)⟩
  | .mulhsi c f => some ⟨c, f, (· == 20)⟩
  | .andi c f => some ⟨c, f, (· == 21)⟩
  | .ori c f => some ⟨c, f, (· == 22)⟩
  | .xori c f => some ⟨c, f, (· == 23)⟩
  | .shli c f => some ⟨c, f, (· == 24)⟩
  | .shri c f => some ⟨c, f, (· == 25)⟩
  | .sari c f => some ⟨c, f, (· == 26)⟩
  | .mini c f => some ⟨c, f, (· == 27)⟩
  | .maxi c f => some ⟨c, f, (· == 28)⟩
  | .minui c f => some ⟨c, f, (· == 29)⟩
  | .maxui c f => some ⟨c, f, (· == 30)⟩
  | .ld c f _ => some ⟨c, f, (· == 32)⟩
  | .st c f => some ⟨c, f, (· == 33)⟩
  | .li c f => some ⟨c, f, (· == 34)⟩
  | .lih c f => some ⟨c, f, (· == 35)⟩
  | .movs c f => some ⟨c, f, (· == 36)⟩
  | .fence c f => some ⟨c, f, (· == 37)⟩
  | .ceq c f => some ⟨c, f, (· == 48)⟩
  | .cne c f => some ⟨c, f, (· == 49)⟩
  | .clt c f => some ⟨c, f, (· == 50)⟩
  | .cltu c f => some ⟨c, f, (· == 51)⟩
  | .cle c f => some ⟨c, f, (· == 52)⟩
  | .cleu c f => some ⟨c, f, (· == 53)⟩
  | .ctst c f => some ⟨c, f, (· == 54)⟩
  | .fand c f => some ⟨c, f, (· == 56)⟩
  | .forF c f => some ⟨c, f, (· == 57)⟩
  | .fxor c f => some ⟨c, f, (· == 58)⟩
  | .fandn c f => some ⟨c, f, (· == 59)⟩
  | .fmov c f => some ⟨c, f, (· == 60)⟩
  | .loop c f => some ⟨c, f, (· == 64)⟩
  | .br c f => some ⟨c, f, (· == 65)⟩
  | .call c f => some ⟨c, f, (· == 66)⟩
  | .ret c f => some ⟨c, f, (· == 67)⟩
  | .lbrk c f => some ⟨c, f, (· == 68)⟩
  | .halt c f => some ⟨c, f, (· == 69)⟩
  | .nop c f => some ⟨c, f, (· == 70)⟩
  | .drain c f => some ⟨c, f, (· == 71)⟩
  | .tset c f => some ⟨c, f, (· == 80)⟩
  | .twait c f => some ⟨c, f, (· == 81)⟩
  | .sig c f => some ⟨c, f, (· == 82)⟩
  | .swait c f => some ⟨c, f, (· == 83)⟩
  | .srd c f => some ⟨c, f, (· == 84)⟩
  | .sset c f => some ⟨c, f, (· == 85)⟩
  | .sigx c f => some ⟨c, f, (· == 86)⟩
  | .wopen c f => some ⟨c, f, (· == 96)⟩
  | .wclose c f => some ⟨c, f, (· == 97)⟩
  | .evt c f => some ⟨c, f, (· == 112)⟩
  | .issue c f => some ⟨c, f, fun o => decide (0x80 ≤ o ∧ o ≤ 0x86)⟩
  | _ => none

/-! ### Engines -/

/-- An engine row: its core, its engine, its opcode and the event of a refusal. -/
structure EngineRow where
  core   : CoreId
  engine : Fin 7
  opc    : Nat
  event  : Nat

/-- The rows of the engines FET, MXE, VEC, SEL, GEO and RAY (R66, R71). -/
def engineRow : Instr → Option EngineRow
  | .fetLinear c => some ⟨c, 0, 0x01, 0x1040⟩
  | .fet2d c => some ⟨c, 0, 0x02, 0x1040⟩
  | .mmul c => some ⟨c, 1, 0x01, 0x5001⟩
  | .spmm c => some ⟨c, 1, 0x10, 0x5101⟩
  | .nbmap c => some ⟨c, 1, 0x11, 0x5101⟩
  | .sconv c => some ⟨c, 1, 0x12, 0x5101⟩
  | .ew c => some ⟨c, 2, 0x01, 0x5201⟩
  | .red c => some ⟨c, 2, 0x03, 0x5201⟩
  | .qnt c => some ⟨c, 2, 0x04, 0x5201⟩
  | .rq c => some ⟨c, 2, 0x05, 0x5201⟩
  | .dq c => some ⟨c, 2, 0x06, 0x5201⟩
  | .hist c => some ⟨c, 2, 0x07, 0x5201⟩
  | .vset c => some ⟨c, 2, 0x08, 0x5201⟩
  | .argmax c => some ⟨c, 3, 0x01, 0x5301⟩
  | .topk c => some ⟨c, 3, 0x02, 0x5301⟩
  | .btopk c => some ⟨c, 3, 0x03, 0x5301⟩
  | .merge c => some ⟨c, 3, 0x04, 0x5301⟩
  | .sort c => some ⟨c, 3, 0x05, 0x5301⟩
  | .search c => some ⟨c, 3, 0x06, 0x5301⟩
  | .ginit c => some ⟨c, 4, 0x10, 0x4110⟩
  | .gins c => some ⟨c, 4, 0x11, 0x4110⟩
  | .gfin c => some ⟨c, 4, 0x12, 0x4110⟩
  | .gnbr c => some ⟨c, 4, 0x13, 0x4110⟩
  | .grel c => some ⟨c, 4, 0x14, 0x4110⟩
  | .ball c => some ⟨c, 4, 0x20, 0x4201⟩
  | .knnc c => some ⟨c, 4, 0x21, 0x4201⟩
  | .fps c => some ⟨c, 4, 0x22, 0x4201⟩
  | .vdown c => some ⟨c, 4, 0x23, 0x4201⟩
  | .cast c => some ⟨c, 5, 0x01, 0x4301⟩
  | _ => none

/-- The opcodes that the chapters define for an engine. -/
def engineOpcodes : Fin 7 → List Nat
  | 0 => [1, 2]
  | 1 => [1, 0x10, 0x11, 0x12]
  | 2 => [1, 3, 4, 5, 6, 7, 8]
  | 3 => [1, 2, 3, 4, 5, 6]
  | 4 => [0x10, 0x11, 0x12, 0x13, 0x14, 0x20, 0x21, 0x22, 0x23]
  | _ => [1]

/-- Engine `e` of core `c` has the command `q` in work, its header is in order (R67, R69), it has come to phase `n`, and no
access of this part of it has been made yet. -/
def State.Works (s : State) (c : CoreId) (e : Fin 7) (q : EngCmd) (n : Nat) : Prop :=
  s.cores[c].engines[e].current = some q ∧ q.headerBad = false ∧ s.cores[c].engines[e].phase = n ∧
    s.cores[c].engines[e].work = EngWork.none

/-- Part of the command in work is performed, up to phase `n`; an access lost for want of power ends the task (R539). -/
def State.partlyTo (s : State) (c : CoreId) (e : Fin 7) (n : Nat) : State :=
  (s.modEng c e fun g => { g with phase := n }).noteLost c e

/-- Its first part is performed. -/
def State.partly (s : State) (c : CoreId) (e : Fin 7) : State := s.partlyTo c e 1

/-- Ranges whose lines lie in powered banks and in slots that permit a read (R88, R539). -/
def SpdState.Ready (p : SpdState) (rs : List (Nat × Nat)) : Prop := p.readable rs = true

/-- Ranges whose lines lie in powered banks and in slots that permit a write. -/
def SpdState.Writable (p : SpdState) (rs : List (Nat × Nat)) : Prop :=
  ∀ l ∈ rangeLines rs, p.lineOn l = true ∧ p.mayWrite l = true

/-- A DDR read that completes: admitted by the regions, answered by its channels over the links to them, with no uncorrectable
burst (R329, R338, R339, R423). -/
def State.Readable (s : State) (who : DdrWho) (a n : Nat) : Prop :=
  s.ddr.admitsAll who false a n = true ∧ s.ddrAnswers who (s.ddr.bursts a n) = true ∧
    ∀ b ∈ s.ddr.bursts a n, s.ddr.isBad b = false

/-- The two states differ in what the memory channels count of their grants at most (R332). -/
def OnlyGrants (d e : DdrState) : Prop :=
  e = { d with ch := e.ch } ∧ ∀ k : Fin 16, e.ch[k] = { d.ch[k] with
    grants := e.ch[k].grants, tokLo := e.ch[k].tokLo, tokHi := e.ch[k].tokHi, bw := e.ch[k].bw }

/-- The two states differ in core `c` at most, in the codes posted since and in the free values drawn; of the core, the
sequencer, IMEM, the slot tags, the windows, the sync objects and the launch slots are as they were. -/
def OnlyCore (s t : State) (c : CoreId) : Prop :=
  (∃ l, t = { s with cores := t.cores, free := t.free, evt := { s.evt with incoming := s.evt.incoming ++ l } }) ∧
    (∀ d, d ≠ c → t.cores[d] = s.cores[d]) ∧ t.cores[c].seq = s.cores[c].seq ∧ t.cores[c].imem = s.cores[c].imem ∧
    t.cores[c].spd = { s.cores[c].spd with mem := t.cores[c].spd.mem, cuff := t.cores[c].spd.cuff }

/-- A Cuff as the narrow ports leave it: one entry for a line, offsets inside the line and rising (R81). -/
def SpdState.cuffOk (p : SpdState) : Prop :=
  (p.cuff.map (·.line)).Nodup ∧ ∀ e ∈ p.cuff, (e.bytes.map (·.1)).Pairwise (· < ·) ∧ ∀ b ∈ e.bytes, b.1 < 256

/-! ### The whole module -/

/-- Of the module only PWR and Gauntlet's clock and voltage monitors change. -/
def OnlyPower (s t : State) : Prop :=
  { t with pwr := s.pwr, gnt := s.gnt } = s ∧ { t.gnt with mon := s.gnt.mon } = s.gnt

/-- Every byte memory is in its canonical form: DDR, the scratchpads, the hot store and the transmit buffers. -/
def State.memOk (s : State) : Prop :=
  s.ddr.mem.wf = true ∧ (∀ c : CoreId, s.cores[c].spd.mem.wf = true) ∧ s.nmg.hot.wf = true ∧
    ∀ p : Fin 4, (s.tb.tx[p].buf).wf = true

/-- No GiB lies in two enabled regions (R328). -/
def DdrState.regionsApart (d : DdrState) : Prop :=
  ∀ i j : Fin 16, i ≠ j → rgnEn d.rgn[i] = true → rgnEn d.rgn[j] = true →
    ¬ ∃ g, (rgnBase d.rgn[i] ≤ g ∧ g < rgnBase d.rgn[i] + rgnSize d.rgn[i]) ∧
      (rgnBase d.rgn[j] ≤ g ∧ g < rgnBase d.rgn[j] + rgnSize d.rgn[j])

end Sys2Proof.Machine
end

