-- ==== Sys2Proof/Certificates/Slice0/Obligations.lean ====
section
/-! DEFINITION. The statements for the provers. -/

open Sys2Proof Sys2Proof.Machine

/-! ### The block -/

/-- A step takes the command at the front of the queue. -/
def Obligations.StepRunsFront : Prop :=
  ∀ (s : State) (c : Instr) (rest : List Instr), s.pending = c :: rest → step s = exec c { s with pending := rest }

/-- An idle step is one tick: TB_CNT counts unless the module is OFF (R374; the tick on an empty queue is log entry 122). -/
def Obligations.IdleStepTicks : Prop :=
  ∀ s : State, s.pending = [] →
    ∃ t, step s = .next t ∧ t.pending = [] ∧ s.out <+: t.out ∧
      (s.pwr.mode = .off → t = s) ∧ (s.pwr.mode ≠ .off → t.tb.cnt = s.tb.cnt + 1)

/-- What the spec gives for the state after reset. -/
def Obligations.ResetValues : Prop :=
  let s := State.reset
  s.pending = [] ∧ s.pwr.mode = .off ∧ s.tb.cnt = 0 ∧ s.pwr.dvfs = 0x66666666 ∧ s.pwr.ctl = 0x0A000230 ∧ s.pwr.stat = 0 ∧
    s.flt.pmap = 0xFFFFFF55FFAAAA00 ∧ s.flt.peff = 0xFFFFFF55FFAAAA00 ∧ s.flt.pstat = 0 ∧ s.flt.cfence = 0 ∧ s.flt.logst = 0 ∧
    (∀ i : Fin 16, s.ddr.rgn[i] = 0) ∧ s.ddr.cfg = 0 ∧ (∀ c : CoreId, s.cores[c].seq.phase = .idle) ∧
    (∀ c : CoreId, s.flt.bind[c] = some (9 * (c.val / 8) + c.val % 8)) ∧ s.gnt.mode = .off ∧ s.evt.incoming = [] ∧ s.net.stopped = [] ∧ s.queueOk ∧ s.memOk ∧ s.ddr.regionsApart

/-! ### Dvoryth (chapter 02) -/

/-- D := A op B and D := A op sext(IMM), LI and LIH: the register written, the sequencer past the word, and nothing else changed (R44, R45). -/
def Obligations.Arithmetic : Prop :=
  (∀ (s : State) (c : CoreId) (w : Word), s.Executes c w →
     let q := s.cores[c].seq
     let a := q.srcA w
     let b := q.srcB w
     let gives (v : Word) : Answer := .next (s.withSeq c (q.setReg (opD w) v).advance)
     (opOpc w = 0x00 → exec (.add c .none) s = gives (a + b)) ∧
     (opOpc w = 0x01 → exec (.sub c .none) s = gives (a - b)) ∧
     (opOpc w = 0x02 → exec (.mul c .none) s = gives (a * b)) ∧
     (opOpc w = 0x03 → exec (.mulhu c .none) s = gives (BitVec.ofNat 64 (a.toNat * b.toNat / 2 ^ 64))) ∧
     (opOpc w = 0x04 → exec (.mulhs c .none) s = gives (BitVec.ofInt 64 ((a.toInt * b.toInt).fdiv (2 ^ 64)))) ∧
     (opOpc w = 0x05 → exec (.and c .none) s = gives (a &&& b)) ∧
     (opOpc w = 0x06 → exec (.or c .none) s = gives (a ||| b)) ∧
     (opOpc w = 0x07 → exec (.xor c .none) s = gives (a ^^^ b)) ∧
     (opOpc w = 0x08 → exec (.shl c .none) s = gives (a <<< (b.toNat % 64))) ∧
     (opOpc w = 0x09 → exec (.shr c .none) s = gives (a >>> (b.toNat % 64))) ∧
     (opOpc w = 0x0A → exec (.sar c .none) s = gives (a.sshiftRight (b.toNat % 64))) ∧
     (opOpc w = 0x0B → exec (.min c .none) s = gives (if a.toInt ≤ b.toInt then a else b)) ∧
     (opOpc w = 0x0C → exec (.max c .none) s = gives (if a.toInt ≤ b.toInt then b else a)) ∧
     (opOpc w = 0x0D → exec (.minu c .none) s = gives (if a.toNat ≤ b.toNat then a else b)) ∧
     (opOpc w = 0x0E → exec (.maxu c .none) s = gives (if a.toNat ≤ b.toNat then b else a)) ∧
     (opOpc w = 0x0F → ∃ n : Nat, exec (.clz c .none) s = gives (BitVec.ofNat 64 n) ∧ n ≤ 64 ∧ a.toNat < 2 ^ (64 - n) ∧
       (n < 64 → 2 ^ (63 - n) ≤ a.toNat))) ∧
  (∀ (s : State) (c : CoreId) (w : Word), s.Executes c w →
     let q := s.cores[c].seq
     let a := q.srcA w
     let b : Word := BitVec.ofInt 64 (sfld w 0 32)
     let gives (v : Word) : Answer := .next (s.withSeq c (q.setReg (opD w) v).advance)
     (opOpc w = 0x10 → exec (.addi c .none) s = gives (a + b)) ∧
     (opOpc w = 0x11 → exec (.subi c .none) s = gives (a - b)) ∧
     (opOpc w = 0x12 → exec (.muli c .none) s = gives (a * b)) ∧
     (opOpc w = 0x13 → exec (.mulhui c .none) s = gives (BitVec.ofNat 64 (a.toNat * b.toNat / 2 ^ 64))) ∧
     (opOpc w = 0x14 → exec (.mulhsi c .none) s = gives (BitVec.ofInt 64 ((a.toInt * b.toInt).fdiv (2 ^ 64)))) ∧
     (opOpc w = 0x15 → exec (.andi c .none) s = gives (a &&& b)) ∧
     (opOpc w = 0x16 → exec (.ori c .none) s = gives (a ||| b)) ∧
     (opOpc w = 0x17 → exec (.xori c .none) s = gives (a ^^^ b)) ∧
     (opOpc w = 0x18 → exec (.shli c .none) s = gives (a <<< (b.toNat % 64))) ∧
     (opOpc w = 0x19 → exec (.shri c .none) s = gives (a >>> (b.toNat % 64))) ∧
     (opOpc w = 0x1A → exec (.sari c .none) s = gives (a.sshiftRight (b.toNat % 64))) ∧
     (opOpc w = 0x1B → exec (.mini c .none) s = gives (if a.toInt ≤ b.toInt then a else b)) ∧
     (opOpc w = 0x1C → exec (.maxi c .none) s = gives (if a.toInt ≤ b.toInt then b else a)) ∧
     (opOpc w = 0x1D → exec (.minui c .none) s = gives (if a.toNat ≤ b.toNat then a else b)) ∧
     (opOpc w = 0x1E → exec (.maxui c .none) s = gives (if a.toNat ≤ b.toNat then b else a)) ∧
     (opOpc w = 0x22 → exec (.li c .none) s = gives b) ∧
     (opOpc w = 0x23 → ∃ v : Word, exec (.lih c .none) s = gives v ∧ v.toNat % 2 ^ 32 = (q.srcD w).toNat % 2 ^ 32 ∧
       v.toNat / 2 ^ 32 = opImm w))

/-- Register and flag files: s0 and f0 are constants, a write lands where it is named and nowhere else (R39). -/
def Obligations.RegisterAndFlagFiles : Prop :=
  ∀ (q : SeqState) (r n : Nat) (v : Word) (b : Bool), r < 32 → n < 8 →
    q.reg 0 = 0 ∧ q.flag 0 = true ∧ q.setReg 0 v = q ∧
    (∀ r' < 32, (q.setReg r v).reg r' = if r' = r ∧ r ≠ 0 then v else q.reg r') ∧
    (∀ n' < 8, (q.setFlag n b).flag n' = if n' = n ∧ n ≠ 0 then b else q.flag n') ∧
    (q.setReg r v).flags = q.flags ∧ (q.setFlag n b).regs = q.regs ∧
    ∀ w : Word, (0x30 ≤ opOpc w ∧ opOpc w ≤ 0x3B) ∨ opOpc w = 0x51 ∨ opOpc w = 0x53 → opD w = 0 → encodingOk w = false

/-- Compares, flag logic, FMOV, NOP and MOVS (R44, R46). -/
def Obligations.FlagsAndMoves : Prop :=
  ∀ (s : State) (c : CoreId) (w : Word), s.Executes c w →
    let q := s.cores[c].seq
    let a := q.srcA w
    let b : Word := if opXbit w 0 then BitVec.ofInt 64 (sfld w 0 32) else q.srcB w
    let fa := q.flag (opA w)
    let fb := q.flag (opB w)
    let flag (x : Bool) : Answer := .next (s.withSeq c (q.setFlag (opD w) x).advance)
    (opOpc w = 0x30 → exec (.ceq c .none) s = flag (decide (a = b))) ∧
    (opOpc w = 0x31 → exec (.cne c .none) s = flag (decide (a ≠ b))) ∧
    (opOpc w = 0x32 → exec (.clt c .none) s = flag (decide (a.toInt < b.toInt))) ∧
    (opOpc w = 0x33 → exec (.cltu c .none) s = flag (decide (a.toNat < b.toNat))) ∧
    (opOpc w = 0x34 → exec (.cle c .none) s = flag (decide (a.toInt ≤ b.toInt))) ∧
    (opOpc w = 0x35 → exec (.cleu c .none) s = flag (decide (a.toNat ≤ b.toNat))) ∧
    (opOpc w = 0x36 → exec (.ctst c .none) s = flag (decide (a &&& b ≠ 0))) ∧
    (opOpc w = 0x38 → exec (.fand c .none) s = flag (fa && fb)) ∧
    (opOpc w = 0x39 → exec (.forF c .none) s = flag (fa || fb)) ∧
    (opOpc w = 0x3A → exec (.fxor c .none) s = flag (fa ^^ fb)) ∧
    (opOpc w = 0x3B → exec (.fandn c .none) s = flag (fa && !fb)) ∧
    (opOpc w = 0x3C → exec (.fmov c .none) s = .next (s.withSeq c (q.setReg (opD w) (if fa then 1 else 0)).advance)) ∧
    (opOpc w = 0x46 → exec (.nop c .none) s = .next (s.withSeq c q.advance)) ∧
    (opOpc w = 0x24 → exec (.movs c .none) s = .next (s.withSeq c (q.setReg (opD w) (s.special c (opImm w))).advance)) ∧
    s.special c 0x00 = BitVec.ofNat 64 c.val ∧ s.special c 0x01 = BitVec.ofNat 64 (s.partOf c).val ∧
    s.special c 0x04 = q.clk ∧ s.special c 0x06 = s.readTime 0 ∧ s.special c 0x07 = s.readTime 1 ∧
    (∀ d : Fin 2, (∀ o, s.tb.dom[d].was = some o → o.1 ≠ s.tb.cnt) → s.readTime d = s.domTime d) ∧
    s.special c 0x08 = q.budget.setWidth 64 ∧ s.special c 0x0D = BitVec.ofNat 64 q.calls.length

/-- A false predicate skips the word; what a fetch refuses and the status the task then ends with; a corrected IMEM word executes after it is counted and posted (R42, R43, R50, R53, R74, R75). -/
def Obligations.Fetching : Prop :=
  (∀ (s : State) (i : Instr) (r : FetchRow) (w : Word), fetchRow i = some r → r.flt = .none → r.mine (opOpc w) = true →
     s.cores[r.core].seq.phase = .running → s.cores[r.core].fetch .none = .word w → s.cores[r.core].seq.executes w = false →
     exec i s = .next (s.withSeq r.core s.cores[r.core].seq.advance)) ∧
  (∀ (s : State) (i : Instr) (r : FetchRow), fetchRow i = some r → s.cores[r.core].seq.phase = .running →
     let k := s.cores[r.core]
     (∀ st, k.fetch r.flt = .fail st → exec i s = .next ((s.imemCorrected r.core r.flt).failTask r.core st)) ∧
     (r.flt = .parity → k.fetch r.flt = .fail 0x8A) ∧
     (r.flt ≠ .parity → 32768 ≤ k.seq.pc → k.fetch r.flt = .fail 0x82) ∧
     (r.flt = .imemDouble → k.seq.pc < 32768 → k.fetch r.flt = .fail 0x89) ∧
     (r.flt = .none → k.seq.pc < 32768 → encodingOk k.word = false → k.fetch r.flt = .fail 0x81) ∧
     (r.flt = .none → k.seq.pc < 32768 → encodingOk k.word = true → k.seq.atLoopEnd = true →
       0x40 ≤ opOpc k.word → opOpc k.word ≤ 0x45 → k.fetch r.flt = .fail 0x82)) ∧
  (∀ (s : State) (c : CoreId), s.cores[c].seq.phase = .running → s.cores[c].seq.pc < 32768 → opOpc s.cores[c].word = 0x46 →
     exec (.nop c .imemSingle) s = exec (.nop c .none) (s.imemCorrected c .imemSingle) ∧
     (s.imemCorrected c .imemSingle).cores[c].imemCe = s.cores[c].imemCe + 1 ∧
     (s.imemCorrected c .imemSingle).evt.incoming = s.evt.incoming ++ [⟨0x1020, coreIni c, s.tb.cnt, some (s.partOf c), false, false⟩])

/-- The loop-end check; LOOP, BR, CALL, RET and LBRK where their rules let them pass; and their failures (R55 and R56; of R50
to R54, what these rows meet). -/
def Obligations.BranchesAndLoops : Prop :=
  (∀ (q : SeqState), q.advance.regs = q.regs ∧ q.advance.flags = q.flags ∧ q.advance.calls = q.calls ∧
     q.advance.budget = q.budget ∧
     (q.loops = [] → q.advance.pc = q.pc + 1 ∧ q.advance.loops = []) ∧
     (∀ l ls, q.loops = l :: ls → l.stop ≠ q.pc → q.advance.pc = q.pc + 1 ∧ q.advance.loops = q.loops) ∧
     (∀ l ls, q.loops = l :: ls → l.stop = q.pc → 1 < l.count →
       q.advance.pc = l.start ∧ q.advance.loops = { l with count := l.count - 1 } :: ls) ∧
     (∀ l ls, q.loops = l :: ls → l.stop = q.pc → l.count ≤ 1 → q.advance = { q with loops := ls }.advance)) ∧
  (∀ (s : State) (c : CoreId) (w : Word), s.Executes c w →
     let q := s.cores[c].seq
     let n := if opXbit w 0 then fld w 0 20 else fld (q.srcA w) 0 32
     let stop := q.pc + fld w 20 12 + 1
     let inner := ∀ l ls, q.loops = l :: ls → stop ≤ l.stop
     let off := sfld w 0 32
     let target : Int := q.pc + off
     let reach := off ≠ 0 ∧ -4096 ≤ off ∧ off ≤ 4095 ∧ 0 ≤ target ∧ target < 32768
     let stays := ∀ l ls, q.loops = l :: ls → (l.start : Int) ≤ target ∧ target ≤ l.stop
     (opOpc w = 0x40 → inner → 0 < n → q.loops.length < 4 →
       exec (.loop c .none) s = .next (s.withSeq c { q with loops := ⟨q.pc + 1, stop, n⟩ :: q.loops, pc := q.pc + 1 })) ∧
     (opOpc w = 0x40 → inner → n = 0 → exec (.loop c .none) s = .next (s.withSeq c (q.passed stop))) ∧
     (opOpc w = 0x41 → reach → stays → 0 < off → exec (.br c .none) s = .next (s.withSeq c { q with pc := target.toNat })) ∧
     (opOpc w = 0x41 → reach → stays → off < 0 → q.budget ≠ 0 →
       exec (.br c .none) s = .next (s.withSeq c { q with budget := q.budget - 1, pc := target.toNat })) ∧
     (opOpc w = 0x42 → reach → q.calls.length < 8 →
       exec (.call c .none) s = .next (s.withSeq c { q with calls := ⟨q.pc + 1, q.loops.length⟩ :: q.calls, pc := target.toNat })) ∧
     (∀ l ls, opOpc w = 0x43 → q.calls = l :: ls → q.loops.length ≤ l.depth →
       exec (.ret c .none) s = .next (s.withSeq c { q with calls := ls, pc := l.ret })) ∧
     (∀ l ls, opOpc w = 0x44 → q.loops = l :: ls →
       exec (.lbrk c .none) s = .next (s.withSeq c ({ q with loops := ls }.passed l.stop)))) ∧
  (∀ (s : State) (c : CoreId) (w : Word), s.Executes c w →
     let q := s.cores[c].seq
     let n := if opXbit w 0 then fld w 0 20 else fld (q.srcA w) 0 32
     let stop := q.pc + fld w 20 12 + 1
     let off := sfld w 0 32
     let target : Int := q.pc + off
     let reach := off ≠ 0 ∧ -4096 ≤ off ∧ off ≤ 4095 ∧ 0 ≤ target ∧ target < 32768
     let fails (st : Nat) : Answer := .next (s.failTask c st)
     (∀ l ls, opOpc w = 0x40 → q.loops = l :: ls → l.stop < stop → exec (.loop c .none) s = fails 0x82) ∧
     (opOpc w = 0x40 → (∀ l ls, q.loops = l :: ls → stop ≤ l.stop) → 0 < n → 4 ≤ q.loops.length →
       exec (.loop c .none) s = fails 0x85) ∧
     (opOpc w = 0x41 → ¬ reach → exec (.br c .none) s = fails 0x82) ∧
     (∀ l ls, opOpc w = 0x41 → reach → q.loops = l :: ls → ¬ ((l.start : Int) ≤ target ∧ target ≤ l.stop) →
       exec (.br c .none) s = fails 0x82) ∧
     (opOpc w = 0x41 → reach → (∀ l ls, q.loops = l :: ls → (l.start : Int) ≤ target ∧ target ≤ l.stop) → off < 0 → q.budget = 0 →
       exec (.br c .none) s = fails 0x86) ∧
     (opOpc w = 0x42 → ¬ reach → exec (.call c .none) s = fails 0x82) ∧
     (opOpc w = 0x42 → reach → 8 ≤ q.calls.length → exec (.call c .none) s = fails 0x83) ∧
     (opOpc w = 0x43 → q.calls = [] → exec (.ret c .none) s = fails 0x84) ∧
     (∀ l ls, opOpc w = 0x43 → q.calls = l :: ls → l.depth < q.loops.length → exec (.ret c .none) s = fails 0x82) ∧
     (opOpc w = 0x44 → q.loops = [] → exec (.lbrk c .none) s = fails 0x82))

/-- LD and ST, and the retry of one that a slot tag held (R47; of R48, R88, R89 and R108, what LD and ST meet). -/
def Obligations.NarrowAccess : Prop :=
  ∀ (s : State) (c : CoreId) (w : Word),
    let k := s.cores[c]
    let q := k.seq
    let p := k.spd
    let a := (q.srcA w + BitVec.ofInt 64 (sfld w 0 32)).toNat
    let n := 2 ^ fld w 32 2
    let v := leNat (p.narrowRead a n)
    let fits := a < 0x800000 ∧ a % 256 + n ≤ 256 ∧ bit p.bankOn (a / 0x80000) = true
    let loaded := (q.setReg (opD w) (if opXbit w 2 then BitVec.ofInt 64 (toSigned (8 * n) v) else BitVec.ofNat 64 v)).advance
    let stored := p.narrowWrite a (leBytes n (q.srcB w).toNat) 7
    let held := s.withSeq c { q with phase := .waiting .lineTag }
    (s.Executes c w → opOpc w = 0x20 →
      (fits → p.mayRead (a / 256) = true → exec (.ld c .none .none) s = .next (s.withSeq c loaded) ∧
        exec (.ld c .none .single) s = .next ((s.spdCorrected c).withSeq c loaded) ∧
        exec (.ld c .none .double) s = .next (s.failTask c 0x8B)) ∧
      (fits → p.mayRead (a / 256) = false → ∀ e, exec (.ld c .none e) s = .next held) ∧
      (¬ fits → ∀ e, exec (.ld c .none e) s = .next (s.failTask c 0x88))) ∧
    (s.Executes c w → opOpc w = 0x21 →
      (fits → p.mayWrite (a / 256) = true → exec (.st c .none) s = .next (s.withSpdSeq c stored q.advance)) ∧
      (fits → p.mayWrite (a / 256) = false → exec (.st c .none) s = .next held) ∧
      (¬ fits → exec (.st c .none) s = .next (s.failTask c 0x88))) ∧
    (q.phase = .waiting .lineTag → k.word = w → (∀ e : Fin 7, k.engines[e].work.computed = false) → fits →
      (opOpc w = 0x20 → p.mayRead (a / 256) = true → exec (.tagWaitResume c) s = .next (s.withSeq c loaded)) ∧
      (opOpc w = 0x21 → p.mayWrite (a / 256) = true → exec (.tagWaitResume c) s = .next (s.withSpdSeq c stored q.advance))) ∧
    (opOpc w = 0x20 ∨ opOpc w = 0x21 → fld w 35 2 ≠ 0 → encodingOk w = false) ∧
    (opOpc w = 0x21 → opXbit w 2 = true → encodingOk w = false)

/-- A narrow store is what the narrow view then reads, there and nowhere else; a flush leaves that view as it was and
brings the wide view up to it (R49, R81 to R83). -/
def Obligations.CuffReadsBack : Prop :=
  ∀ (p : SpdState) (a o : Nat) (bs : List Byte) (f : CuffEntry → Bool), p.cuffOk → p.mem.wf = true → bs ≠ [] →
    a % 256 + bs.length ≤ 256 → o < 8 →
    let p' := p.narrowWrite a bs o
    p'.cuffOk ∧ p'.mem.wf = true ∧
    (∀ x, p'.narrowByte x = (if a ≤ x then bs[x - a]? else none).getD (p.narrowByte x)) ∧
    (∀ x, (p.flushIf f).narrowByte x = p.narrowByte x) ∧
    (∀ x, (∀ e ∈ p.cuff, e.line = x / 256 → f e = true) → (p.flushIf f).mem.byte x = p.narrowByte x) ∧
    (p.flushIf f).cuff = p.cuff.filter (fun e => !f e)

/-- FENCE, HALT and DRAIN, and how each ends (R49, R57, R58, R82). -/
def Obligations.WaitsAndEnds : Prop :=
  ∀ (s : State) (c : CoreId) (w : Word),
    let k := s.cores[c]
    let q := k.seq
    let st := if opXbit w 0 then fld w 0 8 else fld (q.srcA w) 0 8
    let idle (m : Word) := ∀ e : Fin 7, bit m e.val = true → k.engines[e].queue = [] ∧ k.engines[e].active = []
    (s.Executes c w → opOpc w = 0x25 → exec (.fence c .none) s =
      .next (s.withSpdSeq c (k.spd.flushIf fun e => bit e.owners 7) { q with phase := .waiting .fence })) ∧
    (q.phase = .waiting .fence → (∀ e ∈ k.spd.cuff, bit e.owners 7 = false) →
      exec (.fenceComplete c) s = .next (s.withSeq c q.advance)) ∧
    (∀ e ∈ (k.spd.flushIf fun e => bit e.owners 7).cuff, bit e.owners 7 = false) ∧
    (s.Executes c w → opOpc w = 0x45 → (st < 0x80 ∨ 0xBF < st) →
      exec (.halt c .none) s = .next (s.withSpdSeq c k.spd.flushAll { q with phase := .halting (BitVec.ofNat 8 st) })) ∧
    (s.Executes c w → opOpc w = 0x45 → 0x80 ≤ st → st ≤ 0xBF → exec (.halt c .none) s = .next (s.failTask c 0x81)) ∧
    (∀ v, q.phase = .halting v → (∀ e : Fin 7, k.engines[e].queue = [] ∧ k.engines[e].active = []) →
      exec (.haltComplete c) s = .next (s.finishTask c v.toNat)) ∧
    (∀ v, q.phase = .ending v → (∀ e : Fin 7, k.engines[e].active = []) →
      exec (.haltComplete c) s = .next (s.finishTask c v.toNat)) ∧
    (s.Executes c w → opOpc w = 0x47 → idle w → exec (.drain c .none) s = .next (s.withSeq c q.advance)) ∧
    (s.Executes c w → opOpc w = 0x47 → ¬ idle w →
      exec (.drain c .none) s = .next (s.withSeq c { q with phase := .waiting .drain })) ∧
    (q.phase = .waiting .drain → idle k.word → exec (.drainComplete c) s = .next (s.withSeq c q.advance))

/-- How a task ends, its slot DONE with status and clocks and the Cuff and engines empty; and which failures end it at once, wait, or fence the core (R57, R74, R82, R102, R106). -/
def Obligations.EndsOfTasks : Prop :=
  (∀ (s : State) (c : CoreId) (st : Nat), st < 256 →
     let k := s.cores[c]
     let t := s.finishTask c st
     let k' := t.cores[c]
     let i := k.seq.slot
     k'.seq = { k.seq with phase := .idle } ∧ k'.spd.cuff = [] ∧ k'.spd.tags = k.spd.tags ∧ k'.spd.windows = k.spd.windows ∧
     k'.spd.slots[i] = { k.spd.slots[i] with
       state := .done, status := BitVec.ofNat 8 st, lclk := k.seq.clk, ltime := s.domTime 0 } ∧
     (∀ j, j ≠ i → k'.spd.slots[j] = k.spd.slots[j]) ∧
     (∀ e : Fin 7, k'.engines[e].queue = [] ∧ k'.engines[e].active = []) ∧
     (bit k.record 175 = true → k'.spd.sync = SMap.set 0 k.spd.sync (fld k.record 160 9) (k.sync (fld k.record 160 9) + 1)) ∧
     (bit k.record 175 = false → k'.spd.sync = k.spd.sync) ∧
     (∀ d, d ≠ c → t.cores[d] = s.cores[d]) ∧
     t.evt.incoming = s.evt.incoming ++
       (if 0x80 ≤ st ∧ st ≤ 0xBF then [⟨BitVec.ofNat 16 (0x1000 + st), coreIni c, s.tb.cnt, some (s.partOf c), false, false⟩] else []) ∧
     { t with cores := s.cores, evt := s.evt } = s) ∧
  (∀ (s : State) (c : CoreId) (st : Nat), s.cores[c].seq.phase = .running →
     let k := s.cores[c]
     let dropped := s.modCore c CoreSt.dropQueued
     ((st < 0x89 ∨ 0x8C < st) → (∀ e : Fin 7, k.engines[e].active = []) → s.failTask c st = dropped.finishTask c st) ∧
     ((st < 0x89 ∨ 0x8C < st) → (∃ e : Fin 7, k.engines[e].active ≠ []) →
       s.failTask c st = dropped.withSpdSeq c k.spd.flushAll { k.seq with phase := .ending (BitVec.ofNat 8 st) }) ∧
     (0x89 ≤ st → st ≤ 0x8C → s.failTask c st = ((s.stopEngines c).finishTask c st).fenceCore c ∧
       bit (s.failTask c st).flt.fenced c.val = true ∧ (s.failTask c st).cores[c].seq.phase = .idle))

/-- TSET, TWAIT, SIG, SWAIT, SRD, SSET and how a wait ends; WOPEN, WCLOSE, EVT and SIGX (R59 to R65, R91). -/
def Obligations.SyncTagsWindows : Prop :=
  (∀ (s : State) (c : CoreId) (w : Word),
     let k := s.cores[c]
     let q := k.seq
     let tag := (q.srcA w).toNat + fld w 0 12
     let obj := (q.srcA w).toNat + fld w 0 9
     let b := q.srcB w
     let limit := 2 ^ (fld w 16 5 + 4)
     let flagged (x : Bool) : Answer := .next (s.withSeq c (q.setFlag (opD w) x).advance)
     let waits (x : SeqWait) : Answer := .next (s.withSeq c { q with phase := .waiting x })
     let holdsT := (k.spd.tag tag).full = opXbit w 0
     let holdsS := b.toNat ≤ (k.sync obj).toNat
     (s.Executes c w → tag < 4096 →
       (opOpc w = 0x50 → exec (.tset c .none) s = .next (s.withSpdSeq c (k.spd.setTag tag (opXbit w 0)) q.advance)) ∧
       (opOpc w = 0x51 → holdsT → exec (.twait c .none) s = flagged true) ∧
       (opOpc w = 0x51 → ¬ holdsT → exec (.twait c .none) s = waits (.tag q.clk.toNat))) ∧
     (s.Executes c w → obj < 512 →
       (opOpc w = 0x52 → exec (.sig c .none) s =
         .next (s.withSpdSeq c { k.spd with sync := SMap.set 0 k.spd.sync obj (k.sync obj + b) } q.advance)) ∧
       (opOpc w = 0x53 → holdsS → exec (.swait c .none) s = flagged true) ∧
       (opOpc w = 0x53 → ¬ holdsS → exec (.swait c .none) s = waits (.sync q.clk.toNat)) ∧
       (opOpc w = 0x54 → exec (.srd c .none) s = .next (s.withSeq c (q.setReg (opD w) (k.sync obj)).advance)) ∧
       (opOpc w = 0x55 → exec (.sset c .none) s =
         .next (s.withSpdSeq c { k.spd with sync := SMap.set 0 k.spd.sync obj b } q.advance))) ∧
     (s.Executes c w → 4096 ≤ tag → (opOpc w = 0x50 → exec (.tset c .none) s = .next (s.failTask c 0x88)) ∧
       (opOpc w = 0x51 → exec (.twait c .none) s = .next (s.failTask c 0x88))) ∧
     (s.Executes c w → 512 ≤ obj → (opOpc w = 0x52 → exec (.sig c .none) s = .next (s.failTask c 0x88)) ∧
       (opOpc w = 0x53 → exec (.swait c .none) s = .next (s.failTask c 0x88)) ∧
       (opOpc w = 0x54 → exec (.srd c .none) s = .next (s.failTask c 0x88)) ∧
       (opOpc w = 0x55 → exec (.sset c .none) s = .next (s.failTask c 0x88))) ∧
     (∀ since, k.word = w → q.phase = .waiting (.tag since) →
       (holdsT → exec (.seqWaitResume c) s = flagged true) ∧
       (fld w 16 5 ≠ 0 → since + limit ≤ q.clk.toNat → exec (.waitTimeout c) s = flagged false)) ∧
     (∀ since, k.word = w → q.phase = .waiting (.sync since) →
       (holdsS → exec (.seqWaitResume c) s = flagged true) ∧
       (fld w 16 5 ≠ 0 → since + limit ≤ q.clk.toNat → exec (.waitTimeout c) s = flagged false)) ∧
     (∀ n, n < 4096 → SMap.wf TagDesc.zero k.spd.tags = true → (k.spd.setTag tag (opXbit w 0)).tag n =
       if n = tag then { k.spd.tag n with full := opXbit w 0 } else k.spd.tag n)) ∧
  (∀ (s : State) (c : CoreId) (w : Word), s.Executes c w →
     let k := s.cores[c]
     let q := k.seq
     let a := q.srcA w
     let b := q.srcB w
     let d := q.srcD w
     let n := fld w 0 6
     let parOk := a.toNat % 256 = 0 ∧ b.toNat % 256 = 0 ∧ 256 ≤ b.toNat ∧ a.toNat + b.toNat ≤ 0x800000 ∧ d.toNat < 0x10000
     let win : Window := ⟨true, a.toNat, b.toNat, BitVec.ofNat 8 (fld d 0 8), BitVec.ofNat 8 (fld d 8 8)⟩
     let obj := fld a 0 9
     let target : CoreId := Fin.ofNat 32 (fld a 9 5)
     let rem := bit a 30
     let sigOk := fld a 31 33 = 0 ∧ bit a 14 = false ∧ (rem = false → fld a 15 15 = 0) ∧ (rem = true → 2 ≤ (s.partOf c).val)
     (opOpc w = 0x60 → parOk → exec (.wopen c .none) s = .next (s.withSpdSeq c (k.spd.setWindow n win) q.advance)) ∧
     (opOpc w = 0x60 → ¬ parOk → exec (.wopen c .none) s = .next (s.failTask c 0x88)) ∧
     (opOpc w = 0x61 → exec (.wclose c .none) s =
       .next (s.withSpdSeq c (k.spd.setWindow n { k.spd.window n with isOpen := false }) q.advance)) ∧
     (opOpc w = 0x70 → exec (.evt c .none) s = .next { s.withSeq c q.advance with evt := { s.evt with incoming := s.evt.incoming ++
       [⟨BitVec.ofNat 16 (0x1F00 + fld w 0 8), coreIni c, s.tb.cnt, some (s.partOf c), false, false⟩] } }) ∧
     (opOpc w = 0x56 → sigOk → rem = false → target = c → exec (.sigx c .none) s =
       .next (s.withSpdSeq c { k.spd with sync := SMap.set 0 k.spd.sync obj (k.sync obj + b) } q.advance)) ∧
     (opOpc w = 0x56 → sigOk → rem = false → target ≠ c → exec (.sigx c .none) s =
       .next ((s.remoteSignal target (coreIni c) obj b).withSeq c q.advance)) ∧
     (opOpc w = 0x56 → sigOk → rem = true → exec (.sigx c .none) s =
       .next ((s.fabSignal (coreIni c) (BitVec.ofNat 15 (fld a 15 15)) (fld a 9 5) obj b).withSeq c q.advance)) ∧
     (opOpc w = 0x56 → ¬ sigOk → exec (.sigx c .none) s = .next (s.failTask c 0x88)))

/-- ISSUE queues the command that its registers spell, with the engine, the opcode and the partition put in by hardware;
it blocks while the queue or the in-flight count is full (R66, R68, R70). -/
def Obligations.IssueQueuesACommand : Prop :=
  ∀ (s : State) (c : CoreId) (w : Word) (e : Fin 7), opOpc w = 0x80 + e.val →
    let k := s.cores[c]
    let q := k.seq
    let room := k.engines[e].queue.length < 64 ∧ k.inFlight < 512
    let queued (x : EngCmd) := (s.modEng c e fun g => { g with queue := g.queue ++ [x] }).withSeq c q.advance
    let spelt (x : EngCmd) := x.w1 = q.srcA w ∧ x.w2 = q.srcB w ∧ x.w3 = q.reg (fld w 0 5) ∧ fld x.w0 0 4 = e.val ∧
      x.opc = fld w 24 8 ∧ x.part = s.partOf c ∧ fld x.w0 12 38 = fld (q.srcD w) 12 38 ∧ fld x.w0 52 12 = fld (q.srcD w) 52 12
    (s.Executes c w → room → ∃ x, spelt x ∧ exec (.issue c .none) s = .next (queued x)) ∧
    (s.Executes c w → ¬ room → exec (.issue c .none) s = .next (s.withSeq c { q with phase := .waiting .issue })) ∧
    (q.phase = .waiting .issue → k.word = w → room → ∃ x, spelt x ∧ exec (.issueUnblock c) s = .next (queued x))

/-- A performed command completes: its narrow writes leave the Cuff, then SETOP, then CSYNC (R27, R69); a CAST in grid mode once its
points are applied and its status block is written (R187). -/
def Obligations.EngineCommandCompletes : Prop :=
  ∀ (s : State) (c : CoreId) (e : Fin 7) (x : EngCmd) (rest : List ActiveCmd), s.cores[c].engines[e].active = ⟨x, true⟩ :: rest →
    let k := s.cores[c]
    let p := k.spd.flushIf fun y => bit y.owners e.val
    let p1 := if x.setop = 1 then p.setTag x.settag true else if x.setop = 2 then p.setTag x.settag false else p
    let p2 := if x.csen then { p1 with sync := SMap.set 0 p1.sync x.csync (SMap.get 0 p1.sync x.csync + 1) } else p1
    let done : State := { s with cores := (s.cores.set c { k with spd := p2, engines := k.engines.set e { k.engines[e] with active := rest } }) }
    ((e = 5 → bit x.w0 56 = true) → exec (.engineCommandComplete c e) s = .next done ∧ s.engineComplete c e = done) ∧
    (∀ d due, e = 5 → bit x.w0 56 = false → k.geo.rayDue = d :: due →
      (s.onTheWay c d.job = true → exec (.engineCommandComplete c e) s = .next s) ∧
      (s.onTheWay c d.job = false → k.spd.lineOn (d.stat / 256) = true → k.spd.mayWrite (d.stat / 256) = true →
        exec (.engineCommandComplete c e) s =
          .next (((s.modCore c fun y => { y with geo := { y.geo with rayDue := due } }).bankWrite c d.stat d.block).engineComplete c e)))

/-! ### Scratchpads, windows, signals and launch (chapter 03) -/

/-- Writes of IMEM, of tag descriptors and of SPD_CLR, the Cuff's own flush, and the storage faults of a scratchpad (R41, R82, R86, R87, R108). -/
def Obligations.TablesAndFaults : Prop :=
  (∀ (s : State) (c : CoreId) (ini : Initiator) (h : Half) (v : Word),
     let k := s.cores[c]
     let p := k.spd
     let owns := ini.val = 0x60 ∨ ini.val = BitVec.ofNat 8 (0x20 + c.val)
     let withSpd (p' : SpdState) : Answer := .next { s with cores := s.cores.set c { k with spd := p' } }
     (∀ i : Fin 32768, owns → k.seq.phase = .idle → exec (.imemWrite c ini i h v) s =
       .next { s with cores := s.cores.set c { k with imem := SMap.set 0 k.imem i (mergeHalf h (SMap.get 0 k.imem i) v) } }) ∧
     (∀ i : Fin 32768, owns → k.seq.phase ≠ .idle → exec (.imemWrite c ini i h v) s = .next (s.postCore c 0x1030)) ∧
     (∀ i : Fin 32768, ¬ owns → exec (.imemWrite c ini i h v) s = .next s) ∧
     (∀ t : Fin 4096, let x := mergeHalf h (p.tag t).word v
       let d : TagDesc := ⟨bit x 23, bit x 22, fld x 18 4, fld x 0 15⟩
       (owns → k.seq.phase = .idle → fld x 0 15 % 2 ^ fld x 18 4 = 0 →
         exec (.tagdescWrite c ini t h v) s = withSpd { p with tags := SMap.set TagDesc.zero p.tags t d }) ∧
       (owns → k.seq.phase = .idle → fld x 0 15 % 2 ^ fld x 18 4 ≠ 0 →
         exec (.tagdescWrite c ini t h v) s = .next (s.postCore c 0x1111)) ∧
       (owns → k.seq.phase ≠ .idle → exec (.tagdescWrite c ini t h v) s = .next (s.postCore c 0x1110)) ∧
       (¬ owns → exec (.tagdescWrite c ini t h v) s = .next s)) ∧
     (bit v 0 = true → h ≠ .high → exec (.spdClr c h v) s =
       withSpd { p with wviol := 0, sgref := 0, cecc := 0, lastIni := 0, lastOff := 0 }) ∧
     (bit v 0 = false → h ≠ .high → exec (.spdClr c h v) s = .next s) ∧
     (∀ line, exec (.cuffIdleFlush c line) s = withSpd (p.flushIf fun e => decide (e.line = line)))) ∧
  (∀ (s : State) (c : CoreId),
     let k := s.cores[c]
     exec (.spdParityError c .bankSingle) s = .next (s.spdCorrected c) ∧
     (s.spdCorrected c).cores[c].spd.cecc = min 0xFFFF (k.spd.cecc + 1) ∧
     (s.spdCorrected c).evt.incoming = s.evt.incoming ++ [⟨0x1120, coreIni c, s.tb.cnt, some (s.partOf c), false, false⟩] ∧
     exec (.spdParityError c .bankDouble) s = .next (s.failTask c 0x8B) ∧
     (k.seq.phase = .running → exec (.spdParityError c .control) s = .next (s.failTask c 0x8C)) ∧
     (k.seq.phase = .preparing → ∃ t, exec (.spdParityError c .control) s = .next t ∧ t.cores[c].seq.phase = .idle ∧
       bit t.flt.fenced c.val = true ∧ t.cores[c].spd.slots[k.seq.slot].state = .done ∧
       t.cores[c].spd.slots[k.seq.slot].status = 0x8C) ∧
     (k.seq.phase = .idle → ∃ t, exec (.spdParityError c .control) s = .next t ∧ t.evt = s.evt ∧
       ∀ i : Fin 4, t.cores[c].spd.slots[i] = if k.spd.slots[i].state = .pending then
         { k.spd.slots[i] with state := .done, status := 0x8C } else k.spd.slots[i]))

/-- Window writes and remote signals: stored or added where window, gate and filter pass them, else counted and posted; a signal waits
behind a write of its sender; a link that fails twice stops (R91 to R98, R423). -/
def Obligations.WindowsAndSignals : Prop :=
  (∀ (s : State) (c : CoreId) (ini : Initiator) (off : Nat) (data : List Byte), lineWriteOk off data = true →
     let k := s.cores[c]
     let p := k.spd
     let withSpd (p' : SpdState) : State := { (s.wakeDie (dieOf c)) with cores := s.cores.set c { k with spd := p' } }
     let taken := ∃ n x, (n, x) ∈ p.windows ∧ x.isOpen = true ∧ x.base ≤ off ∧ off + data.length ≤ x.base + x.len ∧
       ini.val &&& x.mask = x.matchv &&& x.mask
     let arrives := s.reachesCore ini c = true
     let accepted := arrives ∧ off + data.length ≤ 0x800000 ∧ s.partFilter c ini = true ∧ taken
     let dropped : Answer := .next ((withSpd
       { p with wviol := min 0xFFFF (p.wviol + 1), lastIni := ini.val, lastOff := off % 2 ^ 24 }).postCore c 0x1101)
     (accepted → k.preparingBank off = false → bit p.bankOn (off / 0x80000) = true →
       exec (.windowWrite c ⟨ini, .none⟩ off data) s = .next (withSpd { p with mem := p.mem.write off data })) ∧
     (accepted → k.preparingBank off = true →
       exec (.windowWrite c ⟨ini, .none⟩ off data) s = .next (withSpd { p with held := p.held ++ [.write (.ini ini) off data] })) ∧
     (accepted → k.preparingBank off = false → bit p.bankOn (off / 0x80000) = false →
       exec (.windowWrite c ⟨ini, .none⟩ off data) s = dropped) ∧
     (arrives → ¬ accepted → exec (.windowWrite c ⟨ini, .none⟩ off data) s = dropped) ∧
     (¬ arrives → exec (.windowWrite c ⟨ini, .none⟩ off data) s = .next s) ∧
     (s.partFilter c ini = true ↔ (2 ≤ (s.partOf c).val ∨
       (ini.val.toNat < 0x80 ∧ (ini.val.toNat < 0x40 → s.partOf (Fin.ofNat 32 ini.val.toNat) = s.partOf c))))) ∧
  (∀ (s : State) (c : CoreId) (ini : Initiator) (n : Fin 512) (v : Word),
     let k := s.cores[c]
     let p := k.spd
     let withSpd (p' : SpdState) : State := { (s.wakeDie (dieOf c)) with cores := s.cores.set c { k with spd := p' } }
     let gate := p.sgBase ≤ n.val ∧ n.val < p.sgBase + p.sgCnt ∧ ini.val &&& p.sgMask = p.sgMatch &&& p.sgMask ∧
       s.partFilter c ini = true
     let arrives := s.reachesCore ini c = true
     let behind := ∃ off data, HeldAccess.write (.ini ini) off data ∈ p.held
     let added : Answer := .next (withSpd { p with sync := SMap.set 0 p.sync n.val (k.sync n.val + v) })
     let waits : Answer := .next (withSpd { p with held := p.held ++ [.signal (.ini ini) n v] })
     let refused : Answer := .next ((withSpd { p with sgref := min 0xFFFF (p.sgref + 1) }).postCore c 0x1102)
     (arrives → gate → ¬ behind → exec (.remoteSignal c ⟨ini, .none⟩ n v) s = added) ∧
     (arrives → gate → behind → exec (.remoteSignal c ⟨ini, .none⟩ n v) s = waits) ∧
     (arrives → ¬ gate → exec (.remoteSignal c ⟨ini, .none⟩ n v) s = refused) ∧
     (¬ arrives → exec (.remoteSignal c ⟨ini, .none⟩ n v) s = .next s) ∧
     (ini.val = 0x60 → arrives → gate → ¬ behind → exec (.syncaddWrite c ini n .full v) s = added) ∧
     (ini.val = 0x60 → arrives → gate → behind → exec (.syncaddWrite c ini n .full v) s = waits) ∧
     (ini.val = 0x60 → arrives → ¬ gate → exec (.syncaddWrite c ini n .full v) s = refused) ∧
     (∀ h, h ≠ .full ∨ ini.val ≠ 0x60 → exec (.syncaddWrite c ini n h v) s = refused) ∧
     (∀ i l, (cdPath (dieOf c) (iniDie ini))[i]? = some l → exec (.remoteSignal c ⟨ini, (.link i true)⟩ n v) s =
       .next (({ s with net := { s.net with stopped := l :: s.net.stopped.erase l } } : State).postPart 0x6090 0xC9 none)))

/-- From a record written to a task running, and what a launch is refused for, first cause first (R40, R99 to R104). -/
def Obligations.LaunchingTasks : Prop :=
  (∀ (s : State) (c : CoreId) (i : Fin 4),
     let k := s.cores[c]
     let p := k.spd
     let r := p.slots[i].record
     let n : Fin 128 := Fin.ofNat 128 (4 * c.val + i.val)
     (∀ data, data.length = 64 → s.pwr.mode = .run → p.slots[i].state = .empty ∨ p.slots[i].state = .done →
       exec (.launchRecordWrite n pf0 0 data) s =
         .next (({ s with cores := s.cores.set c { k with spd := { p with slots := p.slots.set i { p.slots[i] with
           record := recStore r 0 data, state := .pending,
           seqno := BitVec.ofNat 32 (recField (recStore r 0 data) 0x10 4) } } } }).wakeDie (dieOf c))) ∧
     (∀ off data, bytesIn off data 0x40 = true → s.pwr.mode = .run → p.slots[i].state = .pending ∨ p.slots[i].state = .running →
       exec (.launchRecordWrite n pf0 off data) s = .next (s.postCore c 0x1131)) ∧
     (s.pwr.mode = .run → s.pwr.trip = false → k.seq.phase = .idle → bit s.pwr.nap (dieOf c).val = false →
       (s.gnt.mode = .test ∨ s.gnt.mode = .failed → 2 ≤ (s.partOf c).val) → p.nextPending = some i →
       let taken : SpdState := { p with lastTaken := some i, slots := p.slots.set i { p.slots[i] with state := .running } }
       (s.launchRefusal c r = none → exec (.launchSlotTake c) s =
         .next (s.withSpdSeq c (taken.prepare r) { k.seq with phase := .preparing, slot := i })) ∧
       (∀ st, s.launchRefusal c r = some st → exec (.launchSlotTake c) s =
         .next (((s.withSpdSeq c taken k.seq).slotDone c i st false true).postCore c (0x1000 + st)))) ∧
     (k.seq.phase = .preparing → k.seq.slot = i →
       ∃ q, exec (.taskStart c) s = .next ((s.withSpdSeq c (p.ready r) q).modCore c fun x => { x with geo := k.geo.noGrid }) ∧ q.phase = .running ∧ q.pc = fld r 0 15 ∧ q.flags = 0 ∧
         q.loops = [] ∧ q.calls = [] ∧ q.clk = 0 ∧ q.slot = i ∧ q.budget = BitVec.ofNat 32 (recField r 0x0C 4) ∧
         ∀ j : Fin 32, q.regs[j] = if 1 ≤ j.val ∧ j.val ≤ 4 then BitVec.ofNat 64 (recField r (0x18 + 8 * j.val) 8) else 0)) ∧
  (∀ (s : State) (c : CoreId) (r : Rec64),
     let set := recField r 8 4
     let reserved := fld r 15 1 ≠ 0 ∨ fld r 19 5 ≠ 0 ∨ recField r 3 1 ≠ 0 ∨ fld r 169 6 ≠ 0 ∨ fld r 185 7 ≠ 0 ∨ fld r 202 6 ≠ 0 ∨
       recField r 0x1C 4 ≠ 0 ∨ 512 < fld r 176 9 + fld r 192 10
     let missing := set.testBit c.val = false ∨ ∃ d : CoreId, set.testBit d.val = true ∧ bit s.flt.unbound d.val = true
     let mixed := ∃ d : CoreId, set.testBit d.val = true ∧ s.partOf d ≠ s.partOf c
     let stopped := bit s.flt.fenced c.val = true ∨ s.flt.part[s.partOf c] ≠ .running
     (reserved → s.launchRefusal c r = some 0x90) ∧ (¬ reserved → missing → s.launchRefusal c r = some 0x91) ∧
     (¬ reserved → ¬ missing → mixed → s.launchRefusal c r = some 0x92) ∧
     (¬ reserved → ¬ missing → ¬ mixed → stopped → s.launchRefusal c r = some 0x93) ∧
     (¬ reserved → ¬ missing → ¬ mixed → ¬ stopped → s.launchRefusal c r = none))

/-! ### Engines (chapters 02 and 05 to 11) -/

/-- How an engine takes its queue; VSET; and the registers of the vector, select and matrix engines (R67, R69, R71, R207, R210, R255, R263, R282). -/
def Obligations.EngineQueues : Prop :=
  (∀ (s : State) (i : Instr) (r : EngineRow), engineRow i = some r →
     let k := s.cores[r.core]
     let g := k.engines[r.engine]
     (g.current = none → g.queue = [] → exec i s = .next s) ∧
     (∀ q rest, g.current = none → g.queue = q :: rest → q.opc = r.opc → q.mayStart k.spd = true →
       exec i s = exec i (s.modEng r.core r.engine EngState.start) ∧
       (s.modEng r.core r.engine EngState.start).cores[r.core].engines[r.engine].current = some q) ∧
     (∀ q rest, g.current = none → g.queue = q :: rest → q.mayStart k.spd = false → exec i s = .next s) ∧
     (∀ q, g.current = some q → q.opc = r.opc → q.headerBad = true →
       exec i s = .next (s.engineRefuse r.core r.engine r.event (coreIni r.core))) ∧
     (∀ q, g.current = some q → q.opc ∈ engineOpcodes r.engine → q.opc ≠ r.opc → exec i s = .next s) ∧
     (∀ (q : EngCmd) (p : SpdState), q.mayStart p = true ↔ (q.waitop = 1 → (p.tag q.waittag).full = true) ∧ (q.waitop = 2 → (p.tag q.waittag).full = false))) ∧
  (∀ (s : State) (c : CoreId) (h : Half) (v : Word),
     let k := s.cores[c]
     let withCore (k' : CoreSt) : Answer := .next { s with cores := s.cores.set c k' }
     (∀ q n, s.Works c 2 q n → q.opc = 8 → q.cspec < 16 → q.w2 = 0 → q.w3 = 0 → fld q.w1 23 41 = 0 → fld q.w1 0 23 % 512 = 0 →
       exec (.vset c) s =
         .next ((s.modCore c fun k => { k with vec := { k.vec with stbase := some (fld q.w1 0 23) } }).performed c 2)) ∧
     (∀ (i : Fin 16) (ini : Initiator), ini.val = 0x60 ∨ ini.val = 0x70 → exec (.satcfgWrite c i ini .full v) s =
       withCore { k with vec := { k.vec with sat := k.vec.sat.set i { k.vec.sat[i] with
         win := fld v 32 32, thr := fld v 0 32, wcnt := 0, wrows := 0, told := false } } }) ∧
     (∀ (i : Fin 16) (ini : Initiator), ini.val ≠ 0x60 → ini.val ≠ 0x70 → exec (.satcfgWrite c i ini h v) s = .next s) ∧
     (bit v 0 = true → h ≠ .high →
       exec (.vclr c h v) s = withCore { k with vec := { k.vec with vcnt := 0, sat := k.vec.sat.map fun t => { t with total := 0 } } } ∧
       exec (.selclr c h v) s = withCore { k with selcnt := 0 }) ∧
     (bit v 0 = true → h ≠ .high →
       exec (.mxclr c h v) s = withCore { k with mxe := { k.mxe with mxcnt := 0 } } ∧
       exec (.spclr c h v) s = withCore { k with mxe := { k.mxe with spcnt := 0 } }) ∧
     (bit v 0 = false ∨ h = .high → exec (.vclr c h v) s = .next s ∧ exec (.selclr c h v) s = .next s ∧
       exec (.mxclr c h v) s = .next s ∧ exec (.spclr c h v) s = .next s) ∧
     (k.mxe.ramp ≠ .up → 0 < k.mxe.groups → 32 + 8 * (8 - k.mxe.groups) ≤ k.mxe.idleClk → exec (.mxeRampDown c) s =
       withCore { k with mxe := { k.mxe with groups := k.mxe.groups - 1, ramp := if k.mxe.groups = 1 then .idle else .down } }) ∧
     (k.mxe.idleClk < 32 → exec (.mxeRampDown c) s = .next s) ∧
     (∀ f, exec (.mxeResidueError c f) s =
       .next ((((s.modCore c fun k => k.countFault f).postCore c (engFaultCode f)).failTask c 0x8C).fenceCore c)))

/-- FET copies the lines it names, in order, and nothing else; it waits at a line whose slot tag does not permit the write (R72, R88). -/
def Obligations.FetchEngine : Prop :=
  ∀ (s : State) (c : CoreId) (q : EngCmd) (n : Nat), s.Works c 0 q n → s.cores[c].spd.mem.wf = true → fetFormOk q = true →
    let p := s.cores[c].spd
    let who : DdrWho := .part (coreIni c) q.part
    let src := fld q.w1 0 48
    let dst := fld q.w2 0 23
    let len := fld q.w2 32 32
    let rows := fld q.w3 0 32
    let stride := fld q.w3 32 32
    let onlyMem (t : State) := OnlyGrants s.ddr t.ddr ∧
      ∃ m, t = { s with ddr := t.ddr, cores := s.cores.set c { s.cores[c] with spd := { p with mem := m } } }
    (q.opc = 1 → n = 0 → q.w3 = 0 → dst + len ≤ 0x800000 → p.Writable [(dst, len)] →
      (∀ i < len / 256, s.Readable who (src + 256 * i) 256) →
      ∃ t, exec (.fetLinear c) s = .next (t.performed c 0) ∧ onlyMem t ∧
        ∀ x, t.cores[c].spd.mem.byte x =
          if dst ≤ x ∧ x < dst + len then s.ddr.mem.byte (s.ddr.key (src + (x - dst))) else p.mem.byte x) ∧
    (q.opc = 2 → n = 0 → stride % 256 = 0 → len ≤ stride → 1 ≤ rows → rows ≤ 32768 → dst + rows * len ≤ 0x800000 →
      p.Writable [(dst, rows * len)] →
      (∀ r < rows, ∀ i < len / 256, s.Readable who (src + r * stride + 256 * i) 256) →
      ∃ t, exec (.fet2d c) s = .next (t.performed c 0) ∧ onlyMem t ∧
        ∀ x, t.cores[c].spd.mem.byte x =
          if dst ≤ x ∧ x < dst + rows * len then
            s.ddr.mem.byte (s.ddr.key (src + (x - dst) / len * stride + (x - dst) % len)) else p.mem.byte x) ∧
    (q.opc = 1 → q.w3 = 0 → dst + len ≤ 0x800000 → n < len / 256 → p.lineOn (dst / 256 + n) = true →
      p.mayWrite (dst / 256 + n) = false → exec (.fetLinear c) s = .next (s.partlyTo c 0 n))

/-- Queries, downsampling and ray casting: a command in order whose lines may be read is performed, on its own core
only (R163 to R171, R179 to R189). -/
def Obligations.GeometryAndRays : Prop :=
  ∀ (s : State) (c : CoreId) (q : EngCmd) (n : Nat),
    let p := s.cores[c].spd
    let g := s.cores[c].geo
    let x := queryCmd q
    let y := rayCmd p q
    let queryReady := p.Ready x.entryReads ∧ p.Ready (p.listReads x) ∧ p.Ready (p.candReads x)
    (s.Works c 4 q n → q.opc = 0x20 → queryOk q false = true → queryReady →
      ∃ t, s.ball c q = .done t ∧ exec (.ball c) s = .next (t.performed c 4) ∧ OnlyCore s t c) ∧
    (s.Works c 4 q n → q.opc = 0x21 → queryOk q true = true → queryReady →
      ∃ t, s.knnc c q = .done t ∧ exec (.knnc c) s = .next (t.performed c 4) ∧ OnlyCore s t c) ∧
    (s.Works c 4 q n → q.opc = 0x22 → p.mem.wf = true →
      let clo := fld q.w1 44 20
      let cb := fld q.w2 0 23
      let m := fld q.w2 24 20
      let k := fld q.w2 44 13
      let out := fld q.w3 0 23
      let wk := fld q.w3 32 23
      fld q.w0 56 8 = 0 → fld q.w1 0 44 = 0 → fld q.w2 23 1 = 0 → fld q.w2 57 7 = 0 → fld q.w3 23 9 = 0 → fld q.w3 55 9 = 0 →
      cb % 16 = 0 → out % 16 = 0 → wk % 256 = 0 → 1 ≤ k → k ≤ 4096 → k ≤ m → m ≤ 524288 →
      cb + 16 * (clo + m) ≤ 0x800000 → out + 4 * k ≤ 0x800000 → wk + 8 * m ≤ 0x800000 →
      p.Ready [(cb + 16 * clo, 16 * m)] → p.Writable [(wk, 8 * m)] → (k = 1 ∨ p.Ready [(wk, 8 * m)]) →
      ∃ t, s.fps c q = .done t ∧ exec (.fps c) s = .next (t.performed c 4) ∧ OnlyCore s t c ∧
        (p.Writable [(out, 4 * k)] → overlap wk (8 * m) (cb + 16 * clo) (16 * m) = false → overlap wk (8 * m) out (4 * k) = false →
          overlap out (4 * k) (cb + 16 * clo) (16 * m) = false → (t.performed c 4).cores[c].spd.mem.num out 4 = clo)) ∧
    (s.Works c 4 q n → q.opc = 0x23 → vdownOk q g = true → p.Ready [(gdAccBase g.desc, 512 * g.lcount)] →
      ∃ t, s.vdown c q = .done t ∧ exec (.vdown c) s = .next (t.performed c 4) ∧ (g.spl = [] → OnlyCore s t c)) ∧
    (s.Works c 5 q n → q.opc = 1 → rayWordsOk q = true →
      p.Ready [(fld q.w1 0 23, 64), (fld q.w1 23 23, 64), (fld q.w2 0 23, 64)] → y.ok = true → y.extOk = true →
      (n = 0 → y.omode = false → g.st = 1) →
      p.Ready [(mBeams y.smod, 4 * mNbeam y.smod), (mAtt y.smod, 128), (mExt y.smod, 64)] → p.Ready (y.sceneReads p) →
      ∃ t, s.cast c q = .done t ∧ exec (.cast c) s = .next (t.performed c 5) ∧ OnlyCore s t c)

/-- The matrix engine: a command in order whose lines may be read, every cube group enabled, is performed; an integer entry of C is
the accumulation of R199 and R202, and nothing outside C and the status block is written; a command that finds groups disabled
ramps up first (R195 to R204, R207, R216 to R233). -/
def Obligations.MatrixAndSparse : Prop :=
  ∀ (s : State) (c : CoreId) (q : EngCmd) (n : Nat), s.Works c 1 q n → s.cores[c].spd.mem.wf = true →
    let p := s.cores[c].spd
    let x := mmCmd q
    let on := s.cores[c].mxe.ready = true
    let cn := tileBytes x.fmt * (x.mb * x.nb)
    let zeroPoints (y : MmCmd) := y.zpen = true →
      p.Ready [(y.zoff, 16 * (y.mb + y.nb))] ∧ zpNibbleBad p y.fmt y.zoff (16 * (y.mb + y.nb)) = false
    (q.opc = 1 → mmOk q = true → on → zeroPoints x → p.Ready x.reads →
      ∃ t, s.mmul c q = .done t ∧ exec (.mmul c) s = .next (t.performed c 1) ∧ OnlyCore s t c ∧
        (p.Writable ((x.coff, cn) :: if x.sen then [(x.soff, 8)] else []) →
          let m' := (t.performed c 1).cores[c].spd.mem
          (∀ a, (a < x.coff ∨ x.coff + cn ≤ a) → (x.sen = true → a < x.soff ∨ x.soff + 8 ≤ a) → m'.byte a = p.mem.byte a) ∧
          (x.fmt ≤ 1 ∨ x.fmt = 9 → ∀ m < x.mb, ∀ k < x.nb, ∀ r < 16, ∀ j < 16,
            m'.num (x.coff + 1024 * (m * x.nb + k) + 4 * (16 * r + j)) 4 = wrapN 32 (mmIntEntry p x m k r j).1))) ∧
    (q.opc = 1 → mmOk q = true → n = 0 → ¬ on → exec (.mmul c) s = .next ((s.modMxe c MxeState.rampUp).partly c 1)) ∧
    (q.opc = 0x10 → spOk q = true → on →
      let y := spCmd q
      let io := spIndex q
      let ls := (List.range (y.nb * y.kl)).map fun i => spLine p y.fmt y.boff (spEntry p io i)
      zeroPoints y → p.Ready [(io, 8 * (y.nb * y.kl))] →
      p.Ready ((List.range (y.nb * y.kl)).flatMap fun i => spHead y.fmt y.boff (spEntry p io i)) →
      p.Ready ([(y.aoff, 256 * (y.mb * y.kl))] ++ spRecords p y io ls ++ if y.acc then [(y.coff, 1024 * (y.mb * y.nb))] else []) →
      ∃ t, s.spmm c q = .done t ∧ exec (.spmm c) s = .next (t.performed c 1) ∧ OnlyCore s t c) ∧
    (q.opc = 0x11 → nbOk q = true →
      let y := nbCmd q
      p.Ready [(y.recs, 128 * y.nrec)] → p.Ready (nbReads c p y) →
      ∃ t, s.nbmap c q = .done t ∧ exec (.nbmap c) s = .next (t.performed c 1) ∧ OnlyCore s t c) ∧
    (q.opc = 0x12 → scWordsOk q = true → on → p.Ready [(fld q.w1 0 23, 64)] →
      let y := scCmd q p
      y.ok p (fld q.w1 0 23) = true → p.Ready [(y.map, 512 * y.nrec)] → p.Ready (y.reads p) →
      ∃ t, s.sconv c q = .done t ∧ exec (.sconv c) s = .next (t.performed c 1) ∧ OnlyCore s t c)

/-- The vector engine: a command in order whose lines may be read is performed (R236 to R263). -/
def Obligations.VectorEngine : Prop :=
  ∀ (s : State) (c : CoreId) (q : EngCmd) (n : Nat), s.Works c 2 q n →
    let p := s.cores[c].spd
    let x := vCmd q
    let ar : Nat × Nat := (x.a.off, x.a.len)
    let da := fld x.w3 0 23
    let d := scaleDesc p da
    let ready (ins : List (Nat × Nat)) := p.Ready (ins ++ x.recordRange s.cores[c].vec)
    x.common q s.cores[c].vec = true →
    (q.opc = 1 → x.ewOk = true →
      let outs := (x.d.off, x.d.len) :: if x.sums then [(x.roff, 4 * x.a.rows)] else []
      rangesOk (x.bRange ++ if x.a = x.d then [] else [ar]) outs = true →
      ready (ar :: (x.bRange ++ if x.eop = 3 then [(x.d.off, x.d.len)] else [])) →
      ∃ t, s.ew c q = .done t ∧ exec (.ew c) s = .next (t.performed c 2) ∧ OnlyCore s t c) ∧
    (q.opc = 3 → x.opx = 0 → x.d.fmt = 0 → fld x.w3 0 3 ≤ 4 → fld x.w3 3 61 = 0 →
      rangesOk [ar] [(x.d.off, x.redBytes * x.a.rows)] = true → ready [ar] →
      ∃ t, s.red c q = .done t ∧ exec (.red c) s = .next (t.performed c 2) ∧ OnlyCore s t c) ∧
    (q.opc = 4 → x.qntOk = true → p.Ready [(da, 64)] → x.qntDescOk d = true →
      rangesOk (x.qntIns d) (x.qntOuts d) = true → ready (x.qntIns d ++ if d.hen && d.hacc then [d.histRange] else []) →
      ∃ t, s.qnt c q = .done t ∧ exec (.qnt c) s = .next (t.performed c 2) ∧ OnlyCore s t c) ∧
    (q.opc = 5 → x.a.fmt = 7 → vInt x.d.fmt = true → x.d.ok = true → x.opx = 0 → fld x.w3 48 16 = 0 → x.msrc < 3 →
      (x.msrc ≠ 0 → x.vfb = 0) →
      let table : List (Nat × Nat) := if x.msrc = 0 then [] else [(x.boff, 8 * x.rqEntries)]
      rangesOk (ar :: table) [(x.d.off, x.d.len)] = true → p.Ready table → (∀ i < x.rqEntries, p.num (x.boff + 8 * i) 8 < 2 ^ 46) →
      ready (ar :: table) →
      ∃ t, s.rq c q = .done t ∧ exec (.rq c) s = .next (t.performed c 2) ∧ OnlyCore s t c) ∧
    (q.opc = 6 → vInt x.a.fmt = true ∨ vFp8 x.a.fmt = true → 4 ≤ x.d.fmt → x.d.fmt ≤ 6 → x.d.ok = true → x.opx = 0 →
      descWordOk x.w3 = true → p.Ready [(da, 64)] → x.dqDescOk d = true →
      rangesOk (x.dqIns d) [(x.d.off, x.d.len)] = true → ready (x.dqIns d) →
      ∃ t, s.dq c q = .done t ∧ exec (.dq c) s = .next (t.performed c 2) ∧ OnlyCore s t c) ∧
    (q.opc = 7 → x.opx = 0 → x.d.fmt = 0 → descWordOk x.w3 = true → p.Ready [(da, 64)] → d.hen = true → d.histOk = true →
      rangesOk [ar, (da, 64)] [d.histRange] = true → ready (ar :: if d.hacc then [d.histRange] else []) →
      ∃ t, s.hist c q = .done t ∧ exec (.hist c) s = .next (t.performed c 2) ∧ OnlyCore s t c)

/-- The select engine: a command in order whose lines may be read is performed (R265 to R282). -/
def Obligations.SelectEngine : Prop :=
  ∀ (s : State) (c : CoreId) (q : EngCmd) (n : Nat), s.Works c 3 q n →
    let p := s.cores[c].spd
    let x := selCmd q
    let kb := keyBytes x.kf
    let done (run : EngineRun) (row : Instr) := ∃ t, run = .done t ∧ exec row s = .next (t.performed c 3) ∧ OnlyCore s t c
    let r := x.par p
    let ins := x.segments r ++ x.parRange
    let out : Nat × Nat := (x.ooff, x.ostr * x.nseg)
    (x.segOk q = true → rangesOk x.parRange [] = true → p.Ready x.parRange → r.ok = true →
      p.Ready (x.heads r) → p.Ready (x.segReads p r) →
      (q.opc = 1 → x.k = 1 → rangesOk ins [out] = true → done (s.argmax c q) (.argmax c)) ∧
      (q.opc = 2 → x.k ≤ x.n → (16384 < x.k → x.n ≤ 262144) →
        rangesOk (ins ++ if 16384 < x.k then [(x.woff, x.n * pairBytes x.kf)] else []) [out] = true →
        done (s.topkRun c q) (.topk c)) ∧
      (q.opc = 3 → x.k ≤ x.n → x.k ≤ 16384 → x.pen = true → 1 ≤ r.bper → r.bper ≤ 8 → 2 ≤ r.nbkt → r.nbkt ≤ 4096 →
        x.k ≤ r.nbkt * r.bper → r.nbkt * r.bper ≤ 16384 → rangesOk ins [out] = true → done (s.btopkRun c q) (.btopk c)) ∧
      (q.opc = 5 → x.iform < 2 → x.n ≤ 262144 → x.k = 1 → x.vout = false → x.sumen = false →
        let len := x.n * pairBytes x.kf
        rangesOk (ins ++ [(x.woff, len)]) [(x.ooff, (len + 15) / 16 * 16 * x.nseg)] = true → done (s.sortRun c q) (.sort c))) ∧
    (q.opc = 4 → x.words q = true → fld q.w1 23 20 = 0 → fld q.w1 49 14 = 0 → x.iform = 0 → fld q.w3 0 46 = 0 →
      (x.sumen = true → x.pen = false ∧ x.kf ≠ 4) →
      let tab : Nat × Nat := (x.ioff, 4 * (fld q.w1 43 6 + 1))
      let offs := (List.range (fld q.w1 43 6 + 1)).map fun i => p.num (x.ioff + 4 * i) 4
      let ms := (offs.map (mList p)).map fun l => (l.off, 32 + l.valid * pairBytes x.kf)
      rangesOk [tab] [(x.ooff, x.ostr)] = true → p.Ready [tab] → (∀ o ∈ offs, o < 2 ^ 23 ∧ o % 16 = 0 ∧ o + 32 ≤ 0x800000) →
      p.Ready (offs.map fun o => (o, 32)) → rangesOk (tab :: ms) [(x.ooff, x.ostr)] = true → p.Ready ms →
      done (s.mergeRun c q) (.merge c)) ∧
    (q.opc = 6 → x.words q = true → x.ooff % 16 = 0 → x.n ≤ 524288 → x.nseg = 1 → fld q.w2 23 20 = 0 → x.iform < 2 →
      x.vout = false → x.sumen = false → x.poff % 16 = 0 → fld q.w3 43 21 = 0 → fld q.w3 23 20 + 1 ≤ 524288 →
      let sIns : List (Nat × Nat) := [(x.ioff, x.n * if x.iform = 0 then kb else pairBytes x.kf), (x.poff, (fld q.w3 23 20 + 1) * kb)]
      rangesOk sIns [(x.ooff, 8 * (fld q.w3 23 20 + 1))] = true → p.Ready sIns → done (s.searchRun c q) (.search c))

/-- What a selection is: as many elements as asked for or there are, in rank order, and none left out ranks before one taken;
the order of keys puts NaNs first and is otherwise by value (R266, R272). -/
def Obligations.TopKIsTopK : Prop :=
  ∀ (x : SelCmd) (l : List SelElem), (l.map (·.pos)).Nodup →
    let z := (x.topk l).sel
    let before (a b : SelElem) := ranksBefore x.kf x.dir a.key b.key = true
    z.length = min x.k l.length ∧ (∀ e ∈ z, e ∈ l) ∧ z.Nodup ∧ z.Pairwise (fun a b => ¬ before b a) ∧
      ∀ e ∈ z, ∀ f ∈ l, f ∉ z → ¬ before f e

/-- The grid commands of GEO, the builders' own steps, the spill registers and the builders' faults (R144 to R159). -/
def Obligations.GridsAndBuilders : Prop :=
  (∀ (s : State) (c : CoreId) (q : EngCmd),
     let p := s.cores[c].spd
     let g := s.cores[c].geo
     let a := fld q.w1 0 23
     let e : Fin 7 := 4
     (s.Works c 4 q 0 → q.opc = 0x10 → q.cspec = 0 → fld q.w1 23 41 = 0 → q.w2 = 0 → q.w3 = 0 → a % 64 = 0 → p.Ready [(a, 64)] →
       let d : Rec64 := BitVec.ofNat 512 (p.num a 64)
       gdOk d = true → (gdSet d).testBit c.val = true → (∀ o ∈ setCores (gdSet d), s.partOf o = q.part) →
       s.spillOk c q.part d = true → ∃ t, s.ginit c q = .done t ∧ exec (.ginit c) s = .next (t.performed c e) ∧
         t.cores[c].geo.gid = gdGid d ∧ t.cores[c].geo.st = 1 ∧ t.cores[c].geo.desc = d ∧ t.cores[c].geo.table = [] ∧
         t.cores[c].geo.lcount = 0 ∧ (gdSpill d = true → t.grd.holder[q.part] = gdGid d) ∧
         (∀ o, o ≠ c → t.cores[o] = s.cores[o]) ∧ t.cores[c].spd = p) ∧
     (s.Works c 4 q 0 → q.opc = 0x11 → q.cspec = 0 → fld q.w1 23 9 = 0 → fld q.w1 40 24 = 0 → fld q.w2 48 16 = 0 →
       fld q.w3 48 16 = 0 → 1 ≤ fld q.w1 32 8 → fld q.w1 32 8 ≤ 128 → a % 16 = 0 → a + 16 * fld q.w1 32 8 ≤ 0x800000 → g.st ≠ 0 →
       p.Ready [(a, 16 * fld q.w1 32 8)] →
       let raw := (List.range (fld q.w1 32 8)).map fun i => p.wideRead (a + 16 * i) 16
       (∀ r ∈ raw, sweepEntryOk r = true) →
       (∀ r ∈ raw, (sweepEntry r).scr = false → fld q.w2 0 48 % 2 ^ 20 = 0 ∧ fld q.w3 0 48 % 4096 = 0) →
       p.Ready (((raw.map sweepEntry).filter (·.scr)).map fun x => (16 * (scrShare g c x).1, 16 * (scrShare g c x).2)) →
       ∃ t, s.gins c q = .wait 1 t ∧ exec (.gins c) s = .next (t.partly c e) ∧ ∀ o, o ≠ c → t.cores[o] = s.cores[o]) ∧
     (s.Works c 4 q 1 → q.opc = 0x11 → g.outq = [] → exec (.gins c) s = .next (s.performed c e)) ∧
     (s.Works c 4 q 0 → q.opc = 0x12 → q.cspec = 0 → fld q.w1 23 41 = 0 → q.w2 = 0 → q.w3 = 0 → a % 64 = 0 → g.st ≠ 0 →
       exec (.gfin c) s = .next ((s.modCore c fun k => { k with geo := { k.geo with
         outq := k.geo.outq ++ (setCores (gdSet g.desc)).map fun d => (d, .mark g.gid) } }).partly c e)) ∧
     (s.Works c 4 q 1 → q.opc = 0x12 →
       let set := gdSet g.desc
       let ends (s' : State) (k : ScanCounts) : Prop :=
         let t := (s'.gfinEnd c a k).performed c e
         exec (.gfin c) s = .next t ∧ (p.mem.wf = true → p.Writable [(a, 64)] → t.cores[c].geo.st = 2 ∧
           t.cores[c].spd.mem.num a 4 = g.gid.toNat ∧ t.cores[c].spd.mem.num (a + 8) 4 = k.pin % 2 ^ 32 ∧
           t.cores[c].spd.mem.num (a + 12) 4 = k.pins % 2 ^ 32)
       (∀ k, g.exchanged = some k → ends s k) ∧
       (g.exchanged = none → set.testBit c.val = true → (∀ d ∈ setCores set, s.drained g.gid set d = true) →
         ∃ k, (s.exchange set).cores[c].geo.exchanged = some k ∧ ends (s.exchange set) k) ∧
       (g.exchanged = none → (∃ d ∈ setCores set, s.drained g.gid set d = false) → exec (.gfin c) s = .next s)) ∧
     (s.Works c 4 q 0 → q.opc = 0x13 → gnbrOk q g = true →
       let r := s.ownBricks c
       exec (.gnbr c) s = .next ((r.1.modCore c fun k => { k with geo := { k.geo with
         asks := asksOf (gdSet g.desc) r.2, answers := [] } }).partly c e)) ∧
     (s.Works c 4 q 1 → q.opc = 0x13 → g.asks = [] →
       ∃ t, s.gnbr c q = .done t ∧ exec (.gnbr c) s = .next (t.performed c e) ∧ (g.spl = [] → OnlyCore s t c)) ∧
     (s.Works c 4 q 0 → q.opc = 0x14 → q.cspec = 0 → fld q.w1 32 32 = 0 → q.w2 = 0 → q.w3 = 0 → g.st ≠ 0 →
       g.gid.toNat = fld q.w1 0 32 → ∃ t, s.grel c q = .done t ∧ exec (.grel c) s = .next (t.performed c e) ∧
         t.cores[c].geo.gid = 0 ∧ t.cores[c].geo.st = 0 ∧ t.cores[c].geo.table = [] ∧ t.cores[c].geo.lcount = 0 ∧
         (s.grd.holder[q.part] = g.gid → t.grd.holder[q.part] = 0) ∧ ∀ o, o ≠ c → t.cores[o] = s.cores[o])) ∧
  (∀ (s : State) (c : CoreId),
     let g := s.cores[c].geo
     let noneComes := 64 ≤ g.inq.length ∨
       ∀ o : CoreId, (∀ x ∈ s.cores[o].geo.outq, x.1 ≠ c) ∧ ∀ x ∈ s.cores[o].geo.rayq, x.1 ≠ c
     (∀ d p rest, g.inq = (d, .point p) :: rest → noneComes →
       g.st ≠ 0 → p.gid = g.gid → (gdSet g.desc).testBit d.val = true → exec (.builderPointInsert c) s =
         .next ((s.modCore c fun k => { k with geo := { k.geo with inq := rest } }).insertPoint c p)) ∧
     (∀ d p rest, g.inq = (d, .point p) :: rest → noneComes → g.st = 0 ∨ p.gid ≠ g.gid →
       exec (.builderPointInsert c) s = .next ((s.modCore c fun k => { k with geo := { k.geo with
         inq := rest, stray := k.geo.stray + 1 } }).postCore c 0x4106)) ∧
     (∀ d k n rest, (∀ o, o ≠ d → s.cores[o].geo.asks = []) → s.cores[d].geo.asks = (c, k, n) :: rest → d ≠ c →
       g.st = 2 → g.gid = s.cores[d].geo.gid → let r := s.findBrick c k
       ∃ t, exec (.neighbourLookup c) s = .next t ∧
         t.cores[d].geo.asks = rest ∧ t.cores[d].geo.answers = SMap.set nullRef s.cores[d].geo.answers n
           (match r.2 with | some b => brickRef c b | none => nullRef) ∧
         t.cores[c].geo = { g with askTok := d.val } ∧ { t with cores := s.cores } = { r.1 with cores := s.cores } ∧
         (gdSpill g.desc = false → r.1 = s)) ∧
     (∀ (p : Fin 4) (ini : Initiator) (v : Word), ini.val = 0x60 ∨ ini.val = 0x70 → s.grd.holder[p] = 0 →
       exec (.grdSpillWrite p false ini .full v) s =
         .next { s with grd := { s.grd with spbase := s.grd.spbase.set p (v &&& 0x0000FFFFFFFFF000#64) } } ∧
       ((s.grd.quota.set p (fld v 12 7)).toList.foldl (· + ·) 0 ≤ 64 → exec (.grdSpillWrite p true ini .full v) s =
         .next { s with grd := { s.grd with quota := s.grd.quota.set p (fld v 12 7) } })) ∧
     (∀ (p : Fin 4) (ini : Initiator) (ctl : Bool) (h : Half) (v : Word), (ini.val ≠ 0x60 ∧ ini.val ≠ 0x70) ∨ s.grd.holder[p] ≠ 0 →
       exec (.grdSpillWrite p ctl ini h v) s = .next (s.post 0x4111 0xC6)) ∧
     exec (.brickTableEccError c .single) s =
       .next ((s.modCore c fun k => { k with geo := { k.geo with cecc := min 0xFFFF (k.geo.cecc + 1) } }).postCore c 0x4120) ∧
     exec (.brickTableEccError c .double) s = .next (((s.postCore c 0x4121).failTask c 0x8B).fenceCore c) ∧
     exec (.brickTableEccError c .parity) s = .next (((s.postCore c 0x4122).failTask c 0x8C).fenceCore c))

/-! ### Sweep ingest (chapter 04) -/

/-- A sensor port: its link, what it drops and counts, what it queues with both stamps, and what the ingest unit takes from
the queue (R109 to R113). -/
def Obligations.SensorPorts : Prop :=
  ∀ (s : State) (p : Fin 4) (f : List Byte),
    let q := s.ing.port[p]
    let withPort (q' : EthPort) : State := { s with ing := { s.ing with port := s.ing.port.set p q' } }
    let counted (g : PortCounts → PortCounts) : Answer := .next (withPort { q with cnt := g q.cnt })
    let live := q.phy ≠ .off ∧ q.up = true ∧ s.pwr.mode = .run
    let whole := live ∧ 60 ≤ f.length ∧ f.length ≤ 9212 ∧ addressed p f = true ∧ q.clo = false ∧ ptpAt f = none
    (q.phy ≠ .off → q.up = false → exec (.ethLinkUp p) s = .next ((withPort { q with up := true }).post 0x4001 0x58)) ∧
    (q.up = true → exec (.ethLinkDown p) s = .next ((withPort { q with up := false }).post 0x4002 0x58)) ∧
    (live → f.length < 60 → ∀ ok, exec (.frameReceive p f ok) s = counted fun k => { k with runt := k.runt + 1 }) ∧
    (live → 60 ≤ f.length → exec (.frameReceive p f false) s = counted fun k => { k with fcs := k.fcs + 1 }) ∧
    (live → 9212 < f.length → exec (.frameReceive p f true) s = counted fun k => { k with oversize := k.oversize + 1 }) ∧
    (whole → parseFrame f = .drop .ipHdr → exec (.frameReceive p f true) s = counted fun k => { k with ipHdr := k.ipHdr + 1 }) ∧
    (whole → parseFrame f = .drop .fragment →
      exec (.frameReceive p f true) s = counted fun k => { k with fragment := k.fragment + 1 }) ∧
    (whole → parseFrame f = .drop .udpCsum → exec (.frameReceive p f true) s = counted fun k => { k with udpCsum := k.udpCsum + 1 }) ∧
    (∀ d, whole → parseFrame f = .udp d →
      (fifoBytes q + f.length + 4 ≤ 1048576 → exec (.frameReceive p f true) s =
        .next (withPort { q with fifo := q.fifo ++ [.frame ⟨f, s.rxStamp p 0, s.rxStamp p 1, none⟩] })) ∧
      (1048576 < fifoBytes q + f.length + 4 → exec (.frameReceive p f true) s =
        .next ((withPort { q with cnt := { q.cnt with fifo := q.cnt.fifo + 1 } }).ingPost 0x4003 (s.ing.portRings p)))) ∧
    (∀ x rest d, q.fifo = .frame x :: rest → x.golden = none → parseFrame x.bytes = .udp d →
      let ended (u : State) : Answer := .next (u.endPatterns p u.ing.port[p].fifo)
      (s.ing.match' p d = none → exec (.ingestFrameProcess p) s =
        ended (withPort { q with fifo := rest, cnt := { q.cnt with unmatched := q.cnt.unmatched + 1 } })) ∧
      (∀ n, s.ing.match' p d = some n → exec (.ingestFrameProcess p) s =
        ended ((withPort { q with fifo := rest }).ingestFrame p n false d.payload
          (if sensDom s.ing.sens[n] then x.stampB else x.stampA)))) ∧
    (∀ n, q.fifo = [.patternEnd n] → exec (.ingestFrameProcess p) s = .next ((withPort { q with fifo := [] }).sweepClose n true))

/-- A converted point fits its record, and the record reads back as the grid reads it (R116, R118, R133). -/
def Obligations.PointRecordsReadBack : Prop :=
  ∀ (t m : Rec64) (entry : BitVec 32) (f0 f1 f2 f3 : Option Int) (x : Point) (beam flags toff ret stag : Nat),
    convert t m entry f0 f1 f2 f3 = .ok x → beam < 256 → flags < 256 → toff < 65536 → ret < 256 → stag < 256 →
    let r := recordBytes x beam flags toff ret stag
    r.length = 16 ∧ prCoord r 0 = x.x ∧ prCoord r 1 = x.y ∧ prCoord r 2 = x.z ∧ prByte r 9 = x.inten ∧ prByte r 10 = beam ∧
      prByte r 11 = flags ∧ prByte r 14 = ret ∧ prByte r 15 = stag ∧
      (withTrunc r).length = 16 ∧ prCoord (withTrunc r) 2 = x.z ∧ prFlag (withTrunc r) 7 = true ∧
      (tKind t = 1 → ∃ v, f0.getD 0 = v ∧ 0 ≤ v ∧ (tRmin t : Int) ≤ rnd (v * tRscale t) (tRshift t) ∧
        rnd (v * tRscale t) (tRshift t) ≤ tRmax t)

/-- The tables, rings' registers and injection queues of ingest, its record writer and its storage faults (R114 to R129, R542). -/
def Obligations.IngestBlock : Prop :=
  (∀ (s : State) (n : Fin 16) (p : Fin 4) (ini : Initiator) (off : Nat) (data : List Byte) (h : Half) (v : Word),
     let g := s.ing
     let r := g.ring[p]
     let owner := ini.val = 0x60 ∨ ini.val = 0x70
     let refused : Answer := .next (s.post 0x4020 0x58)
     let withIng (g' : IngState) : State := { s with ing := g' }
     let withRing (r' : IngRing) : Answer := .next (withIng { g with ring := g.ring.set p r' })
     (data.length = 64 → owner → (∀ i : Fin 16, sensEn g.sens[i] = true → sensTpl g.sens[i] ≠ n) →
       let w := recStore g.tpl[n] 0 data
       let stored := withIng { g with tpl := g.tpl.set n w, tplVal := setBit g.tplVal n.val (tplOk w) }
       exec (.tplWrite n ini 0 data) s = .next (if tplOk w then stored else stored.post 0x4020 0x58)) ∧
     (bytesIn off data 64 = true → (∃ i : Fin 16, sensEn g.sens[i] = true ∧ sensTpl g.sens[i] = n) →
       exec (.tplWrite n ini off data) s = refused) ∧
     (bytesIn off data 32 = true → owner → sensEn g.sens[n] = false →
       let w := stage32 g.sens[n] off data &&& sensMask
       (sensEn w = true → bit g.tplVal (sensTpl w).val = true → exec (.sensWrite n ini off data) s =
         .next (withIng { g with sens := g.sens.set n w, sn := g.sn.set n { g.sn[n] with starts := 0 } })) ∧
       (sensEn w = true → bit g.tplVal (sensTpl w).val = false → exec (.sensWrite n ini off data) s = refused)) ∧
     (bytesIn off data 64 = true → owner → off = 0 → 2 ≤ data.length →
       let w := recStore g.ext[n] off data &&& extMask
       exec (.extWrite n ini off data) s =
         .next (withIng { g with ext := g.ext.set n w, sn := g.sn.set n { g.sn[n] with extPend := some w } })) ∧
     (¬ owner → (bytesIn off data 64 = true → exec (.extWrite n ini off data) s = refused) ∧
       (bytesIn off data 32 = true → exec (.sensWrite n ini off data) s = refused) ∧
       (bytesIn off data 16 = true → exec (.slotmapWrite ini off data) s = refused) ∧
       exec (.rctlWrite p ini h v) s = refused) ∧
     (ini.val = 0x60 →
       let rn : BitVec 32 := BitVec.ofNat 32 (fld v 0 32)
       let hn : BitVec 32 := BitVec.ofNat 32 (fld v 32 32)
       let forward := (rn - r.rhold).toNat ≤ (r.rwidx - r.rhold).toNat ∧ (hn - r.hhold).toNat ≤ (r.hwidx - r.hhold).toNat
       (forward → exec (.holdWrite p ini .full v) s = withRing { r with rhold := rn, hhold := hn }) ∧
       (¬ forward → exec (.holdWrite p ini .full v) s = refused)) ∧
     (owner →
       let w := v &&& 0xFFFF#64
       (bit v 0 = true → s.ringsPlaced p = true → bit r.rctl 0 = false → exec (.rctlWrite p ini .full v) s =
         withRing { r with rctl := w, rhold := 0, hhold := 0, rwidx := 0, hwidx := 0 }) ∧
       (bit v 0 = true → s.ringsPlaced p = false → exec (.rctlWrite p ini .full v) s = refused) ∧
       (bit v 0 = false → bit r.rctl 0 = false → exec (.rctlWrite p ini .full v) s = withRing { r with rctl := w }) ∧
       (bit v 0 = false → bit r.rctl 0 = true → exec (.rctlWrite p ini .full v) s =
         .next ((s.ringLeave p).modRing p fun x => { x with rctl := w }))) ∧
     (data.length = 16 → owner → s.gnt.mode ≠ .armed → s.gnt.mode ≠ .single → exec (.slotmapWrite ini 0 data) s =
       .next (withIng { g with slotmap := (stage32 (g.slotmap.setWidth 256) 0 data).setWidth 128 })) ∧
     (data.length = 32 → ini.val = 0x60 →
       let w := stage32 g.injStage[p] 0 data
       let staged := withIng { g with injStage := g.injStage.set p w }
       let good := injBad w = false ∧ s.ddr.admitsAll (.part 0x58 p) false (injSrc w) (16 * injN w) = true ∧
         sensEn g.sens[injSensor w] = false ∧ g.injq[p].length < 16
       (good → exec (.injqWrite p ini 0 data) s =
         .next (withIng { g with injStage := g.injStage.set p w, injq := g.injq.set p (g.injq[p] ++ [w]) })) ∧
       (¬ good → exec (.injqWrite p ini 0 data) s = .next (staged.post 0x4021 0x58)))) ∧
  (∀ (s : State) (p : Fin 4),
     let g := s.ing
     let r := g.ring[p]
     let turn (tok : Fin 4) : State := { s with ing := { g with
       slot := g.slot + 1, slotNow := if g.slot = 63 then g.slotmap else g.slotNow, token := tok } }
     let own : Fin 4 := Fin.ofNat 4 (fld g.slotNow (2 * g.slot.val) 2)
     (own = p → r.ready = true → exec .recordWriterBurst s = .next ((turn g.token).ringBurst p 4)) ∧
     ((∀ q : Fin 4, g.ring[q].ready = false) → exec .recordWriterBurst s = .next (turn g.token)) ∧
     (∀ q : Fin 4, g.ring[own].ready = false → g.ring[q].ready = true → (∀ k : Fin 4, k ≠ q → g.ring[k].ready = false) →
       exec .recordWriterBurst s = .next ((turn q).ringBurst q 4)) ∧
     (∀ w x bytes, w.rings[p] = some x → bit r.rctl 0 = true → r.suspended = false → (r.rwidx - r.rhold).toNat < 2 ^ 24 →
       bytes.length = 16 → x.trunc = false → s.writeRecord p w bytes =
         (((s.ddrPut (.part 0x58 p) (r.rbase.toNat + 16 * (r.rwidx.toNat % 2 ^ 24)) bytes).modRing p fun r =>
           { r with rwidx := r.rwidx + 1 }).modSweep w.id fun v => { v with rings := v.rings.set p (some
             { x with count := x.count + 1, first := if x.count = 0 then r.rwidx else x.first }) })) ∧
     (∀ w rest, g.injq[p] = w :: rest → bit r.rctl 0 = false → r.suspended = false → exec (.injectionExecute p) s =
       .next { s with ing := { g with injq := g.injq.set p rest, injSeq := g.injSeq.set p (BitVec.ofNat 32 (fld w 224 32)) } }) ∧
     (∀ w rest, g.injq[p] = w :: rest → exec (.injectionExecute p) s =
       .next ((({ s with ing := { g with injq := g.injq.set p rest } } : State).injSweep p w).modIng fun g =>
         { g with injSeq := g.injSeq.set p (BitVec.ofNat 32 (fld w 224 32)) })) ∧
     (∀ w, exec (.ingestEccError (.single w)) s = .next (s.ingPost 0x4030 (g.usedRings w))) ∧
     (∀ w, (∀ n : Fin 16, sensEn g.sens[n] = true → g.uses n w = false) →
       exec (.ingestEccError (.double w)) s = .next (s.ingPost 0x4031 0)) ∧
     (∀ w t, exec (.ingestEccError (.double w)) s = .next t → ∀ n : Fin 16, sensEn g.sens[n] = true → g.uses n w = true →
       sensEn t.ing.sens[n] = false) ∧
     (∀ x rest, g.port[p].fifo = .frame x :: rest → exec (.ingestEccError (.fifo p)) s =
       .next (({ s with ing := { g with port := g.port.set p { g.port[p] with fifo := rest } } } : State).ingPost 0x4032
         (g.portRings p))) ∧
     (∀ f, f = .ringReg p ∨ (f = .staging p ∧ r.stage ≠ []) → ∃ t, exec (.ingestEccError f) s = .next t ∧
       t.ing.ring[p].stage = ((r.stage.take 4).filter fun i => match i with | .close _ => true | _ => false) ++ r.stage.drop 4))

/-! ### Gather units (chapter 12) -/

/-- Table descriptors, hot segments, and a request's way into a queue and out of its unit (R284, R288 to R293, R296, R300,
R302). -/
def Obligations.GatherRegistersAndRequests : Prop :=
  ∀ (s : State) (u : Fin 16) (p : Fin 4) (t : Fin 64) (ini : Initiator) (data : List Byte) (v : Word),
    let g := s.nmg
    let x := g.units[u]
    let withUnit (x' : NmgUnit) : State := { s with nmg := { g with units := g.units.set u x' } }
    let owner := ini.val = 0x60 ∨ ini.val = 0x70
    (data.length = 64 →
      let w := recStore g.tab[t] 0 data
      let good := owner ∧ (tbEn g.tab[t] = false ∨ tbEn w = false) ∧ tabReserved w = false ∧ (tbEn w = true → s.tabOk w = true)
      (good → exec (.nmgTabWrite t ini 0 data) s = .next { s with nmg := { g with tab := g.tab.set t w } }) ∧
      (¬ good → exec (.nmgTabWrite t ini 0 data) s = .next (s.postPart 0x2201 0x42 none))) ∧
    (let w := maskWrite hsegMask g.hseg[p] v
     let good := owner ∧ (∀ i : Fin 64, tbEn g.tab[i] = true → tbWpart g.tab[i] ≠ p) ∧ g.segsOk p w = true
     (good → exec (.nmgHsegWrite p ini .full v) s = .next { s with nmg := { g with hseg := g.hseg.set p w } }) ∧
     (¬ good → exec (.nmgHsegWrite p ini .full v) s = .next (s.postPart 0x2201 0x42 none))) ∧
    (data.length = 64 → ini.val = 0x60 →
      let r := recStore x.staged[p] 0 data
      let part : Fin 4 := Fin.ofNat 4 (recField r 2 1)
      let d := g.tab[Fin.ofNat 64 (rqTid r)]
      let staged := { x with staged := x.staged.set p r }
      (s.reqOk u ini r d part = true → exec (.nmgReqWrite u p ini 0 data) s =
        .next (withUnit { staged with queues := x.queues.set part (x.queues[part] ++ [⟨r, part, d⟩]) })) ∧
      (s.reqOk u ini r d part = false → exec (.nmgReqWrite u p ini 0 data) s = .next ((withUnit { staged with
        refc := min 0xFFFF (x.refc + 1), lref := BitVec.ofNat 32 (recField r 0x3C 4) }).postPart 0x2201 (nmgIni u) none)) ∧
      (16 ≤ x.queues[part].length → s.reqOk u ini r d part = false) ∧ (s.partOf (rqCore r) ≠ part → s.reqOk u ini r d part = false)) ∧
    (∀ y rest, x.run = y :: rest → exec (.nmgRequestComplete u) s =
      .next ((s.nmgFinish u y).modNmg fun n => { n with units := n.units.set u { n.units[u] with run := rest } })) ∧
    (∀ y, rqSync y.r.req / 2 ^ 15 % 2 = 0 → s.nmgFinish u y =
      s.windowWrites (rqCore y.r.req) (nmgIni u) (rqDest y.r.req) y.status) ∧
    (∀ w r old, g.retire = some (w, r, old) →
      ((∀ i : Fin 16, ∀ y ∈ g.units[i].run, y.epoch ≠ some old) → exec .retireEpochDrain s =
        .next ((s.nmgFinish w ⟨r, 0, 0, 0, none⟩).modNmg fun n => { n with retire := none })) ∧
      ((∃ i : Fin 16, ∃ y ∈ g.units[i].run, y.epoch = some old) → exec .retireEpochDrain s = .next s)) ∧
    (exec (.nmgError u .corrected) s = .next ((withUnit { x with cecc := min 0xFFFF (x.cecc + 1) }).postPart 0x2210 (nmgIni u) none)) ∧
    (∀ a, exec (.nmgError u (.uncorrectable a)) s = .next { s with nmg := { g with
      bad := g.bad.set (nmgDie u) (SMap.set false g.bad[nmgDie u] (a.val / 8) true) } })

/-- What a unit does with the request it grants (R285 to R288, R291 to R296). -/
def Obligations.GatherWork : Prop :=
  ∀ (s : State) (u : Fin 16) (p : Fin 4) (r : NmgReq), s.granted u = some (p, r) →
    let g := s.nmg
    let x := g.units[u]
    let s' := s.takeReq u p
    let k := rqKind r.req
    let id := rqIds r.req
    let held : State := s'.modUnit u fun y => { y with held := y.held ++ [r] }
    (k = 0 → exec (.lookup u) s = .next (s'.nmgLookup u r)) ∧
    (k = 1 → x.migrates r = false → exec (.upd u) s = .next (s'.nmgUpd u false r)) ∧
    (k = 3 → x.migrates r = false → exec (.flip u) s = .next (s'.nmgFlip u false r)) ∧
    (k = 1 → x.migrates r = true → x.held.length < 63 → exec (.upd u) s = .next held) ∧
    (k = 3 → x.migrates r = true → x.held.length < 63 → exec (.flip u) s = .next held) ∧
    (k = 2 → x.migrates r = false → exec (.migr u) s = .next (s'.migrStart u r)) ∧
    (k = 2 → x.migrates r = true → x.held.length < 63 → exec (.migr u) s = .next held) ∧
    (∀ m rest, k ≠ 2 → x.migr = m :: rest → exec (.migr u) s = .next (s.migrEnd u m)) ∧
    (k = 4 → exec (.retire u) s = .next { s' with nmg := { s'.nmg with ep := !g.ep, retire := some (u, r, g.ep) } }) ∧
    (k ≠ 0 → exec (.lookup u) s = .next s) ∧ (k ≠ 1 → exec (.upd u) s = .next s) ∧ (k ≠ 3 → exec (.flip u) s = .next s) ∧
    (k ≠ 4 → exec (.retire u) s = .next s) ∧
    (k = 3 → x.migrates r = false → tbKeyed r.tab = false → tbIhot r.tab = true → id < tbNind r.tab →
      g.inSeg (tbWpart r.tab) (tbIbase r.tab + 8 * id) 8 = true →
      g.hotRead (nmgDie u) (tbIbase r.tab + 8 * id) 8 = some (g.hot.read (tbIbase r.tab + 8 * id) 8) →
      let old := BitVec.ofNat 64 (leNat (g.hot.read (tbIbase r.tab + 8 * id) 8))
      ptrValid old = true → ptrWell r.tab old = true → ∃ t, exec (.flip u) s = .next t ∧
        t.nmg.hot = g.hot.write (tbIbase r.tab + 8 * id) (leBytes 8 (rqBofs r.req)) ∧
        t.nmg.units[u].run = x.run ++ [⟨r, 1, 0, 0, none⟩] ∧ { t with nmg := s.nmg } = s) ∧
    (8 ≤ g.running u → k ≠ 0 ∧ k ≠ 4 ∧ x.migrates r = true) ∧
    (64 ≤ x.held.length → k = 0) ∧
    (∀ i : Nat, keySlot (tbNind r.tab) i < tbNind r.tab ∨ tbNind r.tab = 0)

/-! ### DMA (chapter 13) -/

/-- Lists: GO, STOP, RUN and the fetch of a descriptor (R303 to R306, R312, R315, R319, R320). -/
def Obligations.DmaLists : Prop :=
  ∀ (s : State) (c : CoreId) (ch : Fin 16) (ini : Initiator), ch.val < 8 →
    let e := DmaEng.core c
    let k := s.cores[c]
    let x := s.dch e ch
    (ini.val = 0x60 → k.seq.phase = .idle → x.busy = false → s.flt.part[s.partOf c] = .running → exec (.dchGo e ch ini) s =
      .next ((s.wakeDie (dieOf c)).startList e ch (fld x.head 0 48) (bit x.head 48) x.prio 0 false true)) ∧
    (x.busy = false → ini.val ≠ 0x60 ∨ k.seq.phase ≠ .idle →
      exec (.dchGo e ch ini) s = .next (s.post 0x2303 (BitVec.ofNat 8 (0x20 + c.val)))) ∧
    (x.busy = true → exec (.dchGo e ch ini) s = .next s) ∧
    (x.busy = true → ∃ t, exec (.dchStop e ch ini) s = .next t ∧ t.dch e ch = { x with stop := true } ∧ { t with dma := s.dma } = s) ∧
    (x.busy = false → exec (.dchStop e ch ini) s = .next s) ∧
    (∀ q rest, k.engines[(6 : Fin 7)].queue = q :: rest → q.opc = 1 → q.mayStart k.spd = true → dmaRunBad q = false →
      fld q.w2 0 3 = ch.val → (x.busy = false → exec (.dmaRun c) s =
        .next ((s.modEng c 6 EngState.start).startList e ch (fld q.w1 0 48) (bit q.w1 48) (fld q.w2 4 2) (fld q.w3 0 23)
          (bit q.w3 23) false)) ∧ (x.busy = true → exec (.dmaRun c) s = .next s)) ∧
    (∀ q rest, k.engines[(6 : Fin 7)].queue = q :: rest → q.opc = 2 → q.mayStart k.spd = true → dmaStopBad q = false →
      fld q.w2 0 3 = ch.val → x.busy = true → ∃ t, exec (.dmaStop c) s = .next t ∧ t.dch e ch = { x with stop := true } ∧
        t.cores[c].engines[(6 : Fin 7)].queue = rest ∧
        t.cores[c].engines[(6 : Fin 7)].active = k.engines[(6 : Fin 7)].active ++ [⟨q, false⟩]) ∧
    (∀ head soff lvl sen reg d, x.busy = false → head % 64 = 0 → k.spd.poweredAll head 64 = true → k.spd.mayReadAll head 64 = true →
      k.spd.num head 64 = d →
      (s.startList e ch head true lvl soff sen reg).dch e ch = { x with
        stop := false, descs := 0, nbad := 0, reg := reg, busy := true, cur := head, csp := true, want := head, wsp := true
        phase := .fetched, desc := BitVec.ofNat 512 d, next := .none, prog := DmaProg.zero, left := x.cnt, half := false
        status := 0, soff := soff, sen := sen, level := lvl }) ∧
    (∀ (d : Fin 2) (n : Fin 16) (i : Initiator), 14 ≤ n.val → i.val ≠ privOwner n → exec (.dchGo (.die d) n i) s =
      .next (s.post 0x2303 (BitVec.ofNat 8 (0x40 + d.val))))

/-- A descriptor's course: its checks, its bursts and the grants, its signals and its end; each operation where it runs alone on
operands of one line of the own scratchpad; and the conversion of an element (R306 to R317, R322). -/
def Obligations.DmaDescriptors : Prop :=
  ∀ (s : State) (e : DmaEng) (ch : Fin 16), dmaChanOk e ch = true →
    let x := s.dch e ch
    let d := x.desc
    let alone := x.busy = true ∧ dLast d = true ∧ ∀ o : Fin 16, o.val < engChans e → o ≠ ch → (s.dch e o).busy = false
    let row (i : Instr) := (i = .dmaCopy e ch ∧ dOp d = 0) ∨ (i = .dmaFill e ch ∧ dOp d = 1) ∨ (i = .dmaCmp e ch ∧ dOp d = 2) ∨
      (i = .dmaCompress e ch ∧ dOp d = 3)
    (∀ c, e = .core c → alone → x.phase = .fetched → s.descCheck e ch d = 0 → dRem d = false → dSsp d = true → dDsp d = true →
      dRows d = 1 → dOverlap d = false →
      let p := s.cores[c].spd
      let n := dNel d
      let sn := n * 2 ^ dSw d
      let dn := n * 2 ^ dDw d
      let src := p.mem.read (dSrc d) sn
      let oneSrc := dSrc d % 256 + sn ≤ 256 ∧ p.mayRead (dSrc d / 256) = true
      let oneDst := dDst d % 256 + dn ≤ 256
      let comes (i : Instr) (r : DescEnd) (m : Mem) : Prop := ∃ t, exec i s = .next t ∧ t.cores[c].spd.mem = m ∧
        (t.dch e ch).phase = .executed ∧ (t.dch e ch).status = r.status ∧
        { t with cores := s.cores, dma := s.dma } = s
      (dOp d = 0 → oneSrc → oneDst → p.mayWrite (dDst d / 256) = true →
        comes (.dmaCopy e ch) ⟨0, false, (dmaRow d n src).2, 0⟩ (p.mem.write (dDst d) (dmaRow d n src).1)) ∧
      (dOp d = 1 → oneDst → p.mayWrite (dDst d / 256) = true →
        comes (.dmaFill e ch) .clean (p.mem.write (dDst d) (List.replicate n (leBytes (2 ^ dDw d) (dConst d))).flatten)) ∧
      (dOp d = 2 → oneSrc → oneDst → p.mayRead (dDst d / 256) = true →
        let want := (elemsOf (dSw d) n src).map fun v => (dmaElem (dSw d) (dDw d) (dSgn d) (dSat d) v).1
        let have' := elemsOf (dDw d) n (p.mem.read (dDst d) dn)
        (want = have' → comes (.dmaCmp e ch) ⟨0, false, false, 0xFFFFFFFF⟩ p.mem) ∧
        (∀ j < n, want.take j = have'.take j → want[j]? ≠ have'[j]? →
          comes (.dmaCmp e ch) ⟨0, true, false, j * 2 ^ dDw d⟩ p.mem)) ∧
      (dOp d = 3 → n = 1 → dSrc d % 256 = 0 → p.mayRead (dSrc d / 256) = true →
        let z := compressLine (dCfmt d) (dZcode d) (leNat (p.mem.read (dSrc d) 256))
        dDst d % 256 + 8 ≤ 256 → dDoff d % 256 + z.2.length ≤ 256 → p.mayWrite (dDst d / 256) = true →
        p.mayWrite (dDoff d / 256) = true → comes (.dmaCompress e ch) ⟨0, false, false, z.2.length⟩
          ((p.mem.write (dDst d) (leBytes 8 (z.1 * 2 ^ 32))).write (dDoff d) z.2))) ∧
    (∀ i, row i → alone → x.phase = .fetched → s.descCheck e ch d ≠ 0 → exec i s =
      .next (s.modDch e ch fun y => { y with phase := .executed, status := (DescEnd.mk (s.descCheck e ch d) false false 0).status })) ∧
    (∀ i, row i → alone → x.phase = .running → s.actMay e d (x.prog.act d) = false → exec i s = .next s) ∧
    (∀ o, s.dmaGrant e = some o → s.burstReady e o = true ∧
      ∀ k : Fin 16, k.val < engChans e → s.burstReady e k = true → (s.dch e k).level ≤ (s.dch e o).level) ∧
    (x.busy = true → x.halfDone = true → bit d 88 = true → x.half = false → bit x.status 62 = false → s.writesHeld e.ini = false →
      exec (.dmaHalfSignal e ch) s = .next ((s.dmaSignal e ch d true).modDch e ch fun y => { y with half := true })) ∧
    (x.busy = true → x.phase = .executed → s.mayClose e ch = true → bit d 88 = false → bit d 89 = false → bit x.status 62 = false →
      exec (.dmaDescriptorDone e ch) s = .next (((s.putStatus e ch x).modDch e ch fun y =>
        { y with half := true, descs := (y.descs + 1) % 2 ^ 32, left := y.left - 1 }).advance e ch)) ∧
    (x.busy = true → ∃ u, exec (.dmaParityHalt e ch) s = .next u ∧ (u.dch e ch).busy = false ∧ (u.dch e ch).endc = 3 ∧
      (u.dch e ch).nbad = min 0xFFFF (x.nbad + 1)) ∧
    (∀ y : DescEnd, y.ecode < 16 → y.val < 2 ^ 32 → bit y.status 63 = true ∧ bit y.status 62 = decide (y.ecode ≠ 0) ∧
      bit y.status 61 = y.mism ∧ bit y.status 60 = y.satd ∧ fld y.status 56 4 = y.ecode ∧ fld y.status 0 32 = y.val) ∧
    (∀ sw dw v, sw < 4 → dw < 4 → v < 2 ^ (8 * 2 ^ sw) →
      let n := 8 * 2 ^ dw
      (dmaElem sw dw true true v).1 = wrapN n (if dw < sw then
        max (-(2 ^ (n - 1))) (min (2 ^ (n - 1) - 1) (toSigned (8 * 2 ^ sw) v)) else toSigned (8 * 2 ^ sw) v) ∧
      (dmaElem sw dw false true v).1 = min (2 ^ n - 1) v ∧ (dmaElem sw dw false false v).1 = v % 2 ^ n)

/-! ### DDR4 memory (chapter 14) -/

/-- Within a region, no two device addresses share a place, and a write that is accepted is what a read then gives; its grants
change nothing but what the channels count of them (R326, R327, R331, R332). -/
def Obligations.DdrPlacesAndBytes : Prop :=
  (∀ (w : Word) (a b : Nat), rgnBase w * 2 ^ 30 ≤ a → rgnBase w * 2 ^ 30 ≤ b → placeIn w a = placeIn w b → a = b) ∧
  (∀ (w : Word) (a : Nat), (placeIn w a).1 < 16 ∧ (rgnSet w = 1 → (placeIn w a).1 < 8) ∧ (rgnSet w = 2 → 8 ≤ (placeIn w a).1)) ∧
  ∀ (s : State) (who : DdrWho) (w : Word) (a : Nat) (data : List Byte), s.ddr.mem.wf = true →
    s.ddr.admitsAll who true a data.length = true → s.ddrAnswers who (s.ddr.bursts a data.length) = true →
    (∀ i < data.length, s.ddr.regionAt (a + i) = some w) → (∀ b ∈ s.ddr.bursts a data.length, s.ddr.isBad b = false) →
    rgnChofs w * 2 ^ 26 + rgnPer w ≤ 2 ^ 36 →
    let t := (s.ddrAccept who a data).1
    (s.ddrAccept who a data).2 = true ∧ t.ddr.bytes a data.length = data ∧ t.ddr.mem.wf = true ∧
      (∀ b, s.ddr.regionAt b = some w → (b < a ∨ a + data.length ≤ b) → t.ddr.bytes b 1 = s.ddr.bytes b 1) ∧
      t = { s with ddr := { s.ddr with mem := t.ddr.mem, bad := t.ddr.bad } } ∧
      OnlyGrants t.ddr (s.ddrWrite who a data).1.ddr ∧ { (s.ddrWrite who a data).1 with ddr := s.ddr } = s

/-- An access as the memory answers it: refused, waiting for its partition's turn, completed, corrected or in error (R329,
R331, R332, R337 to R339). -/
def Obligations.DdrAccesses : Prop :=
  ∀ (s : State) (r : DdrReq) (a : Nat) (op : DdrOp), ddrAccessOk a op = true →
    let who := s.whoOf r
    let n := op.size
    let wr := match op with | .read _ => false | .write _ => true
    let bs := s.ddr.bursts a n
    let ok := s.ddr.admitsAll who wr a n = true
    let may := s.ingestMay who a n = true
    let up := s.ddrAnswers who bs = true
    let fit := up ∧ ∀ b ∈ bs, s.ddr.isBad b = false
    let ans (t : State) (d : Option (List Byte)) : Answer := .next (t.emit (.ddrCompletion r.ini a d))
    (r.ini.val = 0x60 → who = .host) ∧ (r.ini.val = 0x71 → who = .gauntlet) ∧ (r.ini.val.toNat < 0x20 → ∃ p, who = .part r.ini p) ∧
    (∀ m e, op = .read m → ¬ ok ∨ ¬ may → exec (.ddrAccess r a op e .none) s = ans (s.ddrRefuse who false a m) none) ∧
    (∀ d e, op = .write d → ¬ ok → exec (.ddrAccess r a op e .none) s = .next (s.ddrRefuse who true a d.length)) ∧
    (∀ d e, op = .write d → ok → ¬ up → exec (.ddrAccess r a op e .none) s = ans s none) ∧
    (∀ m, op = .read m → ok → fit → who = .host → exec (.ddrAccess r a op .none .none) s = ans s (some (s.ddr.bytes a m))) ∧
    (∀ d, op = .write d → ok → fit → who = .host → exec (.ddrAccess r a op .none .none) s = .next (s.ddrAccept who a d).1) ∧
    (∀ m p, op = .read m → ok → may → fit → who = .part r.ini p → exec (.ddrAccess r a op .none .none) s =
      .next (s.ddrQueue p r.ini a bs (some (s.ddr.bytes a m)) true)) ∧
    (∀ d p, op = .write d → ok → fit → who = .part r.ini p → exec (.ddrAccess r a op .none .none) s =
      .next ((s.ddrAccept who a d).1.ddrQueue p r.ini a bs none false)) ∧
    (∀ m b, op = .read m → ok → up → who = .host → b ∈ bs → s.ddr.isBad b = true →
      exec (.ddrAccess r a op .none .none) s = ans ((bs.filter s.ddr.isBad).foldl State.ddrUncorrectable s) none) ∧
    (∀ (k : ChanState) (q : DdrBurst), k.pick = some q → q ∈ k.queue ∧ ∃ m : BitVec 4,
      (∀ p : Fin 4, bit m p.val = k.queue.any fun x => decide (x.part = p)) ∧ k.choose m = some q.part) ∧
    (∀ x, x ∈ s.ddrAnswer.ddr.replies ↔ x ∈ s.ddr.replies ∧ ∃ c : Fin 16, ∃ q ∈ s.ddr.ch[c].queue, q.id = x.id) ∧
    (s.ddrRefuse who wr a n).ddr.refHi = s.tb.cnt ∧ bit (s.ddrRefuse who wr a n).ddr.refLo 62 = wr ∧
    fld (s.ddrRefuse who wr a n).ddr.refLo 48 8 = who.ini.toNat ∧ fld (s.ddrRefuse who wr a n).ddr.refLo 0 48 = a % 2 ^ 48

/-- The registers and the upkeep of the DDR channels (R328, R332 to R335, R337, R339). -/
def Obligations.DdrRegistersAndUpkeep : Prop :=
  ∀ (s : State) (ch : Fin 16) (d : Fin 2) (ini : Initiator) (v : Word),
    let k := s.ddr.ch[ch]
    let withChan (k' : ChanState) : State := { s with ddr := { s.ddr with ch := s.ddr.ch.set ch k' } }
    let src := if ch.val < 8 then (0xC2 : Ini) else 0xC3
    let disarmed := s.gnt.mode ≠ .armed ∧ s.gnt.mode ≠ .single
    let w := v &&& 0x00000FFFFFFFFFFF#64
    let sum := fld w 0 7 + fld w 7 7 + fld w 14 7 + fld w 21 7
    (∀ i : Fin 16, s.rgnRefused i ini v = false → disarmed → exec (.ddrRgnWrite i ini .full v) s =
      .next { s with ddr := { s.ddr with rgn := s.ddr.rgn.set i v } }) ∧
    (∀ i : Fin 16, s.rgnRefused i ini v = true → exec (.ddrRgnWrite i ini .full v) s = .next (s.postPart 0x2061 0xC2 none)) ∧
    (∀ i j : Fin 16, i ≠ j → rgnEn v = true → rgnEn s.ddr.rgn[j] = true → rgnBase v < rgnBase s.ddr.rgn[j] + rgnSize s.ddr.rgn[j] →
      rgnBase s.ddr.rgn[j] < rgnBase v + rgnSize v → s.rgnRefused i ini v = true) ∧
    (∀ i : Fin 16, ini.val ≠ 0x70 → s.rgnRefused i ini v = true) ∧
    (ini.val = 0x70 → sum ≤ 64 → disarmed → exec (.ddrBwWrite d ini .full v) s =
      .next { s with ddr := { s.ddr with bw := s.ddr.bw.set d w } }) ∧
    (ini.val ≠ 0x70 ∨ 64 < sum → exec (.ddrBwWrite d ini .full v) s = .next (s.postPart 0x2061 (if d = 0 then 0xC2 else 0xC3) none)) ∧
    (k.state = 2 → exec (.ddrRefresh ch) s = .next (withChan { k with refreshes := k.refreshes + 1, rows := [] })) ∧
    (k.ref2x = false → exec (.dimmEventAssert ⟨ch, true⟩) s =
      .next ((withChan { k with eventN := true, ref2x := true }).postPart (0x2040 + ch.val) src none)) ∧
    (k.ref2x = true → exec (.dimmEventAssert ⟨ch, true⟩) s = .next (withChan { k with eventN := true })) ∧
    (k.eventN = true → exec (.dimmEventAssert ⟨ch, false⟩) s = .next (withChan { k with eventN := false, eventOff := some s.tb.cnt })) ∧
    (∀ x, k.eventN = false → k.eventOff = some x → 500000000 ≤ (s.tb.cnt - x).toNat →
      exec (.refresh1xReturn ch) s = .next (withChan { k with ref2x := false })) ∧
    (k.eventN = true → exec (.refresh1xReturn ch) s = .next s) ∧
    (∀ x, k.eventOff = some x → (s.tb.cnt - x).toNat < 500000000 → exec (.refresh1xReturn ch) s = .next s) ∧
    (k.state = 2 → s.ddr.selfRefresh = false → s.ddr.isBad (ch.val * 2 ^ 30 + k.scrubAt) = false → exec (.ddrScrub ch .none) s =
      .next (withChan { k with scrubAt := if k.scrubAt + 1 < s.ddr.chanBursts then k.scrubAt + 1 else 0 })) ∧
    (k.state = 2 → exec (.ddrCaParityError ch false false) s = .next (s.postPart (0x2050 + ch.val) src none)) ∧
    (k.state = 2 → exec (.ddrCaParityError ch true false) s =
      .next (((s.postPart (0x2050 + ch.val) src none).ddrDrop ch).postPart (0x2090 + ch.val) src none)) ∧
    (s.ddrDrop ch).ddr.ch[ch].state = 3 ∧ (∀ x ∈ (s.ddrDrop ch).ddr.replies, ∀ q ∈ k.queue, q.id ≠ x.id) ∧
    (∀ p : Fin 4, 64 ≤ k.grants.toList.foldl (· + ·) 0 + 1 → (k.grant p v).bw = v ∧ (k.grant p v).grants = Vector.replicate 4 0) ∧
    (∀ m p, bit m p.val = true → k.grants[p] < fld k.bw (7 * p.val) 7 →
      (∀ q : Fin 4, q ≠ p → bit m q.val = true → fld k.bw (7 * q.val) 7 ≤ k.grants[q]) → k.choose m = some p)

/-! ### The Rennus fabric (chapter 15) -/

/-- Links: training, lanes retired, codewords, replays, credits, HELLO and links that go down, with the work that a change of
the links gives Crown (R345 to R347, R352, R357 to R359, R372). -/
def Obligations.FabricLinks : Prop :=
  ∀ (s : State) (p : Fin 6),
    let b := s.fab
    let x := b.ports[p]
    let withPort (y : FabPort) : State := { s with fab := { b with ports := b.ports.set p y } }
    let fresh (st : Nat) : FabPort := { FabPort.reset with
      state := st, uncw := x.uncw, csym := x.csym, excl := x.excl, replay := x.replay }
    let idle := x.queue = []
    let seen (t : State) : Answer := .next (s.watchLinks fun _ => t)
    (∀ t : State, t.fab.peers = b.peers → s.watchLinks (fun _ => t) = t) ∧
    (∀ t : State, t.fab.valid = false → t.crn.mgmtQ = [] → t.serves .management = true → s.watchLinks (fun _ => t) = t) ∧
    (∀ (lanes l : BitVec 5), x.state ≤ 1 → idle → fourLanes (lanes &&& ~~~x.excl) = some l → exec (.fabricPortTrained p lanes) s =
      seen ((withPort { fresh (if b.valid then 3 else 2) with
        mode := b.modeOf p, lanes := l, peer := if x.wait then x.peer else none }).postPart (0x3010 + p.val) 0xC8 none)) ∧
    (∀ lanes : BitVec 5, x.state ≤ 1 → x.wait = false → fourLanes (lanes &&& ~~~x.excl) = none →
      exec (.fabricPortTrained p lanes) s = seen (withPort { x with state := 0, lanes := 0 })) ∧
    (∀ l : Fin 5, bit x.lanes l.val = true → 2 ≤ x.state → idle → exec (.fabricLaneRetire p l) s =
      .next ((withPort { x with
        state := 1, lanes := 0, drain := 0, csym := min 0xFFFF (x.csym + 1024), excl := setBit x.excl l.val true, wait := true }).postPart
        (0x3030 + p.val) 0xC8 none)) ∧
    (2 ≤ x.state → exec (.uncorrectableCodeword p) s = .next (withPort { x with uncw := min 0xFFFF (x.uncw + 1), nak := true })) ∧
    (2 ≤ x.state → x.state ≠ 4 → exec (.creditSend p) s = .next (s.emit (.credit p x.freed x.rxCw x.nak))) ∧
    (x.state = 4 → exec (.creditSend p) s = .next s ∧ ∀ cnt ack nak, exec (.credit p cnt ack nak) s = .next s) ∧
    (∀ cnt ack, x.state ≠ 4 → x.state ≠ 5 → 2 ≤ x.state → idle →
      exec (.credit p cnt ack false) s = .next (withPort { x with cnt := cnt, ack := ack, naks := 0 })) ∧
    (∀ cnt ack, x.state = 3 → x.naks = 0 → ∃ t, exec (.credit p cnt ack true) s = .next t ∧ t.fab.ports[p].txCw = ack) ∧
    (x.txCw ≠ x.top → x.grant = none) ∧
    (∀ cnt ack, 2 ≤ x.state → x.state ≠ 4 → x.ack = ack → 7 ≤ x.naks → ∃ t, exec (.credit p cnt ack true) s = seen t ∧
      t.fab.ports[p].state = 0 ∧ t.fab.ports[p].queue = [] ∧
      ∃ m, t.evt.incoming = m ++ [⟨BitVec.ofNat 16 (0x3020 + p.val), 0xC8, s.tb.cnt, none, false, false⟩]) ∧
    (idle → x.state ≠ 0 →
      exec (.fabricLinkDown p) s = seen ((withPort (fresh 0)).postPart (0x3020 + p.val) 0xC8 none)) ∧
    (x.state = 0 → exec (.fabricLinkDown p) s = .next s) ∧
    (∀ ini : Initiator, idle → ini.val = 0x60 ∨ ini.val = 0x70 → exec (.fabPortRetrain p ini) s = seen (withPort (fresh 1))) ∧
    (∀ ini : Initiator, ini.val ≠ 0x60 ∧ ini.val ≠ 0x70 → exec (.fabPortRetrain p ini) s = .next s) ∧
    (idle → exec (.fabricParityError (.port p)) s = seen ((withPort (fresh 1)).postPart 0x3090 0xC8 none)) ∧
    (b.ops = [] → exec (.fabricParityError .engine) s = seen ((s.dropFrags fun _ => true).postPart 0x3090 0xC8 none)) ∧
    (s.dropFrags fun _ => true).fab.frags = [] ∧
    (2 ≤ x.state → exec (.helloSend p) s =
      .next (s.emit (.hello p b.addr 0x70 ⟨Config.deviceId, p, b.cfgSlice, b.origin, b.addrWord⟩))) ∧
    (∀ m h, 2 ≤ x.state → m.good = true → b.mismatch p h = false →
      exec (.hello ⟨p, m⟩ h) s = seen (withPort { x with nak := false, peer := some h })) ∧
    (∀ m h, 2 ≤ x.state → m.good = true → x.state ≠ 4 → h.port ≠ oppPort p → exec (.hello ⟨p, m⟩ h) s =
      seen ((withPort { x with nak := false, peer := some h, state := 4 }).postPart (0x3040 + p.val) 0xC8 none)) ∧
    (∀ m h, 2 ≤ x.state → m.good = false → exec (.hello ⟨p, m⟩ h) s = .next (s.fabDrop 1)) ∧
    (∀ n e, x.grant = some (n, e) → e ∈ x.queue ∧ x.hasCredit e.pkt = true ∧ x.sends e.pkt = true)

/-- Routing and arrival: where a packet goes from a module, what is checked on a hop, and what WRITE and SIGNAL do at their
destination (R348, R350, R354 to R356, R361, R362, R368). -/
def Obligations.FabricPackets : Prop :=
  (∀ (b : FabState) (up : Fin 6 → Bool) (a : Nat), b.nextPort up a a 0 = .eject) ∧
  (∀ (b : FabState) (up : Fin 6 → Bool) (cur dst : Nat) (d : Nat), b.hall = false → d < 3 →
    (∀ k < d, coordOf cur k = coordOf dst k) → coordOf cur d ≠ coordOf dst d → b.wraps d = false →
    b.blocked d cur dst (decide (coordOf cur d < coordOf dst d)) false = false →
    b.nextPort up cur dst 0 = .out (portOf d (decide (coordOf cur d < coordOf dst d))) 0 false) ∧
  (∀ (b : FabState) (p : Fin 6) (k : FabPkt), k.reserved = true → b.hopIn p k = .error 3) ∧
  (∀ (b : FabState) (p : Fin 6) (k : FabPkt), k.reserved = false → b.ports[p].mode = 1 → 0 < k.hops.toNat → k.hops.toNat < 63 →
    b.hopIn p k = .ok { k with hops := k.hops + 1 }) ∧
  ∀ (s : State) (p : Fin 6) (k : FabPkt) (e : FabEntry) (rest : List FabEntry), pktOk k = true →
    let b := s.fab
    let x := b.ports[p]
    let at' := (s.modLink p fun x => { x with nak := false })
    let taken := (s.modFab fun b => { b with inbox := rest }).freeEntry e
    (x.state = 3 → ∀ c, b.hopIn p k = .error c → exec (.fabricPacketForward p k) s =
      .next ((at'.freeEntry (arrival p k)).fabDrop c)) ∧
    (x.state = 3 → ∀ q, b.hopIn p k = .ok q → q.typ = 1 ∨ q.typ = 2 → b.valid = true → exec (.fabricPacketForward p k) s =
      .next (at'.fabRoute { arrival p k with pkt := q })) ∧
    (x.state = 3 → ∀ q, b.hopIn p k = .ok q → q.typ = 1 ∨ q.typ = 2 → b.valid = true →
      b.addr.toNat = q.dst.toNat % 2 ^ 15 → q.dtr = 0 → exec (.fabricPacketForward p k) s =
        .next (at'.modFab fun b => { b with inbox := b.inbox ++ [{ arrival p k with pkt := q }] })) ∧
    (x.state < 2 → exec (.fabricPacketForward p k) s = .next s) ∧
    (b.inbox = e :: rest → e.pkt.typ = 1 → b.takes e.pkt = true → inApertures (fld e.pkt.args0 0 48) e.pkt.payload.length = true →
      exec .write s = .next (taken.apertureWrites (e.pkt.sinit ||| 0x80) (.module (e.pkt.src.setWidth 15)) (fld e.pkt.args0 0 48) e.pkt.payload)) ∧
    (b.inbox = e :: rest → e.pkt.typ = 1 → b.takes e.pkt = false → exec .write s = .next (taken.fabDrop 1)) ∧
    (b.inbox = e :: rest → e.pkt.typ = 2 → b.takes e.pkt = true → exec .signal s = .next (taken.remoteSignal
      (Fin.ofNat 32 (fld e.pkt.args0 9 5)) (e.pkt.sinit ||| 0x80) (fld e.pkt.args0 0 9) e.pkt.args1 (.module (e.pkt.src.setWidth 15)))) ∧
    (x.state = 3 → ∀ q o, b.hopIn p k = .ok q → q.typ = 4 → q.sr = true → b.valid = true → routePort q.args0 q.hops.toNat = some o →
      exec (.fabricPacketForward p k) s = .next ((at'.freeEntry (arrival p k)).fabDrop 3)) ∧
    (b.inbox = e :: rest → e.pkt.typ = 2 → b.takes e.pkt = false → exec .signal s = .next (taken.fabDrop 1)) ∧
    (e.pkt.pcrc ≠ e.pkt.crc ∨ b.valid = false ∨ bit b.admitMask (e.pkt.src.toNat / 512 % 64) = false → b.takes e.pkt = false) ∧
    (∀ f : Fin 4, (s.fabDrop f).fab.drops[f] = b.drops[f] + 1 ∧ (s.fabDrop f).evt.incoming =
      s.evt.incoming ++ [⟨BitVec.ofNat 16 (0x3060 + f.val), 0xC8, s.tb.cnt, none, false, false⟩])

/-- Discovery, the maps and the collective engine (R353, R354, R357, R363 to R368). -/
def Obligations.DiscoveryAndCollectives : Prop :=
  ∀ (s : State) (p : Fin 6),
    let b := s.fab
    let x := b.ports[p]
    let at' := s.modLink p fun x => { x with nak := false }
    let up := 2 ≤ x.state ∧ x.state ≠ 4
    let turn := s.serves .management = true ∧ s.crn.mgmtQ = []
    let comes (sub : Nat) (m : MgmtHead) : Prop := up ∧ turn ∧ b.mgmtStop p sub m = none
    let held := s.unassign
    let isMgmt (i : Instr) (m : MgmtHead) (sub : Nat) : Prop :=
      (∃ r, routeOk r = true ∧ i = .survey ⟨p, m⟩ r ∧ sub = 2) ∨
      (∃ r ident o peers, routeOk r = true ∧ i = .report ⟨p, m⟩ r ⟨ident, o⟩ peers ∧ sub = 3) ∨
      (∃ addr size wrap map, i = .assign ⟨p, m⟩ addr ⟨size, wrap⟩ map ∧ sub = 4) ∨ (∃ map, i = .failureMap ⟨p, m, map⟩ ∧ sub = 5)
    let arrives (k q : FabPkt) : Prop :=
      pktOk k = true ∧ x.state = 3 ∧ b.hopIn p k = .ok q ∧ q.typ = 3 ∧ b.valid = true ∧ q.pcrc = q.crc
    let adds (v : Survey) (n : SurveyNode) : State :=
      at'.modFab fun b => { b with survey := some { v with nodes := v.nodes ++ [n], waiting := v.waiting.erase n.route } }
    (∀ i m sub, isMgmt i m sub → x.state < 2 ∨ x.state = 4 → exec i s = .next s) ∧
    (∀ i m sub k, isMgmt i m sub → up → b.mgmtStop p sub m = some k → exec i s = .next (at'.fabDrop k)) ∧
    (∀ sub m, x.mode = 2 → trunkSub sub = false → b.mgmtStop p sub m = some 3) ∧
    (∀ m map, up → b.mgmtStop p 5 m = none → s.serves .management = false → exec (.failureMap ⟨p, m, map⟩) s =
      .next { at' with crn := { s.crn with mgmtQ := s.crn.mgmtQ ++ [.message p (.failureMap 0 map)] } }) ∧
    (s.serves .management = false → exec .discoveryStart s = .next s) ∧
    (b.origin = false → exec .discoveryStart s = .next s) ∧
    (held.fab.valid = false ∧ ∀ q : Fin 6, b.ports[q].state = 3 → held.fab.ports[q].state = 2) ∧
    (s.serves .management = true → b.origin = true → (∀ q : Fin 6, b.peers[q] = none) → ∃ t, exec .discoveryStart s = .next t ∧
      t.fab.valid = true ∧ t.fab.addr = BitVec.ofNat 15 (512 * b.cfgSlice.val) ∧ t.fab.survey = none ∧ t.out = s.out ∧
      t.evt.incoming = s.evt.incoming ++ [⟨0x3080, 0xC8, s.tb.cnt, none, false, false⟩]) ∧
    (∀ m route, comes 2 m → routeOk route = true → b.origin = false →
      let u := at'.unassign.modFab fun b => { b with parent := some p, tree := 0 }
      exec (.survey ⟨p, m⟩ route) s = .next (u.emit (.mgmt p b.addr 0x70 (.report route Config.deviceId false u.fab.peers)))) ∧
    (∀ m route ident o peers, comes 3 m → routeOk route = true → b.survey = none →
      exec (.report ⟨p, m⟩ route ⟨ident, o⟩ peers) s = .next (at'.endsChanged ident peers)) ∧
    (∀ m v route ident peers, comes 3 m → routeOk route = true → b.survey = some v → route ∈ v.waiting → ident ≠ Config.deviceId →
      exec (.report ⟨p, m⟩ route ⟨ident, true⟩ peers) s =
        .next ((at'.modFab fun b => { b with survey := none }).postPart 0x3081 0xC8 none)) ∧
    (∀ m v route q n c ident peers, comes 3 m → routeOk route = true → b.survey = some v → route ∈ v.waiting →
      v.nodes.find? (fun k => k.route = route.dropLast) = some n → route.getLast? = some q →
      stepCoord b.cfgSize b.wrapsNow n.coord q = some c → (∀ k ∈ v.nodes, k.ident ≠ ident ∧ k.coord ≠ c) → ident ∉ v.bad →
      exec (.report ⟨p, m⟩ route ⟨ident, false⟩ peers) s =
        .next (((adds v ⟨ident, c, route, peers⟩).surveyOn ⟨ident, c, route, peers⟩).surveyCheck) ∧
      ((∀ r : Fin 6, peers[r] = none) → v.waiting.erase route ≠ [] →
        exec (.report ⟨p, m⟩ route ⟨ident, false⟩ peers) s = .next (adds v ⟨ident, c, route, peers⟩))) ∧
    (∀ m addr size wrap map, comes 4 m → ∃ t, exec (.assign ⟨p, m⟩ addr ⟨size, wrap⟩ map) s = .next t ∧ t.fab.addr = addr ∧
      t.fab.valid = true ∧ t.fab.size = size ∧ t.fab.wrap = wrap ∧ t.fab.map = map ∧ { t with fab := b } = s ∧
      ∀ q : Fin 6, b.ports[q].state = 2 → t.fab.ports[q].state = 3) ∧
    (∀ m map, comes 5 m → exec (.failureMap ⟨p, m, map⟩) s =
      .next ((at'.modFab fun b => { b with map := map }).postPart 0x3082 0xC8 none)) ∧
    (∀ (ini : Initiator) data, data.length = 64 →
      let d := recStore b.colq 0 data
      let put : State := { s with fab := { b with colq := d } }
      (put.coOk ini d = true → exec (.collDescriptor ini 0 data) s = .next (put.coStart ⟨d, put.coPart ini d, 0, false, false, []⟩)) ∧
      (put.coOk ini d = false → exec (.collDescriptor ini 0 data) s =
        .next ({ s with fab := { b with colq := d, colRef := b.colRef + 1 } }.postPart 0x3070 0xC8 none)) ∧
      (16 ≤ b.ops.length ∨ b.valid = false ∨ (∃ o ∈ b.ops, coId o.desc = coId d) ∨ isSafety (put.coPart ini d) = true ∨
        coReserved d = true → put.coOk ini d = false)) ∧
    (∀ k q, arrives k q → b.ops = [] → b.frags = [] →
      exec (.collFragment p k) s = .next (at'.modFab fun b => { b with frags := [(p, q)] })) ∧
    (∀ k q o, pktOk k = true → x.state = 3 → b.hopIn p k = .ok q → q.typ = 3 → b.valid = true → q.pcrc ≠ q.crc →
      s.opOf (fld q.args0 0 8) = some o →
      exec (.collFragment p k) s = .next (((at'.freeEntry (arrival p k)).fabDrop 1).coAbort o 3)) ∧
    (∀ k q o, arrives k q → s.opOf (fld q.args0 0 8) = some o → fld q.args1 32 32 ≠ (coCheck o.desc).toNat →
      exec (.collFragment p k) s = .next (((at'.coDiffer o q).freeEntry (arrival p q)).coRetry)) ∧
    (∀ k q o d own t, arrives k q → s.opOf (fld q.args0 0 8) = some o → fld q.args1 32 32 = (coCheck o.desc).toNat →
      (coPhases o.desc).head? = some d → fld q.args0 32 2 = d → bit q.args0 34 = false → at'.coFull o 1 q.payload.length = false →
      at'.coSource o (fld q.args0 8 24) = (t, some own) → exec (.collFragment p k) s =
        .next (((t.coUp o 0 d (fld q.args0 8 24) q.payload own).freeEntry (arrival p q)).coRetry)) ∧
    (∀ id : Fin 256, s.opOf id.val = none → ∀ k, b.frags = [(p, k)] → fld k.args0 0 8 = id.val → ∃ t,
      exec (.colTimeout id) s = .next t ∧ t.fab.frags = [] ∧
      SMap.get 0 t.fab.colStat id.val = BitVec.ofNat 128 (3 * 2 ^ 32 + 2 ^ 40) ∧
      t.evt.incoming = s.evt.incoming ++ [⟨0x3071, 0xC8, s.tb.cnt, none, false, false⟩]) ∧
    (∀ x y : Nat, coElem 0 2 x y = (wrapN 32 (max (-2 ^ 31) (min (2 ^ 31 - 1) (toSigned 32 x + toSigned 32 y))),
        decide (toSigned 32 x + toSigned 32 y < -2 ^ 31 ∨ 2 ^ 31 - 1 < toSigned 32 x + toSigned 32 y)) ∧
      coElem 1 2 x y = (wrapN 32 (max (toSigned 32 x) (toSigned 32 y)), false) ∧
      coElem 2 2 x y = (wrapN 32 (min (toSigned 32 x) (toSigned 32 y)), false))

/-! ### Hatband (chapter 16) -/

/-- Domain times: rates, steps, states, watchdog, epoch and snapshot (R374 to R383, R392). -/
def Obligations.DomainTimes : Prop :=
  (∀ (x : TbDom) (c : Word) (r : BitVec 32), (x.setRate c r).time c = x.time c) ∧
  (∀ (x : TbDom) (n : Nat), n < 2 ^ 63 → x.time (x.anc + BitVec.ofNat 64 n) =
    BitVec.ofInt 64 (x.ofs.toNat + 2 * n + (2 * n * x.rate.toInt).fdiv (2 ^ 40))) ∧
  ∀ (s : State) (d : Fin 2) (v : Word),
    let x := s.tb.dom[d]
    let a := s.tb.dom[(0 : Fin 2)]
    let b := s.tb.dom[(1 : Fin 2)]
    let r := BitVec.ofNat 32 (fld v 0 32)
    let refused : Answer := .next (s.postPart 0x7058 0xC4 none)
    let free := ¬ (d = 0 ∧ a.state = .follow)
    let follows := d = 0 ∧ bit s.tb.cfg 48 = true ∧ b.state = .locked
    let held : Answer := .next ((s.modDom d fun x => { x with state := .holdover }).postPart (0x7020 + d.val) 0xC4 none)
    (∀ (ini : Initiator) h, ini.val ≠ 0x70 → exec (.tbRateWrite d ini h v) s = refused ∧ exec (.tbStepWrite d ini h v) s = refused ∧
      exec (.tbStateWrite d ini h v) s = refused ∧ exec (.tbLostWrite d ini) s = refused) ∧
    (rateOk r = false ∨ ¬ free → exec (.tbRateWrite d crown .full v) s = refused) ∧
    (rateOk r = true → free → ∃ t, exec (.tbRateWrite d crown .full v) s = .next t ∧ (∀ e : Fin 2, t.domTime e = s.domTime e) ∧
      t.tb.dom[d].rate = r ∧ t.tb.dom[d].touched = s.tb.cnt ∧ t.tb.dom[d].state = x.state ∧
      (d = 1 → a.state = .follow → t.tb.dom[(0 : Fin 2)].rate = r) ∧ { t with tb := s.tb } = s) ∧
    (∀ y rest, s.tb.servo[d].due = y :: rest → exec (.syncAccept d y.port y.src y.seq r) s =
      exec (.tbRateWrite d crown .full v) (s.modServo d fun q => { q with due := rest, last := some y })) ∧
    (∀ port src seq, (∀ y, s.tb.servo[d].due.head? = some y → y.port ≠ port ∨ y.src ≠ src ∨ y.seq ≠ seq) →
      exec (.syncAccept d port src seq r) s = .next s) ∧
    (∀ (q : PtpServo) e p f o rx, (∀ m, q.best = some m → m.port ≠ p ∨ m.src ≠ ptpSrc f o) ∨ ptpLog f o < -7 ∨ 1 < ptpLog f o →
      q.sync e p f o rx = q) ∧
    (free → ∃ t, exec (.tbStepWrite d crown .full v) s = .next t ∧ t.domTime d = s.domTime d + v ∧ t.readTime d = s.readTime d ∧
      (∀ e : Fin 2, e ≠ d → t.domTime e = s.domTime e) ∧ t.tb.dom[d].steps = min 0xFFFF (x.steps + 1) ∧
      t.tb.dom[d].epoch = t.domTime d ∧
      ∃ m, t.evt.incoming = s.evt.incoming ++ ⟨BitVec.ofNat 16 (0x7010 + d.val), 0xC4, s.tb.cnt, none, false, false⟩ :: m) ∧
    (∀ h : Half, h ≠ .full → exec (.tbStepWrite d crown h v) s = refused) ∧
    (fld v 0 4 = 1 → exec (.tbStateWrite d crown .full v) s =
      .next (s.modDom d fun x => { x with wdms := fld v 16 16, state := .locked, touched := s.tb.cnt })) ∧
    (3 ≤ fld v 0 3 → bit v 3 = false → exec (.tbStateWrite d crown .full v) s =
      .next ((s.modDom d fun x => { x with wdms := fld v 16 16 }).postPart 0x7058 0xC4 none)) ∧
    (x.state = .locked → ¬ follows → exec (.tbLostWrite d crown) s = held ∧
      (x.wdms ≠ 0 → x.wdms * 500000 ≤ (s.tb.cnt - x.touched).toNat → exec (.tbWatchdogExpire d) s = held)) ∧
    exec (.announceTimeout d) s = exec (.tbLostWrite d crown)
      (s.modServo d fun q => { q with masters := q.masters.filter fun m => decide (some m ≠ s.tb.servo[d].best) }) ∧
    (x.wdms = 0 → exec (.tbWatchdogExpire d) s = .next s) ∧
    (x.state ≠ .locked → exec (.tbLostWrite d crown) s = .next s) ∧
    (x.state = .locked → follows → ∃ t, exec (.tbLostWrite d crown) s = .next t ∧ t.tb.dom[d].state = .follow ∧
      t.tb.dom[d].rate = b.rate ∧ t.domTime d = s.domTime d ∧ { t with tb := s.tb, evt := s.evt } = s) ∧
    ((s.domTime d).toNat / 2 ^ 30 ≠ x.epoch.toNat / 2 ^ 30 →
      exec (.epochLatch d) s = .next (s.modDom d fun x => { x with epoch := s.domTime d })) ∧
    ((s.domTime d).toNat / 2 ^ 30 = x.epoch.toNat / 2 ^ 30 → exec (.epochLatch d) s = .next s) ∧
    (∀ ini : Initiator, ini.val = 0x60 ∨ ini.val = 0x70 → bit v 0 = true → exec (.tbSnap ini .full v) s =
      .next { s with tb := { s.tb with snapC := s.tb.cnt, snapA := s.domTime 0, snapB := s.domTime 1 } }) ∧
    (∀ (ini : Initiator) h, ini.val ≠ 0x60 → ini.val ≠ 0x70 → exec (.tbSnap ini h v) s = refused) ∧
    exec .tbMismatch s = .next (s.postPart 0x7080 0xC4 none)

/-- Timed frames, pulse outputs, and slice time over the fabric and over trunks (R385 to R389). -/
def Obligations.TimeOnPortsAndLinks : Prop :=
  (∀ (s : State) (p k : Fin 4) (ini : Initiator), ini.val = 0x60 ∨ ini.val = 0x70 →
     let x := s.tb.tx[p]
     let withTx (y : TxPort) : State := { s with tb := { s.tb with tx := s.tb.tx.set p y } }
     let o := s.tb.evo[k]
     let withEvo (y : Pulse) : State := { s with tb := { s.tb with evo := s.tb.evo.set k y } }
     let now := s.domTime (if o.dom then 1 else 0)
     (∀ data, data.length = 16 →
       let w := stage16 x.stage 0 data
       (txDescBad w = false → x.queue.length < 32 → exec (.tbTxqWrite p ini 0 data) s =
         .next (withTx { x with stage := w, queue := x.queue ++ [txDescOf w] })) ∧
       (txDescBad w = true ∨ 32 ≤ x.queue.length → exec (.tbTxqWrite p ini 0 data) s =
         .next ((withTx { x with stage := w }).postPart 0x7058 0xC4 none)) ∧
       (fld w 80 16 < 60 ∨ 9212 < fld w 80 16 ∨ fld w 64 4 ≠ 0 → txDescBad w = true)) ∧
     (∀ d rest, x.queue = d :: rest → s.ing.port[p].up = true → s.pwr.mode = .run →
       let t := s.domTime (if d.dom then 1 else 0) + BitVec.ofNat 64 (txLat x.lat)
       let off : Word := s.tb.cnt + BitVec.ofNat 64 ((wireNs s.ing.port[p].phy d.len + 1) / 2)
       let sent : State := (withTx { x with queue := rest, seq := d.seq, stamp := if d.stamp then t else x.stamp, busy := some off }).emit
         (.frame p (x.buf.read d.bofs d.len))
       let free := s.sending p = false
       (¬ free → d.now = true ∨ t.toNat ≤ d.launch.toNat + 16 ∨ d.late = true → exec (.timedFrameLaunch p) s = .next s) ∧
       (free → d.now = true ∨ (d.launch.toNat ≤ t.toNat + 16 ∧ t.toNat ≤ d.launch.toNat + 16) → exec (.timedFrameLaunch p) s = .next sent) ∧
       (d.now = false → t.toNat + 16 < d.launch.toNat → exec (.timedFrameLaunch p) s = .next s) ∧
       (free → d.now = false → d.launch.toNat + 16 < t.toNat → d.late = true → ∃ u, exec (.timedFrameLaunch p) s = .next u ∧
         u.out = sent.out ∧ u.tb.tx[p].queue = rest ∧ u.tb.tx[p].latec = min 0xFFFF (x.latec + 1) ∧ u.tb.tx[p].dropc = x.dropc) ∧
       (d.now = false → d.launch.toNat + 16 < t.toNat → d.late = false → ∃ u, exec (.timedFrameLaunch p) s = .next u ∧
         u.out = s.out ∧ u.tb.tx[p].queue = rest ∧ u.tb.tx[p].latec = x.latec ∧ u.tb.tx[p].dropc = min 0xFFFF (x.dropc + 1))) ∧
     (x.queue = [] → exec (.timedFrameLaunch p) s = .next s) ∧
     (∀ v, exec (.tbEvoWrite k ini 0 .full v) s = .next (withEvo (if o.en then { o with startN := v } else
       { o with startN := v, start := v, pw := o.pwN }))) ∧
     (∀ v, pulseOk v = false → exec (.tbEvoWrite k ini 1 .full v) s = .next (s.postPart 0x7058 0xC4 none)) ∧
     (∀ v, pulseOk v = true → o.en = true → exec (.tbEvoWrite k ini 1 .full v) s = .next (withEvo { o with pwN := v })) ∧
     (∀ v, bit v 0 = false → exec (.tbEvoWrite k ini 2 .full v) s =
       .next (withEvo { o with pol := bit v 2, dom := bit v 1, en := false, on := false })) ∧
     (o.en = true → o.hasEdge = true → o.edgeTime o.i ≤ now.toNat → o.start = o.startN → o.pw = o.pwN → exec (.pulseEdge k) s =
       .next (withEvo { o with on := true, offAt := BitVec.ofNat 64 (o.edgeTime o.i + fld o.pw 0 32), i := o.i + 1 })) ∧
     (now.toNat < o.edgeTime o.i → exec (.pulseEdge k) s = .next s) ∧
     (o.on = true → o.offAt.toNat ≤ now.toNat → exec (.pulseWidthEnd k) s = .next (withEvo { o with on := false })) ∧
     (o.on = false ∨ now.toNat < o.offAt.toNat → exec (.pulseWidthEnd k) s = .next s) ∧
     (∀ t, 0 < fld o.pw 32 32 → t ≤ o.edgeTime (o.firstFrom t) ∧ o.i ≤ o.firstFrom t ∧
       ∀ j, o.i ≤ j → t ≤ o.edgeTime j → o.firstFrom t ≤ j)) ∧
  (∀ (s : State) (p : Fin 6) (k : Fin 2) (m : MgmtHead) (t : Word) (r : BitVec 32),
     let y := s.tb.peer[p]
     let on := s.fabEn = true ∧ s.fab.ports[p].state = 3
     let z := trunkPort k
     let trunk := s.fabEn = true ∧ s.fab.ports[z].state = 3 ∧ s.fab.ports[z].mode = 2
     let at' (q : Fin 6) : State := s.modLink q fun x => { x with nak := false }
     let withPeer (u : State) (v : PeerDelay) : State := { u with tb := { u.tb with peer := u.tb.peer.set p v } }
     let whole (q : Fin 6) (sub : Nat) : Prop := s.fab.mgmtStop q sub m = none
     let time (i : Instr) (q : Fin 6) (sub : Nat) : Prop := (i = .pdreq ⟨p, m⟩ ∧ q = p ∧ sub = 0x10) ∨
       (∃ t2 t3, i = .pdresp ⟨p, m⟩ t2 t3 ∧ q = p ∧ sub = 0x11) ∨ (i = .sync ⟨p, m⟩ t r ∧ q = p ∧ sub = 0x12) ∨
       (i = .bridge k ⟨m, t⟩ ∧ q = z ∧ sub = 0x13)
     (∀ i q sub f, time i q sub → s.fab.ports[q].state = 3 → s.fab.mgmtStop q sub m = some f → exec i s = .next ((at' q).fabDrop f)) ∧
     (∀ i q sub, time i q sub → s.fab.ports[q].state < 2 ∨ s.fab.ports[q].state = 4 → exec i s = .next s) ∧
     (on → exec (.pdreqSend p) s = .next ((withPeer s { y with t1 := some s.stamp }).emit (.time p s.fab.addr 0x70 .pdreq))) ∧
     (on → whole p 0x10 → exec (.pdreq ⟨p, m⟩) s = .next ((at' p).emit (.time p s.fab.addr 0x70 (.pdresp s.stamp s.stamp)))) ∧
     (∀ t1 t2 t3, on → whole p 0x11 → y.t1 = some t1 →
       exec (.pdresp ⟨p, m⟩ t2 t3) s = .next (withPeer (at' p) ⟨none, ((s.stamp - t1) - (t3 - t2)).toInt / 2⟩)) ∧
     (∀ t2 t3, on → whole p 0x11 → y.t1 = none → exec (.pdresp ⟨p, m⟩ t2 t3) s = .next (at' p)) ∧
     (s.fabEn = true → s.fab.valid = true → s.fab.origin = true → exec .sliceSyncSend s = .next (s.syncOut (s.domTime s.fabDom))) ∧
     (s.fab.origin = false → exec .sliceSyncSend s = .next s) ∧
     (on → whole p 0x12 → s.fab.parent = some p → s.fab.ports[p].mode = 1 → ∃ u, exec (.sync ⟨p, m⟩ t r) s = .next u ∧
       u.tb.lastSync = some s.tb.cnt ∧ u.tb.cnt = s.tb.cnt ∧ (∀ e : Fin 2, u.domTime e = s.domTime e) ∧
       u.out = ((at' p).syncOut (t + BitVec.ofInt 64 y.delay)).out ∧ { u with tb := s.tb, evt := s.evt, out := s.out } = at' p) ∧
     (on → whole p 0x12 → s.fab.parent ≠ some p → exec (.sync ⟨p, m⟩ t r) s = .next (at' p)) ∧
     (∀ l, s.tb.lastSync = some l → s.fabEn = true → 5000000 ≤ (s.tb.cnt - l).toNat → s.tb.dom[s.fabDom].state = .locked → s.fabDom = 1 →
       ∃ u, exec .sliceSyncLoss s = .next u ∧ u.tb.lastSync = none ∧ u.tb.dom[s.fabDom].state = .holdover ∧
       u.evt.incoming = s.evt.incoming ++ [⟨0x7021, 0xC4, s.tb.cnt, none, false, false⟩, ⟨0x7070, 0xC4, s.tb.cnt, none, false, false⟩]) ∧
     (s.tb.lastSync = none → exec .sliceSyncLoss s = .next s) ∧
     (trunk → s.serves .management = true →
       exec (.bridgeSend k) s = .next (s.emit (.time z s.fab.addr 0x70 (.bridge (s.domTime s.fabDom))))) ∧
     (s.serves .management = false → exec (.bridgeSend k) s = .next s) ∧
     (trunk → whole z 0x13 → s.serves .management = true → s.crn.mgmtQ = [] → ∃ u, exec (.bridge k ⟨m, t⟩) s = .next u ∧
       bit u.tb.bridge[k] 63 = true ∧ u.tb.lastBridge[k] = some s.tb.cnt ∧
       fld u.tb.bridge[k] 0 63 = fld (t + BitVec.ofInt 64 s.tb.peer[z].delay - s.domTime s.fabDom) 0 63 ∧ { u with tb := s.tb } = at' z) ∧
     (∀ l, s.tb.lastBridge[k] = some l → 50000000 ≤ (s.tb.cnt - l).toNat → ∃ u, exec (.bridgeLoss k) s = .next u ∧
       bit u.tb.bridge[k] 63 = false ∧ u.tb.lastBridge[k] = none ∧
       u.evt.incoming = s.evt.incoming ++ [⟨0x7071, 0xC4, s.tb.cnt, none, false, false⟩]) ∧
     (s.tb.lastBridge[k] = none → exec (.bridgeLoss k) s = .next s))

/-! ### Gauntlet (chapter 17) -/

/-- Notices, comparison, verdicts and age monitors (R397 to R404, R408 to R410, R413); that a lone notice too old is LATE is the
model's choice (log entry 195). -/
def Obligations.NoticesAndVerdicts : Prop :=
  ∀ (s : State) (p : Fin 2) (ini : Initiator) (i : Fin 64),
    let g := s.gnt
    let t := g.strm[i]
    let ev (code : Nat) : Posted := ⟨BitVec.ofNat 16 code, 0x71, s.tb.cnt, none, false, false⟩
    (∀ data, data.length = 32 →
      let w := if s.pathDma p ini = true then stage32 g.nqStage[p] 0 data else g.nqStage[p]
      let staged := s.modGnt fun g => { g with nqStage := g.nqStage.set p w }
      (s.noticeBad p ini w = true → exec (.gntNotice p ini 0 data) s =
        .next ((staged.modGnt fun g => { g with nref := min 0xFFFF (g.nref + 1) }).postPart 0x6001 0x71 none)) ∧
      (s.noticeBad p ini w = false → exec (.gntNotice p ini 0 data) s = .next (staged.noticePair p (noticeOf w s.tb.cnt (s.strmNow (nqSid w)) g.notices))) ∧
      (s.pathDma p ini = false ∨ g.strm[nqSid w].en = false ∨ 524288 < nqLen w ∨ (g.mode ≠ .armed ∧ g.mode ≠ .single) →
        s.noticeBad p ini w = true)) ∧
    (∀ n : Notice, n.sid = i → n.golden = false → n.scanseq ∈ t.judged → s.noticePair p n =
      (s.modGnt fun g => { g with nref := min 0xFFFF (g.nref + 1) }).postPart 0x6002 0x71 none) ∧
    (∀ (n : Notice) (r : Pair), g.mode = .armed → n.sid = i → n.golden = false → n.scanseq ∉ t.judged → t.pair n.scanseq false = some r →
      r.dropped = false → r.notice p = none → (r.notice (1 - p)).isSome = true → (s.noticePair p n).gnt.cmpq = g.cmpq ++ [(i, n.scanseq)]) ∧
    (∀ seq rest r a b, g.cmpq = (i, seq) :: rest → g.mode = .armed → t.pair seq false = some r → r.n0 = some a → r.n1 = some b →
      let x := (s.modGnt fun g => { g with cmpq := rest }).gntRead 0 a
      let y := x.1.gntRead 1 b
      let res := (t.nbad a.len b.len x.2 y.2, crc32 (x.2.getD []))
      exec .gntCompare s = .next (y.1.modStrm i fun t => t.setPair { r with result := some res })) ∧
    (g.cmpq = [] → exec .gntCompare s = .next s) ∧
    (∀ la lb a b, la ≠ lb → t.nbad la lb a b = max la lb / gntWidth t.fmt) ∧
    (∀ l b, t.nbad l l none b = l / gntWidth t.fmt) ∧
    (∀ a b, 3 ≤ t.fmt → t.elemBad a b =
      decide (t.absTol < (toSigned (8 * gntWidth t.fmt) a - toSigned (8 * gntWidth t.fmt) b).natAbs)) ∧
    (∀ r v n, t.pairs.find? (fun r => (s.verdOf i r).isSome) = some r → s.verdOf i r = some v → g.mainNotice r = some n →
      exec (.gntVerdict i) s = .next (s.giveVerdict i r v n)) ∧
    ((∀ r ∈ t.pairs, s.verdOf i r = none) → exec (.gntVerdict i) s = .next s) ∧
    (∀ r v n, v < 6 → let u := s.giveVerdict i r v n
      u.gnt.strm[i].vwidx = t.vwidx + 1 ∧ (v < 2 → u.gnt.strm[i].ref = n.base ∧ u.gnt.strm[i].stale = false) ∧
      (2 ≤ v → u.gnt.strm[i].ref = t.ref ∧ ∃ m, u.evt.incoming = s.evt.incoming ++ ev (0x6010 + v - 2) :: m) ∧
      r.scanseq ∈ u.gnt.strm[i].judged) ∧
    (∀ r n, s.armed = true → r.golden = false → g.mainNotice r = some n →
      s.tb.dom[t.dom].steppedAfter s.tb.cnt r.notices n.base t.maxAge = false →
      ((t.maxAge : Int) < (s.strmNow i - n.base).toInt → s.verdOf i r = some 4) ∧
      ((s.strmNow i - n.base).toInt ≤ (t.maxAge : Int) → r.dropped = true → s.verdOf i r = some 3)) ∧
    (∀ n h, (n - 1 : BitVec 32) ∈ h → escalates (n :: h) = true) ∧
    (∀ cause, g.mode = .safe → s.enterSafe cause = s) ∧
    (∀ cause, g.mode ≠ .safe → let u := s.enterSafe cause
      u.gnt.mode = .safe ∧ u.gnt.safecause = cause ∧ u.gnt.faultA = false ∧ u.gnt.faultB = false ∧
      u.flt.mrst = (if s.flt.mrst = .cold then .cold else .warm) ∧ u.evt.incoming = s.evt.incoming ++ [ev 0x6040]) ∧
    (s.armed = false → exec .ageCheck s = .next s) ∧
    (s.armed = true → (∀ j : Fin 64, j ≠ i → g.strm[j].en = false) → t.en = true → t.stale = false → t.pairs = [] →
      (t.maxAge : Int) < (s.strmNow i - t.ref).toInt → exec .ageCheck s =
        .next ((s.modStrm i fun t => { t with stale := true, staleAt := s.strmNow i }).postPart 0x6014 0x71 none))

/-- Arming, golden patterns, path fences, routed events, monitors and the fault outputs (R405 to R407, R411 to R418, R423, R424,
R507, R511); that arming with a path still fenced enters SINGLE is the model's choice (log entry 196). -/
def Obligations.GoldenAndFences : Prop :=
  ∀ (s : State) (p : Fin 2) (k : Fin 4) (ini : Initiator),
    let g := s.gnt
    let owner := ini.val = 0x60 ∨ ini.val = 0x70
    let withGnt (x : GntState) : State := { s with gnt := x }
    (¬ owner ∨ g.mode ≠ .off → exec (.arm ini) s = .next s) ∧
    (owner → g.mode = .off → g.dozed = false → s.armFails = none → ∃ t, exec (.arm ini) s = .next t ∧
      (g.fence = 0 → t.gnt.mode = .armed) ∧ (g.fence ≠ 0 → t.gnt.mode = .single) ∧
      t.gnt.faultA = true ∧ t.gnt.faultB = false ∧ t.gnt.fence = g.fence ∧
      (∀ j : Fin 64, t.gnt.strm[j].ref = s.strmNow j ∧ t.gnt.strm[j].pairs = [] ∧ t.gnt.strm[j].stale = g.strm[j].stale) ∧
      { t with gnt := g, dma := s.dma } = s) ∧
    (owner → g.mode = .off → g.dozed = false → s.crn.unlocked = true →
      exec (.arm ini) s = .next ((withGnt { g with armfail := 0x10 }).postPart 0x6051 0x71 none)) ∧
    (s.coresSafe = false ∨ s.ddr.pathsSafe = false → s.armFails ≠ none) ∧
    (owner → s.armed = true → exec (.disarm ini) s =
      .next (withGnt { g with mode := .off, faultA := false, faultB := false, runs := [], cmpq := [] })) ∧
    (¬ owner ∨ s.armed = false → exec (.disarm ini) s = .next s) ∧
    (owner → exec (.safe ini) s = .next (s.enterSafe 0x07)) ∧ (¬ owner → exec (.safe ini) s = .next s) ∧
    (exec (.defer pf0) s = .next (withGnt { g with defer := true })) ∧
    (∀ test inst rows, g.mode = .test → s.pwr.mode = .run → s.pwr.start = .none → g.dozed = false →
      (g.wasArmed = false → exec (.startTestsDone false test ⟨inst, rows⟩) s =
        .next (withGnt { g with mode := .off, faultA := false, faultB := false })) ∧
      (g.wasArmed = true → exec (.startTestsDone false test ⟨inst, rows⟩) s = .next s.enterArmed) ∧
      ∃ t, exec (.startTestsDone true test ⟨inst, rows⟩) s = .next t ∧ t.gnt.mode = .failed ∧ t.gnt.wasArmed = false ∧
        t.gnt.testfail = BitVec.ofNat 8 (test.val + 1) ∧ t.gnt.testinst = inst) ∧
    (∀ m x, (s.watched m = true → s.monitorOk m x = false →
        exec (.monitorViolation ⟨m, x⟩) s = .next ((s.postPart (0x6060 + monitorNumber m) 0x71 none).enterSafe 0x05)) ∧
      (s.watched m = false ∨ s.monitorOk m x = true → exec (.monitorViolation ⟨m, x⟩) s = .next s)) ∧
    (∀ d : Fin 4, let w := g.mon[d]
      (w.stopped = true → ∀ x, s.monitorOk (.cclk d) x = decide (x = 0)) ∧
      (∀ b x, w.stopped = false → w.back = some b → (s.tb.cnt - b).toNat < 1000 → s.monitorOk (.cclk d) x = true) ∧
      (∀ v b, w.other = some (v, b) → (s.tb.cnt - b).toNat ≤ 50000 → s.monitorOk (.vddC d) (pointUv v) = true) ∧
      s.monitorOk (.vddC d) (pointUv w.vp) = true) ∧
    (s.armed = true → exec .faultOutputToggle s = .next (withGnt { g with faultA := !g.faultA, faultB := g.faultA })) ∧
    (g.startTests = true → exec .faultOutputToggle s = .next (withGnt { g with faultA := !g.faultA, faultB := !g.faultA })) ∧
    (s.armed = false → g.startTests = false → exec .faultOutputToggle s = .next s) ∧
    exec (.gntLockstepError .corrected) s = .next (s.postPart 0x6070 0x71 none) ∧
    exec (.gntLockstepError .own) s = .next (s.enterSafe 0x04) ∧
    ((∀ j : Fin 4, s.oppDue j = none) → exec .goldenOpportunity s = .next s) ∧
    (∀ x, (∀ j : Fin 4, j ≠ k → s.oppDue j = none) → s.oppDue k = some x →
      let seen := withGnt { g with lastOpp := g.lastOpp.set k (some x), since := g.since.set k (g.since[k] + 1) }
      let due := bit g.forced k.val = true ∨ gpPer g.gpat[k] ≤ g.since[k] + 1
      (¬ due → exec .goldenOpportunity s = .next seen) ∧
      (due → g.defer = false ∨ bit g.forced k.val = true ∨ 3 ≤ g.defrun → exec .goldenOpportunity s = .next (seen.inject k)) ∧
      (due → g.defer = true → bit g.forced k.val = false → g.defrun < 3 → exec .goldenOpportunity s = .next ((seen.modGnt fun y =>
        { y with defer := false, defrun := y.defrun + 1, gdef := min 0xFFFF (y.gdef + 1) }).postPart 0x6020 0x71 none))) ∧
    ((s.inject k).gnt.since[k] = 0 ∧ (s.inject k).gnt.runs.length = g.runs.length + 1) ∧
    (∀ r, s.armed = true → g.runs.find? g.runComplete = some r → exec .goldenJudge s = .next (s.goldJudge r)) ∧
    (s.armed = true → g.runs = [] → exec .goldenJudge s = .next s) ∧
    (∀ r, s.armed = true → g.runs = [r] → g.runComplete r = false → 100000000 ≤ (s.tb.cnt - r.cnt).toNat →
      exec .goldenNoticeTimeout s = .next (s.goldJudge r)) ∧
    (g.runs = [] → exec .goldenNoticeTimeout s = .next s) ∧
    (∀ r, g.mode = .armed → s.goldReact r true true = (s.postPart 0x6024 0x71 none).enterSafe 0x02 ∧
      s.goldReact r true false = (s.postPart 0x6022 0x71 none).pathFence 0 false ∧
      s.goldReact r false true = (s.postPart 0x6023 0x71 none).pathFence 1 false ∧
      s.goldReact r false false = ((s.postPart 0x6021 0x71 none).modGnt fun g =>
        { g with gtrans := min 0xFFFF (g.gtrans + 1) }).postPart 0x6030 0x71 none) ∧
    (∀ stay, g.mode = .armed → let t := s.pathFence p stay
      t.gnt.mode = .single ∧ t.gnt.fence = setBit 0 p.val true ∧ t.flt.part[pathPart p] = .restarting ∧
      bit t.evt.fenced p.val = true ∧ bit t.gnt.cut15 p.val = true ∧ (t.dma.dies[p][(15 : Fin 16)]).busy = false) ∧
    (∀ n, bit g.cut15 p.val = true → s.gntRead p n = (s, none)) ∧
    (g.mode = .single → bit g.fence p.val = true → bit g.readmit p.val = true → s.pathFence p false = s.fencePath p) ∧
    (g.mode = .single → bit g.fence p.val = true → bit g.readmit p.val = false → s.pathFence p false = s) ∧
    (∀ stay, g.mode = .single → bit g.fence p.val = false → s.pathFence p stay = s.enterSafe 0x06) ∧
    (∀ q rest, s.evt.gntQ = q :: rest → let t : State := { s with evt := { s.evt with gntQ := rest } }
      let alone := ∀ y ∈ q :: rest, safeWith q y = false
      (safeCode q.code.toNat = true → exec .gntRoutedEvent s = .next (t.enterSafe 0x06)) ∧
      (∀ y, (q :: rest).find? (safeWith q) = some y → exec .gntRoutedEvent s =
        .next (State.enterSafe { s with evt := { s.evt with gntQ := (q :: rest).erase y } } 0x06)) ∧
      (alone → coreFenceCode q.code.toNat = true → q.part = some (pathPart p) → exec .gntRoutedEvent s = .next (t.pathFence p false)) ∧
      (∀ ch : Fin 16, alone → q.code = BitVec.ofNat 16 (0x2090 + ch.val) →
        exec .gntRoutedEvent s = .next (t.pathFence (if ch.val < 8 then 0 else 1) true)) ∧
      (alone → q.code = 0x6090 → exec .gntRoutedEvent s = .next (t.linkEvent q.gnt))) ∧
    (s.evt.gntQ = [] → exec .gntRoutedEvent s = .next s)

/-! ### Partitions, restarts and the fault log (chapter 18) -/

/-- FLT_PRST, FLT_MRST, FLT_PMAP, a partition's release and Crown's log (R426 to R431, R434, R437, R438). -/
def Obligations.FaultBlock : Prop :=
  ∀ (s : State) (p : Fin 4) (ini : Initiator),
    let f := s.flt
    let owner := ini.val = 0x60 ∨ ini.val = 0x70
    let refused : Answer := .next (s.postPart 0x6099 0xC5 none)
    (∀ h v, ¬ owner → exec (.fltPrst ini h v) s = refused ∧ exec (.fltMrstWarm ini) s = refused ∧ exec (.fltMrstCold ini) s = refused) ∧
    (owner → exec (.fltMrstCold ini) s = .next { s with flt := { f with mrst := .cold } }) ∧
    (owner → exec (.fltMrstWarm ini) s = .next { s with flt := { f with mrst := if f.mrst = .cold then .cold else .warm } }) ∧
    (owner → ¬ (isSafety p = true ∧ s.armed = true) → f.part[p] = .running → ∃ t, exec (.fltPrst ini .full (1 <<< p.val)) s = .next t ∧
      t.flt.part[p] = .restarting ∧ t.flt.rcnt = min 0xFFFFFFFF (f.rcnt + 1) ∧
      (∀ c, t.partOf c = p → t.cores[c].imem = [] ∧ t.cores[c].seq.phase = .idle) ∧
      ∃ m, t.evt.incoming = m ++ [⟨BitVec.ofNat 16 (0x6080 + p.val), 0xC5, s.tb.cnt, none, false, false⟩]) ∧
    (owner → isSafety p = true → s.armed = true → exec (.fltPrst ini .full (1 <<< p.val)) s = refused) ∧
    (owner → f.part[p] ≠ .running → s.armed = false → f.peff = f.pmap → exec (.fltPrst ini .full (1 <<< p.val)) s = .next s) ∧
    (∀ v, ini.val = 0x70 → s.armed = false ∨ f.mapRefused v = false →
      exec (.fltPmapWrite ini .full v) s = .next { s with flt := { f with pmap := v } }) ∧
    (∀ h v, ini.val ≠ 0x70 → exec (.fltPmapWrite ini h v) s = refused) ∧
    (∀ v c, isSafety (mapPart f.peff c) = true → mapPart v c ≠ mapPart f.peff c → f.mapRefused v = true) ∧
    (∀ bad spares ddr rows, f.part[p] ≠ .restarting → exec (.partitionRelease p ⟨bad, rows⟩ spares ddr) s = .next s) ∧
    (∀ bad rows, f.part[p] = .restarting → s.gnt.keeps p = false →
      isSafety p = false ∨ (bad = 0 ∧ rows = [] ∧ f.rowGroups = [] ∧ ∀ c, s.partOf c = p → f.lost' c = false) →
      ∃ t, exec (.partitionRelease p ⟨bad, rows⟩ 0 false) s = .next t ∧
      t.flt.part[p] = .running ∧ (∀ c, s.partOf c = p → bit t.flt.fenced c.val = false) ∧
      ∃ m, t.evt.incoming = m ++ [⟨BitVec.ofNat 16 (0x6084 + p.val), 0xC5, s.tb.cnt, none, false, false⟩]) ∧
    (∀ bad spares rows, f.part[p] = .restarting → isSafety p = true → ∃ t, exec (.partitionRelease p ⟨bad, rows⟩ spares true) s = .next t ∧
      t.flt.part[p] = .held ∧ t.gnt.keeps p = true) ∧
    (∀ bad spares ddr rows, f.part[p] = .restarting → s.gnt.keeps p = true → ∃ t,
      exec (.partitionRelease p ⟨bad, rows⟩ spares ddr) s = .next t ∧ t.flt.part[p] = .held) ∧
    (∀ detail, s.serves .faults = false → exec (.faultLogEntry detail) s = .next s) ∧
    (∀ detail q rest, s.serves .faults = true → s.crn.mode = .running → s.evt.crownLost = 0 → s.evt.crownQ = q :: rest →
      loggedCode q.code.toNat = true → f.table.length + f.repairQ.length + f.rowUe.length + f.rowErr.length < 511 → ∃ t, exec (.faultLogEntry detail) s = .next t ∧ t.evt.crownQ = rest ∧
        t.flt.log = (s.logEntry q detail :: f.log).take 4096) ∧
    (∀ detail, s.crn.mode ≠ .running → exec (.faultLogEntry detail) s = .next s) ∧
    (∀ r, f.table.length < 512 → ∃ x, (s.writeRepair r).flt.table = f.table ++ [x] ∧ x.type = r.type ∧ x.loc = r.loc ∧
      (s.writeRepair r).evt.incoming = s.evt.incoming ++ [⟨0x6092, 0x70, s.tb.cnt, none, false, false⟩]) ∧
    (∀ q detail, (s.logEntry q detail).cnt = s.tb.cnt ∧ (s.logEntry q detail).timea = s.domTime 0 ∧
      (s.logEntry q detail).code = q.code ∧ (s.logEntry q detail).src = q.src ∧ (s.logEntry q detail).detail = detail)

/-! ### Cloche (chapter 19) -/

/-- Start, seal, tapped frames, captures, records, the encoder and faults (R441, R442, R445 to R452, R455, R457, R459). -/
def Obligations.ClocheMeasuring : Prop :=
  ∀ (s : State) (c : CloCap),
    let x := s.clo
    let g := blockBytes c.blocks 0
    let withClo (y : CloState) : State := { s with clo := y }
    (∀ lost br, let u := (lost.map fun i => cloBlocks.getD i.val 0).foldl State.loseBlock s
      exec (.clocheStart lost br) s = .next (State.cloStart { u with clo := { u.clo with
        queue := [], chA := CloChan.reset, chB := CloChan.reset, lastRes := 0 } } br false) ∧
      (lost ≠ [] → ∃ t, exec (.clocheStart lost br) s = .next t ∧ t.clo.pvalid = false)) ∧
    (∀ br f, let y := x.start br f
      y.on = true ∧ y.cap = none ∧ y.staged = [] ∧ y.blocks = x.blocks ∧ y.audit = x.audit ∧ y.evcnt = x.evcnt ∧ y.rseq = x.rseq ∧
      y.recs = x.recs ∧ (y.pvalid = true → x.lost = [] ∧ genOk (blockBytes x.blocks 0) = true) ∧ (y.refValid = true → br = false)) ∧
    (∀ o, x.on = false ∨ x.sealOpen = o → exec (.sealChange o) s = .next s) ∧
    (∀ o, x.on = true → x.sealOpen ≠ o → ∃ t, exec (.sealChange o) s = .next t ∧ t.clo.sealOpen = o ∧
      t.clo.staged = (if o then x.staged else []) ∧ t.clo.blocks = x.blocks ∧
      t.clo.audit = (auditBytes x.evcnt (if o then 3 else 4) 0 x.lastTime noHash noHash :: x.audit).take 1024 ∧
      t.evt.incoming = s.evt.incoming ++ [⟨if o then 0x8003 else 0x8004, 0x72, s.tb.cnt, none, false, false⟩]) ∧
    (s.ing.tap = [] → exec .cloFrameTap s = .next s) ∧
    (∀ p f rest, s.ing.tap = (p, f) :: rest → x.on = true → x.nofw = false → parseFrame f.bytes = .other →
      exec .cloFrameTap s = .next { s with ing := { s.ing with tap := rest }, clo := { x with lastTime := f.stampA } }) ∧
    (∀ p f rest d k, s.ing.tap = (p, f) :: rest → x.on = true → x.nofw = false → parseFrame f.bytes = .udp d →
      cloMatch x.params p d = some k → ∃ t, exec .cloFrameTap s = .next t ∧ t.ing.tap = rest ∧ t.clo.lastTime = f.stampA ∧
        t.clo.track = (({ x with lastTime := f.stampA } : CloState).frame k d.payload f.stampA).track) ∧
    (∀ (p : Point) (ret : Nat),
      let dz := p.z - gOrigin g 2
      let i := (p.x - gOrigin g 0).fdiv (gE g)
      let j := (p.y - gOrigin g 1).fdiv (gE g)
      let inside := ret ≤ gRetmax g ∧ -32768 ≤ dz ∧ dz ≤ 32767 ∧ 0 ≤ i ∧ i < gNx g ∧ 0 ≤ j ∧ j < gNy g
      let v := SMap.get (0, 0) c.cells (j.toNat * gNx g + i.toNat)
      (¬ inside → c.enter p ret = { c with nout := c.nout + 1 }) ∧ (inside → 255 ≤ v.2 → c.enter p ret = c) ∧
      (inside → v.2 < 255 → SMap.get (0, 0) (c.enter p ret).cells (j.toNat * gNx g + i.toNat) = (v.1 + dz, v.2 + 1) ∧
        (c.enter p ret).npts = c.npts + 1)) ∧
    (x.cap = some c → c.kind = 1 → c.full = true → exec .captureEnd s = .next (s.capDone c)) ∧
    (x.cap = none → exec .captureEnd s = .next s ∧ exec .captureTimeout s = .next s) ∧
    (x.cap = some c → c.kind ≠ 2 → c.full = false → 1000000000 ≤ (s.tb.cnt - c.lastAt).toNat →
      exec .captureTimeout s = .next (s.capCut c false)) ∧
    (∀ a, x.cap = some c → let t := s.capCut c a
      t.clo.cap = none ∧ t.clo.rseq = x.rseq + 1 ∧ t.clo.queue.length = x.queue.length + 1 ∧ t.clo.ref = x.ref ∧ t.clo.zseq = x.zseq) ∧
    (x.cap = some c → c.kind = 3 → gCells g - (defCells g none c.cells).length ≤ gEmptymax g → let t := s.capDone c
      t.clo.ref = newRef g c.cells ∧ t.clo.refValid = true ∧ t.clo.zseq = t.clo.rseq ∧ t.clo.cap = none) ∧
    (∀ n bytes rest, x.queue = (n, bytes) :: rest → ∃ t, exec .cloRecordWrite s = .next t ∧ t.clo.queue = rest ∧
      t.clo.recs = ((n, bytes) :: x.recs).take 1024 ∧ t.clo.slots = x.slots.set (Fin.ofNat 16 n.toNat) bytes ∧
      t.evt.incoming = s.evt.incoming ++ [⟨0x8002, 0x72, s.tb.cnt, none, false, false⟩]) ∧
    (x.queue = [] → exec .cloRecordWrite s = .next s) ∧
    (x.on = false → (∀ a b, exec (.encoderCount a b) s = .next s) ∧ exec .cloSramCorrect s = .next s) ∧
    (x.on = true → ∀ a b, exec (.encoderCount a x.encB) s = .next (withClo { x with
        encA := a, enc := x.enc + (if a = x.encA then 0 else if a = x.encB then -1 else 1) }) ∧
      exec (.encoderCount x.encA b) s = .next (withClo { x with
        encB := b, enc := x.enc + (if b = x.encB then 0 else if b = x.encA then 1 else -1) })) ∧
    (x.on = true → x.cap = none → exec (.encoderCount (!x.encA) (!x.encB)) s = .next (withClo { x with encA := !x.encA, encB := !x.encB })) ∧
    (∀ k, x.on = false → exec (.cloWatchdog k) s = .next s) ∧
    (∀ k, x.on = true → x.cap = none → ∃ t, exec (.cloWatchdog k) s = .next t ∧ t.clo.on = true ∧ t.clo.fault = true ∧
      t.clo.blocks = x.blocks ∧ t.clo.rseq = x.rseq) ∧
    (x.on = true → exec .cloSramCorrect s = .next ((withClo { x with cecc := min 0xFFFF (x.cecc + 1) }).postPart 0x8020 0x72 none)) ∧
    (∀ d : Nat, cloVolume g d = d * (gE g * gE g) / 2 ^ 22) ∧
    (∀ (n : Int) (m : Nat), 0 < m → 2 * (divAway n m * m - n).natAbs ≤ m)

/-- Cloche's commands on channel A, and what channel B may ask (R12, R444, R450, R454 to R456, R458); the offsets of their arguments
are the model's choice. -/
def Obligations.ClocheCommands : Prop :=
  (∀ (s : State) (i : Instr) (opc : Nat), s.clo.nextChan = some false → s.clo.nofw = false → s.clo.chA.area.byte 1 ≠ 0 →
    (s.clo.chA.area.byte 0).toNat = opc → (i, opc) ∈ [(.getid, 1), (.getstat, 2), (.getparam, 3), (.setparam, 4), (.commit, 5),
      (.zero, 6), (.measure, 7), (.beltstart, 8), (.beltread, 9), (.beltstop, 0xA), (.abort, 0xB), (.getrec, 0xC), (.getaudit, 0xD),
      (.setexp, 0xE), (.exportMap, 0xF), (.fwload, 0x10), (.getkey, 0x12)] →
    exec i s = .next (s.cloRespond false (3, []))) ∧
  ∀ (s : State), s.clo.nextChan = some false → s.clo.nofw = false → s.clo.chA.area.byte 1 = 0 →
    let x := s.clo
    let c := x.chA
    let is (opc : Nat) : Prop := (c.area.byte 0).toNat = opc
    let reply (t : State) (r : CloRes) : Answer := .next (t.cloRespond false r)
    let withClo (y : CloState) : State := { s with clo := y }
    let b := c.arg 0 4
    (is 1 → exec .getid s = reply s (0, x.ident)) ∧ (is 2 → exec .getstat s = reply s (0, x.status)) ∧
    (is 3 → exec .getparam s = reply s (getparam c x)) ∧ (is 0xD → exec .getaudit s = reply s (getaudit c x)) ∧
    (is 0x12 → exec .getkey s = reply s (0, (List.range 384).map Config.cloKeySig)) ∧
    (∀ r, is 0xC → x.recs.find? (fun r => r.1.toNat = c.arg 0 8) = some r → exec .getrec s =
      reply (withClo { x with slots := x.slots.set (Fin.ofNat 16 (c.arg 0 8)) r.2 }) (0, [])) ∧
    (is 0xC → x.recs = [] → exec .getrec s = reply s (9, [])) ∧
    (x.sealOpen = false → (is 4 → exec .setparam s = reply s (2, [])) ∧ (is 5 → exec .commit s = reply s (2, [])) ∧
      (is 0x10 → exec .fwload s = reply s (2, [])) ∧ (∀ ok, is 0x11 → exec (.fwcommit ok) s = reply s (2, []))) ∧
    (x.sealOpen = true → is 4 → cloSize b ≠ 0 → c.arg 8 4 ≤ 240 → c.arg 4 4 + c.arg 8 4 ≤ cloSize b → exec .setparam s =
      reply (withClo { x with staged := SMap.insert b (storeBytes (x.stagedBlock b) (c.arg 4 4) (c.area.read 0x10 (c.arg 8 4))) x.staged })
        (0, [])) ∧
    (x.sealOpen = true → is 5 → x.evcnt ≠ 0xFFFFFFFF → cloSize b ≠ 0 → blockOk b (x.stagedBlock b) = true → ∃ t, exec .commit s =
      .next t ∧ t.clo.blocks = SMap.insert b (x.stagedBlock b) x.blocks ∧ t.clo.evcnt = x.evcnt + 1 ∧
      t.clo.phash = cloPhash t.clo.blocks ∧ t.clo.audit = (auditBytes (x.evcnt + 1) 1 b x.lastTime
        (sha256 (blockBytes x.blocks b)) (sha256 (x.stagedBlock b)) :: x.audit).take 1024 ∧
      t.evt.incoming = s.evt.incoming ++ [⟨0x8005, 0x72, s.tb.cnt, none, false, false⟩]) ∧
    (x.sealOpen = true → is 5 → x.evcnt = 0xFFFFFFFF → exec .commit s = reply s (8, [])) ∧
    (x.cap ≠ none → (is 6 → exec .zero s = reply s (1, [])) ∧ (is 7 → exec .measure s = reply s (1, [])) ∧
      (is 8 → exec .beltstart s = reply s (1, []))) ∧
    (x.cap = none → x.pvalid = true → is 6 → ∃ t, exec .zero s = .next t ∧ t.clo.cap = some (s.newCap 3)) ∧
    (x.cap = none → x.pvalid = true → x.refValid = true → x.belt = false → is 7 → ∃ t, exec .measure s = .next t ∧
      t.clo.cap = some (s.newCap 1)) ∧
    (x.cap = none → x.pvalid = true → x.refValid = true → x.belt = true → is 8 → ∃ t, exec .beltstart s = .next t ∧
      t.clo.cap = some (s.newCap 2)) ∧
    (x.cap = none → x.pvalid = true → x.refValid = false → x.belt = false → is 7 → exec .measure s = reply s (5, [])) ∧
    (∀ k, x.cap = some k → k.kind = 2 → (is 9 → exec .beltread s = reply (s.beltRecord k false false false) (0, x.toCome)) ∧
      (is 0xA → exec .beltstop s = reply (s.beltRecord k true false false) (0, x.toCome)) ∧
      (is 0xB → exec .abort s = reply (s.beltRecord k true false true) (0, x.toCome))) ∧
    (∀ k, x.cap = some k → k.kind ≠ 2 → is 0xB → exec .abort s = reply (s.capCut k true) (0, x.toCome)) ∧
    (x.cap = none → is 0xB → exec .abort s = reply s (0, [])) ∧
    (is 0xE → s.ddr.exportOk (c.arg 0 6) (c.arg 6 6) = true → ∃ t, exec .setexp s = .next t ∧
      t.dma.drgn[(0 : Fin 2)][(0 : Fin 2)] = ⟨c.arg 0 6, c.arg 6 6⟩ ∧ t.clo.chA.done = true) ∧
    (is 0xE → s.ddr.exportOk (c.arg 0 6) (c.arg 6 6) = false → exec .setexp s = reply s (3, [])) ∧
    (is 0xF → exec .exportMap s = reply (s.cloExport (c.arg 0 4) (c.arg 4 8)).1 (s.cloExport (c.arg 0 4) (c.arg 4 8)).2) ∧
    (x.sealOpen = true → is 0x10 → c.arg 4 4 ≤ 240 → c.arg 0 4 + c.arg 4 4 ≤ 524288 → exec .fwload s =
      reply (withClo { x with fwStage := x.fwStage.write (c.arg 0 4) (c.area.read 0x10 (c.arg 4 4)) }) (0, [])) ∧
    (∀ ok, x.sealOpen = true → is 0x11 → x.evcnt ≠ 0xFFFFFFFF → 0 < b → b ≤ 524288 → Config.cloImageOk (x.fwStage.read 0 b) = true →
      ∃ t, exec (.fwcommit ok) s = .next t ∧ t.clo.image = some (x.fwStage.read 0 b) ∧ t.clo.imageBad = !ok ∧
        t.clo.evcnt = x.evcnt + 1 ∧ t.clo.cap = none) ∧
    (∀ (u : State) (d : CloChan), u.clo.nextChan = some true → d = u.clo.chB → (d.area.byte 0).toNat = 5 →
      exec .commit u = .next (u.cloRespond true (4, []))) ∧
    (∀ (u : State) (v : Bool) (r : CloRes), let t := u.cloRespond v r
      (t.clo.chan v).exec = false ∧ (t.clo.chan v).done = true ∧ (t.clo.chan v).rsp[1]? = some (BitVec.ofNat 8 r.1) ∧
      t.clo.chan (!v) = u.clo.chan (!v) ∧ (v = false → t.clo.lastRes = BitVec.ofNat 8 r.1) ∧ (v = true → t = { u with clo := t.clo }))

/-! ### Crown (chapter 20) -/

/-- Load, the power and thermal loops, DIMM temperatures, telemetry in its class, the heartbeat, the watchdog and the challenge's
end (R461 to R464, R466, R472, R481, R482). -/
def Obligations.CrownLoops : Prop :=
  ∀ (s : State), s.crn.mode = .running → s.pwr.mode = .run →
    let c := s.crn
    let ev (code : Nat) : Posted := ⟨BitVec.ofNat 16 code, 0x70, s.tb.cnt, none, false, false⟩
    (∀ load : Fin 101, let low := if load.val < 70 then some (c.lowSince.getD s.tb.cnt) else none
      let seen : State := { s with crn := { c with load := load.val, lowSince := low } }
      (c.coal = false → load.val ≤ 80 → exec (.crownLoadCheck load) s = .next seen) ∧
      (c.coal = false → 80 < load.val → exec (.crownLoadCheck load) s =
        .next ({ seen with crn := { seen.crn with coal := true } }.postPart 0x9002 0x70 none)) ∧
      (∀ t, c.coal = true → low = some t → 500000000 ≤ (s.tb.cnt - t).toNat → exec (.crownLoadCheck load) s =
        .next ({ seen with crn := { seen.crn with coal := false } }.postPart 0x9003 0x70 none))) ∧
    (∀ pts, ∃ t, exec (.powerLoop pts) s = .next t ∧ t.crn.pts = pts ∧ t.crn.loopAt = s.tb.cnt ∧
      t.crn.hbMissed = false ∧ t.pwr.hbCause = false ∧
      (∀ d : Fin 4, ptFp t.pwr.pt d ≤ min pts[d].val c.thermal[d].val) ∧
      (∀ d : Fin 4, s.pwr.brim d = true → ptFp t.pwr.pt d ≤ ptFp s.pwr.pt d) ∧
      (c.hbMissed = true → ∃ m, t.evt.incoming = s.evt.incoming ++ ev 0x9020 :: m)) ∧
    (∃ t, exec .thermalLoop s = .next t ∧ t.crn.pts = c.pts ∧ t.crn.thermAt = s.tb.cnt ∧
      (∀ d : Fin 4, (∃ x ∈ dieExcess s.pwr d, 0 < x) → t.crn.thermal[d].val = min c.thermal[d].val c.pts[d].val - 1) ∧
      (∀ d : Fin 4, (∀ x ∈ dieExcess s.pwr d, x ≤ 0) → (∃ x ∈ dieExcess s.pwr d, -80 < x) → t.crn.thermal[d] = c.thermal[d])) ∧
    (∀ v, ∃ t, exec (.dimmTempRead v) s = .next t ∧ (∀ ch : Fin 16, t.ddr.ch[ch] = { s.ddr.ch[ch] with temp := v[ch] }) ∧
      { t with ddr := s.ddr } = s) ∧
    (∀ p i v, s.serves .telemetry = false → exec (.telemetrySample p i v) s = .next s) ∧
    (s.requestsReady = true ∨ s.faultsReady = true ∨ s.loopsReady = true → s.serves .telemetry = false) ∧
    (∀ p i v, s.serves .telemetry = true → ∃ t, exec (.telemetrySample p i v) s = .next t ∧ t.crn.newest = s.telemRecord p i v ∧ t.crn.newest.length = 128 ∧
      (c.ring = none → t.ddr = s.ddr ∧ t.crn.twidx = c.twidx) ∧
      (∀ g, c.ring = some g → t.crn.twidx = c.twidx + 1 ∧
        t.ddr = (s.ddrPut .crown (g.base + 128 * (c.twidx.toNat % g.entries)) (s.telemRecord p i v)).ddr)) ∧
    (s.pwr.hbCause = false → ∃ t, exec .heartbeatMiss s = .next t ∧ t.pwr.hbCause = true ∧ t.crn.hbMissed = true ∧
      (∀ d, t.pwr.brim d = true) ∧ ∃ m, t.evt.incoming = s.evt.incoming ++ ⟨0x9051, 0xC7, s.tb.cnt, none, false, false⟩ :: m) ∧
    (∀ (ini : Initiator) h v, ini.val ≠ 0x70 → exec (.pwrHb ini h v) s = .next (s.postPart 0x9078 0xC7 none)) ∧
    (∀ v, bit v 0 = true → ∃ t, exec (.pwrHb crown .full v) s = .next t ∧ t.pwr = { s.pwr with hbCause := false } ∧
      (s.pwr.brims ≠ 0 → t.pwr.brims = 0 → t.evt.incoming = s.evt.incoming ++ [⟨0x9053, 0xC7, s.tb.cnt, none, false, false⟩])) ∧
    (∀ busy, c.update = none → ∃ t, exec (.crownWatchdog busy false) s = .next t ∧ t.crn.rst = min 0xFF (c.rst + 1) ∧
      t.crn.chal = none ∧ (c.imageOk = true → t.crn.mode = .running) ∧ (c.imageOk = false → t.crn.mode = .recovery) ∧
      ev 0x9001 ∈ t.evt.incoming ∧ t.cores = s.cores ∧ t.ddr = s.ddr) ∧
    (∀ x, c.chal = some x → (s.tb.cnt - x.cnt).toNat < 30000000000 → exec .dbgChallengeExpire s = .next s) ∧
    (∀ x, c.chal = some x → 30000000000 ≤ (s.tb.cnt - x.cnt).toNat → exec .dbgChallengeExpire s =
      .next { s with crn := { c with chal := none } })

/-- The mailbox: submission on both channels, the order of execution, Crown's classes, refusals and responses (R461, R476 to R478,
R480); that a block without a header is not taken is the model's choice. -/
def Obligations.MailboxChannels : Prop :=
  ∀ (s : State), s.pwr.mode = .run →
    let c := s.crn
    let withCrn (x : CrnState) : State := { s with crn := x }
    (∀ data, data.length = 256 →
      let m := c.reqArea.write 0 data
      let r := reqOf m
      let seen (res : Nat) : CrnState := { c with reqArea := m, lastTag := r.tag, lastRes := res }
      (reqBad m = true → exec (.mbxSubmit pf0 0 data) s = .next (withCrn (seen 2))) ∧
      (reqBad m = false → 32 ≤ c.outstanding →
        exec (.mbxSubmit pf0 0 data) s = .next (withCrn { seen 1 with busyN := min 0xFFFF (c.busyN + 1) })) ∧
      (reqBad m = false → c.outstanding < 32 → exec (.mbxSubmit pf0 0 data) s =
        .next (withCrn { seen 0 with pcie := { c.pcie with queue := c.pcie.queue ++ [r] } }).mbxSettle)) ∧
    (∀ (ini : Initiator) off data, bytesIn off data 256 = true → ini.val ≠ 0x60 → exec (.mbxSubmit ini off data) s = .next s) ∧
    (∀ ok code data, data.length ≤ 255 → ok = false ∨ code ≠ 1 ∨ data.length < 8 → exec (.smbusBlockWrite ok code data) s = .next s) ∧
    (∀ data, 8 ≤ data.length → data.length ≤ 255 →
      let m := Mem.write [] 0 data
      let r : MbxReq := ⟨BitVec.ofNat 16 (m.num 0 2), BitVec.ofNat 16 (m.num 2 2), data.drop 8⟩
      (4 ≤ c.smbOutstanding → exec (.smbusBlockWrite true 1 data) s = .next (s.respond true r (1, []))) ∧
      (c.smbOutstanding < 4 → 252 < data.length ∨ m.num 4 2 ≠ data.length - 8 ∨ m.num 6 2 ≠ 0 →
        exec (.smbusBlockWrite true 1 data) s = .next (s.respond true r (2, []))) ∧
      (c.smbOutstanding < 4 → data.length ≤ 252 → m.num 4 2 = data.length - 8 → m.num 6 2 = 0 → exec (.smbusBlockWrite true 1 data) s =
        .next (withCrn { c with smb := { c.smb with queue := c.smb.queue ++ [r] } }).mbxSettle)) ∧
    (∀ x rest, c.smbRsp = x :: rest → exec .smbusBlockRead s = .next ((withCrn { c with smbRsp := rest }).emit (.smbus x.bytes))) ∧
    (c.smbRsp = [] → exec .smbusBlockRead s = .next (s.emit (.smbus []))) ∧
    (∀ p ps q qs, c.pcie.queue = p :: ps → c.smb.queue = q :: qs →
      c.nextReq = some (if c.tokSmb then (true, q) else (false, p))) ∧
    (∀ p ps, c.pcie.queue = p :: ps → c.smb.queue = [] → c.nextReq = some (false, p)) ∧
    (∀ p ps x, c.nextReq = some (false, p) → c.pcie.queue = p :: ps → let t := s.answer false p x
      t.crn.pcie.queue = ps ∧ t.crn.tokSmb = true ∧ t.crn.rwidx = c.rwidx + 1 ∧
      t.crn.rspRing = SMap.insert (c.rwidx.toNat % 64) ⟨p.opc, p.tag, BitVec.ofNat 8 x.1, x.2⟩ c.rspRing ∧
      t.evt.incoming = s.evt.incoming ++ [⟨0xA010, 0xC1, s.tb.cnt, none, false, false⟩]) ∧
    (c.nextReq = none → exec .getId s = .next s ∧ exec .dbgUnlock s = .next s ∧ exec .fwUpdate s = .next s) ∧
    (c.mode = .rom → exec .getId s = .next s) ∧
    (s.serves .requests = false → exec .getId s = .next s ∧ exec .dbgUnlock s = .next s ∧ exec .fwUpdate s = .next s) ∧
    (c.mode = .running → s.faultsReady = true ∨ s.loopsReady = true → s.serves .requests = false) ∧
    (∀ r, c.mode = .running → s.serves .requests = true → c.nextReq = some (true, r) → r.opc = 0x10 → exec .fwUpdate s = .next (s.answer true r (3, [])).mbxSettle) ∧
    (∀ b r, c.mode = .recovery → c.nextReq = some (b, r) → r.opc = 3 → exec .attest s = .next (s.answer b r (3, [])).mbxSettle) ∧
    (∀ r, c.mode = .running → c.nextReq = some (false, r) → mbxOpcodes.contains r.opc.toNat = true → r.opc ≠ 1 →
      exec .getId s = .next s)

/-- The mailbox commands on a request that is due and permitted (R353, R467 to R475, R478, R479, R481). -/
def Obligations.MailboxCommands : Prop :=
  ∀ (s : State) (b : Bool) (r : MbxReq), s.mbxServes = true → s.serves .requests = true → s.crn.nextReq = some (b, r) → s.mbxAllowed b r.opc.toNat = true →
    let c := s.crn
    let is (o n : Nat) : Prop := r.opc.toNat = o ∧ r.data.length = n
    let reply (x : State × MbxRes) : Answer := .next ((x.1.answer b r x.2).mbxSettle)
    let withCrn (x : CrnState) : State := { s with crn := x }
    let i := r.num 0 2
    (is 1 0 → exec .getId s = reply (s, 0, s.idData)) ∧
    (is 2 0 → exec .getCert s = reply (s.setResult b r ((List.range 2048).map Config.cert))) ∧
    (is 3 32 → exec .attest s = reply (s.attest b r)) ∧
    (r.opc = 3 → r.data.length ≠ 32 → exec .attest s = reply (s, 2, [])) ∧
    (is 4 6 → (c.chan b).resTag = some (BitVec.ofNat 16 i) → r.num 4 2 ≤ 240 → r.num 2 2 + r.num 4 2 ≤ 4096 →
      exec .bufRead s = reply (s, 0, (c.chan b).result.read (r.num 2 2) (r.num 4 2))) ∧
    (is 4 6 → (c.chan b).resTag ≠ some (BitVec.ofNat 16 i) → exec .bufRead s = reply (s, 7, [])) ∧
    (r.opc = 5 → 2 ≤ r.data.length → i + (r.data.length - 2) ≤ 4096 → exec .bufWrite s =
      reply (s.modMbx b fun q => { q with input := q.input.write i (r.data.drop 2) }, 0, [])) ∧
    (∀ bs, is 0x10 12 → c.update = none → r.num 8 4 ≤ 4194304 → s.ddr.insideFor [50] (r.num 0 8) (r.num 8 4) = true →
      s.ddrRead .crown (r.num 0 8) (r.num 8 4) = (s, some bs) →
      (imgFault bs c.minSvn = none → exec .fwUpdate s = reply ((s.postPart 0x9010 0x70 none).writeAllRepairs.modCrn fun c =>
        { c with update := some (bs.take (imgLen bs + 384)) }, 0, [])) ∧
      (∀ e, imgFault bs c.minSvn = some e → exec .fwUpdate s = reply (s, e, []))) ∧
    (is 0x10 12 → c.update ≠ none → exec .fwUpdate s = reply (s, 9, [])) ∧
    (∀ bs ok, c.update = some bs → ∃ t, exec (.fwFlashWriteDone ok) s = .next t ∧ t.crn.update = none ∧ t.crn.image = some bs ∧
      t.crn.imageBad = !ok ∧ t.crn.running = c.running ∧
      ∃ m, t.evt.incoming = m ++ [⟨if ok then 0x9011 else 0x9012, 0x70, s.tb.cnt, none, false, false⟩]) ∧
    (is 0x11 0 → c.update = none → exec .fwStatus s =
      reply (s, 0, leBytes 1 c.code ++ leBytes 4 (match c.image with | some bs => bs.length | none => 0) ++ [c.fwRes])) ∧
    (r.opc = 0x18 → 4 ≤ r.data.length → r.data.length ≤ 244 → r.num 0 4 + (r.data.length - 4) ≤ 4194304 → exec .recoverLoad s =
      reply (withCrn { c with staging := c.staging.write (r.num 0 4) (r.data.drop 4) }, 0, [])) ∧
    (∀ e, is 0x19 4 → r.num 0 4 ≤ 4194304 → imgFault (c.staging.read 0 (r.num 0 4)) c.minSvn = none →
      exec (.recoverCommit false e) s = reply (withCrn { c with imageBad := true }, 0x0A, []) ∧
      exec (.recoverCommit true e) s = reply (s.commitImage (c.staging.read 0 (r.num 0 4)) e, 0, [])) ∧
    (∀ bs, is 0x20 2 → i < 0x60 → s.calItem i = some bs → bs.length ≤ 240 → exec .calRead s = reply (s, 0, bs)) ∧
    (r.opc = 0x21 → 2 ≤ r.data.length → calRefusal i (r.data.drop 2) = none → i < 0x40 → exec (.calWrite true) s =
      reply ((withCrn { c with userCal := SMap.insert i (r.data.drop 2) c.userCal }).postPart 0x9030 0x70 none, 0, [])) ∧
    (∀ e ok, r.opc = 0x21 → 2 ≤ r.data.length → calRefusal i (r.data.drop 2) = some e → exec (.calWrite ok) s = reply (s, e, [])) ∧
    (is 0x28 2 → i < 30 → exec .cfgRead s = reply (s, 0, leBytes 1 (ofBool (c.stored.find? fun e => e.1 = i).isSome) ++
      leBytes 16 (match c.stored.find? fun e => e.1 = i with | some e => e.2.toNat | none => 0) ++ leBytes 16 (s.cfgCurrent i).toNat)) ∧
    (is 0x29 19 → r.num 18 1 = 2 → cfgValid i (BitVec.ofNat 128 (r.num 2 16)) = true → exec (.cfgWrite true) s =
      reply ((withCrn { c with stored := SMap.insert i (BitVec.ofNat 128 (r.num 2 16)) c.stored }).postPart 0x9031 0x70 none, 0, []) ∧
      exec (.cfgWrite false) s = reply (s, 0x0A, [])) ∧
    (is 0x30 12 → r.num 8 4 = 1024 → s.ddr.insideFor [50, 51] (r.num 0 8) 131072 = true →
      exec .telemCfg s = reply (withCrn { c with ring := some ⟨r.num 0 8, 1024⟩ }, 0, [])) ∧
    (is 0x31 0 → c.newest ≠ [] → exec .telemLast s = reply (s, 0, c.newest)) ∧
    (is 0x31 0 → c.newest = [] → exec .telemLast s = reply (s, 7, [])) ∧
    (is 0x38 5 → r.num 4 1 ≤ 64 → exec .logRead s = reply (s.logRead b r)) ∧
    (is 0x40 1 → r.num 0 1 ≤ 1 → exec .setOrigin s = reply ({ s with fab := { s.fab with origin := decide (r.num 0 1 = 1) } }, 0, [])) ∧
    (is 0x48 0 → ∃ t, exec .dbgChal s = .next t ∧ ∃ x, t.crn.chal = some x ∧ x.cnt = s.tb.cnt ∧ x.bytes.length = 32) ∧
    (is 0x49 0 → s.tokenOk = false → exec .dbgUnlock s =
      reply ((withCrn { c with chal := none, refn := min 0xFF (c.refn + 1) }).postPart 0x9041 0x70 none, 5, [])) ∧
    (is 0x49 0 → s.tokenOk = true → exec .dbgUnlock s =
      reply ((withCrn { c with chal := none, unlocked := true, scope := c.scope ||| BitVec.ofNat 2 (c.pcie.input.num 0x28 1) }).postPart
        0x9040 0x70 none, 0, [])) ∧
    (s.armed = true ∨ s.chalValid = false → s.tokenOk = false)

/-! ### Events and the host interface (chapter 21) -/

/-- The event unit: which code is next, its routes, the host ring, Crown's queue and messages (R30, R493 to R495). -/
def Obligations.EventsAndMessages : Prop :=
  ∀ (s : State),
    let e := s.evt
    let withEvt (x : EvtState) : State := { s with evt := x }
    (∀ ps p, firstPosted ps = some p → p ∈ ps ∧ ∀ q ∈ ps, q.before p = false) ∧
    (e.incoming = [] → exec .eventRoute s = .next s) ∧
    exec (.gntLockstepError .eventUnit) s = .next (s.postPart 0x6091 0xC0 none) ∧
    (∀ p, firstPosted e.incoming = some p → s.toGnt p = false → codeToCrown p.code.toNat = false →
      (∀ w ∈ e.routes.toList, rtMatches w p.code = false) → exec .eventRoute s =
        .next (withEvt { e with incoming := e.incoming.erase p, noroute := min 0x7FFFFFFF (e.noroute + 1) })) ∧
    (∀ p w, firstPosted e.incoming = some p → e.routes.toList.find? (fun w => rtMatches w p.code) = some w → ∃ t,
      exec .eventRoute s = .next t ∧ t.evt.incoming = e.incoming.erase p ∧
      (let q := { p with fenced := e.suppressed p }
       t.evt.gntQ = (if s.toGnt p then e.gntQ ++ [q] else e.gntQ) ∧
       t.evt.toCrown = (if codeToCrown p.code.toNat then e.toCrown ++ [q] else e.toCrown) ∧
       t.evt.toRing = (if rtMsi w && !e.suppressed p then e.toRing ++ [(q, rtVec w)] else e.toRing)) ∧
      (rtSyn w = true → t.cores[rtCore w].spd.sync =
        SMap.set 0 s.cores[rtCore w].spd.sync (rtSync w) (s.cores[rtCore w].sync (rtSync w) + 1)) ∧
      (rtSyn w = false → t.cores = s.cores)) ∧
    (∀ p v rest, e.toRing = (p, v) :: rest → e.depth ≠ 1024 → ∃ t, exec .eventQueueDeliver s = .next t ∧ t.evt.toRing = rest ∧
      t.evt.widx = e.widx + 1 ∧ t.evt.ring = SMap.insert (e.widx.toNat % 1024) ⟨p.code, p.src, v, p.cnt⟩ e.ring) ∧
    (∀ p v rest, e.toRing = (p, v) :: rest → e.depth = 1024 → exec .eventQueueDeliver s =
      .next (withEvt { e with toRing := rest, ovf := true, ovfc := min 0xFFFFFFFF (e.ovfc + 1) })) ∧
    (∀ p rest, e.toRing = [] → e.toCrown = p :: rest → e.crownQ.length < 1024 → exec .eventQueueDeliver s =
      .next (withEvt { e with toCrown := rest, crownQ := e.crownQ ++ [p] })) ∧
    (∀ p rest, e.toRing = [] → e.toCrown = p :: rest → 1024 ≤ e.crownQ.length → ∃ t, exec .eventQueueDeliver s = .next t ∧
      t.evt.crownQ = e.crownQ ∧ t.evt.toCrown = rest ∧ t.evt.crownLost = e.crownLost + 1 ∧ t.evt.ovf = true ∧
      t.flt.lost = min 0xFFFFFFFF (s.flt.lost + 1)) ∧
    (e.toRing = [] → e.toCrown = [] → exec .eventQueueDeliver s = .next s) ∧
    (∀ pf1 (v : Fin 256), let f := s.pci.fn pf1
      ((f.vect v).pending = true → f.blocked v = false → exec (.msixPendingSend pf1 v) s =
        .next ((s.modFn pf1 fun f => f.setPending v false).emit (.msix pf1 v (f.vect v).addr (f.vect v).data))) ∧
      (f.blocked v = true ∨ (f.vect v).pending = false → exec (.msixPendingSend pf1 v) s = .next s)) ∧
    (∀ (i : Fin 256) (ini : Initiator) h v, ini.val ≠ 0x60 → ini.val ≠ 0x70 → exec (.evtRouteWrite i ini h v) s = .next s) ∧
    (∀ (i : Fin 256) v, fld v 58 3 = 0 → fld v 32 4 = 0 → s.armed = false → let u := s.routeWaiting
      exec (.evtRouteWrite i pf0 .full v) s = .next { u with evt := { u.evt with routes := u.evt.routes.set i v } } ∧
      u.evt.incoming = []) ∧
    (∀ (i : Fin 256) v, fld v 58 3 ≠ 0 ∨ fld v 32 4 ≠ 0 ∨ (s.rtSafety v = true ∧ s.armed = true) →
      exec (.evtRouteWrite i pf0 .full v) s = .next (s.postPart 0xA006 0xC0 none))

/-- Link, resets, windows, the DDR aperture, register access, reads and configuration requests (R9, R454, R485 to R492,
R498). -/
def Obligations.HostInterface : Prop :=
  ∀ (s : State) (ini : Initiator) (h : Half) (v : Word),
    let p := s.pci
    let withPci (x : PciState) : State := { s with pci := x }
    let host := ini.val = 0x60 ∨ ini.val = 0x70
    (∀ sp w, s.pwr.mode = .run → p.linkUp = false → exec (.pcieLinkUp sp w) s = .next ((withPci { p with
      linkUp := true, speed := BitVec.ofNat 3 (sp.val + 1), width := BitVec.ofNat 3 (2 ^ w.val) }).postPart 0xA001 0xC1 none)) ∧
    (∀ sp w, s.pwr.mode ≠ .run → exec (.pcieLinkUp sp w) s = .next s) ∧
    (p.linkUp = true → exec .pcieLinkDown s = .next ((withPci { p with linkUp := false }).postPart 0xA002 0xC1 none)) ∧
    (p.linkUp = false → exec .pcieLinkDown s = .next s) ∧
    (∃ t, exec .pcieReset s = .next t ∧ t.pci = { p with
      linkUp := false, retr := 0, apbase := 0, hwin := PciState.reset.hwin, pf0 := PciFn.reset, pf1 := PciFn.reset } ∧ t.ddr = s.ddr) ∧
    exec .flrPf0 s = .next ((withPci { p with
      apbase := 0, hwin := PciState.reset.hwin, pf0 := { PciFn.reset with bar4Size := p.pf0.bar4Size } }).postPart 0xA020 0xC1 none) ∧
    (∃ t, exec .flrPf1 s = .next t ∧ t.pci = { p with pf1 := PciFn.reset } ∧ t.clo.chA.mute = s.clo.chA.exec ∧
      t.evt.incoming = s.evt.incoming ++ [⟨0xA021, 0xC1, s.tb.cnt, none, false, false⟩]) ∧
    (let w := v &&& 0x0000FFFFC0000000#64
     (host → w.toNat % 2 ^ (p.pf0.bar4Size + 30) = 0 → exec (.pciApbaseWrite ini .full v) s = .next (withPci { p with apbase := w })) ∧
     (host → w.toNat % 2 ^ (p.pf0.bar4Size + 30) ≠ 0 → exec (.pciApbaseWrite ini .full v) s = .next (s.postPart 0xA005 0xC1 none))) ∧
    (∀ k, host → exec (.pciHwinWrite k ini .full v) s = .next (withPci { p with hwin := p.hwin.set k (v &&& 0x3F) })) ∧
    (∀ k, ¬ host → exec (.pciHwinWrite k ini h v) s = .next s ∧ exec (.pciApbaseWrite ini h v) s = .next s) ∧
    (∀ (k : Fin 32) off data, hostWindowOk off data = true → s.pf0Memory = true → s.onlyCrn = false →
      exec (.hostWindowWrite k off data .none) s =
        .next (s.windowWrites (Fin.ofNat 32 (fld p.hwin[k] 0 5)) 0x60 (fld p.hwin[k] 5 1 * 0x400000 + off) data)) ∧
    (∀ (k : Fin 32) off data, hostWindowOk off data = true → s.pf0Memory = false → exec (.hostWindowWrite k off data .none) s = .next s) ∧
    (∀ off op, hostDdrOk op = true → s.pcieAlive = true → ∃ t, exec (.hostDdrAccess off op .ecrc) s = .next t ∧ t.pci.ecrce = min 0xFFFF (p.ecrce + 1) ∧
      t.ddr = s.ddr ∧ t.evt.incoming = s.evt.incoming ++ [⟨0xA004, 0xC1, s.tb.cnt, none, false, false⟩]) ∧
    (∀ off n, 1 ≤ n → n ≤ 4096 → s.pf0Memory = true → s.onlyCrn = false → off + n ≤ 2 ^ p.pf0.bar4Size * 2 ^ 30 →
      ∀ bs, s.ddrRead .host (p.apbase.toNat + off) n = (s, some bs) →
      exec (.hostDdrAccess off (.read n) .none) s = .next (s.emit (.hostCompletion (some bs)))) ∧
    (∀ off d, 1 ≤ d.length → d.length ≤ 512 → s.pf0Memory = true → s.onlyCrn = false → off + d.length ≤ 2 ^ p.pf0.bar4Size * 2 ^ 30 →
      exec (.hostDdrAccess off (.write d) .none) s = .next (s.ddrPut .host (p.apbase.toNat + off) d)) ∧
    (∀ b off n, hostReadOk b off n = true → s.pwr.mode ≠ .run → s.pwr.mode ≠ .doze → exec (.hostRead b off n .none) s = .next s) ∧
    (∀ off, off % 8 = 0 → off + 8 ≤ 0x4000000 → s.pf0Memory = true → s.onlyCrn = false → ¬ (0x1000000 ≤ off ∧ off < 0x2000000) →
      exec (.hostRead .bar0 off 8 .none) s = .next ({ s with free := s.free + 1 }.emit (.hostCompletion (some (s.regBytes off 8))))) ∧
    (∀ off n, hostReadOk .bar0 off n = true → s.pwr.mode = .run → s.pf0Memory = false ∨ off % n ≠ 0 ∨ (n ≠ 4 ∧ n ≠ 8) → ∃ t,
      exec (.hostRead .bar0 off n .none) s = .next t ∧ t.out = s.out ++ [.hostCompletion none] ∧ t.pci.urc = min 0xFFFF (p.urc + 1)) ∧
    (∀ off data, off % 8 = 0 → data.length = 8 → off + 8 ≤ 0x4000000 → s.pf0Memory = true → s.onlyCrn = false →
      exec (.registerWrite (.bar0 pf0) off data .none) s = .next (s.regPut 0x60 off data)) ∧
    (∀ off data f, regWriteOk (.bar0 ini) off data = true → s.pwr.mode ≠ .run → exec (.registerWrite (.bar0 ini) off data f) s = .next s) ∧
    (∀ pf1 op, s.pwr.mode = .doze → exec (.configurationRequest pf1 op) s = .next (s.unsupportedBy pf1)) ∧
    (∀ pf1 op, s.pcieAlive = false → exec (.configurationRequest pf1 op) s = .next s) ∧
    (∀ pf1, (s.unsupportedBy pf1).pci.corr = min 0xFFFF (p.corr + 1) ∧ (s.unsupportedBy pf1).pci.urc = min 0xFFFF (p.urc + 1)) ∧
    (∀ pf1 op, s.pwr.mode = .run → (if pf1 then s.pf1Ready else s.pf0Ready) = false →
      exec (.configurationRequest pf1 op) s = .next (s.emit (.cfgCompletion pf1 none))) ∧
    (∀ pf1 op, s.pwr.mode = .run → (if pf1 then s.pf1Ready else s.pf0Ready) = true → exec (.configurationRequest pf1 op) s =
      .next ((s.modFn pf1 fun f => f.config pf1 op).emit (.cfgCompletion pf1 (some (if op = .readId then fnId pf1 else 0)))))

/-! ### Power, temperature and restarts (chapter 22) -/

/-- DVFS and Gauntlet's monitors of it, Brim, NAP, the trip, loss of power, the always-on clock and DOZE entry (R504, R506 to
R517). -/
def Obligations.PowerAndTemperature : Prop :=
  ∀ (s : State) (d : Fin 4),
    let p := s.pwr
    let withPwr (x : PwrState) : State := { s with pwr := x }
    let refused : Answer := .next (s.postPart 0x9078 0xC7 none)
    (∀ (ini : Initiator) h v, ini.val ≠ 0x70 → exec (.pwrDvfsWrite ini h v) s = refused) ∧
    (∀ v, (∃ e : Fin 4, fld v (8 * e.val + 4) 3 < fld v (8 * e.val) 3) ∨
      (∃ e : Fin 4, p.brim e = true ∧ ptFp p.pt e < fld v (8 * e.val) 3) → exec (.pwrDvfsWrite crown .full v) s = refused) ∧
    (∀ v, (∀ e : Fin 4, fld v (8 * e.val) 3 ≤ fld v (8 * e.val + 4) 3) → (∀ e : Fin 4, p.brim e = true → fld v (8 * e.val) 3 ≤ ptFp p.pt e) →
      (∀ e : Fin 4, ptFp p.pt e ≤ ptVp p.pt e) → ∃ t, exec (.pwrDvfsWrite crown .full v) s = .next t ∧
        t.pwr.dvfs = v &&& 0x77777777 ∧ OnlyPower s t ∧ { t.pwr with dvfs := p.dvfs, pt := p.pt, settle := p.settle } = p ∧ (∀ e : Fin 4, ptFp t.pwr.pt e ≤ ptVp t.pwr.pt e) ∧
        (∀ e : Fin 4, t.gnt.mon[e].fp = ptFp t.pwr.pt e ∧ t.gnt.mon[e].vp = fld v (8 * e.val + 4) 3 ∧
          (s.gnt.mon[e].vp ≠ fld v (8 * e.val + 4) 3 → t.gnt.mon[e].other = some (s.gnt.mon[e].vp, s.tb.cnt))) ∧
        (∀ e : Fin 4, fld v (8 * e.val + 4) 3 ≤ ptVp p.pt e → ptFp t.pwr.pt e = fld v (8 * e.val) 3 ∧
          ptVp t.pwr.pt e = fld v (8 * e.val + 4) 3)) ∧
    (p.settle[d] = none → exec (.dvfsVoltageSettled d) s = .next (s.modMon d fun k => { k with other := none })) ∧
    (∀ b, p.settle[d] = some b → p.brim d = false → ∃ t, exec (.dvfsVoltageSettled d) s = .next t ∧ ptVp t.pwr.pt d = fld b 4 3 ∧
      ptFp t.pwr.pt d = fld b 0 3 ∧ t.pwr.settle[d] = none ∧ t.gnt.mon[d].fp = fld b 0 3 ∧ t.gnt.mon[d].other = none ∧ OnlyPower s t ∧
      { t.pwr with pt := p.pt, settle := p.settle } = p) ∧
    (bit p.ocCause d.val = false → ∃ t, exec (.brimOvercurrent d) s = .next t ∧ t.pwr.brim d = true ∧ t.pwr.pt = p.pt ∧
      ∃ m, t.evt.incoming = s.evt.incoming ++ ⟨0x9050, 0xC7, s.tb.cnt, none, false, false⟩ :: m) ∧
    (p.pinCause = false → ∃ t, exec .brimPinAssert s = .next t ∧ (∀ e, t.pwr.brim e = true) ∧
      ∃ m, t.evt.incoming = s.evt.incoming ++ ⟨0x9052, 0xC7, s.tb.cnt, none, false, false⟩ :: m) ∧
    (∃ t, exec (.brimClear 4) s = .next t ∧ t.pwr = { p with brimLow := false, pinCause := false } ∧
      (p.brims ≠ 0 → t.pwr.brims = 0 → t.evt.incoming = s.evt.incoming ++ [⟨0x9053, 0xC7, s.tb.cnt, none, false, false⟩])) ∧
    (bit p.ocLow d.val = true → 0 < ptFp p.pt d → ∃ t, exec (.brimStepDown d) s = .next t ∧ ptFp t.pwr.pt d = ptFp p.pt d - 1 ∧
      ptVp t.pwr.pt d = ptVp p.pt d ∧ t.evt.incoming = s.evt.incoming ++ [⟨0x9054, 0xC7, s.tb.cnt, none, false, false⟩]) ∧
    (bit p.ocLow d.val = false ∨ ptFp p.pt d = 0 → exec (.brimStepDown d) s = .next s) ∧
    (s.mainUp = true → p.napEn = true → (∀ c ∈ dieCores d, s.coreIdle c = true) →
      exec (.napEnter d) s =
        .next ((withPwr { p with nap := setBit p.nap d.val true }).modMon d fun k => { k with stopped := true })) ∧
    (p.napEn = false ∨ (∃ c ∈ dieCores d, s.coreIdle c = false) → exec (.napEnter d) s = .next s) ∧
    (p.napEn = false ∨ (∃ c ∈ dieCores d, s.cores[c].waiting = true) →
      ∃ t, exec (.napWake d) s = .next t ∧ t.pwr = { p with nap := setBit p.nap d.val false } ∧ OnlyPower s t ∧ t.gnt.mon[d].stopped = false ∧
        (s.gnt.mon[d].stopped = true → t.gnt.mon[d].back = some s.tb.cnt)) ∧
    (∀ raw, p.mode = .run → p.trip = false →
      (∃ k : Fin 24, tripAt k ≤ raw[k].toInt + (Config.factoryTemp k.val).toInt) → ∃ t, exec (.thermalSample ⟨raw, false⟩) s = .next t ∧
        t.pwr.trip = true ∧ t.ddr.selfRefresh = true ∧ (∀ c : CoreId, t.cores[c].seq.phase = .idle) ∧
        ∃ m, t.evt.incoming = m ++ [⟨0x9060, 0xC7, s.tb.cnt, none, false, false⟩]) ∧
    (∀ raw, p.mode = .run → (∀ k : Fin 24, raw[k].toInt + (Config.factoryTemp k.val).toInt < tripAt k) → ∃ t,
      exec (.thermalSample ⟨raw, false⟩) s = .next t ∧ t.pwr.trip = p.trip ∧ t.evt = s.evt ∧
      ∀ k : Fin 24, t.pwr.eff[k] = raw[k].toInt + (Config.factoryTemp k.val).toInt + s.crn.tempOffset k) ∧
    (∀ raw t, s.mainUp = true → exec (.thermalSample ⟨raw, false⟩) s = .next t → exec (.thermalSample ⟨raw, true⟩) s =
      .next (if t.pwr.trip then t else t.postFull 0x9078 0xC7 none true)) ∧
    (p.mode = .run → ∃ t, exec .powerDown s = .next t ∧ t.pwr.mode = .aoOnly ∧ t.pwr.main = false ∧ t.ddr.selfRefresh = true ∧
      (∀ c : CoreId, t.cores[c].seq.phase = .idle) ∧ ∃ m, t.evt.incoming = m ++ [⟨0x9070, 0xC7, s.tb.cnt, none, false, false⟩]) ∧
    (p.mode = .off → exec .powerDown s = .next s ∧ exec .aoClockLoss s = .next s) ∧
    (p.mode ≠ .off → p.aoClkLost = false →
      exec .aoClockLoss s = .next ((withPwr { p with aoClkLost := true }).postPart 0x9074 0xC7 none)) ∧
    (∀ (ini : Initiator), ini.val ≠ 0x60 → ini.val ≠ 0x70 → exec (.dozeEnter ini) s = refused) ∧
    (∀ (ini : Initiator), ini.val = 0x60 ∨ ini.val = 0x70 → p.mode = .run → s.armed = true →
      exec (.dozeEnter ini) s = .next (s.postPart 0x9073 0xC7 none)) ∧
    (∀ (ini : Initiator), ini.val = 0x60 ∨ ini.val = 0x70 → p.mode = .run → s.armed = false → (∀ c : CoreId, s.cores[c].seq.phase = .idle) →
      ∃ t, exec (.dozeEnter ini) s = .next t ∧ t.pwr.mode = .doze ∧ t.ddr.selfRefresh = true ∧ t.ddr.mem = s.ddr.mem ∧ t.pci.linkUp = false)

/-- Power-on, cold and warm restarts, what they keep, OFF, DOZE exit and the end of a trip (R341, R378, R428, R429, R466, R467,
R501 to R508, R514, R525 to R527). -/
def Obligations.Restarts : Prop :=
  ∀ (s : State) (erased : Bool) (e : StartEnv),
    let p := s.pwr
    let sound := e.testEn = false ∧ startBad e = []
    (p.mode = .off → exec .aoPowerGood s = .next { s with tb := TbState.reset, pwr := { p with ao := true, mode := .aoOnly } }) ∧
    (p.mode ≠ .off → exec .aoPowerGood s = .next s) ∧
    (p.mode = .aoOnly → p.rstLow = true → exec (.coldRestart erased e) s = .next s) ∧
    (p.mode = .aoOnly → p.rstLow = false → sound → (s.crn.cutUpdate erased).imageOk = true → ∃ t, exec (.coldRestart erased e) s = .next t ∧
      t.pwr.mode = .run ∧ t.crn.mode = .running ∧ t.gnt.mode = .test ∧ bit t.ddr.cfg 63 = true ∧ t.ddr.mem = [] ∧
      (∀ q : Fin 4, t.flt.part[q] = .running) ∧ ((∀ x ∈ s.crn.stored, x.1 ≠ 18) → t.flt.peff = pmapReset) ∧ t.tb.cnt = s.tb.cnt ∧ t.clo = s.clo ∧
      (∀ c : CoreId, t.cores[c] = CoreSt.reset)) ∧
    (p.mode = .aoOnly → p.rstLow = false → e.testEn = false → (s.crn.cutUpdate erased).imageOk = false → ∃ t,
      exec (.coldRestart erased e) s = .next t ∧ t.crn.mode = .recovery ∧ t.crn.atStart = true ∧ (∀ q : Fin 4, t.flt.part[q] = .held) ∧
      t.evt.incoming = [⟨0x9013, 0x70, s.tb.cnt, none, false, false⟩]) ∧
    (p.mode = .run → s.flt.mrst ≠ .cold → exec (.coldRestart erased e) s = .next s) ∧
    (p.mode = .run → s.flt.mrst ≠ .warm → exec (.warmRestart false erased e) s = .next s) ∧
    (p.mode = .run → s.flt.mrst = .warm → p.start = .none → p.rstLow = false → p.trip = false → sound →
      (s.crn.cutUpdate erased).imageOk = true → ∃ t, exec (.warmRestart false erased e) s = .next t ∧ t.pwr.mode = .run ∧
      t.ddr.mem = s.ddr.mem ∧ t.ddr.selfRefresh = false ∧ (∀ i : Fin 64, t.gnt.strm[i].ring = [] ∧ t.gnt.strm[i].vwidx = 0) ∧ t.gnt.mode = .test ∧
      t.flt.table.length = s.flt.table.length ∧ t.flt.log = s.flt.log ∧ t.tb.cnt = s.tb.cnt ∧ t.clo = s.clo) ∧
    (p.mode = .run → ∃ t, exec (.warmRestart true erased e) s = .next t ∧ t.pwr.rstLow = true ∧
      (t.pwr.mode = .held .warm ∨ t.pwr.mode = .held .cold) ∧ (∀ c : CoreId, t.cores[c] = CoreSt.reset) ∧ t.pci = PciState.reset) ∧
    (∀ r, p.mode = .held r → p.trip = false → e.testEn = false → s.crn.imageOk = true → ∃ t, exec (.modRstRelease e) s = .next t ∧
      t.pwr.rstLow = false ∧ t.pwr.mode = .run) ∧
    (p.mode = .run → exec (.modRstRelease e) s = .next { s with pwr := { p with rstLow := false } }) ∧
    (p.trip = true → s.cooled = true → p.mode = .aoOnly → exec (.tripRelease e) s =
      .next ({ s with pwr := { p with trip := false } }.postPart 0x9061 0xC7 none)) ∧
    (p.trip = false ∨ s.cooled = false → exec (.tripRelease e) s = .next s) ∧
    (∃ t, exec (.powerOff erased) s = .next t ∧ t.pwr = PwrState.reset ∧ t.clo = s.clo ∧ t.flt.table = s.flt.table ∧
      t.flt.flashLog = s.flt.flashLog ∧ t.ddr = DdrState.reset ∧ t.crn.minSvn = s.crn.minSvn ∧ t.crn.image = s.crn.image ∧
      t.crn.stored = s.crn.stored ∧ t.pending = s.pending) ∧
    (p.mode ≠ .doze → exec (.dozeExit erased) s = .next s) ∧
    (p.mode = .doze → p.rstLow = false → ∃ t, exec (.dozeExit erased) s = .next t ∧ t.pwr.mode = .run ∧ t.gnt.dozed = true ∧
      t.ddr.rgn = s.ddr.rgn ∧ t.ddr.mem = s.ddr.mem ∧ t.ddr.selfRefresh = false ∧ (∀ c : CoreId, t.cores[c] = CoreSt.reset) ∧
      t.crn = s.crn ∧ ∃ m, t.evt.incoming = m ++ [⟨0x9072, 0xC7, s.tb.cnt, none, false, false⟩]) ∧
    (p.mode = .doze → p.rstLow = true → p.start ≠ .cold → ∃ t, exec (.dozeExit erased) s = .next t ∧ t.pwr.mode = .held .warm)

/-! ### The whole module -/

/-- Every command completes in every state; one whose operands no agent can form has no effect (the model's choice, log entry 126). -/
def Obligations.EveryCommandCompletes : Prop :=
  ∀ (c : Instr) (s : State), (c.wf = true → Completes (exec c s)) ∧ (c.wf = false → exec c s = .next s)

/-- With well-formed commands waiting, the module never stops, and a step takes the front command and no other. -/
def Obligations.ModuleNeverStops : Prop :=
  ∀ s : State, s.queueOk → ∃ t, step s = .next t ∧ t.pending = s.pending.tail ∧ t.queueOk

/-- TB_CNT over any step: it counts with time outside OFF, and no command writes it; PWROK_AO's edges start it at 0 (R374;
time passing on an empty queue is log entry 122). -/
def Obligations.TimeBaseCounts : Prop :=
  ∀ s t : State, step s = .next t →
    (s.pending = [] → t.tb.cnt = if s.pwr.mode = .off then s.tb.cnt else s.tb.cnt + 1) ∧
    (∀ c rest, s.pending = c :: rest → t.tb.cnt =
      match c with
      | .powerOff _ => 0
      | .aoPowerGood => if s.pwr.mode = .off then 0 else s.tb.cnt
      | _ => s.tb.cnt)

/-- What Cloche computes changes by three things only: a COMMIT or an FWCOMMIT with the seal open, and the end of a ZERO
(R440). A start that finds both copies of a block failed leaves free bytes in it (R441; the model's choice, log entry 199). -/
def Obligations.OnlyThreeThingsChangeCloche : Prop :=
  ∀ s t : State, step s = .next t →
    (t.clo.blocks ≠ s.clo.blocks → (s.clo.sealOpen = true ∧ s.pending.head? = some .commit) ∨
      ∃ lost badRef, lost ≠ [] ∧ s.pending.head? = some (.clocheStart lost badRef)) ∧
    (t.clo.image ≠ s.clo.image → s.clo.sealOpen = true ∧ ∃ ok, s.pending.head? = some (.fwcommit ok)) ∧
    (t.clo.ref ≠ s.clo.ref → s.pending.head? = some .captureEnd ∧ ∃ c, s.clo.cap = some c ∧ c.kind = 3)

/-- No step lowers MINSVN, and an older image than it never starts to run (R465, R466). -/
def Obligations.NoRollback : Prop :=
  ∀ s t : State, step s = .next t → s.crn.minSvn ≤ t.crn.minSvn ∧
    (∀ bs, t.crn.running = some bs → t.crn.running ≠ s.crn.running → s.crn.minSvn ≤ imgSvn bs)

/-- DDR, the scratchpads, the hot stores and the transmit buffers stay in their canonical form. -/
def Obligations.MemoryStaysCanonical : Prop :=
  ∀ s t : State, s.memOk → step s = .next t → t.memOk

/-- No two enabled regions come to share a GiB (R328). -/
def Obligations.RegionsNeverOverlap : Prop :=
  ∀ s t : State, s.ddr.regionsApart → step s = .next t → t.ddr.regionsApart
end

