-- ==== Sys2Proof/Laws/Exec.lean ====
section
/-! SUPPORT. One equation of `exec` for each command, so that no later proof unfolds the dispatch. -/

namespace Sys2Proof.Machine

@[simp] theorem exec_add (c : CoreId) (flt : FetchFault) (s : State) : exec (.add c flt) s = execAdd c flt s := rfl
@[simp] theorem exec_sub (c : CoreId) (flt : FetchFault) (s : State) : exec (.sub c flt) s = execSub c flt s := rfl
@[simp] theorem exec_mul (c : CoreId) (flt : FetchFault) (s : State) : exec (.mul c flt) s = execMul c flt s := rfl
@[simp] theorem exec_mulhu (c : CoreId) (flt : FetchFault) (s : State) : exec (.mulhu c flt) s = execMulhu c flt s := rfl
@[simp] theorem exec_mulhs (c : CoreId) (flt : FetchFault) (s : State) : exec (.mulhs c flt) s = execMulhs c flt s := rfl
@[simp] theorem exec_and (c : CoreId) (flt : FetchFault) (s : State) : exec (.and c flt) s = execAnd c flt s := rfl
@[simp] theorem exec_or (c : CoreId) (flt : FetchFault) (s : State) : exec (.or c flt) s = execOr c flt s := rfl
@[simp] theorem exec_xor (c : CoreId) (flt : FetchFault) (s : State) : exec (.xor c flt) s = execXor c flt s := rfl
@[simp] theorem exec_shl (c : CoreId) (flt : FetchFault) (s : State) : exec (.shl c flt) s = execShl c flt s := rfl
@[simp] theorem exec_shr (c : CoreId) (flt : FetchFault) (s : State) : exec (.shr c flt) s = execShr c flt s := rfl
@[simp] theorem exec_sar (c : CoreId) (flt : FetchFault) (s : State) : exec (.sar c flt) s = execSar c flt s := rfl
@[simp] theorem exec_min (c : CoreId) (flt : FetchFault) (s : State) : exec (.min c flt) s = execMin c flt s := rfl
@[simp] theorem exec_max (c : CoreId) (flt : FetchFault) (s : State) : exec (.max c flt) s = execMax c flt s := rfl
@[simp] theorem exec_minu (c : CoreId) (flt : FetchFault) (s : State) : exec (.minu c flt) s = execMinu c flt s := rfl
@[simp] theorem exec_maxu (c : CoreId) (flt : FetchFault) (s : State) : exec (.maxu c flt) s = execMaxu c flt s := rfl
@[simp] theorem exec_clz (c : CoreId) (flt : FetchFault) (s : State) : exec (.clz c flt) s = execClz c flt s := rfl
@[simp] theorem exec_addi (c : CoreId) (flt : FetchFault) (s : State) : exec (.addi c flt) s = execAddi c flt s := rfl
@[simp] theorem exec_subi (c : CoreId) (flt : FetchFault) (s : State) : exec (.subi c flt) s = execSubi c flt s := rfl
@[simp] theorem exec_muli (c : CoreId) (flt : FetchFault) (s : State) : exec (.muli c flt) s = execMuli c flt s := rfl
@[simp] theorem exec_mulhui (c : CoreId) (flt : FetchFault) (s : State) : exec (.mulhui c flt) s = execMulhui c flt s := rfl
@[simp] theorem exec_mulhsi (c : CoreId) (flt : FetchFault) (s : State) : exec (.mulhsi c flt) s = execMulhsi c flt s := rfl
@[simp] theorem exec_andi (c : CoreId) (flt : FetchFault) (s : State) : exec (.andi c flt) s = execAndi c flt s := rfl
@[simp] theorem exec_ori (c : CoreId) (flt : FetchFault) (s : State) : exec (.ori c flt) s = execOri c flt s := rfl
@[simp] theorem exec_xori (c : CoreId) (flt : FetchFault) (s : State) : exec (.xori c flt) s = execXori c flt s := rfl
@[simp] theorem exec_shli (c : CoreId) (flt : FetchFault) (s : State) : exec (.shli c flt) s = execShli c flt s := rfl
@[simp] theorem exec_shri (c : CoreId) (flt : FetchFault) (s : State) : exec (.shri c flt) s = execShri c flt s := rfl
@[simp] theorem exec_sari (c : CoreId) (flt : FetchFault) (s : State) : exec (.sari c flt) s = execSari c flt s := rfl
@[simp] theorem exec_mini (c : CoreId) (flt : FetchFault) (s : State) : exec (.mini c flt) s = execMini c flt s := rfl
@[simp] theorem exec_maxi (c : CoreId) (flt : FetchFault) (s : State) : exec (.maxi c flt) s = execMaxi c flt s := rfl
@[simp] theorem exec_minui (c : CoreId) (flt : FetchFault) (s : State) : exec (.minui c flt) s = execMinui c flt s := rfl
@[simp] theorem exec_maxui (c : CoreId) (flt : FetchFault) (s : State) : exec (.maxui c flt) s = execMaxui c flt s := rfl
@[simp] theorem exec_ld (c : CoreId) (flt : FetchFault) (ecc : EccFault) (s : State) : exec (.ld c flt ecc) s = execLd c flt ecc s := rfl
@[simp] theorem exec_st (c : CoreId) (flt : FetchFault) (s : State) : exec (.st c flt) s = execSt c flt s := rfl
@[simp] theorem exec_li (c : CoreId) (flt : FetchFault) (s : State) : exec (.li c flt) s = execLi c flt s := rfl
@[simp] theorem exec_lih (c : CoreId) (flt : FetchFault) (s : State) : exec (.lih c flt) s = execLih c flt s := rfl
@[simp] theorem exec_movs (c : CoreId) (flt : FetchFault) (s : State) : exec (.movs c flt) s = execMovs c flt s := rfl
@[simp] theorem exec_fence (c : CoreId) (flt : FetchFault) (s : State) : exec (.fence c flt) s = execFence c flt s := rfl
@[simp] theorem exec_fenceComplete (c : CoreId) (s : State) : exec (.fenceComplete c) s = execFenceComplete c s := rfl
@[simp] theorem exec_ceq (c : CoreId) (flt : FetchFault) (s : State) : exec (.ceq c flt) s = execCeq c flt s := rfl
@[simp] theorem exec_cne (c : CoreId) (flt : FetchFault) (s : State) : exec (.cne c flt) s = execCne c flt s := rfl
@[simp] theorem exec_clt (c : CoreId) (flt : FetchFault) (s : State) : exec (.clt c flt) s = execClt c flt s := rfl
@[simp] theorem exec_cltu (c : CoreId) (flt : FetchFault) (s : State) : exec (.cltu c flt) s = execCltu c flt s := rfl
@[simp] theorem exec_cle (c : CoreId) (flt : FetchFault) (s : State) : exec (.cle c flt) s = execCle c flt s := rfl
@[simp] theorem exec_cleu (c : CoreId) (flt : FetchFault) (s : State) : exec (.cleu c flt) s = execCleu c flt s := rfl
@[simp] theorem exec_ctst (c : CoreId) (flt : FetchFault) (s : State) : exec (.ctst c flt) s = execCtst c flt s := rfl
@[simp] theorem exec_fand (c : CoreId) (flt : FetchFault) (s : State) : exec (.fand c flt) s = execFand c flt s := rfl
@[simp] theorem exec_forF (c : CoreId) (flt : FetchFault) (s : State) : exec (.forF c flt) s = execForF c flt s := rfl
@[simp] theorem exec_fxor (c : CoreId) (flt : FetchFault) (s : State) : exec (.fxor c flt) s = execFxor c flt s := rfl
@[simp] theorem exec_fandn (c : CoreId) (flt : FetchFault) (s : State) : exec (.fandn c flt) s = execFandn c flt s := rfl
@[simp] theorem exec_fmov (c : CoreId) (flt : FetchFault) (s : State) : exec (.fmov c flt) s = execFmov c flt s := rfl
@[simp] theorem exec_loop (c : CoreId) (flt : FetchFault) (s : State) : exec (.loop c flt) s = execLoop c flt s := rfl
@[simp] theorem exec_br (c : CoreId) (flt : FetchFault) (s : State) : exec (.br c flt) s = execBr c flt s := rfl
@[simp] theorem exec_call (c : CoreId) (flt : FetchFault) (s : State) : exec (.call c flt) s = execCall c flt s := rfl
@[simp] theorem exec_ret (c : CoreId) (flt : FetchFault) (s : State) : exec (.ret c flt) s = execRet c flt s := rfl
@[simp] theorem exec_lbrk (c : CoreId) (flt : FetchFault) (s : State) : exec (.lbrk c flt) s = execLbrk c flt s := rfl
@[simp] theorem exec_halt (c : CoreId) (flt : FetchFault) (s : State) : exec (.halt c flt) s = execHalt c flt s := rfl
@[simp] theorem exec_haltComplete (c : CoreId) (s : State) : exec (.haltComplete c) s = execHaltComplete c s := rfl
@[simp] theorem exec_nop (c : CoreId) (flt : FetchFault) (s : State) : exec (.nop c flt) s = execNop c flt s := rfl
@[simp] theorem exec_drain (c : CoreId) (flt : FetchFault) (s : State) : exec (.drain c flt) s = execDrain c flt s := rfl
@[simp] theorem exec_drainComplete (c : CoreId) (s : State) : exec (.drainComplete c) s = execDrainComplete c s := rfl
@[simp] theorem exec_tset (c : CoreId) (flt : FetchFault) (s : State) : exec (.tset c flt) s = execTset c flt s := rfl
@[simp] theorem exec_twait (c : CoreId) (flt : FetchFault) (s : State) : exec (.twait c flt) s = execTwait c flt s := rfl
@[simp] theorem exec_sig (c : CoreId) (flt : FetchFault) (s : State) : exec (.sig c flt) s = execSig c flt s := rfl
@[simp] theorem exec_swait (c : CoreId) (flt : FetchFault) (s : State) : exec (.swait c flt) s = execSwait c flt s := rfl
@[simp] theorem exec_seqWaitResume (c : CoreId) (s : State) : exec (.seqWaitResume c) s = execSeqWaitResume c s := rfl
@[simp] theorem exec_waitTimeout (c : CoreId) (s : State) : exec (.waitTimeout c) s = execWaitTimeout c s := rfl
@[simp] theorem exec_srd (c : CoreId) (flt : FetchFault) (s : State) : exec (.srd c flt) s = execSrd c flt s := rfl
@[simp] theorem exec_sset (c : CoreId) (flt : FetchFault) (s : State) : exec (.sset c flt) s = execSset c flt s := rfl
@[simp] theorem exec_sigx (c : CoreId) (flt : FetchFault) (s : State) : exec (.sigx c flt) s = execSigx c flt s := rfl
@[simp] theorem exec_wopen (c : CoreId) (flt : FetchFault) (s : State) : exec (.wopen c flt) s = execWopen c flt s := rfl
@[simp] theorem exec_wclose (c : CoreId) (flt : FetchFault) (s : State) : exec (.wclose c flt) s = execWclose c flt s := rfl
@[simp] theorem exec_evt (c : CoreId) (flt : FetchFault) (s : State) : exec (.evt c flt) s = execEvt c flt s := rfl
@[simp] theorem exec_issue (c : CoreId) (flt : FetchFault) (s : State) : exec (.issue c flt) s = execIssue c flt s := rfl
@[simp] theorem exec_issueUnblock (c : CoreId) (s : State) : exec (.issueUnblock c) s = execIssueUnblock c s := rfl
@[simp] theorem exec_engineCommandComplete (c : CoreId) (e : Fin 7) (s : State) :
    exec (.engineCommandComplete c e) s = execEngineCommandComplete c e s := rfl
@[simp] theorem exec_fetLinear (c : CoreId) (s : State) : exec (.fetLinear c) s = execFetLinear c s := rfl
@[simp] theorem exec_fet2d (c : CoreId) (s : State) : exec (.fet2d c) s = execFet2d c s := rfl
@[simp] theorem exec_imemWrite (c : CoreId) (ini : Initiator) (idx : Fin 32768) (h : Half) (v : Word) (s : State) :
    exec (.imemWrite c ini idx h v) s = execImemWrite c ini idx h v s := rfl
@[simp] theorem exec_tagdescWrite (c : CoreId) (ini : Initiator) (t : Fin 4096) (h : Half) (v : Word) (s : State) :
    exec (.tagdescWrite c ini t h v) s = execTagdescWrite c ini t h v s := rfl
@[simp] theorem exec_tagWaitResume (c : CoreId) (s : State) : exec (.tagWaitResume c) s = execTagWaitResume c s := rfl
@[simp] theorem exec_cuffIdleFlush (c : CoreId) (line : Nat) (s : State) : exec (.cuffIdleFlush c line) s = execCuffIdleFlush c line s := rfl
@[simp] theorem exec_windowWrite (c : CoreId) (src : SentBy) (off : Nat) (data : List Byte) (s : State) :
    exec (.windowWrite c src off data) s = execWindowWrite c src off data s := rfl
@[simp] theorem exec_remoteSignal (c : CoreId) (src : SentBy) (n : Fin 512) (v : Word) (s : State) :
    exec (.remoteSignal c src n v) s = execRemoteSignal c src n v s := rfl
@[simp] theorem exec_syncaddWrite (c : CoreId) (ini : Initiator) (n : Fin 512) (h : Half) (v : Word) (s : State) :
    exec (.syncaddWrite c ini n h v) s = execSyncaddWrite c ini n h v s := rfl
@[simp] theorem exec_spdClr (c : CoreId) (h : Half) (v : Word) (s : State) : exec (.spdClr c h v) s = execSpdClr c h v s := rfl
@[simp] theorem exec_launchRecordWrite (n : Fin 128) (ini : Initiator) (off : Nat) (data : List Byte) (s : State) :
    exec (.launchRecordWrite n ini off data) s = execLaunchRecordWrite n ini off data s := rfl
@[simp] theorem exec_launchSlotTake (c : CoreId) (s : State) : exec (.launchSlotTake c) s = execLaunchSlotTake c s := rfl
@[simp] theorem exec_taskStart (c : CoreId) (s : State) : exec (.taskStart c) s = execTaskStart c s := rfl
@[simp] theorem exec_spdParityError (c : CoreId) (f : SpdFault) (s : State) : exec (.spdParityError c f) s = execSpdParityError c f s := rfl
@[simp] theorem exec_frameReceive (p : Fin 4) (data : List Byte) (fcsOk : Bool) (s : State) :
    exec (.frameReceive p data fcsOk) s = execFrameReceive p data fcsOk s := rfl
@[simp] theorem exec_ingestFrameProcess (p : Fin 4) (s : State) : exec (.ingestFrameProcess p) s = execIngestFrameProcess p s := rfl
@[simp] theorem exec_recordWriterBurst (s : State) : exec .recordWriterBurst s = execRecordWriterBurst s := rfl
@[simp] theorem exec_tplWrite (t : Fin 16) (ini : Initiator) (off : Nat) (data : List Byte) (s : State) :
    exec (.tplWrite t ini off data) s = execTplWrite t ini off data s := rfl
@[simp] theorem exec_sensWrite (n : Fin 16) (ini : Initiator) (off : Nat) (data : List Byte) (s : State) :
    exec (.sensWrite n ini off data) s = execSensWrite n ini off data s := rfl
@[simp] theorem exec_extWrite (n : Fin 16) (ini : Initiator) (off : Nat) (data : List Byte) (s : State) :
    exec (.extWrite n ini off data) s = execExtWrite n ini off data s := rfl
@[simp] theorem exec_holdWrite (p : Fin 4) (ini : Initiator) (h : Half) (v : Word) (s : State) :
    exec (.holdWrite p ini h v) s = execHoldWrite p ini h v s := rfl
@[simp] theorem exec_rctlWrite (p : Fin 4) (ini : Initiator) (h : Half) (v : Word) (s : State) :
    exec (.rctlWrite p ini h v) s = execRctlWrite p ini h v s := rfl
@[simp] theorem exec_slotmapWrite (ini : Initiator) (off : Nat) (data : List Byte) (s : State) :
    exec (.slotmapWrite ini off data) s = execSlotmapWrite ini off data s := rfl
@[simp] theorem exec_injqWrite (p : Fin 4) (ini : Initiator) (off : Nat) (data : List Byte) (s : State) :
    exec (.injqWrite p ini off data) s = execInjqWrite p ini off data s := rfl
@[simp] theorem exec_injectionExecute (p : Fin 4) (s : State) : exec (.injectionExecute p) s = execInjectionExecute p s := rfl
@[simp] theorem exec_ethLinkUp (p : Fin 4) (s : State) : exec (.ethLinkUp p) s = execEthLinkUp p s := rfl
@[simp] theorem exec_ethLinkDown (p : Fin 4) (s : State) : exec (.ethLinkDown p) s = execEthLinkDown p s := rfl
@[simp] theorem exec_ingestEccError (f : IngFault) (s : State) : exec (.ingestEccError f) s = execIngestEccError f s := rfl
@[simp] theorem exec_ginit (c : CoreId) (s : State) : exec (.ginit c) s = execGinit c s := rfl
@[simp] theorem exec_gins (c : CoreId) (s : State) : exec (.gins c) s = execGins c s := rfl
@[simp] theorem exec_gfin (c : CoreId) (s : State) : exec (.gfin c) s = execGfin c s := rfl
@[simp] theorem exec_gnbr (c : CoreId) (s : State) : exec (.gnbr c) s = execGnbr c s := rfl
@[simp] theorem exec_grel (c : CoreId) (s : State) : exec (.grel c) s = execGrel c s := rfl
@[simp] theorem exec_builderPointInsert (c : CoreId) (s : State) : exec (.builderPointInsert c) s = execBuilderPointInsert c s := rfl
@[simp] theorem exec_neighbourLookup (c : CoreId) (s : State) : exec (.neighbourLookup c) s = execNeighbourLookup c s := rfl
@[simp] theorem exec_grdSpillWrite (p : Fin 4) (ctl : Bool) (ini : Initiator) (h : Half) (v : Word) (s : State) :
    exec (.grdSpillWrite p ctl ini h v) s = execGrdSpillWrite p ctl ini h v s := rfl
@[simp] theorem exec_brickTableEccError (c : CoreId) (f : BuilderFault) (s : State) :
    exec (.brickTableEccError c f) s = execBrickTableEccError c f s := rfl
@[simp] theorem exec_ball (c : CoreId) (s : State) : exec (.ball c) s = execBall c s := rfl
@[simp] theorem exec_knnc (c : CoreId) (s : State) : exec (.knnc c) s = execKnnc c s := rfl
@[simp] theorem exec_fps (c : CoreId) (s : State) : exec (.fps c) s = execFps c s := rfl
@[simp] theorem exec_vdown (c : CoreId) (s : State) : exec (.vdown c) s = execVdown c s := rfl
@[simp] theorem exec_cast (c : CoreId) (s : State) : exec (.cast c) s = execCast c s := rfl
@[simp] theorem exec_mmul (c : CoreId) (s : State) : exec (.mmul c) s = execMmul c s := rfl
@[simp] theorem exec_mxeRampDown (c : CoreId) (s : State) : exec (.mxeRampDown c) s = execMxeRampDown c s := rfl
@[simp] theorem exec_mxclr (c : CoreId) (h : Half) (v : Word) (s : State) : exec (.mxclr c h v) s = execMxclr c h v s := rfl
@[simp] theorem exec_spmm (c : CoreId) (s : State) : exec (.spmm c) s = execSpmm c s := rfl
@[simp] theorem exec_nbmap (c : CoreId) (s : State) : exec (.nbmap c) s = execNbmap c s := rfl
@[simp] theorem exec_sconv (c : CoreId) (s : State) : exec (.sconv c) s = execSconv c s := rfl
@[simp] theorem exec_spclr (c : CoreId) (h : Half) (v : Word) (s : State) : exec (.spclr c h v) s = execSpclr c h v s := rfl
@[simp] theorem exec_mxeResidueError (c : CoreId) (f : EngFault) (s : State) : exec (.mxeResidueError c f) s = execMxeResidueError c f s := rfl
@[simp] theorem exec_ew (c : CoreId) (s : State) : exec (.ew c) s = execEw c s := rfl
@[simp] theorem exec_red (c : CoreId) (s : State) : exec (.red c) s = execRed c s := rfl
@[simp] theorem exec_qnt (c : CoreId) (s : State) : exec (.qnt c) s = execQnt c s := rfl
@[simp] theorem exec_rq (c : CoreId) (s : State) : exec (.rq c) s = execRq c s := rfl
@[simp] theorem exec_dq (c : CoreId) (s : State) : exec (.dq c) s = execDq c s := rfl
@[simp] theorem exec_hist (c : CoreId) (s : State) : exec (.hist c) s = execHist c s := rfl
@[simp] theorem exec_vset (c : CoreId) (s : State) : exec (.vset c) s = execVset c s := rfl
@[simp] theorem exec_satcfgWrite (c : CoreId) (k : Fin 16) (ini : Initiator) (h : Half) (v : Word) (s : State) :
    exec (.satcfgWrite c k ini h v) s = execSatcfgWrite c k ini h v s := rfl
@[simp] theorem exec_vclr (c : CoreId) (h : Half) (v : Word) (s : State) : exec (.vclr c h v) s = execVclr c h v s := rfl
@[simp] theorem exec_argmax (c : CoreId) (s : State) : exec (.argmax c) s = execArgmax c s := rfl
@[simp] theorem exec_topk (c : CoreId) (s : State) : exec (.topk c) s = execTopk c s := rfl
@[simp] theorem exec_btopk (c : CoreId) (s : State) : exec (.btopk c) s = execBtopk c s := rfl
@[simp] theorem exec_merge (c : CoreId) (s : State) : exec (.merge c) s = execMerge c s := rfl
@[simp] theorem exec_sort (c : CoreId) (s : State) : exec (.sort c) s = execSort c s := rfl
@[simp] theorem exec_search (c : CoreId) (s : State) : exec (.search c) s = execSearch c s := rfl
@[simp] theorem exec_selclr (c : CoreId) (h : Half) (v : Word) (s : State) : exec (.selclr c h v) s = execSelclr c h v s := rfl
@[simp] theorem exec_nmgTabWrite (t : Fin 64) (ini : Initiator) (off : Nat) (data : List Byte) (s : State) :
    exec (.nmgTabWrite t ini off data) s = execNmgTabWrite t ini off data s := rfl
@[simp] theorem exec_nmgHsegWrite (p : Fin 4) (ini : Initiator) (h : Half) (v : Word) (s : State) :
    exec (.nmgHsegWrite p ini h v) s = execNmgHsegWrite p ini h v s := rfl
@[simp] theorem exec_nmgReqWrite (u : Fin 16) (p : Fin 4) (ini : Initiator) (off : Nat) (data : List Byte) (s : State) :
    exec (.nmgReqWrite u p ini off data) s = execNmgReqWrite u p ini off data s := rfl
@[simp] theorem exec_lookup (u : Fin 16) (s : State) : exec (.lookup u) s = execLookup u s := rfl
@[simp] theorem exec_upd (u : Fin 16) (s : State) : exec (.upd u) s = execUpd u s := rfl
@[simp] theorem exec_migr (u : Fin 16) (s : State) : exec (.migr u) s = execMigr u s := rfl
@[simp] theorem exec_flip (u : Fin 16) (s : State) : exec (.flip u) s = execFlip u s := rfl
@[simp] theorem exec_retire (u : Fin 16) (s : State) : exec (.retire u) s = execRetire u s := rfl
@[simp] theorem exec_retireEpochDrain (s : State) : exec .retireEpochDrain s = execRetireEpochDrain s := rfl
@[simp] theorem exec_nmgRequestComplete (u : Fin 16) (s : State) : exec (.nmgRequestComplete u) s = execNmgRequestComplete u s := rfl
@[simp] theorem exec_nmgError (u : Fin 16) (f : NmgFault) (s : State) : exec (.nmgError u f) s = execNmgError u f s := rfl
@[simp] theorem exec_dmaRun (c : CoreId) (s : State) : exec (.dmaRun c) s = execDmaRun c s := rfl
@[simp] theorem exec_dmaStop (c : CoreId) (s : State) : exec (.dmaStop c) s = execDmaStop c s := rfl
@[simp] theorem exec_dchGo (e : DmaEng) (ch : Fin 16) (ini : Initiator) (s : State) : exec (.dchGo e ch ini) s = execDchGo e ch ini s := rfl
@[simp] theorem exec_dchStop (e : DmaEng) (ch : Fin 16) (ini : Initiator) (s : State) : exec (.dchStop e ch ini) s = execDchStop e ch ini s := rfl
@[simp] theorem exec_dmaCopy (e : DmaEng) (ch : Fin 16) (s : State) : exec (.dmaCopy e ch) s = execDmaCopy e ch s := rfl
@[simp] theorem exec_dmaFill (e : DmaEng) (ch : Fin 16) (s : State) : exec (.dmaFill e ch) s = execDmaFill e ch s := rfl
@[simp] theorem exec_dmaCmp (e : DmaEng) (ch : Fin 16) (s : State) : exec (.dmaCmp e ch) s = execDmaCmp e ch s := rfl
@[simp] theorem exec_dmaCompress (e : DmaEng) (ch : Fin 16) (s : State) : exec (.dmaCompress e ch) s = execDmaCompress e ch s := rfl
@[simp] theorem exec_dmaHalfSignal (e : DmaEng) (ch : Fin 16) (s : State) : exec (.dmaHalfSignal e ch) s = execDmaHalfSignal e ch s := rfl
@[simp] theorem exec_dmaDescriptorDone (e : DmaEng) (ch : Fin 16) (s : State) : exec (.dmaDescriptorDone e ch) s = execDmaDescriptorDone e ch s := rfl
@[simp] theorem exec_dmaParityHalt (e : DmaEng) (ch : Fin 16) (s : State) : exec (.dmaParityHalt e ch) s = execDmaParityHalt e ch s := rfl
@[simp] theorem exec_ddrAccess (r : DdrReq) (a : Nat) (op : DdrOp) (e : DdrEcc) (f : NetFault) (s : State) :
    exec (.ddrAccess r a op e f) s = execDdrAccess r a op e f s := rfl
@[simp] theorem exec_ddrRgnWrite (idx : Fin 16) (ini : Initiator) (h : Half) (v : Word) (s : State) :
    exec (.ddrRgnWrite idx ini h v) s = execDdrRgnWrite idx ini h v s := rfl
@[simp] theorem exec_ddrBwWrite (d : Fin 2) (ini : Initiator) (h : Half) (v : Word) (s : State) :
    exec (.ddrBwWrite d ini h v) s = execDdrBwWrite d ini h v s := rfl
@[simp] theorem exec_ddrRefresh (ch : Fin 16) (s : State) : exec (.ddrRefresh ch) s = execDdrRefresh ch s := rfl
@[simp] theorem exec_dimmEventAssert (e : DimmEvent) (s : State) : exec (.dimmEventAssert e) s = execDimmEventAssert e s := rfl
@[simp] theorem exec_refresh1xReturn (ch : Fin 16) (s : State) : exec (.refresh1xReturn ch) s = execRefresh1xReturn ch s := rfl
@[simp] theorem exec_ddrScrub (ch : Fin 16) (e : DdrEcc) (s : State) : exec (.ddrScrub ch e) s = execDdrScrub ch e s := rfl
@[simp] theorem exec_ddrCaParityError (ch : Fin 16) (retryFails : Bool) (own : Bool) (s : State) :
    exec (.ddrCaParityError ch retryFails own) s = execDdrCaParityError ch retryFails own s := rfl
@[simp] theorem exec_fabricPortTrained (p : Fin 6) (lanes : BitVec 5) (s : State) :
    exec (.fabricPortTrained p lanes) s = execFabricPortTrained p lanes s := rfl
@[simp] theorem exec_fabricLaneRetire (p : Fin 6) (l : Fin 5) (s : State) : exec (.fabricLaneRetire p l) s = execFabricLaneRetire p l s := rfl
@[simp] theorem exec_uncorrectableCodeword (p : Fin 6) (s : State) : exec (.uncorrectableCodeword p) s = execUncorrectableCodeword p s := rfl
@[simp] theorem exec_credit (p : Fin 6) (cnt : Vector (BitVec 16) 4) (ack : BitVec 32) (nak : Bool) (s : State) :
    exec (.credit p cnt ack nak) s = execCredit p cnt ack nak s := rfl
@[simp] theorem exec_creditSend (p : Fin 6) (s : State) : exec (.creditSend p) s = execCreditSend p s := rfl
@[simp] theorem exec_fabricPacketForward (p : Fin 6) (k : FabPkt) (s : State) :
    exec (.fabricPacketForward p k) s = execFabricPacketForward p k s := rfl
@[simp] theorem exec_write (s : State) : exec .write s = execWrite s := rfl
@[simp] theorem exec_signal (s : State) : exec .signal s = execSignal s := rfl
@[simp] theorem exec_fabricLinkDown (p : Fin 6) (s : State) : exec (.fabricLinkDown p) s = execFabricLinkDown p s := rfl
@[simp] theorem exec_helloSend (p : Fin 6) (s : State) : exec (.helloSend p) s = execHelloSend p s := rfl
@[simp] theorem exec_hello (p : MgmtAt) (h : Hello) (s : State) : exec (.hello p h) s = execHello p h s := rfl
@[simp] theorem exec_discoveryStart (s : State) : exec .discoveryStart s = execDiscoveryStart s := rfl
@[simp] theorem exec_survey (p : MgmtAt) (route : List (Fin 6)) (s : State) : exec (.survey p route) s = execSurvey p route s := rfl
@[simp] theorem exec_report (p : MgmtAt) (route : List (Fin 6)) (who : ModuleIdent) (peers : Vector (Option Word) 6) (s : State) :
    exec (.report p route who peers) s = execReport p route who peers s := rfl
@[simp] theorem exec_assign (p : MgmtAt) (addr : BitVec 15) (shape : SliceShape) (map : FabMap) (s : State) :
    exec (.assign p addr shape map) s = execAssign p addr shape map s := rfl
@[simp] theorem exec_failureMap (x : MapAt) (s : State) : exec (.failureMap x) s = execFailureMap x s := rfl
@[simp] theorem exec_collDescriptor (ini : Initiator) (off : Nat) (data : List Byte) (s : State) :
    exec (.collDescriptor ini off data) s = execCollDescriptor ini off data s := rfl
@[simp] theorem exec_collFragment (p : Fin 6) (k : FabPkt) (s : State) : exec (.collFragment p k) s = execCollFragment p k s := rfl
@[simp] theorem exec_colTimeout (id : Fin 256) (s : State) : exec (.colTimeout id) s = execColTimeout id s := rfl
@[simp] theorem exec_fabricParityError (f : FabFault) (s : State) : exec (.fabricParityError f) s = execFabricParityError f s := rfl
@[simp] theorem exec_tbRateWrite (d : Fin 2) (ini : Initiator) (h : Half) (v : Word) (s : State) :
    exec (.tbRateWrite d ini h v) s = execTbRateWrite d ini h v s := rfl
@[simp] theorem exec_tbStepWrite (d : Fin 2) (ini : Initiator) (h : Half) (v : Word) (s : State) :
    exec (.tbStepWrite d ini h v) s = execTbStepWrite d ini h v s := rfl
@[simp] theorem exec_tbStateWrite (d : Fin 2) (ini : Initiator) (h : Half) (v : Word) (s : State) :
    exec (.tbStateWrite d ini h v) s = execTbStateWrite d ini h v s := rfl
@[simp] theorem exec_tbLostWrite (d : Fin 2) (ini : Initiator) (s : State) : exec (.tbLostWrite d ini) s = execTbLostWrite d ini s := rfl
@[simp] theorem exec_tbWatchdogExpire (d : Fin 2) (s : State) : exec (.tbWatchdogExpire d) s = execTbWatchdogExpire d s := rfl
@[simp] theorem exec_epochLatch (d : Fin 2) (s : State) : exec (.epochLatch d) s = execEpochLatch d s := rfl
@[simp] theorem exec_tbSnap (ini : Initiator) (h : Half) (v : Word) (s : State) : exec (.tbSnap ini h v) s = execTbSnap ini h v s := rfl
@[simp] theorem exec_syncAccept (d : Fin 2) (port : Fin 4) (src : BitVec 80) (seq : BitVec 16) (r : BitVec 32) (s : State) :
    exec (.syncAccept d port src seq r) s = execSyncAccept d port src seq r s := rfl
@[simp] theorem exec_announceTimeout (d : Fin 2) (s : State) : exec (.announceTimeout d) s = execAnnounceTimeout d s := rfl
@[simp] theorem exec_tbTxqWrite (p : Fin 4) (ini : Initiator) (off : Nat) (data : List Byte) (s : State) :
    exec (.tbTxqWrite p ini off data) s = execTbTxqWrite p ini off data s := rfl
@[simp] theorem exec_timedFrameLaunch (p : Fin 4) (s : State) : exec (.timedFrameLaunch p) s = execTimedFrameLaunch p s := rfl
@[simp] theorem exec_tbEvoWrite (k : Fin 4) (ini : Initiator) (reg : Fin 3) (h : Half) (v : Word) (s : State) :
    exec (.tbEvoWrite k ini reg h v) s = execTbEvoWrite k ini reg h v s := rfl
@[simp] theorem exec_pulseEdge (k : Fin 4) (s : State) : exec (.pulseEdge k) s = execPulseEdge k s := rfl
@[simp] theorem exec_pulseWidthEnd (k : Fin 4) (s : State) : exec (.pulseWidthEnd k) s = execPulseWidthEnd k s := rfl
@[simp] theorem exec_pdreqSend (p : Fin 6) (s : State) : exec (.pdreqSend p) s = execPdreqSend p s := rfl
@[simp] theorem exec_pdreq (p : MgmtAt) (s : State) : exec (.pdreq p) s = execPdreq p s := rfl
@[simp] theorem exec_pdresp (p : MgmtAt) (t2 : Word) (t3 : Word) (s : State) : exec (.pdresp p t2 t3) s = execPdresp p t2 t3 s := rfl
@[simp] theorem exec_sliceSyncSend (s : State) : exec .sliceSyncSend s = execSliceSyncSend s := rfl
@[simp] theorem exec_sync (p : MgmtAt) (time : Word) (r : BitVec 32) (s : State) : exec (.sync p time r) s = execSync p time r s := rfl
@[simp] theorem exec_sliceSyncLoss (s : State) : exec .sliceSyncLoss s = execSliceSyncLoss s := rfl
@[simp] theorem exec_bridgeSend (k : Fin 2) (s : State) : exec (.bridgeSend k) s = execBridgeSend k s := rfl
@[simp] theorem exec_bridge (k : Fin 2) (b : BridgeTime) (s : State) : exec (.bridge k b) s = execBridge k b s := rfl
@[simp] theorem exec_bridgeLoss (k : Fin 2) (s : State) : exec (.bridgeLoss k) s = execBridgeLoss k s := rfl
@[simp] theorem exec_tbMismatch (s : State) : exec .tbMismatch s = execTbMismatch s := rfl
@[simp] theorem exec_gntNotice (p : Fin 2) (ini : Initiator) (off : Nat) (data : List Byte) (s : State) :
    exec (.gntNotice p ini off data) s = execGntNotice p ini off data s := rfl
@[simp] theorem exec_gntCompare (s : State) : exec .gntCompare s = execGntCompare s := rfl
@[simp] theorem exec_gntVerdict (idx : Fin 64) (s : State) : exec (.gntVerdict idx) s = execGntVerdict idx s := rfl
@[simp] theorem exec_ageCheck (s : State) : exec .ageCheck s = execAgeCheck s := rfl
@[simp] theorem exec_goldenOpportunity (s : State) : exec .goldenOpportunity s = execGoldenOpportunity s := rfl
@[simp] theorem exec_goldenJudge (s : State) : exec .goldenJudge s = execGoldenJudge s := rfl
@[simp] theorem exec_goldenNoticeTimeout (s : State) : exec .goldenNoticeTimeout s = execGoldenNoticeTimeout s := rfl
@[simp] theorem exec_gntRoutedEvent (s : State) : exec .gntRoutedEvent s = execGntRoutedEvent s := rfl
@[simp] theorem exec_arm (ini : Initiator) (s : State) : exec (.arm ini) s = execArm ini s := rfl
@[simp] theorem exec_disarm (ini : Initiator) (s : State) : exec (.disarm ini) s = execDisarm ini s := rfl
@[simp] theorem exec_safe (ini : Initiator) (s : State) : exec (.safe ini) s = execSafe ini s := rfl
@[simp] theorem exec_defer (ini : Initiator) (s : State) : exec (.defer ini) s = execDefer ini s := rfl
@[simp] theorem exec_startTestsDone (fail : Bool) (test : Fin 12) (place : TestPlace) (s : State) :
    exec (.startTestsDone fail test place) s = execStartTestsDone fail test place s := rfl
@[simp] theorem exec_monitorViolation (x : Measured) (s : State) : exec (.monitorViolation x) s = execMonitorViolation x s := rfl
@[simp] theorem exec_faultOutputToggle (s : State) : exec .faultOutputToggle s = execFaultOutputToggle s := rfl
@[simp] theorem exec_gntLockstepError (f : GntFault) (s : State) : exec (.gntLockstepError f) s = execGntLockstepError f s := rfl
@[simp] theorem exec_fltPrst (ini : Initiator) (h : Half) (v : Word) (s : State) : exec (.fltPrst ini h v) s = execFltPrst ini h v s := rfl
@[simp] theorem exec_partitionRelease (p : Fin 4) (found : CoreTests) (spares : BitVec 4) (ddr : Bool) (s : State) :
    exec (.partitionRelease p found spares ddr) s = execPartitionRelease p found spares ddr s := rfl
@[simp] theorem exec_fltMrstWarm (ini : Initiator) (s : State) : exec (.fltMrstWarm ini) s = execFltMrstWarm ini s := rfl
@[simp] theorem exec_fltMrstCold (ini : Initiator) (s : State) : exec (.fltMrstCold ini) s = execFltMrstCold ini s := rfl
@[simp] theorem exec_fltPmapWrite (ini : Initiator) (h : Half) (v : Word) (s : State) :
    exec (.fltPmapWrite ini h v) s = execFltPmapWrite ini h v s := rfl
@[simp] theorem exec_faultLogEntry (detail : Word) (s : State) : exec (.faultLogEntry detail) s = execFaultLogEntry detail s := rfl
@[simp] theorem exec_clocheStart (lost : List (Fin 17)) (badRef : Bool) (s : State) :
    exec (.clocheStart lost badRef) s = execClocheStart lost badRef s := rfl
@[simp] theorem exec_sealChange (isOpen : Bool) (s : State) : exec (.sealChange isOpen) s = execSealChange isOpen s := rfl
@[simp] theorem exec_cloFrameTap (s : State) : exec .cloFrameTap s = execCloFrameTap s := rfl
@[simp] theorem exec_captureEnd (s : State) : exec .captureEnd s = execCaptureEnd s := rfl
@[simp] theorem exec_captureTimeout (s : State) : exec .captureTimeout s = execCaptureTimeout s := rfl
@[simp] theorem exec_cloRecordWrite (s : State) : exec .cloRecordWrite s = execCloRecordWrite s := rfl
@[simp] theorem exec_encoderCount (a : Bool) (b : Bool) (s : State) : exec (.encoderCount a b) s = execEncoderCount a b s := rfl
@[simp] theorem exec_getid (s : State) : exec .getid s = execGetid s := rfl
@[simp] theorem exec_getstat (s : State) : exec .getstat s = execGetstat s := rfl
@[simp] theorem exec_getparam (s : State) : exec .getparam s = execGetparam s := rfl
@[simp] theorem exec_setparam (s : State) : exec .setparam s = execSetparam s := rfl
@[simp] theorem exec_commit (s : State) : exec .commit s = execCommit s := rfl
@[simp] theorem exec_zero (s : State) : exec .zero s = execZero s := rfl
@[simp] theorem exec_measure (s : State) : exec .measure s = execMeasure s := rfl
@[simp] theorem exec_beltstart (s : State) : exec .beltstart s = execBeltstart s := rfl
@[simp] theorem exec_beltread (s : State) : exec .beltread s = execBeltread s := rfl
@[simp] theorem exec_beltstop (s : State) : exec .beltstop s = execBeltstop s := rfl
@[simp] theorem exec_abort (s : State) : exec .abort s = execAbort s := rfl
@[simp] theorem exec_getrec (s : State) : exec .getrec s = execGetrec s := rfl
@[simp] theorem exec_getaudit (s : State) : exec .getaudit s = execGetaudit s := rfl
@[simp] theorem exec_setexp (s : State) : exec .setexp s = execSetexp s := rfl
@[simp] theorem exec_exportMap (s : State) : exec .exportMap s = execExportMap s := rfl
@[simp] theorem exec_fwload (s : State) : exec .fwload s = execFwload s := rfl
@[simp] theorem exec_fwcommit (writeOk : Bool) (s : State) : exec (.fwcommit writeOk) s = execFwcommit writeOk s := rfl
@[simp] theorem exec_getkey (s : State) : exec .getkey s = execGetkey s := rfl
@[simp] theorem exec_cloWatchdog (canSign : Bool) (s : State) : exec (.cloWatchdog canSign) s = execCloWatchdog canSign s := rfl
@[simp] theorem exec_cloSramCorrect (s : State) : exec .cloSramCorrect s = execCloSramCorrect s := rfl
@[simp] theorem exec_crownLoadCheck (load : Fin 101) (s : State) : exec (.crownLoadCheck load) s = execCrownLoadCheck load s := rfl
@[simp] theorem exec_powerLoop (pts : Vector (Fin 8) 4) (s : State) : exec (.powerLoop pts) s = execPowerLoop pts s := rfl
@[simp] theorem exec_thermalLoop (s : State) : exec .thermalLoop s = execThermalLoop s := rfl
@[simp] theorem exec_dimmTempRead (t : Vector Byte 16) (s : State) : exec (.dimmTempRead t) s = execDimmTempRead t s := rfl
@[simp] theorem exec_telemetrySample (pwr : BitVec 16) (ic : BitVec 16) (vc : BitVec 16) (s : State) :
    exec (.telemetrySample pwr ic vc) s = execTelemetrySample pwr ic vc s := rfl
@[simp] theorem exec_heartbeatMiss (s : State) : exec .heartbeatMiss s = execHeartbeatMiss s := rfl
@[simp] theorem exec_pwrHb (ini : Initiator) (h : Half) (v : Word) (s : State) : exec (.pwrHb ini h v) s = execPwrHb ini h v s := rfl
@[simp] theorem exec_crownWatchdog (busy : Bool) (erased : Bool) (s : State) :
    exec (.crownWatchdog busy erased) s = execCrownWatchdog busy erased s := rfl
@[simp] theorem exec_mbxSubmit (ini : Initiator) (off : Nat) (data : List Byte) (s : State) :
    exec (.mbxSubmit ini off data) s = execMbxSubmit ini off data s := rfl
@[simp] theorem exec_getId (s : State) : exec .getId s = execGetId s := rfl
@[simp] theorem exec_getCert (s : State) : exec .getCert s = execGetCert s := rfl
@[simp] theorem exec_attest (s : State) : exec .attest s = execAttest s := rfl
@[simp] theorem exec_bufRead (s : State) : exec .bufRead s = execBufRead s := rfl
@[simp] theorem exec_bufWrite (s : State) : exec .bufWrite s = execBufWrite s := rfl
@[simp] theorem exec_fwUpdate (s : State) : exec .fwUpdate s = execFwUpdate s := rfl
@[simp] theorem exec_fwFlashWriteDone (ok : Bool) (s : State) : exec (.fwFlashWriteDone ok) s = execFwFlashWriteDone ok s := rfl
@[simp] theorem exec_fwStatus (s : State) : exec .fwStatus s = execFwStatus s := rfl
@[simp] theorem exec_recoverLoad (s : State) : exec .recoverLoad s = execRecoverLoad s := rfl
@[simp] theorem exec_recoverCommit (flashOk : Bool) (e : StartEnv) (s : State) :
    exec (.recoverCommit flashOk e) s = execRecoverCommit flashOk e s := rfl
@[simp] theorem exec_calRead (s : State) : exec .calRead s = execCalRead s := rfl
@[simp] theorem exec_calWrite (flashOk : Bool) (s : State) : exec (.calWrite flashOk) s = execCalWrite flashOk s := rfl
@[simp] theorem exec_cfgRead (s : State) : exec .cfgRead s = execCfgRead s := rfl
@[simp] theorem exec_cfgWrite (flashOk : Bool) (s : State) : exec (.cfgWrite flashOk) s = execCfgWrite flashOk s := rfl
@[simp] theorem exec_telemCfg (s : State) : exec .telemCfg s = execTelemCfg s := rfl
@[simp] theorem exec_telemLast (s : State) : exec .telemLast s = execTelemLast s := rfl
@[simp] theorem exec_logRead (s : State) : exec .logRead s = execLogRead s := rfl
@[simp] theorem exec_setOrigin (s : State) : exec .setOrigin s = execSetOrigin s := rfl
@[simp] theorem exec_dbgChal (s : State) : exec .dbgChal s = execDbgChal s := rfl
@[simp] theorem exec_dbgUnlock (s : State) : exec .dbgUnlock s = execDbgUnlock s := rfl
@[simp] theorem exec_dbgChallengeExpire (s : State) : exec .dbgChallengeExpire s = execDbgChallengeExpire s := rfl
@[simp] theorem exec_smbusBlockWrite (pecOk : Bool) (code : Byte) (data : List Byte) (s : State) :
    exec (.smbusBlockWrite pecOk code data) s = execSmbusBlockWrite pecOk code data s := rfl
@[simp] theorem exec_smbusBlockRead (s : State) : exec .smbusBlockRead s = execSmbusBlockRead s := rfl
@[simp] theorem exec_eventRoute (s : State) : exec .eventRoute s = execEventRoute s := rfl
@[simp] theorem exec_eventQueueDeliver (s : State) : exec .eventQueueDeliver s = execEventQueueDeliver s := rfl
@[simp] theorem exec_msixPendingSend (pf1 : Bool) (v : Fin 256) (s : State) : exec (.msixPendingSend pf1 v) s = execMsixPendingSend pf1 v s := rfl
@[simp] theorem exec_evtRouteWrite (idx : Fin 256) (ini : Initiator) (h : Half) (v : Word) (s : State) :
    exec (.evtRouteWrite idx ini h v) s = execEvtRouteWrite idx ini h v s := rfl
@[simp] theorem exec_pciApbaseWrite (ini : Initiator) (h : Half) (v : Word) (s : State) :
    exec (.pciApbaseWrite ini h v) s = execPciApbaseWrite ini h v s := rfl
@[simp] theorem exec_pciHwinWrite (k : Fin 32) (ini : Initiator) (h : Half) (v : Word) (s : State) :
    exec (.pciHwinWrite k ini h v) s = execPciHwinWrite k ini h v s := rfl
@[simp] theorem exec_hostWindowWrite (k : Fin 32) (off : Nat) (data : List Byte) (f : TlpFault) (s : State) :
    exec (.hostWindowWrite k off data f) s = execHostWindowWrite k off data f s := rfl
@[simp] theorem exec_hostDdrAccess (off : Nat) (op : DdrOp) (f : TlpFault) (s : State) :
    exec (.hostDdrAccess off op f) s = execHostDdrAccess off op f s := rfl
@[simp] theorem exec_pcieLinkUp (speed : Fin 5) (width : Fin 3) (s : State) : exec (.pcieLinkUp speed width) s = execPcieLinkUp speed width s := rfl
@[simp] theorem exec_pcieLinkDown (s : State) : exec .pcieLinkDown s = execPcieLinkDown s := rfl
@[simp] theorem exec_pcieReset (s : State) : exec .pcieReset s = execPcieReset s := rfl
@[simp] theorem exec_flrPf0 (s : State) : exec .flrPf0 s = execFlrPf0 s := rfl
@[simp] theorem exec_flrPf1 (s : State) : exec .flrPf1 s = execFlrPf1 s := rfl
@[simp] theorem exec_aoPowerGood (s : State) : exec .aoPowerGood s = execAoPowerGood s := rfl
@[simp] theorem exec_coldRestart (erased : Bool) (e : StartEnv) (s : State) : exec (.coldRestart erased e) s = execColdRestart erased e s := rfl
@[simp] theorem exec_warmRestart (pin : Bool) (erased : Bool) (e : StartEnv) (s : State) :
    exec (.warmRestart pin erased e) s = execWarmRestart pin erased e s := rfl
@[simp] theorem exec_modRstRelease (e : StartEnv) (s : State) : exec (.modRstRelease e) s = execModRstRelease e s := rfl
@[simp] theorem exec_powerDown (s : State) : exec .powerDown s = execPowerDown s := rfl
@[simp] theorem exec_powerOff (erased : Bool) (s : State) : exec (.powerOff erased) s = execPowerOff erased s := rfl
@[simp] theorem exec_dozeEnter (ini : Initiator) (s : State) : exec (.dozeEnter ini) s = execDozeEnter ini s := rfl
@[simp] theorem exec_dozeExit (erased : Bool) (s : State) : exec (.dozeExit erased) s = execDozeExit erased s := rfl
@[simp] theorem exec_napEnter (d : Fin 4) (s : State) : exec (.napEnter d) s = execNapEnter d s := rfl
@[simp] theorem exec_napWake (d : Fin 4) (s : State) : exec (.napWake d) s = execNapWake d s := rfl
@[simp] theorem exec_pwrDvfsWrite (ini : Initiator) (h : Half) (v : Word) (s : State) :
    exec (.pwrDvfsWrite ini h v) s = execPwrDvfsWrite ini h v s := rfl
@[simp] theorem exec_dvfsVoltageSettled (d : Fin 4) (s : State) : exec (.dvfsVoltageSettled d) s = execDvfsVoltageSettled d s := rfl
@[simp] theorem exec_brimOvercurrent (d : Fin 4) (s : State) : exec (.brimOvercurrent d) s = execBrimOvercurrent d s := rfl
@[simp] theorem exec_brimPinAssert (s : State) : exec .brimPinAssert s = execBrimPinAssert s := rfl
@[simp] theorem exec_brimStepDown (d : Fin 4) (s : State) : exec (.brimStepDown d) s = execBrimStepDown d s := rfl
@[simp] theorem exec_brimClear (pin : Fin 5) (s : State) : exec (.brimClear pin) s = execBrimClear pin s := rfl
@[simp] theorem exec_thermalSample (t : ThermalReading) (s : State) : exec (.thermalSample t) s = execThermalSample t s := rfl
@[simp] theorem exec_tripRelease (e : StartEnv) (s : State) : exec (.tripRelease e) s = execTripRelease e s := rfl
@[simp] theorem exec_aoClockLoss (s : State) : exec .aoClockLoss s = execAoClockLoss s := rfl
@[simp] theorem exec_registerWrite (b : RegSpace) (off : Nat) (data : List Byte) (f : TlpFault) (s : State) :
    exec (.registerWrite b off data f) s = execRegisterWrite b off data f s := rfl
@[simp] theorem exec_hostRead (b : HostSpace) (off : Nat) (n : Nat) (f : TlpFault) (s : State) :
    exec (.hostRead b off n f) s = execHostRead b off n f s := rfl
@[simp] theorem exec_configurationRequest (pf1 : Bool) (op : CfgOp) (s : State) :
    exec (.configurationRequest pf1 op) s = execConfigurationRequest pf1 op s := rfl
@[simp] theorem exec_fabPortRetrain (p : Fin 6) (ini : Initiator) (s : State) : exec (.fabPortRetrain p ini) s = execFabPortRetrain p ini s := rfl

end Sys2Proof.Machine
end

