-- ==== Sys2Proof/Laws/Maps.lean ====
section
/-! SUPPORT. Sparse maps and byte memories: what a read gives after a write, and the canonical form, which every operation
keeps. -/

namespace Sys2Proof

/-! ### Reading after a change -/

theorem SMap.get_insert {α : Type} (d v : α) (k j : Nat) (m : SMap α) :
    SMap.get d (SMap.insert k v m) j = if j = k then v else SMap.get d m j := by
  induction m with
  | nil => simp [SMap.insert, SMap.get, eq_comm]
  | cons e m ih =>
    obtain ⟨i, w⟩ := e
    simp only [SMap.insert]
    split
    · simp [SMap.get, eq_comm]
    · split
      · rename_i h; subst h
        by_cases hj : k = j
        · simp [SMap.get, hj]
        · simp [SMap.get, hj, Ne.symm hj]
      · rename_i h
        simp only [SMap.get, ih]
        by_cases hj : i = j
        · subst hj; simp [Ne.symm h]
        · simp [hj]

/-- Keys above `lo` only. -/
theorem SMap.get_of_wfFrom {α : Type} [DecidableEq α] {d : α} {m : SMap α} {lo k : Nat} (h : SMap.wfFrom d (some lo) m = true)
    (hk : k ≤ lo) : SMap.get d m k = d := by
  induction m generalizing lo with
  | nil => rfl
  | cons e m ih =>
    obtain ⟨i, w⟩ := e
    simp only [SMap.wfFrom, Bool.and_eq_true, decide_eq_true_eq] at h
    have hi : i ≠ k := by omega
    simp only [SMap.get, hi, if_false]
    exact ih h.2 (by omega)

theorem SMap.get_erase {α : Type} [DecidableEq α] {d : α} {m : SMap α} {lo : Option Nat} (h : SMap.wfFrom d lo m = true)
    (k j : Nat) : SMap.get d (SMap.erase k m) j = if j = k then d else SMap.get d m j := by
  induction m generalizing lo with
  | nil => simp [SMap.erase, SMap.get]
  | cons e m ih =>
    obtain ⟨i, w⟩ := e
    simp only [SMap.wfFrom, Bool.and_eq_true, decide_eq_true_eq] at h
    simp only [SMap.erase]
    split
    · rename_i hk; subst hk
      by_cases hj : j = k
      · subst hj; simp [SMap.get_of_wfFrom h.2 (Nat.le_refl _)]
      · simp [SMap.get, hj, Ne.symm hj]
    · rename_i hk
      simp only [SMap.get, ih h.2]
      by_cases hj : i = j
      · subst hj; simp [Ne.symm hk]
      · simp [hj]

/-- A read after a write of a canonical map. -/
theorem SMap.get_set {α : Type} [DecidableEq α] {d : α} {m : SMap α} (h : SMap.wf d m = true) (k j : Nat) (v : α) :
    SMap.get d (SMap.set d m k v) j = if j = k then v else SMap.get d m j := by
  unfold SMap.set
  split
  · rename_i hv; subst hv; exact SMap.get_erase h k j
  · exact SMap.get_insert d v k j m

/-! ### The canonical form -/

theorem SMap.wfFrom_mono {α : Type} [DecidableEq α] {d : α} {m : SMap α} {hi : Nat} {lo : Option Nat}
    (h : SMap.wfFrom d (some hi) m = true) (hl : ∀ l, lo = some l → l ≤ hi) : SMap.wfFrom d lo m = true := by
  cases m with
  | nil => simp [SMap.wfFrom]
  | cons e m =>
    obtain ⟨i, w⟩ := e
    simp only [SMap.wfFrom, Bool.and_eq_true, decide_eq_true_eq] at h ⊢
    refine ⟨⟨?_, h.1.2⟩, h.2⟩
    cases lo with
    | none => rfl
    | some l => have := hl l rfl; simp; omega

theorem SMap.wfFrom_cons {α : Type} [DecidableEq α] {d v : α} {m : SMap α} {lo : Option Nat} {k : Nat} :
    SMap.wfFrom d lo ((k, v) :: m) = true ↔ (∀ l, lo = some l → l < k) ∧ v ≠ d ∧ SMap.wfFrom d (some k) m = true := by
  cases lo <;> simp [SMap.wfFrom, and_assoc]

theorem SMap.wfFrom_insert {α : Type} [DecidableEq α] {d v : α} {m : SMap α} {lo : Option Nat} {k : Nat}
    (h : SMap.wfFrom d lo m = true) (hv : v ≠ d) (hl : ∀ l, lo = some l → l < k) :
    SMap.wfFrom d lo (SMap.insert k v m) = true := by
  induction m generalizing lo with
  | nil => exact SMap.wfFrom_cons.mpr ⟨hl, hv, rfl⟩
  | cons e m ih =>
    obtain ⟨i, w⟩ := e
    have h' := SMap.wfFrom_cons.mp h
    simp only [SMap.insert]
    split
    · rename_i hk
      exact SMap.wfFrom_cons.mpr ⟨hl, hv, SMap.wfFrom_cons.mpr ⟨fun l e => by cases e; exact hk, h'.2⟩⟩
    · split
      · rename_i hk; subst hk
        exact SMap.wfFrom_cons.mpr ⟨hl, hv, h'.2.2⟩
      · exact SMap.wfFrom_cons.mpr ⟨h'.1, h'.2.1, ih h'.2.2 fun l e => by cases e; omega⟩

theorem SMap.wfFrom_erase {α : Type} [DecidableEq α] {d : α} {m : SMap α} {lo : Option Nat} (k : Nat)
    (h : SMap.wfFrom d lo m = true) : SMap.wfFrom d lo (SMap.erase k m) = true := by
  induction m generalizing lo with
  | nil => simp [SMap.erase, SMap.wfFrom]
  | cons e m ih =>
    obtain ⟨i, w⟩ := e
    simp only [SMap.wfFrom, Bool.and_eq_true, decide_eq_true_eq] at h
    simp only [SMap.erase]
    split
    · refine SMap.wfFrom_mono h.2 fun l hl => ?_
      subst hl
      have := h.1.1
      simp at this
      omega
    · simp only [SMap.wfFrom, Bool.and_eq_true, decide_eq_true_eq]
      exact ⟨h.1, ih h.2⟩

/-- A write keeps the canonical form. -/
theorem SMap.wf_set {α : Type} [DecidableEq α] {d : α} {m : SMap α} (h : SMap.wf d m = true) (k : Nat) (v : α) :
    SMap.wf d (SMap.set d m k v) = true := by
  unfold SMap.set
  split
  · exact SMap.wfFrom_erase k h
  · rename_i hv; exact SMap.wfFrom_insert h hv (fun l hl => by cases hl)

theorem SMap.wfFrom_drop {α : Type} [DecidableEq α] {d : α} {m : SMap α} {lo : Option Nat} (p : Nat → Bool)
    (h : SMap.wfFrom d lo m = true) : SMap.wfFrom d lo (SMap.drop p m) = true := by
  induction m generalizing lo with
  | nil => simp [SMap.drop, SMap.wfFrom]
  | cons e m ih =>
    obtain ⟨i, w⟩ := e
    simp only [SMap.wfFrom, Bool.and_eq_true, decide_eq_true_eq] at h
    have hm := ih h.2
    simp only [SMap.drop, List.filter_cons] at hm ⊢
    split
    · simp only [SMap.wfFrom, Bool.and_eq_true, decide_eq_true_eq]
      exact ⟨h.1, hm⟩
    · refine SMap.wfFrom_mono hm fun l hl => ?_
      subst hl
      have := h.1.1
      simp at this
      omega

/-- Taking entries out keeps the canonical form. -/
theorem SMap.wf_drop {α : Type} [DecidableEq α] {d : α} {m : SMap α} (h : SMap.wf d m = true) (p : Nat → Bool) :
    SMap.wf d (SMap.drop p m) = true := SMap.wfFrom_drop p h

/-! ### Byte memory -/

@[simp] theorem Mem.wf_nil : Mem.wf [] = true := rfl

theorem Mem.byte_put {m : Mem} (h : m.wf = true) (a x : Nat) (b : Byte) :
    (m.put a b).byte x = if x = a then b else m.byte x := SMap.get_set h a x b

theorem Mem.wf_put {m : Mem} (h : m.wf = true) (a : Nat) (b : Byte) : (m.put a b).wf = true := SMap.wf_set h a b

theorem Mem.wf_write {m : Mem} (h : m.wf = true) (a : Nat) (bs : List Byte) : (m.write a bs).wf = true := by
  induction bs generalizing m a with
  | nil => exact h
  | cons b bs ih => exact ih (Mem.wf_put h a b) (a + 1)

theorem Mem.wf_drop {m : Mem} (h : m.wf = true) (p : Nat → Bool) : (Mem.wf (SMap.drop p m)) = true := SMap.wf_drop h p

/-- A byte after a write: the byte written there, or the one before. -/
theorem Mem.byte_write {m : Mem} (h : m.wf = true) (a x : Nat) (bs : List Byte) :
    (m.write a bs).byte x = if a ≤ x ∧ x < a + bs.length then bs.getD (x - a) 0 else m.byte x := by
  induction bs generalizing m a with
  | nil => rw [if_neg (by simp)]; rfl
  | cons b bs ih =>
    simp only [Mem.write, ih (Mem.wf_put h a b) (a + 1), Mem.byte_put h, List.length_cons]
    by_cases h1 : x = a
    · subst h1; rw [if_neg (by omega), if_pos rfl, if_pos (by omega)]; simp
    · by_cases h2 : a ≤ x ∧ x < a + (bs.length + 1)
      · have e : x - a = x - (a + 1) + 1 := by omega
        rw [if_pos (by omega), if_pos h2, e]; simp
      · rw [if_neg (by omega), if_neg h1, if_neg h2]

theorem Mem.length_read (m : Mem) (a n : Nat) : (m.read a n).length = n := by
  induction n generalizing a with
  | zero => rfl
  | succ n ih => simp [Mem.read, ih]

theorem Mem.getD_read (m : Mem) (a n i : Nat) (h : i < n) : (m.read a n).getD i 0 = m.byte (a + i) := by
  induction n generalizing a i with
  | zero => omega
  | succ n ih =>
    cases i with
    | zero => simp [Mem.read]
    | succ i => simp only [Mem.read, List.getD_cons_succ, ih (a + 1) i (by omega)]; congr 1; omega

/-- A read of what was just written. -/
theorem Mem.read_write {m : Mem} (h : m.wf = true) (a : Nat) (bs : List Byte) : (m.write a bs).read a bs.length = bs := by
  apply List.ext_getElem
  · exact Mem.length_read _ _ _
  · intro i h1 h2
    have := Mem.getD_read (m.write a bs) a bs.length i h2
    rw [Mem.byte_write h, if_pos ⟨by omega, by omega⟩] at this
    simp only [Nat.add_sub_cancel_left] at this
    simpa [List.getD_eq_getElem?_getD, h1, h2] using this

/-! ### Numbers and bytes -/

theorem leBytes_length (n v : Nat) : (leBytes n v).length = n := by
  induction n generalizing v with
  | zero => rfl
  | succ n ih => simp [leBytes, ih]

/-- The number that the low bytes of `v` spell. -/
theorem leNat_leBytes (n v : Nat) : leNat (leBytes n v) = v % 256 ^ n := by
  induction n generalizing v with
  | zero => simp [leBytes, leNat, Nat.mod_one]
  | succ n ih =>
    have e : 256 ^ (n + 1) = 256 * 256 ^ n := by rw [Nat.pow_succ, Nat.mul_comm]
    rw [e, Nat.mod_mul]
    simp only [leBytes, leNat, ih, BitVec.toNat_ofNat]

theorem leNat_lt (bs : List Byte) : leNat bs < 256 ^ bs.length := by
  induction bs with
  | nil => simp [leNat]
  | cons b bs ih =>
    simp only [leNat, List.length_cons, Nat.pow_succ]
    have := b.isLt
    omega

/-- A number and a bit field of a word. -/
theorem fld_lt {n : Nat} (w : BitVec n) (lo len : Nat) : fld w lo len < 2 ^ len := Nat.mod_lt _ (Nat.two_pow_pos _)

end Sys2Proof
end

