-- ==== Sys2Proof/Laws/State.lean ====
section
/-! SUPPORT. What each update of State leaves in each field, one lemma for each field and update, so that no later proof
unfolds a record update. -/

namespace Sys2Proof.Machine

variable (s : State)

/-! ### modCore -/

section
variable (c : CoreId) (f : CoreSt → CoreSt)
@[simp] theorem State.modCore_cores : (s.modCore c f).cores = s.cores.set c (f s.cores[c]) := rfl
@[simp] theorem State.modCore_ddr : (s.modCore c f).ddr = s.ddr := rfl
@[simp] theorem State.modCore_tb : (s.modCore c f).tb = s.tb := rfl
@[simp] theorem State.modCore_evt : (s.modCore c f).evt = s.evt := rfl
@[simp] theorem State.modCore_pci : (s.modCore c f).pci = s.pci := rfl
@[simp] theorem State.modCore_flt : (s.modCore c f).flt = s.flt := rfl
@[simp] theorem State.modCore_pwr : (s.modCore c f).pwr = s.pwr := rfl
@[simp] theorem State.modCore_dma : (s.modCore c f).dma = s.dma := rfl
@[simp] theorem State.modCore_gnt : (s.modCore c f).gnt = s.gnt := rfl
@[simp] theorem State.modCore_crn : (s.modCore c f).crn = s.crn := rfl
@[simp] theorem State.modCore_clo : (s.modCore c f).clo = s.clo := rfl
@[simp] theorem State.modCore_ing : (s.modCore c f).ing = s.ing := rfl
@[simp] theorem State.modCore_grd : (s.modCore c f).grd = s.grd := rfl
@[simp] theorem State.modCore_net : (s.modCore c f).net = s.net := rfl
@[simp] theorem State.modCore_fab : (s.modCore c f).fab = s.fab := rfl
@[simp] theorem State.modCore_nmg : (s.modCore c f).nmg = s.nmg := rfl
@[simp] theorem State.modCore_out : (s.modCore c f).out = s.out := rfl
@[simp] theorem State.modCore_free : (s.modCore c f).free = s.free := rfl
@[simp] theorem State.modCore_pending : (s.modCore c f).pending = s.pending := rfl
end

/-! ### modSeq -/

section
variable (c : CoreId) (f : SeqState → SeqState)
@[simp] theorem State.modSeq_cores : (s.modSeq c f).cores = s.cores.set c { s.cores[c] with seq := f s.cores[c].seq } := rfl
@[simp] theorem State.modSeq_ddr : (s.modSeq c f).ddr = s.ddr := rfl
@[simp] theorem State.modSeq_tb : (s.modSeq c f).tb = s.tb := rfl
@[simp] theorem State.modSeq_evt : (s.modSeq c f).evt = s.evt := rfl
@[simp] theorem State.modSeq_pci : (s.modSeq c f).pci = s.pci := rfl
@[simp] theorem State.modSeq_flt : (s.modSeq c f).flt = s.flt := rfl
@[simp] theorem State.modSeq_pwr : (s.modSeq c f).pwr = s.pwr := rfl
@[simp] theorem State.modSeq_dma : (s.modSeq c f).dma = s.dma := rfl
@[simp] theorem State.modSeq_gnt : (s.modSeq c f).gnt = s.gnt := rfl
@[simp] theorem State.modSeq_crn : (s.modSeq c f).crn = s.crn := rfl
@[simp] theorem State.modSeq_clo : (s.modSeq c f).clo = s.clo := rfl
@[simp] theorem State.modSeq_ing : (s.modSeq c f).ing = s.ing := rfl
@[simp] theorem State.modSeq_grd : (s.modSeq c f).grd = s.grd := rfl
@[simp] theorem State.modSeq_net : (s.modSeq c f).net = s.net := rfl
@[simp] theorem State.modSeq_fab : (s.modSeq c f).fab = s.fab := rfl
@[simp] theorem State.modSeq_nmg : (s.modSeq c f).nmg = s.nmg := rfl
@[simp] theorem State.modSeq_out : (s.modSeq c f).out = s.out := rfl
@[simp] theorem State.modSeq_free : (s.modSeq c f).free = s.free := rfl
@[simp] theorem State.modSeq_pending : (s.modSeq c f).pending = s.pending := rfl
end

/-! ### modSpd -/

section
variable (c : CoreId) (f : SpdState → SpdState)
@[simp] theorem State.modSpd_cores : (s.modSpd c f).cores = s.cores.set c { s.cores[c] with spd := f s.cores[c].spd } := rfl
@[simp] theorem State.modSpd_ddr : (s.modSpd c f).ddr = s.ddr := rfl
@[simp] theorem State.modSpd_tb : (s.modSpd c f).tb = s.tb := rfl
@[simp] theorem State.modSpd_evt : (s.modSpd c f).evt = s.evt := rfl
@[simp] theorem State.modSpd_pci : (s.modSpd c f).pci = s.pci := rfl
@[simp] theorem State.modSpd_flt : (s.modSpd c f).flt = s.flt := rfl
@[simp] theorem State.modSpd_pwr : (s.modSpd c f).pwr = s.pwr := rfl
@[simp] theorem State.modSpd_dma : (s.modSpd c f).dma = s.dma := rfl
@[simp] theorem State.modSpd_gnt : (s.modSpd c f).gnt = s.gnt := rfl
@[simp] theorem State.modSpd_crn : (s.modSpd c f).crn = s.crn := rfl
@[simp] theorem State.modSpd_clo : (s.modSpd c f).clo = s.clo := rfl
@[simp] theorem State.modSpd_ing : (s.modSpd c f).ing = s.ing := rfl
@[simp] theorem State.modSpd_grd : (s.modSpd c f).grd = s.grd := rfl
@[simp] theorem State.modSpd_net : (s.modSpd c f).net = s.net := rfl
@[simp] theorem State.modSpd_fab : (s.modSpd c f).fab = s.fab := rfl
@[simp] theorem State.modSpd_nmg : (s.modSpd c f).nmg = s.nmg := rfl
@[simp] theorem State.modSpd_out : (s.modSpd c f).out = s.out := rfl
@[simp] theorem State.modSpd_free : (s.modSpd c f).free = s.free := rfl
@[simp] theorem State.modSpd_pending : (s.modSpd c f).pending = s.pending := rfl
end

/-! ### modEng -/

section
variable (c : CoreId) (e : Fin 7) (f : EngState → EngState)
@[simp] theorem State.modEng_cores : (s.modEng c e f).cores = s.cores.set c { s.cores[c] with engines := s.cores[c].engines.set e (f s.cores[c].engines[e]) } := rfl
@[simp] theorem State.modEng_ddr : (s.modEng c e f).ddr = s.ddr := rfl
@[simp] theorem State.modEng_tb : (s.modEng c e f).tb = s.tb := rfl
@[simp] theorem State.modEng_evt : (s.modEng c e f).evt = s.evt := rfl
@[simp] theorem State.modEng_pci : (s.modEng c e f).pci = s.pci := rfl
@[simp] theorem State.modEng_flt : (s.modEng c e f).flt = s.flt := rfl
@[simp] theorem State.modEng_pwr : (s.modEng c e f).pwr = s.pwr := rfl
@[simp] theorem State.modEng_dma : (s.modEng c e f).dma = s.dma := rfl
@[simp] theorem State.modEng_gnt : (s.modEng c e f).gnt = s.gnt := rfl
@[simp] theorem State.modEng_crn : (s.modEng c e f).crn = s.crn := rfl
@[simp] theorem State.modEng_clo : (s.modEng c e f).clo = s.clo := rfl
@[simp] theorem State.modEng_ing : (s.modEng c e f).ing = s.ing := rfl
@[simp] theorem State.modEng_grd : (s.modEng c e f).grd = s.grd := rfl
@[simp] theorem State.modEng_net : (s.modEng c e f).net = s.net := rfl
@[simp] theorem State.modEng_fab : (s.modEng c e f).fab = s.fab := rfl
@[simp] theorem State.modEng_nmg : (s.modEng c e f).nmg = s.nmg := rfl
@[simp] theorem State.modEng_out : (s.modEng c e f).out = s.out := rfl
@[simp] theorem State.modEng_free : (s.modEng c e f).free = s.free := rfl
@[simp] theorem State.modEng_pending : (s.modEng c e f).pending = s.pending := rfl
end

/-! ### modGeo -/

section
variable (c : CoreId) (f : GeoCore → GeoCore)
@[simp] theorem State.modGeo_cores : (s.modGeo c f).cores = s.cores.set c { s.cores[c] with geo := f s.cores[c].geo } := rfl
@[simp] theorem State.modGeo_ddr : (s.modGeo c f).ddr = s.ddr := rfl
@[simp] theorem State.modGeo_tb : (s.modGeo c f).tb = s.tb := rfl
@[simp] theorem State.modGeo_evt : (s.modGeo c f).evt = s.evt := rfl
@[simp] theorem State.modGeo_pci : (s.modGeo c f).pci = s.pci := rfl
@[simp] theorem State.modGeo_flt : (s.modGeo c f).flt = s.flt := rfl
@[simp] theorem State.modGeo_pwr : (s.modGeo c f).pwr = s.pwr := rfl
@[simp] theorem State.modGeo_dma : (s.modGeo c f).dma = s.dma := rfl
@[simp] theorem State.modGeo_gnt : (s.modGeo c f).gnt = s.gnt := rfl
@[simp] theorem State.modGeo_crn : (s.modGeo c f).crn = s.crn := rfl
@[simp] theorem State.modGeo_clo : (s.modGeo c f).clo = s.clo := rfl
@[simp] theorem State.modGeo_ing : (s.modGeo c f).ing = s.ing := rfl
@[simp] theorem State.modGeo_grd : (s.modGeo c f).grd = s.grd := rfl
@[simp] theorem State.modGeo_net : (s.modGeo c f).net = s.net := rfl
@[simp] theorem State.modGeo_fab : (s.modGeo c f).fab = s.fab := rfl
@[simp] theorem State.modGeo_nmg : (s.modGeo c f).nmg = s.nmg := rfl
@[simp] theorem State.modGeo_out : (s.modGeo c f).out = s.out := rfl
@[simp] theorem State.modGeo_free : (s.modGeo c f).free = s.free := rfl
@[simp] theorem State.modGeo_pending : (s.modGeo c f).pending = s.pending := rfl
end

/-! ### modMxe -/

section
variable (c : CoreId) (f : MxeState → MxeState)
@[simp] theorem State.modMxe_cores : (s.modMxe c f).cores = s.cores.set c { s.cores[c] with mxe := f s.cores[c].mxe } := rfl
@[simp] theorem State.modMxe_ddr : (s.modMxe c f).ddr = s.ddr := rfl
@[simp] theorem State.modMxe_tb : (s.modMxe c f).tb = s.tb := rfl
@[simp] theorem State.modMxe_evt : (s.modMxe c f).evt = s.evt := rfl
@[simp] theorem State.modMxe_pci : (s.modMxe c f).pci = s.pci := rfl
@[simp] theorem State.modMxe_flt : (s.modMxe c f).flt = s.flt := rfl
@[simp] theorem State.modMxe_pwr : (s.modMxe c f).pwr = s.pwr := rfl
@[simp] theorem State.modMxe_dma : (s.modMxe c f).dma = s.dma := rfl
@[simp] theorem State.modMxe_gnt : (s.modMxe c f).gnt = s.gnt := rfl
@[simp] theorem State.modMxe_crn : (s.modMxe c f).crn = s.crn := rfl
@[simp] theorem State.modMxe_clo : (s.modMxe c f).clo = s.clo := rfl
@[simp] theorem State.modMxe_ing : (s.modMxe c f).ing = s.ing := rfl
@[simp] theorem State.modMxe_grd : (s.modMxe c f).grd = s.grd := rfl
@[simp] theorem State.modMxe_net : (s.modMxe c f).net = s.net := rfl
@[simp] theorem State.modMxe_fab : (s.modMxe c f).fab = s.fab := rfl
@[simp] theorem State.modMxe_nmg : (s.modMxe c f).nmg = s.nmg := rfl
@[simp] theorem State.modMxe_out : (s.modMxe c f).out = s.out := rfl
@[simp] theorem State.modMxe_free : (s.modMxe c f).free = s.free := rfl
@[simp] theorem State.modMxe_pending : (s.modMxe c f).pending = s.pending := rfl
end

/-! ### withSeq -/

section
variable (c : CoreId) (q : SeqState)
@[simp] theorem State.withSeq_cores : (s.withSeq c q).cores = s.cores.set c { s.cores[c] with seq := q } := rfl
@[simp] theorem State.withSeq_ddr : (s.withSeq c q).ddr = s.ddr := rfl
@[simp] theorem State.withSeq_tb : (s.withSeq c q).tb = s.tb := rfl
@[simp] theorem State.withSeq_evt : (s.withSeq c q).evt = s.evt := rfl
@[simp] theorem State.withSeq_pci : (s.withSeq c q).pci = s.pci := rfl
@[simp] theorem State.withSeq_flt : (s.withSeq c q).flt = s.flt := rfl
@[simp] theorem State.withSeq_pwr : (s.withSeq c q).pwr = s.pwr := rfl
@[simp] theorem State.withSeq_dma : (s.withSeq c q).dma = s.dma := rfl
@[simp] theorem State.withSeq_gnt : (s.withSeq c q).gnt = s.gnt := rfl
@[simp] theorem State.withSeq_crn : (s.withSeq c q).crn = s.crn := rfl
@[simp] theorem State.withSeq_clo : (s.withSeq c q).clo = s.clo := rfl
@[simp] theorem State.withSeq_ing : (s.withSeq c q).ing = s.ing := rfl
@[simp] theorem State.withSeq_grd : (s.withSeq c q).grd = s.grd := rfl
@[simp] theorem State.withSeq_net : (s.withSeq c q).net = s.net := rfl
@[simp] theorem State.withSeq_fab : (s.withSeq c q).fab = s.fab := rfl
@[simp] theorem State.withSeq_nmg : (s.withSeq c q).nmg = s.nmg := rfl
@[simp] theorem State.withSeq_out : (s.withSeq c q).out = s.out := rfl
@[simp] theorem State.withSeq_free : (s.withSeq c q).free = s.free := rfl
@[simp] theorem State.withSeq_pending : (s.withSeq c q).pending = s.pending := rfl
end

/-! ### withSpdSeq -/

section
variable (c : CoreId) (p : SpdState) (q : SeqState)
@[simp] theorem State.withSpdSeq_cores : (s.withSpdSeq c p q).cores = s.cores.set c { s.cores[c] with spd := p, seq := q } := rfl
@[simp] theorem State.withSpdSeq_ddr : (s.withSpdSeq c p q).ddr = s.ddr := rfl
@[simp] theorem State.withSpdSeq_tb : (s.withSpdSeq c p q).tb = s.tb := rfl
@[simp] theorem State.withSpdSeq_evt : (s.withSpdSeq c p q).evt = s.evt := rfl
@[simp] theorem State.withSpdSeq_pci : (s.withSpdSeq c p q).pci = s.pci := rfl
@[simp] theorem State.withSpdSeq_flt : (s.withSpdSeq c p q).flt = s.flt := rfl
@[simp] theorem State.withSpdSeq_pwr : (s.withSpdSeq c p q).pwr = s.pwr := rfl
@[simp] theorem State.withSpdSeq_dma : (s.withSpdSeq c p q).dma = s.dma := rfl
@[simp] theorem State.withSpdSeq_gnt : (s.withSpdSeq c p q).gnt = s.gnt := rfl
@[simp] theorem State.withSpdSeq_crn : (s.withSpdSeq c p q).crn = s.crn := rfl
@[simp] theorem State.withSpdSeq_clo : (s.withSpdSeq c p q).clo = s.clo := rfl
@[simp] theorem State.withSpdSeq_ing : (s.withSpdSeq c p q).ing = s.ing := rfl
@[simp] theorem State.withSpdSeq_grd : (s.withSpdSeq c p q).grd = s.grd := rfl
@[simp] theorem State.withSpdSeq_net : (s.withSpdSeq c p q).net = s.net := rfl
@[simp] theorem State.withSpdSeq_fab : (s.withSpdSeq c p q).fab = s.fab := rfl
@[simp] theorem State.withSpdSeq_nmg : (s.withSpdSeq c p q).nmg = s.nmg := rfl
@[simp] theorem State.withSpdSeq_out : (s.withSpdSeq c p q).out = s.out := rfl
@[simp] theorem State.withSpdSeq_free : (s.withSpdSeq c p q).free = s.free := rfl
@[simp] theorem State.withSpdSeq_pending : (s.withSpdSeq c p q).pending = s.pending := rfl
end

/-! ### seqNext -/

section
variable (c : CoreId) (f : SeqState → SeqState)
@[simp] theorem State.seqNext_cores : (s.seqNext c f).cores = s.cores.set c { s.cores[c] with seq := (f s.cores[c].seq).advance } := rfl
@[simp] theorem State.seqNext_ddr : (s.seqNext c f).ddr = s.ddr := rfl
@[simp] theorem State.seqNext_tb : (s.seqNext c f).tb = s.tb := rfl
@[simp] theorem State.seqNext_evt : (s.seqNext c f).evt = s.evt := rfl
@[simp] theorem State.seqNext_pci : (s.seqNext c f).pci = s.pci := rfl
@[simp] theorem State.seqNext_flt : (s.seqNext c f).flt = s.flt := rfl
@[simp] theorem State.seqNext_pwr : (s.seqNext c f).pwr = s.pwr := rfl
@[simp] theorem State.seqNext_dma : (s.seqNext c f).dma = s.dma := rfl
@[simp] theorem State.seqNext_gnt : (s.seqNext c f).gnt = s.gnt := rfl
@[simp] theorem State.seqNext_crn : (s.seqNext c f).crn = s.crn := rfl
@[simp] theorem State.seqNext_clo : (s.seqNext c f).clo = s.clo := rfl
@[simp] theorem State.seqNext_ing : (s.seqNext c f).ing = s.ing := rfl
@[simp] theorem State.seqNext_grd : (s.seqNext c f).grd = s.grd := rfl
@[simp] theorem State.seqNext_net : (s.seqNext c f).net = s.net := rfl
@[simp] theorem State.seqNext_fab : (s.seqNext c f).fab = s.fab := rfl
@[simp] theorem State.seqNext_nmg : (s.seqNext c f).nmg = s.nmg := rfl
@[simp] theorem State.seqNext_out : (s.seqNext c f).out = s.out := rfl
@[simp] theorem State.seqNext_free : (s.seqNext c f).free = s.free := rfl
@[simp] theorem State.seqNext_pending : (s.seqNext c f).pending = s.pending := rfl
end

/-! ### modChan -/

section
variable (ch : Fin 16) (f : ChanState → ChanState)
@[simp] theorem State.modChan_cores : (s.modChan ch f).cores = s.cores := rfl
@[simp] theorem State.modChan_ddr : (s.modChan ch f).ddr = { s.ddr with ch := s.ddr.ch.set ch (f s.ddr.ch[ch]) } := rfl
@[simp] theorem State.modChan_tb : (s.modChan ch f).tb = s.tb := rfl
@[simp] theorem State.modChan_evt : (s.modChan ch f).evt = s.evt := rfl
@[simp] theorem State.modChan_pci : (s.modChan ch f).pci = s.pci := rfl
@[simp] theorem State.modChan_flt : (s.modChan ch f).flt = s.flt := rfl
@[simp] theorem State.modChan_pwr : (s.modChan ch f).pwr = s.pwr := rfl
@[simp] theorem State.modChan_dma : (s.modChan ch f).dma = s.dma := rfl
@[simp] theorem State.modChan_gnt : (s.modChan ch f).gnt = s.gnt := rfl
@[simp] theorem State.modChan_crn : (s.modChan ch f).crn = s.crn := rfl
@[simp] theorem State.modChan_clo : (s.modChan ch f).clo = s.clo := rfl
@[simp] theorem State.modChan_ing : (s.modChan ch f).ing = s.ing := rfl
@[simp] theorem State.modChan_grd : (s.modChan ch f).grd = s.grd := rfl
@[simp] theorem State.modChan_net : (s.modChan ch f).net = s.net := rfl
@[simp] theorem State.modChan_fab : (s.modChan ch f).fab = s.fab := rfl
@[simp] theorem State.modChan_nmg : (s.modChan ch f).nmg = s.nmg := rfl
@[simp] theorem State.modChan_out : (s.modChan ch f).out = s.out := rfl
@[simp] theorem State.modChan_free : (s.modChan ch f).free = s.free := rfl
@[simp] theorem State.modChan_pending : (s.modChan ch f).pending = s.pending := rfl
end

/-! ### modDom -/

section
variable (d : Fin 2) (f : TbDom → TbDom)
@[simp] theorem State.modDom_cores : (s.modDom d f).cores = s.cores := rfl
@[simp] theorem State.modDom_ddr : (s.modDom d f).ddr = s.ddr := rfl
@[simp] theorem State.modDom_tb : (s.modDom d f).tb = { s.tb with dom := s.tb.dom.set d (f s.tb.dom[d]) } := rfl
@[simp] theorem State.modDom_evt : (s.modDom d f).evt = s.evt := rfl
@[simp] theorem State.modDom_pci : (s.modDom d f).pci = s.pci := rfl
@[simp] theorem State.modDom_flt : (s.modDom d f).flt = s.flt := rfl
@[simp] theorem State.modDom_pwr : (s.modDom d f).pwr = s.pwr := rfl
@[simp] theorem State.modDom_dma : (s.modDom d f).dma = s.dma := rfl
@[simp] theorem State.modDom_gnt : (s.modDom d f).gnt = s.gnt := rfl
@[simp] theorem State.modDom_crn : (s.modDom d f).crn = s.crn := rfl
@[simp] theorem State.modDom_clo : (s.modDom d f).clo = s.clo := rfl
@[simp] theorem State.modDom_ing : (s.modDom d f).ing = s.ing := rfl
@[simp] theorem State.modDom_grd : (s.modDom d f).grd = s.grd := rfl
@[simp] theorem State.modDom_net : (s.modDom d f).net = s.net := rfl
@[simp] theorem State.modDom_fab : (s.modDom d f).fab = s.fab := rfl
@[simp] theorem State.modDom_nmg : (s.modDom d f).nmg = s.nmg := rfl
@[simp] theorem State.modDom_out : (s.modDom d f).out = s.out := rfl
@[simp] theorem State.modDom_free : (s.modDom d f).free = s.free := rfl
@[simp] theorem State.modDom_pending : (s.modDom d f).pending = s.pending := rfl
end

/-! ### modTx -/

section
variable (p : Fin 4) (f : TxPort → TxPort)
@[simp] theorem State.modTx_cores : (s.modTx p f).cores = s.cores := rfl
@[simp] theorem State.modTx_ddr : (s.modTx p f).ddr = s.ddr := rfl
@[simp] theorem State.modTx_tb : (s.modTx p f).tb = { s.tb with tx := s.tb.tx.set p (f s.tb.tx[p]) } := rfl
@[simp] theorem State.modTx_evt : (s.modTx p f).evt = s.evt := rfl
@[simp] theorem State.modTx_pci : (s.modTx p f).pci = s.pci := rfl
@[simp] theorem State.modTx_flt : (s.modTx p f).flt = s.flt := rfl
@[simp] theorem State.modTx_pwr : (s.modTx p f).pwr = s.pwr := rfl
@[simp] theorem State.modTx_dma : (s.modTx p f).dma = s.dma := rfl
@[simp] theorem State.modTx_gnt : (s.modTx p f).gnt = s.gnt := rfl
@[simp] theorem State.modTx_crn : (s.modTx p f).crn = s.crn := rfl
@[simp] theorem State.modTx_clo : (s.modTx p f).clo = s.clo := rfl
@[simp] theorem State.modTx_ing : (s.modTx p f).ing = s.ing := rfl
@[simp] theorem State.modTx_grd : (s.modTx p f).grd = s.grd := rfl
@[simp] theorem State.modTx_net : (s.modTx p f).net = s.net := rfl
@[simp] theorem State.modTx_fab : (s.modTx p f).fab = s.fab := rfl
@[simp] theorem State.modTx_nmg : (s.modTx p f).nmg = s.nmg := rfl
@[simp] theorem State.modTx_out : (s.modTx p f).out = s.out := rfl
@[simp] theorem State.modTx_free : (s.modTx p f).free = s.free := rfl
@[simp] theorem State.modTx_pending : (s.modTx p f).pending = s.pending := rfl
end

/-! ### modPulse -/

section
variable (k : Fin 4) (f : Pulse → Pulse)
@[simp] theorem State.modPulse_cores : (s.modPulse k f).cores = s.cores := rfl
@[simp] theorem State.modPulse_ddr : (s.modPulse k f).ddr = s.ddr := rfl
@[simp] theorem State.modPulse_tb : (s.modPulse k f).tb = { s.tb with evo := s.tb.evo.set k (f s.tb.evo[k]) } := rfl
@[simp] theorem State.modPulse_evt : (s.modPulse k f).evt = s.evt := rfl
@[simp] theorem State.modPulse_pci : (s.modPulse k f).pci = s.pci := rfl
@[simp] theorem State.modPulse_flt : (s.modPulse k f).flt = s.flt := rfl
@[simp] theorem State.modPulse_pwr : (s.modPulse k f).pwr = s.pwr := rfl
@[simp] theorem State.modPulse_dma : (s.modPulse k f).dma = s.dma := rfl
@[simp] theorem State.modPulse_gnt : (s.modPulse k f).gnt = s.gnt := rfl
@[simp] theorem State.modPulse_crn : (s.modPulse k f).crn = s.crn := rfl
@[simp] theorem State.modPulse_clo : (s.modPulse k f).clo = s.clo := rfl
@[simp] theorem State.modPulse_ing : (s.modPulse k f).ing = s.ing := rfl
@[simp] theorem State.modPulse_grd : (s.modPulse k f).grd = s.grd := rfl
@[simp] theorem State.modPulse_net : (s.modPulse k f).net = s.net := rfl
@[simp] theorem State.modPulse_fab : (s.modPulse k f).fab = s.fab := rfl
@[simp] theorem State.modPulse_nmg : (s.modPulse k f).nmg = s.nmg := rfl
@[simp] theorem State.modPulse_out : (s.modPulse k f).out = s.out := rfl
@[simp] theorem State.modPulse_free : (s.modPulse k f).free = s.free := rfl
@[simp] theorem State.modPulse_pending : (s.modPulse k f).pending = s.pending := rfl
end

/-! ### postFull -/

section
variable (code : Nat) (src : Ini) (part : Option (Fin 4)) (gnt : Bool)
@[simp] theorem State.postFull_cores : (s.postFull code src part gnt).cores = s.cores := rfl
@[simp] theorem State.postFull_ddr : (s.postFull code src part gnt).ddr = s.ddr := rfl
@[simp] theorem State.postFull_tb : (s.postFull code src part gnt).tb = s.tb := rfl
@[simp] theorem State.postFull_evt : (s.postFull code src part gnt).evt = { s.evt with incoming := s.evt.incoming ++ [⟨BitVec.ofNat 16 code, src, s.tb.cnt, part, gnt, false⟩] } := rfl
@[simp] theorem State.postFull_pci : (s.postFull code src part gnt).pci = s.pci := rfl
@[simp] theorem State.postFull_flt : (s.postFull code src part gnt).flt = s.flt := rfl
@[simp] theorem State.postFull_pwr : (s.postFull code src part gnt).pwr = s.pwr := rfl
@[simp] theorem State.postFull_dma : (s.postFull code src part gnt).dma = s.dma := rfl
@[simp] theorem State.postFull_gnt : (s.postFull code src part gnt).gnt = s.gnt := rfl
@[simp] theorem State.postFull_crn : (s.postFull code src part gnt).crn = s.crn := rfl
@[simp] theorem State.postFull_clo : (s.postFull code src part gnt).clo = s.clo := rfl
@[simp] theorem State.postFull_ing : (s.postFull code src part gnt).ing = s.ing := rfl
@[simp] theorem State.postFull_grd : (s.postFull code src part gnt).grd = s.grd := rfl
@[simp] theorem State.postFull_net : (s.postFull code src part gnt).net = s.net := rfl
@[simp] theorem State.postFull_fab : (s.postFull code src part gnt).fab = s.fab := rfl
@[simp] theorem State.postFull_nmg : (s.postFull code src part gnt).nmg = s.nmg := rfl
@[simp] theorem State.postFull_out : (s.postFull code src part gnt).out = s.out := rfl
@[simp] theorem State.postFull_free : (s.postFull code src part gnt).free = s.free := rfl
@[simp] theorem State.postFull_pending : (s.postFull code src part gnt).pending = s.pending := rfl
end

/-! ### postPart -/

section
variable (code : Nat) (src : Ini) (part : Option (Fin 4))
@[simp] theorem State.postPart_cores : (s.postPart code src part).cores = s.cores := rfl
@[simp] theorem State.postPart_ddr : (s.postPart code src part).ddr = s.ddr := rfl
@[simp] theorem State.postPart_tb : (s.postPart code src part).tb = s.tb := rfl
@[simp] theorem State.postPart_evt : (s.postPart code src part).evt = { s.evt with incoming := s.evt.incoming ++ [⟨BitVec.ofNat 16 code, src, s.tb.cnt, part, false, false⟩] } := rfl
@[simp] theorem State.postPart_pci : (s.postPart code src part).pci = s.pci := rfl
@[simp] theorem State.postPart_flt : (s.postPart code src part).flt = s.flt := rfl
@[simp] theorem State.postPart_pwr : (s.postPart code src part).pwr = s.pwr := rfl
@[simp] theorem State.postPart_dma : (s.postPart code src part).dma = s.dma := rfl
@[simp] theorem State.postPart_gnt : (s.postPart code src part).gnt = s.gnt := rfl
@[simp] theorem State.postPart_crn : (s.postPart code src part).crn = s.crn := rfl
@[simp] theorem State.postPart_clo : (s.postPart code src part).clo = s.clo := rfl
@[simp] theorem State.postPart_ing : (s.postPart code src part).ing = s.ing := rfl
@[simp] theorem State.postPart_grd : (s.postPart code src part).grd = s.grd := rfl
@[simp] theorem State.postPart_net : (s.postPart code src part).net = s.net := rfl
@[simp] theorem State.postPart_fab : (s.postPart code src part).fab = s.fab := rfl
@[simp] theorem State.postPart_nmg : (s.postPart code src part).nmg = s.nmg := rfl
@[simp] theorem State.postPart_out : (s.postPart code src part).out = s.out := rfl
@[simp] theorem State.postPart_free : (s.postPart code src part).free = s.free := rfl
@[simp] theorem State.postPart_pending : (s.postPart code src part).pending = s.pending := rfl
end

/-! ### post -/

section
variable (code : Nat) (src : Ini)
@[simp] theorem State.post_cores : (s.post code src).cores = s.cores := rfl
@[simp] theorem State.post_ddr : (s.post code src).ddr = s.ddr := rfl
@[simp] theorem State.post_tb : (s.post code src).tb = s.tb := rfl
@[simp] theorem State.post_evt : (s.post code src).evt = { s.evt with incoming := s.evt.incoming ++ [⟨BitVec.ofNat 16 code, src, s.tb.cnt, s.srcPart src, false, false⟩] } := rfl
@[simp] theorem State.post_pci : (s.post code src).pci = s.pci := rfl
@[simp] theorem State.post_flt : (s.post code src).flt = s.flt := rfl
@[simp] theorem State.post_pwr : (s.post code src).pwr = s.pwr := rfl
@[simp] theorem State.post_dma : (s.post code src).dma = s.dma := rfl
@[simp] theorem State.post_gnt : (s.post code src).gnt = s.gnt := rfl
@[simp] theorem State.post_crn : (s.post code src).crn = s.crn := rfl
@[simp] theorem State.post_clo : (s.post code src).clo = s.clo := rfl
@[simp] theorem State.post_ing : (s.post code src).ing = s.ing := rfl
@[simp] theorem State.post_grd : (s.post code src).grd = s.grd := rfl
@[simp] theorem State.post_net : (s.post code src).net = s.net := rfl
@[simp] theorem State.post_fab : (s.post code src).fab = s.fab := rfl
@[simp] theorem State.post_nmg : (s.post code src).nmg = s.nmg := rfl
@[simp] theorem State.post_out : (s.post code src).out = s.out := rfl
@[simp] theorem State.post_free : (s.post code src).free = s.free := rfl
@[simp] theorem State.post_pending : (s.post code src).pending = s.pending := rfl
end

/-! ### postCore -/

section
variable (c : CoreId) (code : Nat)
@[simp] theorem State.postCore_cores : (s.postCore c code).cores = s.cores := rfl
@[simp] theorem State.postCore_ddr : (s.postCore c code).ddr = s.ddr := rfl
@[simp] theorem State.postCore_tb : (s.postCore c code).tb = s.tb := rfl
@[simp] theorem State.postCore_evt : (s.postCore c code).evt = { s.evt with incoming := s.evt.incoming ++ [⟨BitVec.ofNat 16 code, coreIni c, s.tb.cnt, s.srcPart (coreIni c), false, false⟩] } := rfl
@[simp] theorem State.postCore_pci : (s.postCore c code).pci = s.pci := rfl
@[simp] theorem State.postCore_flt : (s.postCore c code).flt = s.flt := rfl
@[simp] theorem State.postCore_pwr : (s.postCore c code).pwr = s.pwr := rfl
@[simp] theorem State.postCore_dma : (s.postCore c code).dma = s.dma := rfl
@[simp] theorem State.postCore_gnt : (s.postCore c code).gnt = s.gnt := rfl
@[simp] theorem State.postCore_crn : (s.postCore c code).crn = s.crn := rfl
@[simp] theorem State.postCore_clo : (s.postCore c code).clo = s.clo := rfl
@[simp] theorem State.postCore_ing : (s.postCore c code).ing = s.ing := rfl
@[simp] theorem State.postCore_grd : (s.postCore c code).grd = s.grd := rfl
@[simp] theorem State.postCore_net : (s.postCore c code).net = s.net := rfl
@[simp] theorem State.postCore_fab : (s.postCore c code).fab = s.fab := rfl
@[simp] theorem State.postCore_nmg : (s.postCore c code).nmg = s.nmg := rfl
@[simp] theorem State.postCore_out : (s.postCore c code).out = s.out := rfl
@[simp] theorem State.postCore_free : (s.postCore c code).free = s.free := rfl
@[simp] theorem State.postCore_pending : (s.postCore c code).pending = s.pending := rfl
end

/-! ### modFn -/

section
variable (pf1 : Bool) (f : PciFn → PciFn)
@[simp] theorem State.modFn_cores : (s.modFn pf1 f).cores = s.cores := by cases pf1 <;> rfl
@[simp] theorem State.modFn_ddr : (s.modFn pf1 f).ddr = s.ddr := by cases pf1 <;> rfl
@[simp] theorem State.modFn_tb : (s.modFn pf1 f).tb = s.tb := by cases pf1 <;> rfl
@[simp] theorem State.modFn_evt : (s.modFn pf1 f).evt = s.evt := by cases pf1 <;> rfl
@[simp] theorem State.modFn_pci : (s.modFn pf1 f).pci = if pf1 then { s.pci with pf1 := f s.pci.pf1 } else { s.pci with pf0 := f s.pci.pf0 } := by cases pf1 <;> rfl
@[simp] theorem State.modFn_flt : (s.modFn pf1 f).flt = s.flt := by cases pf1 <;> rfl
@[simp] theorem State.modFn_pwr : (s.modFn pf1 f).pwr = s.pwr := by cases pf1 <;> rfl
@[simp] theorem State.modFn_dma : (s.modFn pf1 f).dma = s.dma := by cases pf1 <;> rfl
@[simp] theorem State.modFn_gnt : (s.modFn pf1 f).gnt = s.gnt := by cases pf1 <;> rfl
@[simp] theorem State.modFn_crn : (s.modFn pf1 f).crn = s.crn := by cases pf1 <;> rfl
@[simp] theorem State.modFn_clo : (s.modFn pf1 f).clo = s.clo := by cases pf1 <;> rfl
@[simp] theorem State.modFn_ing : (s.modFn pf1 f).ing = s.ing := by cases pf1 <;> rfl
@[simp] theorem State.modFn_grd : (s.modFn pf1 f).grd = s.grd := by cases pf1 <;> rfl
@[simp] theorem State.modFn_net : (s.modFn pf1 f).net = s.net := by cases pf1 <;> rfl
@[simp] theorem State.modFn_fab : (s.modFn pf1 f).fab = s.fab := by cases pf1 <;> rfl
@[simp] theorem State.modFn_nmg : (s.modFn pf1 f).nmg = s.nmg := by cases pf1 <;> rfl
@[simp] theorem State.modFn_out : (s.modFn pf1 f).out = s.out := by cases pf1 <;> rfl
@[simp] theorem State.modFn_free : (s.modFn pf1 f).free = s.free := by cases pf1 <;> rfl
@[simp] theorem State.modFn_pending : (s.modFn pf1 f).pending = s.pending := by cases pf1 <;> rfl
end

/-! ### modFlt -/

section
variable (f : FltState → FltState)
@[simp] theorem State.modFlt_cores : (s.modFlt f).cores = s.cores := rfl
@[simp] theorem State.modFlt_ddr : (s.modFlt f).ddr = s.ddr := rfl
@[simp] theorem State.modFlt_tb : (s.modFlt f).tb = s.tb := rfl
@[simp] theorem State.modFlt_evt : (s.modFlt f).evt = s.evt := rfl
@[simp] theorem State.modFlt_pci : (s.modFlt f).pci = s.pci := rfl
@[simp] theorem State.modFlt_flt : (s.modFlt f).flt = f s.flt := rfl
@[simp] theorem State.modFlt_pwr : (s.modFlt f).pwr = s.pwr := rfl
@[simp] theorem State.modFlt_dma : (s.modFlt f).dma = s.dma := rfl
@[simp] theorem State.modFlt_gnt : (s.modFlt f).gnt = s.gnt := rfl
@[simp] theorem State.modFlt_crn : (s.modFlt f).crn = s.crn := rfl
@[simp] theorem State.modFlt_clo : (s.modFlt f).clo = s.clo := rfl
@[simp] theorem State.modFlt_ing : (s.modFlt f).ing = s.ing := rfl
@[simp] theorem State.modFlt_grd : (s.modFlt f).grd = s.grd := rfl
@[simp] theorem State.modFlt_net : (s.modFlt f).net = s.net := rfl
@[simp] theorem State.modFlt_fab : (s.modFlt f).fab = s.fab := rfl
@[simp] theorem State.modFlt_nmg : (s.modFlt f).nmg = s.nmg := rfl
@[simp] theorem State.modFlt_out : (s.modFlt f).out = s.out := rfl
@[simp] theorem State.modFlt_free : (s.modFlt f).free = s.free := rfl
@[simp] theorem State.modFlt_pending : (s.modFlt f).pending = s.pending := rfl
end

/-! ### wakeDie -/

section
variable (d : Fin 4)
@[simp] theorem State.wakeDie_cores : (s.wakeDie d).cores = s.cores := rfl
@[simp] theorem State.wakeDie_ddr : (s.wakeDie d).ddr = s.ddr := rfl
@[simp] theorem State.wakeDie_tb : (s.wakeDie d).tb = s.tb := rfl
@[simp] theorem State.wakeDie_evt : (s.wakeDie d).evt = s.evt := rfl
@[simp] theorem State.wakeDie_pci : (s.wakeDie d).pci = s.pci := rfl
@[simp] theorem State.wakeDie_flt : (s.wakeDie d).flt = s.flt := rfl
@[simp] theorem State.wakeDie_pwr : (s.wakeDie d).pwr = { s.pwr with nap := setBit s.pwr.nap d.val false } := rfl
@[simp] theorem State.wakeDie_dma : (s.wakeDie d).dma = s.dma := rfl
@[simp] theorem State.wakeDie_gnt : (s.wakeDie d).gnt = { s.gnt with mon := s.gnt.mon.set d (s.gnt.mon[d].wake s.tb.cnt) } := rfl
@[simp] theorem State.wakeDie_crn : (s.wakeDie d).crn = s.crn := rfl
@[simp] theorem State.wakeDie_clo : (s.wakeDie d).clo = s.clo := rfl
@[simp] theorem State.wakeDie_ing : (s.wakeDie d).ing = s.ing := rfl
@[simp] theorem State.wakeDie_grd : (s.wakeDie d).grd = s.grd := rfl
@[simp] theorem State.wakeDie_net : (s.wakeDie d).net = s.net := rfl
@[simp] theorem State.wakeDie_fab : (s.wakeDie d).fab = s.fab := rfl
@[simp] theorem State.wakeDie_nmg : (s.wakeDie d).nmg = s.nmg := rfl
@[simp] theorem State.wakeDie_out : (s.wakeDie d).out = s.out := rfl
@[simp] theorem State.wakeDie_free : (s.wakeDie d).free = s.free := rfl
@[simp] theorem State.wakeDie_pending : (s.wakeDie d).pending = s.pending := rfl
end

/-! ### modDch -/

section
variable (e : DmaEng) (ch : Fin 16) (f : DmaChan → DmaChan)
@[simp] theorem State.modDch_cores : (s.modDch e ch f).cores = s.cores := by cases e <;> rfl
@[simp] theorem State.modDch_ddr : (s.modDch e ch f).ddr = s.ddr := by cases e <;> rfl
@[simp] theorem State.modDch_tb : (s.modDch e ch f).tb = s.tb := by cases e <;> rfl
@[simp] theorem State.modDch_evt : (s.modDch e ch f).evt = s.evt := by cases e <;> rfl
@[simp] theorem State.modDch_pci : (s.modDch e ch f).pci = s.pci := by cases e <;> rfl
@[simp] theorem State.modDch_flt : (s.modDch e ch f).flt = s.flt := by cases e <;> rfl
@[simp] theorem State.modDch_pwr : (s.modDch e ch f).pwr = s.pwr := by cases e <;> rfl
@[simp] theorem State.modDch_gnt : (s.modDch e ch f).gnt = s.gnt := by cases e <;> rfl
@[simp] theorem State.modDch_crn : (s.modDch e ch f).crn = s.crn := by cases e <;> rfl
@[simp] theorem State.modDch_clo : (s.modDch e ch f).clo = s.clo := by cases e <;> rfl
@[simp] theorem State.modDch_ing : (s.modDch e ch f).ing = s.ing := by cases e <;> rfl
@[simp] theorem State.modDch_grd : (s.modDch e ch f).grd = s.grd := by cases e <;> rfl
@[simp] theorem State.modDch_net : (s.modDch e ch f).net = s.net := by cases e <;> rfl
@[simp] theorem State.modDch_fab : (s.modDch e ch f).fab = s.fab := by cases e <;> rfl
@[simp] theorem State.modDch_nmg : (s.modDch e ch f).nmg = s.nmg := by cases e <;> rfl
@[simp] theorem State.modDch_out : (s.modDch e ch f).out = s.out := by cases e <;> rfl
@[simp] theorem State.modDch_free : (s.modDch e ch f).free = s.free := by cases e <;> rfl
@[simp] theorem State.modDch_pending : (s.modDch e ch f).pending = s.pending := by cases e <;> rfl
end

/-! ### modGnt -/

section
variable (f : GntState → GntState)
@[simp] theorem State.modGnt_cores : (s.modGnt f).cores = s.cores := rfl
@[simp] theorem State.modGnt_ddr : (s.modGnt f).ddr = s.ddr := rfl
@[simp] theorem State.modGnt_tb : (s.modGnt f).tb = s.tb := rfl
@[simp] theorem State.modGnt_evt : (s.modGnt f).evt = s.evt := rfl
@[simp] theorem State.modGnt_pci : (s.modGnt f).pci = s.pci := rfl
@[simp] theorem State.modGnt_flt : (s.modGnt f).flt = s.flt := rfl
@[simp] theorem State.modGnt_pwr : (s.modGnt f).pwr = s.pwr := rfl
@[simp] theorem State.modGnt_dma : (s.modGnt f).dma = s.dma := rfl
@[simp] theorem State.modGnt_gnt : (s.modGnt f).gnt = f s.gnt := rfl
@[simp] theorem State.modGnt_crn : (s.modGnt f).crn = s.crn := rfl
@[simp] theorem State.modGnt_clo : (s.modGnt f).clo = s.clo := rfl
@[simp] theorem State.modGnt_ing : (s.modGnt f).ing = s.ing := rfl
@[simp] theorem State.modGnt_grd : (s.modGnt f).grd = s.grd := rfl
@[simp] theorem State.modGnt_net : (s.modGnt f).net = s.net := rfl
@[simp] theorem State.modGnt_fab : (s.modGnt f).fab = s.fab := rfl
@[simp] theorem State.modGnt_nmg : (s.modGnt f).nmg = s.nmg := rfl
@[simp] theorem State.modGnt_out : (s.modGnt f).out = s.out := rfl
@[simp] theorem State.modGnt_free : (s.modGnt f).free = s.free := rfl
@[simp] theorem State.modGnt_pending : (s.modGnt f).pending = s.pending := rfl
end

/-! ### modStrm -/

section
variable (i : Fin 64) (f : Stream → Stream)
@[simp] theorem State.modStrm_cores : (s.modStrm i f).cores = s.cores := rfl
@[simp] theorem State.modStrm_ddr : (s.modStrm i f).ddr = s.ddr := rfl
@[simp] theorem State.modStrm_tb : (s.modStrm i f).tb = s.tb := rfl
@[simp] theorem State.modStrm_evt : (s.modStrm i f).evt = s.evt := rfl
@[simp] theorem State.modStrm_pci : (s.modStrm i f).pci = s.pci := rfl
@[simp] theorem State.modStrm_flt : (s.modStrm i f).flt = s.flt := rfl
@[simp] theorem State.modStrm_pwr : (s.modStrm i f).pwr = s.pwr := rfl
@[simp] theorem State.modStrm_dma : (s.modStrm i f).dma = s.dma := rfl
@[simp] theorem State.modStrm_gnt : (s.modStrm i f).gnt = { s.gnt with strm := s.gnt.strm.set i (f s.gnt.strm[i]) } := rfl
@[simp] theorem State.modStrm_crn : (s.modStrm i f).crn = s.crn := rfl
@[simp] theorem State.modStrm_clo : (s.modStrm i f).clo = s.clo := rfl
@[simp] theorem State.modStrm_ing : (s.modStrm i f).ing = s.ing := rfl
@[simp] theorem State.modStrm_grd : (s.modStrm i f).grd = s.grd := rfl
@[simp] theorem State.modStrm_net : (s.modStrm i f).net = s.net := rfl
@[simp] theorem State.modStrm_fab : (s.modStrm i f).fab = s.fab := rfl
@[simp] theorem State.modStrm_nmg : (s.modStrm i f).nmg = s.nmg := rfl
@[simp] theorem State.modStrm_out : (s.modStrm i f).out = s.out := rfl
@[simp] theorem State.modStrm_free : (s.modStrm i f).free = s.free := rfl
@[simp] theorem State.modStrm_pending : (s.modStrm i f).pending = s.pending := rfl
end

/-! ### modCrn -/

section
variable (f : CrnState → CrnState)
@[simp] theorem State.modCrn_cores : (s.modCrn f).cores = s.cores := rfl
@[simp] theorem State.modCrn_ddr : (s.modCrn f).ddr = s.ddr := rfl
@[simp] theorem State.modCrn_tb : (s.modCrn f).tb = s.tb := rfl
@[simp] theorem State.modCrn_evt : (s.modCrn f).evt = s.evt := rfl
@[simp] theorem State.modCrn_pci : (s.modCrn f).pci = s.pci := rfl
@[simp] theorem State.modCrn_flt : (s.modCrn f).flt = s.flt := rfl
@[simp] theorem State.modCrn_pwr : (s.modCrn f).pwr = s.pwr := rfl
@[simp] theorem State.modCrn_dma : (s.modCrn f).dma = s.dma := rfl
@[simp] theorem State.modCrn_gnt : (s.modCrn f).gnt = s.gnt := rfl
@[simp] theorem State.modCrn_crn : (s.modCrn f).crn = f s.crn := rfl
@[simp] theorem State.modCrn_clo : (s.modCrn f).clo = s.clo := rfl
@[simp] theorem State.modCrn_ing : (s.modCrn f).ing = s.ing := rfl
@[simp] theorem State.modCrn_grd : (s.modCrn f).grd = s.grd := rfl
@[simp] theorem State.modCrn_net : (s.modCrn f).net = s.net := rfl
@[simp] theorem State.modCrn_fab : (s.modCrn f).fab = s.fab := rfl
@[simp] theorem State.modCrn_nmg : (s.modCrn f).nmg = s.nmg := rfl
@[simp] theorem State.modCrn_out : (s.modCrn f).out = s.out := rfl
@[simp] theorem State.modCrn_free : (s.modCrn f).free = s.free := rfl
@[simp] theorem State.modCrn_pending : (s.modCrn f).pending = s.pending := rfl
end

/-! ### modMbx -/

section
variable (smb : Bool) (f : MbxChan → MbxChan)
@[simp] theorem State.modMbx_cores : (s.modMbx smb f).cores = s.cores := rfl
@[simp] theorem State.modMbx_ddr : (s.modMbx smb f).ddr = s.ddr := rfl
@[simp] theorem State.modMbx_tb : (s.modMbx smb f).tb = s.tb := rfl
@[simp] theorem State.modMbx_evt : (s.modMbx smb f).evt = s.evt := rfl
@[simp] theorem State.modMbx_pci : (s.modMbx smb f).pci = s.pci := rfl
@[simp] theorem State.modMbx_flt : (s.modMbx smb f).flt = s.flt := rfl
@[simp] theorem State.modMbx_pwr : (s.modMbx smb f).pwr = s.pwr := rfl
@[simp] theorem State.modMbx_dma : (s.modMbx smb f).dma = s.dma := rfl
@[simp] theorem State.modMbx_gnt : (s.modMbx smb f).gnt = s.gnt := rfl
@[simp] theorem State.modMbx_crn : (s.modMbx smb f).crn = s.crn.setChan smb (f (s.crn.chan smb)) := rfl
@[simp] theorem State.modMbx_clo : (s.modMbx smb f).clo = s.clo := rfl
@[simp] theorem State.modMbx_ing : (s.modMbx smb f).ing = s.ing := rfl
@[simp] theorem State.modMbx_grd : (s.modMbx smb f).grd = s.grd := rfl
@[simp] theorem State.modMbx_net : (s.modMbx smb f).net = s.net := rfl
@[simp] theorem State.modMbx_fab : (s.modMbx smb f).fab = s.fab := rfl
@[simp] theorem State.modMbx_nmg : (s.modMbx smb f).nmg = s.nmg := rfl
@[simp] theorem State.modMbx_out : (s.modMbx smb f).out = s.out := rfl
@[simp] theorem State.modMbx_free : (s.modMbx smb f).free = s.free := rfl
@[simp] theorem State.modMbx_pending : (s.modMbx smb f).pending = s.pending := rfl
end

/-! ### modClo -/

section
variable (f : CloState → CloState)
@[simp] theorem State.modClo_cores : (s.modClo f).cores = s.cores := rfl
@[simp] theorem State.modClo_ddr : (s.modClo f).ddr = s.ddr := rfl
@[simp] theorem State.modClo_tb : (s.modClo f).tb = s.tb := rfl
@[simp] theorem State.modClo_evt : (s.modClo f).evt = s.evt := rfl
@[simp] theorem State.modClo_pci : (s.modClo f).pci = s.pci := rfl
@[simp] theorem State.modClo_flt : (s.modClo f).flt = s.flt := rfl
@[simp] theorem State.modClo_pwr : (s.modClo f).pwr = s.pwr := rfl
@[simp] theorem State.modClo_dma : (s.modClo f).dma = s.dma := rfl
@[simp] theorem State.modClo_gnt : (s.modClo f).gnt = s.gnt := rfl
@[simp] theorem State.modClo_crn : (s.modClo f).crn = s.crn := rfl
@[simp] theorem State.modClo_clo : (s.modClo f).clo = f s.clo := rfl
@[simp] theorem State.modClo_ing : (s.modClo f).ing = s.ing := rfl
@[simp] theorem State.modClo_grd : (s.modClo f).grd = s.grd := rfl
@[simp] theorem State.modClo_net : (s.modClo f).net = s.net := rfl
@[simp] theorem State.modClo_fab : (s.modClo f).fab = s.fab := rfl
@[simp] theorem State.modClo_nmg : (s.modClo f).nmg = s.nmg := rfl
@[simp] theorem State.modClo_out : (s.modClo f).out = s.out := rfl
@[simp] theorem State.modClo_free : (s.modClo f).free = s.free := rfl
@[simp] theorem State.modClo_pending : (s.modClo f).pending = s.pending := rfl
end

/-! ### modIng -/

section
variable (f : IngState → IngState)
@[simp] theorem State.modIng_cores : (s.modIng f).cores = s.cores := rfl
@[simp] theorem State.modIng_ddr : (s.modIng f).ddr = s.ddr := rfl
@[simp] theorem State.modIng_tb : (s.modIng f).tb = s.tb := rfl
@[simp] theorem State.modIng_evt : (s.modIng f).evt = s.evt := rfl
@[simp] theorem State.modIng_pci : (s.modIng f).pci = s.pci := rfl
@[simp] theorem State.modIng_flt : (s.modIng f).flt = s.flt := rfl
@[simp] theorem State.modIng_pwr : (s.modIng f).pwr = s.pwr := rfl
@[simp] theorem State.modIng_dma : (s.modIng f).dma = s.dma := rfl
@[simp] theorem State.modIng_gnt : (s.modIng f).gnt = s.gnt := rfl
@[simp] theorem State.modIng_crn : (s.modIng f).crn = s.crn := rfl
@[simp] theorem State.modIng_clo : (s.modIng f).clo = s.clo := rfl
@[simp] theorem State.modIng_ing : (s.modIng f).ing = f s.ing := rfl
@[simp] theorem State.modIng_grd : (s.modIng f).grd = s.grd := rfl
@[simp] theorem State.modIng_net : (s.modIng f).net = s.net := rfl
@[simp] theorem State.modIng_fab : (s.modIng f).fab = s.fab := rfl
@[simp] theorem State.modIng_nmg : (s.modIng f).nmg = s.nmg := rfl
@[simp] theorem State.modIng_out : (s.modIng f).out = s.out := rfl
@[simp] theorem State.modIng_free : (s.modIng f).free = s.free := rfl
@[simp] theorem State.modIng_pending : (s.modIng f).pending = s.pending := rfl
end

/-! ### modPort -/

section
variable (p : Fin 4) (f : EthPort → EthPort)
@[simp] theorem State.modPort_cores : (s.modPort p f).cores = s.cores := rfl
@[simp] theorem State.modPort_ddr : (s.modPort p f).ddr = s.ddr := rfl
@[simp] theorem State.modPort_tb : (s.modPort p f).tb = s.tb := rfl
@[simp] theorem State.modPort_evt : (s.modPort p f).evt = s.evt := rfl
@[simp] theorem State.modPort_pci : (s.modPort p f).pci = s.pci := rfl
@[simp] theorem State.modPort_flt : (s.modPort p f).flt = s.flt := rfl
@[simp] theorem State.modPort_pwr : (s.modPort p f).pwr = s.pwr := rfl
@[simp] theorem State.modPort_dma : (s.modPort p f).dma = s.dma := rfl
@[simp] theorem State.modPort_gnt : (s.modPort p f).gnt = s.gnt := rfl
@[simp] theorem State.modPort_crn : (s.modPort p f).crn = s.crn := rfl
@[simp] theorem State.modPort_clo : (s.modPort p f).clo = s.clo := rfl
@[simp] theorem State.modPort_ing : (s.modPort p f).ing = { s.ing with port := s.ing.port.set p (f s.ing.port[p]) } := rfl
@[simp] theorem State.modPort_grd : (s.modPort p f).grd = s.grd := rfl
@[simp] theorem State.modPort_net : (s.modPort p f).net = s.net := rfl
@[simp] theorem State.modPort_fab : (s.modPort p f).fab = s.fab := rfl
@[simp] theorem State.modPort_nmg : (s.modPort p f).nmg = s.nmg := rfl
@[simp] theorem State.modPort_out : (s.modPort p f).out = s.out := rfl
@[simp] theorem State.modPort_free : (s.modPort p f).free = s.free := rfl
@[simp] theorem State.modPort_pending : (s.modPort p f).pending = s.pending := rfl
end

/-! ### modRing -/

section
variable (p : Fin 4) (f : IngRing → IngRing)
@[simp] theorem State.modRing_cores : (s.modRing p f).cores = s.cores := rfl
@[simp] theorem State.modRing_ddr : (s.modRing p f).ddr = s.ddr := rfl
@[simp] theorem State.modRing_tb : (s.modRing p f).tb = s.tb := rfl
@[simp] theorem State.modRing_evt : (s.modRing p f).evt = s.evt := rfl
@[simp] theorem State.modRing_pci : (s.modRing p f).pci = s.pci := rfl
@[simp] theorem State.modRing_flt : (s.modRing p f).flt = s.flt := rfl
@[simp] theorem State.modRing_pwr : (s.modRing p f).pwr = s.pwr := rfl
@[simp] theorem State.modRing_dma : (s.modRing p f).dma = s.dma := rfl
@[simp] theorem State.modRing_gnt : (s.modRing p f).gnt = s.gnt := rfl
@[simp] theorem State.modRing_crn : (s.modRing p f).crn = s.crn := rfl
@[simp] theorem State.modRing_clo : (s.modRing p f).clo = s.clo := rfl
@[simp] theorem State.modRing_ing : (s.modRing p f).ing = { s.ing with ring := s.ing.ring.set p (f s.ing.ring[p]) } := rfl
@[simp] theorem State.modRing_grd : (s.modRing p f).grd = s.grd := rfl
@[simp] theorem State.modRing_net : (s.modRing p f).net = s.net := rfl
@[simp] theorem State.modRing_fab : (s.modRing p f).fab = s.fab := rfl
@[simp] theorem State.modRing_nmg : (s.modRing p f).nmg = s.nmg := rfl
@[simp] theorem State.modRing_out : (s.modRing p f).out = s.out := rfl
@[simp] theorem State.modRing_free : (s.modRing p f).free = s.free := rfl
@[simp] theorem State.modRing_pending : (s.modRing p f).pending = s.pending := rfl
end

/-! ### modSens -/

section
variable (n : Fin 16) (f : SensState → SensState)
@[simp] theorem State.modSens_cores : (s.modSens n f).cores = s.cores := rfl
@[simp] theorem State.modSens_ddr : (s.modSens n f).ddr = s.ddr := rfl
@[simp] theorem State.modSens_tb : (s.modSens n f).tb = s.tb := rfl
@[simp] theorem State.modSens_evt : (s.modSens n f).evt = s.evt := rfl
@[simp] theorem State.modSens_pci : (s.modSens n f).pci = s.pci := rfl
@[simp] theorem State.modSens_flt : (s.modSens n f).flt = s.flt := rfl
@[simp] theorem State.modSens_pwr : (s.modSens n f).pwr = s.pwr := rfl
@[simp] theorem State.modSens_dma : (s.modSens n f).dma = s.dma := rfl
@[simp] theorem State.modSens_gnt : (s.modSens n f).gnt = s.gnt := rfl
@[simp] theorem State.modSens_crn : (s.modSens n f).crn = s.crn := rfl
@[simp] theorem State.modSens_clo : (s.modSens n f).clo = s.clo := rfl
@[simp] theorem State.modSens_ing : (s.modSens n f).ing = { s.ing with sn := s.ing.sn.set n (f s.ing.sn[n]) } := rfl
@[simp] theorem State.modSens_grd : (s.modSens n f).grd = s.grd := rfl
@[simp] theorem State.modSens_net : (s.modSens n f).net = s.net := rfl
@[simp] theorem State.modSens_fab : (s.modSens n f).fab = s.fab := rfl
@[simp] theorem State.modSens_nmg : (s.modSens n f).nmg = s.nmg := rfl
@[simp] theorem State.modSens_out : (s.modSens n f).out = s.out := rfl
@[simp] theorem State.modSens_free : (s.modSens n f).free = s.free := rfl
@[simp] theorem State.modSens_pending : (s.modSens n f).pending = s.pending := rfl
end

/-! ### modFab -/

section
variable (f : FabState → FabState)
@[simp] theorem State.modFab_cores : (s.modFab f).cores = s.cores := rfl
@[simp] theorem State.modFab_ddr : (s.modFab f).ddr = s.ddr := rfl
@[simp] theorem State.modFab_tb : (s.modFab f).tb = s.tb := rfl
@[simp] theorem State.modFab_evt : (s.modFab f).evt = s.evt := rfl
@[simp] theorem State.modFab_pci : (s.modFab f).pci = s.pci := rfl
@[simp] theorem State.modFab_flt : (s.modFab f).flt = s.flt := rfl
@[simp] theorem State.modFab_pwr : (s.modFab f).pwr = s.pwr := rfl
@[simp] theorem State.modFab_dma : (s.modFab f).dma = s.dma := rfl
@[simp] theorem State.modFab_gnt : (s.modFab f).gnt = s.gnt := rfl
@[simp] theorem State.modFab_crn : (s.modFab f).crn = s.crn := rfl
@[simp] theorem State.modFab_clo : (s.modFab f).clo = s.clo := rfl
@[simp] theorem State.modFab_ing : (s.modFab f).ing = s.ing := rfl
@[simp] theorem State.modFab_grd : (s.modFab f).grd = s.grd := rfl
@[simp] theorem State.modFab_net : (s.modFab f).net = s.net := rfl
@[simp] theorem State.modFab_fab : (s.modFab f).fab = f s.fab := rfl
@[simp] theorem State.modFab_nmg : (s.modFab f).nmg = s.nmg := rfl
@[simp] theorem State.modFab_out : (s.modFab f).out = s.out := rfl
@[simp] theorem State.modFab_free : (s.modFab f).free = s.free := rfl
@[simp] theorem State.modFab_pending : (s.modFab f).pending = s.pending := rfl
end

/-! ### modLink -/

section
variable (p : Fin 6) (f : FabPort → FabPort)
@[simp] theorem State.modLink_cores : (s.modLink p f).cores = s.cores := rfl
@[simp] theorem State.modLink_ddr : (s.modLink p f).ddr = s.ddr := rfl
@[simp] theorem State.modLink_tb : (s.modLink p f).tb = s.tb := rfl
@[simp] theorem State.modLink_evt : (s.modLink p f).evt = s.evt := rfl
@[simp] theorem State.modLink_pci : (s.modLink p f).pci = s.pci := rfl
@[simp] theorem State.modLink_flt : (s.modLink p f).flt = s.flt := rfl
@[simp] theorem State.modLink_pwr : (s.modLink p f).pwr = s.pwr := rfl
@[simp] theorem State.modLink_dma : (s.modLink p f).dma = s.dma := rfl
@[simp] theorem State.modLink_gnt : (s.modLink p f).gnt = s.gnt := rfl
@[simp] theorem State.modLink_crn : (s.modLink p f).crn = s.crn := rfl
@[simp] theorem State.modLink_clo : (s.modLink p f).clo = s.clo := rfl
@[simp] theorem State.modLink_ing : (s.modLink p f).ing = s.ing := rfl
@[simp] theorem State.modLink_grd : (s.modLink p f).grd = s.grd := rfl
@[simp] theorem State.modLink_net : (s.modLink p f).net = s.net := rfl
@[simp] theorem State.modLink_fab : (s.modLink p f).fab = { s.fab with ports := s.fab.ports.set p (f s.fab.ports[p]) } := rfl
@[simp] theorem State.modLink_nmg : (s.modLink p f).nmg = s.nmg := rfl
@[simp] theorem State.modLink_out : (s.modLink p f).out = s.out := rfl
@[simp] theorem State.modLink_free : (s.modLink p f).free = s.free := rfl
@[simp] theorem State.modLink_pending : (s.modLink p f).pending = s.pending := rfl
end

/-! ### modNmg -/

section
variable (f : NmgState → NmgState)
@[simp] theorem State.modNmg_cores : (s.modNmg f).cores = s.cores := rfl
@[simp] theorem State.modNmg_ddr : (s.modNmg f).ddr = s.ddr := rfl
@[simp] theorem State.modNmg_tb : (s.modNmg f).tb = s.tb := rfl
@[simp] theorem State.modNmg_evt : (s.modNmg f).evt = s.evt := rfl
@[simp] theorem State.modNmg_pci : (s.modNmg f).pci = s.pci := rfl
@[simp] theorem State.modNmg_flt : (s.modNmg f).flt = s.flt := rfl
@[simp] theorem State.modNmg_pwr : (s.modNmg f).pwr = s.pwr := rfl
@[simp] theorem State.modNmg_dma : (s.modNmg f).dma = s.dma := rfl
@[simp] theorem State.modNmg_gnt : (s.modNmg f).gnt = s.gnt := rfl
@[simp] theorem State.modNmg_crn : (s.modNmg f).crn = s.crn := rfl
@[simp] theorem State.modNmg_clo : (s.modNmg f).clo = s.clo := rfl
@[simp] theorem State.modNmg_ing : (s.modNmg f).ing = s.ing := rfl
@[simp] theorem State.modNmg_grd : (s.modNmg f).grd = s.grd := rfl
@[simp] theorem State.modNmg_net : (s.modNmg f).net = s.net := rfl
@[simp] theorem State.modNmg_fab : (s.modNmg f).fab = s.fab := rfl
@[simp] theorem State.modNmg_nmg : (s.modNmg f).nmg = f s.nmg := rfl
@[simp] theorem State.modNmg_out : (s.modNmg f).out = s.out := rfl
@[simp] theorem State.modNmg_free : (s.modNmg f).free = s.free := rfl
@[simp] theorem State.modNmg_pending : (s.modNmg f).pending = s.pending := rfl
end

/-! ### modUnit -/

section
variable (u : Fin 16) (f : NmgUnit → NmgUnit)
@[simp] theorem State.modUnit_cores : (s.modUnit u f).cores = s.cores := rfl
@[simp] theorem State.modUnit_ddr : (s.modUnit u f).ddr = s.ddr := rfl
@[simp] theorem State.modUnit_tb : (s.modUnit u f).tb = s.tb := rfl
@[simp] theorem State.modUnit_evt : (s.modUnit u f).evt = s.evt := rfl
@[simp] theorem State.modUnit_pci : (s.modUnit u f).pci = s.pci := rfl
@[simp] theorem State.modUnit_flt : (s.modUnit u f).flt = s.flt := rfl
@[simp] theorem State.modUnit_pwr : (s.modUnit u f).pwr = s.pwr := rfl
@[simp] theorem State.modUnit_dma : (s.modUnit u f).dma = s.dma := rfl
@[simp] theorem State.modUnit_gnt : (s.modUnit u f).gnt = s.gnt := rfl
@[simp] theorem State.modUnit_crn : (s.modUnit u f).crn = s.crn := rfl
@[simp] theorem State.modUnit_clo : (s.modUnit u f).clo = s.clo := rfl
@[simp] theorem State.modUnit_ing : (s.modUnit u f).ing = s.ing := rfl
@[simp] theorem State.modUnit_grd : (s.modUnit u f).grd = s.grd := rfl
@[simp] theorem State.modUnit_net : (s.modUnit u f).net = s.net := rfl
@[simp] theorem State.modUnit_fab : (s.modUnit u f).fab = s.fab := rfl
@[simp] theorem State.modUnit_nmg : (s.modUnit u f).nmg = { s.nmg with units := s.nmg.units.set u (f s.nmg.units[u]) } := rfl
@[simp] theorem State.modUnit_out : (s.modUnit u f).out = s.out := rfl
@[simp] theorem State.modUnit_free : (s.modUnit u f).free = s.free := rfl
@[simp] theorem State.modUnit_pending : (s.modUnit u f).pending = s.pending := rfl
end

/-! ### emit -/

section
variable (o : Output)
@[simp] theorem State.emit_cores : (s.emit o).cores = s.cores := rfl
@[simp] theorem State.emit_ddr : (s.emit o).ddr = s.ddr := rfl
@[simp] theorem State.emit_tb : (s.emit o).tb = s.tb := rfl
@[simp] theorem State.emit_evt : (s.emit o).evt = s.evt := rfl
@[simp] theorem State.emit_pci : (s.emit o).pci = s.pci := rfl
@[simp] theorem State.emit_flt : (s.emit o).flt = s.flt := rfl
@[simp] theorem State.emit_pwr : (s.emit o).pwr = s.pwr := rfl
@[simp] theorem State.emit_dma : (s.emit o).dma = s.dma := rfl
@[simp] theorem State.emit_gnt : (s.emit o).gnt = s.gnt := rfl
@[simp] theorem State.emit_crn : (s.emit o).crn = s.crn := rfl
@[simp] theorem State.emit_clo : (s.emit o).clo = s.clo := rfl
@[simp] theorem State.emit_ing : (s.emit o).ing = s.ing := rfl
@[simp] theorem State.emit_grd : (s.emit o).grd = s.grd := rfl
@[simp] theorem State.emit_net : (s.emit o).net = s.net := rfl
@[simp] theorem State.emit_fab : (s.emit o).fab = s.fab := rfl
@[simp] theorem State.emit_nmg : (s.emit o).nmg = s.nmg := rfl
@[simp] theorem State.emit_out : (s.emit o).out = s.out ++ [o] := rfl
@[simp] theorem State.emit_free : (s.emit o).free = s.free := rfl
@[simp] theorem State.emit_pending : (s.emit o).pending = s.pending := rfl
end

/-! ### modMon -/

section
variable (d : Fin 4) (f : DieMon → DieMon)
@[simp] theorem State.modMon_cores : (s.modMon d f).cores = s.cores := rfl
@[simp] theorem State.modMon_ddr : (s.modMon d f).ddr = s.ddr := rfl
@[simp] theorem State.modMon_tb : (s.modMon d f).tb = s.tb := rfl
@[simp] theorem State.modMon_evt : (s.modMon d f).evt = s.evt := rfl
@[simp] theorem State.modMon_pci : (s.modMon d f).pci = s.pci := rfl
@[simp] theorem State.modMon_flt : (s.modMon d f).flt = s.flt := rfl
@[simp] theorem State.modMon_pwr : (s.modMon d f).pwr = s.pwr := rfl
@[simp] theorem State.modMon_dma : (s.modMon d f).dma = s.dma := rfl
@[simp] theorem State.modMon_gnt : (s.modMon d f).gnt = { s.gnt with mon := s.gnt.mon.set d (f s.gnt.mon[d]) } := rfl
@[simp] theorem State.modMon_crn : (s.modMon d f).crn = s.crn := rfl
@[simp] theorem State.modMon_clo : (s.modMon d f).clo = s.clo := rfl
@[simp] theorem State.modMon_ing : (s.modMon d f).ing = s.ing := rfl
@[simp] theorem State.modMon_grd : (s.modMon d f).grd = s.grd := rfl
@[simp] theorem State.modMon_net : (s.modMon d f).net = s.net := rfl
@[simp] theorem State.modMon_fab : (s.modMon d f).fab = s.fab := rfl
@[simp] theorem State.modMon_nmg : (s.modMon d f).nmg = s.nmg := rfl
@[simp] theorem State.modMon_out : (s.modMon d f).out = s.out := rfl
@[simp] theorem State.modMon_free : (s.modMon d f).free = s.free := rfl
@[simp] theorem State.modMon_pending : (s.modMon d f).pending = s.pending := rfl
end

/-! ### modPwr -/

section
variable (f : PwrState → PwrState)
@[simp] theorem State.modPwr_cores : (s.modPwr f).cores = s.cores := rfl
@[simp] theorem State.modPwr_ddr : (s.modPwr f).ddr = s.ddr := rfl
@[simp] theorem State.modPwr_tb : (s.modPwr f).tb = s.tb := rfl
@[simp] theorem State.modPwr_evt : (s.modPwr f).evt = s.evt := rfl
@[simp] theorem State.modPwr_pci : (s.modPwr f).pci = s.pci := rfl
@[simp] theorem State.modPwr_flt : (s.modPwr f).flt = s.flt := rfl
@[simp] theorem State.modPwr_pwr : (s.modPwr f).pwr = f s.pwr := rfl
@[simp] theorem State.modPwr_dma : (s.modPwr f).dma = s.dma := rfl
@[simp] theorem State.modPwr_gnt : (s.modPwr f).gnt = s.gnt := rfl
@[simp] theorem State.modPwr_crn : (s.modPwr f).crn = s.crn := rfl
@[simp] theorem State.modPwr_clo : (s.modPwr f).clo = s.clo := rfl
@[simp] theorem State.modPwr_ing : (s.modPwr f).ing = s.ing := rfl
@[simp] theorem State.modPwr_grd : (s.modPwr f).grd = s.grd := rfl
@[simp] theorem State.modPwr_net : (s.modPwr f).net = s.net := rfl
@[simp] theorem State.modPwr_fab : (s.modPwr f).fab = s.fab := rfl
@[simp] theorem State.modPwr_nmg : (s.modPwr f).nmg = s.nmg := rfl
@[simp] theorem State.modPwr_out : (s.modPwr f).out = s.out := rfl
@[simp] theorem State.modPwr_free : (s.modPwr f).free = s.free := rfl
@[simp] theorem State.modPwr_pending : (s.modPwr f).pending = s.pending := rfl
end

/-! ### modServo -/

section
variable (d : Fin 2) (f : PtpServo → PtpServo)
@[simp] theorem State.modServo_cores : (s.modServo d f).cores = s.cores := rfl
@[simp] theorem State.modServo_ddr : (s.modServo d f).ddr = s.ddr := rfl
@[simp] theorem State.modServo_tb : (s.modServo d f).tb = { s.tb with servo := s.tb.servo.set d (f s.tb.servo[d]) } := rfl
@[simp] theorem State.modServo_evt : (s.modServo d f).evt = s.evt := rfl
@[simp] theorem State.modServo_pci : (s.modServo d f).pci = s.pci := rfl
@[simp] theorem State.modServo_flt : (s.modServo d f).flt = s.flt := rfl
@[simp] theorem State.modServo_pwr : (s.modServo d f).pwr = s.pwr := rfl
@[simp] theorem State.modServo_dma : (s.modServo d f).dma = s.dma := rfl
@[simp] theorem State.modServo_gnt : (s.modServo d f).gnt = s.gnt := rfl
@[simp] theorem State.modServo_crn : (s.modServo d f).crn = s.crn := rfl
@[simp] theorem State.modServo_clo : (s.modServo d f).clo = s.clo := rfl
@[simp] theorem State.modServo_ing : (s.modServo d f).ing = s.ing := rfl
@[simp] theorem State.modServo_grd : (s.modServo d f).grd = s.grd := rfl
@[simp] theorem State.modServo_net : (s.modServo d f).net = s.net := rfl
@[simp] theorem State.modServo_fab : (s.modServo d f).fab = s.fab := rfl
@[simp] theorem State.modServo_nmg : (s.modServo d f).nmg = s.nmg := rfl
@[simp] theorem State.modServo_out : (s.modServo d f).out = s.out := rfl
@[simp] theorem State.modServo_free : (s.modServo d f).free = s.free := rfl
@[simp] theorem State.modServo_pending : (s.modServo d f).pending = s.pending := rfl
end

/-! ### withPending -/

section
variable (q : List Instr)
@[simp] theorem State.withPending_cores : (s.withPending q).cores = s.cores := rfl
@[simp] theorem State.withPending_ddr : (s.withPending q).ddr = s.ddr := rfl
@[simp] theorem State.withPending_tb : (s.withPending q).tb = s.tb := rfl
@[simp] theorem State.withPending_evt : (s.withPending q).evt = s.evt := rfl
@[simp] theorem State.withPending_pci : (s.withPending q).pci = s.pci := rfl
@[simp] theorem State.withPending_flt : (s.withPending q).flt = s.flt := rfl
@[simp] theorem State.withPending_pwr : (s.withPending q).pwr = s.pwr := rfl
@[simp] theorem State.withPending_dma : (s.withPending q).dma = s.dma := rfl
@[simp] theorem State.withPending_gnt : (s.withPending q).gnt = s.gnt := rfl
@[simp] theorem State.withPending_crn : (s.withPending q).crn = s.crn := rfl
@[simp] theorem State.withPending_clo : (s.withPending q).clo = s.clo := rfl
@[simp] theorem State.withPending_ing : (s.withPending q).ing = s.ing := rfl
@[simp] theorem State.withPending_grd : (s.withPending q).grd = s.grd := rfl
@[simp] theorem State.withPending_net : (s.withPending q).net = s.net := rfl
@[simp] theorem State.withPending_fab : (s.withPending q).fab = s.fab := rfl
@[simp] theorem State.withPending_nmg : (s.withPending q).nmg = s.nmg := rfl
@[simp] theorem State.withPending_out : (s.withPending q).out = s.out := rfl
@[simp] theorem State.withPending_free : (s.withPending q).free = s.free := rfl
@[simp] theorem State.withPending_pending : (s.withPending q).pending = q := rfl
end

/-! ### One core, one port, one part of an array after a change -/

theorem State.modCore_core (c d : CoreId) (f : CoreSt → CoreSt) :
    (s.modCore c f).cores[d] = if d = c then f s.cores[d] else s.cores[d] := by
  by_cases h : d = c
  · subst h; simp [State.modCore]
  · have : c.val ≠ d.val := fun e => h (Fin.ext e.symm)
    simp [State.modCore, h, this]

theorem State.modCore_same (c : CoreId) (f : CoreSt → CoreSt) : (s.modCore c f).cores[c] = f s.cores[c] := by
  rw [State.modCore_core, if_pos rfl]

theorem State.modCore_other {c d : CoreId} (h : d ≠ c) (f : CoreSt → CoreSt) : (s.modCore c f).cores[d] = s.cores[d] := by
  rw [State.modCore_core, if_neg h]

/-- Two changes of one core are one change. -/
theorem State.modCore_modCore (c : CoreId) (f g : CoreSt → CoreSt) :
    (s.modCore c f).modCore c g = s.modCore c fun k => g (f k) := by
  simp [State.modCore]

/-- Putting a core's own value back changes nothing. -/
theorem State.modCore_self (c : CoreId) : s.modCore c (fun k => k) = s := by
  simp [State.modCore]

end Sys2Proof.Machine
end

