-- ==== Sys2Proof/Laws/Ops.lean ====
section
/-! SUPPORT. What the shared operations do: a fetched instruction that executes, is skipped or fails, and a command that an
engine performs. -/

namespace Sys2Proof.Machine

/-! ### The fetch of an instruction -/

/-- An instruction that executes is its body (R42, R44). -/
theorem seqStep_ok {s : State} {c : CoreId} {w : Word} {mine : Nat → Bool} {body : Word → State → State} (h : s.Executes c w)
    (ho : mine (opOpc w) = true) : s.seqStep c .none mine body = body w s := by
  obtain ⟨h1, h2, h3⟩ := h
  simp [-Fin.getElem_fin, State.seqStep, State.imemCorrected, h1, h2, h3, ho]

/-- An instruction of another row at the pc: nothing happens. -/
theorem seqStep_other {s : State} {c : CoreId} {w : Word} {mine : Nat → Bool} {body : Word → State → State} (h : s.Executes c w)
    (ho : mine (opOpc w) = false) : s.seqStep c .none mine body = s := by
  obtain ⟨h1, h2, h3⟩ := h
  simp [-Fin.getElem_fin, State.seqStep, h1, h2, ho]

/-- A false predicate: past the word (R42). -/
theorem seqStep_skip {s : State} {c : CoreId} {w : Word} {mine : Nat → Bool} {body : Word → State → State}
    (h1 : s.cores[c].seq.phase = .running) (h2 : s.cores[c].fetch .none = .word w) (h3 : s.cores[c].seq.executes w = false)
    (ho : mine (opOpc w) = true) : s.seqStep c .none mine body = s.withSeq c s.cores[c].seq.advance := by
  simp [-Fin.getElem_fin, State.seqStep, State.imemCorrected, h1, h2, h3, ho]
  rfl

/-- A fetch that fails ends the task (R43, R50, R53, R74, R75). -/
theorem seqStep_fail {s : State} {c : CoreId} {flt : FetchFault} {st : Nat} {mine : Nat → Bool} {body : Word → State → State}
    (h1 : s.cores[c].seq.phase = .running) (h2 : s.cores[c].fetch flt = .fail st) :
    s.seqStep c flt mine body = (s.imemCorrected c flt).failTask c st := by
  simp [-Fin.getElem_fin, State.seqStep, h1, h2]

/-- No instruction is fetched on a core that runs none. -/
theorem seqStep_still {s : State} {c : CoreId} {flt : FetchFault} {mine : Nat → Bool} {body : Word → State → State}
    (h : s.cores[c].seq.phase ≠ .running) (hf : flt ≠ .parity) : s.seqStep c flt mine body = s := by
  simp [-Fin.getElem_fin, State.seqStep, h, hf]

theorem seqPure_ok {s : State} {c : CoreId} {w : Word} {o : Nat} {f : Word → SeqState → SeqState} (h : s.Executes c w)
    (ho : opOpc w = o) : s.seqPure c .none o f = .next (s.withSeq c (f w s.cores[c].seq).advance) := by
  unfold State.seqPure
  rw [seqStep_ok h (by simpa using ho)]
  rfl

theorem seqControl_ok {s : State} {c : CoreId} {w : Word} {o : Nat} {f : SeqState → Word → Except Nat SeqState}
    (h : s.Executes c w) (ho : opOpc w = o) : s.seqControl c .none o f = .next (match f s.cores[c].seq w with
      | .ok q => s.withSeq c q
      | .error st => s.failTask c st) := by
  unfold State.seqControl
  rw [seqStep_ok h (by simpa using ho)]
  rfl

/-! ### Engines -/

/-- A command in work, its header in order, whose run works out its results: its writes begin (R69, R71). -/
theorem engineStep_done {s t : State} {c : CoreId} {e : Fin 7} {q : EngCmd} {n : Nat} {mine listed : Nat → Bool} {ev : Nat}
    {src : Ini} {run : EngCmd → State → EngineRun} (h : s.Works c e q n) (hm : mine q.opc = true) (hr : run q s = .done t) :
    s.engineStep c e mine listed ev src run = t.performed c e := by
  obtain ⟨h1, h2, h3, h4⟩ := h
  unfold State.engineStep
  simp only [h1, hm, Bool.true_or, if_true]
  unfold State.engineWork
  simp only [h1, h2, h4, EngWork.none, Bool.false_eq_true, if_false, hm, if_true, hr]

/-- A command in work that its run carries to its next part. -/
theorem engineStep_wait {s t : State} {c : CoreId} {e : Fin 7} {q : EngCmd} {n m : Nat} {mine listed : Nat → Bool} {ev : Nat}
    {src : Ini} {run : EngCmd → State → EngineRun} (h : s.Works c e q n) (hm : mine q.opc = true) (hr : run q s = .wait m t) :
    s.engineStep c e mine listed ev src run = t.partlyTo c e m := by
  obtain ⟨h1, h2, h3, h4⟩ := h
  unfold State.engineStep
  simp only [h1, hm, Bool.true_or, if_true]
  unfold State.engineWork
  simp only [h1, h2, h4, EngWork.none, Bool.false_eq_true, if_false, hm, if_true, hr]
  rfl

/-- A command that its run refuses (R71). -/
theorem engineStep_refuse {s : State} {c : CoreId} {e : Fin 7} {q : EngCmd} {n : Nat} {mine listed : Nat → Bool} {ev : Nat}
    {src : Ini} {run : EngCmd → State → EngineRun} (h : s.Works c e q n) (hm : mine q.opc = true) (hr : run q s = .refuse) :
    s.engineStep c e mine listed ev src run = s.engineRefuse c e ev src := by
  obtain ⟨h1, h2, h3, h4⟩ := h
  unfold State.engineStep
  simp only [h1, hm, Bool.true_or, if_true]
  unfold State.engineWork
  simp only [h1, h2, h4, EngWork.none, Bool.false_eq_true, if_false, hm, if_true, hr]

/-- Work over lines that are powered and that their slots permit to be read is done at once (R88, R539). -/
theorem overSpd_ready {s : State} {c : CoreId} {e : Fin 7} {rs : List (Nat × Nat)} {work : State → EngineRun}
    (hl : s.cores[c].engines[e].work.latch = []) (h : s.cores[c].spd.Ready rs) :
    s.overSpd c e rs work = (work s).onHold fun t => (State.readLines c e (rangeLines rs) t).2 := by
  unfold State.overSpd
  rw [SpdState.Ready] at h
  simp only [hl, List.isEmpty_nil, h, Bool.true_and, if_true]

/-- A part that works out its results does so at once over such lines. -/
theorem overSpd_done {s t : State} {c : CoreId} {e : Fin 7} {rs : List (Nat × Nat)} {work : State → EngineRun}
    (hl : s.cores[c].engines[e].work.latch = []) (h : s.cores[c].spd.Ready rs) (hw : work s = .done t) :
    s.overSpd c e rs work = .done t := by
  rw [overSpd_ready hl h, hw]; rfl

/-- No range is always ready. -/
theorem ready_nil (p : SpdState) : p.Ready [] := by simp [SpdState.Ready, SpdState.readable, rangeLines]

/-- Ranges are ready together when each part is. -/
theorem ready_append {p : SpdState} {a b : List (Nat × Nat)} : p.Ready (a ++ b) ↔ p.Ready a ∧ p.Ready b := by
  simp only [SpdState.Ready, SpdState.readable, rangeLines, List.flatMap_append, List.all_append, Bool.and_eq_true]

/-- No writes due: the scratchpad is as it was. -/
theorem drainPuts_nil (e : Nat) (p : SpdState) (b : Bool) : drainPuts e [] p b = (p, [], b) := rfl

/-- A write in a powered bank that its slot permits is made. -/
theorem drainPuts_cons {e : Nat} {x : EngPut} {xs : List EngPut} {p : SpdState} {b : Bool} (h1 : p.lineOn (x.addr / 256) = true)
    (h2 : p.mayWrite (x.addr / 256) = true) : drainPuts e (x :: xs) p b = drainPuts e xs (p.putNow e x) b := by
  simp [drainPuts, h1, h2]

end Sys2Proof.Machine
end

