-- ==== Sys2Proof/Machine/Pins.lean ====
section
/-! DEFINITION. What the module's own output pins show (R525): functions of the state. -/

namespace Sys2Proof.Machine

/-- What a pin shows; `signal` is a level that its interface's own rule gives from moment to moment. -/
inductive PinLevel where
  | low | high | floating | signal
  deriving DecidableEq, Repr

/-- The columns of R525. -/
inductive PinPhase where
  | unpowered | starting | running | dozing
  deriving DecidableEq, Repr

/-- Which column holds; a module whose main rails are not up, or whose start waits in recovery, has its start in progress. -/
def PwrState.pinPhase (p : PwrState) : PinPhase :=
  match p.mode with
  | .off => .unpowered
  | .doze => .dozing
  | .run => if p.start = .none then .running else .starting
  | _ => .starting

/-- GNT_FAULT_A and GNT_FAULT_B (R417, R531). -/
def State.pinFault (s : State) (b : Bool) : PinLevel :=
  match s.pwr.pinPhase with
  | .unpowered => .low
  | .dozing => .low
  | _ => if (if b then s.gnt.faultB else s.gnt.faultA) then .high else .low

/-- THERMTRIP_N (R514). -/
def State.pinThermtrip (s : State) : PinLevel :=
  if s.pwr.pinPhase ≠ .unpowered ∧ s.pwr.trip then .low else .floating

/-- PWR_DOZE_N (R508). -/
def State.pinDoze (s : State) : PinLevel := if s.pwr.pinPhase = .dozing then .low else .floating

/-- TB_OUTk (R387). -/
def State.pinOut (s : State) (_k : Fin 4) : PinLevel :=
  match s.pwr.pinPhase with
  | .unpowered => .floating
  | .starting => .low
  | _ => .signal

/-- FLASH_SPI_CS_N; Crown reads the flash in the course of a start. -/
def State.pinFlashCs (s : State) : PinLevel :=
  match s.pwr.pinPhase with
  | .unpowered => .floating
  | .dozing => .high
  | _ => .signal

/-- MNn_RESET_N: low on a cold start until DDR initialisation begins. -/
def State.pinDdrReset (s : State) : PinLevel :=
  match s.pwr.pinPhase with
  | .unpowered => .floating
  | .starting => if s.pwr.mode = .aoOnly ∨ s.pwr.mode = .held .cold ∨ s.pwr.start = .cold then .low else .high
  | _ => .high

/-- MNn_CKE. -/
def State.pinDdrCke (s : State) : PinLevel :=
  match s.pwr.pinPhase with
  | .unpowered => .floating
  | .running => if s.ddr.selfRefresh then .low else .signal
  | _ => .low

/-- TDO: driven only while a TAP shifts, which is JTAG's (R472). -/
def State.pinTdo (s : State) : PinLevel := if s.pwr.pinPhase = .running then .signal else .floating

end Sys2Proof.Machine
end

