-- ==== Sys2Proof/Tests/Slice0.lean ====
section
/-! SUPPORT. The model's own tests: one ill-formed command for each check of WellFormed.lean; worked examples of the spec; and
for each statement of Certificates/Slice0/Obligations.lean a state and operands that meet its hypotheses. -/

open Sys2Proof Sys2Proof.Machine

namespace Sys2Proof.Tests

set_option Elab.async false

/-! ### Helpers -/

/-- `n` bytes of 0. -/
def zeros (n : Nat) : List Byte := List.replicate n 0

/-- A record with numbers at byte offsets: offset, size, value. -/
def packRec (l : List (Nat × Nat × Nat)) : Rec64 := l.foldl (fun r e => r ||| (BitVec.ofNat 512 e.2.2 <<< (8 * e.1))) 0

/-- A memory with numbers at addresses: address, size, value. -/
def memOf (l : List (Nat × Nat × Nat)) : Mem := l.foldl (fun m e => m.write e.1 (leBytes e.2.1 e.2.2)) []

/-- An instruction word by its fields (R42). -/
def word (opc d a b x imm : Nat) : Word := BitVec.ofNat 64 (opc * 2 ^ 56 + d * 2 ^ 47 + a * 2 ^ 42 + b * 2 ^ 37 + x * 2 ^ 32 + imm)

/-- Core 0 changed. -/
def coreZero (f : CoreSt → CoreSt) : State := State.reset.modCore 0 f

/-- Core 0 runs a task whose next word is `w`. -/
def running (w : Word) (f : SeqState → SeqState) : State :=
  coreZero fun k => { k with imem := [(0, w)], seq := f { k.seq with phase := .running } }

/-- The registers s1 to s3. -/
def regs (a b c : Nat) (q : SeqState) : SeqState :=
  ((q.setReg 1 (BitVec.ofNat 64 a)).setReg 2 (BitVec.ofNat 64 b)).setReg 3 (BitVec.ofNat 64 c)

/-- A scratchpad with every bank on. -/
def SPD (m : Mem) : SpdState := { SpdState.reset with mem := m, bankOn := 0xFFFF }

/-- Engine `e` of core 0 has a command in work, come to phase `n`. -/
def working (e : Fin 7) (q : EngCmd) (n : Nat) (p : SpdState) (g : GeoCore) : State :=
  coreZero fun k => { k with engines := k.engines.set e ⟨[], [⟨q, false⟩], n, EngWork.none⟩, spd := p, geo := g }

/-- An engine command with opcode `o` of partition 2 and further bits of word 0 (R66). -/
def cmd (e o : Nat) (w1 w2 w3 : Nat) : EngCmd :=
  ⟨BitVec.ofNat 64 (e + 16 * o + 2 ^ 50 * 2), BitVec.ofNat 64 w1, BitVec.ofNat 64 w2, BitVec.ofNat 64 w3⟩

/-! ### Ill-formed commands -/

theorem test_lines_are_one_line : (Instr.windowWrite 0 ⟨pf0, .none⟩ 0xFF (zeros 2)).wf = false ∧ (Instr.windowWrite 0 ⟨pf0, .none⟩ 0 []).wf = false ∧
    (Instr.windowWrite 0 ⟨pf0, .none⟩ 0x1000000 (zeros 1)).wf = false ∧ (Instr.windowWrite 0 ⟨pf0, .none⟩ 0x7FFF00 (zeros 256)).wf = true := by decide +kernel

theorem test_register_areas_end : (Instr.launchRecordWrite 0 pf0 0x80 (zeros 1)).wf = false ∧ (Instr.tplWrite 0 pf0 60 (zeros 5)).wf = false ∧
    (Instr.sensWrite 0 pf0 32 (zeros 1)).wf = false ∧ (Instr.extWrite 0 pf0 0 (zeros 65)).wf = false ∧
    (Instr.slotmapWrite pf0 16 (zeros 1)).wf = false ∧ (Instr.injqWrite 0 pf0 0 []).wf = false ∧
    (Instr.nmgTabWrite 0 pf0 64 (zeros 1)).wf = false ∧ (Instr.nmgReqWrite 0 0 pf0 63 (zeros 2)).wf = false ∧
    (Instr.collDescriptor pf0 64 (zeros 1)).wf = false ∧ (Instr.tbTxqWrite 0 pf0 16 (zeros 1)).wf = false ∧
    (Instr.gntNotice 0 ⟨0x20, rfl⟩ 32 (zeros 1)).wf = false ∧ (Instr.mbxSubmit pf0 256 (zeros 1)).wf = false ∧
    (Instr.mbxSubmit pf0 0xFC (zeros 4)).wf = true := by decide +kernel

theorem test_a_core_has_eight_channels : (Instr.dchGo (.core 0) 8 pf0).wf = false ∧ (Instr.dchGo (.die 0) 15 pf0).wf = true ∧
    (Instr.dchStop (.core 0) 8 pf0).wf = false ∧ (Instr.dmaCopy (.core 0) 15).wf = false ∧ (Instr.dmaFill (.core 0) 8).wf = false ∧
    (Instr.dmaCmp (.core 0) 8).wf = false ∧ (Instr.dmaCompress (.core 0) 8).wf = false ∧ (Instr.dmaHalfSignal (.core 0) 8).wf = false ∧
    (Instr.dmaDescriptorDone (.core 0) 8).wf = false ∧ (Instr.dmaParityHalt (.core 0) 8).wf = false := by decide +kernel

theorem test_ddr_access_in_48_bits : (Instr.ddrAccess ⟨pf0, 2, 0⟩ (2 ^ 48 - 1) (.read 2) .none .none).wf = false ∧
    (Instr.ddrAccess ⟨pf0, 2, 0⟩ 0 (.read 0) .none .none).wf = false ∧ (Instr.ddrAccess ⟨pf0, 2, 0⟩ 0 (.read 4097) .none .none).wf = false := by decide +kernel

theorem test_routes_and_blocks : (Instr.survey ⟨0, 0, 0, true⟩ []).wf = false ∧ (Instr.report ⟨0, 0, 0, true⟩ (List.replicate 22 0) ⟨0, false⟩ (Vector.replicate 6 none)).wf = false ∧
    (Instr.smbusBlockWrite true 1 (zeros 256)).wf = false := by decide +kernel

theorem test_packets_end : (Instr.fabricPacketForward 0 (FabPkt.make 1 0 0 0x60 false 0 0 (zeros 4097))).wf = false ∧
    (Instr.collFragment 0 (FabPkt.make 3 0 0 0x59 false 0 0 (zeros 4097))).wf = false := by decide +kernel

theorem test_host_accesses_end : (Instr.hostWindowWrite 0 0x3FFFFF (zeros 2) .none).wf = false ∧ (Instr.hostDdrAccess 0 (.read 4097) .none).wf = false ∧
    (Instr.hostDdrAccess 0 (.write (zeros 513)) .none).wf = false ∧ (Instr.registerWrite .cloB 0x100 (zeros 1) .none).wf = false ∧
    (Instr.registerWrite (.bar0 pf0) 0x4000000 (zeros 8) .none).wf = false ∧ (Instr.hostRead .pf1 0xFFFF 2 .none).wf = false ∧
    (Instr.hostRead .bar2 0 4097 .none).wf = false := by decide +kernel

/-! ### Worked examples of the spec -/

/-- Chapter 03, worked example 1: the descriptor of buffer 0. -/
theorem test_tagdesc_example : (⟨true, false, 9, 0x4000⟩ : TagDesc).word = 0x0000000000A44000 := by decide +kernel

/-- Chapters 04 and 05: the extraction template of the bucket loader and the point (1,200, 10,000, 2,400). -/
def exTpl : Rec64 := packRec [(0, 1, 0x0D), (1, 1, 8), (2, 2, 16), (4, 2, 200), (6, 2, 8), (8, 2, 3), (10, 2, 64), (0xC, 2, 512),
  (0x10, 4, 119305), (0x16, 2, 1), (0x1C, 4, 0xFFFFFFFF), (0x20, 4, 0x000E1000), (0x24, 4, 0x000D1000), (0x2C, 4, 0x000A0002),
  (0x34, 4, 0x00090002), (0x38, 4, 0x000C7008), (0x3C, 4, 0x000C3004)]
def exExt : Rec64 := packRec [(4, 4, 0x40000000), (4 + 16, 4, 0x40000000), (4 + 32, 4, 0x40000000), (0x28, 4, 307200), (0x30, 4, 614400)]
theorem test_template_example : tplOk exTpl = true ∧
    convert exTpl exExt 0 (some 5000) (some 9000) none (some 87) = .ok ⟨1200, 10000, 2400, 87, some 16384⟩ := by decide +kernel

/-- Chapter 05, worked example 1: the voxel of that point, its brick's key, owner and slot. -/
def exGrid : Rec64 := packRec [(0, 4, 0x2A01), (4, 4, 0xF), (8, 4, 2 ^ 32 - 51250), (12, 4, 2 ^ 32 - 51250), (16, 4, 2 ^ 32 - 3250),
  (0x14, 2, 100), (0x16, 1, 1), (0x2C, 4, 0x100000), (0x30, 4, 6144)]
theorem test_voxel_example : voxelOf exGrid 0 1200 = (524, 2) ∧ voxelOf exGrid 1 10000 = (612, 2) ∧ voxelOf exGrid 2 2400 = (56, 2) := by
  decide +kernel
theorem test_brick_example : brickKey 131 153 14 = 0x0000000E00990083 ∧ ownerOf 0xF (brickKey 131 153 14) = 2 ∧
    homeSlot (brickKey 131 153 14) = 0x78D0 := by decide +kernel

/-- Chapter 10, worked examples 1 and 2. -/
theorem test_quantise_example :
    (quantise 0 false (.fin false 1 (-8)) ([0x40666666, 0xBF99999A, 0, 0x3CF00000, 0xBCF00000].map (vDecode 6))).codes.map (toSigned 8) =
      [117, -128, -67, -65, -69] := by decide +kernel
theorem test_requantise_example : [640, -640, 700, 36000].map (rqElem (rqPar 0x00003DA640000000)) = [-7, -13, -7, 131] := by decide +kernel

/-- Chapter 11, worked example 1: the merge of the lists of c4 and c9. -/
def exLists : Mem := memOf [(0x100, 4, 4), (0x10C, 4, 4), (0x110, 8, 225), (0x118, 8, 1200), (0x120, 4, 90), (0x124, 4, 17), (0x128, 4, 75),
  (0x12C, 4, 1003), (0x130, 4, 75), (0x134, 4, 402), (0x138, 4, 60), (0x13C, 4, 5), (0x200, 4, 4), (0x20C, 4, 9), (0x210, 8, 299),
  (0x218, 8, 900), (0x220, 4, 88), (0x224, 4, 1010), (0x228, 4, 75), (0x22C, 4, 1003), (0x230, 4, 70), (0x234, 4, 1500), (0x238, 4, 66),
  (0x23C, 4, 1200)]
theorem test_merge_example :
    (let r := (selCmd ⟨0, 0, BitVec.ofNat 64 (3 * 2 ^ 23 + 3 * 2 ^ 43 + 2 ^ 50 + 2 ^ 51), 0⟩).merge 0 false (SPD exLists)
        [mList (SPD exLists) 0x100, mList (SPD exLists) 0x200]
     (List.range 4).map fun i => (leNat ((r.1.drop (32 + 8 * i)).take 4), leNat ((r.1.drop (36 + 8 * i)).take 4))) =
      [(90, 17), (88, 1010), (75, 1003), (75, 402)] := by decide +kernel

/-- Chapter 14, worked example 1: region 2 and the places of four bursts. -/
theorem test_place_example : placeIn 0x844C004000050040 0x001234000000 = (5, 0x123400000) ∧
    ((List.range 3).map fun i => (placeIn 0x844C004000050040 (0x001234000000 + 256 * (i + 1))).1) = [4, 7, 6] := by decide +kernel

/-- Chapter 15, worked example 1: from 0x00CE to 0x0089, out of X+ three times and then out of Z−. -/
def exFab : FabState := { FabState.reset with size := Vector.replicate 3 8, wrap := Vector.replicate 3 true, valid := true }
theorem test_route_example :
    exFab.nextPort (fun _ => true) 0xCE 0x89 0 = .out 0 0 false ∧ exFab.nextPort (fun _ => true) 0xCF 0x89 0 = .out 0 0 false ∧
    exFab.nextPort (fun _ => true) 0xC8 0x89 0 = .out 0 0 false ∧ exFab.nextPort (fun _ => true) 0xC9 0x89 0 = .out 5 0 false ∧
    exFab.nextPort (fun _ => true) 0x89 0x89 0 = .eject := by decide +kernel

/-- Chapter 16, worked example 1. -/
theorem test_rate_example : ({ TbDom.reset with rate := 0x00A7C5AC } : TbDom).time 500000000 = 1000009999 := by decide +kernel

/-- Chapter 19, worked example 1: what one cell adds to D. -/
theorem test_depth_example : cloDepth (zeros 64) [(0, 4210)] [(0, 9641, 8)] = 32888586240 := by decide +kernel

/-- Chapter 21, worked example 1: the two route entries. -/
theorem test_routes_example : rtMatches 0xC0000050FFFC6010 0x6012 = true ∧ rtVec 0xC0000050FFFC6010 = 5 ∧
    rtMatches 0xC0000050FFFC6010 0x6014 = false ∧ rtMatches 0xA0284000FFFF2428 0x2428 = true ∧ rtSync 0xA0284000FFFF2428 = 20 ∧
    rtCore 0xA0284000FFFF2428 = 4 ∧ rtMsi 0xA0284000FFFF2428 = false := by decide +kernel

/-! ### Witnesses: the block and Dvoryth -/

theorem witness_StepRunsFront : ({ State.reset with pending := [.aoPowerGood, .flrPf0] } : State).pending = .aoPowerGood :: [.flrPf0] := rfl
theorem witness_IdleStepTicks : State.reset.pending = [] ∧ State.reset.pwr.mode = .off ∧
    ({ State.reset with pwr := { State.reset.pwr with mode := .run } } : State).pwr.mode ≠ .off := by decide +kernel

/-- The opcodes of R44 with results in a register. -/
theorem witness_Arithmetic : ∀ o ∈ List.range 0x1F ++ [0x22, 0x23], (running (word o 1 0 0 0 0) id).Executes 0 (word o 1 0 0 0 0) ∧
    opOpc (word o 1 0 0 0 0) = o := by unfold State.Executes; decide +kernel
theorem witness_RegisterAndFlagFiles : (31 < 32 ∧ 7 < 8) ∧ opOpc (word 0x3B 0 1 1 0 0) = 0x3B ∧ opOpc (word 0x30 0 0 0 0 0) = 0x30 ∧
    opOpc (word 0x51 0 0 0 0 0) = 0x51 ∧ opD (word 0x53 0 0 0 0 0) = 0 := by decide +kernel
theorem witness_FlagsAndMoves : ∀ o ∈ [0x30, 0x31, 0x32, 0x33, 0x34, 0x35, 0x36, 0x38, 0x39, 0x3A, 0x3B, 0x3C, 0x24],
    (running (word o 1 0 0 0 0) id).Executes 0 (word o 1 0 0 0 0) ∧ opOpc (word o 1 0 0 0 0) = o := by
  unfold State.Executes; decide +kernel
theorem witness_FlagsAndMoves_nop : (running (word 0x46 0 0 0 0 0) id).Executes 0 (word 0x46 0 0 0 0 0) := by
  unfold State.Executes; decide +kernel

/-- A false predicate: not f0. -/
theorem witness_Fetching_skip :
    (running (word 0 1 0 0 0 0 ||| 1 <<< 55) id).cores[(0 : CoreId)].fetch .none = .word (word 0 1 0 0 0 0 ||| 1 <<< 55) ∧
    (running (word 0 1 0 0 0 0 ||| 1 <<< 55) id).cores[(0 : CoreId)].seq.executes (word 0 1 0 0 0 0 ||| 1 <<< 55) = false := by decide +kernel
/-- A refused fetch: the last word position, the first past it, a reserved word, and a control instruction at a loop's end. -/
theorem witness_Fetching_fail :
    (running 0 fun q => { q with pc := 32768 }).cores[(0 : CoreId)].fetch .none = .fail 0x82 ∧
    (running 0 fun q => { q with pc := 32767 }).cores[(0 : CoreId)].fetch .imemDouble = .fail 0x89 ∧
    encodingOk (running (word 0xFF 0 0 0 0 0) id).cores[(0 : CoreId)].word = false ∧
    (running (word 0x45 0 0 0 1 0) fun q => { q with loops := [⟨0, 0, 1⟩] }).cores[(0 : CoreId)].seq.atLoopEnd = true := by decide +kernel
theorem witness_Fetching_corrected : (running (word 0x46 0 0 0 0 0) id).cores[(0 : CoreId)].seq.phase = .running ∧
    opOpc (running (word 0x46 0 0 0 0 0) id).cores[(0 : CoreId)].word = 0x46 := by decide +kernel

/-- A loop inside another, ending where it ends; a count of 0 at the same place. -/
theorem witness_BranchesAndLoops_loop :
    let s := running (word 0x40 0 1 0 0 (2 * 2 ^ 20)) fun q => regs 3 0 0 { q with loops := [⟨0, 3, 1⟩] }
    s.Executes 0 (word 0x40 0 1 0 0 (2 * 2 ^ 20)) ∧ (∀ l ls, s.cores[(0 : CoreId)].seq.loops = l :: ls → 3 ≤ l.stop) ∧
    s.cores[(0 : CoreId)].seq.loops.length < 4 ∧ fld (s.cores[(0 : CoreId)].seq.srcA (word 0x40 0 1 0 0 (2 * 2 ^ 20))) 0 32 = 3 := by
  refine ⟨by unfold State.Executes; decide +kernel, ?_, by decide +kernel, by decide +kernel⟩
  rintro l ls h; cases h; decide
theorem witness_BranchesAndLoops_skip : (running (word 0x40 0 0 0 1 0) id).Executes 0 (word 0x40 0 0 0 1 0) ∧
    fld (word 0x40 0 0 0 1 0) 0 20 = 0 := by unfold State.Executes; decide +kernel
/-- A forward branch at the greatest reach, and one to the loop's first word with the budget's last unit. -/
theorem witness_BranchesAndLoops_forward : (running (word 0x41 0 0 0 0 4095) id).Executes 0 (word 0x41 0 0 0 0 4095) ∧
    sfld (word 0x41 0 0 0 0 4095) 0 32 = 4095 := by unfold State.Executes; decide +kernel
theorem witness_BranchesAndLoops_back :
    let s := coreZero fun k => { k with imem := [(4096, word 0x41 0 0 0 0 (2 ^ 32 - 4096))], seq := { k.seq with phase := .running, pc := 4096, budget := 1, loops := [⟨0, 5000, 2⟩] } }
    s.Executes 0 (word 0x41 0 0 0 0 (2 ^ 32 - 4096)) ∧ sfld (word 0x41 0 0 0 0 (2 ^ 32 - 4096)) 0 32 = -4096 ∧
    s.cores[(0 : CoreId)].seq.budget ≠ 0 := by unfold State.Executes; decide +kernel
/-- The eighth call, its return, and a return with an open loop. -/
theorem witness_BranchesAndLoops_calls :
    (running (word 0x42 0 0 0 0 1) fun q => { q with calls := List.replicate 7 ⟨0, 0⟩ }).Executes 0 (word 0x42 0 0 0 0 1) ∧
    (running (word 0x43 0 0 0 0 0) fun q => { q with calls := [⟨9, 0⟩] }).Executes 0 (word 0x43 0 0 0 0 0) ∧
    (running (word 0x43 0 0 0 0 0) fun q => { q with calls := [⟨9, 0⟩], loops := [⟨0, 7, 1⟩] }).Executes 0 (word 0x43 0 0 0 0 0) ∧
    (running (word 0x44 0 0 0 0 0) fun q => { q with loops := [⟨0, 7, 1⟩] }).Executes 0 (word 0x44 0 0 0 0 0) := by
  unfold State.Executes; decide +kernel
/-- The failures: a body that reaches past the outer loop, a fifth loop, no reach, no budget, a ninth call, no call, no loop. -/
theorem witness_BranchesAndLoops_failures :
    (running (word 0x40 0 0 0 1 (2 ^ 20 + 1)) fun q => { q with loops := [⟨0, 1, 1⟩] }).Executes 0 (word 0x40 0 0 0 1 (2 ^ 20 + 1)) ∧
    (running (word 0x40 0 0 0 1 1) fun q => { q with loops := List.replicate 4 ⟨0, 9, 1⟩ }).Executes 0 (word 0x40 0 0 0 1 1) ∧
    (running (word 0x41 0 0 0 0 0) id).Executes 0 (word 0x41 0 0 0 0 0) ∧
    (running (word 0x41 0 0 0 0 9) fun q => { q with loops := [⟨0, 1, 1⟩] }).Executes 0 (word 0x41 0 0 0 0 9) ∧
    (running (word 0x42 0 0 0 0 4096) id).Executes 0 (word 0x42 0 0 0 0 4096) ∧
    (running (word 0x42 0 0 0 0 1) fun q => { q with calls := List.replicate 8 ⟨0, 0⟩ }).Executes 0 (word 0x42 0 0 0 0 1) ∧
    (running (word 0x43 0 0 0 0 0) id).Executes 0 (word 0x43 0 0 0 0 0) ∧
    (running (word 0x44 0 0 0 0 0) id).Executes 0 (word 0x44 0 0 0 0 0) := by unfold State.Executes; decide +kernel
theorem witness_BranchesAndLoops_budget :
    let s := coreZero fun k => { k with imem := [(1, word 0x41 0 0 0 0 (2 ^ 32 - 1))], seq := { k.seq with phase := .running, pc := 1 } }
    s.Executes 0 (word 0x41 0 0 0 0 (2 ^ 32 - 1)) ∧ s.cores[(0 : CoreId)].seq.budget = 0 := by unfold State.Executes; decide +kernel

/-- Core 0 with every bank on, a tag on line 0, and a task. -/
def taskOn (w : Word) (tags : SMap TagDesc) (f : SeqState → SeqState) : State :=
  coreZero fun k => { k with imem := [(0, w)], seq := f { k.seq with phase := .running }, spd := { SPD [] with tags := tags } }
theorem witness_NarrowAccess :
    (taskOn (word 0x20 1 0 0 0 0x7FFFFF) [] id).Executes 0 (word 0x20 1 0 0 0 0x7FFFFF) ∧
    (taskOn (word 0x21 0 0 0 0 0x7FFFFF) [] id).Executes 0 (word 0x21 0 0 0 0 0x7FFFFF) ∧ 0x7FFFFF % 256 + 1 ≤ 256 ∧
    bit (SPD []).bankOn 15 = true ∧ (SPD []).mayRead 0x7FFF = true ∧ (SPD []).mayWrite 0x7FFF = true ∧
    (taskOn (word 0x20 1 0 0 0 0) [(0, ⟨true, false, 0, 0⟩)] id).cores[(0 : CoreId)].spd.mayRead 0 = false ∧
    (taskOn (word 0x21 0 0 1 0 0) [(0, ⟨true, true, 0, 0⟩)] id).cores[(0 : CoreId)].spd.mayWrite 0 = false ∧
    (taskOn (word 0x21 0 0 1 0 0) [(0, ⟨true, true, 0, 0⟩)] id).Executes 0 (word 0x21 0 0 1 0 0) ∧
    (taskOn (word 0x20 1 0 0 1 255) [] id).Executes 0 (word 0x20 1 0 0 1 255) ∧ ¬ 255 % 256 + 2 ≤ 256 := by
  unfold State.Executes; decide +kernel
theorem witness_NarrowAccess_retry : ∀ o ∈ [0x20, 0x21], let s := taskOn (word o 0 0 0 0 0) [] fun q => { q with phase := .waiting .lineTag }
    s.cores[(0 : CoreId)].seq.phase = .waiting .lineTag ∧ s.cores[(0 : CoreId)].word = word o 0 0 0 0 0 ∧
      s.cores[(0 : CoreId)].spd.mayWrite 0 = true ∧ ∀ e : Fin 7, s.cores[(0 : CoreId)].engines[e].work.computed = false := by decide +kernel
theorem witness_NarrowAccess_reserved : opOpc (word 0x21 0 0 0 8 0) = 0x21 ∧ fld (word 0x21 0 0 0 8 0) 35 2 ≠ 0 ∧
    opXbit (word 0x21 0 0 0 4 0) 2 = true := by decide +kernel

theorem witness_CuffReadsBack : ({ SPD [(5, 9)] with cuff := [⟨0, [(3, 1), (9, 2)], 0x80⟩, ⟨7, [], 1⟩] } : SpdState).cuffOk ∧
    Mem.wf [(5, 9)] = true ∧ (0x7FFF00 : Nat) % 256 + (zeros 256).length ≤ 256 ∧ zeros 256 ≠ [] := by
  unfold SpdState.cuffOk; decide +kernel

/-- Core 0 with a command of engine 2 in work, and a task. -/
def busyTask (w : Word) (f : SeqState → SeqState) : State :=
  coreZero fun k => { k with imem := [(0, w)], seq := f { k.seq with phase := .running }, engines := k.engines.set 2 ⟨[], [⟨cmd 2 1 0 0 0, false⟩], 0, EngWork.none⟩ }
theorem witness_WaitsAndEnds :
    (running (word 0x25 0 0 0 0 0) id).Executes 0 (word 0x25 0 0 0 0 0) ∧ (∀ e ∈ (SPD []).cuff, bit e.owners 7 = false) ∧
    (running (word 0x45 0 0 0 1 0x7F) id).Executes 0 (word 0x45 0 0 0 1 0x7F) ∧ fld (word 0x45 0 0 0 1 0x7F) 0 8 < 0x80 ∧
    (running (word 0x45 0 0 0 1 0x80) id).Executes 0 (word 0x45 0 0 0 1 0x80) ∧
    (running (word 0x45 0 0 0 1 0xC0) id).Executes 0 (word 0x45 0 0 0 1 0xC0) ∧
    (running (word 0x47 0 0 0 0 4) id).Executes 0 (word 0x47 0 0 0 0 4) ∧ (busyTask (word 0x47 0 0 0 0 4) id).Executes 0 (word 0x47 0 0 0 0 4) ∧
    (busyTask (word 0x47 0 0 0 0 4) id).cores[(0 : CoreId)].engines[(2 : Fin 7)].active ≠ [] := by unfold State.Executes; decide +kernel
theorem witness_WaitsAndEnds_later : (running 0 fun q => { q with phase := .waiting .fence }).cores[(0 : CoreId)].seq.phase = .waiting .fence ∧
    (running 0 fun q => { q with phase := .halting 0x10 }).cores[(0 : CoreId)].seq.phase = .halting 0x10 ∧
    (running 0 fun q => { q with phase := .ending 0x81 }).cores[(0 : CoreId)].seq.phase = .ending 0x81 ∧
    (running 0 fun q => { q with phase := .waiting .drain }).cores[(0 : CoreId)].seq.phase = .waiting .drain ∧
    ∀ e : Fin 7, (running 0 id).cores[(0 : CoreId)].engines[e].queue = [] ∧ (running 0 id).cores[(0 : CoreId)].engines[e].active = [] := by
  decide +kernel

theorem witness_EndsOfTasks : (255 : Nat) < 256 ∧ (running 0 id).cores[(0 : CoreId)].seq.phase = .running ∧
    (∀ e : Fin 7, (running 0 id).cores[(0 : CoreId)].engines[e].active = []) ∧ (0x88 < 0x89 ∨ 0x8C < 0x88) ∧
    (busyTask 0 id).cores[(0 : CoreId)].engines[(2 : Fin 7)].active ≠ [] ∧ (busyTask 0 id).cores[(0 : CoreId)].seq.phase = .running := by
  decide +kernel
theorem witness_EndsOfTasks_signal :
    let k := (coreZero fun k => { k with spd := { k.spd with slots := k.spd.slots.set 0 { LaunchSlot.reset with record := 1 <<< 175 } } }).cores[(0 : CoreId)]
    bit k.record 175 = true ∧ bit State.reset.cores[(0 : CoreId)].record 175 = false := by decide +kernel

theorem witness_SyncTagsWindows_tags : (running (word 0x50 0 1 0 1 0) (regs 4095 0 0)).Executes 0 (word 0x50 0 1 0 1 0) ∧
    (running (word 0x51 1 1 0 0 4095) id).Executes 0 (word 0x51 1 1 0 0 4095) ∧
    (running (word 0x51 1 1 0 1 4095) id).Executes 0 (word 0x51 1 1 0 1 4095) := by unfold State.Executes; decide +kernel
theorem witness_SyncTagsWindows_objects : ∀ o ∈ [0x52, 0x53, 0x54, 0x55],
    (running (word o 1 1 0 0 511) id).Executes 0 (word o 1 1 0 0 511) ∨ o ≠ 0x53 ∧ o ≠ 0x54 ∧
    (running (word o 0 1 2 0 511) id).Executes 0 (word o 0 1 2 0 511) := by unfold State.Executes; decide +kernel
theorem witness_SyncTagsWindows_past : (running (word 0x50 0 1 0 0 4095) (regs 1 0 0)).Executes 0 (word 0x50 0 1 0 0 4095) ∧
    (running (word 0x51 1 1 0 0 4095) (regs 1 0 0)).Executes 0 (word 0x51 1 1 0 0 4095) ∧
    (running (word 0x53 1 1 0 0 511) (regs 1 0 0)).Executes 0 (word 0x53 1 1 0 0 511) ∧
    (running (word 0x55 0 1 0 0 511) (regs 1 0 0)).Executes 0 (word 0x55 0 1 0 0 511) := by unfold State.Executes; decide +kernel
theorem witness_SyncTagsWindows_holds :
    let s := running (word 0x53 1 1 2 0 511) (regs 0 1 0)
    ¬ (1 : Nat) ≤ (s.cores[(0 : CoreId)].sync 511).toNat ∧ (s.syncSet 0 511 1).cores[(0 : CoreId)].sync 511 = 1 ∧
    (s.syncSet 0 511 1).Executes 0 (word 0x53 1 1 2 0 511) := by unfold State.Executes; decide +kernel
theorem witness_SyncTagsWindows_waits :
    (running (word 0x51 1 0 0 0 (1 * 2 ^ 16)) fun q => { q with phase := .waiting (.tag 0), clk := 32 }).cores[(0 : CoreId)].seq.phase = .waiting (.tag 0) ∧
    (running (word 0x53 1 0 0 0 (1 * 2 ^ 16)) fun q => { q with phase := .waiting (.sync 0), clk := 32 }).cores[(0 : CoreId)].seq.phase = .waiting (.sync 0) ∧
    fld (word 0x51 1 0 0 0 (1 * 2 ^ 16)) 16 5 ≠ 0 ∧ 0 + 2 ^ (fld (word 0x51 1 0 0 0 (1 * 2 ^ 16)) 16 5 + 4) ≤ (32 : Word).toNat ∧
    SMap.wf TagDesc.zero [(3, (⟨true, false, 0, 0⟩ : TagDesc))] = true := by decide +kernel
theorem witness_SyncTagsWindows_windows :
    (running (word 0x60 3 1 2 0 63) (regs 0x7FFF00 256 0xFFFF)).Executes 0 (word 0x60 3 1 2 0 63) ∧
    (running (word 0x60 3 1 2 0 63) (regs 0x7FFF00 257 0)).Executes 0 (word 0x60 3 1 2 0 63) ∧
    (running (word 0x61 0 0 0 0 63) id).Executes 0 (word 0x61 0 0 0 0 63) ∧ (running (word 0x70 0 0 0 0 255) id).Executes 0 (word 0x70 0 0 0 0 255) ∧
    (0x7FFF00 + 256 ≤ 0x800000 ∧ 257 % 256 ≠ 0) := by unfold State.Executes; decide +kernel
/-- SIGX to the own core, to another, to another module from a core of P2 (core 16 at reset), and a bad target. -/
theorem witness_SyncTagsWindows_sigx :
    (∀ v ∈ [0, 512, 2 ^ 14, 2 ^ 30], (running (word 0x56 0 1 2 0 0) (regs v 1 0)).Executes 0 (word 0x56 0 1 2 0 0)) ∧
    (fld (0 : Word) 31 33 = 0 ∧ bit (0 : Word) 14 = false ∧ bit (2 ^ 30 : Word) 30 = true ∧ bit (2 ^ 14 : Word) 14 = true) ∧
    (∃ c : CoreId, 2 ≤ (State.reset.partOf c).val) ∧ ∃ c : CoreId, (State.reset.partOf c).val < 2 := by
  unfold State.Executes; decide +kernel

theorem witness_IssueQueuesACommand : ∀ e : Fin 7, (running (word (0x80 + e.val) 0 1 2 0 3) id).Executes 0 (word (0x80 + e.val) 0 1 2 0 3) ∧
    (running (word (0x80 + e.val) 0 1 2 0 3) id).cores[(0 : CoreId)].inFlight < 512 := by unfold State.Executes; decide +kernel
theorem witness_IssueQueuesACommand_full :
    let f (p : Phase) := coreZero fun k => { k with imem := [(0, word 0x82 0 1 2 0 3)], seq := { k.seq with phase := p }, engines := k.engines.set 2 ⟨List.replicate 64 (cmd 2 1 0 0 0), [], 0, EngWork.none⟩ }
    (f .running).Executes 0 (word 0x82 0 1 2 0 3) ∧ ¬ (f .running).cores[(0 : CoreId)].engines[(2 : Fin 7)].queue.length < 64 ∧
    (running (word 0x82 0 1 2 0 3) fun q => { q with phase := .waiting .issue }).cores[(0 : CoreId)].seq.phase = .waiting .issue := by
  unfold State.Executes; decide +kernel
theorem witness_EngineCommandCompletes :
    (coreZero fun k => { k with engines := k.engines.set 6 ⟨[], [⟨cmd 6 1 0 0 0, true⟩], 0, EngWork.none⟩ }).cores[(0 : CoreId)].engines[(6 : Fin 7)].active =
      ⟨cmd 6 1 0 0 0, true⟩ :: [] := by decide +kernel
/-- A CAST in grid mode whose points are on the way (rays of its job wait) and one whose points have been applied. -/
def casting (rays : List (CoreId × GeoItem)) : State :=
  coreZero fun k => { k with engines := k.engines.set 5 ⟨[], [⟨cmd 5 1 0 0 0, true⟩], 0, EngWork.none⟩, spd := SPD [], geo := { GeoCore.reset with rayq := rays, rayDue := [⟨1, 0x100, []⟩] } }
theorem witness_EngineCommandCompletes_cast :
    (casting []).cores[(0 : CoreId)].engines[(5 : Fin 7)].active = ⟨cmd 5 1 0 0 0, true⟩ :: [] ∧ bit (cmd 5 1 0 0 0).w0 56 = false ∧
    bit (2 ^ 56 : Word) 56 = true ∧ (casting []).cores[(0 : CoreId)].geo.rayDue = ⟨1, 0x100, []⟩ :: [] ∧ (casting []).onTheWay 0 1 = false ∧
    (casting [(0, .point ⟨0, 0, 0, 0, 0, 0, 0, 0, 0, false, false, 1⟩)]).onTheWay 0 1 = true ∧ (SPD []).lineOn 1 = true ∧ (SPD []).mayWrite 1 = true := by decide +kernel

/-! ### Witnesses: scratchpads and engines -/

/-- A number by its fields: lowest bit and value. -/
def wd (l : List (Nat × Nat)) : Nat := l.foldl (fun n e => n + e.2 * 2 ^ e.1) 0

theorem witness_TablesAndFaults : pf0.val = 0x60 ∧ crown.val ≠ 0x60 ∧ (0x20 : Ini) = BitVec.ofNat 8 (0x20 + (0 : CoreId).val) ∧ (coreZero id).cores[(0 : CoreId)].seq.phase = .idle ∧
    (running 0 id).cores[(0 : CoreId)].seq.phase ≠ .idle ∧ fld (0x844000 : Word) 0 15 % 2 ^ fld (0x844000 : Word) 18 4 = 0 ∧
    fld (0x844001 : Word) 0 15 % 2 ^ fld (0x844001 : Word) 18 4 ≠ 0 ∧ bit (1 : Word) 0 = true ∧ Half.full ≠ .high ∧
    (running 0 fun q => { q with phase := .preparing }).cores[(0 : CoreId)].seq.phase = .preparing := by decide +kernel

/-- A window over the last line, open to initiators 0x60 to 0x6F, in a core of P2 and in one of P0. -/
def windowed (c : CoreId) (ph : Phase) : State :=
  State.reset.modCore c fun k => { k with seq := { k.seq with phase := ph }, spd := { SPD [] with windows := [(63, ⟨true, 0x7FFF00, 256, 0x60, 0xF0⟩)], bankOn := if ph = .preparing then 0 else 0xFFFF, sgBase := 511, sgCnt := 1, sgMatch := 0x60, sgMask := 0xFF } }
theorem witness_WindowsAndSignals :
    let s := windowed 4 .idle
    let p := s.cores[(4 : CoreId)].spd
    lineWriteOk 0x7FFF00 (zeros 256) = true ∧ (63, ⟨true, 0x7FFF00, 256, 0x60, 0xF0⟩) ∈ p.windows ∧
    0x7FFF00 + (zeros 256).length ≤ 0x800000 ∧ (0x60 : Ini) &&& 0xF0 = 0x60 &&& 0xF0 ∧ s.reachesCore 0x60 4 = true ∧
    s.cores[(4 : CoreId)].preparingBank 0x7FFF00 = false ∧ bit p.bankOn (0x7FFF00 / 0x80000) = true ∧ s.partFilter 4 0x60 = true ∧
    p.sgBase ≤ 511 ∧ 511 < p.sgBase + p.sgCnt ∧ (0x60 : Ini) &&& p.sgMask = p.sgMatch &&& p.sgMask := by decide +kernel
theorem witness_WindowsAndSignals_others : (windowed 0 .idle).partFilter 0 0x80 = false ∧ (windowed 0 .idle).partFilter 0 0x1F = false ∧
    (windowed 0 .idle).partFilter 0 0x60 = true ∧ (SPD []).sgCnt = 0 ∧ (windowed 4 .preparing).cores[(4 : CoreId)].spd.bankOn = 0 := by decide +kernel
/-- A write of PF0 waits for its bank; the first link on PF0's way to core 4 has stopped. -/
theorem witness_WindowsAndSignals_waits : HeldAccess.write (.ini pf0) 0 [1] ∈ ({ SPD [] with held := [.write (.ini pf0) 0 [1]] } : SpdState).held ∧
    (∀ l ∈ (cdPath (dieOf 4) (iniDie pf0)).head?, ({ windowed 4 .idle with net := ⟨[l]⟩ } : State).reachesCore 0x60 4 = false) ∧
    ((cdPath (dieOf 4) (iniDie pf0))[0]?).isSome = true := by decide +kernel
theorem witness_WindowsAndSignals_preparing : ∃ s : State, s.cores[(4 : CoreId)].preparingBank 0x7FFF00 = true ∧ s.partFilter 4 0x60 = true ∧
    (63, ⟨true, 0x7FFF00, 256, 0x60, 0xF0⟩) ∈ s.cores[(4 : CoreId)].spd.windows :=
  ⟨(windowed 4 .preparing).modCore 4 fun k => { k with spd := { k.spd with slots := k.spd.slots.set 0 { LaunchSlot.reset with record := packRec [(0, 8, wd [(24, 255)])] ||| BitVec.allOnes 512 } } },
    by decide +kernel⟩

/-- A module in RUN whose core 0 has a pending record of core set 1. -/
def launching (r : Rec64) (st : SlotState) (ph : Phase) : State :=
  { coreZero (fun k => { k with seq := { k.seq with phase := ph, slot := 3 }, spd := { SPD [] with slots := k.spd.slots.set 3 ⟨r, st, 0, 0, 0, 0⟩ } }) with
    pwr := { PwrState.reset with mode := .run } }
theorem witness_LaunchingTasks_record : (zeros 64).length = 64 ∧ bytesIn 0x3F (zeros 1) 0x40 = true ∧ (launching 0 .done .idle).pwr.mode = .run ∧
    (launching 0 .done .idle).cores[(0 : CoreId)].spd.slots[(3 : Fin 4)].state = .done ∧
    (launching 0 .running .running).cores[(0 : CoreId)].spd.slots[(3 : Fin 4)].state = .running := by decide +kernel
theorem witness_LaunchingTasks_take : let s := launching (packRec [(8, 4, 1)]) .pending .idle
    s.pwr.mode = .run ∧ s.pwr.trip = false ∧ s.cores[(0 : CoreId)].seq.phase = .idle ∧ bit s.pwr.nap (dieOf 0).val = false ∧
    s.gnt.mode ≠ .test ∧ s.gnt.mode ≠ .failed ∧ 2 ≤ (State.reset.partOf 4).val ∧ s.cores[(0 : CoreId)].spd.nextPending = some 3 ∧ s.launchRefusal 0 (packRec [(8, 4, 1)]) = none ∧
    s.launchRefusal 0 0 = some 0x91 := by decide +kernel
theorem witness_LaunchingTasks_start : (launching (packRec [(8, 4, 1)]) .running .preparing).cores[(0 : CoreId)].seq.phase = .preparing ∧
    (launching (packRec [(8, 4, 1)]) .running .preparing).cores[(0 : CoreId)].seq.slot = 3 := by decide +kernel
/-- A reserved bit; a set without the own core; a set across partitions; a fenced core; and none of these. -/
theorem witness_LaunchingTasks_refusals : let s := State.reset
    fld (packRec [(1, 1, 0x80)]) 15 1 ≠ 0 ∧ fld (0 : Rec64) 15 1 = 0 ∧ 512 < fld (packRec [(0x16, 2, 511), (0x18, 2, 2)]) 176 9 + fld (packRec [(0x16, 2, 511), (0x18, 2, 2)]) 192 10 ∧
    (recField (packRec [(8, 4, 2)]) 8 4).testBit 0 = false ∧ (recField (packRec [(8, 4, 0x11)]) 8 4).testBit 4 = true ∧
    s.partOf 4 ≠ s.partOf 0 ∧ bit ({ s with flt := { s.flt with fenced := 1 } } : State).flt.fenced 0 = true ∧
    bit s.flt.fenced 0 = false ∧ s.flt.part[s.partOf 0] = .running := by decide +kernel

/-! #### Engines -/

/-- Engine `e` of core 0 has `q` in work or waiting. -/
def queued (e : Fin 7) (q : EngCmd) (p : SpdState) : State := coreZero fun k => { k with engines := k.engines.set e ⟨[q], [], 0, EngWork.none⟩, spd := p }
theorem witness_EngineQueues_row : engineRow (.ew 0) = some ⟨0, 2, 0x01, 0x5201⟩ := rfl
theorem witness_EngineQueues : let s := queued 2 (cmd 2 1 0 0 0) (SPD [])
    s.cores[(0 : CoreId)].engines[(2 : Fin 7)].current = none ∧
    s.cores[(0 : CoreId)].engines[(2 : Fin 7)].queue = cmd 2 1 0 0 0 :: [] ∧ (cmd 2 1 0 0 0).opc = 1 ∧
    (cmd 2 1 0 0 0).mayStart s.cores[(0 : CoreId)].spd = true ∧ State.reset.cores[(0 : CoreId)].engines[(2 : Fin 7)].queue = [] ∧
    (⟨2 ^ 34, 0, 0, 0⟩ : EngCmd).mayStart (SPD []) = false := by decide +kernel
theorem witness_EngineQueues_work :
    (working 2 ⟨BitVec.ofNat 64 (2 + 16 + 3 * 2 ^ 34), 0, 0, 0⟩ 0 (SPD []) GeoCore.reset).cores[(0 : CoreId)].engines[(2 : Fin 7)].current =
      some ⟨BitVec.ofNat 64 (2 + 16 + 3 * 2 ^ 34), 0, 0, 0⟩ ∧
    (⟨BitVec.ofNat 64 (2 + 16 + 3 * 2 ^ 34), 0, 0, 0⟩ : EngCmd).opc = 1 ∧ (⟨BitVec.ofNat 64 (2 + 16 + 3 * 2 ^ 34), 0, 0, 0⟩ : EngCmd).headerBad = true ∧
    (cmd 2 3 0 0 0).opc ∈ engineOpcodes 2 ∧ (cmd 2 3 0 0 0).opc ≠ 1 := by decide +kernel
theorem witness_EngineQueues_vset : (working 2 (cmd 2 8 0x7FFE00 0 0) 0 (SPD []) GeoCore.reset).Works 0 2 (cmd 2 8 0x7FFE00 0 0) 0 ∧
    (cmd 2 8 0x7FFE00 0 0).opc = 8 ∧ (cmd 2 8 0x7FFE00 0 0).cspec < 16 ∧ fld (cmd 2 8 0x7FFE00 0 0).w1 0 23 % 512 = 0 ∧
    fld (cmd 2 8 0x7FFE00 0 0).w1 23 41 = 0 := by unfold State.Works; decide +kernel
theorem witness_EngineQueues_ramp : let m := { MxeState.reset with groups := 1, ramp := .down, idleClk := 88 }
    m.ramp ≠ .up ∧ 0 < m.groups ∧ 32 + 8 * (8 - m.groups) ≤ m.idleClk ∧ ({ m with idleClk := 31 } : MxeState).idleClk < 32 := by decide +kernel

/-- DDR with one region of 16 GiB on all channels, open to every partition and the host, and every channel running. -/
def DDR : DdrState := { DdrState.reset with
  rgn := DdrState.reset.rgn.set 0 (BitVec.ofNat 64 (wd [(63, 1), (56, 15), (52, 15), (50, 1), (51, 1), (10, 16)])), cfg := 0x10000,
  ch := Vector.replicate 16 { ChanState.reset with state := 2 } }
def withDdr (s : State) : State := { s with ddr := DDR }
def fetCmd (o : Nat) : EngCmd := cmd 0 o 0x100 (wd [(0, 0x200), (32, 256)]) (if o = 1 then 0 else wd [(32, 512), (0, 2)])
theorem witness_FetchEngine : ∀ o ∈ [1, 2],
    let s := withDdr (working 0 (fetCmd o) 0 (SPD []) GeoCore.reset)
    s.Works 0 0 (fetCmd o) 0 ∧ fetFormOk (fetCmd o) = true ∧ s.cores[(0 : CoreId)].spd.mem.wf = true ∧ (fetCmd o).opc = o ∧
      (o = 1 → (fetCmd o).w3 = 0) ∧ (o = 2 → fld (fetCmd o).w3 32 32 = 512 ∧ fld (fetCmd o).w3 0 32 = 2) ∧
      (SPD []).Writable [(0x200, 512)] := by
  unfold State.Works SpdState.Writable; decide +kernel
theorem witness_FetchEngine_reads : ∀ r < 2, (withDdr State.reset).Readable (.part 0 2) (0x100 + 512 * r) 256 := by
  unfold State.Readable; decide +kernel
/-- A tag that does not permit the write of the first line. -/
theorem witness_FetchEngine_waits : let p := { SPD [] with tags := [(0, ⟨true, true, 0, 2⟩)] }
    p.lineOn 2 = true ∧ p.mayWrite 2 = false ∧ 0x200 / 256 + 0 = 2 ∧ 0 < 256 / 256 := by decide +kernel

def qryCmd (o : Nat) : EngCmd := cmd 4 o (wd [(0, 0), (24, 2)]) (wd [(0, 0x100), (24, 3), (44, 2)]) (wd [(0, 0x1000), (32, 9)])
theorem witness_GeometryAndRays_queries : (∀ o ∈ [0x20, 0x21], (working 4 (qryCmd o) 0 (SPD []) GeoCore.reset).Works 0 4 (qryCmd o) 0 ∧
      (qryCmd o).opc = o ∧ queryOk (qryCmd o) (o == 0x21) = true) ∧
    ∀ o ∈ [0x20, 0x21], let x := queryCmd (qryCmd o)
      (SPD []).Ready x.entryReads ∧ (SPD []).Ready ((SPD []).listReads x) ∧ (SPD []).Ready ((SPD []).candReads x) := by
  unfold State.Works SpdState.Ready; decide +kernel
def fpsCmd : EngCmd := cmd 4 0x22 0 (wd [(24, 4), (44, 2)]) (wd [(0, 0x1000), (32, 0x2000)])
theorem witness_GeometryAndRays_fps : (working 4 fpsCmd 0 (SPD []) GeoCore.reset).Works 0 4 fpsCmd 0 ∧ fpsCmd.opc = 0x22 ∧ Mem.wf [] = true ∧
    fld fpsCmd.w0 56 8 = 0 ∧ fld fpsCmd.w1 0 44 = 0 ∧ fld fpsCmd.w2 23 1 = 0 ∧ fld fpsCmd.w2 57 7 = 0 ∧ fld fpsCmd.w3 23 9 = 0 ∧
    fld fpsCmd.w3 55 9 = 0 ∧ fld fpsCmd.w2 0 23 = 0 ∧ fld fpsCmd.w3 0 23 = 0x1000 ∧ fld fpsCmd.w3 32 23 = 0x2000 ∧ fld fpsCmd.w2 44 13 = 2 ∧
    fld fpsCmd.w2 24 20 = 4 ∧ (SPD []).Ready [(0, 64)] ∧ (SPD []).Writable [(0x2000, 32)] ∧ (SPD []).Ready [(0x2000, 32)] ∧
    (SPD []).Writable [(0x1000, 8)] ∧ overlap 0x2000 32 0 64 = false ∧ overlap 0x2000 32 0x1000 8 = false ∧ overlap 0x1000 8 0 64 = false := by
  unfold State.Works SpdState.Ready SpdState.Writable; decide +kernel
def vdCmd : EngCmd := cmd 4 0x23 (wd [(0, 0x1000), (24, 4)]) 0 0
def vdGeo : GeoCore := { GeoCore.reset with st := 2, desc := packRec [(0x16, 1, 1), (0x2C, 4, 0x10000)], lcount := 1 }
theorem witness_GeometryAndRays_vdown : (working 4 vdCmd 0 (SPD []) vdGeo).Works 0 4 vdCmd 0 ∧ vdCmd.opc = 0x23 ∧ vdownOk vdCmd vdGeo = true ∧
    vdGeo.spl = [] ∧ (SPD []).Ready [(gdAccBase vdGeo.desc, 512 * vdGeo.lcount)] := by
  unfold State.Works SpdState.Ready; decide +kernel
/-- A scene of one group without bricks, a model of one beam and one azimuth step, a pose of zeros, into a list. -/
def castMem : Mem := memOf [(0xC, 2, 100), (0xE, 3, 0x10101), (0x14, 4, 0x400), (0x18, 4, 0x800), (64 + 1, 1, 1), (64 + 2, 2, 1), (64 + 4, 2, 1),
  (64 + 0xE, 2, 1), (64 + 0x10, 4, 1000), (64 + 0x1C, 4, 0x100), (64 + 0x20, 4, 0x140), (64 + 0x24, 4, 0x1C0)]
def castCmd : EngCmd := ⟨BitVec.ofNat 64 (5 + 16 + 2 ^ 51 + 2 ^ 56), BitVec.ofNat 64 (wd [(23, 64)]), 128, BitVec.ofNat 64 (wd [(0, 0x1000), (32, 10)])⟩
theorem witness_GeometryAndRays_cast : let p := SPD castMem
    let y := rayCmd p castCmd
    (working 5 castCmd 0 p GeoCore.reset).Works 0 5 castCmd 0 ∧ castCmd.opc = 1 ∧ rayWordsOk castCmd = true ∧
    p.Ready [(0, 64), (64, 64), (128, 64)] ∧ y.ok = true ∧ y.extOk = true ∧ y.omode = true ∧
    p.Ready [(mBeams y.smod, 4 * mNbeam y.smod), (mAtt y.smod, 128), (mExt y.smod, 64)] ∧ p.Ready (y.sceneReads p) := by
  unfold State.Works SpdState.Ready; decide +kernel
/-! #### MXE, VEC and SEL -/

/-- Engine 1 of core 0 has a command in work, with every cube group enabled. -/
def cubes (q : EngCmd) (p : SpdState) : State := (working 1 q 0 p GeoCore.reset).modMxe 0 fun m => { m with groups := 8, ramp := .full }
def mmq : EngCmd := cmd 1 1 (wd [(23, 0x100)]) (wd [(0, 0x400)]) 0
theorem witness_MatrixAndSparse_mmul : let x := mmCmd mmq
    (cubes mmq (SPD [])).Works 0 1 mmq 0 ∧ (cubes mmq (SPD [])).cores[(0 : CoreId)].mxe.ready = true ∧ MxeState.reset.ready = false ∧
    mmq.opc = 1 ∧ mmOk mmq = true ∧ x.zpen = false ∧ x.sen = false ∧ (SPD []).Ready x.reads ∧
    (SPD []).Writable [(x.coff, tileBytes x.fmt * (x.mb * x.nb))] ∧ x.fmt ≤ 1 ∧ 0 < x.mb ∧ 0 < x.nb := by
  unfold State.Works SpdState.Ready SpdState.Writable; decide +kernel
/-- The index at 0x800: block 0 present, record at 0x900. -/
def spq : EngCmd := cmd 1 0x10 (wd [(23, 0x800)]) (wd [(0, 0x900), (23, 0x400)]) 0
def spMem : Mem := memOf [(0x804, 4, 1), (0x900, 2, 0xFFFF)]
theorem witness_MatrixAndSparse_spmm : let p := SPD spMem
    let y := spCmd spq
    let lines := y.nb * y.kl
    let io := spIndex spq
    let ls := (List.range lines).map fun i => spLine p y.fmt y.boff (spEntry p io i)
    (cubes spq p).Works 0 1 spq 0 ∧ (cubes spq p).cores[(0 : CoreId)].mxe.ready = true ∧ spq.opc = 0x10 ∧ spOk spq = true ∧ y.acc = false ∧
    y.zpen = false ∧ spRecords p y io ls = [(0x900, 32)] ∧ p.mem.wf = true ∧ p.Ready [(io, 8 * lines)] ∧
    p.Ready ((List.range lines).flatMap fun i => spHead y.fmt y.boff (spEntry p io i)) ∧
    p.Ready ([(y.aoff, 256 * (y.mb * y.kl))] ++ spRecords p y io ls) := by
  unfold State.Works SpdState.Ready; decide +kernel
def nbq : EngCmd := cmd 1 0x11 (wd [(24, 1), (44, 1)]) (wd [(0, 0x200), (23, 0x400)]) (wd [(0, 7), (32, 0x800), (55, 1)])
theorem witness_MatrixAndSparse_nbmap : let y := nbCmd nbq
    (working 1 nbq 0 (SPD []) GeoCore.reset).Works 0 1 nbq 0 ∧ nbq.opc = 0x11 ∧ nbOk nbq = true ∧
    (SPD []).Ready [(y.recs, 128 * y.nrec)] ∧ (SPD []).Ready (nbReads 0 (SPD []) y) := by unfold State.Works SpdState.Ready; decide +kernel
/-- A convolution over one record, one row of X, offset 13, one group of output. -/
def scMem : Mem := memOf [(0, 4, 0x1000), (4, 4, 0x2000), (8, 4, 0x3000), (0x10, 4, 1), (0x14, 4, 1), (0x18, 4, 2 ^ 13), (0x20, 4, 1)]
def scq : EngCmd := cmd 1 0x12 0 0x4000 0
theorem witness_MatrixAndSparse_sconv : let p := SPD scMem
    let y := scCmd scq p
    (cubes scq p).Works 0 1 scq 0 ∧ (cubes scq p).cores[(0 : CoreId)].mxe.ready = true ∧ scq.opc = 0x12 ∧ scWordsOk scq = true ∧ p.Ready [(0, 64)] ∧
    y.ok p (fld scq.w1 0 23) = true ∧ p.Ready [(y.map, 512 * y.nrec)] ∧ p.Ready (y.reads p) := by unfold State.Works SpdState.Ready; decide +kernel

/-- VEC: a tensor of two rows of four elements at 0 into 0x1000; formats of A, B and D. -/
def vq (o fa fb fd : Nat) (w3 : Nat) : EngCmd := cmd 2 o (wd [(0, 0), (23, 0x800), (46, 1)]) (wd [(0, 0x1000), (23, 3), (37, fa), (41, fb), (45, fd)]) w3
def vs (o fa fb fd : Nat) (w3 : Nat) (p : SpdState) : State := working 2 (vq o fa fb fd w3) 0 p GeoCore.reset
/-- What every clause of the statement asks: the work, the shared checks, and lines that are ready. -/
def vecMeets (o fa fb fd w3 : Nat) (p : SpdState) (ins : List (Nat × Nat)) : Prop :=
  let q := vq o fa fb fd w3
  let x := vCmd q
  (vs o fa fb fd w3 p).Works 0 2 q 0 ∧ q.opc = o ∧ x.common q (vs o fa fb fd w3 p).cores[(0 : CoreId)].vec = true ∧
    p.Ready (ins ++ x.recordRange (vs o fa fb fd w3 p).cores[(0 : CoreId)].vec)
theorem witness_VectorEngine_ew : let x := vCmd (vq 1 6 6 6 0)
    vecMeets 1 6 6 6 0 (SPD []) [(0, 32), (0x800, 32)] ∧ x.ewOk = true ∧ x.bRange = [(0x800, 32)] ∧ x.a ≠ x.d ∧ x.eop ≠ 3 ∧
    x.sums = false ∧ x.d.off = 0x1000 ∧ x.d.len = 32 ∧ rangesOk [(0x800, 32), (0, 32)] [(0x1000, 32)] = true := by
  unfold vecMeets State.Works SpdState.Ready; decide +kernel
theorem witness_VectorEngine_red : let x := vCmd (vq 3 6 0 0 4)
    vecMeets 3 6 0 0 4 (SPD []) [(0, 32)] ∧ x.opx = 0 ∧ x.d.fmt = 0 ∧ fld x.w3 0 3 ≤ 4 ∧ fld x.w3 3 61 = 0 ∧
    rangesOk [(0, 32)] [(x.d.off, x.redBytes * x.a.rows)] = true ∧ x.redBytes * x.a.rows = 8 := by
  unfold vecMeets State.Works SpdState.Ready; decide +kernel
theorem witness_VectorEngine_rq : let x := vCmd (vq 5 7 0 0 0)
    vecMeets 5 7 0 0 0 (SPD []) [(0, 32)] ∧ x.rqEntries ≤ 1 ∧ (SPD []).num x.boff 8 < 2 ^ 46 ∧ x.a.fmt = 7 ∧ vInt x.d.fmt = true ∧ x.d.ok = true ∧ x.opx = 0 ∧
    fld x.w3 48 16 = 0 ∧ x.msrc = 0 ∧ rangesOk [(0, x.a.len)] [(x.d.off, x.d.len)] = true ∧ x.a.len = 32 ∧ x.d.len = 32 := by unfold vecMeets State.Works SpdState.Ready; decide +kernel
/-- A scale descriptor at 0x1C0: SC 0x2000, ZP 0x2010, BS 0x2020, and a histogram over 0 to 1 at 0x3000 where `h` is set. -/
def descMem (h : Bool) : SpdState := SPD (memOf ([(0x1C0, 4, 0x2000), (0x1C4, 4, 0x2010), (0x1C8, 4, 0x2020)] ++
  if h then [(0x1C0 + 0x18, 4, 2 ^ 31 + 0x3000), (0x1C0 + 0x20, 4, 0x3F800000)] else []))
theorem witness_VectorEngine_qnt : let x := vCmd (vq 4 6 0 0 0x1C0)
    let d := scaleDesc (descMem true) 0x1C0
    vecMeets 4 6 0 0 0x1C0 (descMem true) (x.qntIns d ++ if d.hen && d.hacc then [d.histRange] else []) ∧ x.qntOk = true ∧
    fld x.w3 0 23 = 0x1C0 ∧ (descMem true).Ready [(0x1C0, 64)] ∧ x.qntDescOk d = true ∧ rangesOk (x.qntIns d) (x.qntOuts d) = true := by
  unfold vecMeets State.Works SpdState.Ready; decide +kernel
theorem witness_VectorEngine_dq : let x := vCmd (vq 6 0 0 6 0x1C0)
    let d := scaleDesc (descMem false) 0x1C0
    vecMeets 6 0 0 6 0x1C0 (descMem false) (x.dqIns d) ∧ vInt x.a.fmt = true ∧ x.d.fmt = 6 ∧ x.d.ok = true ∧ x.opx = 0 ∧
    descWordOk x.w3 = true ∧ x.dqDescOk d = true ∧ rangesOk (x.dqIns d) [(x.d.off, x.d.len)] = true := by
  unfold vecMeets State.Works SpdState.Ready; decide +kernel
theorem witness_VectorEngine_hist : let x := vCmd (vq 7 6 0 0 0x1C0)
    let d := scaleDesc (descMem true) 0x1C0
    vecMeets 7 6 0 0 0x1C0 (descMem true) ((0, x.a.len) :: if d.hacc then [d.histRange] else []) ∧ x.opx = 0 ∧
    x.d.fmt = 0 ∧ descWordOk x.w3 = true ∧ d.hen = true ∧ d.histOk = true ∧ rangesOk [(0, x.a.len), (0x1C0, 64)] [d.histRange] = true := by
  unfold vecMeets State.Works SpdState.Ready; decide +kernel

/-- SEL: one segment of four 32-bit keys (format 3) at 0 into 0x1000, K = `k`; PEN with the block at 0x800 where `pen` is set. -/
def sq (o k iform : Nat) (pen : Bool) : EngCmd :=
  cmd 3 o (wd [(23, 3)]) (wd [(0, 0x1000), (23, k - 1), (43, 3), (47, iform)]) (if pen then wd [(0, 0x800), (23, 0x2000), (46, 1)] else wd [(23, 0x2000)])
/-- The parameter block: SSTR 16, BPER 2 and NBKT 2. -/
def selMem : SpdState := SPD (memOf [(0x800, 4, 16), (0x811, 1, 2), (0x812, 2, 2)])
def selMeets (o k iform : Nat) (pen : Bool) (work outs : List (Nat × Nat)) : Prop :=
  let q := sq o k iform pen
  let x := selCmd q
  let p := selMem
  let r := x.par p
  let ins := x.segments r ++ x.parRange
  (working 3 q 0 p GeoCore.reset).Works 0 3 q 0 ∧ q.opc = o ∧ x.segOk q = true ∧ rangesOk x.parRange [] = true ∧ p.Ready x.parRange ∧
    r.ok = true ∧ p.Ready (x.heads r) ∧ p.Ready (x.segReads p r) ∧ rangesOk (ins ++ work) outs = true
theorem witness_SelectEngine_segments : selMeets 1 1 0 false [] [(0x1000, 48)] ∧ selMeets 2 4 0 false [] [(0x1000, 48)] ∧ (selCmd (sq 2 4 0 false)).k = 4 ∧
    (selCmd (sq 2 4 0 false)).n = 4 ∧ (selCmd (sq 2 4 0 false)).ostr * (selCmd (sq 2 4 0 false)).nseg = 48 ∧
    (selCmd (sq 1 1 0 false)).ostr * (selCmd (sq 1 1 0 false)).nseg = 48 ∧ (selCmd (sq 1 1 0 false)).k = 1 := by
  unfold selMeets State.Works SpdState.Ready; decide +kernel
theorem witness_SelectEngine_btopk : let x := selCmd (sq 3 4 0 true)
    let r := x.par selMem
    selMeets 3 4 0 true [] [(0x1000, 48)] ∧ x.k ≤ x.n ∧ x.pen = true ∧ 1 ≤ r.bper ∧ r.bper ≤ 8 ∧ 2 ≤ r.nbkt ∧ r.nbkt ≤ 4096 ∧
    x.k ≤ r.nbkt * r.bper ∧ r.nbkt * r.bper ≤ 16384 ∧ x.ostr * x.nseg = 48 := by unfold selMeets State.Works SpdState.Ready; decide +kernel
theorem witness_SelectEngine_sort : let x := selCmd (sq 5 1 1 false)
    let len := x.n * pairBytes x.kf
    selMeets 5 1 1 false [(x.woff, len)] [(x.ooff, (len + 15) / 16 * 16 * x.nseg)] ∧ x.iform < 2 ∧ x.n ≤ 262144 ∧ x.k = 1 ∧ x.vout = false ∧
    x.sumen = false := by unfold selMeets State.Works SpdState.Ready; decide +kernel
/-- MERGE of the two lists of chapter 11's example, their offsets at 0. -/
def mgq : EngCmd := cmd 3 4 (wd [(43, 1)]) (wd [(0, 0x1000), (23, 3), (43, 3)]) 0
def mgMem : SpdState := SPD (Mem.write (Mem.write exLists 0 (leBytes 4 0x100)) 4 (leBytes 4 0x200))
theorem witness_SelectEngine_merge : let p := mgMem
    let x := selCmd mgq
    let tab : Nat × Nat := (x.ioff, 4 * (fld mgq.w1 43 6 + 1))
    let offs := (List.range (fld mgq.w1 43 6 + 1)).map fun i => p.num (x.ioff + 4 * i) 4
    let ms := (offs.map (mList p)).map fun l => (l.off, 32 + l.valid * pairBytes x.kf)
    (working 3 mgq 0 p GeoCore.reset).Works 0 3 mgq 0 ∧ mgq.opc = 4 ∧ x.words mgq = true ∧ fld mgq.w1 23 20 = 0 ∧ fld mgq.w1 49 14 = 0 ∧
    x.iform = 0 ∧ fld mgq.w3 0 46 = 0 ∧ x.sumen = false ∧ offs = [0x100, 0x200] ∧ rangesOk [tab] [(x.ooff, x.ostr)] = true ∧
    p.Ready [tab] ∧ p.Ready (offs.map fun o => (o, 32)) ∧ rangesOk (tab :: ms) [(x.ooff, x.ostr)] = true ∧ p.Ready ms := by unfold State.Works SpdState.Ready; decide +kernel
theorem witness_SelectEngine_search : let q := cmd 3 6 (wd [(23, 3)]) (wd [(0, 0x1000), (43, 3)]) (wd [(0, 0x800), (23, 1)])
    let x := selCmd q
    let p := SPD []
    let sIns : List (Nat × Nat) := [(x.ioff, x.n * if x.iform = 0 then keyBytes x.kf else pairBytes x.kf), (x.poff, (fld q.w3 23 20 + 1) * keyBytes x.kf)]
    let sOuts : List (Nat × Nat) := [(x.ooff, 8 * (fld q.w3 23 20 + 1))]
    (working 3 q 0 p GeoCore.reset).Works 0 3 q 0 ∧ q.opc = 6 ∧ x.words q = true ∧ x.ooff % 16 = 0 ∧ x.n ≤ 524288 ∧ x.nseg = 1 ∧ fld q.w2 23 20 = 0 ∧
    x.iform < 2 ∧ x.vout = false ∧ x.sumen = false ∧ x.poff % 16 = 0 ∧ fld q.w3 43 21 = 0 ∧ fld q.w3 23 20 + 1 ≤ 524288 ∧
    rangesOk sIns sOuts = true ∧ p.Ready sIns := by unfold State.Works SpdState.Ready; decide +kernel
/-- Equal keys and a NaN. -/
theorem witness_TopKIsTopK : (([⟨0x7FC00000, 0, true, 0⟩, ⟨5, 1, true, 1⟩, ⟨5, 2, true, 2⟩] : List SelElem).map (·.pos)).Nodup := by decide +kernel

/-! #### Grids -/

/-- A command of partition 0. -/
def cmdP0 (o w1 w2 w3 : Nat) : EngCmd := ⟨BitVec.ofNat 64 (4 + 16 * o), BitVec.ofNat 64 w1, BitVec.ofNat 64 w2, BitVec.ofNat 64 w3⟩
/-- A grid over the cores 0 to 3 of P0, without spill. -/
def gridRec : Rec64 := packRec [(0, 4, 0x2A01), (4, 4, 0xF), (0x14, 2, 100), (0x16, 1, 1), (0x2C, 4, 0x100000), (0x30, 4, 6144), (0x1B, 3, 1000), (0x21, 3, 1000), (0x27, 3, 1000)]
def gridGeo (st : BitVec 2) : GeoCore := { GeoCore.reset with gid := 0x2A01, st := st, desc := gridRec }
theorem witness_GridsAndBuilders_ginit : let p := SPD (memOf [(0, 64, gridRec.toNat)])
    let s := working 4 (cmdP0 0x10 0 0 0) 0 p GeoCore.reset
    s.Works 0 4 (cmdP0 0x10 0 0 0) 0 ∧ (cmdP0 0x10 0 0 0).opc = 0x10 ∧ (cmdP0 0x10 0 0 0).cspec = 0 ∧ fld (0 : Word) 23 41 = 0 ∧
    p.Ready [(0, 64)] ∧ BitVec.ofNat 512 (p.num 0 64) = gridRec ∧ gdOk gridRec = true ∧ (gdSet gridRec).testBit 0 = true ∧
    (∀ o ∈ setCores (gdSet gridRec), s.partOf o = (cmdP0 0x10 0 0 0).part) ∧ s.spillOk 0 0 gridRec = true := by
  unfold State.Works SpdState.Ready; decide +kernel
/-- Two entries of the sweep list with nothing in the scratchpad. -/
def ginsCmd : EngCmd := cmdP0 0x11 (wd [(32, 2)]) 0x100000 0x1000
theorem witness_GridsAndBuilders_gins : let p := SPD (memOf [(0, 4, 1), (16, 4, 4095)])
    let raw := (List.range 2).map fun i => p.wideRead (0 + 16 * i) 16
    (working 4 ginsCmd 0 p (gridGeo 1)).Works 0 4 ginsCmd 0 ∧ ginsCmd.opc = 0x11 ∧ ginsCmd.cspec = 0 ∧ fld ginsCmd.w1 32 8 = 2 ∧
    fld ginsCmd.w1 23 9 = 0 ∧ fld ginsCmd.w1 40 24 = 0 ∧ fld ginsCmd.w2 48 16 = 0 ∧ fld ginsCmd.w3 48 16 = 0 ∧ fld ginsCmd.w1 0 23 = 0 ∧
    (gridGeo 1).st ≠ 0 ∧ p.Ready [(0, 32)] ∧ fld ginsCmd.w2 0 48 % 2 ^ 20 = 0 ∧ fld ginsCmd.w3 0 48 % 4096 = 0 ∧
    (∀ r ∈ raw, sweepEntryOk r = true ∧ (sweepEntry r).scr = false) ∧ ((raw.map sweepEntry).filter (·.scr)) = [] ∧ (gridGeo 1).outq = [] ∧
    (working 4 ginsCmd 1 p (gridGeo 1)).Works 0 4 ginsCmd 1 := by
  unfold State.Works SpdState.Ready; decide +kernel
theorem witness_GridsAndBuilders_others : (working 4 (cmdP0 0x12 0 0 0) 0 (SPD []) (gridGeo 1)).Works 0 4 (cmdP0 0x12 0 0 0) 0 ∧
    (working 4 (cmdP0 0x13 0 16 0) 0 (SPD []) (gridGeo 2)).Works 0 4 (cmdP0 0x13 0 16 0) 0 ∧
    (working 4 (cmdP0 0x13 0 16 0) 1 (SPD []) (gridGeo 2)).Works 0 4 (cmdP0 0x13 0 16 0) 1 ∧
    gnbrOk (cmdP0 0x13 0 16 0) (gridGeo 2) = true ∧ (gridGeo 2).spl = [] ∧ (working 4 (cmdP0 0x14 0x2A01 0 0) 0 (SPD []) (gridGeo 2)).Works 0 4 (cmdP0 0x14 0x2A01 0 0) 0 ∧
    (gridGeo 2).gid.toNat = fld (cmdP0 0x14 0x2A01 0 0).w1 0 32 ∧ (gridGeo 2).asks = [] := by
  unfold State.Works; decide +kernel
/-- GFIN before its exchange with every core of the set drained, with one that is not, and after the exchange. -/
def finning (f : GeoCore → GeoCore) : State :=
  (List.finRange 4).foldl (fun s (i : Fin 4) => s.modCore (Fin.castLE (by decide) i) fun k => { k with geo := f (gridGeo 1) })
    (working 4 (cmdP0 0x12 0 0 0) 1 (SPD []) (gridGeo 1))
theorem witness_GridsAndBuilders_gfin :
    let marked : GeoCore → GeoCore := fun g => { g with marks := [(0, 1), (1, 1), (2, 1), (3, 1)] }
    let set := gdSet gridRec
    (finning marked).Works 0 4 (cmdP0 0x12 0 0 0) 1 ∧ set.testBit 0 = true ∧ (gridGeo 1).exchanged = none ∧
    (∀ d ∈ setCores set, (finning marked).drained 0x2A01 set d = true) ∧ (∃ d ∈ setCores set, (finning id).drained 0x2A01 set d = false) ∧
    ({ gridGeo 1 with exchanged := some ScanCounts.zero } : GeoCore).exchanged = some ScanCounts.zero ∧ (SPD []).mem.wf = true ∧ (SPD []).Writable [(0, 64)] := by
  unfold State.Works SpdState.Writable; decide +kernel
def gridPoint : RoutedPoint := ⟨0x2A01, 5, 0, 0, 0, 0, 0, 0, 0, false, false, 0⟩
theorem witness_GridsAndBuilders_insert : let s := coreZero fun k => { k with geo := { gridGeo 1 with inq := [(1, .point gridPoint)] } }
    s.cores[(0 : CoreId)].geo.inq = (1, .point gridPoint) :: [] ∧
    (∀ o : CoreId, (∀ x ∈ s.cores[o].geo.outq, x.1 ≠ 0) ∧ ∀ x ∈ s.cores[o].geo.rayq, x.1 ≠ 0) ∧ (gridGeo 1).st ≠ 0 ∧
    gridPoint.gid = (gridGeo 1).gid ∧ (gdSet gridRec).testBit 1 = true ∧ ({ gridPoint with gid := 1 } : RoutedPoint).gid ≠ (gridGeo 1).gid := by decide +kernel
theorem witness_GridsAndBuilders_lookup : let s := (coreZero fun k => { k with geo := gridGeo 2 }).modCore 1 fun k => { k with geo := { gridGeo 2 with asks := [(0, 5, 3)] } }
    (∀ o : CoreId, o ≠ 1 → s.cores[o].geo.asks = []) ∧ s.cores[(1 : CoreId)].geo.asks = (0, 5, 3) :: [] ∧ (1 : CoreId) ≠ 0 ∧
    s.cores[(0 : CoreId)].geo.st = 2 ∧ s.cores[(0 : CoreId)].geo.gid = s.cores[(1 : CoreId)].geo.gid := by decide +kernel
theorem witness_GridsAndBuilders_spill : State.reset.grd.holder[(3 : Fin 4)] = 0 ∧
    ((State.reset.grd.quota.set (3 : Fin 4) (fld (64 * 2 ^ 12 : Word) 12 7)).toList.foldl (· + ·) 0 ≤ 64) ∧
    ({ State.reset.grd with holder := State.reset.grd.holder.set (3 : Fin 4) 1 } : GrdState).holder[(3 : Fin 4)] ≠ 0 := by decide +kernel

/-! ### Witnesses: ingest -/

/-- A 60-byte multicast frame with a UDP datagram to port 8081; its flags field, checksum and UDP checksum by arguments. -/
def udpFrame (frag ck uck : Nat) : List Byte :=
  [1, 0, 0x5E, 0, 0, 1, 2, 0, 0, 0, 0, 1, 8, 0, 0x45, 0, 0, 46, 0, 0] ++ beBytes 2 frag ++ [0x40, 17] ++ beBytes 2 ck ++
    [10, 0, 0, 1, 10, 0, 0, 2, 0x1F, 0x90, 0x1F, 0x91, 0, 26] ++ beBytes 2 uck ++ zeros 18
def goodFrame : List Byte := udpFrame 0 0x66bd 0
def portUp : EthPort := { EthPort.reset with up := true, phy := .r10g }
def porting (q : EthPort) : State := { State.reset with pwr := { PwrState.reset with mode := .run }, ing := { IngState.reset with port := IngState.reset.port.set 0 q } }
theorem witness_SensorPorts : let q := (porting portUp).ing.port[(0 : Fin 4)]
    q.phy ≠ .off ∧ q.up = true ∧ (porting portUp).pwr.mode = .run ∧ q.clo = false ∧ fifoBytes q + 60 + 4 ≤ 1048576 ∧
    ({ EthPort.reset with phy := .r25g } : EthPort).up = false ∧ (zeros 59).length < 60 ∧ (9213 : Nat) > 9212 := by decide +kernel
theorem witness_SensorPorts_frames : goodFrame.length = 60 ∧ addressed 0 goodFrame = true ∧ ptpAt goodFrame = none ∧
    parseFrame goodFrame = .udp ⟨List.replicate 10 0 ++ [0xFF, 0xFF, 10, 0, 0, 1], 8081, zeros 18, 34, false⟩ ∧
    parseFrame (udpFrame 0 0x66bc 0) = .drop .ipHdr ∧ parseFrame (udpFrame 0x2000 0x46bd 0) = .drop .fragment ∧
    parseFrame (udpFrame 0 0x66bd 1) = .drop .udpCsum ∧ (∀ f ∈ [udpFrame 0 0x66bc 0, udpFrame 0x2000 0x46bd 0, udpFrame 0 0x66bd 1],
      f.length = 60 ∧ addressed 0 f = true ∧ ptpAt f = none) := by decide +kernel
/-- A receive FIFO with room for no frame of 60 bytes. -/
theorem witness_SensorPorts_full : ∃ q : EthPort, 1048576 < fifoBytes q + 60 + 4 :=
  ⟨{ portUp with fifo := List.replicate 17000 (.frame ⟨goodFrame, 0, 0, none⟩) }, by decide +kernel⟩
def goodDatagram : Datagram := ⟨List.replicate 10 0 ++ [0xFF, 0xFF, 10, 0, 0, 1], 8081, zeros 18, 34, false⟩
theorem witness_SensorPorts_process : let q := { portUp with fifo := [.frame ⟨goodFrame, 1, 2, none⟩] }
    q.fifo = .frame ⟨goodFrame, 1, 2, none⟩ :: [] ∧ ({ portUp with fifo := [.patternEnd 3] } : EthPort).fifo = [.patternEnd 3] ∧ (porting q).ing.match' 0 goodDatagram = none ∧ ({ IngState.reset with
      sens := IngState.reset.sens.set 15 (BitVec.ofNat 256 (1 + 8081 * 2 ^ 16 + leNat goodDatagram.src * 2 ^ 32)) } : IngState).match' 0 goodDatagram = some 15 := by
  decide +kernel
theorem witness_PointRecordsReadBack : ∃ x, convert exTpl exExt 0 (some 5000) (some 9000) none (some 87) = .ok x ∧ (255 : Nat) < 256 ∧ (65535 : Nat) < 65536 :=
  ⟨⟨1200, 10000, 2400, 87, some 16384⟩, by decide +kernel⟩

/-- A descriptor of one point for sensor 15. -/
def injWord : BitVec 256 := BitVec.ofNat 256 (0x100 + 2 ^ 64 + 15 * 2 ^ 128 + 7 * 2 ^ 224)
theorem witness_IngestBlock_tables : let g := State.reset.ing
    (zeros 64).length = 64 ∧ (∀ i : Fin 16, sensEn g.sens[i] = true → sensTpl g.sens[i] ≠ 15) ∧ bytesIn 63 (zeros 1) 64 = true ∧
    (∃ i : Fin 16, sensEn (g.sens.set 3 1)[i] = true ∧ sensTpl (g.sens.set 3 1)[i] = 0) ∧ sensEn g.sens[(0 : Fin 16)] = false ∧
    bytesIn 0 (leBytes 32 (1 + 15 * 16)) 32 = true ∧ sensEn (stage32 g.sens[(0 : Fin 16)] 0 (leBytes 32 (1 + 15 * 16)) &&& sensMask) = true ∧
    sensTpl (stage32 g.sens[(0 : Fin 16)] 0 (leBytes 32 (1 + 15 * 16)) &&& sensMask) = 15 ∧ bit (0x8000 : BitVec 16) 15 = true ∧
    bit g.tplVal 15 = false ∧ 2 ≤ (zeros 2).length ∧ bytesIn 0 (zeros 2) 64 = true ∧ bytesIn 0 (zeros 16) 16 = true := by decide +kernel
theorem witness_IngestBlock_rings : let r := State.reset.ing.ring[(3 : Fin 4)]
    ((BitVec.ofNat 32 0 - r.rhold).toNat ≤ (r.rwidx - r.rhold).toNat ∧ (BitVec.ofNat 32 0 - r.hhold).toNat ≤ (r.hwidx - r.hhold).toNat) ∧
    ¬ ((BitVec.ofNat 32 1 - r.rhold).toNat ≤ (r.rwidx - r.rhold).toNat) ∧ State.reset.ringsPlaced 3 = false ∧
    (withDdr State.reset).ringsPlaced 3 = true ∧ bit r.rctl 0 = false ∧ State.reset.gnt.mode ≠ .armed ∧ State.reset.gnt.mode ≠ .single := by decide +kernel
theorem witness_IngestBlock_inject : let w := stage32 State.reset.ing.injStage[(3 : Fin 4)] 0 (leBytes 32 injWord.toNat)
    w = injWord ∧ injBad w = false ∧ DDR.admitsAll (.part 0x58 3) false (injSrc w) (16 * injN w) = true ∧
    sensEn State.reset.ing.sens[injSensor w] = false ∧ State.reset.ing.injq[(3 : Fin 4)].length < 16 ∧
    ¬ (State.reset.ddr.admitsAll (.part 0x58 3) false (injSrc w) (16 * injN w) = true) := by decide +kernel
/-- Ring 0 has the close of sweep 0 staged, a descriptor waits for it, and a frame stands in the FIFO of port 0. -/
def staging : State := { State.reset with ing := { State.reset.ing with
  ring := State.reset.ing.ring.set 0 { IngRing.reset with rctl := 1, stage := [.close 0] }, injq := State.reset.ing.injq.set 0 [injWord],
  port := State.reset.ing.port.set 0 { portUp with fifo := [.frame ⟨goodFrame, 0, 0, none⟩] }, sens := State.reset.ing.sens.set 3 1 } }
theorem witness_IngestBlock_writer : Fin.ofNat 4 (fld staging.ing.slotNow (2 * staging.ing.slot.val) 2) = (0 : Fin 4) ∧
    staging.ing.ring[(0 : Fin 4)].ready = true ∧ (∀ q : Fin 4, State.reset.ing.ring[q].ready = false) ∧
    staging.ing.injq[(0 : Fin 4)] = injWord :: [] ∧ bit IngRing.reset.rctl 0 = false ∧ IngRing.reset.suspended = false ∧
    staging.ing.ring[(0 : Fin 4)].suspended = false ∧ staging.ing.ring[(0 : Fin 4)].stage ≠ [] ∧
    staging.ing.port[(0 : Fin 4)].fifo = .frame ⟨goodFrame, 0, 0, none⟩ :: [] ∧ sensEn staging.ing.sens[(3 : Fin 16)] = true ∧
    staging.ing.uses 3 (.sens 3) = true ∧ (∀ n : Fin 16, sensEn staging.ing.sens[n] = true → staging.ing.uses n (.ext 4) = false) := by decide +kernel
theorem witness_IngestBlock_record : let x : SweepRing := ⟨0, 0, 0, false, 0⟩
    (⟨0, 0, false, false, 0, 0, 0, false, 0, 0, 0, Vector.replicate 4 (some x), 0⟩ : Sweep).rings[(3 : Fin 4)] = some x ∧ x.trunc = false ∧
    bit (1 : Word) 0 = true ∧ ((2 ^ 24 - 1 : BitVec 32) - 0).toNat < 2 ^ 24 ∧ (zeros 16).length = 16 := by decide +kernel

/-! ### Witnesses: gather units, DMA and DDR -/

/-- A request of core 0 by its kind. -/
def nmgRec (k : Nat) : Rec64 := packRec [(0, 1, k), (8, 8, 3), (0x10, 8, 0)]
/-- A table in the hot store: 8 rows at 0, home unit 0, partition 0. -/
def nmgTab : Rec64 := packRec [(0, 1, 9), (1, 1, 0x10), (4, 2, 12), (6, 2, 16), (0x10, 4, 8)]
def nmgReq (k : Nat) : NmgReq := ⟨nmgRec k, 0, nmgTab⟩
/-- Unit 0 with a request in queue 0 and a segment of 64 KiB for partition 0. -/
def gathering (k : Nat) (m : List NmgMigr) : State := { State.reset with nmg := { NmgState.reset with tab := NmgState.reset.tab.set 0 nmgTab, hseg := NmgState.reset.hseg.set 0 (BitVec.ofNat 64 (2 ^ 16)), units := NmgState.reset.units.set 0 { NmgUnit.reset with queues := NmgUnit.reset.queues.set 0 [nmgReq k], migr := m } } }
theorem witness_GatherRegistersAndRequests_table : let s := gathering 4 []
    let w := recStore s.nmg.tab[(1 : Fin 64)] 0 (leBytes 64 nmgTab.toNat)
    (leBytes 64 nmgTab.toNat).length = 64 ∧ w = nmgTab ∧ tbEn s.nmg.tab[(1 : Fin 64)] = false ∧ tabReserved w = false ∧ tbEn w = true ∧
    s.tabOk w = true ∧ tbEn s.nmg.tab[(0 : Fin 64)] = true ∧ (∀ i : Fin 64, tbEn s.nmg.tab[i] = true → tbWpart s.nmg.tab[i] ≠ 3) ∧
    s.nmg.segsOk 3 (maskWrite hsegMask 0 (BitVec.ofNat 64 (1 + 2 ^ 16))) = true ∧ s.nmg.segsOk 3 (maskWrite hsegMask 0 (BitVec.ofNat 64 (2 ^ 16))) = false := by decide +kernel
theorem witness_GatherRegistersAndRequests_request : let s := gathering 4 []
    let r := recStore s.nmg.units[(0 : Fin 16)].staged[(3 : Fin 4)] 0 (leBytes 64 (nmgRec 4).toNat)
    r = nmgRec 4 ∧ s.reqOk 0 0x60 (packRec [(0, 1, 4)]) (s.nmg.tab[(0 : Fin 64)]) 0 = true ∧ s.reqOk 0 0x60 (packRec [(0, 1, 5)]) nmgTab 0 = false ∧
    16 ≤ (List.replicate 16 (nmgReq 4)).length ∧ s.partOf 4 ≠ 0 := by decide +kernel
/-- A request done on unit 0, a RETIRE that waits, and one that is held up. -/
theorem witness_GatherRegistersAndRequests_done : ∃ (x : NmgUnit) (y : NmgRun) (g : NmgState), x.run = y :: [] ∧ rqSync y.r.req / 2 ^ 15 % 2 = 0 ∧
    g.retire = some (0, nmgReq 4, false) ∧ (∀ i : Fin 16, ∀ y ∈ g.units[i].run, y.epoch ≠ some false) ∧
    ∃ g' : NmgState, g'.retire = some (0, nmgReq 4, false) ∧ ∃ i : Fin 16, ∃ y ∈ g'.units[i].run, y.epoch = some false :=
  ⟨{ NmgUnit.reset with run := [⟨nmgReq 0, 1, 0, 0, some false⟩] }, ⟨nmgReq 0, 1, 0, 0, some false⟩, { NmgState.reset with retire := some (0, nmgReq 4, false) },
    by decide +kernel, by decide +kernel, by decide +kernel, by decide +kernel,
    { NmgState.reset with retire := some (0, nmgReq 4, false), units := NmgState.reset.units.set 15 { NmgUnit.reset with run := [⟨nmgReq 0, 1, 0, 0, some false⟩] } },
    by decide +kernel, by decide +kernel⟩
theorem witness_GatherWork : ∀ k ∈ [0, 1, 2, 3, 4], (gathering k []).granted 0 = some (0, nmgReq k) ∧ rqKind (nmgReq k).req = k ∧
    (gathering k []).nmg.units[(0 : Fin 16)].migrates (nmgReq k) = false := by decide +kernel
theorem witness_GatherWork_held : ∀ k ∈ [1, 2, 3], let s := gathering k [⟨nmgReq 2, zeros 16⟩]
    s.granted 0 = some (0, nmgReq k) ∧ s.nmg.units[(0 : Fin 16)].migrates (nmgReq k) = true ∧ s.nmg.units[(0 : Fin 16)].held.length < 63 ∧
    s.nmg.units[(0 : Fin 16)].migr = ⟨nmgReq 2, zeros 16⟩ :: [] := by decide +kernel
/-- A pointer that is valid, at row 3 of the table in the hot store. -/
def pointer : Word := BitVec.ofNat 64 (2 ^ 63)
def pointing : State := let s := gathering 3 []
  { s with nmg := { s.nmg with hot := s.nmg.hot.write (tbIbase nmgTab + 8 * rqIds (nmgRec 3)) (leBytes 8 pointer.toNat) } }
/-- A unit with eight requests under way, and one with a full hold queue: what they grant. -/
theorem witness_GatherWork_full : let r := nmgReq 3
    let s := gathering 3 [⟨nmgReq 2, zeros 16⟩]
    let s8 : State := s.modUnit 0 fun x => { x with run := List.replicate 7 ⟨r, 1, 0, 0, none⟩ }
    s8.granted 0 = some (0, r) ∧ 8 ≤ s8.nmg.running 0 ∧
    let s64 : State := (gathering 0 []).modUnit 0 fun x => { x with held := List.replicate 64 r }
    s64.granted 0 = some (0, nmgReq 0) ∧ 64 ≤ s64.nmg.units[(0 : Fin 16)].held.length := by decide +kernel
theorem witness_GatherWork_flip : tbKeyed nmgTab = false ∧ tbIhot nmgTab = true ∧ rqIds (nmgRec 3) < tbNind nmgTab ∧
    (gathering 3 []).nmg.inSeg (tbWpart nmgTab) (tbIbase nmgTab + 8 * rqIds (nmgRec 3)) 8 = true ∧
    ptrValid pointer = true ∧ ptrWell nmgTab pointer = true ∧ pointing.nmg.hotRead 0 (tbIbase nmgTab + 8 * rqIds (nmgRec 3)) 8 = some (leBytes 8 pointer.toNat) ∧
    pointing.nmg.hot.read (tbIbase nmgTab + 8 * rqIds (nmgRec 3)) 8 = leBytes 8 pointer.toNat := by decide +kernel

/-- A channel of core 0 changed. -/
def chan (ch : Fin 16) (f : DmaChan → DmaChan) (s : State) : State := s.modDch (.core 0) ch f
theorem witness_DmaLists_go : pf0.val = 0x60 ∧ crown.val ≠ 0x60 ∧ (7 : Fin 16).val < 8 ∧ State.reset.cores[(0 : CoreId)].seq.phase = .idle ∧ (State.reset.dch (.core 0) 7).busy = false ∧
    State.reset.flt.part[State.reset.partOf 0] = .running ∧ (running 0 id).cores[(0 : CoreId)].seq.phase ≠ .idle ∧
    ((chan 7 (fun x => { x with busy := true }) State.reset).dch (.core 0) 7).busy = true ∧ (0x71 : Ini) ≠ privOwner 14 ∧ 14 ≤ (14 : Fin 16).val := by decide +kernel
/-- A RUN and a STOP of channel 7 at the head of the queue. -/
def dmaQ (o : Nat) : State := queued 6 (cmd 6 o (if o = 1 then wd [(0, 0x40), (48, 1)] else 0) 7 0) (SPD [])
theorem witness_DmaLists_run : ∀ o ∈ [1, 2], let q := cmd 6 o (if o = 1 then wd [(0, 0x40), (48, 1)] else 0) 7 0
    (dmaQ o).cores[(0 : CoreId)].engines[(6 : Fin 7)].queue = q :: [] ∧ q.opc = o ∧ q.mayStart (SPD []) = true ∧
    (o = 1 → dmaRunBad q = false) ∧ (o = 2 → dmaStopBad q = false) ∧ fld q.w2 0 3 = 7 ∧ ((dmaQ o).dch (.core 0) 7).busy = false ∧
    ((chan 7 (fun x => { x with busy := true }) (dmaQ o)).dch (.core 0) 7).busy = true := by decide +kernel
theorem witness_DmaLists_start : let p := SPD []
    0x7FFFC0 % 64 = 0 ∧ p.poweredAll 0x7FFFC0 64 = true ∧ p.mayReadAll 0x7FFFC0 64 = true ∧ p.num 0x7FFFC0 64 = 0 := by decide +kernel
/-- A descriptor over 16 bytes of the scratchpad: a copy, a fill, a comparison; and a compression of one line. -/
def desc (op : Nat) : Rec64 := packRec ([(7, 1, 0x80), (8, 1, op), (10, 1, 3), (0x18, 6, 0x2000), (0x20, 4, if op = 3 then 1 else 16), (0x24, 4, 1)] ++
  (if op = 1 then [] else [(0x10, 6, 0x1000)]) ++ (if op = 3 then [(0x30, 6, 0x3000)] else [(0x28, 4, 16), (0x2C, 4, 16)]))
def descState (ph : DescPhase) (d : Rec64) : State := chan 7 (fun x => { x with busy := true, phase := ph, desc := d }) (coreZero fun k => { k with spd := SPD [] })
theorem witness_DmaDescriptors : ∀ op ∈ [0, 1, 2, 3], let s := descState .fetched (desc op)
    let x := s.dch (.core 0) 7
    dmaChanOk (.core 0) 7 = true ∧ x.busy = true ∧ x.phase = .fetched ∧ x.stop = false ∧ x.desc = desc op ∧ dOp (desc op) = op ∧
    s.descCheck (.core 0) 7 (desc op) = 0 ∧ dLast (desc op) = true ∧ (∀ o : Fin 16, o.val < engChans (.core 0) → o ≠ 7 → (s.dch (.core 0) o).busy = false) ∧
    dRem (desc op) = false ∧ dSsp (desc op) = true ∧ dDsp (desc op) = true ∧ dRows (desc op) = 1 ∧ dOverlap (desc op) = false := by decide +kernel
/-- The line premises of each operation: its source at 0x1000, its destination at 0x2000, its output at 0x3000. -/
theorem witness_DmaDescriptors_lines : let p := SPD []
    (∀ op ∈ [0, 1, 2], dDst (desc op) % 256 + dNel (desc op) * 2 ^ dDw (desc op) ≤ 256 ∧ dSrc (desc op) % 256 + dNel (desc op) * 2 ^ dSw (desc op) ≤ 256) ∧
    (∀ op ∈ [0, 1, 2, 3], p.mayRead (dSrc (desc op) / 256) = true ∧ p.mayRead (dDst (desc op) / 256) = true ∧ p.mayWrite (dDst (desc op) / 256) = true) ∧
    (let d := desc 3
     let z := compressLine (dCfmt d) (dZcode d) (leNat (p.mem.read (dSrc d) 256))
     dNel d = 1 ∧ dSrc d % 256 = 0 ∧ dDst d % 256 + 8 ≤ 256 ∧ dDoff d % 256 + z.2.length ≤ 256 ∧ p.mayWrite (dDoff d / 256) = true) ∧
    (let d := desc 2
     let want (m : Mem) := (elemsOf (dSw d) (dNel d) (m.read (dSrc d) 16)).map fun v => (dmaElem (dSw d) (dDw d) (dSgn d) (dSat d) v).1
     let have' (m : Mem) := elemsOf (dDw d) (dNel d) (m.read (dDst d) 16)
     want [] = have' [] ∧ (want [(0x1003, 1)]).take 3 = (have' [(0x1003, 1)]).take 3 ∧ (want [(0x1003, 1)])[3]? ≠ (have' [(0x1003, 1)])[3]?) := by decide +kernel
/-- A burst that a slot tag holds, one that is granted, and a half that is done. -/
theorem witness_DmaDescriptors_bursts : let d := desc 1
    let s := descState .running d
    let held : State := s.modSpd 0 fun p => { p with tags := [(0, ⟨true, true, 4, 0x20⟩)] }
    let x := s.dch (.core 0) 7
    (held.dch (.core 0) 7).phase = .running ∧ held.actMay (.core 0) d (x.prog.act d) = false ∧ s.burstReady (.core 0) 7 = true ∧
    s.dmaGrant (.core 0) = some 7 ∧ s.writesHeld 0x20 = false ∧ ({ x with prog := { x.prog with done := 8 } } : DmaChan).halfDone = true := by decide +kernel
theorem witness_DmaDescriptors_bad : (descState .fetched 0).descCheck (.core 0) 7 0 ≠ 0 ∧ dOp 0 = 0 := by decide +kernel
theorem witness_DmaDescriptors_end : let h := desc 0 ||| packRec [(11, 1, 1)]
    let s := descState .executed (desc 0)
    bit h 88 = true ∧ ((descState .executed h).dch (.core 0) 7).half = false ∧ bit ((descState .executed h).dch (.core 0) 7).status 62 = false ∧
    s.mayClose (.core 0) 7 = true ∧ bit (desc 0) 88 = false ∧ bit (desc 0) 89 = false ∧ isPriv (.core 0) 7 = false ∧
    (15 < 16 ∧ 2 ^ 32 - 1 < 2 ^ 32) ∧ (3 < 4 ∧ 2 ^ 64 - 1 < 2 ^ (8 * 2 ^ 3)) := by decide +kernel

theorem witness_DdrPlacesAndBytes : let w := DDR.rgn[(0 : Fin 16)]
    rgnBase w * 2 ^ 30 ≤ 0 ∧ rgnSet (0x844C004000050040 : Word) = 0 ∧ rgnSet (BitVec.ofNat 64 (2 ^ 60)) = 1 ∧ rgnSet (BitVec.ofNat 64 (2 ^ 61)) = 2 ∧
    DDR.mem.wf = true ∧ DDR.admitsAll .host true 0x3FFFFFF00 256 = true ∧ (withDdr State.reset).ddrAnswers .host (DDR.bursts 0x3FFFFFF00 256) = true ∧
    (∀ i < 256, DDR.regionAt (0x3FFFFFF00 + i) = some w) ∧ (∀ b ∈ DDR.bursts 0x3FFFFFF00 256, DDR.isBad b = false) ∧
    rgnChofs w * 2 ^ 26 + rgnPer w ≤ 2 ^ 36 := by decide +kernel
/-- Reads and writes of the host and of core 0, refused and admitted, on a good burst and on a bad one. -/
theorem witness_DdrAccesses : let h : DdrReq := ⟨pf0, 0, 0⟩
    let c : DdrReq := ⟨⟨0, rfl⟩, 0, 0⟩
    let s := withDdr State.reset
    ddrAccessOk 0 (.read 4096) = true ∧ ddrAccessOk 0 (.write (zeros 64)) = true ∧ s.whoOf h = .host ∧ s.whoOf c = .part 0 0 ∧
    s.ddr.admitsAll .host false 0 64 = true ∧ s.ddr.admitsAll .host true 0 64 = true ∧ State.reset.ddr.admitsAll .host false 0 64 = false ∧
    State.reset.ddr.admitsAll .host true 0 64 = false ∧ s.ddr.bursts 0 64 = [s.ddr.key 0 / 64] ∧ s.ddrAnswers .host (s.ddr.bursts 0 64) = true ∧ s.ddrAnswers (.part 0 0) (s.ddr.bursts 0 64) = true ∧
    s.ingestMay .host 0 64 = true ∧ State.reset.ddrAnswers .host (s.ddr.bursts 0 64) = false ∧ s.ddr.admitsAll (.part 0 0) true 0 64 = true ∧ s.ddr.admitsAll (.part 0 0) false 0 64 = true ∧ s.ingestMay (.part 0 0) 0 64 = true ∧
    (∀ b ∈ s.ddr.bursts 0 64, s.ddr.isBad b = false) ∧     ({ s.ddr with bad := [(s.ddr.key 0 / 64, true)] } : DdrState).isBad (s.ddr.key 0 / 64) = true := by decide +kernel
/-- A channel with one burst of P2 waiting. -/
theorem witness_DdrAccesses_turn : ∃ (k : ChanState) (q : DdrBurst), k.pick = some q ∧ q.part = 2 :=
  ⟨{ ChanState.reset with state := 2, queue := [⟨7, 2, 0⟩] }, ⟨7, 2, 0⟩, by decide +kernel⟩
/-- A region of 1 GiB for P3. -/
def smallRgn : Word := BitVec.ofNat 64 (wd [(63, 1), (59, 1), (55, 1), (10, 1), (0, 15)])
theorem witness_DdrRegistersAndUpkeep_apart : State.reset.rgnRefused 0 crown 0 = false ∧ State.reset.rgnRefused 0 pf0 0 = true ∧
    State.reset.gnt.mode ≠ .armed ∧ State.reset.gnt.mode ≠ .single ∧ rgnEn smallRgn = true ∧ rgnEn DDR.rgn[(0 : Fin 16)] = true ∧
    rgnBase smallRgn < rgnBase DDR.rgn[(0 : Fin 16)] + rgnSize DDR.rgn[(0 : Fin 16)] ∧ rgnBase DDR.rgn[(0 : Fin 16)] < rgnBase smallRgn + rgnSize smallRgn := by decide +kernel
theorem witness_DdrRegistersAndUpkeep : let k := DDR.ch[(15 : Fin 16)]
    let w := BitVec.ofNat 64 (64 * 2 ^ 21) &&& 0x00000FFFFFFFFFFF#64
    (fld w 0 7 + fld w 7 7 + fld w 14 7 + fld w 21 7 = 64) ∧ k.state = 2 ∧ k.ref2x = false ∧ ({ k with ref2x := true } : ChanState).ref2x = true ∧
    ({ k with eventN := true } : ChanState).eventN = true ∧ k.eventN = false ∧ ({ k with eventOff := some 0 } : ChanState).eventOff = some 0 ∧
    500000000 ≤ ((500000000 : Word) - 0).toNat ∧ ((499999999 : Word) - 0).toNat < 500000000 ∧ DDR.selfRefresh = false ∧ DDR.isBad (15 * 2 ^ 30 + k.scrubAt) = false ∧ 64 ≤ (#v[63, 0, 0, 0] : Vector Nat 4).toList.foldl (· + ·) 0 + 1 ∧
    64 < fld (BitVec.ofNat 64 (65 * 2 ^ 21) : Word) 21 7 ∧ bit (9 : BitVec 4) 3 = true ∧ k.grants[(3 : Fin 4)] < fld w 21 7 ∧
    ∀ q : Fin 4, q ≠ 3 → bit (9 : BitVec 4) q.val = true → fld w (7 * q.val) 7 ≤ k.grants[q] := by decide +kernel

/-! ### Witnesses: the fabric and Hatband -/

/-- A module of an 8 × 8 × 8 torus at address 0 whose port X+ is `x`, with FABEN = 1. -/
def linked (x : FabPort) (inbox : List FabEntry) : State := { State.reset with tb := { State.reset.tb with cfg := BitVec.ofNat 64 (2 ^ 47 + 2 ^ 46) }, fab := { exFab with ports := exFab.ports.set 0 x, inbox := inbox } }
def portIn (st : Nat) : FabPort := { FabPort.reset with state := st, mode := 1, lanes := 0xF }
def sigPkt (src : BitVec 15) : FabPkt := FabPkt.make 2 src 0 0x10 false 0 1 []
def wrPkt : FabPkt := FabPkt.make 1 0 0 0x10 false 0x400000000000 0 [1]
theorem witness_FabricLinks : (portIn 1).state ≤ 1 ∧ (portIn 1).queue = [] ∧ fourLanes ((0x1F : BitVec 5) &&& ~~~(portIn 1).excl) = some 0xF ∧
    fourLanes ((0x07 : BitVec 5) &&& ~~~(portIn 1).excl) = none ∧ bit (portIn 2).lanes 3 = true ∧ 2 ≤ (portIn 2).state ∧ (portIn 3).state ≠ 5 ∧
    ({ portIn 3 with ack := 9, naks := 7 } : FabPort).ack = 9 ∧ (portIn 0).state = 0 ∧ (portIn 4).state = 4 ∧ (portIn 3).naks = 0 ∧ (portIn 1).wait = false ∧
    ({ portIn 3 with top := 3 } : FabPort).txCw ≠ 3 ∧ (portIn 0).queue = [] ∧ pf0.val = 0x60 ∧ (⟨0, rfl⟩ : Initiator).val ≠ 0x60 ∧ (⟨0, rfl⟩ : Initiator).val ≠ 0x70 ∧ (linked (portIn 3) []).fab.ops = [] := by decide +kernel
/-- A change that leaves the links as they are, and one at VALID = 0 with Crown free. -/
theorem witness_FabricLinks_watch : let s := linked (portIn 3) []
    (s.modLink 0 fun x => { x with nak := true }).fab.peers = s.fab.peers ∧ State.reset.fab.valid = false ∧ State.reset.crn.mgmtQ = [] ∧
    State.reset.serves .management = true := by decide +kernel
theorem witness_FabricLinks_hello : let h : Hello := ⟨5, oppPort 0, 0, false, 0⟩
    (linked (portIn 2) []).fab.mismatch 0 h = false ∧ (portIn 2).state ≠ 4 ∧ (⟨0, 0, true⟩ : MgmtHead).good = true ∧ (⟨0, 0, false⟩ : MgmtHead).good = false ∧ ({ h with port := 0 } : Hello).port ≠ oppPort 0 := by decide +kernel
theorem witness_FabricLinks_grant : ({ portIn 3 with queue := [⟨sigPkt 0, none⟩] } : FabPort).grant = some (0, ⟨sigPkt 0, none⟩) := by decide +kernel
theorem witness_FabricPackets_route : let b := { exFab with wrap := Vector.replicate 3 false }
    b.hall = false ∧ (∀ k < 2, coordOf 0x40 k = coordOf 0x1C0 k) ∧ coordOf 0x40 2 ≠ coordOf 0x1C0 2 ∧ b.wraps 2 = false ∧
    b.blocked 2 0x40 0x1C0 (decide (coordOf 0x40 2 < coordOf 0x1C0 2)) false = false := by decide +kernel
theorem witness_FabricPackets_hop : let b := (linked (portIn 3) []).fab
    ({ sigPkt 0 with rsv7 := 1 } : FabPkt).reserved = true ∧ (sigPkt 0).reserved = false ∧ wrPkt.reserved = false ∧ b.ports[(0 : Fin 6)].mode = 1 ∧
    0 < ({ sigPkt 0 with hops := 62 } : FabPkt).hops.toNat ∧ ({ sigPkt 0 with hops := 62 } : FabPkt).hops.toNat < 63 ∧ pktOk wrPkt = true ∧
    b.valid = true ∧
    b.addr.toNat = wrPkt.dst.toNat % 2 ^ 15 ∧ wrPkt.dtr = 0 ∧ (wrPkt.typ = 1 ∧ (sigPkt 0).typ = 2) := by decide +kernel
/-- Whether the hop checks pass a packet on as another. -/
def hopGives (b : FabState) (p : Fin 6) (k q : FabPkt) : Bool := match b.hopIn p k with | .ok r => decide (r = q) | .error _ => false
theorem hopIn_of_gives {b : FabState} {p : Fin 6} {k q : FabPkt} (h : hopGives b p k q = true) : b.hopIn p k = .ok q := by
  unfold hopGives at h; split at h <;> simp_all
theorem witness_FabricPackets_ok : (linked (portIn 3) []).fab.hopIn 0 wrPkt = .ok { wrPkt with hops := 1 } := hopIn_of_gives (by decide +kernel)
theorem witness_FabricPackets_bad : ∃ c, (linked (portIn 3) []).fab.hopIn 0 { sigPkt 0 with rsv7 := 1 } = .error c := ⟨3, rfl⟩
theorem witness_FabricPackets_arrive : let b := (linked (portIn 3) [⟨wrPkt, some (0, 0)⟩]).fab
    b.inbox = ⟨wrPkt, some (0, 0)⟩ :: [] ∧ b.takes wrPkt = true ∧ inApertures (fld wrPkt.args0 0 48) wrPkt.payload.length = true ∧
    b.takes (sigPkt 0) = true ∧ b.takes (sigPkt 0x7FFF) = false ∧ bit b.admitMask ((sigPkt 0x7FFF).src.toNat / 512 % 64) = false ∧
    (linked (portIn 3) [⟨sigPkt 0, none⟩]).fab.inbox = ⟨sigPkt 0, none⟩ :: [] := by decide +kernel
/-- A source-routed MGMT packet that would go on from a module that is valid. -/
theorem witness_FabricPackets_mgmt : let k : FabPkt := { FabPkt.make 4 0 0 0x70 false 1 0 [] with sr := true }
    pktOk k = true ∧ hopGives (linked (portIn 3) []).fab 0 k { k with hops := 1 } = true ∧ (linked (portIn 3) []).fab.valid = true ∧
    (routePort ({ k with hops := 1 } : FabPkt).args0 1).isSome = true ∧ (portIn 1).state < 2 := by decide +kernel

/-- A sum of 256 bytes of INT32 over modules 0 and 1, from 0 into 4096, by P2. -/
def coRec : Rec64 := packRec [(0, 1, 8), (1, 1, 5), (2, 1, 2), (6, 2, 1), (0xC, 4, 256), (0x18, 8, 4096)]
def coFragOk : FabPkt := FabPkt.make 3 0 0 0x59 false 5 (BitVec.ofNat 64 (3 + 2 * 2 ^ 14 + (coCheck coRec).toNat * 2 ^ 32)) (zeros 4)
def collecting : State := { withDdr (linked (portIn 3) []) with fab := { (linked (portIn 3) []).fab with ops := [⟨coRec, 2, 0, false, false, []⟩] } }
theorem witness_DiscoveryAndCollectives_survey : let b := State.reset.fab
    b.origin = false ∧ ({ b with origin := true } : FabState).origin = true ∧ (∀ q : Fin 6, b.peers[q] = none) ∧ routeOk [0] = true ∧
    routeOk (List.replicate 21 5) = true ∧ b.survey = none ∧ ({ b with survey := some ⟨[], [], [[0]]⟩ } : FabState).survey = some ⟨[], [], [[0]]⟩ ∧
    [0] ∈ (⟨[], [], [[0]]⟩ : Survey).waiting ∧ ({ b with ports := b.ports.set 0 (portIn 2) } : FabState).ports[(0 : Fin 6)].state = 2 := by decide +kernel
/-- An origin that surveys a slice of 8 modules to a side: its own node placed, a module at X+ asked; and the other cases of a
management message on port X+. -/
def surveying (v : Option Survey) (p : FabPort) : State :=
  { linked p [] with fab := { exFab with ports := exFab.ports.set 0 p, cfgSize := Vector.replicate 3 8, survey := v } }
def oneAsked : Survey := ⟨[⟨1, 0, [], Vector.replicate 6 none⟩], [], [[0], [2]]⟩
def crownLoop : State := let s := surveying none (portIn 3)
  { s with tb := { s.tb with cnt := 500000 }, crn := { s.crn with mode := .running }, pwr := { s.pwr with mode := .run } }
theorem witness_DiscoveryAndCollectives_messages : let m : MgmtHead := ⟨1, 0, true⟩
    let s := surveying (some oneAsked) (portIn 3)
    s.serves .management = true ∧ s.crn.mgmtQ = [] ∧ (∀ sub ∈ [2, 3, 4, 5], s.fab.mgmtStop 0 sub m = none) ∧ s.fab.survey = some oneAsked ∧
    [0] ∈ oneAsked.waiting ∧ oneAsked.nodes.find? (fun k => k.route = [0].dropLast) = some ⟨1, 0, [], Vector.replicate 6 none⟩ ∧
    [(0 : Fin 6)].getLast? = some 0 ∧ stepCoord s.fab.cfgSize s.fab.wrapsNow 0 0 = some 1 ∧ (∀ k ∈ oneAsked.nodes, k.ident ≠ 2 ∧ k.coord ≠ 1) ∧
    (2 : Word) ∉ oneAsked.bad ∧ oneAsked.waiting.erase [0] ≠ [] ∧ (portIn 4).state = 4 ∧ s.fab.mgmtStop 0 2 ⟨63, 0, true⟩ = some 3 ∧
    (∀ sub ∈ [0, 1, 2], trunkSub sub = false ∨ sub ∉ [2]) ∧ ({ portIn 3 with mode := 2 } : FabPort).mode = 2 ∧ crownLoop.serves .management = false := by decide +kernel
theorem witness_DiscoveryAndCollectives_ident : ∃ v : Word, v ≠ Config.deviceId := ⟨Config.deviceId + 1, by bv_omega⟩
theorem witness_DiscoveryAndCollectives_descriptor : let s := withDdr (linked (portIn 3) [])
    (leBytes 64 coRec.toNat).length = 64 ∧ recStore s.fab.colq 0 (leBytes 64 coRec.toNat) = coRec ∧ s.coOk pf0 coRec = true ∧
    State.reset.coOk pf0 coRec = false ∧ State.reset.fab.valid = false ∧ isSafety (s.coPart pf0 (packRec [(2, 1, 1)])) = true ∧ coReserved (coRec ||| packRec [(2, 1, 4)]) = true := by decide +kernel
theorem witness_DiscoveryAndCollectives_fragment : let s := collecting
    let q := { coFragOk with hops := 1 }
    pktOk coFragOk = true ∧ s.fab.ports[(0 : Fin 6)].state = 3 ∧ hopGives s.fab 0 coFragOk q = true ∧ q.typ = 3 ∧ s.fab.valid = true ∧
    (linked (portIn 3) []).fab.ops = [] ∧ (linked (portIn 3) []).fab.frags = [] ∧ s.opOf (fld q.args0 0 8) = some ⟨coRec, 2, 0, false, false, []⟩ ∧
    q.pcrc = q.crc ∧ ({ q with pcrc := q.crc + 1 } : FabPkt).pcrc ≠ q.crc ∧ fld q.args1 32 32 = (coCheck coRec).toNat ∧ (coPhases coRec).head? = some 0 ∧
    fld q.args0 32 2 = 0 ∧ bit q.args0 34 = false ∧ s.coFull ⟨coRec, 2, 0, false, false, []⟩ 1 4 = false ∧ fld ({ q with args1 := 0 } : FabPkt).args1 32 32 ≠ (coCheck coRec).toNat ∧ (s.coSource ⟨coRec, 2, 0, false, false, []⟩ (fld q.args0 8 24)).2 = some (zeros 256) := by decide +kernel
theorem witness_DiscoveryAndCollectives_timeout : let s := { State.reset with fab := { State.reset.fab with frags := [(0, coFragOk)] } }
    s.opOf (5 : Fin 256).val = none ∧ s.fab.frags = [(0, coFragOk)] ∧ fld coFragOk.args0 0 8 = (5 : Fin 256).val := by decide +kernel

/-- Domains A and B in these states, with RED as given. -/
def timed (a b : DomState) (red : Bool) : State := { State.reset with tb := { State.reset.tb with cnt := 500000, cfg := BitVec.ofNat 64 (ofBool red * 2 ^ 48 + 2 ^ 19 + 7 * 2 ^ 24), dom := #v[{ TbDom.reset with state := a, wdms := 1 }, { TbDom.reset with state := b }] } }
theorem witness_DomainTimes : (2 ^ 63 - 1 : Nat) < 2 ^ 63 ∧ rateOk 0x3FFFFFFF = true ∧ rateOk 0x40000000 = false ∧
    (timed .follow .locked true).tb.dom[(0 : Fin 2)].state = .follow ∧ (timed .locked .locked true).tb.dom[(1 : Fin 2)].state = .locked ∧
    bit (timed .locked .locked true).tb.cfg 48 = true ∧ bit (timed .locked .locked false).tb.cfg 48 = false ∧
    bit (timed .free .free false).tb.cfg (16 + 4 * 0 + 3) = true ∧ fld (timed .free .free false).tb.cfg 24 8 = (7 : Byte).toNat ∧
    fld (timed .free .free false).tb.cfg 24 8 ≠ (8 : Byte).toNat ∧ ((-7 : Int) ≤ -7 ∧ (1 : Int) ≤ 1) ∧ Half.low ≠ .full ∧ fld (1 : Word) 0 4 = 1 ∧
    (3 ≤ fld (7 : Word) 0 3 ∧ bit (7 : Word) 3 = false) ∧ (timed .locked .free false).tb.dom[(0 : Fin 2)].wdms ≠ 0 ∧
    1 * 500000 ≤ ((timed .locked .free false).tb.cnt - (timed .locked .free false).tb.dom[(0 : Fin 2)].touched).toNat ∧
    (timed .locked .free false).tb.dom[(1 : Fin 2)].wdms = 0 := by decide +kernel
theorem witness_DomainTimes_epoch : (State.reset.domTime 0).toNat / 2 ^ 30 = State.reset.tb.dom[(0 : Fin 2)].epoch.toNat / 2 ^ 30 ∧
    ({ State.reset with tb := { State.reset.tb with cnt := 2 ^ 29 } } : State).domTime 0 = 2 ^ 30 := by decide +kernel

/-- A servo with one Sync to follow, and a Sync whose interval no servo takes. -/
theorem witness_DomainTimes_servo : let y : PtpSync := ⟨0, 1, 2, 3, 4⟩
    let s := State.reset.modServo 1 fun q => { q with due := [y] }
    s.tb.servo[(1 : Fin 2)].due = y :: [] ∧ State.reset.tb.servo[(1 : Fin 2)].due = [] ∧ ptpLog (zeros 33 ++ [0xF8]) 0 < -7 ∧
    1 < ptpLog (zeros 33 ++ [2]) 0 ∧ State.reset.tb.servo[(0 : Fin 2)].best = none := by decide +kernel

/-- A descriptor of a 60-byte frame at 0 for time 1000, with LATE as given. -/
def txd (late now : Bool) : TxDesc := ⟨1000, 0, 60, false, now, late, true, 7⟩
def txq (cnt : Word) (d : TxDesc) : State := { porting portUp with tb := { State.reset.tb with cnt := cnt, tx := State.reset.tb.tx.set 0 { TxPort.reset with queue := [d] } } }
theorem witness_TimeOnPortsAndLinks_frames : txDescBad (BitVec.ofNat 128 (1000 + 60 * 2 ^ 80)) = false ∧ txDescBad (BitVec.ofNat 128 (59 * 2 ^ 80)) = true ∧
    (txq 508 (txd false false)).tb.tx[(0 : Fin 4)].queue = txd false false :: [] ∧ (txq 508 (txd false false)).ing.port[(0 : Fin 4)].up = true ∧
    (txq 508 (txd false false)).pwr.mode = .run ∧ ((txq 508 (txd false false)).domTime 0).toNat = 1000 + 16 ∧
    ((txq 491 (txd false false)).domTime 0).toNat + 16 < 1000 ∧ 1000 + 16 < ((txq 509 (txd true false)).domTime 0).toNat := by decide +kernel
/-- The line of port 0 is taken until tick 600. -/
theorem witness_TimeOnPortsAndLinks_busy : let s := (txq 599 (txd true false)).modTx 0 fun x => { x with busy := some 600 }
    s.sending 0 = true ∧ s.tb.tx[(0 : Fin 4)].queue = txd true false :: [] ∧ s.ing.port[(0 : Fin 4)].up = true ∧ s.pwr.mode = .run ∧
    (txq 508 (txd false false)).sending 0 = false ∧ (txd true true).now = true ∧
    (({ s with tb := { s.tb with cnt := 600 } } : State).sending 0 = false) := by decide +kernel
/-- A pulse of period 1000 and width 16 from 500 on, before and at its first edge, and on. -/
def pulsing (cnt : Word) (on : Bool) : State := { State.reset with tb := { State.reset.tb with cnt := cnt, evo := State.reset.tb.evo.set 3 { Pulse.reset with start := 500, startN := 500, pw := BitVec.ofNat 64 (16 + 1000 * 2 ^ 32), pwN := BitVec.ofNat 64 (16 + 1000 * 2 ^ 32), en := true, on := on, offAt := 516 } } }
theorem witness_TimeOnPortsAndLinks_pulses : let o := (pulsing 250 false).tb.evo[(3 : Fin 4)]
    pulseOk o.pw = true ∧ pulseOk (BitVec.ofNat 64 (15 + 1000 * 2 ^ 32)) = false ∧ o.en = true ∧ o.hasEdge = true ∧ o.edgeTime o.i ≤ ((pulsing 250 false).domTime 0).toNat ∧
    o.start = o.startN ∧ o.pw = o.pwN ∧ ((pulsing 249 false).domTime 0).toNat < o.edgeTime o.i ∧ (pulsing 258 true).tb.evo[(3 : Fin 4)].on = true ∧
    (pulsing 258 true).tb.evo[(3 : Fin 4)].offAt.toNat ≤ ((pulsing 258 true).domTime 0).toNat ∧ o.on = false ∧ 0 < fld o.pw 32 32 := by decide +kernel
/-- Slice time and bridging: X+ towards the parent, Z+ an up trunk, 100 ms after the last SYNC and BRIDGE. -/
def sliced : State := let s := linked (portIn 3) []
  { s with tb := { s.tb with cnt := 50000000, lastSync := some 0, lastBridge := #v[some 0, none], peer := s.tb.peer.set 0 ⟨some 1, 0⟩, dom := s.tb.dom.set 1 { TbDom.reset with state := .locked } }, fab := { s.fab with parent := some 0, origin := true, ports := s.fab.ports.set 4 { portIn 3 with mode := 2 } } }
theorem witness_TimeOnPortsAndLinks_links : sliced.fabEn = true ∧ sliced.fab.ports[(0 : Fin 6)].state = 3 ∧ sliced.fab.ports[trunkPort 0].state = 3 ∧
    sliced.fab.ports[trunkPort 0].mode = 2 ∧ sliced.tb.peer[(0 : Fin 6)].t1 = some 1 ∧ sliced.tb.peer[(1 : Fin 6)].t1 = none ∧ sliced.fab.valid = true ∧
    sliced.fab.origin = true ∧ sliced.fab.parent = some 0 ∧ sliced.fab.parent ≠ some 1 ∧ sliced.fab.ports[(0 : Fin 6)].mode = 1 ∧ sliced.tb.lastSync = some 0 ∧
    5000000 ≤ (sliced.tb.cnt - 0).toNat ∧ sliced.tb.dom[sliced.fabDom].state = .locked ∧ sliced.fabDom = 1 ∧ sliced.tb.lastBridge[(0 : Fin 2)] = some 0 ∧
    50000000 ≤ (sliced.tb.cnt - 0).toNat ∧ sliced.tb.lastBridge[(1 : Fin 2)] = none ∧ State.reset.tb.lastSync = none ∧ State.reset.fab.origin = false := by decide +kernel

/-- Messages that pass, one of each type that fails, and the module between power loops. -/
theorem witness_TimeOnPortsAndLinks_messages : let m : MgmtHead := ⟨1, 0, true⟩
    let s := { sliced with crn := { sliced.crn with mode := .running, loopAt := sliced.tb.cnt, thermAt := sliced.tb.cnt } }
    (∀ sub ∈ [0x10, 0x11, 0x12], s.fab.mgmtStop 0 sub m = none ∧ s.fab.mgmtStop 0 sub ⟨63, 0, true⟩ = some 3) ∧
    s.fab.mgmtStop (trunkPort 0) 0x13 m = none ∧ s.fab.mgmtStop (trunkPort 0) 0x13 ⟨1, 0, false⟩ = some 1 ∧ s.serves .management = true ∧
    s.crn.mgmtQ = [] ∧ crownLoop.serves .management = false ∧ (portIn 4).state = 4 ∧ (portIn 0).state < 2 := by decide +kernel

/-! ### Witnesses: Gauntlet, faults and Cloche -/

/-- Gauntlet in a mode, with one stream at index 0. -/
def gaunt (m : GntMode) (t : Stream) (f : GntState → GntState) : State :=
  { withDdr State.reset with gnt := f { GntState.reset with mode := m, strm := GntState.reset.strm.set 0 t } }
def strmOn : Stream := { Stream.reset with w0 := BitVec.ofNat 64 (2 ^ 63 + 5 * 2 ^ 58) }
def note (seq : BitVec 32) : Notice := ⟨seq, 0, false, false, 0, 0, 4, 7, 0, 0, 0⟩
def pairOn (seq : BitVec 32) (a b : Bool) (res : Option (Nat × BitVec 32)) : Pair := ⟨seq, false, if a then some (note seq) else none, if b then some (note seq) else none, res, false⟩
/-- A notice of 4 bytes at 0 for scan 0 of stream 0. -/
def noteWord : BitVec 256 := BitVec.ofNat 256 (4 * 2 ^ 192)
theorem witness_NoticesAndVerdicts_notice : let s := gaunt .armed strmOn id
    (leBytes 32 noteWord.toNat).length = 32 ∧ s.pathDma 0 0x20 = true ∧ s.pathDma 1 0x20 = false ∧ stage32 s.gnt.nqStage[(0 : Fin 2)] 0 (leBytes 32 noteWord.toNat) = noteWord ∧
    s.noticeBad 0 0x20 noteWord = false ∧ s.noticeBad 1 0x20 noteWord = true ∧ s.noticeBad 0 0x20 (BitVec.ofNat 256 (524289 * 2 ^ 192)) = true ∧
    (gaunt .off strmOn id).noticeBad 0 0x20 noteWord = true ∧ (gaunt .off Stream.reset id).gnt.strm[(0 : Fin 64)].en = false := by decide +kernel
theorem witness_NoticesAndVerdicts_pairs : let t := { strmOn with pairs := [pairOn 5 false true none], judged := [4] }
    (note 4).sid = 0 ∧ (note 4).golden = false ∧ (note 4).scanseq ∈ t.judged ∧ (note 5).scanseq ∉ t.judged ∧
    t.pair 5 false = some (pairOn 5 false true none) ∧ (pairOn 5 false true none).notice 0 = none ∧ ((pairOn 5 false true none).notice (1 - 0)).isSome = true := by decide +kernel
theorem witness_NoticesAndVerdicts_compare : let s := gaunt .armed { strmOn with pairs := [pairOn 5 true true none] } fun g => { g with cmpq := [(0, 5)] }
    s.gnt.cmpq = (0, 5) :: [] ∧ s.gnt.mode = .armed ∧ s.gnt.strm[(0 : Fin 64)].pair 5 false = some (pairOn 5 true true none) ∧
    (pairOn 5 true true none).n0 = some (note 5) ∧ (pairOn 5 true true none).n1 = some (note 5) ∧ State.reset.gnt.cmpq = [] ∧ 3 ≤ strmOn.fmt := by decide +kernel
theorem witness_NoticesAndVerdicts_verdict : let s := gaunt .armed { strmOn with pairs := [pairOn 5 true true (some (0, 0))] } id
    s.gnt.strm[(0 : Fin 64)].pairs = pairOn 5 true true (some (0, 0)) :: [] ∧ s.verdOf 0 (pairOn 5 true true (some (0, 0))) = some 0 ∧
    s.gnt.mainNotice (pairOn 5 true true (some (0, 0))) = some (note 5) ∧ s.verdOf 0 (pairOn 5 true true none) = none ∧ s.gnt.mode ≠ .safe ∧ s.gnt.mode ≠ .failed ∧
    ((6 : BitVec 32) - 1) ∈ [(5 : BitVec 32)] := by decide +kernel
theorem witness_NoticesAndVerdicts_age : let s := { gaunt .armed strmOn id with tb := { State.reset.tb with cnt := 1 } }
    s.armed = true ∧ State.reset.armed = false ∧ (∀ j : Fin 64, j ≠ 0 → s.gnt.strm[j].en = false) ∧ s.gnt.strm[(0 : Fin 64)].en = true ∧
    s.gnt.strm[(0 : Fin 64)].stale = false ∧ s.gnt.strm[(0 : Fin 64)].pairs = [] ∧
    (s.gnt.strm[(0 : Fin 64)].maxAge : Int) < (s.strmNow 0 - s.gnt.strm[(0 : Fin 64)].ref).toInt := by decide +kernel

/-- A pair not too old, at its limit and beyond it, and one of which a notice was discarded. -/
theorem witness_NoticesAndVerdicts_late : let s (n : Word) := { gaunt .armed strmOn id with tb := { State.reset.tb with cnt := n } }
    let r := pairOn 5 true false none
    (s 0).armed = true ∧ r.golden = false ∧ (s 0).gnt.mainNotice r = some (note 5) ∧
    (s 0).tb.dom[strmOn.dom].steppedAfter (s 0).tb.cnt r.notices 0 strmOn.maxAge = false ∧
    (strmOn.maxAge : Int) < ((s 1).strmNow 0 - (note 5).base).toInt ∧ ((s 0).strmNow 0 - (note 5).base).toInt ≤ (strmOn.maxAge : Int) ∧
    ({ r with dropped := true } : Pair).dropped = true ∧ r.dropped = false ∧ (gaunt .off strmOn id).gnt.mode ≠ .safe ∧
    (gaunt .safe strmOn id).gnt.mode = .safe ∧ (1 : Nat) < 2 ∧ (2 : Nat) ≤ 2 ∧ (5 : Nat) < 6 := by decide +kernel

/-- A module that may be armed: 8 slots for each path and the minima of DDR_BW. -/
def armable : State := { State.reset with ddr := { State.reset.ddr with bw := #v[8, BitVec.ofNat 64 (8 * 2 ^ 7)] }, ing := { State.reset.ing with slotmap := 0x5555 } }
theorem witness_GoldenAndFences_arm : armable.armFails = none ∧ armable.gnt.mode = .off ∧ armable.gnt.dozed = false ∧ armable.coresSafe = true ∧
    State.reset.ddr.pathsSafe = false ∧ ({ State.reset with crn := { CrnState.reset with unlocked := true } } : State).crn.unlocked = true ∧
    (gaunt .armed strmOn id).gnt.mode ≠ .off ∧ (gaunt .armed strmOn id).armed = true := by decide +kernel
theorem witness_GoldenAndFences_armFenced : let s := { armable with gnt := { armable.gnt with fence := 1 } }
    s.armFails = none ∧ s.gnt.mode = .off ∧ s.gnt.dozed = false ∧ s.gnt.fence ≠ 0 ∧ armable.gnt.fence = 0 := by decide +kernel
/-- CCLK of die 0 at V6 and off it, stopped, back for a tick, and in a change of voltage. -/
theorem witness_GoldenAndFences_monitors : let s := { gaunt .armed strmOn id with pwr := { PwrState.reset with mode := .run } }
    let w (f : DieMon → DieMon) : State := s.modMon 0 f
    s.watched (.cclk 0) = true ∧ s.monitorOk (.cclk 0) 1 = false ∧ State.reset.watched .xd = false ∧ s.monitorOk .xd 1050000 = true ∧
    s.monitorOk .xd 1050001 = false ∧ (w fun k => { k with stopped := true }).gnt.mon[(0 : Fin 4)].stopped = true ∧
    ((w fun k => { k with back := some 0 }).gnt.mon[(0 : Fin 4)].back = some 0 ∧ ((999 : Word) - 0).toNat < 1000 ∧ s.gnt.mon[(0 : Fin 4)].stopped = false) ∧
    (w fun k => { k with other := some (3, 0) }).gnt.mon[(0 : Fin 4)].other = some (3, 0) ∧ ((50000 : Word) - 0).toNat ≤ 50000 := by decide +kernel
theorem witness_GoldenAndFences_startTests : (gaunt .test strmOn id).gnt.startTests = true ∧ (gaunt .off strmOn id).gnt.startTests = false ∧
    (gaunt .test strmOn id).armed = false ∧ (gaunt .off strmOn id).armed = false := by decide +kernel
/-- A fenced path that waits to be readmitted, one that does not, and the path that still runs. -/
theorem witness_GoldenAndFences_again : let s := gaunt .single strmOn fun g => { g with fence := 1, readmit := 1, cut15 := 1 }
    let u := gaunt .single strmOn fun g => { g with fence := 1 }
    s.gnt.mode = .single ∧ bit s.gnt.fence 0 = true ∧ bit s.gnt.readmit 0 = true ∧ bit u.gnt.fence 0 = true ∧ bit u.gnt.readmit 0 = false ∧
    bit u.gnt.fence 1 = false ∧ bit s.gnt.cut15 0 = true := by decide +kernel
theorem witness_GoldenAndFences_tests : let s := { gaunt .test Stream.reset id with pwr := { PwrState.reset with mode := .run } }
    s.gnt.mode = .test ∧ s.pwr.mode = .run ∧ s.pwr.start = .none ∧ s.gnt.dozed = false ∧ s.gnt.wasArmed = false ∧
    (gaunt .test Stream.reset fun g => { g with wasArmed := true }).gnt.wasArmed = true := by decide +kernel
/-- Pattern 3 on sensor 0, whose newest sweep is sweep 1; `per` is PER and `dr` how many were deferred. -/
def golden (per dr : Nat) (def' forced : Bool) : State := { gaunt .armed strmOn fun g => { g with gpat := g.gpat.set 3 (BitVec.ofNat 256 (2 ^ 63 + per * 2 ^ 16)), defrun := dr, defer := def', forced := if forced then 8 else 0 } with
  ing := { State.reset.ing with sn := State.reset.ing.sn.set 0 { SensState.reset with newest := some (1, 0) } } }
theorem witness_GoldenAndFences_opportunity :
    (∀ j : Fin 4, j ≠ 3 → (golden 1 0 false false).oppDue j = none) ∧ (golden 1 0 false false).oppDue 3 = some (1, 0) ∧
    (∀ j : Fin 4, State.reset.oppDue j = none) ∧ gpPer (golden 1 0 false false).gnt.gpat[(3 : Fin 4)] ≤ (golden 1 0 false false).gnt.since[(3 : Fin 4)] + 1 ∧
    ¬ (bit (golden 2 0 false false).gnt.forced 3 = true ∨ gpPer (golden 2 0 false false).gnt.gpat[(3 : Fin 4)] ≤ (golden 2 0 false false).gnt.since[(3 : Fin 4)] + 1) := by decide +kernel
theorem witness_GoldenAndFences_defer :
    (golden 1 0 false false).gnt.defer = false ∧ (golden 1 2 true false).gnt.defer = true ∧ bit (golden 1 2 true false).gnt.forced 3 = false ∧
    (golden 1 2 true false).gnt.defrun < 3 ∧ 3 ≤ (golden 1 3 true false).gnt.defrun ∧ bit (golden 9 0 true true).gnt.forced 3 = true ∧
    (golden 1 2 true false).oppDue 3 = some (1, 0) ∧ (golden 9 0 true true).oppDue 3 = some (1, 0) := by decide +kernel
/-- One run of pattern 0 injected at 0; `table` says that stream 0 is in the pattern's table. -/
def goldRuns (table : Bool) : State := { gaunt .armed strmOn fun g => { g with runs := [⟨0, 1, 0, false⟩], store := if table then Mem.write [] 8 [1] else [] } with tb := { State.reset.tb with cnt := 100000000 } }
theorem witness_GoldenAndFences_runs : let r : GoldenRun := ⟨0, 1, 0, false⟩
    (goldRuns false).armed = true ∧ (goldRuns false).gnt.runs.find? (goldRuns false).gnt.runComplete = some r ∧ (goldRuns true).gnt.runs = [r] ∧
    (goldRuns true).gnt.runComplete r = false ∧ 100000000 ≤ ((goldRuns true).tb.cnt - r.cnt).toNat ∧ (gaunt .armed strmOn id).gnt.runs = [] := by decide +kernel
theorem witness_GoldenAndFences_fence :
    (gaunt .armed strmOn id).gnt.mode = .armed ∧ (gaunt .single strmOn id).gnt.mode = .single ∧ bit (gaunt .single strmOn id).gnt.fence 1 = false := by decide +kernel
def routedToGnt (m : GntMode) (code : Code) (part : Option (Fin 4)) : State := { gaunt m strmOn id with evt := { State.reset.evt with gntQ := [⟨code, 0, 0, part, true, false⟩] } }
theorem witness_GoldenAndFences_routed :
    (routedToGnt .off 0x1089 none).armed = false ∧ (routedToGnt .off 0x1089 none).evt.gntQ = ⟨0x1089, 0, 0, none, true, false⟩ :: [] ∧ safeCode 0x1089 = false ∧
    (routedToGnt .armed 0x4031 none).armed = true ∧ (routedToGnt .armed 0x4031 none).evt.gntQ = ⟨0x4031, 0, 0, none, true, false⟩ :: [] ∧ safeCode 0x4031 = true ∧
    (routedToGnt .armed 0x1089 (some 1)).armed = true ∧ coreFenceCode 0x1089 = true ∧ (some 1 : Option (Fin 4)) = some (pathPart 1) ∧ State.reset.evt.gntQ = [] := by decide +kernel

/-- A fence and a safe-state cause in one µs, and in two. -/
theorem witness_GoldenAndFences_routedTogether : let x : Posted := ⟨0x1089, 0, 0, some 1, true, false⟩
    let y (n : Word) : Posted := ⟨0x9060, 0xC7, n, none, true, false⟩
    let z : Posted := ⟨0x2098, 0xC1, 0, none, true, false⟩
    [x, y 499].find? (safeWith x) = some (y 499) ∧ (∀ q ∈ x :: [y 500], safeWith x q = false) ∧ coreFenceCode x.code.toNat = true ∧ x.part = some (pathPart 1) ∧
    (∀ q ∈ z :: [], safeWith z q = false) ∧ z.code = BitVec.ofNat 16 (0x2090 + (8 : Fin 16).val) ∧ safeWith ⟨0x6090, 0xC5, 0, none, true, false⟩ x = false := by decide +kernel

/-! ### Witnesses: the fault block -/

/-- All partitions in a state, Gauntlet in a mode. -/
def parts (x : PartState) (m : GntMode) : State := { gaunt m strmOn id with flt := { FltState.reset with part := Vector.replicate 4 x } }
theorem witness_FaultBlock_states : ¬ ((0x62 : Ini) = 0x60 ∨ (0x62 : Ini) = 0x70) ∧ (0x60 : Ini) = 0x60 ∧
    (parts .running .off).flt.part[(2 : Fin 4)] = .running ∧ ¬ (isSafety 2 = true ∧ (parts .running .off).armed = true) ∧
    isSafety 1 = true ∧ (parts .running .armed).armed = true ∧
    (parts .held .off).flt.part[(1 : Fin 4)] ≠ .running ∧ (parts .held .off).armed = false ∧ (parts .held .off).flt.peff = (parts .held .off).flt.pmap := by decide +kernel
theorem witness_FaultBlock_map : let f := FltState.reset
    (0x70 : Ini) = 0x70 ∧ (0x60 : Ini) ≠ 0x70 ∧ f.mapRefused f.pmap = false ∧
    isSafety (mapPart f.peff 0) = true ∧ mapPart (BitVec.allOnes 64) 0 ≠ mapPart f.peff 0 := by decide +kernel
theorem witness_FaultBlock_release :
    (parts .running .off).flt.part[(1 : Fin 4)] ≠ .restarting ∧ (parts .restarting .off).flt.part[(1 : Fin 4)] = .restarting ∧
    (parts .restarting .off).gnt.keeps 1 = false ∧ isSafety 1 = true ∧ (parts .restarting .off).flt.rowGroups = [] ∧
    (∀ c : CoreId, (parts .restarting .off).flt.lost' c = false) ∧
    ({ (parts .restarting .off) with gnt := { (parts .restarting .off).gnt with fence := 2, stuck := 2 } } : State).gnt.keeps 1 = true := by decide +kernel
theorem witness_FaultBlock_log :
    let q : Posted := ⟨0x6090, 0x10, 7, none, false, false⟩
    let s := { State.reset with crn := { CrnState.reset with mode := .running }, evt := { EvtState.reset with crownQ := [q] } }
    s.crn.mode = .running ∧ s.evt.crownLost = 0 ∧ s.evt.crownQ = q :: [] ∧ loggedCode q.code.toNat = true ∧
    s.serves .faults = true ∧ ({ crownLoop with evt := s.evt } : State).serves .faults = false ∧
    s.flt.table.length + s.flt.repairQ.length + s.flt.rowUe.length + s.flt.rowErr.length < 511 ∧ State.reset.crn.mode ≠ .running ∧ s.flt.table.length < 512 := by decide +kernel

/-! ### Witnesses: Cloche -/

/-- GEN of a static installation, or of a belt, with 4 cells of 10 by 10. -/
def genBytes (belt : Bool) : List Byte :=
  [if belt then 1 else 0, 1, 1, 1] ++ leBytes 2 10 ++ leBytes 2 1 ++ leBytes 2 4 ++ [255, 0] ++ zeros 12 ++ leBytes 4 3 ++ zeros 36
/-- Sensor entry 0: enabled, for the source of `goodDatagram` on port 0. -/
def cloSensor : List Byte := leBytes 32 (1 + 8081 * 2 ^ 16 + leNat goodDatagram.src * 2 ^ 32)
def cloOn : CloState := { CloState.reset with on := true, pvalid := true, refValid := true, blocks := [(0, genBytes false), (16, cloSensor)] }
def cloche (f : CloState → CloState) : State := { withDdr State.reset with clo := f cloOn }
def capture (kind : Nat) : CloCap := { (cloche id).newCap kind with blocks := cloOn.blocks }
theorem witness_ClocheMeasuring_state :
    State.reset.clo.on = false ∧ cloOn.on = true ∧ cloOn.sealOpen ≠ true ∧ cloOn.cap = none ∧ cloOn.nofw = false ∧
    State.reset.ing.tap = [] ∧ cloOn.queue = [] ∧ genOk (genBytes false) = true ∧ genOk (genBytes true) = true := by decide +kernel
theorem witness_ClocheMeasuring_tap :
    let f : RxFrame := ⟨zeros 60, 5, 6, none⟩
    let g : RxFrame := ⟨goodFrame, 5, 6, none⟩
    let s := { cloche id with ing := { (cloche id).ing with tap := [(0, f), (0, g)] } }
    s.ing.tap = (0, f) :: [(0, g)] ∧ s.clo.on = true ∧ s.clo.nofw = false ∧ parseFrame f.bytes = .other ∧
    parseFrame g.bytes = .udp goodDatagram ∧ cloMatch s.clo.params 0 goodDatagram = some 0 := by decide +kernel
theorem witness_ClocheMeasuring_points : let c := capture 1
    let g := blockBytes c.blocks 0
    ((7 : Nat) ≤ gRetmax g ∧ (0 : Int).fdiv (gE g) < gNx g ∧ (39 : Int).fdiv (gE g) < gNy g) ∧ ¬ ((40 : Int).fdiv (gE g) < gNy g) ∧
    (SMap.get (0, 0) c.cells 3).2 < 255 ∧ 255 ≤ (SMap.get (0, 0) ({ c with cells := [(3, (0, 255))] } : CloCap).cells 3).2 := by decide +kernel
theorem witness_ClocheMeasuring_captures :
    let s := { cloche fun x => { x with cap := some (capture 1) } with tb := { TbState.reset with cnt := 1000000000 } }
    s.clo.cap = some (capture 1) ∧ (capture 1).kind = 1 ∧ ({ capture 1 with closed := Vector.replicate 4 1 } : CloCap).full = true ∧
    (capture 1).kind ≠ 2 ∧ (capture 1).full = false ∧ 1000000000 ≤ (s.tb.cnt - (capture 1).lastAt).toNat ∧ (capture 3).kind = 3 ∧
    gCells (genBytes false) - (defCells (genBytes false) none [(2, (5, 1))]).length ≤ gEmptymax (genBytes false) := by decide +kernel
theorem witness_ClocheMeasuring_queue : ({ cloOn with queue := [(1, zeros 512)] } : CloState).queue = (1, zeros 512) :: [] ∧ (0 : Nat) < 1 := by decide +kernel

/-! ### Witnesses: Cloche's commands -/

/-- Channel A holds a command with its argument bytes. -/
def channel (opc : Byte) (args : List Byte) : CloChan := { CloChan.reset with area := Mem.write [] 0 ([opc, 0, 0, 0] ++ args), exec := true }
def commanded (opc : Byte) (args : List Byte) (f : CloState → CloState) : State := cloche fun x => { f x with chA := channel opc args }
theorem witness_ClocheCommands : let s := commanded 1 [] id
    s.clo.nextChan = some false ∧ s.clo.nofw = false ∧ (s.clo.chA.area.byte 0).toNat = 1 ∧ (∀ opc : Byte, ((channel opc []).area.byte 0).toNat = opc.toNat) := by decide +kernel
/-- A command with its reserved byte set, and one without. -/
theorem witness_ClocheCommands_reserved : let s := cloche fun x => { x with chA := { CloChan.reset with area := Mem.write [] 0 [6, 1, 0, 0], exec := true } }
    s.clo.nextChan = some false ∧ s.clo.nofw = false ∧ s.clo.chA.area.byte 1 ≠ 0 ∧ (s.clo.chA.area.byte 0).toNat = 6 ∧
    (commanded 6 [] id).clo.chA.area.byte 1 = 0 := by decide +kernel
theorem witness_ClocheMeasuring_lost : ([0] : List (Fin 50)) ≠ [] ∧ cloOn.lost = [] ∧ ({ cloOn with sealOpen := true } : CloState).sealOpen ≠ false := by decide +kernel
theorem witness_ClocheCommands_getrec : let s := commanded 0xC (leBytes 8 7) fun x => { x with recs := [(7, zeros 512)] }
    s.clo.nextChan = some false ∧ s.clo.nofw = false ∧ (s.clo.chA.area.byte 0).toNat = 0xC ∧
    s.clo.recs.find? (fun r => r.1.toNat = s.clo.chA.arg 0 8) = some (7, zeros 512) ∧ cloOn.recs = [] := by decide +kernel
theorem witness_ClocheCommands_setparam : let s := commanded 4 (leBytes 4 0 ++ leBytes 4 60 ++ leBytes 4 4) fun x => { x with sealOpen := true }
    s.clo.nextChan = some false ∧ s.clo.nofw = false ∧ (s.clo.chA.area.byte 0).toNat = 4 ∧ s.clo.sealOpen = true ∧ cloOn.sealOpen = false ∧
    cloSize (s.clo.chA.arg 0 4) ≠ 0 ∧ s.clo.chA.arg 8 4 ≤ 240 ∧ s.clo.chA.arg 4 4 + s.clo.chA.arg 8 4 ≤ cloSize (s.clo.chA.arg 0 4) := by decide +kernel
theorem witness_ClocheCommands_commit : let s := commanded 5 (leBytes 4 0) fun x => { x with sealOpen := true }
    s.clo.nextChan = some false ∧ s.clo.nofw = false ∧ (s.clo.chA.area.byte 0).toNat = 5 ∧ s.clo.sealOpen = true ∧ s.clo.evcnt ≠ 0xFFFFFFFF ∧
    ({ cloOn with evcnt := 0xFFFFFFFF } : CloState).evcnt = 0xFFFFFFFF ∧ cloSize (s.clo.chA.arg 0 4) ≠ 0 ∧
    blockOk (s.clo.chA.arg 0 4) (s.clo.stagedBlock (s.clo.chA.arg 0 4)) = true := by decide +kernel
theorem witness_ClocheCommands_captures : cloOn.cap = none ∧ cloOn.pvalid = true ∧ cloOn.refValid = true ∧ cloOn.belt = false ∧
    ({ cloOn with blocks := [(0, genBytes true)] } : CloState).belt = true ∧ ({ cloOn with refValid := false } : CloState).refValid = false ∧
    ({ cloOn with cap := some (capture 2) } : CloState).cap = some (capture 2) ∧ (capture 2).kind = 2 ∧ (capture 1).kind ≠ 2 ∧
    ((commanded 7 [] id).clo.nextChan = some false ∧ (commanded 7 [] id).clo.cap = none ∧ (commanded 7 [] id).clo.belt = false) := by decide +kernel
/-- One region that excludes P0 and P1 but not masters 2 and 3, open to Crown and Cloche. -/
def DDR' : DdrState := { DDR with rgn := DDR.rgn.set 0 (BitVec.ofNat 64 (wd [(63, 1), (56, 12), (52, 12), (50, 1), (51, 1), (10, 16)])) }
theorem witness_ClocheCommands_export : let s := commanded 0xE (leBytes 6 4096 ++ leBytes 6 8191) id
    s.clo.nextChan = some false ∧ s.clo.nofw = false ∧ (s.clo.chA.area.byte 0).toNat = 0xE ∧
    DDR'.exportOk (s.clo.chA.arg 0 6) (s.clo.chA.arg 6 6) = true ∧ s.ddr.exportOk (s.clo.chA.arg 0 6) (s.clo.chA.arg 6 6) = false := by decide +kernel
theorem witness_ClocheCommands_fwload : let s := commanded 0x10 (leBytes 4 1000 ++ leBytes 4 4) fun x => { x with sealOpen := true }
    s.clo.nextChan = some false ∧ s.clo.nofw = false ∧ (s.clo.chA.area.byte 0).toNat = 0x10 ∧ s.clo.sealOpen = true ∧
    s.clo.chA.arg 4 4 ≤ 240 ∧ s.clo.chA.arg 0 4 + s.clo.chA.arg 4 4 ≤ 524288 := by decide +kernel
/-- FWCOMMIT: all but `Config.cloImageOk`, which has no body, so no evaluation can meet it. -/
theorem witness_ClocheCommands_fwcommit : let s := commanded 0x11 (leBytes 4 524288) fun x => { x with sealOpen := true }
    s.clo.nextChan = some false ∧ s.clo.nofw = false ∧ (s.clo.chA.area.byte 0).toNat = 0x11 ∧ s.clo.sealOpen = true ∧
    s.clo.evcnt ≠ 0xFFFFFFFF ∧ 0 < s.clo.chA.arg 0 4 ∧ s.clo.chA.arg 0 4 ≤ 524288 := by decide +kernel
theorem witness_ClocheCommands_onB : let u := cloche fun x => { x with chB := channel 5 [] }
    u.clo.nextChan = some true ∧ (u.clo.chB.area.byte 0).toNat = 5 := by decide +kernel

/-! ### Witnesses: Crown -/

/-- The module runs, and Crown with it. -/
def crownUp (f : CrnState → CrnState) : State := { State.reset with ddr := DDR', crn := f { CrnState.reset with mode := .running }, pwr := { PwrState.reset with mode := .run } }
def lateBase (s : State) (n : Nat) : State := { s with tb := { s.tb with cnt := BitVec.ofNat 64 n } }
theorem witness_CrownLoops_load : let s := lateBase (crownUp fun c => { c with coal := true, lowSince := some 0 }) 500000000
    (crownUp id).crn.mode = .running ∧ (crownUp id).pwr.mode = .run ∧ (crownUp id).crn.coal = false ∧ (80 : Nat) ≤ 80 ∧ (80 : Nat) < 81 ∧
    s.crn.mode = .running ∧ s.pwr.mode = .run ∧ s.crn.coal = true ∧
    (if (69 : Nat) < 70 then some (s.crn.lowSince.getD s.tb.cnt) else none) = some (0 : Word) ∧ 500000000 ≤ (s.tb.cnt - 0).toNat := by decide +kernel
/-- Die 0 at 95.1 degrees, die 1 at 95, the rest at 25. -/
def hot : PwrState := { PwrState.reset with mode := .run, hbCause := true, eff := Vector.ofFn fun k : Fin 24 => if k.val < 4 then 1521 else if k.val < 8 then 1520 else 400 }
theorem witness_CrownLoops_thermal : (∃ x ∈ dieExcess hot 0, 0 < x) ∧ (∀ x ∈ dieExcess hot 1, x ≤ 0) ∧ (∃ x ∈ dieExcess hot 1, -80 < x) ∧
    hot.brim 2 = true ∧ PwrState.reset.hbCause = false ∧ bit (1 : Word) 0 = true ∧ hot.brims ≠ 0 ∧ ({ hot with hbCause := false } : PwrState).brims = 0 := by decide +kernel
theorem witness_CrownLoops_rest : CrnState.reset.ring = none ∧ ({ CrnState.reset with ring := some ⟨0, 1024⟩ } : CrnState).ring = some ⟨0, 1024⟩ ∧
    ({ CrnState.reset with hbMissed := true } : CrnState).hbMissed = true ∧ CrnState.reset.update = none ∧
    (0x62 : Ini) ≠ 0x70 ∧ (crownUp fun c => { c with imageBad := true }).crn.imageOk = false := by decide +kernel
theorem witness_CrownLoops_challenge : let s := lateBase (crownUp fun c => { c with chal := some ⟨zeros 32, 1⟩ })
    (s 30000000001).crn.chal = some ⟨zeros 32, 1⟩ ∧ 30000000000 ≤ ((s 30000000001).tb.cnt - 1).toNat ∧ ((s 30000000000).tb.cnt - 1).toNat < 30000000000 := by decide +kernel
/-- Crown between its loops; with a request, an event or a Sync in front of telemetry. -/
theorem witness_CrownLoops_classes : (crownUp id).serves .telemetry = true ∧ (crownUp id).serves .requests = true ∧ (crownUp id).crn.mode = .running ∧
    (crownUp fun c => { c with pcie := { c.pcie with queue := [⟨1, 0, []⟩] } }).requestsReady = true ∧
    ({ crownUp id with evt := { EvtState.reset with crownQ := [⟨0x6090, 0, 0, none, false, false⟩] } } : State).faultsReady = true ∧
    ((crownUp id).modServo 0 fun q => { q with due := [⟨0, 1, 2, 3, 4⟩] }).loopsReady = true := by decide +kernel
/-- A request of `n` bytes in the 256 bytes of MBX_REQ. -/
def requestBytes (opc n tail : Nat) : List Byte := leBytes 2 opc ++ leBytes 2 77 ++ leBytes 2 n ++ zeros 246 ++ leBytes 4 tail
theorem witness_MailboxChannels_submit : let m (n tail : Nat) := CrnState.reset.reqArea.write 0 (requestBytes 1 n tail)
    (requestBytes 1 0 0).length = 256 ∧ reqBad (m 245 0) = true ∧ reqBad (m 0 1) = true ∧ reqBad (m 0 0) = false ∧ (crownUp id).pwr.mode = .run ∧
    (crownUp id).crn.outstanding < 32 ∧ 32 ≤ (crownUp fun c => { c with rwidx := 32 }).crn.outstanding ∧ bytesIn 255 (zeros 1) 256 = true := by decide +kernel
theorem witness_MailboxChannels_smbus : let data := leBytes 2 3 ++ leBytes 2 9 ++ leBytes 2 2 ++ leBytes 2 0 ++ [1, 2]
    let m := Mem.write [] 0 data
    8 ≤ data.length ∧ data.length ≤ 252 ∧ 252 < (zeros 255).length ∧ m.num 4 2 = data.length - 8 ∧ m.num 6 2 = 0 ∧ (crownUp id).crn.smbOutstanding < 4 ∧
    4 ≤ (crownUp fun c => { c with smbRsp := List.replicate 4 ⟨1, 0, 0, []⟩ }).crn.smbOutstanding ∧
    (crownUp fun c => { c with smbRsp := List.replicate 4 ⟨1, 0, 0, []⟩ }).crn.smbRsp = ⟨1, 0, 0, []⟩ :: List.replicate 3 ⟨1, 0, 0, []⟩ ∧
    (crownUp id).crn.smbRsp = [] := by decide +kernel
/-- Crown with requests waiting on each channel. -/
def mailing (p q : List MbxReq) (f : CrnState → CrnState) : State := crownUp fun c => { f c with pcie := { (f c).pcie with queue := p }, smb := { (f c).smb with queue := q } }
theorem witness_MailboxChannels_order : let r : MbxReq := ⟨0x10, 1, []⟩
    let a : MbxReq := ⟨3, 2, zeros 32⟩
    (mailing [r] [a] id).crn.pcie.queue = r :: [] ∧ (mailing [r] [a] id).crn.smb.queue = a :: [] ∧ (mailing [r] [] id).crn.nextReq = some (false, r) ∧
    (mailing [] [r] id).crn.nextReq = some (true, r) ∧ (mailing [] [r] id).crn.mode = .running ∧ r.opc = 0x10 ∧ r.opc ≠ 1 ∧
    (mailing [a] [] fun c => { c with mode := .recovery }).crn.mode = .recovery ∧ (mailing [a] [] fun c => { c with mode := .recovery }).crn.nextReq = some (false, a) ∧
    a.opc = 3 ∧ (crownUp id).crn.nextReq = none ∧ (crownUp fun c => { c with mode := .rom }).crn.mode = .rom := by decide +kernel
/-- One request of an opcode and its bytes waits on the PCIe channel. -/
def asked (opc : BitVec 16) (data : List Byte) (f : CrnState → CrnState) : State := mailing [⟨opc, 1, data⟩] [] f
/-- What every clause asks of the state. -/
abbrev Due (opc : BitVec 16) (data : List Byte) (f : CrnState → CrnState) : Prop := let s := asked opc data f
  s.mbxServes = true ∧ s.serves .requests = true ∧ s.crn.nextReq = some (false, ⟨opc, 1, data⟩) ∧ s.mbxAllowed false opc.toNat = true
theorem witness_MailboxCommands_due : ∀ x ∈ ([(1, 0), (2, 0), (3, 32), (3, 31), (4, 6), (5, 3), (0x10, 12), (0x11, 0), (0x20, 2), (0x21, 4), (0x28, 2), (0x29, 19),
    (0x30, 12), (0x31, 0), (0x38, 5), (0x40, 1), (0x48, 0), (0x49, 0)] : List (Nat × Nat)), Due (BitVec.ofNat 16 x.1) (zeros x.2) id ∧ (zeros x.2).length = x.2 := by decide +kernel
theorem witness_MailboxCommands_recovery : ∀ x ∈ ([(0x18, 8), (0x19, 4)] : List (Nat × Nat)), Due (BitVec.ofNat 16 x.1) (zeros x.2) (fun c => { c with mode := .recovery }) := by
  decide +kernel
theorem witness_MailboxCommands_buffers : let r : MbxReq := ⟨4, 1, leBytes 2 9 ++ leBytes 2 3856 ++ leBytes 2 240⟩
    let q : MbxChan := { CrnState.reset.pcie with resTag := some 9 }
    r.data.length = 6 ∧ q.resTag = some (BitVec.ofNat 16 (r.num 0 2)) ∧ r.num 4 2 ≤ 240 ∧ r.num 2 2 + r.num 4 2 ≤ 4096 ∧
    (CrnState.reset.chan false).resTag ≠ some (BitVec.ofNat 16 (r.num 0 2)) ∧ (⟨5, 1, leBytes 2 4095 ++ [7]⟩ : MbxReq).num 0 2 + 1 ≤ 4096 := by decide +kernel
theorem witness_MailboxCommands_fwUpdate : let r : MbxReq := ⟨0x10, 1, leBytes 8 4096 ++ leBytes 4 64⟩
    let s := asked 0x10 r.data id
    Due 0x10 r.data id ∧ r.data.length = 12 ∧ s.crn.update = none ∧ r.num 8 4 ≤ 4194304 ∧ s.ddr.insideFor [50] (r.num 0 8) (r.num 8 4) = true ∧
    s.ddr.admitsAll .crown false (r.num 0 8) (r.num 8 4) = true ∧ s.ddr.answers (s.ddr.bursts (r.num 0 8) (r.num 8 4)) = true ∧
    (s.ddr.bursts (r.num 0 8) (r.num 8 4)).find? s.ddr.isBad = none ∧ imgFault (zeros 64) s.crn.minSvn ≠ none ∧
    ({ CrnState.reset with update := some (zeros 64) } : CrnState).update ≠ none := by decide +kernel
theorem witness_MailboxCommands_recover : let c := { CrnState.reset with mode := .recovery }
    let r : MbxReq := ⟨0x18, 1, leBytes 4 4194300 ++ zeros 4⟩
    4 ≤ r.data.length ∧ r.data.length ≤ 244 ∧ r.num 0 4 + (r.data.length - 4) ≤ 4194304 ∧ (⟨0x19, 1, leBytes 4 64⟩ : MbxReq).num 0 4 ≤ 4194304 ∧
    imgFault (c.staging.read 0 64) c.minSvn = some 5 := by decide +kernel
theorem witness_MailboxCommands_items :
    (∃ bs, (crownUp id).calItem 0x40 = some bs ∧ bs.length ≤ 240) ∧ calRefusal 0 [80, 0] = none ∧ calRefusal 0 [81, 0] = some 2 ∧
    (29 : Nat) < 30 ∧ (⟨0x29, 1, leBytes 2 26 ++ leBytes 16 5 ++ [2]⟩ : MbxReq).num 18 1 = 2 ∧
    cfgValid 26 (BitVec.ofNat 128 ((⟨0x29, 1, leBytes 2 26 ++ leBytes 16 5 ++ [2]⟩ : MbxReq).num 2 16)) = true := by
  refine ⟨⟨_, rfl, ?_⟩, ?_⟩ <;> decide +kernel
theorem witness_MailboxCommands_telemetry : let r : MbxReq := ⟨0x30, 1, leBytes 8 4096 ++ leBytes 4 1024⟩
    r.num 8 4 = 1024 ∧ (crownUp id).ddr.insideFor [50, 51] (r.num 0 8) 131072 = true ∧ CrnState.reset.newest = [] ∧
    ({ CrnState.reset with newest := zeros 128 } : CrnState).newest ≠ [] ∧ (⟨0x38, 1, leBytes 4 0 ++ [64]⟩ : MbxReq).num 4 1 ≤ 64 := by decide +kernel
/-- The token: a challenge and its refusals; `Config.dbgSigOk` has no body, so no evaluation can meet the acceptance. -/
theorem witness_MailboxCommands_token : (crownUp id).chalValid = false ∧ (crownUp fun c => { c with chal := some ⟨zeros 32, 0⟩ }).chalValid = true ∧
    (gaunt .armed strmOn id).armed = true ∧ (crownUp id).tokenOk = false := by decide +kernel

/-! ### Witnesses: events and the host interface -/

def posted (code : Code) (cnt : Word) : Posted := ⟨code, 0x10, cnt, none, false, false⟩
def events (f : EvtState → EvtState) : State := { State.reset with evt := f EvtState.reset }
def routeAll : Word := BitVec.ofNat 64 (2 ^ 63 + 2 ^ 62 + 7 * 2 ^ 36)
/-- Three codes wait. -/
def codes : List Posted := [posted 0x3001 9, posted 0x3002 4, posted 0x3003 4]
theorem witness_EventsAndMessages_first : firstPosted codes = some (posted 0x3002 4) ∧ EvtState.reset.incoming = [] ∧ codeToCrown 0x3002 = false ∧
    (events fun e => { e with incoming := codes }).toGnt (posted 0x3002 4) = false := by decide +kernel
theorem witness_EventsAndMessages_none : ∀ w ∈ EvtState.reset.routes.toList, rtMatches w 0x3002 = false := by
  intro w hw
  have h : w ∈ Vector.replicate 256 (0 : Word) := Vector.mem_toList_iff.mp hw
  rw [(Vector.mem_replicate.mp h).2]; decide +kernel
def routed (w : Word) : State := events fun e => { e with incoming := codes, routes := e.routes.set 0 w }
def routeSyn : Word := BitVec.ofNat 64 (2 ^ 63 + 2 ^ 61)
theorem witness_EventsAndMessages_route : (routed routeAll).evt.routes.toList.find? (fun w => rtMatches w (0x3002 : Code)) = some routeAll := by decide +kernel
theorem witness_EventsAndMessages_syn : rtSyn routeAll = false ∧ rtSyn routeSyn = true ∧
    (routed routeSyn).evt.routes.toList.find? (fun w => rtMatches w (0x3002 : Code)) = some routeSyn := by decide +kernel
theorem witness_EventsAndMessages_deliver : let e := { EvtState.reset with toRing := [(posted 1 1, 7)] }
    let c := { EvtState.reset with toCrown := [posted 1 1] }
    e.toRing = (posted 1 1, 7) :: [] ∧ e.depth ≠ 1024 ∧ ({ e with widx := 1024 } : EvtState).depth = 1024 ∧ c.toRing = [] ∧ c.toCrown = posted 1 1 :: [] ∧
    c.crownQ.length < 1024 ∧ 1024 ≤ ({ c with crownQ := List.replicate 1024 (posted 1 1) } : EvtState).crownQ.length ∧ e.toCrown = [] := by decide +kernel
/-- A function that may send message 5, which is pending. -/
def mayMessage : PciFn := { PciFn.reset with busMaster := true, msixEn := true, vects := [(5, ⟨0x1000, 3, false, true⟩)] }
theorem witness_EventsAndMessages_pending : (mayMessage.vect 5).pending = true ∧ mayMessage.blocked 5 = false ∧ PciFn.reset.blocked 5 = true ∧
    (mayMessage.vect 6).pending = false := by decide +kernel
theorem witness_EventsAndMessages_routes : fld routeAll 58 3 = 0 ∧ fld routeAll 32 4 = 0 ∧ State.reset.armed = false ∧ fld (BitVec.allOnes 64) 58 3 ≠ 0 ∧
    (gaunt .armed strmOn id).rtSafety (BitVec.ofNat 64 (2 ^ 61)) = true ∧ (gaunt .armed strmOn id).armed = true ∧
    fld (BitVec.ofNat 64 (2 ^ 61)) 58 3 = 0 := by decide +kernel
/-- The host sees the whole module: it has started and been tested, and PF0 answers memory accesses. -/
def hosted (f : PciState → PciState) : State := { crownUp id with ddr := { DDR' with cfg := DDR'.cfg ||| BitVec.ofNat 64 (2 ^ 63), rgn := DDR'.rgn.set 0 (DDR'.rgn[(0 : Fin 16)] ||| BitVec.ofNat 64 (2 ^ 48 + 2 ^ 49)) }, pci := f { PciState.reset with linkUp := true, pf0 := { PciFn.reset with memEn := true } } }
theorem witness_HostInterface_ready : (hosted id).pf0Memory = true ∧ (hosted id).onlyCrn = false ∧ (hosted id).pci.linkUp = true ∧
    (hosted fun p => { p with linkUp := false }).pci.linkUp = false ∧ (hosted id).pwr.mode = .run ∧ State.reset.pwr.mode ≠ .run ∧ State.reset.pwr.mode ≠ .doze ∧
    State.reset.pf0Memory = false ∧ (hosted id).pf0Ready = true ∧ (hosted id).pf1Ready = false ∧ State.reset.pf0Ready = false := by decide +kernel
theorem witness_HostInterface_access : hostWindowOk 0x3FFFFF (zeros 1) = true ∧ hostDdrOk (.read 4096) = true ∧ hostReadOk .bar0 0x3FFFFFC 4 = true ∧
    (0xC0000000 : Nat) % 2 ^ (PciState.reset.pf0.bar4Size + 30) = 0 ∧ (0x40000000 : Nat) % 2 ^ (1 + 30) ≠ 0 ∧
    regWriteOk (.bar0 pf0) 8 (zeros 8) = true ∧ (0x3FFFFF8 : Nat) % 8 = 0 ∧ ¬ (0x1000000 ≤ (0x3FFFFF8 : Nat) ∧ (0x3FFFFF8 : Nat) < 0x2000000) ∧
    (0x3FFFFFC : Nat) % 8 ≠ 0 ∧ hostReadOk .bar0 4 8 = true ∧ (4 : Nat) % 8 ≠ 0 := by decide +kernel
theorem witness_HostInterface_alive : (hosted id).pcieAlive = true ∧ State.reset.pcieAlive = false ∧ (zeros 512).length ≤ 512 ∧
    (0 : Nat) + 512 ≤ 2 ^ (hosted id).pci.pf0.bar4Size * 2 ^ 30 ∧ ({ hosted id with pwr := { PwrState.reset with mode := .doze } } : State).pwr.mode = .doze ∧
    regWriteOk (.bar0 pf0) 0 (zeros 4) = true := by decide +kernel
theorem witness_HostInterface_ddr : let s := hosted id
    4096 + 4 ≤ 2 ^ s.pci.pf0.bar4Size * 2 ^ 30 ∧ s.ddr.admitsAll .host false (s.pci.apbase.toNat + 4096) 4 = true ∧
    s.ddr.answers (s.ddr.bursts 4096 4) = true ∧ (s.ddr.bursts 4096 4).find? s.ddr.isBad = none := by decide +kernel

/-! ### Witnesses: power, temperature and restarts -/

/-- The power block in a state. -/
def power (f : PwrState → PwrState) : State := { State.reset with pwr := f PwrState.reset }
theorem witness_PowerAndTemperature_dvfs : let p := PwrState.reset
    fld (0x01 : Word) 4 3 < fld (0x01 : Word) 0 3 ∧ ({ p with hbCause := true } : PwrState).brim 3 = true ∧ ptFp p.pt 3 < fld (0x11000000 : Word) 24 3 ∧
    (∀ e : Fin 4, fld (0x66666666 : Word) (8 * e.val) 3 ≤ fld (0x66666666 : Word) (8 * e.val + 4) 3) ∧ (∀ e : Fin 4, p.brim e = false) ∧
    (∀ e : Fin 4, ptFp p.pt e ≤ ptVp p.pt e) ∧ (∀ e : Fin 4, fld (0 : Word) (8 * e.val + 4) 3 ≤ ptVp p.pt e) ∧ (0x60 : Ini) ≠ 0x70 := by decide +kernel
theorem witness_PowerAndTemperature_brim : let p := PwrState.reset
    let q := { p with ocLow := 4, ocCause := 4, pt := 0x00210000, settle := p.settle.set 2 (some 0x44) }
    p.settle[(2 : Fin 4)] = none ∧ q.settle[(2 : Fin 4)] = some 0x44 ∧ ({ q with ocCause := 0 } : PwrState).brim 2 = false ∧
    bit p.ocCause 2 = false ∧ p.pinCause = false ∧ ({ p with pinCause := true } : PwrState).brims ≠ 0 ∧ p.brims = 0 ∧
    bit q.ocLow 2 = true ∧ 0 < ptFp q.pt 2 ∧ bit p.ocLow 2 = false ∧ ptFp p.pt 2 = 0 := by decide +kernel
theorem witness_PowerAndTemperature_nap : let s := power fun p => { p with mode := .run, ctl := 0x10000 }
    s.mainUp = true ∧ s.pwr.napEn = true ∧ (∀ c ∈ dieCores 1, s.coreIdle c = true) ∧ PwrState.reset.napEn = false := by decide +kernel
theorem witness_PowerAndTemperature_modes : let s := power fun p => { p with mode := .run }
    s.pwr.mode = .run ∧ s.pwr.trip = false ∧ State.reset.pwr.mode = .off ∧ s.pwr.mode ≠ .off ∧ s.pwr.aoClkLost = false ∧
    (0x62 : Ini) ≠ 0x60 ∧ (0x62 : Ini) ≠ 0x70 ∧ s.armed = false ∧ (∀ c : CoreId, s.cores[c].seq.phase = .idle) ∧
    ({ s with gnt := { s.gnt with mode := .armed } } : State).armed = true := by decide +kernel
theorem witness_PowerAndTemperature_mismatch : let s := power fun p => { p with mode := .run }
    let w := s.modCore 8 fun k => { k with spd := { k.spd with slots := k.spd.slots.set 0 { k.spd.slots[(0 : Fin 4)] with state := .pending } } }
    s.mainUp = true ∧ (∃ c ∈ dieCores 1, w.cores[c].waiting = true) ∧ (w.modMon 1 fun k => { k with stopped := true }).gnt.mon[(1 : Fin 4)].stopped = true ∧
    (∃ c ∈ dieCores 1, w.coreIdle c = false) ∧ s.gnt.mon[(0 : Fin 4)].vp ≠ fld (0 : Word) 4 3 ∧ pf0.val = 0x60 := by
  have h8 : (8 : CoreId) ∈ dieCores 1 := by decide +kernel
  refine ⟨by decide +kernel, ⟨8, h8, by decide +kernel⟩, by decide +kernel, ⟨8, h8, by decide +kernel⟩, by decide +kernel, by decide +kernel⟩
/-- No sensor at its trip point, whatever `Config.factoryTemp` is. -/
theorem witness_PowerAndTemperature_cool : ∃ raw : Vector (BitVec 16) 24, ∀ k : Fin 24, raw[k].toInt + (Config.factoryTemp k.val).toInt < tripAt k := by
  refine ⟨Vector.replicate 24 (BitVec.ofInt 16 (-32768)), fun k => ?_⟩
  have h : (Vector.replicate 24 (BitVec.ofInt 16 (-32768)))[k] = BitVec.ofInt 16 (-32768) := by simp
  have h2 : (BitVec.ofInt 16 (-32768)).toInt = -32768 := by decide
  have h3 := BitVec.toInt_lt (x := Config.factoryTemp k.val)
  have h4 : (1600 : Int) ≤ tripAt k := by unfold tripAt; split <;> decide
  rw [h, h2]; omega
/-- Sensor 0 at its trip point, for every offset in the fuses but one colder than 1,937 degrees. -/
theorem witness_PowerAndTemperature_trip (h : -31007 ≤ (Config.factoryTemp 0).toInt) :
    ∃ raw : Vector (BitVec 16) 24, ∃ k : Fin 24, tripAt k ≤ raw[k].toInt + (Config.factoryTemp k.val).toInt := by
  refine ⟨Vector.replicate 24 0x7FFF, 0, ?_⟩
  have h1 : (Vector.replicate 24 (0x7FFF : BitVec 16))[(0 : Fin 24)] = 0x7FFF := by decide
  have h2 : (0x7FFF : BitVec 16).toInt = 32767 := by decide
  have h3 : tripAt 0 = 1760 := by decide
  rw [h1, h2, h3]; show (1760 : Int) ≤ 32767 + (Config.factoryTemp 0).toInt; omega
/-- Sixteen like DIMMs of 16 GiB that train. -/
def goodStart : StartEnv := ⟨false, 0, false, [], Vector.replicate 16 ⟨true, true, 3200, 16, 1, 4, 8, true, false⟩⟩
def off (m : PwrMode) (f : PwrState → PwrState) : State := power fun p => { f p with mode := m }
theorem witness_Restarts : goodStart.testEn = false ∧ startBad goodStart = [] ∧ State.reset.pwr.mode = .off ∧ (off .aoOnly id).pwr.mode ≠ .off ∧
    (off .aoOnly id).pwr.mode = .aoOnly ∧ (off .aoOnly id).pwr.rstLow = false ∧ (off .aoOnly fun p => { p with rstLow := true }).pwr.rstLow = true ∧
    (State.reset.crn.cutUpdate false).imageOk = true ∧ (({ CrnState.reset with imageBad := true } : CrnState).cutUpdate false).imageOk = false ∧
    (∀ x ∈ State.reset.crn.stored, x.1 ≠ 18) := by decide +kernel
theorem witness_Restarts_warm : let s := { off .run id with flt := { FltState.reset with mrst := .warm } }
    s.pwr.mode = .run ∧ s.flt.mrst = .warm ∧ s.pwr.start = .none ∧ s.pwr.rstLow = false ∧ s.pwr.trip = false ∧ s.flt.mrst ≠ .cold ∧
    FltState.reset.mrst ≠ .warm ∧ (off (.held .warm) id).pwr.mode = .held .warm ∧ (off (.held .warm) id).pwr.trip = false ∧ s.crn.imageOk = true := by decide +kernel
theorem witness_Restarts_trip : let s := lateBase (off .aoOnly fun p => { p with trip := true, cool := some 0 }) 5000000000
    s.pwr.trip = true ∧ s.cooled = true ∧ s.pwr.mode = .aoOnly ∧ State.reset.pwr.trip = false ∧ State.reset.cooled = false := by decide +kernel
theorem witness_Restarts_doze : (off .doze id).pwr.mode = .doze ∧ (off .doze id).pwr.rstLow = false ∧ (off .doze fun p => { p with rstLow := true }).pwr.rstLow = true ∧
    (off .doze id).pwr.start ≠ .cold ∧ State.reset.pwr.mode ≠ .doze := by decide +kernel

/-! ### Witnesses: the whole module -/

theorem witness_EveryCommandCompletes : (Instr.wf (.powerOff false)) = true ∧ (Instr.wf (.mbxSubmit pf0 0 [])) = false := by decide +kernel
def waiting (c : List Instr) : State := { State.reset with pending := c }
theorem witness_ModuleNeverStops : (waiting [.powerOff false]).queueOk ∧ State.reset.queueOk := by
  unfold State.queueOk; decide +kernel
theorem witness_TimeBaseCounts : ∃ t, step State.reset = .next t ∧ State.reset.pending = [] := ⟨_, rfl, rfl⟩
theorem witness_TimeBaseCounts_command : ∃ t, step (waiting [.powerOff false]) = .next t ∧ (waiting [.powerOff false]).pending = .powerOff false :: [] := ⟨_, rfl, rfl⟩
/-- COMMIT of a staged GEN with the seal open changes the blocks; the end of a ZERO changes the reference. -/
theorem witness_OnlyThreeThingsChangeCloche : let s := { commanded 5 (leBytes 4 0) fun x => { x with sealOpen := true, staged := [(0, genBytes true)] } with pending := [.commit] }
    s.clo.sealOpen = true ∧ s.pending.head? = some .commit ∧ cloSize (s.clo.chA.arg 0 4) ≠ 0 ∧ blockBytes s.clo.blocks 0 ≠ s.clo.stagedBlock 0 ∧
    blockOk 0 (s.clo.stagedBlock 0) = true := by decide +kernel
theorem witness_NoRollback : ∃ t, step State.reset = .next t := ⟨_, rfl⟩
theorem witness_MemoryStaysCanonical : State.reset.memOk ∧ ∃ t, step State.reset = .next t := by
  refine ⟨?_, _, rfl⟩
  unfold State.memOk; decide +kernel
/-- One region of 16 GiB. -/
theorem witness_RegionsNeverOverlap : ({ State.reset with ddr := DDR } : State).ddr.regionsApart ∧ ∃ t, step { State.reset with ddr := DDR } = .next t := by
  refine ⟨fun i j hij hi hj => ?_, _, rfl⟩
  have only : ∀ k : Fin 16, rgnEn DDR.rgn[k] = true → k = 0 := by decide +kernel
  exact absurd ((only i hi).trans (only j hj).symm) hij
end Sys2Proof.Tests
end

/-! The proofs: what the module holds after reset, and the PCI Express host interface. -/

section
namespace Sys2Proof.Machine

/-! ### Shared operations -/

/-- Operands in range: the command's meaning. -/
theorem inRange_of_ok {s t : State} {ok : Bool} (h : ok = true) : inRange s ok t = .next t := by simp [inRange, h]

/-- An initiator that is no core and no core's DMA engine posts for no partition (R425). -/
theorem State.post_of_block {src : Ini} (h : 0x40 ≤ src.toNat) (s : State) (code : Nat) :
    s.post code src = s.postPart code src none := by
  have hc : coreOfIni src = none := if_neg (by omega)
  simp [State.post, State.srcPart, hc]

/-- Bytes that do not reach past their unit are one piece. -/
theorem cut_within {unit a : Nat} {bs : List Byte} (fuel : Nat) (hne : bs ≠ []) (h : bs.length ≤ unit - a % unit) :
    cut unit (fuel + 1) a bs = [(a, bs)] := by
  have hrest : ∀ n x, cut unit n x [] = [] := by intro n x; cases n <;> simp [cut]
  simp [cut, hne, List.take_of_length_le h, List.drop_of_length_le h, hrest]

/-- A register write inside one doubleword is one access. -/
theorem State.regWrite_within {off : Nat} {data : List Byte} (s : State) (ini : Ini) (hne : data ≠ [])
    (h : data.length ≤ 8 - off % 8) : s.regWrite ini off data = s.regPut ini off data := by
  simp [State.regWrite, cut_within (data.length / 8 + 1) hne h]

/-! ### The state after reset -/

/-- Every core is a core after reset. -/
theorem State.reset_cores (c : CoreId) : State.reset.cores[c] = CoreSt.reset := by
  simp [State.reset]

/-- No DDR region is set up. -/
theorem State.reset_rgn (i : Fin 16) : State.reset.ddr.rgn[i] = 0 := by
  simp [State.reset, DdrState.reset]

/-- Logical core c is physical core c mod 8 of its own die (R18). -/
theorem State.reset_bind (c : CoreId) : State.reset.flt.bind[c] = some (9 * (c.val / 8) + c.val % 8) := by
  simp [State.reset, FltState.reset]

theorem State.reset_queueOk : State.reset.queueOk := fun _ h => nomatch h

/-- Every byte memory is empty, which is canonical. -/
theorem State.reset_memOk : State.reset.memOk := by
  refine ⟨rfl, fun c => ?_, rfl, fun p => ?_⟩
  · rw [State.reset_cores]; rfl
  · simp [State.reset, TbState.reset, TxPort.reset]

/-- Registers of 0 enable no region. -/
theorem DdrState.regionsApart_of_rgn_zero {d : DdrState} (h : ∀ i : Fin 16, d.rgn[i] = 0) : d.regionsApart := by
  intro i _ _ hi
  rw [h i] at hi
  exact absurd hi (by decide)

/-- Settles O3: field by field, each a value of `State.reset`. -/
theorem resetValues : Obligations.ResetValues := by
  refine ⟨rfl, rfl, rfl, rfl, rfl, rfl, rfl, rfl, rfl, rfl, rfl, State.reset_rgn, rfl, fun c => ?_, State.reset_bind, rfl, rfl,
    rfl, State.reset_queueOk, State.reset_memOk, DdrState.regionsApart_of_rgn_zero State.reset_rgn⟩
  rw [State.reset_cores]; rfl

/-! ### When the host interface answers (R488, R491, R498) -/

section
variable {s : State}

/-- PF0 takes memory requests in RUN only. -/
theorem State.run_of_pf0Memory (h : s.pf0Memory = true) : s.pwr.mode = .run := by
  simp only [State.pf0Memory, State.pf0Ready, Bool.and_eq_true, decide_eq_true_eq] at h
  obtain ⟨⟨⟨hrun, -⟩, -⟩, -⟩ := h
  exact hrun

theorem State.pcieAlive_of_run (h : s.pwr.mode = .run) : s.pcieAlive = true := by simp [State.pcieAlive, h]

theorem State.pcieAlive_of_doze (h : s.pwr.mode = .doze) : s.pcieAlive = true := by simp [State.pcieAlive, h]

theorem State.not_pcieAlive (h : s.pwr.mode ≠ .run) (h' : s.pwr.mode ≠ .doze) : s.pcieAlive = false := by
  simp [State.pcieAlive, h, h']

/-- An Unsupported Request is counted, and as a correctable error too. -/
theorem State.unsupportedBy_corr (pf1 : Bool) : (s.unsupportedBy pf1).pci.corr = min 0xFFFF (s.pci.corr + 1) := by
  cases pf1 <;> rfl

theorem State.unsupportedBy_urc (pf1 : Bool) : (s.unsupportedBy pf1).pci.urc = min 0xFFFF (s.pci.urc + 1) := by
  cases pf1 <;> rfl

theorem State.unsupportedBy_out (pf1 : Bool) : (s.unsupportedBy pf1).out = s.out ++ [.hostCompletion none] := by
  cases pf1 <;> rfl

/-! ### Link and resets (R485, R492) -/

theorem State.linkUp_first (sp : Fin 5) (w : Fin 3) (hr : s.pwr.mode = .run) (hl : s.pci.linkUp = false) :
    s.linkUp sp w = { s with pci := { s.pci with
      linkUp := true, speed := BitVec.ofNat 3 (sp.val + 1), width := BitVec.ofNat 3 (2 ^ w.val) } }.postPart 0xA001 0xC1 none := by
  simp only [State.linkUp, hr, hl, if_true, Bool.false_eq_true, if_false]
  exact State.post_of_block (by decide) ..

theorem State.linkUp_stopped (sp : Fin 5) (w : Fin 3) (hr : s.pwr.mode ≠ .run) : s.linkUp sp w = s := if_neg hr

theorem State.linkDown_up (hl : s.pci.linkUp = true) :
    s.linkDown = { s with pci := { s.pci with linkUp := false } }.postPart 0xA002 0xC1 none := by
  simp only [State.linkDown, hl, if_true]
  exact State.post_of_block (by decide) ..

theorem State.linkDown_down (hl : s.pci.linkUp = false) : s.linkDown = s := by simp [State.linkDown, hl]

/-- Whether or not the link was up, it is down. -/
theorem State.linkDown_pci : s.linkDown.pci = { s.pci with linkUp := false } := by
  cases hl : s.pci.linkUp with
  | true => rw [State.linkDown_up hl]; rfl
  | false => rw [State.linkDown_down hl, ← hl]

theorem State.linkDown_ddr : s.linkDown.ddr = s.ddr := by
  cases hl : s.pci.linkUp with
  | true => rw [State.linkDown_up hl]; rfl
  | false => rw [State.linkDown_down hl]

theorem State.pcieReset_pci : s.pcieReset.pci = { s.pci with
    linkUp := false, retr := 0, apbase := 0, hwin := PciState.reset.hwin, pf0 := PciFn.reset, pf1 := PciFn.reset } := by
  simp only [State.pcieReset, State.linkDown_pci]
  rfl

theorem State.flr0_eq : s.flr0 = { s with pci := { s.pci with
    apbase := 0, hwin := PciState.reset.hwin
    pf0 := { PciFn.reset with bar4Size := s.pci.pf0.bar4Size } } }.postPart 0xA020 0xC1 none :=
  State.post_of_block (by decide) ..

/-! ### PCI registers (R489, R490) -/

section
variable {ini : Ini} (v : Word)

/-- Only host PF0 and Crown write PCI_APBASE and PCI_HWIN. -/
theorem State.apbaseWrite_other (h : Half) (hi : ¬ (ini = 0x60 ∨ ini = 0x70)) : s.apbaseWrite ini h v = s :=
  if_pos (not_or.mp hi)

theorem State.hwinWrite_other (k : Fin 32) (h : Half) (hi : ¬ (ini = 0x60 ∨ ini = 0x70)) : s.hwinWrite k ini h v = s :=
  if_pos (not_or.mp hi)

/-- Their write of PCI_APBASE: BASE must be a multiple of the BAR4 size. -/
theorem State.apbaseWrite_full (hi : ini = 0x60 ∨ ini = 0x70) : s.apbaseWrite ini .full v =
    let w := v &&& 0x0000FFFFC0000000#64
    if w.toNat % 2 ^ (s.pci.pf0.bar4Size + 30) = 0 then { s with pci := { s.pci with apbase := w } }
    else s.postPart 0xA005 0xC1 none := by
  have hi' : ¬ (ini ≠ 0x60 ∧ ini ≠ 0x70) := fun h => not_or.mpr h hi
  have hpost : s.post 0xA005 0xC1 = s.postPart 0xA005 0xC1 none := State.post_of_block (by decide) ..
  simp only [State.apbaseWrite, if_neg hi', mergeHalf, ← Nat.pow_add, hpost, ne_eq, ite_not]

theorem State.hwinWrite_full (k : Fin 32) (hi : ini = 0x60 ∨ ini = 0x70) : s.hwinWrite k ini .full v =
    { s with pci := { s.pci with hwin := s.pci.hwin.set k (v &&& 0x3F) } } :=
  if_neg fun h => not_or.mpr h hi

end

/-! ### Host windows and the DDR aperture (R489, R490) -/

theorem State.hostWindow_reaches {k : Fin 32} {off : Nat} {data : List Byte} (hm : s.pf0Memory = true) (hc : s.onlyCrn = false) :
    s.hostWindow k off data .none = s.windowWrites (Fin.ofNat 32 (fld s.pci.hwin[k] 0 5)) 0x60
      (fld s.pci.hwin[k] 5 1 * 0x400000 + off) data := by
  simp [State.hostWindow, State.pcieAlive_of_run (State.run_of_pf0Memory hm), hm, hc]

theorem State.hostWindow_dropped {k : Fin 32} {off : Nat} {data : List Byte} (hm : s.pf0Memory = false) :
    s.hostWindow k off data .none = s := by
  simp [State.hostWindow, hm]

/-- A request that fails ECRC is dropped before anything else is looked at. -/
theorem State.hostDdr_ecrc {off : Nat} {op : DdrOp} (ha : s.pcieAlive = true) : s.hostDdr off op .ecrc = s.tlpDrop .ecrc := by
  simp [State.hostDdr, ha]

/-- A read inside BAR4 that PF0 takes is answered as DDR answers it. -/
theorem State.hostDdr_read {off n : Nat} (hm : s.pf0Memory = true) (hc : s.onlyCrn = false)
    (hb : off + n ≤ 2 ^ s.pci.pf0.bar4Size * 2 ^ 30) {t : State} {bs : List Byte}
    (hd : s.ddrRead .host (s.pci.apbase.toNat + off) n = (t, some bs)) :
    s.hostDdr off (.read n) .none = t.emit (.hostCompletion (some bs)) := by
  simp [-Nat.reducePow, State.hostDdr, State.pcieAlive_of_run (State.run_of_pf0Memory hm), hm, hc, DdrOp.size, hb, hd]

theorem State.hostDdr_write {off : Nat} {d : List Byte} (hm : s.pf0Memory = true) (hc : s.onlyCrn = false)
    (hb : off + d.length ≤ 2 ^ s.pci.pf0.bar4Size * 2 ^ 30) :
    s.hostDdr off (.write d) .none = s.ddrPut .host (s.pci.apbase.toNat + off) d := by
  simp [-Nat.reducePow, State.hostDdr, State.pcieAlive_of_run (State.run_of_pf0Memory hm), hm, hc, DdrOp.size, hb]

/-! ### Reads and register writes (R9, R487, R488) -/

theorem State.hostRead_dead {b : HostSpace} {off n : Nat} (h : s.pcieAlive = false) : s.hostRead b off n .none = s := by
  simp [State.hostRead, h]

theorem State.hostRead_bar0 {off n : Nat} (h : s.pcieAlive = true) : s.hostRead .bar0 off n .none = s.readBar0 off n := by
  simp [State.hostRead, h]

/-- A doubleword of a register outside the SPD blocks, whose read wakes no die. -/
theorem State.readBar0_doubleword {off : Nat} (hm : s.pf0Memory = true) (hc : s.onlyCrn = false) (ho : off % 8 = 0)
    (hs : ¬ (0x1000000 ≤ off ∧ off < 0x2000000)) : s.readBar0 off 8 = s.complete (s.regBytes off 8) := by
  have hspd : offIn 0x1000000 0x1000000 off = false := by
    simp only [offIn, Bool.and_eq_false_iff, decide_eq_false_iff_not]; omega
  simp [State.readBar0, hm, hc, barAligned, ho, hspd]

/-- A read that PF0 does not take, or that is not an aligned 4 or 8 bytes. -/
theorem State.readBar0_unsupported {off n : Nat} (h : s.pf0Memory = false ∨ off % n ≠ 0 ∨ (n ≠ 4 ∧ n ≠ 8)) :
    s.readBar0 off n = s.unsupportedBy false := by
  refine if_pos ?_
  obtain hm | ho | ⟨h4, h8⟩ := h
  · simp [hm]
  · simp [barAligned, ho]
  · simp [barAligned, h4, h8]

/-- The host's aligned write inside a doubleword that PF0 takes reaches its register. -/
theorem State.bar0Put_host {off : Nat} {data : List Byte} (hm : s.pf0Memory = true) (hc : s.onlyCrn = false)
    (ho : off % 8 = 0) (hl : data.length = 8) : s.bar0Put 0x60 off data = s.regPut 0x60 off data := by
  have hne : data ≠ [] := List.ne_nil_of_length_eq_add_one hl
  rw [← State.regWrite_within s 0x60 hne (by omega)]
  simp [State.bar0Put, hm, hc, barAligned, hl, ho]

/-- Off RUN no register is written. -/
theorem State.regAccess_stopped {b : RegSpace} {off : Nat} {data : List Byte} {f : TlpFault} (h : s.pwr.mode ≠ .run) :
    s.regAccess b off data f = s := if_pos h

theorem State.regAccess_bar0 {ini : Initiator} {off : Nat} {data : List Byte} (h : s.pwr.mode = .run) :
    s.regAccess (.bar0 ini) off data .none = s.bar0Put ini off data := by
  simp [State.regAccess, h]

/-! ### Configuration requests (R491) -/

variable {pf1 : Bool} {op : CfgOp}

theorem State.cfgRequest_dead (h : s.pcieAlive = false) : s.cfgRequest pf1 op = s := by simp [State.cfgRequest, h]

theorem State.cfgRequest_doze (h : s.pwr.mode = .doze) : s.cfgRequest pf1 op = s.unsupportedBy pf1 := by
  simp [State.cfgRequest, State.pcieAlive_of_doze h, h]

/-- In RUN a function that is not ready answers with retry, and one that is ready does what is asked. -/
theorem State.cfgRequest_run (h : s.pwr.mode = .run) : s.cfgRequest pf1 op =
    if (if pf1 then s.pf1Ready else s.pf0Ready) = true then
      (s.modFn pf1 fun f => f.config pf1 op).emit (.cfgCompletion pf1 (some (if op = .readId then fnId pf1 else 0)))
    else s.emit (.cfgCompletion pf1 none) := by
  simp only [State.cfgRequest, State.pcieAlive_of_run h, h, Bool.not_true, Bool.false_eq_true, if_false, reduceCtorEq,
    Bool.not_eq_true', ← Bool.not_eq_true, ite_not]

end

/-! ### The statement -/

/-- Settles O51: each clause is the lemma above on its operation; operands are in range where the clause says so. -/
theorem hostInterface : Obligations.HostInterface := by
  intro s ini h v p withPci host
  refine ⟨?linkUp, ?linkStopped, ?linkDown, ?linkIsDown, ?reset, ?flr0, ?flr1, ?apbase, ?hwin, ?otherInitiator, ?window,
    ?windowDropped, ?ecrc, ?ddrRead, ?ddrWrite, ?readDead, ?readWord, ?readUnsupported, ?regWrite, ?regStopped, ?cfgDoze,
    ?cfgDead, ?counts, ?cfgRetry, ?cfgDone⟩
  case linkUp => exact fun sp w hr hl => congrArg _ (State.linkUp_first sp w hr hl)
  case linkStopped => exact fun sp w hr => congrArg _ (State.linkUp_stopped sp w hr)
  case linkDown => exact fun hl => congrArg _ (State.linkDown_up hl)
  case linkIsDown => exact fun hl => congrArg _ (State.linkDown_down hl)
  case reset => exact ⟨_, rfl, State.pcieReset_pci, State.linkDown_ddr⟩
  case flr0 => exact congrArg Host.Outcome.next State.flr0_eq
  case flr1 =>
    refine ⟨_, rfl, rfl, rfl, ?_⟩
    simp [State.flr1, State.post_of_block]
  case apbase =>
    exact ⟨fun hi hw => congrArg _ ((State.apbaseWrite_full v hi).trans (if_pos hw)),
      fun hi hw => congrArg _ ((State.apbaseWrite_full v hi).trans (if_neg hw))⟩
  case hwin => exact fun k hi => congrArg _ (State.hwinWrite_full v k hi)
  case otherInitiator =>
    exact fun k hi => ⟨congrArg _ (State.hwinWrite_other v k h hi), congrArg _ (State.apbaseWrite_other v h hi)⟩
  case window =>
    intro k off data hok hm hc
    rw [exec_hostWindowWrite, execHostWindowWrite, inRange_of_ok hok, State.hostWindow_reaches hm hc]
  case windowDropped =>
    intro k off data hok hm
    rw [exec_hostWindowWrite, execHostWindowWrite, inRange_of_ok hok, State.hostWindow_dropped hm]
  case ecrc =>
    intro off op hok ha
    rw [exec_hostDdrAccess, execHostDdrAccess, inRange_of_ok hok, State.hostDdr_ecrc ha]
    exact ⟨_, rfl, rfl, rfl, rfl⟩
  case ddrRead =>
    intro off n _ hn hm hc hb bs hd
    have hok : hostDdrOk (.read n) = true := decide_eq_true hn
    rw [exec_hostDdrAccess, execHostDdrAccess, inRange_of_ok hok, State.hostDdr_read hm hc hb hd]
  case ddrWrite =>
    intro off d h1 h512 hm hc hb
    have hok : hostDdrOk (.write d) = true := by simp [hostDdrOk, between, h1, h512]
    rw [exec_hostDdrAccess, execHostDdrAccess, inRange_of_ok hok, State.hostDdr_write hm hc hb]
  case readDead =>
    intro b off n hok hr hd
    rw [exec_hostRead, execHostRead, inRange_of_ok hok, State.hostRead_dead (State.not_pcieAlive hr hd)]
  case readWord =>
    intro off ho hb hm hc hs
    have hok : hostReadOk .bar0 off 8 = true := by simp [hostReadOk, HostSpace.size, hb]
    rw [exec_hostRead, execHostRead, inRange_of_ok hok, State.hostRead_bar0 (State.pcieAlive_of_run (State.run_of_pf0Memory hm)),
      State.readBar0_doubleword hm hc ho hs]
    rfl
  case readUnsupported =>
    intro off n hok hr hbad
    rw [exec_hostRead, execHostRead, inRange_of_ok hok, State.hostRead_bar0 (State.pcieAlive_of_run hr),
      State.readBar0_unsupported hbad]
    exact ⟨_, rfl, State.unsupportedBy_out false, State.unsupportedBy_urc false⟩
  case regWrite =>
    intro off data ho hl hb hm hc
    have hok : regWriteOk (.bar0 pf0) off data = true := by simp [regWriteOk, bytesIn, RegSpace.size, hl, hb]
    rw [exec_registerWrite, execRegisterWrite, inRange_of_ok hok, State.regAccess_bar0 (State.run_of_pf0Memory hm)]
    exact congrArg _ (State.bar0Put_host hm hc ho hl)
  case regStopped =>
    intro off data f hok hr
    rw [exec_registerWrite, execRegisterWrite, inRange_of_ok hok, State.regAccess_stopped hr]
  case cfgDoze => exact fun pf1 op hd => congrArg _ (State.cfgRequest_doze hd)
  case cfgDead => exact fun pf1 op ha => congrArg _ (State.cfgRequest_dead ha)
  case counts => exact fun pf1 => ⟨State.unsupportedBy_corr pf1, State.unsupportedBy_urc pf1⟩
  case cfgRetry =>
    intro pf1 op hr hready
    exact congrArg _ ((State.cfgRequest_run hr).trans (if_neg (by simp [hready])))
  case cfgDone => exact fun pf1 op hr hready => congrArg _ ((State.cfgRequest_run hr).trans (if_pos hready))

end Sys2Proof.Machine
end

/-! The proofs: completion of engine commands, and the event unit. -/

section
namespace Sys2Proof.Machine

/-! ### An engine command completes (R27, R69, R187) -/

/-- SETOP of a command (R69). -/
def SpdState.applySetop (p : SpdState) (x : EngCmd) : SpdState :=
  if x.setop = 1 then p.setTag x.settag true else if x.setop = 2 then p.setTag x.settag false else p

/-- CSYNC of a command (R69). -/
def SpdState.applyCsync (p : SpdState) (x : EngCmd) : SpdState :=
  if x.csen then { p with sync := SMap.set 0 p.sync x.csync (SMap.get 0 p.sync x.csync + 1) } else p

/-- Core `k` once engine `e` has completed `x`: flush, SETOP, CSYNC, and `x` is no longer started. -/
def CoreSt.completed (k : CoreSt) (e : Fin 7) (x : EngCmd) (rest : List ActiveCmd) : CoreSt :=
  { k with
    spd := ((k.spd.flushIf fun y => bit y.owners e.val).applySetop x).applyCsync x
    engines := k.engines.set e { k.engines[e] with active := rest } }

section
variable {s : State} {c : CoreId} {e : Fin 7} {x : EngCmd} {rest : List ActiveCmd}

/-- The signal of a command whose CSEN may be 0 is its CSYNC on the scratchpad. -/
theorem State.csync_eq : (if x.csen then s.syncAdd c x.csync 1 else s) = s.modSpd c fun p => p.applyCsync x := by
  unfold SpdState.applyCsync
  split
  · rfl
  · exact (State.modCore_self s c).symm

/-- The oldest started command of an engine, once performed, completes. -/
theorem State.engineComplete_performed (h : s.cores[c].engines[e].active = ⟨x, true⟩ :: rest) :
    s.engineComplete c e = s.modCore c fun k => k.completed e x rest := by
  simp only [State.engineComplete, h, if_true, State.csync_eq, State.modEng, State.modSpd]
  split
  case h_1 hset => simp only [State.modCore_modCore, CoreSt.completed, SpdState.applySetop, hset, if_true]
  case h_2 hclear =>
    simp only [State.modCore_modCore, CoreSt.completed, SpdState.applySetop, hclear, if_neg (show ¬ 2 = 1 by decide), if_true]
  case h_3 hset hclear =>
    simp only [State.modCore_modCore, CoreSt.completed, SpdState.applySetop, if_neg hset, if_neg hclear]

/-- Whether the command that completes is a CAST in grid mode. -/
theorem EngState.gridCast_performed {g : EngState} (h : g.active = ⟨x, true⟩ :: rest) : g.gridCast = !bit x.w0 56 := by
  simp [EngState.gridCast, h]

theorem State.commandComplete_of_not_cast (h : e = 5 → s.cores[c].engines[e].gridCast = false) :
    s.commandComplete c e = s.engineComplete c e :=
  if_neg fun ⟨he, hg⟩ => Bool.false_ne_true ((h he).symm.trans hg)

theorem State.commandComplete_cast (he : e = 5) (h : s.cores[c].engines[e].gridCast = true) :
    s.commandComplete c e = s.castComplete c := if_pos ⟨he, h⟩

/-- Points of the CAST that are not yet applied hold it back. -/
theorem State.castComplete_onTheWay {d : RayDue} {due : List RayDue} (hd : s.cores[c].geo.rayDue = d :: due)
    (hw : s.onTheWay c d.job = true) : s.castComplete c = s := by
  simp only [State.castComplete, hd, hw, Bool.true_or, if_true]

/-- All points applied: the status block is written where its tag lets it, and the command completes. -/
theorem State.castComplete_applied {d : RayDue} {due : List RayDue} (hd : s.cores[c].geo.rayDue = d :: due)
    (hw : s.onTheWay c d.job = false) (hon : s.cores[c].spd.lineOn (d.stat / 256) = true)
    (hmay : s.cores[c].spd.mayWrite (d.stat / 256) = true) :
    s.castComplete c = ((s.modGeo c fun g => { g with rayDue := due }).bankWrite c d.stat d.block).engineComplete c 5 := by
  simp only [State.castComplete, hd, hw, hon, hmay, Bool.not_true, Bool.and_false, Bool.or_false, Bool.false_eq_true,
    if_false, if_true]

end

/-- Settles O15: which of the two completions it is, then what each does. -/
theorem engineCommandCompletes : Obligations.EngineCommandCompletes := by
  intro s c e x rest h k p p1 p2 done
  have hcast : s.cores[c].engines[e].gridCast = !bit x.w0 56 := EngState.gridCast_performed h
  refine ⟨fun hx => ?plain, fun d due he hx hd => ?cast⟩
  case plain =>
    have hdone : s.engineComplete c e = done := State.engineComplete_performed h
    have hplain : s.commandComplete c e = s.engineComplete c e :=
      State.commandComplete_of_not_cast fun he => by rw [hcast, hx he, Bool.not_true]
    exact ⟨congrArg _ (hplain.trans hdone), hdone⟩
  case cast =>
    have hcomplete : s.commandComplete c e = s.castComplete c :=
      State.commandComplete_cast he (by rw [hcast, hx, Bool.not_false])
    refine ⟨fun hw => ?_, fun hw hon hmay => ?_⟩
    · exact congrArg _ (hcomplete.trans (State.castComplete_onTheWay hd hw))
    · subst he
      exact congrArg _ (hcomplete.trans (State.castComplete_applied hd hw hon hmay))

/-! ### The event unit: the order of codes (R30) -/

theorem Posted.before_iff {a b : Posted} : a.before b = true ↔
    a.cnt.toNat < b.cnt.toNat ∨ (a.cnt.toNat = b.cnt.toNat ∧ a.src.toNat < b.src.toNat) := by
  simp [Posted.before, BitVec.toNat_inj]

/-- No code is before itself. -/
theorem Posted.before_self (p : Posted) : p.before p = false := by
  simp only [← Bool.not_eq_true, Posted.before_iff]
  omega

/-- Of two codes at most one is before the other. -/
theorem Posted.not_before_of_before {a b : Posted} (h : a.before b = true) : b.before a = false := by
  simp only [← Bool.not_eq_true, Posted.before_iff] at *
  omega

theorem Posted.not_before_trans {a b c : Posted} (hab : a.before b = false) (hbc : b.before c = false) :
    a.before c = false := by
  simp only [← Bool.not_eq_true, Posted.before_iff] at *
  omega

/-- A code is taken as long as one waits. -/
theorem firstPosted_eq_none {ps : List Posted} : firstPosted ps = none ↔ ps = [] := by
  cases ps with
  | nil => simp [firstPosted]
  | cons a ps =>
    simp only [firstPosted, reduceCtorEq, iff_false]
    split
    · nofun
    · split <;> nofun

/-- The code taken first is one that waits, and none that waits is before it. -/
theorem firstPosted_first {ps : List Posted} {p : Posted} (h : firstPosted ps = some p) :
    p ∈ ps ∧ ∀ q ∈ ps, q.before p = false := by
  induction ps generalizing p with
  | nil => cases h
  | cons a ps ih =>
    simp only [firstPosted] at h
    split at h
    case h_1 hnone =>
      cases h
      simp [firstPosted_eq_none.mp hnone, Posted.before_self]
    case h_2 q hq =>
      obtain ⟨hmem, hmin⟩ := ih hq
      split at h
      case isTrue hqa =>
        cases h
        refine ⟨List.mem_cons_of_mem _ hmem, fun r hr => ?_⟩
        obtain rfl | hr := List.mem_cons.mp hr
        · exact Posted.not_before_of_before hqa
        · exact hmin r hr
      case isFalse hqa =>
        cases h
        refine ⟨List.mem_cons_self, fun r hr => ?_⟩
        obtain rfl | hr := List.mem_cons.mp hr
        · exact Posted.before_self r
        · exact Posted.not_before_trans (hmin r hr) (Bool.eq_false_iff.mpr hqa)


/-! ### Routes (R493) -/

/-- A code as the event unit delivers it, marked when its partition is fenced (R425). -/
def EvtState.marked (e : EvtState) (p : Posted) : Posted := { p with fenced := e.suppressed p }

/-- The event unit once it has taken `p` and given it to Gauntlet and to Crown, whose routes are fixed (R30). -/
def State.evtTaken (s : State) (p : Posted) : EvtState :=
  let e := { s.evt with incoming := s.evt.incoming.erase p }
  let e := if s.toGnt p then { e with gntQ := e.gntQ ++ [s.evt.marked p] } else e
  if codeToCrown p.code.toNat then { e with toCrown := e.toCrown ++ [s.evt.marked p] } else e

/-- The event unit once `p` is on its way to the host ring too, where its route entry and the fences let it (R425, R493). -/
def State.evtRouted (s : State) (p : Posted) (w : Word) : EvtState :=
  let e := s.evtTaken p
  if rtMsi w && !s.evt.suppressed p then { e with toRing := e.toRing ++ [(s.evt.marked p, rtVec w)] } else e

section
variable {s : State} {p : Posted} {w : Word}

theorem State.evtTaken_eq : s.evtTaken p = { s.evt with
    incoming := s.evt.incoming.erase p
    gntQ := if s.toGnt p then s.evt.gntQ ++ [s.evt.marked p] else s.evt.gntQ
    toCrown := if codeToCrown p.code.toNat then s.evt.toCrown ++ [s.evt.marked p] else s.evt.toCrown } := by
  by_cases hg : s.toGnt p = true <;> by_cases hc : codeToCrown p.code.toNat = true <;> simp [State.evtTaken, hg, hc]

theorem State.evtRouted_eq : s.evtRouted p w = { s.evtTaken p with
    toRing := if rtMsi w && !s.evt.suppressed p then s.evt.toRing ++ [(s.evt.marked p, rtVec w)] else s.evt.toRing } := by
  simp only [State.evtRouted, State.evtTaken_eq]
  split <;> rfl

/-- With no code waiting there is nothing to route. -/
theorem State.eventRoute_none (h : firstPosted s.evt.incoming = none) : s.eventRoute = s := by
  simp only [State.eventRoute, h]

/-- What becomes of the code that is next, by the entry that decides its routes. -/
theorem State.eventRoute_some (h : firstPosted s.evt.incoming = some p) :
    s.eventRoute = (s.evt.routes.toList.find? fun w => rtMatches w p.code).elim
      { s with evt := { s.evtTaken p with noroute := satAdd 0x7FFFFFFF (s.evtTaken p).noroute 1 } }
      fun w => if rtSyn w then { s with evt := s.evtRouted p w }.syncAdd (rtCore w) (rtSync w) 1
        else { s with evt := s.evtRouted p w } := by
  have hroutes : (s.evtTaken p).routes = s.evt.routes := by rw [State.evtTaken_eq]
  rw [← hroutes]
  unfold State.eventRoute
  rw [h]
  dsimp only
  split
  case h_1 hf => rw [show (s.evtTaken p).routes.toList.find? _ = none from hf]; rfl
  case h_2 w hf => rw [show (s.evtTaken p).routes.toList.find? _ = some w from hf]; rfl

/-- No entry matches a code that goes to Gauntlet and Crown neither: it is counted in NOROUTE and gone. -/
theorem State.eventRoute_unrouted (h : firstPosted s.evt.incoming = some p) (hg : s.toGnt p = false)
    (hc : codeToCrown p.code.toNat = false) (hw : ∀ w ∈ s.evt.routes.toList, rtMatches w p.code = false) :
    s.eventRoute = { s with evt := { s.evt with
      incoming := s.evt.incoming.erase p, noroute := min 0x7FFFFFFF (s.evt.noroute + 1) } } := by
  have hnone : (s.evt.routes.toList.find? fun w => rtMatches w p.code) = none :=
    List.find?_eq_none.mpr fun w hmem => Bool.eq_false_iff.mp (hw w hmem)
  rw [State.eventRoute_some h, hnone]
  simp only [Option.elim_none, State.evtTaken_eq, hg, hc, satAdd, Bool.false_eq_true, if_false]

/-- The entry that decides a code's routes: where it is delivered, and the signal of SYNEN. -/
theorem State.eventRoute_matched (h : firstPosted s.evt.incoming = some p)
    (hw : (s.evt.routes.toList.find? fun w => rtMatches w p.code) = some w) :
    s.eventRoute = if rtSyn w then { s with evt := s.evtRouted p w }.syncAdd (rtCore w) (rtSync w) 1
      else { s with evt := s.evtRouted p w } := by
  rw [State.eventRoute_some h, hw, Option.elim_some]

theorem State.eventRoute_matched_evt (h : firstPosted s.evt.incoming = some p)
    (hw : (s.evt.routes.toList.find? fun w => rtMatches w p.code) = some w) :
    s.eventRoute.evt = s.evtRouted p w := by
  rw [State.eventRoute_matched h hw]
  split <;> rfl

/-- SYNEN adds 1 to the entry's sync object. -/
theorem State.eventRoute_matched_sync (h : firstPosted s.evt.incoming = some p)
    (hw : (s.evt.routes.toList.find? fun w => rtMatches w p.code) = some w) (hs : rtSyn w = true) :
    s.eventRoute.cores[rtCore w].spd.sync =
      SMap.set 0 s.cores[rtCore w].spd.sync (rtSync w) (s.cores[rtCore w].sync (rtSync w) + 1) := by
  rw [State.eventRoute_matched h hw, if_pos hs, State.syncAdd, State.modSpd, State.modCore_same]
  rfl

theorem State.eventRoute_matched_cores (h : firstPosted s.evt.incoming = some p)
    (hw : (s.evt.routes.toList.find? fun w => rtMatches w p.code) = some w) (hs : rtSyn w = false) :
    s.eventRoute.cores = s.cores := by
  rw [State.eventRoute_matched h hw, if_neg (Bool.eq_false_iff.mp hs)]

/-- Whatever its routes are, a code that is taken waits no longer, and no other code is taken. -/
theorem State.eventRoute_incoming (h : firstPosted s.evt.incoming = some p) :
    s.eventRoute.evt.incoming = s.evt.incoming.erase p := by
  cases hw : s.evt.routes.toList.find? fun w => rtMatches w p.code with
  | none => rw [State.eventRoute_some h, hw, Option.elim_none, State.evtTaken_eq]
  | some w => rw [State.eventRoute_matched_evt h hw, State.evtRouted_eq, State.evtTaken_eq]

theorem State.eventRoute_length : s.eventRoute.evt.incoming.length = s.evt.incoming.length - 1 := by
  cases h : firstPosted s.evt.incoming with
  | none => rw [State.eventRoute_none h, firstPosted_eq_none.mp h, List.length_nil]
  | some p => rw [State.eventRoute_incoming h, List.length_erase_of_mem (firstPosted_first h).1]

/-- Routing as often as codes wait leaves none waiting. -/
theorem State.foldl_eventRoute_incoming (l : List Nat) (s : State) (h : s.evt.incoming.length ≤ l.length) :
    (l.foldl (fun t _ => t.eventRoute) s).evt.incoming = [] := by
  induction l generalizing s with
  | nil => exact List.eq_nil_of_length_eq_zero (Nat.le_zero.mp h)
  | cons _ l ih =>
    refine ih s.eventRoute ?_
    rw [State.eventRoute_length]
    exact Nat.sub_le_of_le_add h

theorem State.routeWaiting_incoming : s.routeWaiting.evt.incoming = [] :=
  State.foldl_eventRoute_incoming _ s (List.length_range ▸ Nat.le_refl _)

end

/-! ### The host ring, Crown's queue and messages (R30, R434, R494) -/

section
variable {s : State} {p : Posted}

/-- Sending a message, or setting its pending bit, leaves the event unit as it is. -/
theorem State.raise_evt (pf1 : Bool) (v : Nat) : (s.raise pf1 v).evt = s.evt := by
  simp only [State.raise]
  split
  · exact State.modFn_evt ..
  · rfl

/-- A code takes the next place of a ring that is not full. -/
theorem State.deliverRing_evt {v : Byte} {rest : List (Posted × Byte)} (h : s.evt.depth ≠ 1024) :
    (s.deliverRing p v rest).evt = { s.evt with
      toRing := rest
      ring := SMap.insert (s.evt.widx.toNat % 1024) ⟨p.code, p.src, v, p.cnt⟩ s.evt.ring
      widx := s.evt.widx + 1 } := by
  refine (congrArg State.evt (if_neg h)).trans ?_
  dsimp only
  split
  · rfl
  · exact State.raise_evt ..

theorem State.deliverRing_full {v : Byte} {rest : List (Posted × Byte)} (h : s.evt.depth = 1024) :
    s.deliverRing p v rest = { s with evt := { s.evt with
      toRing := rest, ovf := true, ovfc := min 0xFFFFFFFF (s.evt.ovfc + 1) } } :=
  if_pos h

theorem State.deliverCrown_full {rest : List Posted} (h : 1024 ≤ s.evt.crownQ.length) :
    s.deliverCrown p rest = { s with
      evt := { s.evt with toCrown := rest, crownLost := s.evt.crownLost + 1, ovf := true }
      flt := { s.flt with lost := min 0xFFFFFFFF (s.flt.lost + 1) } } :=
  if_pos h

theorem State.deliverCrown_room {rest : List Posted} (h : s.evt.crownQ.length < 1024) :
    s.deliverCrown p rest = { s with evt := { s.evt with toCrown := rest, crownQ := s.evt.crownQ ++ [p] } } :=
  if_neg (Nat.not_le.mpr h)

/-- The host ring comes before Crown's queue. -/
theorem State.queueDeliver_ring {v : Byte} {rest : List (Posted × Byte)} (h : s.evt.toRing = (p, v) :: rest) :
    s.queueDeliver = s.deliverRing p v rest := by
  simp only [State.queueDeliver, h]

theorem State.queueDeliver_crown {rest : List Posted} (h : s.evt.toRing = []) (hc : s.evt.toCrown = p :: rest) :
    s.queueDeliver = s.deliverCrown p rest := by
  simp only [State.queueDeliver, h, hc]

theorem State.queueDeliver_none (h : s.evt.toRing = []) (hc : s.evt.toCrown = []) : s.queueDeliver = s := by
  simp only [State.queueDeliver, h, hc]

/-- A pending message that nothing blocks is sent. -/
theorem State.sendPending_free {pf1 : Bool} {v : Nat} (hp : ((s.pci.fn pf1).vect v).pending = true)
    (hb : (s.pci.fn pf1).blocked v = false) : s.sendPending pf1 v =
      (s.modFn pf1 fun f => f.setPending v false).emit
        (.msix pf1 v ((s.pci.fn pf1).vect v).addr ((s.pci.fn pf1).vect v).data) :=
  if_pos (by simp [hp, hb])

theorem State.sendPending_still {pf1 : Bool} {v : Nat}
    (h : (s.pci.fn pf1).blocked v = true ∨ ((s.pci.fn pf1).vect v).pending = false) : s.sendPending pf1 v = s := by
  refine if_neg ?_
  obtain hb | hp := h
  · simp [hb]
  · simp [hp]

/-! ### Writes of EVT_ROUTE (R493, R495) -/

/-- Only host PF0 and Crown write route entries. -/
theorem State.routeWrite_other {i : Fin 256} {ini : Ini} {h : Half} {v : Word} (h60 : ini ≠ 0x60) (h70 : ini ≠ 0x70) :
    s.routeWrite i ini h v = s := if_pos ⟨h60, h70⟩

/-- The host's write of a whole entry is refused by its reserved fields or by an armed Gauntlet; else the codes that wait
are routed by the old entries first. -/
theorem State.routeWrite_host {i : Fin 256} {v : Word} : s.routeWrite i 0x60 .full v =
    if fld v 58 3 ≠ 0 ∨ fld v 32 4 ≠ 0 ∨ (s.rtSafety v = true ∧ s.armed = true) then s.postPart 0xA006 0xC0 none
    else { s.routeWaiting with evt := { s.routeWaiting.evt with routes := s.routeWaiting.evt.routes.set i v } } := by
  rw [← State.post_of_block (by decide) s 0xA006]
  exact if_neg fun ⟨h60, _⟩ => h60 rfl

end

/-- Settles O50: each clause is the lemma above on its operation. -/
theorem eventsAndMessages : Obligations.EventsAndMessages := by
  intro s e withEvt
  refine ⟨fun _ _ h => firstPosted_first h, ?empty, ?parity, ?unrouted, ?matched, ?ring, ?ringFull, ?crown, ?crownFull,
    ?idle, ?message, ?otherInitiator, ?write, ?refused⟩
  case empty => exact fun h => congrArg _ (State.eventRoute_none (firstPosted_eq_none.mpr h))
  case parity => exact congrArg Host.Outcome.next (State.post_of_block (by decide) ..)
  case unrouted => exact fun p h hg hc hw => congrArg _ (State.eventRoute_unrouted h hg hc hw)
  case matched =>
    intro p w h hw
    refine ⟨_, rfl, State.eventRoute_incoming h, ⟨?_, ?_, ?_⟩, State.eventRoute_matched_sync h hw,
      State.eventRoute_matched_cores h hw⟩
    all_goals rw [State.eventRoute_matched_evt h hw, State.evtRouted_eq, State.evtTaken_eq]; rfl
  case ring =>
    intro p v rest hr hd
    refine ⟨_, congrArg Host.Outcome.next (State.queueDeliver_ring hr), ?_, ?_, ?_⟩ <;> rw [State.deliverRing_evt hd]
  case ringFull =>
    exact fun p v rest hr hd => congrArg _ ((State.queueDeliver_ring hr).trans (State.deliverRing_full hd))
  case crown =>
    exact fun p rest hr hc hq => congrArg _ ((State.queueDeliver_crown hr hc).trans (State.deliverCrown_room hq))
  case crownFull =>
    intro p rest hr hc hq
    exact ⟨_, congrArg Host.Outcome.next ((State.queueDeliver_crown hr hc).trans (State.deliverCrown_full hq)),
      rfl, rfl, rfl, rfl, rfl⟩
  case idle => exact fun hr hc => congrArg _ (State.queueDeliver_none hr hc)
  case message =>
    exact fun pf1 v => ⟨fun hp hb => congrArg _ (State.sendPending_free hp hb),
      fun h => congrArg _ (State.sendPending_still h)⟩
  case otherInitiator => exact fun i ini h v h60 h70 => congrArg _ (State.routeWrite_other h60 h70)
  case write =>
    intro i v hz hz' ha u
    have hok : ¬ (fld v 58 3 ≠ 0 ∨ fld v 32 4 ≠ 0 ∨ (s.rtSafety v = true ∧ s.armed = true)) := by simp [hz, hz', ha]
    exact ⟨congrArg _ (State.routeWrite_host.trans (if_neg hok)), State.routeWaiting_incoming⟩
  case refused => exact fun i v hbad => congrArg _ (State.routeWrite_host.trans (if_pos hbad))

end Sys2Proof.Machine
end

/-! The proofs: sweep ingest, its records. -/

section
namespace Sys2Proof.Machine

/-! ### Point records (R116, R118, R133) -/

/-- A number in the range of `n` bits of two's complement is what those bits read back as. -/
theorem toSigned_wrapN {n : Nat} {v : Int} (hn : 0 < n) (hlo : -2 ^ (n - 1) ≤ v) (hhi : v < 2 ^ (n - 1)) :
    toSigned n (wrapN n v) = v := by
  have hpow : (2 : Int) ^ n = 2 * 2 ^ (n - 1) := by rw [← Int.pow_succ', Nat.sub_add_cancel hn]
  have hcast : ((2 ^ n : Nat) : Int) = 2 * 2 ^ (n - 1) := by rw [← hpow]; norm_cast
  have hcast' : ((2 ^ (n - 1) : Nat) : Int) = 2 ^ (n - 1) := by norm_cast
  simp only [toSigned, wrapN, hpow]
  generalize (2 : Int) ^ (n - 1) = b at *
  generalize 2 ^ (n - 1) = b' at *
  generalize 2 ^ n = c at *
  have hmod : (v % (2 * b)).toNat % c = (v % (2 * b)).toNat := Nat.mod_eq_of_lt (by
    have := Int.emod_lt_of_pos v (show 0 < 2 * b by omega)
    omega)
  rw [hmod]
  by_cases hv : 0 ≤ v
  · have hrem : v % (2 * b) = v := Int.emod_eq_of_lt hv (by omega)
    rw [hrem, if_pos (by omega)]
    omega
  · have hrem : v % (2 * b) = v + 2 * b := by
      rw [← Int.add_emod_right, Int.emod_eq_of_lt (by omega) (by omega)]
    rw [hrem, if_neg (by omega)]
    omega

section
variable {t m : Rec64} {entry : BitVec 32} {f0 f1 f2 f3 : Option Int} {x : Point}

/-- A point passes the two tests that could skip it: its return is valid, and its coordinates fit 24 bits. -/
theorem Conv.gates_of_ok {noret : Bool} {c : Nat → Int} {v : Int} {az : Option Nat}
    (h : (if noret then Conv.noret
      else if (List.range 3).any fun i => decide (8388607 < (c i).natAbs) then .oor
      else .ok ⟨c 0, c 1, c 2, (max 0 (min 255 v)).toNat, az⟩) = .ok x) :
    noret = false ∧ x.x.natAbs ≤ 8388607 ∧ x.y.natAbs ≤ 8388607 ∧ x.z.natAbs ≤ 8388607 ∧ x.inten ≤ 255 := by
  split at h
  case isTrue => cases h
  case isFalse hret =>
    split at h
    case isTrue => cases h
    case isFalse hfit =>
      cases h
      simp only [List.any_eq_true, List.mem_range, decide_eq_true_eq, not_exists, not_and, Nat.not_lt] at hfit
      exact ⟨Bool.eq_false_iff.mpr hret, hfit 0 (by decide), hfit 1 (by decide), hfit 2 (by decide), by dsimp only; omega⟩

/-- A converted point's coordinates fit 24 bits and its intensity fits a byte. -/
theorem convert_fits (h : convert t m entry f0 f1 f2 f3 = .ok x) :
    x.x.natAbs ≤ 8388607 ∧ x.y.natAbs ≤ 8388607 ∧ x.z.natAbs ≤ 8388607 ∧ x.inten ≤ 255 :=
  (Conv.gates_of_ok h).2

/-- A range image gives a point only for a raw range of 0 or more whose scaled range lies within RMIN and RMAX. -/
theorem convert_in_range (h : convert t m entry f0 f1 f2 f3 = .ok x) (hk : tKind t = 1) :
    0 ≤ f0.getD 0 ∧ (tRmin t : Int) ≤ rnd (f0.getD 0 * tRscale t) (tRshift t) ∧
      rnd (f0.getD 0 * tRscale t) (tRshift t) ≤ tRmax t := by
  obtain ⟨hret, -⟩ := Conv.gates_of_ok h
  simpa [hk, and_assoc] using hret

end

section
variable (x : Point) (beam flags toff ret stag : Nat)

theorem length_recordBytes : (recordBytes x beam flags toff ret stag).length = 16 := rfl

/-- The three numbers of 24 bits at the head of a record. -/
theorem prCoord_recordBytes :
    prCoord (recordBytes x beam flags toff ret stag) 0 = toSigned 24 (wrapN 24 x.x) ∧
    prCoord (recordBytes x beam flags toff ret stag) 1 = toSigned 24 (wrapN 24 x.y) ∧
    prCoord (recordBytes x beam flags toff ret stag) 2 = toSigned 24 (wrapN 24 x.z) := by
  have hread (v : Int) : toSigned 24 (leNat (leBytes 3 (wrapN 24 v))) = toSigned 24 (wrapN 24 v) := by
    rw [leNat_leBytes]
    simp [toSigned]
  exact ⟨hread x.x, hread x.y, hread x.z⟩

/-- The single bytes of a record; the two of TOFF stand between. -/
theorem prByte_recordBytes :
    prByte (recordBytes x beam flags toff ret stag) 9 = x.inten % 256 ∧
    prByte (recordBytes x beam flags toff ret stag) 10 = beam % 256 ∧
    prByte (recordBytes x beam flags toff ret stag) 11 = flags % 256 ∧
    prByte (recordBytes x beam flags toff ret stag) 14 = ret % 256 ∧
    prByte (recordBytes x beam flags toff ret stag) 15 = stag % 256 :=
  ⟨BitVec.toNat_ofNat .., BitVec.toNat_ofNat .., BitVec.toNat_ofNat .., BitVec.toNat_ofNat .., BitVec.toNat_ofNat ..⟩

end

/-! ### TRUNC (R122) -/

theorem length_withTrunc {r : List Byte} (h : 12 ≤ r.length) : (withTrunc r).length = r.length := by
  simp only [withTrunc, List.length_append, List.length_cons, List.length_take, List.length_drop]
  omega

/-- TRUNC stands past the coordinates. -/
theorem prCoord_withTrunc {r : List Byte} {i : Nat} (h : 12 ≤ r.length) (hi : i < 3) :
    prCoord (withTrunc r) i = prCoord r i := by
  have hdrop : (withTrunc r).drop (3 * i) = (r.take 11).drop (3 * i) ++ (r.getD 11 0 ||| 0x80) :: r.drop 12 :=
    List.drop_append_of_le_length (by rw [List.length_take]; omega)
  have htake : ((withTrunc r).drop (3 * i)).take 3 = (r.drop (3 * i)).take 3 := by
    rw [hdrop, List.take_append_of_le_length (by rw [List.length_drop, List.length_take]; omega), List.drop_take,
      List.take_take, Nat.min_eq_left (by omega)]
  simp only [prCoord, htake]

/-- Bit 7 of the flags is set. -/
theorem prFlag_withTrunc {r : List Byte} (h : 12 ≤ r.length) : prFlag (withTrunc r) 7 = true := by
  have hget : (withTrunc r).getD 11 0 = r.getD 11 0 ||| 0x80 := by
    simp [withTrunc, List.getD_eq_getElem?_getD, show min 11 r.length = 11 by omega]
  rw [prFlag, prByte, hget, BitVec.testBit_toNat, BitVec.getLsbD_or]
  exact Bool.or_true _

/-- Settles O28: what conversion lets through fits the record's fields, and each field is read where it was put. -/
theorem pointRecordsReadBack : Obligations.PointRecordsReadBack := by
  intro t m entry f0 f1 f2 f3 x beam flags toff ret stag hok hbeam hflags _ hret hstag r
  obtain ⟨hx, hy, hz, hi⟩ := convert_fits hok
  obtain ⟨rx, ry, rz⟩ := prCoord_recordBytes x beam flags toff ret stag
  obtain ⟨rinten, rbeam, rflags, rret, rstag⟩ := prByte_recordBytes x beam flags toff ret stag
  have hlen : 12 ≤ r.length := (by decide : 12 ≤ 16)
  have hback {v : Int} (hv : v.natAbs ≤ 8388607) : toSigned 24 (wrapN 24 v) = v :=
    toSigned_wrapN (by decide) (by omega) (by omega)
  refine ⟨rfl, rx.trans (hback hx), ry.trans (hback hy), rz.trans (hback hz),
    rinten.trans (Nat.mod_eq_of_lt (by omega)), rbeam.trans (Nat.mod_eq_of_lt hbeam), rflags.trans (Nat.mod_eq_of_lt hflags),
    rret.trans (Nat.mod_eq_of_lt hret), rstag.trans (Nat.mod_eq_of_lt hstag), length_withTrunc hlen,
    (prCoord_withTrunc hlen (by decide)).trans (rz.trans (hback hz)), prFlag_withTrunc hlen, fun hk => ?_⟩
  exact ⟨_, rfl, convert_in_range hok hk⟩

end Sys2Proof.Machine
end

/-! The proofs: sweep ingest, its sensor ports. -/

section
namespace Sys2Proof.Machine

/-! ### Receiving a frame (R109 to R111) -/

/-- The drop counter of a fault in a frame's headers. -/
def FrameDrop.counted : FrameDrop → PortCounts → PortCounts
  | .ipHdr, k => { k with ipHdr := k.ipHdr + 1 }
  | .fragment, k => { k with fragment := k.fragment + 1 }
  | .udpCsum, k => { k with udpCsum := k.udpCsum + 1 }

section
variable {s : State} {p : Fin 4} {f : List Byte}

/-- A frame that the MAC passes and that is no PTP message is dropped by its headers' fault. -/
theorem State.frameQueue_drop {d : FrameDrop} (hptp : ptpAt f = none) (h : parseFrame f = .drop d) :
    s.frameQueue p f = s.modCnt p d.counted := by
  simp only [State.frameQueue, hptp, h]
  cases d <;> rfl

theorem State.frameQueue_udp {d : Datagram} (hptp : ptpAt f = none) (h : parseFrame f = .udp d) :
    s.frameQueue p f = s.fifoPut p ⟨f, s.rxStamp p 0, s.rxStamp p 1, none⟩ := by
  simp only [State.frameQueue, hptp, h]

theorem State.fifoPut_room {x : RxFrame} (h : fifoBytes s.ing.port[p] + (x.bytes.length + 4) ≤ 1048576) :
    s.fifoPut p x = s.modPort p fun q => { q with fifo := q.fifo ++ [.frame x] } :=
  if_neg (Nat.not_lt.mpr h)

theorem State.fifoPut_full {x : RxFrame} (h : 1048576 < fifoBytes s.ing.port[p] + (x.bytes.length + 4)) :
    s.fifoPut p x = (s.modCnt p fun k => { k with fifo := k.fifo + 1 }).ingPost 0x4003 (s.ing.portRings p) :=
  if_pos h

section
variable (live : s.ing.port[p].phy ≠ .off ∧ s.ing.port[p].up = true ∧ s.pwr.mode = .run) {ok : Bool}
include live

/-- On a port that is up, in RUN: what the MAC drops, and what it passes. -/
theorem State.frameReceive_live : s.frameReceive p f ok =
    if f.length + 4 < 64 then s.modCnt p fun k => { k with runt := k.runt + 1 }
    else if !ok then s.modCnt p fun k => { k with fcs := k.fcs + 1 }
    else if 9216 < f.length + 4 then s.modCnt p fun k => { k with oversize := k.oversize + 1 }
    else if !addressed p f then s
    else (if s.ing.port[p].clo then s.tapFrame p f else s).frameQueue p f := by
  obtain ⟨hphy, hup, hrun⟩ := live
  exact if_neg (by simp [-Fin.getElem_fin, hphy, hup, hrun])

theorem State.frameReceive_runt (h : f.length < 60) :
    s.frameReceive p f ok = s.modCnt p fun k => { k with runt := k.runt + 1 } :=
  (State.frameReceive_live live).trans (if_pos (by omega))

theorem State.frameReceive_fcs (h : 60 ≤ f.length) :
    s.frameReceive p f false = s.modCnt p fun k => { k with fcs := k.fcs + 1 } :=
  (State.frameReceive_live live).trans (if_neg (by omega))

theorem State.frameReceive_oversize (h : 9212 < f.length) :
    s.frameReceive p f true = s.modCnt p fun k => { k with oversize := k.oversize + 1 } := by
  rw [State.frameReceive_live live, if_neg (by omega), if_neg (by decide), if_pos (by omega)]

/-- A frame of legal length for this port, of which Cloche takes no copy, goes on to its headers. -/
theorem State.frameReceive_passed (hmin : 60 ≤ f.length) (hmax : f.length ≤ 9212) (ha : addressed p f = true)
    (hc : s.ing.port[p].clo = false) : s.frameReceive p f true = s.frameQueue p f := by
  rw [State.frameReceive_live live, if_neg (by omega), if_neg (by decide), if_neg (by omega), if_neg (by simp [ha]),
    if_neg (by simp [-Fin.getElem_fin, hc])]

end

/-! ### What the ingest unit takes from a FIFO (R112, R113, R127) -/

@[simp] theorem State.endPatterns_nil : s.endPatterns p [] = s := rfl

/-- Behind a frame no pattern's end is reached. -/
@[simp] theorem State.endPatterns_frame {x : RxFrame} {rest : List RxItem} : s.endPatterns p (.frame x :: rest) = s := rfl

theorem State.ingestNext_frame {x : RxFrame} {rest : List RxItem} (h : s.ing.port[p].fifo = .frame x :: rest) :
    let t := (s.modPort p fun q => { q with fifo := rest }).frameWork p x
    s.ingestNext p = t.endPatterns p t.ing.port[p].fifo := by
  simp only [State.ingestNext, h, State.endPatterns_frame]

section
variable {x : RxFrame} {d : Datagram} (hg : x.golden = none) (hd : parseFrame x.bytes = .udp d)
include hg hd

theorem State.frameWork_unmatched (h : s.ing.match' p d = none) :
    s.frameWork p x = s.modCnt p fun k => { k with unmatched := k.unmatched + 1 } := by
  simp only [State.frameWork, hg, hd, h]

theorem State.frameWork_matched {n : Fin 16} (h : s.ing.match' p d = some n) :
    s.frameWork p x = s.ingestFrame p n false d.payload (if sensDom s.ing.sens[n] then x.stampB else x.stampA) := by
  simp only [State.frameWork, hg, hd, h, Option.isSome_none]

end

/-- A change of a port and of its counters is one change of the port. -/
theorem State.modPort_modCnt (g : EthPort → EthPort) (k : PortCounts → PortCounts) :
    (s.modPort p g).modCnt p k = s.modPort p fun q => { g q with cnt := k (g q).cnt } := by
  simp [State.modCnt, State.modPort, State.modIng]

/-- The close of a sweep changes no port and no sensor entry. -/
theorem State.sweepClose_keeps (n : Fin 16) (golden : Bool) :
    (s.sweepClose n golden).ing.port = s.ing.port ∧ (s.sweepClose n golden).ing.sens = s.ing.sens := by
  unfold State.sweepClose
  split
  case h_1 => exact ⟨rfl, rfl⟩
  case h_2 =>
    dsimp only
    split
    case h_1 => exact ⟨rfl, rfl⟩
    case h_2 =>
      split
      case isTrue => exact ⟨rfl, rfl⟩
      case isFalse =>
        refine List.foldlRecOn (motive := fun t : State => t.ing.port = s.ing.port ∧ t.ing.sens = s.ing.sens) _ _
          ⟨rfl, rfl⟩ fun t ht q _ => ?_
        split
        · exact ht
        · exact ht

/-- The end of a golden pattern that stands alone in its FIFO closes the golden sweep. -/
theorem State.ingestNext_patternEnd {n : Fin 16} (h : s.ing.port[p].fifo = [.patternEnd n]) :
    s.ingestNext p = (s.modPort p fun q => { q with fifo := [] }).sweepClose n true := by
  have hends : s.endPatterns p [.patternEnd n] = (s.modPort p fun q => { q with fifo := [] }).sweepClose n true := rfl
  have hempty : (s.endPatterns p [.patternEnd n]).ing.port[p].fifo = [] := by
    rw [hends, (State.sweepClose_keeps n true).1]
    simp
  simp only [State.ingestNext, h, hempty]
  exact hends

end

/-! ### The statement -/

/-- Settles O27: what the MAC does with a frame, then what its headers say, then what the ingest unit takes. -/
theorem sensorPorts : Obligations.SensorPorts := by
  intro s p f q withPort counted live whole
  have passed (h : whole) : s.frameReceive p f true = s.frameQueue p f := by
    obtain ⟨hl, hmin, hmax, ha, hc, -⟩ := h
    exact State.frameReceive_passed hl hmin hmax ha hc
  have dropped {d : FrameDrop} (h : whole) (hd : parseFrame f = .drop d) :
      exec (.frameReceive p f true) s = counted d.counted := by
    have hpassed := passed h
    obtain ⟨-, -, -, -, -, hptp⟩ := h
    exact congrArg _ (hpassed.trans (State.frameQueue_drop hptp hd))
  refine ⟨?linkUp, ?linkDown, ?runt, ?fcs, ?oversize, dropped, dropped, dropped, ?queued, ?taken, ?patternEnd⟩
  case linkUp => exact fun hphy hup => congrArg _ (if_neg (by simp [-Fin.getElem_fin, q, hphy, hup]))
  case linkDown => exact fun hup => congrArg _ (if_pos hup)
  case runt => exact fun hl h ok => congrArg _ (State.frameReceive_runt hl h)
  case fcs => exact fun hl h => congrArg _ (State.frameReceive_fcs hl h)
  case oversize => exact fun hl h => congrArg _ (State.frameReceive_oversize hl h)
  case queued =>
    intro d h hd
    have hpassed := passed h
    obtain ⟨-, -, -, -, -, hptp⟩ := h
    have hput := hpassed.trans (State.frameQueue_udp hptp hd)
    exact ⟨fun hroom => congrArg _ (hput.trans (State.fifoPut_room hroom)),
      fun hfull => congrArg _ (hput.trans (State.fifoPut_full hfull))⟩
  case taken =>
    intro x rest d hq hg hd ended
    let u := s.modPort p fun q => { q with fifo := rest }
    have worked {v : State} (h : u.frameWork p x = v) : exec (.ingestFrameProcess p) s = ended v :=
      congrArg _ ((State.ingestNext_frame hq).trans (congrArg (fun t : State => t.endPatterns p t.ing.port[p].fifo) h))
    exact ⟨fun hm => worked ((State.frameWork_unmatched (s := u) hg hd hm).trans (State.modPort_modCnt ..)),
      fun n hm => worked (State.frameWork_matched (s := u) hg hd hm)⟩
  case patternEnd => exact fun n hq => congrArg _ (State.ingestNext_patternEnd hq)

end Sys2Proof.Machine
end

/-! The proofs: sweep ingest, its tables, rings and injection. -/

section
namespace Sys2Proof.Machine

/-! ### Writes of whole items (R540) -/

theorem covers_of_lt {n lo hi : Nat} (h : hi < n) : covers 0 n lo hi = true := by
  simp [covers, h]

theorem bytesIn_whole {data : List Byte} {size : Nat} (h : data.length = size) (hpos : 0 < size) :
    bytesIn 0 data size = true := by
  simp [bytesIn, h, hpos]

/-! ### Who writes the tables and ring registers (R542) -/

theorem ingOwner_iff {ini : Ini} : ingOwner ini = true ↔ ini = 0x60 ∨ ini = 0x70 := by
  simp [ingOwner]

theorem IngState.tplUsed_iff {g : IngState} {n : Fin 16} :
    g.tplUsed n = true ↔ ∃ i : Fin 16, sensEn g.sens[i] = true ∧ sensTpl g.sens[i] = n := by
  simp only [IngState.tplUsed, List.any_eq_true, Vector.mem_toList_iff, Vector.mem_iff_getElem, Bool.and_eq_true,
    decide_eq_true_eq]
  exact ⟨fun ⟨_, ⟨i, hi, he⟩, h⟩ => ⟨⟨i, hi⟩, he ▸ h⟩, fun ⟨i, h⟩ => ⟨_, ⟨i.val, i.isLt, rfl⟩, h⟩⟩

section
variable {s : State} {n : Fin 16} {p : Fin 4} {ini : Ini} {off : Nat} {data : List Byte} {h : Half} {v : Word}

/-- A change of a ring is decided by what it makes of that ring. -/
theorem State.modRing_congr {f g : IngRing → IngRing} (hfg : f s.ing.ring[p] = g s.ing.ring[p]) :
    s.modRing p f = s.modRing p g := by
  simp only [State.modRing, State.modIng, hfg]

theorem State.tplWrite_refused (hno : ingOwner ini = false ∨ s.ing.tplUsed n = true) :
    s.tplWrite n ini off data = s.ingRefuse := by
  refine if_pos ?_
  obtain hi | hu := hno
  · simp [hi]
  · simp [hu]

section
variable (ho : ingOwner ini = false)
include ho

theorem State.sensWrite_other : s.sensWrite n ini off data = s.ingRefuse := if_pos (by simp [ho])
theorem State.extWrite_other : s.extWrite n ini off data = s.ingRefuse := if_pos (by simp [ho])
theorem State.slotmapWrite_other : s.slotmapWrite ini off data = s.ingRefuse := if_pos (by simp [ho])
theorem State.rctlWrite_other : s.rctlWrite p ini h v = s.ingRefuse := if_pos (by simp [ho])

end

/-! ### Templates, sensor entries and extrinsics (R114, R115, R117) -/

section
variable (ho : ingOwner ini = true)
include ho

/-- A whole template that no sensor uses is stored; it is valid when its checks pass, and refused otherwise. -/
theorem State.tplWrite_whole (hu : s.ing.tplUsed n = false) (hl : data.length = 64) :
    s.tplWrite n ini 0 data =
      let w := recStore s.ing.tpl[n] 0 data
      let stored := s.modIng fun g => { g with tpl := g.tpl.set n w, tplVal := setBit g.tplVal n.val (tplOk w) }
      if tplOk w then stored else stored.ingRefuse := by
  have hfull : covers 0 data.length 0x3C 0x3F = true := covers_of_lt (by omega)
  simp only [State.tplWrite, ho, hu, hfull, Bool.not_true, Bool.or_self, Bool.false_eq_true, if_false, Bool.true_and,
    Bool.not_eq_true', ← Bool.not_eq_true, ite_not]

section
variable (he : sensEn s.ing.sens[n] = false) (hw : sensEn (stage32 s.ing.sens[n] off data &&& sensMask) = true)
include he hw

/-- A sensor is enabled on a valid template, and its sweep tags begin at 0. -/
theorem State.sensWrite_enable
    (hv : bit s.ing.tplVal (sensTpl (stage32 s.ing.sens[n] off data &&& sensMask)).val = true) :
    s.sensWrite n ini off data =
      (s.modIng fun g => { g with sens := g.sens.set n (stage32 s.ing.sens[n] off data &&& sensMask) }).modSens n
        fun x => { x with starts := 0 } := by
  simp only [State.sensWrite, ho, he, hw, hv, Bool.not_true, Bool.not_false, Bool.false_and, Bool.and_false, Bool.and_true,
    Bool.false_eq_true, if_false, if_true]

theorem State.sensWrite_invalid
    (hv : bit s.ing.tplVal (sensTpl (stage32 s.ing.sens[n] off data &&& sensMask)).val = false) :
    s.sensWrite n ini off data = s.ingRefuse := by
  simp only [State.sensWrite, ho, he, hw, hv, Bool.not_true, Bool.not_false, Bool.false_and, Bool.and_true,
    Bool.false_eq_true, if_false, if_true]

end

/-- A write of an extrinsic that carries its first two bytes commits it for the sensor's next sweep. -/
theorem State.extWrite_commit (hl : 2 ≤ data.length) : s.extWrite n ini 0 data =
    (s.modIng fun g => { g with ext := g.ext.set n (recStore s.ing.ext[n] 0 data &&& extMask) }).modSens n
      fun x => { x with extPend := some (recStore s.ing.ext[n] 0 data &&& extMask) } := by
  have hcov : covers 0 data.length 0 1 = true := covers_of_lt hl
  simp only [State.extWrite, ho, hcov, Bool.not_true, Bool.false_eq_true, if_false, if_true]

/-! ### Ring registers and the slot map (R121, R124, R125) -/

/-- Enabling a ring that is placed zeroes its indices. -/
theorem State.rctlWrite_enable (hb : bit v 0 = true) (hp : s.ringsPlaced p = true) (hr : bit s.ing.ring[p].rctl 0 = false) :
    s.rctlWrite p ini .full v = s.modRing p fun r =>
      { r with rctl := v &&& 0xFFFF#64, rhold := 0, hhold := 0, rwidx := 0, hwidx := 0 } := by
  have hb' : bit (v &&& 0xFFFF#64) 0 = true := by simpa [bit] using hb
  simp only [State.rctlWrite, mergeHalf, ho, hb', hp, Bool.not_true, Bool.and_false, Bool.or_self, Bool.false_and,
    Bool.false_eq_true, if_false]
  exact State.modRing_congr (if_pos (by simp only [IngRing.on, hr, Bool.not_false, Bool.and_self]))

/-- A ring that is or becomes disabled: one that was enabled leaves ingest. -/
theorem State.rctlWrite_disable (hb : bit v 0 = false) : s.rctlWrite p ini .full v =
    (if bit s.ing.ring[p].rctl 0 then s.ringLeave p else s).modRing p fun r => { r with rctl := v &&& 0xFFFF#64 } := by
  have hb' : bit (v &&& 0xFFFF#64) 0 = false := by simpa [bit] using hb
  simp only [State.rctlWrite, IngRing.on, mergeHalf, ho, hb', Bool.not_true, Bool.not_false, Bool.false_and,
    Bool.true_and, Bool.or_self, Bool.false_eq_true, if_false]

/-- With Gauntlet neither ARMED nor SINGLE any slot map is taken. -/
theorem State.slotmapWrite_disarmed (ha : s.armed = false) : s.slotmapWrite ini off data =
    s.modIng fun g => { g with slotmap := (stage32 (s.ing.slotmap.setWidth 256) off data).setWidth 128 } :=
  if_neg (by simp [ho, ha])

end

/-- A ring that does not lie where its partition may write is not enabled. -/
theorem State.rctlWrite_unplaced (hb : bit v 0 = true) (hp : s.ringsPlaced p = false) :
    s.rctlWrite p ini .full v = s.ingRefuse := by
  have hb' : bit (v &&& 0xFFFF#64) 0 = true := by simpa [bit] using hb
  exact if_pos (by simp [mergeHalf, hb', hp])

/-- Whether a value for HOLD lies between the old hold and the write indices. -/
def IngRing.holdForward (r : IngRing) (v : Word) : Prop :=
  (BitVec.ofNat 32 (fld v 0 32) - r.rhold).toNat ≤ (r.rwidx - r.rhold).toNat ∧
    (BitVec.ofNat 32 (fld v 32 32) - r.hhold).toNat ≤ (r.hwidx - r.hhold).toNat

theorem IngRing.holdForward_iff {r : IngRing} : r.holdForward v ↔ (s.holdOwner p 0x60 &&
    decide ((BitVec.ofNat 32 (fld v 0 32) - r.rhold).toNat ≤ (r.rwidx - r.rhold).toNat) &&
    decide ((BitVec.ofNat 32 (fld v 32 32) - r.hhold).toNat ≤ (r.hwidx - r.hhold).toNat)) = true := by
  have hown : s.holdOwner p 0x60 = true := by simp only [State.holdOwner, decide_true, Bool.true_or]
  simp only [IngRing.holdForward, hown, Bool.true_and, Bool.and_eq_true, decide_eq_true_eq]

/-- The host moves HOLD forward, at most to the write indices. -/
theorem State.holdWrite_forward (hf : s.ing.ring[p].holdForward v) : s.holdWrite p 0x60 .full v =
    s.modRing p fun r => { r with rhold := BitVec.ofNat 32 (fld v 0 32), hhold := BitVec.ofNat 32 (fld v 32 32) } :=
  if_pos (IngRing.holdForward_iff.mp hf)

theorem State.holdWrite_refused (hf : ¬ s.ing.ring[p].holdForward v) : s.holdWrite p 0x60 .full v = s.ingRefuse :=
  if_neg fun h => hf (IngRing.holdForward_iff.mpr h)

/-! ### Submitting an injection (R126) -/

/-- What queues a descriptor: its encoding, its source, its sensor and the queue let it. -/
def State.injTaken (s : State) (p : Fin 4) (w : BitVec 256) : Prop :=
  injBad w = false ∧ s.ddr.admitsAll (.part 0x58 p) false (injSrc w) (16 * injN w) = true ∧
    sensEn s.ing.sens[injSensor w] = false ∧ s.ing.injq[p].length < 16

theorem State.not_injTaken_iff {w : BitVec 256} : ¬ s.injTaken p w ↔
    (injBad w || !s.ddr.admitsAll (ringWho p) false (injSrc w) (16 * injN w) || sensEn s.ing.sens[injSensor w] ||
      decide (16 ≤ s.ing.injq[p].length)) = true := by
  simp only [State.injTaken, ringWho, Classical.not_and_iff_not_or_not, Bool.or_eq_true, Bool.not_eq_true', decide_eq_true_eq, Bool.not_eq_false,
    Bool.not_eq_true, Nat.not_lt, or_assoc]

/-- The injection queue's staging register of ring `p` with a descriptor stored. -/
def State.injStaged (s : State) (p : Fin 4) (w : BitVec 256) : State :=
  s.modIng fun g => { g with injStage := g.injStage.set p w }

section
variable (hl : data.length = 32)
include hl

/-- A whole descriptor of the host is staged, and queued or refused. -/
theorem State.injqWrite_host : s.injqWrite p 0x60 0 data =
    let w := stage32 s.ing.injStage[p] 0 data
    if injBad w || !s.ddr.admitsAll (ringWho p) false (injSrc w) (16 * injN w) || sensEn s.ing.sens[injSensor w] ||
      decide (16 ≤ s.ing.injq[p].length) then (s.injStaged p w).post 0x4021 0x58
    else (s.injStaged p w).modIng fun g => { g with injq := g.injq.set p (g.injq[p] ++ [w]) } := by
  have hown : s.injOwner p 0x60 = true := by simp [State.injOwner]
  have hcov : covers 0 data.length 0x1C 0x1F = true := covers_of_lt (by omega)
  simp only [State.injqWrite, hown, hcov, Bool.not_true, Bool.false_eq_true, if_false]
  rfl

theorem State.injqWrite_taken (ht : s.injTaken p (stage32 s.ing.injStage[p] 0 data)) :
    let w := stage32 s.ing.injStage[p] 0 data
    s.injqWrite p 0x60 0 data = (s.injStaged p w).modIng fun g => { g with injq := g.injq.set p (g.injq[p] ++ [w]) } :=
  (State.injqWrite_host hl).trans (if_neg fun hr => State.not_injTaken_iff.mpr hr ht)

theorem State.injqWrite_refused (ht : ¬ s.injTaken p (stage32 s.ing.injStage[p] 0 data)) :
    s.injqWrite p 0x60 0 data = (s.injStaged p (stage32 s.ing.injStage[p] 0 data)).post 0x4021 0x58 :=
  (State.injqWrite_host hl).trans (if_pos (State.not_injTaken_iff.mp ht))

end

end

/-! ### The record writer (R121, R122, R125) -/

theorem find?_of_unique {α : Type} {f : α → Bool} {l : List α} {a : α} (ha : a ∈ l) (hf : f a = true)
    (hu : ∀ b, b ≠ a → f b = false) : l.find? f = some a := by
  cases h : l.find? f with
  | none => exact absurd hf (List.find?_eq_none.mp h a ha)
  | some b => exact congrArg some (Classical.byContradiction fun hb => Bool.false_ne_true ((hu b hb).symm.trans (List.find?_some h)))

section
variable {g : IngState} {ready : Fin 4 → Bool}

/-- The ring whose slot it is. -/
def IngState.slotOwner (g : IngState) : Fin 4 := Fin.ofNat 4 (fld g.slotNow (2 * g.slot.val) 2)

theorem IngState.serve_own (h : ready g.slotOwner = true) : g.serve ready = some (g.slotOwner, false) := if_pos h

theorem IngState.serve_none (h : ∀ q, ready q = false) : g.serve ready = none := by
  refine (if_neg (Bool.eq_false_iff.mp (h _))).trans ?_
  rw [List.find?_eq_none.mpr fun q _ => Bool.eq_false_iff.mp (h q), Option.map_none]

/-- The rotating token comes to every ring. -/
theorem mem_rotation (tok q : Fin 4) : q ∈ (List.range 4).map fun i => Fin.ofNat 4 (tok.val + 1 + i) := by
  decide +revert

/-- A slot whose ring has nothing ready goes to the one ring that has. -/
theorem IngState.serve_given {q : Fin 4} (hown : ready g.slotOwner = false) (hq : ready q = true)
    (hu : ∀ k, k ≠ q → ready k = false) : g.serve ready = some (q, true) := by
  refine (if_neg (Bool.eq_false_iff.mp hown)).trans ?_
  rw [find?_of_unique (mem_rotation g.token q) hq hu, Option.map_some]

end

section
variable {s : State} {p : Fin 4}

theorem State.writerBurst_idle (h : (s.ing.serve fun q => s.ing.ring[q].ready) = none) :
    s.writerBurst = s.modIng fun g => g.nextSlot none := by
  simp only [State.writerBurst, h]

theorem State.writerBurst_serves {given : Bool} (h : (s.ing.serve fun q => s.ing.ring[q].ready) = some (p, given)) :
    s.writerBurst = (s.modIng fun g => g.nextSlot (some (p, given))).ringBurst p 4 := by
  simp only [State.writerBurst, h]

/-- A record for which the ring has room is written at the write index, and the sweep counts it. -/
theorem State.writeRecord_put {w : Sweep} {x : SweepRing} {bytes : List Byte} (hx : w.rings[p] = some x)
    (hon : bit s.ing.ring[p].rctl 0 = true) (hs : s.ing.ring[p].suspended = false)
    (hroom : (s.ing.ring[p].rwidx - s.ing.ring[p].rhold).toNat < 2 ^ 24) (ht : x.trunc = false) :
    s.writeRecord p w bytes =
      ((s.ddrPut (ringWho p) (s.ing.ring[p].recordAt s.ing.ring[p].rwidx.toNat) bytes).modRing p fun r =>
        { r with rwidx := r.rwidx + 1 }).modSweep w.id fun v => { v with rings := v.rings.set p (some
          { x with count := x.count + 1, first := if x.count = 0 then s.ing.ring[p].rwidx else x.first }) } := by
  have hfull : ¬ 2 ^ 24 ≤ (s.ing.ring[p].rwidx - s.ing.ring[p].rhold).toNat := Nat.not_le.mpr hroom
  simp only [State.writeRecord, IngRing.on, hx, hon, hs, hfull, ht, decide_false, Bool.not_true, Bool.or_self,
    Bool.false_eq_true, if_false]

/-! ### Carrying out an injection (R126) -/

theorem State.injExecute_cons {w : BitVec 256} {rest : List (BitVec 256)} (h : s.ing.injq[p] = w :: rest) :
    s.injExecute p = ((s.modIng fun g => { g with injq := g.injq.set p rest }).injSweep p w).modIng fun g =>
      { g with injSeq := g.injSeq.set p (injSeqOf w) } := by
  simp only [State.injExecute, h]

/-- Into a disabled ring nothing is injected. -/
theorem State.injSweep_off {w : BitVec 256} (hoff : bit s.ing.ring[p].rctl 0 = false)
    (hs : s.ing.ring[p].suspended = false) : s.injSweep p w = s := by
  simp only [State.injSweep, IngRing.on, hoff, hs, Bool.false_and, Bool.not_false, Bool.false_eq_true, if_false, if_true]

theorem State.injExecute_off {w : BitVec 256} {rest : List (BitVec 256)} (h : s.ing.injq[p] = w :: rest)
    (hoff : bit s.ing.ring[p].rctl 0 = false) (hs : s.ing.ring[p].suspended = false) :
    s.injExecute p = s.modIng fun g => { g with injq := g.injq.set p rest, injSeq := g.injSeq.set p (injSeqOf w) } := by
  let t := s.modIng fun g => { g with injq := g.injq.set p rest }
  have hsweep : t.injSweep p w = t := State.injSweep_off hoff hs
  rw [State.injExecute_cons h, hsweep]
  rfl

/-! ### Storage faults (R129) -/

/-- No enabled sensor uses the word. -/
theorem IngState.usedRings_unused {g : IngState} {w : IngTable}
    (h : ∀ n : Fin 16, sensEn g.sens[n] = true → g.uses n w = false) :
    g.usedRings w = 0 := by
  have unused (n : Fin 16) : (sensEn g.sens[n] && g.uses n w) = false := Bool.and_eq_false_imp.mpr (h n)
  exact List.foldlRecOn (motive := (· = 0)) _ _ rfl fun a ha n _ =>
    (if_neg (Bool.eq_false_iff.mp (unused n))).trans ha

/-- A sensor that the block disables loses EN, and no other entry changes. -/
theorem State.sensDisable_sens (n : Fin 16) :
    (s.sensDisable n).ing.sens = s.ing.sens.set n (setBit s.ing.sens[n] 0 false) := by
  have hkeep : ((s.sweepClose n false).sweepClose n true).ing.sens = s.ing.sens :=
    (State.sweepClose_keeps n true).2.trans (State.sweepClose_keeps n false).2
  simp only [State.sensDisable, State.modIng_ing, hkeep]

theorem sensEn_setBit (e : BitVec 256) : sensEn (setBit e 0 false) = false := by
  simp [sensEn, setBit, setFld, ofBool, bit]

/-- What a double error in word `w` does to sensor `n`. -/
def State.sensLost (w : IngTable) (t : State) (n : Fin 16) : State :=
  if sensEn t.ing.sens[n] && t.ing.uses n w then t.sensDisable n else t

theorem State.sensLost_sens {w : IngTable} {m : Fin 16} : (s.sensLost w m).ing.sens =
    if sensEn s.ing.sens[m] && s.ing.uses m w then s.ing.sens.set m (setBit s.ing.sens[m] 0 false) else s.ing.sens := by
  unfold State.sensLost
  split
  · exact State.sensDisable_sens m
  · rfl

/-- A double error disables every enabled sensor that uses the word, and posts for the rings they had. -/
theorem State.ingFault_double (w : IngTable) : s.ingFault (.double w) =
    ((List.finRange 16).foldl (State.sensLost w) s).ingPost 0x4031 (s.ing.usedRings w) := rfl

theorem State.foldl_sensLost_unused {w : IngTable} (l : List (Fin 16))
    (h : ∀ n : Fin 16, sensEn s.ing.sens[n] = true → s.ing.uses n w = false) : l.foldl (State.sensLost w) s = s := by
  have unused (n : Fin 16) : (sensEn s.ing.sens[n] && s.ing.uses n w) = false := Bool.and_eq_false_imp.mpr (h n)
  refine List.foldlRecOn (motive := (· = s)) _ _ rfl fun t ht n _ => ?_
  rw [ht]
  exact if_neg (Bool.eq_false_iff.mp (unused n))

/-- Only the entry of the sensor itself changes. -/
theorem State.sensLost_other {w : IngTable} {m n : Fin 16} (h : n ≠ m) : (s.sensLost w m).ing.sens[n] = s.ing.sens[n] := by
  rw [State.sensLost_sens]
  split
  · exact Vector.getElem_set_ne _ _ fun e => h (Fin.ext e.symm)
  · rfl

/-- A sensor that uses the word is disabled. -/
theorem State.sensLost_self {w : IngTable} {n : Fin 16} (hu : s.ing.uses n w = true) :
    sensEn (s.sensLost w n).ing.sens[n] = false := by
  rw [State.sensLost_sens, hu, Bool.and_true]
  split
  case isTrue => simp [sensEn_setBit]
  case isFalse h => exact Bool.eq_false_iff.mpr h

/-- Whether a sensor uses a word is decided by its own entry. -/
theorem IngState.uses_congr {g g' : IngState} {w : IngTable} {n : Fin 16} (h : g'.sens[n] = g.sens[n]) :
    g'.uses n w = g.uses n w := by
  cases w <;> simp only [IngState.uses, h]

/-- Sensors whose turn has not come are as they were. -/
theorem State.foldl_sensLost_other {w : IngTable} {n : Fin 16} (l : List (Fin 16)) (hl : n ∉ l) :
    (l.foldl (State.sensLost w) s).ing.sens[n] = s.ing.sens[n] :=
  List.foldlRecOn (motive := fun t : State => t.ing.sens[n] = s.ing.sens[n]) l _ rfl fun _ ht _ hm =>
    (State.sensLost_other (ne_of_mem_of_not_mem hm hl).symm).trans ht

/-- A sensor that uses the word is disabled once its turn has come. -/
theorem State.foldl_sensLost {w : IngTable} {n : Fin 16} (l : List (Fin 16)) (hn : n ∈ l) (s : State)
    (hu : s.ing.uses n w = true) (hd : l.Nodup) : sensEn (l.foldl (State.sensLost w) s).ing.sens[n] = false := by
  induction l generalizing s with
  | nil => cases hn
  | cons m l ih =>
    obtain ⟨hm, hd⟩ := List.nodup_cons.mp hd
    rw [List.foldl_cons]
    by_cases h : n = m
    · subst h
      rw [State.foldl_sensLost_other l hm]
      exact State.sensLost_self hu
    · refine ih ((List.mem_cons.mp hn).resolve_left h) _ ?_ hd
      rw [IngState.uses_congr (State.sensLost_other h), hu]

/-- A frame struck in its FIFO is lost. -/
theorem State.ingFault_fifo {x : RxFrame} {rest : List RxItem} (h : s.ing.port[p].fifo = .frame x :: rest) :
    s.ingFault (.fifo p) = (s.modPort p fun q => { q with fifo := rest }).ingPost 0x4032 (s.ing.portRings p) := by
  simp only [State.ingFault, h]

theorem State.ingFault_staging (h : s.ing.ring[p].stage ≠ []) : s.ingFault (.staging p) = s.burstLost p 0 :=
  if_neg (by simpa using h)

/-- The items of a staging buffer that a parity error keeps. -/
def StageItem.isClose : StageItem → Bool
  | .close _ => true
  | .record _ _ => false

/-- Of the burst lost, the closes stay. -/
theorem State.burstLost_stage (more : Nat) : (s.burstLost p more).ing.ring[p].stage =
    (s.ing.ring[p].stage.take 4).filter StageItem.isClose ++ s.ing.ring[p].stage.drop 4 := by
  have hring : (s.burstLost p more).ing.ring[p].stage = _ := congrArg IngRing.stage (Vector.getElem_set_self _)
  exact hring.trans (congrArg (· ++ _) (List.filter_congr fun i _ => by cases i <;> rfl))

end

/-! ### The statement -/

/-- Settles O29: each write by who makes it and what it would store, then the writer, injection and the storage faults. -/
theorem ingestBlock : Obligations.IngestBlock := by
  refine ⟨?writes, ?work⟩
  case writes =>
    intro s n p ini off data h v g r owner refused withIng withRing
    have own (ho : owner) : ingOwner ini = true := ingOwner_iff.mpr ho
    refine ⟨?tplWhole, ?tplUsed, ?sens, ?ext, ?other, ?hold, ?rctl, ?slotmap, ?injq⟩
    case tplWhole =>
      intro hl ho hu w stored
      have hunused : g.tplUsed n = false :=
        Bool.eq_false_iff.mpr fun hused => (IngState.tplUsed_iff.mp hused).elim fun i ⟨he, ht⟩ => hu i he ht
      exact (inRange_of_ok (bytesIn_whole hl (by decide))).trans (congrArg _ (State.tplWrite_whole (own ho) hunused hl))
    case tplUsed =>
      exact fun hb hu => (inRange_of_ok hb).trans (congrArg _ (State.tplWrite_refused (.inr (IngState.tplUsed_iff.mpr hu))))
    case sens =>
      exact fun hb ho he => ⟨fun hw hv => (inRange_of_ok hb).trans (congrArg _ (State.sensWrite_enable (own ho) he hw hv)),
        fun hw hv => (inRange_of_ok hb).trans (congrArg _ (State.sensWrite_invalid (own ho) he hw hv))⟩
    case ext =>
      intro hb ho hz hl
      subst hz
      exact (inRange_of_ok hb).trans (congrArg _ (State.extWrite_commit (own ho) hl))
    case other =>
      intro ho
      have hno : ingOwner ini = false := Bool.eq_false_iff.mpr fun h => ho (ingOwner_iff.mp h)
      exact ⟨fun hb => (inRange_of_ok hb).trans (congrArg _ (State.extWrite_other hno)),
        fun hb => (inRange_of_ok hb).trans (congrArg _ (State.sensWrite_other hno)),
        fun hb => (inRange_of_ok hb).trans (congrArg _ (State.slotmapWrite_other hno)),
        congrArg _ (State.rctlWrite_other hno)⟩
    case hold =>
      intro hi rn hn forward
      rw [exec_holdWrite, execHoldWrite, hi]
      exact ⟨fun hf => congrArg _ (State.holdWrite_forward hf), fun hf => congrArg _ (State.holdWrite_refused hf)⟩
    case rctl =>
      intro ho w
      have disabled (hb : bit v 0 = false) := State.rctlWrite_disable (s := s) (p := p) (own ho) hb
      refine ⟨fun hb hp hr => congrArg _ (State.rctlWrite_enable (own ho) hb hp hr),
        fun hb hp => congrArg _ (State.rctlWrite_unplaced hb hp), fun hb hr => ?_, fun hb hr => ?_⟩
      · exact congrArg _ ((disabled hb).trans (by rw [if_neg (Bool.eq_false_iff.mp hr)]; rfl))
      · exact congrArg _ ((disabled hb).trans (by rw [if_pos hr]))
    case slotmap =>
      intro hl ho harm hsingle
      have hdis : s.armed = false := by simp [State.armed, harm, hsingle]
      exact (inRange_of_ok (bytesIn_whole hl (by decide))).trans (congrArg _ (State.slotmapWrite_disarmed (own ho) hdis))
    case injq =>
      intro hl hi w staged good
      rw [exec_injqWrite, execInjqWrite, inRange_of_ok (bytesIn_whole hl (by decide)), hi]
      exact ⟨fun hg => congrArg _ (State.injqWrite_taken hl hg), fun hg => congrArg _ (State.injqWrite_refused hl hg)⟩
  case work =>
    intro s p g r turn own
    refine ⟨?ownSlot, ?idle, ?given, ?record, ?injOff, ?inject, fun _ => rfl, ?unused, ?double, ?fifo, ?parity⟩
    case ownSlot =>
      intro hown hr
      subst hown
      exact congrArg _ (State.writerBurst_serves (IngState.serve_own hr))
    case idle => exact fun hr => congrArg _ (State.writerBurst_idle (IngState.serve_none hr))
    case given =>
      exact fun q hown hq hu => congrArg _ (State.writerBurst_serves (IngState.serve_given hown hq hu))
    case record => exact fun w x bytes hx hon hs hroom _ ht => State.writeRecord_put hx hon hs hroom ht
    case injOff => exact fun w rest hq hoff hs => congrArg _ (State.injExecute_off hq hoff hs)
    case inject => exact fun w rest hq => congrArg _ (State.injExecute_cons hq)
    case unused =>
      exact fun w hu => congrArg _ ((State.ingFault_double w).trans
        (by rw [State.foldl_sensLost_unused _ hu, IngState.usedRings_unused hu]))
    case double =>
      intro w t ht n _ hu
      cases ht
      exact State.foldl_sensLost _ (List.mem_finRange n) s hu (List.nodup_finRange 16)
    case fifo => exact fun x rest hf => congrArg _ (State.ingFault_fifo hf)
    case parity =>
      intro f hf
      obtain ⟨more, hlost⟩ : ∃ more, s.ingFault f = s.burstLost p more := by
        obtain rfl | ⟨rfl, hne⟩ := hf
        · exact ⟨g.feeding p, rfl⟩
        · exact ⟨0, State.ingFault_staging hne⟩
      refine ⟨_, congrArg Host.Outcome.next hlost, (State.burstLost_stage more).trans ?_⟩
      exact congrArg (· ++ _) (List.filter_congr fun i _ => by cases i <;> rfl)

end Sys2Proof.Machine
end

/-! The proofs: the brick grid, its commands GINIT and GINS. -/

section
namespace Sys2Proof.Machine

/-! ### What a DDR read leaves alone: the cores (R329, R332, R338) -/

section
variable (s : State)

@[simp] theorem State.grantFor_cores (who : DdrWho) (bs : List Nat) : (s.grantFor who bs).cores = s.cores := by
  cases who with
  | part _ p => exact List.foldlRecOn (motive := fun t : State => t.cores = s.cores) bs _ rfl fun _ ht _ _ => ht
  | _ => rfl

@[simp] theorem State.ddrFetch_cores (who : DdrWho) (a n : Nat) : (s.ddrFetch who a n).1.cores = s.cores := by
  unfold State.ddrFetch
  split
  case isFalse => rfl
  dsimp only
  split
  case isFalse => rfl
  split
  · rfl
  · exact List.foldlRecOn (motive := fun t : State => t.cores = s.cores) _ _ rfl fun _ ht _ _ => ht

@[simp] theorem State.ddrReadFree_cores (who : DdrWho) (a n : Nat) : (s.ddrReadFree who a n).1.cores = s.cores := by
  have hread : (s.ddrRead who a n).1.cores = s.cores := by
    unfold State.ddrRead
    dsimp only
    split <;> simp
  unfold State.ddrReadFree
  split
  case h_1 t _ h => exact (congrArg (fun x => x.1.cores) h).symm.trans hread
  case h_2 t h => exact (congrArg (fun x => x.1.cores) h).symm.trans hread

@[simp] theorem State.spillRead_cores (c : CoreId) (i : Nat) : (s.spillRead c i).1.cores = s.cores :=
  State.ddrReadFree_cores ..

@[simp] theorem State.ownedSpills_cores (c : CoreId) (is : List Nat) : (State.ownedSpills c is s).1.cores = s.cores := by
  induction is generalizing s with
  | nil => rfl
  | cons i is ih => exact (ih _).trans (s.spillRead_cores c i)

@[simp] theorem State.spills_cores (c : CoreId) : (s.spills c).1.cores = s.cores := by
  unfold State.spills
  dsimp only
  split
  · exact s.ownedSpills_cores c _
  · rfl

@[simp] theorem State.findBrick_cores (c : CoreId) (k : Word) : (s.findBrick c k).1.cores = s.cores := by
  unfold State.findBrick
  split
  · rfl
  · exact s.spills_cores c

/-- Only the spill agent reads DDR for a key (R137). -/
theorem State.findBrick_noSpill {c : CoreId} (h : gdSpill s.cores[c].geo.desc = false) (k : Word) : (s.findBrick c k).1 = s := by
  have hspills : (s.spills c).1 = s := by rw [State.spills, h]; rfl
  unfold State.findBrick
  split
  · rfl
  · exact hspills

end

/-! ### Commands of GEO (R69, R71) -/

section
variable {s t : State} {c : CoreId} {q : EngCmd} {n op : Nat} {run : EngCmd → State → EngineRun}

theorem State.geoStep_done (h : s.Works c 4 q n) (ho : q.opc = op) (hr : run q s = .done t) :
    s.geoStep c op run = t.performed c 4 := engineStep_done h (beq_iff_eq.mpr ho) hr

theorem State.geoStep_wait (h : s.Works c 4 q n) (ho : q.opc = op) (hr : run q s = .wait 1 t) :
    s.geoStep c op run = t.partly c 4 := engineStep_wait h (beq_iff_eq.mpr ho) hr

/-- A command that holds without having made an access leaves the module as it is. -/
theorem State.geoStep_hold (h : s.Works c 4 q n) (ho : q.opc = op) (hr : run q s = .hold s) : s.geoStep c op run = s := by
  obtain ⟨hcur, hhead, -, hwork⟩ := h
  simp [-Fin.getElem_fin, State.geoStep, State.engineStep, State.engineWork, State.noteLost, hcur, hhead, hwork,
    EngWork.none, ho, hr]

theorem State.Works.work (h : s.Works c 4 q n) : s.cores[c].engines[(4 : Fin 7)].work = EngWork.none := by
  obtain ⟨-, -, -, hwork⟩ := h
  exact hwork

theorem State.Works.latch (h : s.Works c 4 q n) : s.cores[c].engines[(4 : Fin 7)].work.latch = [] :=
  congrArg EngWork.latch h.work

theorem State.Works.phase (h : s.Works c 4 q n) : s.cores[c].engines[(4 : Fin 7)].phase = n := by
  obtain ⟨-, -, hphase, -⟩ := h
  exact hphase

end

/-! ### GINIT (R144, R145) -/

/-- The geometry side at the start of a grid. -/
def GeoCore.begun (g : GeoCore) (p : Fin 4) (d : Rec64) : GeoCore :=
  { g with
    gid := gdGid d, st := 1, desc := d, part := p, table := [], lcount := 0, cnt := ScanCounts.zero, posted := 0
    stray := 0, nstale := 0, cecc := 0, qcnt := 0, marks := [], exchanged := none, spl := [] }

/-- The partition's spill segment has a holder. -/
def State.withHolder (s : State) (p : Fin 4) (gid : BitVec 32) : State :=
  { s with grd := { s.grd with holder := s.grd.holder.set p gid } }

/-- A grid starts on core `c`, and takes the segment when it may spill. -/
def State.gridBegin (s : State) (c : CoreId) (p : Fin 4) (d : Rec64) : State :=
  if gdSpill d then (s.modGeo c fun g => g.begun p d).withHolder p (gdGid d) else s.modGeo c fun g => g.begun p d

section
variable {s : State} {c : CoreId} {p : Fin 4} {d : Rec64}

theorem State.gridBegin_cores : (s.gridBegin c p d).cores = (s.modGeo c fun g => g.begun p d).cores := by
  unfold State.gridBegin
  split <;> rfl

theorem State.gridBegin_core : (s.gridBegin c p d).cores[c] = { s.cores[c] with geo := s.cores[c].geo.begun p d } := by
  simp only [State.gridBegin_cores]
  exact State.modCore_same s c _

theorem State.gridBegin_other {o : CoreId} (h : o ≠ c) : (s.gridBegin c p d).cores[o] = s.cores[o] := by
  simp only [State.gridBegin_cores]
  exact State.modCore_other s h _

theorem State.gridBegin_holder (h : gdSpill d = true) : (s.gridBegin c p d).grd.holder[p] = gdGid d := by
  simp [State.gridBegin, State.withHolder, h]

theorem State.ginit_done {q : EngCmd} (hw : s.Works c 4 q 0) (h0 : q.cspec = 0) (h1 : fld q.w1 23 41 = 0) (h2 : q.w2 = 0)
    (h3 : q.w3 = 0) (ha : fld q.w1 0 23 % 64 = 0) (hr : s.cores[c].spd.Ready [(fld q.w1 0 23, 64)])
    (hd : BitVec.ofNat 512 (s.cores[c].spd.num (fld q.w1 0 23) 64) = d) (hok : gdOk d = true)
    (hc : (gdSet d).testBit c.val = true) (hp : ∀ o ∈ setCores (gdSet d), s.partOf o = q.part)
    (hs : s.spillOk c q.part d = true) : s.ginit c q = .done (s.gridBegin c q.part d) := by
  have hmixed : (setCores (gdSet d)).any (fun o => decide (s.partOf o ≠ q.part)) = false := by
    simpa using hp
  rw [State.ginit, if_neg (by simp [h0, h1, h2, h3, ha])]
  refine overSpd_done hw.latch hr ?_
  simp only [hd, hok, hc, hmixed, hs, Bool.not_true, Bool.or_false, Bool.false_eq_true, if_false]
  unfold State.gridBegin
  split <;> rfl

end

/-! ### GINS (R146, R147) -/

/-- The two states differ in core `c` at most, of all the cores. -/
def State.SameOthers (c : CoreId) (s t : State) : Prop := ∀ o, o ≠ c → t.cores[o] = s.cores[o]

section
variable {s t u : State} {c : CoreId}

theorem State.SameOthers.refl : State.SameOthers c s s := fun _ _ => rfl

theorem State.SameOthers.trans (h : State.SameOthers c s t) (h' : State.SameOthers c t u) : State.SameOthers c s u :=
  fun o ho => (h' o ho).trans (h o ho)

theorem State.SameOthers.of_cores (h : t.cores = s.cores) : State.SameOthers c s t := fun o _ => by rw [h]

theorem State.SameOthers.modCore (f : CoreSt → CoreSt) : State.SameOthers c s (s.modCore c f) :=
  fun _ ho => State.modCore_other s ho f

theorem State.SameOthers.foldl {α : Type} {l : List α} {f : State → α → State} (h : ∀ u a, State.SameOthers c u (f u a)) :
    State.SameOthers c s (l.foldl f s) :=
  List.foldlRecOn (motive := State.SameOthers c s) l f .refl fun _ hu a _ => hu.trans (h _ a)

theorem State.sendRecord_sameOthers (slot : Nat) (tr : Bool) (r : List Byte) :
    State.SameOthers c s (s.sendRecord c slot tr r) := by
  unfold State.sendRecord
  dsimp only
  split
  · exact (State.SameOthers.modCore _).trans (.modCore _)
  · split
    · exact (State.SameOthers.modCore _).trans (.modCore _)
    · exact (State.SameOthers.modCore _).trans (.modCore _)

theorem State.insertEntry_sameOthers (who : DdrWho) (rbase hbase : Nat) (e : SweepEntry) :
    State.SameOthers c s (s.insertEntry c who rbase hbase e) := by
  unfold State.insertEntry
  dsimp only
  split
  · exact .foldl fun _ _ => State.sendRecord_sameOthers _ _ _
  · refine .trans (.of_cores (State.ddrReadFree_cores ..)) (.trans (.modCore _) (.foldl fun u i => ?_))
    exact .trans (.of_cores (State.ddrReadFree_cores ..)) (State.sendRecord_sameOthers _ _ _)

end

/-- The entries of a sweep list, inserted in order. -/
def State.insertEntries (s : State) (c : CoreId) (q : EngCmd) (es : List SweepEntry) : State :=
  es.foldl (fun t e => t.insertEntry c (cmdWho c q) (fld q.w2 0 48) (fld q.w3 0 48) e) s

section
variable {s : State} {c : CoreId} {q : EngCmd}

theorem State.insertEntries_sameOthers (es : List SweepEntry) : State.SameOthers c s (s.insertEntries c q es) :=
  .foldl fun _ _ => State.insertEntry_sameOthers _ _ _ _

/-- The words of a GINS in order (R146). -/
def ginsOk (q : EngCmd) : Prop :=
  q.cspec = 0 ∧ fld q.w1 23 9 = 0 ∧ fld q.w1 40 24 = 0 ∧ fld q.w2 48 16 = 0 ∧ fld q.w3 48 16 = 0 ∧ 1 ≤ fld q.w1 32 8 ∧
    fld q.w1 32 8 ≤ 128 ∧ fld q.w1 0 23 % 16 = 0 ∧ fld q.w1 0 23 + 16 * fld q.w1 32 8 ≤ 0x800000

theorem State.gins_wait {raw : List (List Byte)} (hw : s.Works c 4 q 0) (hq : ginsOk q) (hst : s.cores[c].geo.st ≠ 0)
    (hr : s.cores[c].spd.Ready [(fld q.w1 0 23, 16 * fld q.w1 32 8)])
    (hraw : ((List.range (fld q.w1 32 8)).map fun i => s.cores[c].spd.wideRead (fld q.w1 0 23 + 16 * i) 16) = raw)
    (hok : ∀ r ∈ raw, sweepEntryOk r = true)
    (hbase : ∀ r ∈ raw, (sweepEntry r).scr = false → fld q.w2 0 48 % 2 ^ 20 = 0 ∧ fld q.w3 0 48 % 4096 = 0)
    (hown : s.cores[c].spd.Ready (((raw.map sweepEntry).filter (·.scr)).map fun x =>
      (16 * (scrShare s.cores[c].geo c x).1, 16 * (scrShare s.cores[c].geo c x).2))) :
    s.gins c q = .wait 1 (s.insertEntries c q (raw.map sweepEntry)) := by
  obtain ⟨h0, h1, h2, h3, h4, h5, h6, h7, h8⟩ := hq
  have hwords : ¬ (q.cspec ≠ 0 ∨ fld q.w1 23 9 ≠ 0 ∨ fld q.w1 40 24 ≠ 0 ∨ fld q.w2 48 16 ≠ 0 ∨ fld q.w3 48 16 ≠ 0 ∨
      fld q.w1 32 8 = 0 ∨ 128 < fld q.w1 32 8 ∨ fld q.w1 0 23 % 16 ≠ 0 ∨ spdBytes < fld q.w1 0 23 + 16 * fld q.w1 32 8 ∨
      s.cores[c].geo.st = 0) := by
    simp only [h0, h1, h2, h3, h4, h7, hst, spdBytes, ne_eq, not_true_eq_false, false_or, or_false]; omega
  have hphase : s.cores[c].engines[(4 : Fin 7)].phase ≠ 1 := by rw [hw.phase]; decide
  have hall : raw.all sweepEntryOk = true := List.all_eq_true.mpr hok
  have haligned : ((raw.map sweepEntry).any (fun e => !e.scr) &&
      (decide (fld q.w2 0 48 % 2 ^ 20 ≠ 0) || decide (fld q.w3 0 48 % 4096 ≠ 0))) = false := by
    refine Bool.eq_false_iff.mpr fun hbad => ?_
    simp only [Bool.and_eq_true, List.any_map, List.any_eq_true, Function.comp, Bool.not_eq_true',
      Bool.or_eq_true, decide_eq_true_eq] at hbad
    obtain ⟨⟨r, hr, hscr⟩, hmis⟩ := hbad
    obtain ⟨h20, h12⟩ := hbase r hr hscr
    omega
  rw [State.gins, if_neg hphase, if_neg hwords, overSpd_ready hw.latch hr]
  simp only [hraw, hall, haligned, Bool.not_true, Bool.or_false, Bool.false_eq_true, if_false]
  rw [overSpd_ready hw.latch hown]
  rfl

/-- A GINS whose points have all gone to their builders ends. -/
theorem State.gins_sent (hw : s.Works c 4 q 1) (hout : s.cores[c].geo.outq = []) : s.gins c q = .done s := by
  simp only [State.gins, hw.phase, hout, if_true, List.isEmpty_nil]

end

end Sys2Proof.Machine
end

/-! The proofs: the brick grid, its commands GFIN, GNBR and GREL. -/

section
namespace Sys2Proof.Machine

/-! ### The writes of a command in work (R81, R82, R88) -/

theorem Mem.write_append (m : Mem) (a : Nat) (bs cs : List Byte) :
    m.write a (bs ++ cs) = (m.write a bs).write (a + bs.length) cs := by
  induction bs generalizing m a with
  | nil => rfl
  | cons b bs ih =>
    have hlen : a + (b :: bs).length = a + 1 + bs.length := by rw [List.length_cons]; omega
    rw [hlen]
    exact ih (m.put a b) (a + 1)

/-- A read within what was just written. -/
theorem Mem.read_write_within {m : Mem} (h : m.wf = true) (a o n : Nat) {bs : List Byte} (hn : o + n ≤ bs.length) :
    (m.write a bs).read (a + o) n = (bs.drop o).take n := by
  apply List.ext_getElem
  · rw [Mem.length_read, List.length_take, List.length_drop]; omega
  · intro i hi hi'
    rw [Mem.length_read] at hi
    have hbyte := Mem.getD_read (m.write a bs) (a + o) n i hi
    rw [Mem.byte_write h, if_pos ⟨by omega, by omega⟩, show a + o + i - a = o + i by omega] at hbyte
    simpa [List.getD_eq_getElem?_getD, Mem.length_read, hi, show o + i < bs.length by omega] using hbyte

/-- The number in a field of what was just written. -/
theorem Mem.num_write_field {m : Mem} (h : m.wf = true) (a o v : Nat) {bs : List Byte} (hn : o + 4 ≤ bs.length)
    (hf : (bs.drop o).take 4 = leBytes 4 v) : (m.write a bs).num (a + o) 4 = v % 2 ^ 32 := by
  rw [Mem.num, Mem.read_write_within h a o 4 hn, hf, leNat_leBytes, show 256 ^ 4 = 2 ^ 32 by decide]

theorem SpdState.Writable.line {p : SpdState} {a n x : Nat} (h : p.Writable [(a, n)]) (hx : a ≤ x) (hx' : x < a + n) :
    p.lineOn (x / 256) = true ∧ p.mayWrite (x / 256) = true := by
  refine h _ ?_
  simp only [rangeLines, List.flatMap_cons, List.flatMap_nil, List.append_nil, linesOf, if_neg (show n ≠ 0 by omega),
    List.mem_map, List.mem_range]
  exact ⟨x / 256 - a / 256, by omega, by omega⟩

/-- Wide writes of a whole range, cut into lines, are one write of it where every line is powered and may be written. -/
theorem drainPuts_cut {e fuel a : Nat} {bs : List Byte} {p : SpdState} {b : Bool} (hfuel : bs.length < fuel)
    (h : ∀ x, a ≤ x → x < a + bs.length → p.lineOn (x / 256) = true ∧ p.mayWrite (x / 256) = true) :
    drainPuts e ((cut 256 fuel a bs).map fun r => ⟨r.1, r.2, false⟩) p b = ({ p with mem := p.mem.write a bs }, [], b) := by
  induction fuel generalizing a bs p with
  | zero => omega
  | succ fuel ih =>
    by_cases hbs : bs = []
    · subst hbs; rfl
    have hpos := List.length_pos_iff.mpr hbs
    obtain ⟨hon, hmay⟩ := h a (Nat.le_refl a) (by omega)
    by_cases hfit : bs.length ≤ 256 - a % 256
    · rw [cut_within fuel hbs hfit]
      exact drainPuts_cons hon hmay
    · have hlen : (bs.take (256 - a % 256)).length = 256 - a % 256 := List.length_take_of_le (by omega)
      have hcut : cut 256 (fuel + 1) a bs = (a, bs.take (256 - a % 256)) ::
          cut 256 fuel (a + (256 - a % 256)) (bs.drop (256 - a % 256)) := if_neg (by simpa using hbs)
      have hwrite := Mem.write_append p.mem a (bs.take (256 - a % 256)) (bs.drop (256 - a % 256))
      rw [List.take_append_drop, hlen] at hwrite
      rw [hcut, List.map_cons, drainPuts_cons hon hmay, hwrite]
      refine ih (p := { p with mem := p.mem.write a (bs.take (256 - a % 256)) }) ?_ fun x hx hx' => ?_
      · rw [List.length_drop]; omega
      · rw [List.length_drop] at hx'
        exact h x (by omega) (by omega)

/-- A flush changes the bytes of the banks and the Cuff only, and keeps the canonical form. -/
theorem SpdState.flushIf_eq (p : SpdState) (f : CuffEntry → Bool) :
    ∃ m, p.flushIf f = { p with mem := m, cuff := p.cuff.filter fun e => !f e } ∧ (p.mem.wf = true → m.wf = true) := by
  have hflush : ∃ m, (p.cuff.filter f).foldl SpdState.flushEntry p = { p with mem := m } ∧ (p.mem.wf = true → m.wf = true) := by
    refine List.foldlRecOn (motive := fun x : SpdState => ∃ m, x = { p with mem := m } ∧ (p.mem.wf = true → m.wf = true))
      _ _ ⟨p.mem, rfl, id⟩ fun x hx e _ => ?_
    obtain ⟨m, rfl, hm⟩ := hx
    exact ⟨_, rfl, fun hp => List.foldlRecOn (motive := fun m : Mem => m.wf = true) _ _ (hm hp)
      fun _ h _ _ => Mem.wf_put h _ _⟩
  obtain ⟨m, hm, hwf⟩ := hflush
  exact ⟨m, congrArg (fun x : SpdState => { x with cuff := p.cuff.filter fun e => !f e }) hm, hwf⟩

/-- The results of the command in work are worked out. -/
def EngState.worked (g : EngState) : EngState := { g with work := { g.work with computed := true } }

section
variable {s : State} {c : CoreId} {e : Fin 7} {p : SpdState}

/-- The engine has made every write that was due, and none was lost: the command in work is performed. -/
theorem State.finishWork_core
    (h : drainPuts e.val s.cores[c].engines[e].work.puts s.cores[c].spd s.cores[c].engines[e].work.lost = (p, [], false)) :
    (s.finishWork c e).cores[c].geo = s.cores[c].geo ∧ (s.finishWork c e).cores[c].spd = p := by
  unfold State.finishWork
  simp only [h]
  simp [State.noteLost]

theorem State.performed_core
    (h : drainPuts e.val s.cores[c].engines[e].work.puts s.cores[c].spd s.cores[c].engines[e].work.lost = (p, [], false)) :
    (s.performed c e).cores[c].geo = s.cores[c].geo ∧ (s.performed c e).cores[c].spd = p := by
  obtain ⟨hgeo, hspd⟩ := State.finishWork_core (s := s.modEng c e EngState.worked) (c := c) (e := e) (p := p)
    (by simpa [EngState.worked] using h)
  exact ⟨hgeo.trans (by simp), hspd⟩

end

/-! ### GFIN (R150, R151) -/

/-- A core's counts with its bricks change nothing of a core but the list of its spilled bricks. -/
theorem State.ownCounts_core (s : State) (d c : CoreId) :
    ∃ l, (s.ownCounts d).1.cores[c] = { s.cores[c] with geo := { s.cores[c].geo with spl := l } } := by
  have hcores : (s.ownCounts d).1.cores =
      (s.modGeo d fun g => { g with spl := (s.spills d).2.map (·.1) }).cores := by
    simp [State.ownCounts]
  simp only [hcores]
  by_cases h : c = d
  · subst h; exact ⟨_, State.modCore_same s c _⟩
  · exact ⟨_, State.modCore_other s h _⟩

theorem mem_setCores {m : Nat} {c : CoreId} : c ∈ setCores m ↔ m.testBit c.val = true := by simp [setCores]

theorem setCores_nodup (m : Nat) : (setCores m).Nodup := (List.nodup_finRange 32).filter _

section
variable {s : State} {c : CoreId} {f : GeoCore → GeoCore} {l : List CoreId}

theorem State.foldl_modGeo_not_mem (h : c ∉ l) : (l.foldl (fun t d => t.modGeo d f) s).cores[c] = s.cores[c] :=
  List.foldlRecOn (motive := fun t : State => t.cores[c] = s.cores[c]) l _ rfl fun t ht d hd =>
    (State.modCore_other t (ne_of_mem_of_not_mem hd h).symm _).trans ht

/-- One change of every core of a list changes a core of the list once. -/
theorem State.foldl_modGeo_mem (hl : l.Nodup) (h : c ∈ l) :
    (l.foldl (fun t d => t.modGeo d f) s).cores[c] = { s.cores[c] with geo := f s.cores[c].geo } := by
  induction l generalizing s with
  | nil => exact absurd h List.not_mem_nil
  | cons d l ih =>
    obtain ⟨hd, hl⟩ := List.nodup_cons.mp hl
    by_cases hc : c = d
    · subst hc
      exact (State.foldl_modGeo_not_mem hd).trans (State.modCore_same s c _)
    · have hcore : (s.modGeo d f).cores[c] = s.cores[c] := State.modCore_other s hc _
      rw [List.foldl_cons, ih hl (List.mem_of_ne_of_mem hc h), hcore]

end

section
variable {s : State} {c : CoreId} {q : EngCmd}

/-- The set's exchange gives each core of it the counts, and leaves the rest of the core as it was but for its list of spilled
bricks and its end markers. -/
theorem State.exchange_core {set : Nat} (hc : set.testBit c.val = true) :
    ∃ (l : List Nat) (k : ScanCounts), (s.exchange set).cores[c] =
      { s.cores[c] with geo := ({ s.cores[c].geo with spl := l } : GeoCore).agree set k } := by
  let counted := (setCores set).foldl
    (fun (a : State × ScanCounts) d => ((a.1.ownCounts d).1, a.2.plus (a.1.ownCounts d).2)) (s, ScanCounts.zero)
  have hcounted : ∃ l, counted.1.cores[c] = { s.cores[c] with geo := { s.cores[c].geo with spl := l } } := by
    refine List.foldlRecOn (motive := fun a : State × ScanCounts =>
      ∃ l, a.1.cores[c] = { s.cores[c] with geo := { s.cores[c].geo with spl := l } }) _ _ ?start fun a ha d _ => ?step
    case start => exact ⟨_, rfl⟩
    case step =>
      obtain ⟨_, ha⟩ := ha
      obtain ⟨l, hl⟩ := a.1.ownCounts_core d c
      exact ⟨l, by rw [hl, ha]⟩
  obtain ⟨l, hl⟩ := hcounted
  exact ⟨l, counted.2, (State.foldl_modGeo_mem (setCores_nodup set) (mem_setCores.mpr hc)).trans (by rw [hl])⟩

/-- The status block's place in core `c`'s writes, and the end of the scan there. -/
def CoreSt.gfinEnd (k : CoreSt) (a : Nat) (block : List Byte) : CoreSt :=
  { k with
    spd := k.spd.flushIf fun x => bit x.owners 4
    geo := { k.geo with st := 2, exchanged := none }
    engines := k.engines.set 4 { k.engines[(4 : Fin 7)] with work := { k.engines[(4 : Fin 7)].work with
      puts := k.engines[(4 : Fin 7)].work.puts ++ (cut 256 (block.length + 1) a block).map fun r => ⟨r.1, r.2, false⟩ } } }

theorem CoreSt.gfinEnd_work {k : CoreSt} (a : Nat) (block : List Byte) (h : k.engines[(4 : Fin 7)].work = EngWork.none) :
    (k.gfinEnd a block).engines[(4 : Fin 7)].work =
      ⟨[], false, (cut 256 (block.length + 1) a block).map fun r => ⟨r.1, r.2, false⟩, false⟩ := by
  refine (congrArg EngState.work (Vector.getElem_set_self _)).trans ?_
  rw [h]
  rfl

theorem State.gfinEnd_core (a : Nat) (k : ScanCounts) :
    ∃ own, (s.gfinEnd c a k).cores[c] =
      s.cores[c].gfinEnd a (statusBlock s.cores[c].geo.gid (isSafety s.cores[c].geo.part) k own) := by
  let own : ScanCounts := { ScanCounts.zero with bloc := s.cores[c].geo.lcount, bspl := s.cores[c].geo.spl.length }
  let block := statusBlock s.cores[c].geo.gid (isSafety s.cores[c].geo.part) k own
  have hcores : (s.gfinEnd c a k).cores = (s.modCore c fun x => x.gfinEnd a block).cores := by
    unfold State.gfinEnd State.modSpd State.wideWrite State.enginePut State.modEng State.modGeo
    simp only [State.modCore_modCore]
    split <;> rfl
  simp only [hcores]
  exact ⟨own, State.modCore_same s c _⟩

/-- The block of a scan's end is written whole where its lines are powered and may be written. -/
theorem State.gfinEnd_written {t : State} {k : CoreSt} {a : Nat} {block : List Byte} (hcore : t.cores[c] = k.gfinEnd a block)
    (hwork : k.engines[(4 : Fin 7)].work = EngWork.none) (hw : k.spd.Writable [(a, block.length)]) :
    (t.performed c 4).cores[c].geo = { k.geo with st := 2, exchanged := none } ∧
      ∃ m : Mem, (k.spd.mem.wf = true → m.wf = true) ∧ (t.performed c 4).cores[c].spd.mem = m.write a block := by
  obtain ⟨m, hflush, hm⟩ := k.spd.flushIf_eq fun x => bit x.owners 4
  have hspd : t.cores[c].spd = { k.spd with mem := m, cuff := k.spd.cuff.filter fun e => !bit e.owners 4 } :=
    (congrArg CoreSt.spd hcore).trans hflush
  have hputs := (congrArg (fun k : CoreSt => k.engines[(4 : Fin 7)].work) hcore).trans (CoreSt.gfinEnd_work a block hwork)
  have hdrain := drainPuts_cut (e := (4 : Fin 7).val) (p := t.cores[c].spd) (b := false) (Nat.lt_succ_self block.length)
    (a := a) fun x hx hx' => by rw [hspd]; exact hw.line hx hx'
  obtain ⟨hgeo, hput⟩ := State.performed_core (s := t) (c := c) (e := 4) (by rw [hputs]; exact hdrain)
  exact ⟨hgeo.trans (congrArg CoreSt.geo hcore), m, hm,
    (congrArg SpdState.mem hput).trans (congrArg (fun p : SpdState => p.mem.write a block) hspd)⟩

theorem statusBlock_length (gid : BitVec 32) (safety : Bool) (k own : ScanCounts) :
    (statusBlock gid safety k own).length = 64 := by simp [statusBlock, leBytes_length]

/-- The block's fields GID, PIN and PINS. -/
theorem statusBlock_fields (gid : BitVec 32) (safety : Bool) (k own : ScanCounts) :
    let block := statusBlock gid safety k own
    (block.drop 0).take 4 = leBytes 4 gid.toNat ∧ (block.drop 8).take 4 = leBytes 4 k.pin ∧
      (block.drop 12).take 4 = leBytes 4 k.pins := by
  simp [statusBlock, List.drop_append, List.drop_eq_nil_of_le, leBytes_length]

/-- GFIN's end: the grid is finished, and the scan status block begins with its identifier, FLAGS, PIN and PINS (R151). -/
theorem State.gfinEnd_performed {t : State} {a : Nat} {k : ScanCounts} (ht : (s.gfinEnd c a k).performed c 4 = t)
    (hwork : s.cores[c].engines[(4 : Fin 7)].work = EngWork.none)
    (hwf : s.cores[c].spd.mem.wf = true) (hw : s.cores[c].spd.Writable [(a, 64)]) :
    t.cores[c].geo.st = 2 ∧ t.cores[c].spd.mem.num a 4 = s.cores[c].geo.gid.toNat ∧
      t.cores[c].spd.mem.num (a + 8) 4 = k.pin % 2 ^ 32 ∧ t.cores[c].spd.mem.num (a + 12) 4 = k.pins % 2 ^ 32 := by
  subst ht
  obtain ⟨own, hcore⟩ := s.gfinEnd_core (c := c) a k
  have hlen := statusBlock_length s.cores[c].geo.gid (isSafety s.cores[c].geo.part) k own
  obtain ⟨hgeo, m, hm, hmem⟩ := State.gfinEnd_written hcore hwork (by rw [hlen]; exact hw)
  obtain ⟨hgid, hpin, hpins⟩ := statusBlock_fields s.cores[c].geo.gid (isSafety s.cores[c].geo.part) k own
  refine ⟨congrArg GeoCore.st hgeo, ?_, ?_, ?_⟩ <;> rw [hmem]
  · exact (Mem.num_write_field (hm hwf) a 0 _ (by omega) hgid).trans (Nat.mod_eq_of_lt s.cores[c].geo.gid.isLt)
  · exact Mem.num_write_field (hm hwf) a 8 _ (by omega) hpin
  · exact Mem.num_write_field (hm hwf) a 12 _ (by omega) hpins

end

section
variable {s : State} {c : CoreId} {q : EngCmd}

/-- The end markers of a GFIN, one to every builder of the set (R150). -/
def GeoCore.sendMarks (g : GeoCore) : GeoCore :=
  { g with outq := g.outq ++ (setCores (gdSet g.desc)).map fun d => (d, .mark g.gid) }

theorem State.gfin_marks (hw : s.Works c 4 q 0) (h0 : q.cspec = 0) (h1 : fld q.w1 23 41 = 0) (h2 : q.w2 = 0) (h3 : q.w3 = 0)
    (ha : fld q.w1 0 23 % 64 = 0) (hst : s.cores[c].geo.st ≠ 0) : s.gfin c q = .wait 1 (s.modGeo c GeoCore.sendMarks) := by
  have hwords : ¬ (q.cspec ≠ 0 ∨ fld q.w1 23 41 ≠ 0 ∨ q.w2 ≠ 0 ∨ q.w3 ≠ 0 ∨ fld q.w1 0 23 % 64 ≠ 0 ∨ s.cores[c].geo.st = 0) := by
    simp only [h0, h1, h2, h3, ha, hst, ne_eq, not_true_eq_false, or_false, not_false_eq_true]
  simp only [State.gfin, hw.phase, if_true, if_neg hwords]
  rfl

theorem State.gfin_exchanged {k : ScanCounts} (hw : s.Works c 4 q 1) (hk : s.cores[c].geo.exchanged = some k) :
    s.gfin c q = .done (s.gfinEnd c (fld q.w1 0 23) k) := by
  simp only [State.gfin, hw.phase, hk, Option.isNone_some, Bool.false_and, Bool.false_eq_true, if_false, if_neg Nat.one_ne_zero]

theorem State.gfin_drained {k : ScanCounts} (hw : s.Works c 4 q 1) (hnone : s.cores[c].geo.exchanged = none)
    (hall : ∀ d ∈ setCores (gdSet s.cores[c].geo.desc),
      s.drained s.cores[c].geo.gid (gdSet s.cores[c].geo.desc) d = true)
    (hk : (s.exchange (gdSet s.cores[c].geo.desc)).cores[c].geo.exchanged = some k) :
    s.gfin c q = .done ((s.exchange (gdSet s.cores[c].geo.desc)).gfinEnd c (fld q.w1 0 23) k) := by
  simp only [State.gfin, hw.phase, hnone, Option.isNone_none, List.all_eq_true.mpr hall, Bool.and_self, if_true, hk,
    if_neg Nat.one_ne_zero]

/-- GFIN waits for a core of the set that is not drained. -/
theorem State.gfin_waits (hw : s.Works c 4 q 1) (hnone : s.cores[c].geo.exchanged = none)
    (hsome : ∃ d ∈ setCores (gdSet s.cores[c].geo.desc),
      s.drained s.cores[c].geo.gid (gdSet s.cores[c].geo.desc) d = false) : s.gfin c q = .hold s := by
  have hall : (setCores (gdSet s.cores[c].geo.desc)).all
      (s.drained s.cores[c].geo.gid (gdSet s.cores[c].geo.desc)) = false := List.all_eq_false.mpr <| by
    obtain ⟨d, hd, hdrained⟩ := hsome
    exact ⟨d, hd, Bool.eq_false_iff.mp hdrained⟩
  simp only [State.gfin, hw.phase, hnone, hall, Bool.and_false, Bool.false_eq_true, if_false, if_neg Nat.one_ne_zero]

/-! ### GNBR (R153, R154) -/

/-- A change of a geometry side matters at its present value only. -/
theorem State.modGeo_congr {f g : GeoCore → GeoCore} (h : f s.cores[c].geo = g s.cores[c].geo) : s.modGeo c f = s.modGeo c g := by
  simp only [State.modGeo, State.modCore, h]

theorem State.ownBricks_cores : (s.ownBricks c).1.cores = s.cores := State.ownedSpills_cores ..

theorem State.gnbr_asks (hw : s.Works c 4 q 0) (hok : gnbrOk q s.cores[c].geo = true) :
    s.gnbr c q = .wait 1 ((s.ownBricks c).1.modGeo c fun g => { g with
      asks := asksOf (gdSet s.cores[c].geo.desc) (s.ownBricks c).2, answers := [] }) := by
  simp only [State.gnbr, hw.phase, hok, Bool.not_true, Bool.false_eq_true, if_false, if_true]
  exact congrArg _ (State.modGeo_congr (by simp only [State.ownBricks_cores]))

/-- The brick records of a GNBR whose lookups are all answered. -/
def State.brickRecords (s : State) (c : CoreId) : List Byte :=
  (s.ownBricks c).2.zipIdx.flatMap fun b => brickRecord c s.cores[c].geo.answers b.2 b.1

theorem State.gnbr_done (hw : s.Works c 4 q 1) (hasks : s.cores[c].geo.asks = []) :
    s.gnbr c q = .done (((s.ownBricks c).1.wideWrite c 4 (fld q.w1 0 23) (s.brickRecords c)).modGeo c fun g =>
      { g with answers := [] }) := by
  simp only [State.gnbr, hw.phase, hasks, List.isEmpty_nil, Bool.not_true, Bool.false_eq_true, if_false, if_neg Nat.one_ne_zero]
  rfl

/-- Without spilled bricks no DDR is read. -/
theorem State.ownBricks_noSpill (h : s.cores[c].geo.spl = []) : (s.ownBricks c).1 = s := by
  rw [State.ownBricks, h]; rfl

/-- A change of one core that keeps its sequencer, IMEM and scratchpad side. -/
theorem OnlyCore.modCore {f : CoreSt → CoreSt} (hseq : ∀ k, (f k).seq = k.seq) (himem : ∀ k, (f k).imem = k.imem)
    (hspd : ∀ k, (f k).spd = k.spd) : OnlyCore s (s.modCore c f) c := by
  refine ⟨⟨[], ?_⟩, fun d hd => State.modCore_other s hd f, ?_, ?_, ?_⟩
  · rw [List.append_nil]; rfl
  · rw [State.modCore_same, hseq]
  · rw [State.modCore_same, himem]
  · rw [State.modCore_same, hspd]

theorem State.wideWrite_modGeo_onlyCore (e : Fin 7) (a : Nat) (bs : List Byte) (f : GeoCore → GeoCore) :
    OnlyCore s ((s.wideWrite c e a bs).modGeo c f) c := by
  unfold State.wideWrite State.enginePut State.modEng State.modGeo
  rw [State.modCore_modCore]
  exact OnlyCore.modCore (fun _ => rfl) (fun _ => rfl) fun _ => rfl

/-! ### GREL (R155) -/

/-- Core `c` gives up its grid, and with it the partition's segment if the grid holds it. -/
def State.gridRelease (s : State) (c : CoreId) (p : Fin 4) (gid : BitVec 32) : State :=
  if s.grd.holder[p] = gid then (s.modGeo c GeoCore.noGrid).withHolder p 0 else s.modGeo c GeoCore.noGrid

theorem State.gridRelease_cores (p : Fin 4) (gid : BitVec 32) :
    (s.gridRelease c p gid).cores = (s.modGeo c GeoCore.noGrid).cores := by
  unfold State.gridRelease
  split <;> rfl

theorem State.gridRelease_core (p : Fin 4) (gid : BitVec 32) :
    (s.gridRelease c p gid).cores[c] = { s.cores[c] with geo := s.cores[c].geo.noGrid } := by
  simp only [State.gridRelease_cores]
  exact State.modCore_same s c _

theorem State.gridRelease_other {o : CoreId} (h : o ≠ c) (p : Fin 4) (gid : BitVec 32) :
    (s.gridRelease c p gid).cores[o] = s.cores[o] := by
  simp only [State.gridRelease_cores]
  exact State.modCore_other s h _

theorem State.gridRelease_holder {p : Fin 4} {gid : BitVec 32} (h : s.grd.holder[p] = gid) :
    (s.gridRelease c p gid).grd.holder[p] = 0 := by
  rw [State.gridRelease, if_pos h]
  simp [State.withHolder]

theorem State.grel_done (h0 : q.cspec = 0) (h1 : fld q.w1 32 32 = 0) (h2 : q.w2 = 0) (h3 : q.w3 = 0)
    (hst : s.cores[c].geo.st ≠ 0) (hgid : s.cores[c].geo.gid.toNat = fld q.w1 0 32) :
    s.grel c q = .done (s.gridRelease c q.part s.cores[c].geo.gid) := by
  have hwords : ¬ (q.cspec ≠ 0 ∨ fld q.w1 32 32 ≠ 0 ∨ q.w2 ≠ 0 ∨ q.w3 ≠ 0) := by simp [h0, h1, h2, h3]
  have hnamed : BitVec.ofNat 32 (fld q.w1 0 32) = s.cores[c].geo.gid := by rw [← hgid, BitVec.ofNat_toNat, BitVec.setWidth_eq]
  simp only [State.grel, if_neg hwords, hnamed, hst, ne_eq, not_true_eq_false, or_self, if_false]
  unfold State.gridRelease
  congr 1

end

end Sys2Proof.Machine
end

/-! The proofs: the brick grid, its builders, lookups, spill registers and faults. -/

section
namespace Sys2Proof.Machine

/-! ### The owner builders (R148 to R150, R157) -/

section
variable {s : State} {c : CoreId}

/-- Nothing reaches a builder whose queue is full, or that no source has an item for. -/
theorem State.builderGrant_none (h : 64 ≤ s.cores[c].geo.inq.length ∨
    ∀ o : CoreId, (∀ x ∈ s.cores[o].geo.outq, x.1 ≠ c) ∧ ∀ x ∈ s.cores[o].geo.rayq, x.1 ≠ c) : s.builderGrant c = s := by
  obtain hfull | hnone := h
  · exact if_pos hfull
  · have hitem (k : Nat) : s.itemFrom k c = none := by
      obtain ⟨hout, hray⟩ := hnone (Fin.ofNat 32 k)
      unfold State.itemFrom
      dsimp only
      split
      · exact List.find?_eq_none.mpr fun x hx => by simpa using hout x hx
      · exact List.find?_eq_none.mpr fun x hx => by simpa using hray x hx
    have hgrant : (rotated 64 s.cores[c].geo.token).findSome? (fun k => (s.itemFrom k c).map fun x => (k, x)) = none :=
      List.findSome?_eq_none_iff.mpr fun k _ => by rw [hitem k]; rfl
    unfold State.builderGrant
    split
    · rfl
    · rw [hgrant]

theorem State.builderStep_applies {d : CoreId} {i : GeoItem} {rest : List (CoreId × GeoItem)} (hgrant : s.builderGrant c = s)
    (hq : s.cores[c].geo.inq = (d, i) :: rest) :
    s.builderStep c = (s.modGeo c fun g => { g with inq := rest }).applyItem c d i := by
  simp only [State.builderStep, hgrant, hq]

/-- A point of the builder's grid, from a core of the set, is inserted. -/
theorem State.applyItem_point {d : CoreId} {p : RoutedPoint} (hst : s.cores[c].geo.st ≠ 0) (hgid : p.gid = s.cores[c].geo.gid)
    (hd : (gdSet s.cores[c].geo.desc).testBit d.val = true) : s.applyItem c d (.point p) = s.insertPoint c p := by
  simp only [State.applyItem, hst, hgid, hd, ne_eq, not_false_eq_true, decide_true, Bool.and_self, if_true]

/-- A point of another grid strays. -/
theorem State.applyItem_stray {d : CoreId} {p : RoutedPoint} (h : s.cores[c].geo.st = 0 ∨ p.gid ≠ s.cores[c].geo.gid) :
    s.applyItem c d (.point p) = (s.modGeo c fun g => { g with stray := g.stray + 1 }).postCore c 0x4106 := by
  refine if_neg fun hmine => ?_
  simp only [Bool.and_eq_true, decide_eq_true_eq] at hmine
  obtain ⟨⟨hst, hgid⟩, -⟩ := hmine
  exact h.elim hst fun hne => hne hgid

/-- The step of a builder that takes the head of its queue leaves its grid as it was. -/
theorem State.modGeo_inq (rest : List (CoreId × GeoItem)) :
    (s.modGeo c fun g => { g with inq := rest }).cores[c].geo = { s.cores[c].geo with inq := rest } :=
  congrArg CoreSt.geo (State.modCore_same s c _)

end

/-! ### Lookups (R153, R154) -/

theorem findSome?_of_unique {α β : Type} {f : α → Option β} {l : List α} {a : α} {b : β} (ha : a ∈ l) (hf : f a = some b)
    (hu : ∀ x ∈ l, x ≠ a → f x = none) : l.findSome? f = some b := by
  cases h : l.findSome? f with
  | none => exact absurd (hf.symm.trans (List.findSome?_eq_none_iff.mp h a ha)) (Option.some_ne_none b)
  | some x =>
    obtain ⟨y, hy, hx⟩ := List.exists_of_findSome?_eq_some h
    by_cases hya : y = a
    · rw [← hx, hya, hf]
    · exact absurd (hx.symm.trans (hu y hy hya)) (Option.some_ne_none x)

/-- The rotating token of the builders comes to every core once. -/
theorem mem_rotated {tok k : Nat} : k ∈ rotated 32 tok ↔ k < 32 := by
  simp only [rotated, List.mem_map, List.mem_range]
  constructor
  · rintro ⟨i, -, rfl⟩
    exact Nat.mod_lt _ (by decide)
  · exact fun hk => ⟨(k + 32 - (tok + 1) % 32) % 32, Nat.mod_lt _ (by decide), by omega⟩

/-- Builder `c` answers the lookup `x` of core `d` with a reference, and its token moves to `d`. -/
def State.answerAsk (s : State) (c d : CoreId) (x : CoreId × Word × Nat) (ref : Nat) : State :=
  (s.modGeo d fun h => { h with asks := h.asks.erase x, answers := SMap.set nullRef h.answers x.2.2 ref }).modGeo c
    fun g => { g with askTok := d.val }

/-- The reference under which builder `c` gives out what it found. -/
def foundRef (c : CoreId) (r : Option Nat) : Nat := match r with | some b => brickRef c b | none => nullRef

section
variable {s : State} {c d : CoreId} {x : CoreId × Word × Nat} {rest : List (CoreId × Word × Nat)}

/-- The one core that asks is answered, once the builder's own GFIN has completed. -/
theorem State.lookupStep_answers (honly : ∀ o, o ≠ d → s.cores[o].geo.asks = []) (hasks : s.cores[d].geo.asks = x :: rest)
    (hx : x.1 = c) (hst : s.cores[c].geo.st = 2) (hgid : s.cores[c].geo.gid = s.cores[d].geo.gid) :
    s.lookupStep c = (s.findBrick c x.2.1).1.answerAsk c d x (foundRef c (s.findBrick c x.2.1).2) := by
  have hd : Fin.ofNat 32 d.val = d := Fin.ext (Nat.mod_eq_of_lt d.isLt)
  have hgrant : (rotated 32 s.cores[c].geo.askTok).findSome? (fun k =>
      (s.cores[(Fin.ofNat 32 k : CoreId)].geo.asks.find? fun y => y.1 = c).map fun y => (k, y)) = some (d.val, x) := by
    refine findSome?_of_unique (a := d.val) (mem_rotated.mpr d.isLt) ?_ fun k hk hne => ?_
    · simp only [hd, hasks, List.find?_cons, hx, decide_true, Option.map_some]
    · have hother : (Fin.ofNat 32 k : CoreId) ≠ d := fun he =>
        hne ((Nat.mod_eq_of_lt (mem_rotated.mp hk)).symm.trans (congrArg Fin.val he))
      rw [honly _ hother]; rfl
  simp only [State.lookupStep, hgrant, hd, hgid, hst, ne_eq, not_true_eq_false, if_false]
  rfl

theorem State.answerAsk_asker (h : d ≠ c) (ref : Nat) : (s.answerAsk c d x ref).cores[d].geo =
    { s.cores[d].geo with asks := s.cores[d].geo.asks.erase x, answers := SMap.set nullRef s.cores[d].geo.answers x.2.2 ref } := by
  have hcore : (s.answerAsk c d x ref).cores[d] = _ := (State.modCore_other _ h _).trans (State.modCore_same s d _)
  rw [hcore]

theorem State.answerAsk_builder (h : d ≠ c) (ref : Nat) :
    (s.answerAsk c d x ref).cores[c].geo = { s.cores[c].geo with askTok := d.val } := by
  have hcore : (s.answerAsk c d x ref).cores[c] = _ := State.modCore_same _ c _
  have hother : (s.modGeo d fun h => { h with
      asks := h.asks.erase x, answers := SMap.set nullRef h.answers x.2.2 ref }).cores[c] = s.cores[c] :=
    State.modCore_other s h.symm _
  rw [hcore, hother]

end

/-! ### Spill registers (R159) -/

section
variable {s : State} {p : Fin 4} {ini : Ini}

/-- The host's PF0 and Crown write the spill registers of a partition whose segment no grid holds. -/
theorem State.spillOpen_iff : s.spillOpen p ini = true ↔ (ini = 0x60 ∨ ini = 0x70) ∧ s.grd.holder[p] = 0 := by
  simp [State.spillOpen]

theorem State.spillWrite_base (h : s.spillOpen p ini = true) (v : Word) : s.spillWrite p false ini .full v =
    { s with grd := { s.grd with spbase := s.grd.spbase.set p (v &&& 0x0000FFFFFFFFF000#64) } } := by
  simp only [State.spillWrite, h, Bool.not_true, Bool.false_eq_true, if_false]
  rfl

theorem State.spillWrite_quota {v : Word} (h : s.spillOpen p ini = true)
    (hsum : (s.grd.quota.set p (fld v 12 7)).toList.foldl (· + ·) 0 ≤ 64) :
    s.spillWrite p true ini .full v = { s with grd := { s.grd with quota := s.grd.quota.set p (fld v 12 7) } } := by
  simp only [State.spillWrite, h, Bool.not_true, Bool.false_eq_true, if_false, if_true, if_neg (Nat.not_lt.mpr hsum)]

theorem State.spillWrite_refused (hclosed : s.spillOpen p ini = false) (ctl : Bool) (h : Half) (v : Word) :
    s.spillWrite p ctl ini h v = s.post 0x4111 0xC6 := by
  simp only [State.spillWrite, hclosed, Bool.not_false, if_true]
  rfl

end

/-! ### The statement -/

/-- Settles O26: each command's run, each builder's step and each register write by the lemma about it. -/
theorem gridsAndBuilders : Obligations.GridsAndBuilders := by
  refine ⟨?commands, ?steps⟩
  case commands =>
    intro s c q p g a e
    refine ⟨?ginit, ?gins, ?ginsSent, ?gfin, ?gfinEnd, ?gnbr, ?gnbrEnd, ?grel⟩
    case ginit =>
      intro hw ho h0 h1 h2 h3 ha hr d hok hc hp hs
      have hrun : s.ginit c q = .done (s.gridBegin c q.part d) := State.ginit_done hw h0 h1 h2 h3 ha hr rfl hok hc hp hs
      refine ⟨_, hrun, congrArg _ (State.geoStep_done hw ho hrun), ?_⟩
      rw [State.gridBegin_core]
      exact ⟨rfl, rfl, rfl, rfl, rfl, State.gridBegin_holder, fun o h => State.gridBegin_other h, rfl⟩
    case gins =>
      intro hw ho h0 h1 h2 h3 h4 h5 h6 h7 h8 hst hr raw hok hbase hown
      have hrun : s.gins c q = .wait 1 (s.insertEntries c q (raw.map sweepEntry)) :=
        State.gins_wait hw ⟨h0, h1, h2, h3, h4, h5, h6, h7, h8⟩ hst hr rfl hok hbase hown
      exact ⟨_, hrun, congrArg _ (State.geoStep_wait hw ho hrun), State.insertEntries_sameOthers _⟩
    case ginsSent =>
      exact fun hw ho hout => congrArg _ (State.geoStep_done hw ho (State.gins_sent hw hout))
    case gfin =>
      exact fun hw ho h0 h1 h2 h3 ha hst => congrArg _ (State.geoStep_wait hw ho (State.gfin_marks hw h0 h1 h2 h3 ha hst))
    case gfinEnd =>
      intro hw ho set ends
      have hwork : s.cores[c].engines[(4 : Fin 7)].work = EngWork.none := hw.work
      refine ⟨fun k hk => ?exchanged, fun hnone hc hall => ?drained, fun hnone hsome => ?waits⟩
      case exchanged =>
        exact ⟨congrArg _ (State.geoStep_done hw ho (State.gfin_exchanged hw hk)), State.gfinEnd_performed rfl hwork⟩
      case drained =>
        obtain ⟨l, k, hcore⟩ := State.exchange_core (s := s) hc
        have hk : (s.exchange set).cores[c].geo.exchanged = some k := by rw [hcore]; rfl
        refine ⟨k, hk, congrArg _ (State.geoStep_done hw ho (State.gfin_drained hw hnone hall hk)), fun hwf hput => ?_⟩
        have hend := State.gfinEnd_performed (s := s.exchange set) (c := c) (a := a) (k := k) rfl
        rw [hcore] at hend
        exact hend hwork hwf hput
      case waits => exact congrArg _ (State.geoStep_hold hw ho (State.gfin_waits hw hnone hsome))
    case gnbr => exact fun hw ho hok => congrArg _ (State.geoStep_wait hw ho (State.gnbr_asks hw hok))
    case gnbrEnd =>
      intro hw ho hasks
      have hrun := State.gnbr_done hw hasks
      refine ⟨_, hrun, congrArg _ (State.geoStep_done hw ho hrun), fun hspl => ?_⟩
      rw [State.ownBricks_noSpill hspl]
      exact State.wideWrite_modGeo_onlyCore ..
    case grel =>
      intro hw ho h0 h1 h2 h3 hst hgid
      have hrun := State.grel_done h0 h1 h2 h3 hst hgid
      refine ⟨_, hrun, congrArg _ (State.geoStep_done hw ho hrun), ?_⟩
      rw [State.gridRelease_core]
      exact ⟨rfl, rfl, rfl, rfl, State.gridRelease_holder, fun o h => State.gridRelease_other h _ _⟩
  case steps =>
    intro s c g noneComes
    refine ⟨?insert, ?stray, ?lookup, ?spill, ?refused, rfl, rfl, rfl⟩
    case insert =>
      intro d p rest hq hnone hst hgid hd
      refine congrArg Host.Outcome.next ((State.builderStep_applies (State.builderGrant_none hnone) hq).trans
        (State.applyItem_point ?_ ?_ ?_)) <;> rw [State.modGeo_inq]
      · exact hst
      · exact hgid
      · exact hd
    case stray =>
      intro d p rest hq hnone hstray
      refine congrArg Host.Outcome.next ((State.builderStep_applies (State.builderGrant_none hnone) hq).trans
        ((State.applyItem_stray (by rw [State.modGeo_inq]; exact hstray)).trans ?_))
      simp only [State.modGeo, State.modCore_modCore]
    case lookup =>
      intro d k n rest honly hasks hdc hst hgid r
      have hcores : r.1.cores = s.cores := State.findBrick_cores s c k
      refine ⟨_, congrArg Host.Outcome.next (State.lookupStep_answers (c := c) (x := (c, k, n)) honly hasks rfl hst hgid), ?_⟩
      rw [State.answerAsk_asker hdc, State.answerAsk_builder hdc, hcores, hasks]
      exact ⟨List.erase_cons_head .., rfl, rfl, rfl, fun h => State.findBrick_noSpill s h k⟩
    case spill =>
      intro p ini v hi hfree
      have hopen : s.spillOpen p ini.val = true := State.spillOpen_iff.mpr ⟨hi, hfree⟩
      exact ⟨congrArg _ (State.spillWrite_base hopen v), fun hsum => congrArg _ (State.spillWrite_quota hopen hsum)⟩
    case refused =>
      intro p ini ctl h v hclosed
      refine congrArg _ (State.spillWrite_refused (Bool.eq_false_iff.mpr fun hopen => ?_) ctl h v)
      obtain ⟨hi, hfree⟩ := State.spillOpen_iff.mp hopen
      exact hclosed.elim (fun ⟨h60, h70⟩ => hi.elim h60 h70) fun hheld => hheld hfree

end Sys2Proof.Machine
end

/-! The proofs: queries, downsampling and ray casting stay on their own core. -/

section
namespace Sys2Proof.Machine

/-! ### What changes one core only -/

section
variable {s t u : State} {c : CoreId}

theorem OnlyCore.refl : OnlyCore s s c := ⟨⟨[], by rw [List.append_nil]⟩, fun _ _ => rfl, rfl, rfl, rfl⟩

theorem OnlyCore.trans (h : OnlyCore s t c) (h' : OnlyCore t u c) : OnlyCore s u c := by
  obtain ⟨⟨l, ht⟩, hother, hseq, himem, hspd⟩ := h
  obtain ⟨⟨l', hu⟩, hother', hseq', himem', hspd'⟩ := h'
  refine ⟨⟨l ++ l', hu.trans ?_⟩, fun d hd => (hother' d hd).trans (hother d hd), hseq'.trans hseq, himem'.trans himem,
    hspd'.trans ?_⟩
  · rw [ht, ← List.append_assoc]
  · rw [hspd]

theorem OnlyCore.foldl {α : Type} {l : List α} {f : State → α → State} (h : ∀ u a, OnlyCore u (f u a) c) :
    OnlyCore s (l.foldl f s) c :=
  List.foldlRecOn (motive := fun t => OnlyCore s t c) l f .refl fun _ hu a _ => hu.trans (h _ a)

theorem OnlyCore.ite {p : Prop} [Decidable p] (ht : OnlyCore s t c) (hu : OnlyCore s u c) :
    OnlyCore s (if p then t else u) c := by
  split
  · exact ht
  · exact hu

theorem State.modGeo_onlyCore (f : GeoCore → GeoCore) : OnlyCore s (s.modGeo c f) c :=
  OnlyCore.modCore (fun _ => rfl) (fun _ => rfl) fun _ => rfl

theorem State.modCounts_onlyCore (f : ScanCounts → ScanCounts) : OnlyCore s (s.modCounts c f) c := State.modGeo_onlyCore _

theorem State.wideWrite_onlyCore (e : Fin 7) (a : Nat) (bs : List Byte) : OnlyCore s (s.wideWrite c e a bs) c := by
  unfold State.wideWrite State.enginePut State.modEng
  exact OnlyCore.modCore (fun _ => rfl) (fun _ => rfl) fun _ => rfl

theorem State.postCore_onlyCore (code : Nat) : OnlyCore s (s.postCore c code) c :=
  ⟨⟨_, rfl⟩, fun _ _ => rfl, rfl, rfl, rfl⟩

/-- A code that is posted in one case of two. -/
theorem OnlyCore.postIf {p : Prop} [Decidable p] {code : Nat} (h : OnlyCore s t c) :
    OnlyCore s (if p then t.postCore c code else t) c :=
  .ite (h.trans (State.postCore_onlyCore code)) h

theorem State.drawBytes_onlyCore (n : Nat) : OnlyCore s (s.drawBytes n).2 c :=
  ⟨⟨[], by rw [List.append_nil]; rfl⟩, fun _ _ => rfl, rfl, rfl, rfl⟩

end

/-! ### BALL and KNNC (R163 to R167) -/

section
variable {s : State} {c : CoreId} {q : EngCmd} {n : Nat}

/-- The table, the lists it names, and the queries and candidates of a BALL or KNNC may all be read. -/
def SpdState.QueryReady (p : SpdState) (x : QueryCmd) : Prop :=
  p.Ready x.entryReads ∧ p.Ready (p.listReads x) ∧ p.Ready (p.candReads x)

/-- Table, lists, and then queries and candidates: a query command whose lines may all be read does its work at once. -/
theorem State.overQuery_done {t : State} {x : QueryCmd} {work : State → EngineRun} (hw : s.Works c 4 q n)
    (hr : s.cores[c].spd.QueryReady x) (hrun : work s = .done t) : s.overQuery c x work = .done t := by
  obtain ⟨hentries, hlists, hcands⟩ := hr
  exact overSpd_done hw.latch hentries (overSpd_done hw.latch hlists (overSpd_done hw.latch hcands hrun))

theorem State.queryEnd_onlyCore (bad ovf : Nat) : OnlyCore s (s.queryEnd c bad ovf) c :=
  .postIf (.postIf (State.modGeo_onlyCore _))

theorem State.knnStore_onlyCore (x : QueryCmd) (i : Nat) (row : List Byte) : OnlyCore s (s.knnStore c x i row) c :=
  (State.drawBytes_onlyCore _).trans (State.wideWrite_onlyCore ..)

theorem State.ball_done (hw : s.Works c 4 q n) (hok : queryOk q false = true)
    (hr : s.cores[c].spd.QueryReady (queryCmd q)) : ∃ t, s.ball c q = .done t ∧ OnlyCore s t c := by
  simp only [State.ball, hok, Bool.not_true, Bool.false_eq_true, if_false]
  refine ⟨_, State.overQuery_done hw hr rfl, .trans (.foldl fun _ _ => ?_) (State.queryEnd_onlyCore ..)⟩
  exact State.wideWrite_onlyCore ..

theorem State.knnc_done (hw : s.Works c 4 q n) (hok : queryOk q true = true)
    (hr : s.cores[c].spd.QueryReady (queryCmd q)) : ∃ t, s.knnc c q = .done t ∧ OnlyCore s t c := by
  simp only [State.knnc, hok, Bool.not_true, Bool.false_eq_true, if_false]
  refine ⟨_, State.overQuery_done hw hr rfl, .trans (.foldl fun _ _ => ?_) (State.queryEnd_onlyCore ..)⟩
  exact State.knnStore_onlyCore ..

end

/-! ### Two wide writes of one command -/

/-- The pieces in which a wide write is due. -/
def widePuts (a : Nat) (bs : List Byte) : List EngPut := (cut 256 (bs.length + 1) a bs).map fun r => ⟨r.1, r.2, false⟩

theorem drainPuts_widePuts {p : SpdState} {a : Nat} {bs : List Byte} (e : Nat) (b : Bool) (h : p.Writable [(a, bs.length)]) :
    drainPuts e (widePuts a bs) p b = ({ p with mem := p.mem.write a bs }, [], b) :=
  drainPuts_cut (Nat.lt_succ_self _) fun _ hx hx' => h.line hx hx'

/-- Writes that leave none behind are followed by those due after them. -/
theorem drainPuts_append {e : Nat} {xs ys : List EngPut} {p p' : SpdState} {b b' : Bool}
    (h : drainPuts e xs p b = (p', [], b')) : drainPuts e (xs ++ ys) p b = drainPuts e ys p' b' := by
  induction xs generalizing p b with
  | nil => cases h; rfl
  | cons x xs ih =>
    simp only [drainPuts, List.cons_append] at h ⊢
    split at h
    case isTrue hoff => rw [if_pos hoff]; exact ih h
    case isFalse hon =>
      rw [if_neg hon]
      split at h
      case isTrue hmay => rw [if_pos hmay]; exact ih h
      case isFalse => cases h

theorem State.wideWrite_core (s : State) (c : CoreId) (e : Fin 7) (a : Nat) (bs : List Byte) :
    (s.wideWrite c e a bs).cores[c].spd = s.cores[c].spd ∧ (s.wideWrite c e a bs).cores[c].engines[e].work =
      { s.cores[c].engines[e].work with puts := s.cores[c].engines[e].work.puts ++ widePuts a bs } := by
  rw [State.wideWrite, State.enginePut, State.modEng, State.modCore_same]
  exact ⟨rfl, congrArg EngState.work (Vector.getElem_set_self _)⟩

/-- A command that had no write due, and then two, to lines that may be written: both are made, in order. -/
theorem State.performed_twoWrites {s : State} {c : CoreId} {e : Fin 7} {a b : Nat} {as bs : List Byte}
    (hwork : s.cores[c].engines[e].work = EngWork.none) (ha : s.cores[c].spd.Writable [(a, as.length)])
    (hb : s.cores[c].spd.Writable [(b, bs.length)]) :
    (((s.wideWrite c e a as).wideWrite c e b bs).performed c e).cores[c].spd.mem =
      (s.cores[c].spd.mem.write a as).write b bs := by
  obtain ⟨hspd, hputs⟩ := s.wideWrite_core c e a as
  obtain ⟨hspd', hputs'⟩ := (s.wideWrite c e a as).wideWrite_core c e b bs
  rw [hputs, hwork] at hputs'
  have hdrain := drainPuts_append (ys := widePuts b bs) (drainPuts_widePuts e.val false ha)
  rw [drainPuts_widePuts e.val false (p := { s.cores[c].spd with mem := s.cores[c].spd.mem.write a as }) hb] at hdrain
  obtain ⟨-, hmem⟩ := State.performed_core (s := (s.wideWrite c e a as).wideWrite c e b bs) (c := c) (e := e)
    (by rw [hputs', hspd', hspd]; exact hdrain)
  exact congrArg SpdState.mem hmem

/-! ### FPS (R169) -/

/-- Fields of FPS (R162). -/
structure FpsCmd where
  clo : Nat
  cb  : Nat
  n   : Nat
  k   : Nat
  out : Nat
  wk  : Nat

def fpsFields (q : EngCmd) : FpsCmd :=
  ⟨fld q.w1 44 20, fld q.w2 0 23, fld q.w2 24 20, fld q.w2 44 13, fld q.w3 0 23, fld q.w3 32 23⟩

/-- The limits of R162 and R163 on an FPS. -/
def fpsOk (q : EngCmd) : Prop :=
  let x := fpsFields q
  fld q.w0 56 8 = 0 ∧ fld q.w1 0 44 = 0 ∧ fld q.w2 23 1 = 0 ∧ fld q.w2 57 7 = 0 ∧ fld q.w3 23 9 = 0 ∧ fld q.w3 55 9 = 0 ∧
    x.cb % 16 = 0 ∧ x.out % 16 = 0 ∧ x.wk % 256 = 0 ∧ 1 ≤ x.k ∧ x.k ≤ 4096 ∧ x.k ≤ x.n ∧ x.n ≤ 524288 ∧
    x.cb + 16 * (x.clo + x.n) ≤ 0x800000 ∧ x.out + 4 * x.k ≤ 0x800000 ∧ x.wk + 8 * x.n ≤ 0x800000

/-- What an FPS writes to OUT: the first candidate, and then the farthest ones. -/
def SpdState.fpsOut (p : SpdState) (x : FpsCmd) : List Byte :=
  let d (i j : Nat) : Nat := p.dist2 (x.cb + 16 * (x.clo + i)) (x.cb + 16 * (x.clo + j))
  (0 :: fpsLoop d x.n (x.k - 1) ((List.range x.n).map fun i => d i 0)).flatMap fun i => leBytes 4 (x.clo + i)

/-- Whether two of WORK, OUT and the candidates share bytes. -/
def FpsCmd.lies (x : FpsCmd) : Bool :=
  overlap x.wk (8 * x.n) (x.cb + 16 * x.clo) (16 * x.n) || overlap x.wk (8 * x.n) x.out (4 * x.k) ||
    overlap x.out (4 * x.k) (x.cb + 16 * x.clo) (16 * x.n)

/-- The samples, free where the operands share bytes, and the state that has drawn them. -/
def State.fpsSamples (s : State) (c : CoreId) (x : FpsCmd) : List Byte × State :=
  let outs := s.cores[c].spd.fpsOut x
  if x.lies then s.drawBytes outs.length else (outs, s)

/-- The writes of an FPS: WORK, undefined afterwards, and OUT. -/
def State.fpsEnd (s : State) (c : CoreId) (x : FpsCmd) : State :=
  let o := s.fpsSamples c x
  let w := o.2.drawBytes (8 * x.n)
  (w.2.wideWrite c 4 x.wk w.1).wideWrite c 4 x.out o.1

theorem length_flatMap_leBytes {α : Type} (k : Nat) (f : α → Nat) (l : List α) :
    (l.flatMap fun i => leBytes k (f i)).length = k * l.length := by
  induction l with
  | nil => rfl
  | cons a l ih => rw [List.flatMap_cons, List.length_append, leBytes_length, ih, List.length_cons, Nat.mul_succ, Nat.add_comm]

theorem fpsLoop_length (d : Nat → Nat → Nat) (n m : Nat) (w : List Nat) : (fpsLoop d n m w).length = m := by
  induction m generalizing w with
  | zero => rfl
  | succ m ih => rw [fpsLoop, List.length_cons, ih]

section
variable {s : State} {c : CoreId} {q : EngCmd} {n : Nat} {x : FpsCmd}

theorem SpdState.fpsOut_length (p : SpdState) (hk : 1 ≤ x.k) : (p.fpsOut x).length = 4 * x.k := by
  rw [SpdState.fpsOut, length_flatMap_leBytes, List.length_cons, fpsLoop_length, Nat.sub_add_cancel hk]

/-- The first sample is the first candidate. -/
theorem SpdState.fpsOut_first (p : SpdState) : (p.fpsOut x).take 4 = leBytes 4 x.clo := by
  rw [SpdState.fpsOut, List.flatMap_cons, List.take_left' (leBytes_length ..), Nat.add_zero]

theorem State.fpsEnd_onlyCore : OnlyCore s (s.fpsEnd c x) c := by
  have hsamples : OnlyCore s (s.fpsSamples c x).2 c := by
    unfold State.fpsSamples
    dsimp only
    split
    · exact State.drawBytes_onlyCore _
    · exact .refl
  exact hsamples.trans <| (State.drawBytes_onlyCore _).trans <|
    (State.wideWrite_onlyCore ..).trans (State.wideWrite_onlyCore ..)

/-- WORK may be written and, for a second sample, read back: no pass over it waits. -/
theorem State.fpsPasses_done {t : State} {wk n m : Nat} (hput : s.cores[c].spd.Writable [(wk, 8 * n)])
    (hread : m = 1 ∨ s.cores[c].spd.Ready [(wk, 8 * n)]) : s.fpsPasses c wk n m t = .done t := by
  have hwrite : ((rangeLines [(wk, 8 * n)]).filter s.cores[c].spd.lineOn).all s.cores[c].spd.mayWrite = true :=
    List.all_eq_true.mpr fun l hl => by
      obtain ⟨hmem, -⟩ := List.mem_filter.mp hl
      exact (hput l hmem).2
  have hcan : (decide (m = 1) ||
      ((rangeLines [(wk, 8 * n)]).filter s.cores[c].spd.lineOn).all s.cores[c].spd.mayRead) = true := by
    obtain hm | hready := hread
    · rw [decide_eq_true hm, Bool.true_or]
    · refine Bool.or_eq_true_iff.mpr (.inr (List.all_eq_true.mpr fun l hl => ?_))
      obtain ⟨hmem, -⟩ := List.mem_filter.mp hl
      exact (Bool.and_eq_true_iff.mp (List.all_eq_true.mp hready l hmem)).2
  simp only [State.fpsPasses, hwrite, hcan, Bool.not_true, Bool.false_eq_true, if_false, if_true, ite_self]

theorem State.fps_done (hw : s.Works c 4 q n) (hok : fpsOk q)
    (hr : s.cores[c].spd.Ready [((fpsFields q).cb + 16 * (fpsFields q).clo, 16 * (fpsFields q).n)])
    (hput : s.cores[c].spd.Writable [((fpsFields q).wk, 8 * (fpsFields q).n)])
    (hread : (fpsFields q).k = 1 ∨ s.cores[c].spd.Ready [((fpsFields q).wk, 8 * (fpsFields q).n)]) :
    s.fps c q = .done (s.fpsEnd c (fpsFields q)) := by
  obtain ⟨h0, h1, h2, h3, h4, h5, hcb, hout, hwk, hk, hk', hkn, hn, hcands, houts, hwork⟩ := hok
  dsimp only [fpsFields] at *
  rw [State.fps, if_neg (by unfold spdBytes; omega)]
  exact overSpd_done hw.latch hr (State.fpsPasses_done hput hread)

/-- Where the operands share no bytes, OUT begins with the first candidate. -/
theorem State.fpsEnd_first (hw : s.Works c 4 q n) (hwf : s.cores[c].spd.mem.wf = true) (hk : 1 ≤ x.k) (hlies : x.lies = false)
    (hput : s.cores[c].spd.Writable [(x.wk, 8 * x.n)]) (hout : s.cores[c].spd.Writable [(x.out, 4 * x.k)]) :
    ((s.fpsEnd c x).performed c 4).cores[c].spd.mem.num x.out 4 = x.clo % 2 ^ 32 := by
  have hsamples : s.fpsSamples c x = (s.cores[c].spd.fpsOut x, s) := by
    simp only [State.fpsSamples, hlies, Bool.false_eq_true, if_false]
  have hlen := s.cores[c].spd.fpsOut_length hk
  have hdrawn : (s.drawBytes (8 * x.n)).1.length = 8 * x.n := by simp [State.drawBytes]
  have hmem := State.performed_twoWrites (s := (s.drawBytes (8 * x.n)).2) (c := c) (e := 4) (a := x.wk) (b := x.out)
    (as := (s.drawBytes (8 * x.n)).1) (bs := s.cores[c].spd.fpsOut x) hw.work (by rw [hdrawn]; exact hput)
    (by rw [hlen]; exact hout)
  unfold State.fpsEnd
  simp only [hsamples]
  rw [hmem]
  exact Mem.num_write_field (Mem.wf_write hwf _ _) x.out 0 _ (by omega) (SpdState.fpsOut_first _)

end

/-! ### VDOWN (R170, R171) -/

section
variable {s : State} {c : CoreId} {q : EngCmd} {n : Nat}

theorem vdBrick_onlyCore (d : Rec64) (out cap : Nat) (runs : Option Nat) (r : Nat) (b : Brick) (block : List Byte) (x : VdRun) :
    OnlyCore x.s (vdBrick c d out cap runs r b block x).s c := by
  cases runs with
  | none => exact State.wideWrite_onlyCore ..
  | some a => exact (State.wideWrite_onlyCore ..).trans (State.wideWrite_onlyCore ..)

/-- Without spilled bricks a VDOWN reads no DDR. -/
theorem State.vdWork_onlyCore (h : s.cores[c].geo.spl = []) (out cap : Nat) (runs : Option Nat) :
    OnlyCore s (s.vdWork c out cap runs) c := by
  have hbricks : OnlyCore s (s.cores[c].geo.bricks.foldl (fun x e => vdBrick c s.cores[c].geo.desc out cap runs e.1 e.2
      (s.cores[c].spd.wideRead (gdAccBase s.cores[c].geo.desc + 512 * e.1) 512) x) (VdRun.mk s 0 0 false)).s c :=
    List.foldlRecOn (motive := fun x : VdRun => OnlyCore s x.s c) _ _ .refl fun _ hx _ _ => hx.trans (vdBrick_onlyCore ..)
  simp only [State.vdWork, h, List.zipIdx_nil, List.foldl_nil]
  have hstatus (bs : List Byte) := hbricks.trans (State.wideWrite_onlyCore 4 out bs)
  exact .postIf (.ite (((hstatus _).trans (State.modGeo_onlyCore _)).trans (State.postCore_onlyCore _)) (hstatus _))

theorem State.vdown_done (hw : s.Works c 4 q n) (hok : vdownOk q s.cores[c].geo = true)
    (hr : s.cores[c].spd.Ready [(gdAccBase s.cores[c].geo.desc, 512 * s.cores[c].geo.lcount)]) :
    ∃ t, s.vdown c q = .done t ∧ (s.cores[c].geo.spl = [] → OnlyCore s t c) := by
  simp only [State.vdown, hok, Bool.not_true, Bool.false_eq_true, if_false]
  exact ⟨_, overSpd_done hw.latch hr rfl, fun h => State.vdWork_onlyCore h ..⟩

end

/-! ### CAST (R179 to R189) -/

section
variable {s : State} {c : CoreId} {q : EngCmd} {n : Nat} {x : RayCmd}

theorem State.rayNote_onlyCore (k : RayCounts) : OnlyCore s (s.rayNote c k) c :=
  .postIf (.postIf (State.modGeo_onlyCore _))

/-- Routed points wait on the core that cast them, whichever core owns their bricks. -/
theorem State.rayRoute_onlyCore (slot job : Nat) (rs : List (List Byte)) : OnlyCore s (s.rayRoute c slot job rs).1 c := by
  refine List.foldlRecOn (motive := fun a : State × Nat => OnlyCore s a.1 c) _ _ .refl fun a ha r _ => ha.trans ?_
  dsimp only
  split
  · dsimp only
    exact (State.modCounts_onlyCore _).trans (State.modCounts_onlyCore _)
  · dsimp only
    exact (State.modCounts_onlyCore _).trans (State.modGeo_onlyCore _)

theorem State.castRays_onlyCore : OnlyCore s (s.castRays c x) c := by
  unfold State.castRays
  dsimp only
  split
  · exact (State.rayNote_onlyCore _).trans ((State.wideWrite_onlyCore ..).trans (State.wideWrite_onlyCore ..))
  · exact (State.rayNote_onlyCore _).trans ((State.rayRoute_onlyCore ..).trans (State.modGeo_onlyCore _))

/-- A scene whose lines may all be read is read at once, whatever the bound on rereading. -/
theorem State.overScene_done {t : State} {work : State → EngineRun} {fuel : Nat}
    (hl : s.cores[c].engines[(5 : Fin 7)].work.latch = []) (hr : s.cores[c].spd.Ready (x.sceneReads s.cores[c].spd))
    (hrun : work s = .done t) : State.overScene c x work fuel s = .done t := by
  cases fuel with
  | zero => exact hrun
  | succ fuel =>
    refine overSpd_done hl hr ?_
    dsimp only
    rw [if_pos, hrun]
    refine List.all_eq_true.mpr fun l hmem => Bool.or_eq_true_iff.mpr (.inr ?_)
    exact List.all_eq_true.mp hr l hmem

theorem State.cast_done (hw : s.Works c 5 q n) (hwords : rayWordsOk q = true) (hx : rayCmd s.cores[c].spd q = x)
    (hitems : s.cores[c].spd.Ready [(fld q.w1 0 23, 64), (fld q.w1 23 23, 64), (fld q.w2 0 23, 64)])
    (hok : x.ok = true) (hext : x.extOk = true) (hgrid : n = 0 → x.omode = false → s.cores[c].geo.st = 1)
    (htables : s.cores[c].spd.Ready [(mBeams x.smod, 4 * mNbeam x.smod), (mAtt x.smod, 128), (mExt x.smod, 64)])
    (hscene : s.cores[c].spd.Ready (x.sceneReads s.cores[c].spd)) : s.cast c q = .done (s.castRays c x) := by
  obtain ⟨-, -, hphase, hwork⟩ := hw
  have hl : s.cores[c].engines[(5 : Fin 7)].work.latch = [] := congrArg EngWork.latch hwork
  have hopen : ¬ (s.cores[c].engines[(5 : Fin 7)].phase = 0 ∧ (!x.omode) = true ∧ s.cores[c].geo.st ≠ 1) := by
    rintro ⟨hzero, homode, hst⟩
    exact hst (hgrid (hphase.symm.trans hzero) (by simpa using homode))
  simp only [State.cast, hwords, Bool.not_true, Bool.false_eq_true, if_false]
  refine overSpd_done hl hitems ?_
  simp only [hx, hok, Bool.not_true, Bool.false_eq_true, if_false, if_neg hopen]
  rw [overSpd_done hl htables (t := s.castRays c x)]
  · rfl
  · simp only [hext, hx, Bool.not_true, Bool.false_eq_true, if_false]
    exact State.overScene_done hl hscene rfl

theorem State.execCast_done {t : State} (hw : s.Works c 5 q n) (ho : q.opc = 1) (hr : s.cast c q = .done t) :
    execCast c s = .next (t.performed c 5) :=
  congrArg Host.Outcome.next (engineStep_done (run := fun q t => t.cast c q) hw (beq_iff_eq.mpr ho) hr)

end

/-! ### The statement -/

/-- Settles O21: each command's run by the lemma about it, and what it changes. -/
theorem geometryAndRays : Obligations.GeometryAndRays := by
  intro s c q n p g x y queryReady
  refine ⟨fun hw ho hok hr => ?ball, fun hw ho hok hr => ?knnc, fun hw ho hwf => ?fps, fun hw ho hok hr => ?vdown,
    fun hw ho hwords hitems hok hext hgrid htables hscene => ?cast⟩
  case ball =>
    obtain ⟨t, hrun, honly⟩ := State.ball_done hw hok hr
    exact ⟨t, hrun, congrArg _ (State.geoStep_done hw ho hrun), honly⟩
  case knnc =>
    obtain ⟨t, hrun, honly⟩ := State.knnc_done hw hok hr
    exact ⟨t, hrun, congrArg _ (State.geoStep_done hw ho hrun), honly⟩
  case fps =>
    intro clo cb m k out wk h0 h1 h2 h3 h4 h5 hcb hout hwk hk hk' hkm hm hcands houts hwork hr hput hread
    have hok : fpsOk q := ⟨h0, h1, h2, h3, h4, h5, hcb, hout, hwk, hk, hk', hkm, hm, hcands, houts, hwork⟩
    have hrun := State.fps_done hw hok hr hput hread
    refine ⟨_, hrun, congrArg _ (State.geoStep_done hw ho hrun), State.fpsEnd_onlyCore, fun hputOut hwc hwo hoc => ?_⟩
    have hlies : (fpsFields q).lies = false := by
      rw [FpsCmd.lies, Bool.or_eq_false_iff, Bool.or_eq_false_iff]
      exact ⟨⟨hwc, hwo⟩, hoc⟩
    have hclo : clo < 2 ^ 20 := fld_lt ..
    calc _ = clo % 2 ^ 32 := State.fpsEnd_first (x := fpsFields q) hw hwf hk hlies hput hputOut
      _ = clo := Nat.mod_eq_of_lt (by omega)
  case vdown =>
    obtain ⟨t, hrun, honly⟩ := State.vdown_done hw hok hr
    exact ⟨t, hrun, congrArg _ (State.geoStep_done hw ho hrun), honly⟩
  case cast =>
    have hrun := State.cast_done hw hwords rfl hitems hok hext hgrid htables hscene
    exact ⟨_, hrun, State.execCast_done hw ho hrun, State.castRays_onlyCore⟩

end Sys2Proof.Machine
end

/-! The proofs: the matrix engine, what its commands write. -/

section
namespace Sys2Proof.Machine

/-! ### Writes made in order -/

/-- The memory after some writes (address, bytes), made in order. -/
def writeAll (m : Mem) (ws : List (Nat × List Byte)) : Mem := ws.foldl (fun m w => m.write w.1 w.2) m

/-- Two writes (address, bytes) that share no byte. -/
def WritesApart (v w : Nat × List Byte) : Prop := v.1 + v.2.length ≤ w.1 ∨ w.1 + w.2.length ≤ v.1

theorem writeAll_append (m : Mem) (vs ws : List (Nat × List Byte)) : writeAll m (vs ++ ws) = writeAll (writeAll m vs) ws :=
  List.foldl_append

theorem wf_writeAll {m : Mem} (h : m.wf = true) (ws : List (Nat × List Byte)) : (writeAll m ws).wf = true :=
  List.foldlRecOn (motive := fun m : Mem => m.wf = true) ws _ h fun _ h w _ => Mem.wf_write h w.1 w.2

theorem byte_writeAll_outside {m : Mem} {ws : List (Nat × List Byte)} {a : Nat} (h : m.wf = true)
    (hout : ∀ w ∈ ws, a < w.1 ∨ w.1 + w.2.length ≤ a) : (writeAll m ws).byte a = m.byte a := by
  induction ws generalizing m with
  | nil => rfl
  | cons w ws ih =>
    obtain ⟨hw, hws⟩ := List.forall_mem_cons.mp hout
    calc _ = (m.write w.1 w.2).byte a := ih (Mem.wf_write h _ _) hws
      _ = m.byte a := by rw [Mem.byte_write h, if_neg (by omega)]

theorem Mem.read_congr {m m' : Mem} {a n : Nat} (h : ∀ x, a ≤ x → x < a + n → m.byte x = m'.byte x) :
    m.read a n = m'.read a n := by
  induction n generalizing a with
  | zero => rfl
  | succ n ih => rw [Mem.read, Mem.read, h a (Nat.le_refl a) (by omega), ih fun x hx hx' => h x (by omega) (by omega)]

/-- A number in a field of one of some writes that share no byte. -/
theorem num_writeAll_field {m : Mem} {ws : List (Nat × List Byte)} {a o v : Nat} {bs : List Byte} (h : m.wf = true)
    (hapart : ws.Pairwise WritesApart) (hmem : (a, bs) ∈ ws) (ho : o + 4 ≤ bs.length)
    (hfield : (bs.drop o).take 4 = leBytes 4 v) : (writeAll m ws).num (a + o) 4 = v % 2 ^ 32 := by
  obtain ⟨before, after, rfl⟩ := List.append_of_mem hmem
  obtain ⟨-, hrest, -⟩ := List.pairwise_append.mp hapart
  obtain ⟨hafter, -⟩ := List.pairwise_cons.mp hrest
  have hwf := wf_writeAll h before
  have hkept : (writeAll m (before ++ (a, bs) :: after)).num (a + o) 4 = ((writeAll m before).write a bs).num (a + o) 4 := by
    rw [writeAll_append]
    refine congrArg leNat (Mem.read_congr fun x hx hx' => byte_writeAll_outside (Mem.wf_write hwf a bs) fun w hw => ?_)
    have := hafter w hw
    simp only [WritesApart] at this
    omega
  exact hkept.trans (Mem.num_write_field hwf a o v ho hfield)

/-! ### Writes due (R69, R82) -/

/-- From `s` to `t`, core `c` keeps its scratchpad side, and wide writes of engine `e`'s command in work become due. -/
def State.PutsDue (s t : State) (c : CoreId) (e : Fin 7) (ws : List (Nat × List Byte)) : Prop :=
  t.cores[c].spd = s.cores[c].spd ∧ t.cores[c].engines[e].work =
    { s.cores[c].engines[e].work with
      puts := s.cores[c].engines[e].work.puts ++ ws.flatMap fun w => widePuts w.1 w.2 }

section
variable {s t u : State} {c : CoreId} {e : Fin 7} {vs ws : List (Nat × List Byte)}

theorem State.PutsDue.refl : s.PutsDue s c e [] := ⟨rfl, by rw [List.flatMap_nil, List.append_nil]⟩

/-- What leaves the core's scratchpad side and engines as they are makes no write due. -/
theorem State.PutsDue.of_core (h : s.PutsDue t c e ws) (hspd : u.cores[c].spd = t.cores[c].spd)
    (heng : u.cores[c].engines = t.cores[c].engines) : s.PutsDue u c e ws := by
  obtain ⟨hspd', hwork⟩ := h
  exact ⟨hspd.trans hspd', by rw [heng, hwork]⟩

theorem State.PutsDue.trans (h : s.PutsDue t c e vs) (h' : t.PutsDue u c e ws) : s.PutsDue u c e (vs ++ ws) := by
  obtain ⟨hspd, hwork⟩ := h
  obtain ⟨hspd', hwork'⟩ := h'
  exact ⟨hspd'.trans hspd, by rw [hwork', hwork, List.flatMap_append, List.append_assoc]⟩

theorem State.wideWrite_putsDue (a : Nat) (bs : List Byte) : s.PutsDue (s.wideWrite c e a bs) c e [(a, bs)] := by
  obtain ⟨hspd, hwork⟩ := s.wideWrite_core c e a bs
  exact ⟨hspd, by rw [hwork, List.flatMap_singleton]⟩

theorem drainPuts_writeAll {p : SpdState} {n : Nat} {b : Bool} (h : ∀ w ∈ ws, ∀ x, w.1 ≤ x → x < w.1 + w.2.length →
      p.lineOn (x / 256) = true ∧ p.mayWrite (x / 256) = true) :
    drainPuts n (ws.flatMap fun w => widePuts w.1 w.2) p b = ({ p with mem := writeAll p.mem ws }, [], b) := by
  induction ws generalizing p with
  | nil => rfl
  | cons w ws ih =>
    obtain ⟨hw, hws⟩ := List.forall_mem_cons.mp h
    have hfirst : drainPuts n (widePuts w.1 w.2) p b = ({ p with mem := p.mem.write w.1 w.2 }, [], b) :=
      drainPuts_cut (Nat.lt_succ_self _) hw
    rw [List.flatMap_cons, drainPuts_append hfirst]
    exact ih (p := { p with mem := p.mem.write w.1 w.2 }) hws

/-- A command that had no write due, and then some, to lines that may be written: all are made, in order. -/
theorem State.PutsDue.performed (h : s.PutsDue t c e ws) (hwork : s.cores[c].engines[e].work = EngWork.none)
    (hput : ∀ w ∈ ws, ∀ x, w.1 ≤ x → x < w.1 + w.2.length →
      s.cores[c].spd.lineOn (x / 256) = true ∧ s.cores[c].spd.mayWrite (x / 256) = true) :
    (t.performed c e).cores[c].spd.mem = writeAll s.cores[c].spd.mem ws := by
  obtain ⟨hspd, hdue⟩ := h
  rw [hwork] at hdue
  obtain ⟨-, hmem⟩ := State.performed_core (s := t) (c := c) (e := e) (by rw [hdue, hspd]; exact drainPuts_writeAll hput)
  exact congrArg SpdState.mem hmem

end

/-! ### The tiles of C (R193, R197) -/

/-- The places (m, n) of the tiles, in the order of R197. -/
def tilePairs (mb nb : Nat) : List (Nat × Nat) := (List.range mb).flatMap fun m => (List.range nb).map fun n => (m, n)

/-- The writes of the tiles of C, whose bytes are `bytes m n`. -/
def tileWrites (mb nb coff tb : Nat) (bytes : Nat → Nat → List Byte) : List (Nat × List Byte) :=
  (tilePairs mb nb).map fun e => (coff + tb * (e.1 * nb + e.2), bytes e.1 e.2)

theorem mem_tilePairs {mb nb : Nat} {e : Nat × Nat} : e ∈ tilePairs mb nb ↔ e.1 < mb ∧ e.2 < nb := by
  obtain ⟨m, n⟩ := e
  simp [tilePairs]

/-- The numbers of the tiles rise in the order of R197. -/
theorem tilePairs_rising (mb nb : Nat) :
    (tilePairs mb nb).Pairwise fun d e => d.1 * nb + d.2 < e.1 * nb + e.2 := by
  refine List.pairwise_flatMap.mpr ⟨fun m _ => ?row, List.pairwise_lt_range.imp fun {m m'} hm => ?rows⟩
  case row => exact List.pairwise_map.mpr (List.pairwise_lt_range.imp fun hn => Nat.add_lt_add_left hn (m * nb))
  case rows =>
    intro d hd e he
    obtain ⟨n, hn, rfl⟩ := List.mem_map.mp hd
    obtain ⟨n', -, rfl⟩ := List.mem_map.mp he
    calc m * nb + n < (m + 1) * nb := by
          rw [Nat.succ_mul]
          exact Nat.add_lt_add_left (List.mem_range.mp hn) (m * nb)
      _ ≤ m' * nb := Nat.mul_le_mul_right nb hm
      _ ≤ m' * nb + n' := Nat.le_add_right _ _

/-- The tiles are due as they are worked out, where the flags raised before a tile do not enter its bytes. -/
theorem State.tiles_putsDue {s : State} {c : CoreId} {mb nb coff tb : Nat} {tile : Nat → Nat → MmFlags → List Byte × MmFlags}
    {bytes : Nat → Nat → List Byte} (h : ∀ m n f, (tile m n f).1 = bytes m n) :
    s.PutsDue (s.tiles c mb nb coff tb tile).1 c 1 (tileWrites mb nb coff tb bytes) := by
  unfold State.tiles tileWrites tilePairs
  generalize MmFlags.zero = f
  generalize (List.range mb).flatMap _ = l
  induction l generalizing s f with
  | nil => exact .refl
  | cons e l ih =>
    obtain ⟨m, n⟩ := e
    have hfirst : s.PutsDue (s.wideWrite c 1 (coff + tb * (m * nb + n)) (tile m n f).1) c 1
        [(coff + tb * (m * nb + n), bytes m n)] := by
      rw [h]; exact State.wideWrite_putsDue _ _
    exact hfirst.trans (ih _)

section
variable {mb nb coff tb : Nat} {bytes : Nat → Nat → List Byte}

/-- A tile lies within C. -/
theorem tile_within {m n : Nat} (hm : m < mb) (hn : n < nb) : tb * (m * nb + n) + tb ≤ tb * (mb * nb) := by
  have hindex : m * nb + n + 1 ≤ mb * nb := calc
    m * nb + n + 1 ≤ (m + 1) * nb := by rw [Nat.succ_mul]; omega
    _ ≤ mb * nb := Nat.mul_le_mul_right nb hm
  exact Nat.mul_le_mul_left tb hindex

theorem tileWrites_within (hlen : ∀ m n, (bytes m n).length = tb) {w : Nat × List Byte}
    (hw : w ∈ tileWrites mb nb coff tb bytes) : coff ≤ w.1 ∧ w.1 + w.2.length ≤ coff + tb * (mb * nb) := by
  obtain ⟨e, he, rfl⟩ := List.mem_map.mp hw
  obtain ⟨hm, hn⟩ := mem_tilePairs.mp he
  have := tile_within (tb := tb) hm hn
  dsimp only
  rw [hlen]
  omega

theorem tileWrites_length (hlen : ∀ m n, (bytes m n).length = tb) {w : Nat × List Byte}
    (hw : w ∈ tileWrites mb nb coff tb bytes) : w.2.length = tb := by
  obtain ⟨e, -, rfl⟩ := List.mem_map.mp hw
  exact hlen e.1 e.2

/-- Tiles share no byte: their numbers rise. -/
theorem tileWrites_apart (hlen : ∀ m n, (bytes m n).length = tb) : (tileWrites mb nb coff tb bytes).Pairwise WritesApart := by
  refine List.pairwise_map.mpr ((tilePairs_rising mb nb).imp fun {d e} hindex => .inl ?_)
  rw [hlen, Nat.add_assoc]
  exact Nat.add_le_add_left (Nat.mul_le_mul_left tb hindex) coff

end

end Sys2Proof.Machine
end

/-! The proofs: the matrix engine, its commands. -/

section
namespace Sys2Proof.Machine

/-! ### What stays on the core -/

section
variable {s t : State} {c : CoreId}

theorem State.modMxe_onlyCore (f : MxeState → MxeState) : OnlyCore s (s.modMxe c f) c :=
  OnlyCore.modCore (fun _ => rfl) (fun _ => rfl) fun _ => rfl

theorem State.narrowPut_onlyCore (e : Fin 7) (a : Nat) (bs : List Byte) : OnlyCore s (s.narrowPut c e a bs) c := by
  unfold State.narrowPut State.enginePut State.modEng
  exact OnlyCore.modCore (fun _ => rfl) (fun _ => rfl) fun _ => rfl

/-- Only the count of the free values drawn differs. -/
theorem State.drawn_onlyCore (n : Nat) : OnlyCore s { s with free := n } c :=
  ⟨⟨[], by rw [List.append_nil]⟩, fun _ _ => rfl, rfl, rfl, rfl⟩

/-- A status that is written where the command asks for it. -/
theorem OnlyCore.status {p : Prop} [Decidable p] {a : Nat} {bs : List Byte} (h : OnlyCore s t c) :
    OnlyCore s (if p then t.wideWrite c 1 a bs else t) c :=
  .ite (h.trans (State.wideWrite_onlyCore ..)) h

theorem State.tiles_onlyCore (mb nb coff tb : Nat) (tile : Nat → Nat → MmFlags → List Byte × MmFlags) :
    OnlyCore s (s.tiles c mb nb coff tb tile).1 c :=
  List.foldlRecOn (motive := fun a : State × MmFlags => OnlyCore s a.1 c) _ _ .refl fun _ ha _ _ =>
    ha.trans (State.wideWrite_onlyCore ..)

theorem State.mmEnd_onlyCore (f : MmFlags) (n : Nat) : OnlyCore s (s.mmEnd c f n) c :=
  .postIf (.postIf (State.modMxe_onlyCore _))

theorem State.mmWork_onlyCore (x : MmCmd) : OnlyCore s (s.mmWork c x) c :=
  .trans (.status ((State.drawn_onlyCore _).trans (State.tiles_onlyCore ..))) (State.mmEnd_onlyCore ..)

/-- A bad index line is told where there is one (R219). -/
theorem OnlyCore.badIndexIf {p : Prop} [Decidable p] (h : OnlyCore s t c) : OnlyCore s (if p then t.badIndex c else t) c :=
  .ite (h.trans ((State.modMxe_onlyCore _).trans (State.postCore_onlyCore _))) h

theorem State.spWork_onlyCore (x : MmCmd) (ls : List (SpLine × Nat × Bool)) (recs : List (Nat × Nat)) :
    OnlyCore s (s.spWork c x ls recs) c :=
  .trans (.badIndexIf (.status ((State.drawn_onlyCore _).trans (State.tiles_onlyCore ..)))) (State.mmEnd_onlyCore ..)

theorem State.nbRecord_onlyCore (x : NbCmd) (n : NbCounts) (r : Nat) : OnlyCore s (s.nbRecord c x n r).1 c := by
  refine .trans (List.foldlRecOn (motive := fun a : State × NbCounts => OnlyCore s a.1 c) _ _ .refl fun a ha i _ => ?_)
    (State.narrowPut_onlyCore ..)
  dsimp only
  split
  · exact ha
  · exact ha.trans (State.narrowPut_onlyCore ..)

theorem State.nbWork_onlyCore (x : NbCmd) : OnlyCore s (s.nbWork c x) c :=
  .postIf <| .status <| List.foldlRecOn (motive := fun a : State × NbCounts => OnlyCore s a.1 c) _ _ .refl fun _ ha _ _ =>
    ha.trans (State.nbRecord_onlyCore ..)

theorem State.scEnd_onlyCore (n : ScCounts) : OnlyCore s (s.scEnd c n) c :=
  .postIf (.postIf (.postIf (State.modMxe_onlyCore _)))

theorem State.scWork_onlyCore (x : ScCmd) : OnlyCore s (s.scWork c x) c :=
  .trans (.status ((State.drawn_onlyCore _).trans (State.tiles_onlyCore ..)))
    ((State.scEnd_onlyCore _).trans (State.mmEnd_onlyCore ..))

end

/-! ### The runs (R195, R207, R217, R224, R229) -/

section
variable {s t : State} {c : CoreId} {e : Fin 7} {q : EngCmd} {n : Nat} {go : State → EngineRun}

/-- A command of which no access has been made keeps no line. -/
theorem State.Works.noLatch (h : s.Works c e q n) : s.cores[c].engines[e].work.latch = [] := by
  obtain ⟨-, -, -, hwork⟩ := h
  exact congrArg EngWork.latch hwork

theorem State.onRamp_done (hon : s.cores[c].mxe.ready = true) (h : go s = .done t) : s.onRamp c go = .done t := by
  rw [State.onRamp, if_neg (by rintro ⟨-, hoff⟩; exact absurd hon (Bool.eq_false_iff.mp hoff)), h]
  rfl

theorem State.onRamp_wait (hw : s.Works c 1 q 0) (hoff : ¬ s.cores[c].mxe.ready = true) :
    s.onRamp c go = .wait 1 (s.modMxe c MxeState.rampUp) := by
  obtain ⟨-, -, hphase, -⟩ := hw
  exact if_pos ⟨hphase, Bool.eq_false_iff.mpr hoff⟩

theorem State.steps_done (hon : s.cores[c].mxe.ready = true) (h : go s = .done t) : s.steps c go = .done t :=
  (if_pos hon).trans h

/-- The zero points of a command that has some may be read and are in order (R196, R198). -/
def SpdState.ZeroPointsOk (p : SpdState) (x : MmCmd) : Prop :=
  x.zpen = true → p.Ready [(x.zoff, 16 * (x.mb + x.nb))] ∧ zpNibbleBad p x.fmt x.zoff (16 * (x.mb + x.nb)) = false

theorem State.onZeroPoints_done {x : MmCmd} (hl : s.cores[c].engines[(1 : Fin 7)].work.latch = [])
    (hz : s.cores[c].spd.ZeroPointsOk x) (h : go s = .done t) : s.onZeroPoints c x go = .done t := by
  unfold State.onZeroPoints
  split
  case isTrue hzpen =>
    obtain ⟨hready, hbad⟩ := hz hzpen
    refine overSpd_done hl hready ?_
    simp only [hbad, Bool.false_eq_true, if_false, h]
  case isFalse => exact h

theorem State.mmul_done (hw : s.Works c 1 q n) (hok : mmOk q = true) (hon : s.cores[c].mxe.ready = true)
    (hz : s.cores[c].spd.ZeroPointsOk (mmCmd q)) (hr : s.cores[c].spd.Ready (mmCmd q).reads) :
    s.mmul c q = .done (s.mmWork c (mmCmd q)) := by
  simp only [State.mmul, hok, Bool.not_true, Bool.false_eq_true, if_false]
  exact State.onRamp_done hon <| State.onZeroPoints_done hw.noLatch hz <| overSpd_done hw.noLatch hr <|
    State.steps_done hon rfl

theorem State.mmul_wait (hw : s.Works c 1 q 0) (hok : mmOk q = true) (hoff : ¬ s.cores[c].mxe.ready = true) :
    s.mmul c q = .wait 1 (s.modMxe c MxeState.rampUp) := by
  simp only [State.mmul, hok, Bool.not_true, Bool.false_eq_true, if_false]
  exact State.onRamp_wait hw hoff

/-- The lines of an SPMM's index. -/
def SpdState.spLines (p : SpdState) (q : EngCmd) : List (SpLine × Nat × Bool) :=
  (List.range ((spCmd q).nb * (spCmd q).kl)).map fun i => spLine p (spCmd q).fmt (spCmd q).boff (spEntry p (spIndex q) i)

theorem State.spmm_done (hw : s.Works c 1 q n) (hok : spOk q = true) (hon : s.cores[c].mxe.ready = true)
    (hz : s.cores[c].spd.ZeroPointsOk (spCmd q))
    (hindex : s.cores[c].spd.Ready [(spIndex q, 8 * ((spCmd q).nb * (spCmd q).kl))])
    (hheads : s.cores[c].spd.Ready ((List.range ((spCmd q).nb * (spCmd q).kl)).flatMap fun i =>
      spHead (spCmd q).fmt (spCmd q).boff (spEntry s.cores[c].spd (spIndex q) i)))
    (hr : s.cores[c].spd.Ready ([((spCmd q).aoff, 256 * ((spCmd q).mb * (spCmd q).kl))] ++
      spRecords s.cores[c].spd (spCmd q) (spIndex q) (s.cores[c].spd.spLines q) ++
      if (spCmd q).acc then [((spCmd q).coff, 1024 * ((spCmd q).mb * (spCmd q).nb))] else [])) :
    s.spmm c q = .done (s.spWork c (spCmd q) (s.cores[c].spd.spLines q)
      (spRecords s.cores[c].spd (spCmd q) (spIndex q) (s.cores[c].spd.spLines q))) := by
  simp only [State.spmm, hok, Bool.not_true, Bool.false_eq_true, if_false]
  exact State.onRamp_done hon <| State.onZeroPoints_done hw.noLatch hz <| overSpd_done hw.noLatch hindex <|
    overSpd_done hw.noLatch hheads <| overSpd_done hw.noLatch hr <| State.steps_done hon rfl

theorem State.nbmap_done (hw : s.Works c 1 q n) (hok : nbOk q = true)
    (hrecs : s.cores[c].spd.Ready [((nbCmd q).recs, 128 * (nbCmd q).nrec)])
    (hr : s.cores[c].spd.Ready (nbReads c s.cores[c].spd (nbCmd q))) : s.nbmap c q = .done (s.nbWork c (nbCmd q)) := by
  simp only [State.nbmap, hok, Bool.not_true, Bool.false_eq_true, if_false]
  exact overSpd_done hw.noLatch hrecs (overSpd_done hw.noLatch hr rfl)

theorem State.sconv_done {x : ScCmd} (hw : s.Works c 1 q n) (hwords : scWordsOk q = true)
    (hon : s.cores[c].mxe.ready = true) (hx : scCmd q s.cores[c].spd = x)
    (hdesc : s.cores[c].spd.Ready [(fld q.w1 0 23, 64)]) (hok : x.ok s.cores[c].spd (fld q.w1 0 23) = true)
    (hmap : s.cores[c].spd.Ready [(x.map, 512 * x.nrec)]) (hr : s.cores[c].spd.Ready (x.reads s.cores[c].spd)) :
    s.sconv c q = .done (s.scWork c x) := by
  simp only [State.sconv, hwords, Bool.not_true, Bool.false_eq_true, if_false]
  refine State.onRamp_done hon (overSpd_done hw.noLatch hdesc ?_)
  simp only [hx, hok, Bool.not_true, Bool.false_eq_true, if_false]
  exact overSpd_done hw.noLatch hmap <| overSpd_done hw.noLatch hr <| State.steps_done hon rfl

end

/-! ### The bytes of C (R193, R199) -/

/-- One of several equally long parts, joined in order. -/
theorem take_drop_flatMap {α β : Type} {f : α → List β} {k i : Nat} {l : List α} (hlen : ∀ a, (f a).length = k)
    (hi : i < l.length) : ((l.flatMap f).drop (k * i)).take k = f l[i] := by
  induction l generalizing i with
  | nil => exact absurd hi (Nat.not_lt_zero i)
  | cons a l ih =>
    cases i with
    | zero => simp [hlen]
    | succ i =>
      have hdrop : k * (i + 1) = (f a).length + k * i := by rw [hlen, Nat.mul_succ, Nat.add_comm]
      rw [List.flatMap_cons, hdrop, ← List.drop_drop, List.drop_left, List.getElem_cons_succ]
      exact ih (Nat.lt_of_succ_lt_succ hi)

theorem wrapN_lt (k : Nat) (v : Int) : wrapN k v < 2 ^ k := by
  have hpos : (0 : Int) < 2 ^ k := Int.pow_pos (by decide)
  have hlt := Int.emod_lt_of_pos v hpos
  rw [wrapN, Int.toNat_lt (Int.emod_nonneg v (Int.ne_of_gt hpos)), Int.natCast_pow]
  exact hlt

theorem tileBytes_pos (fmt : Nat) : 0 < tileBytes fmt := by
  unfold tileBytes
  split <;> decide

theorem apart_of_not_overlap {a n b m : Nat} (h : overlap a n b m = false) (hn : 0 < n) (hm : 0 < m) :
    a + n ≤ b ∨ b + m ≤ a := by
  simp only [overlap, hn, hm, decide_true, Bool.and_true, Bool.and_eq_false_iff, decide_eq_false_iff_not] at h
  omega

theorem tilePlaces_length : tilePlaces.length = 256 := by simp [tilePlaces]

theorem tilePlaces_getElem {r j : Nat} (hj : j < 16) (h : 16 * r + j < tilePlaces.length) :
    tilePlaces[16 * r + j] = (r, j) := by
  simp only [tilePlaces, List.getElem_map, List.getElem_range]
  exact Prod.ext (by omega) (by omega)

theorem entriesInt_length (es : List (Int × Bool)) (f : MmFlags) : (entriesInt es f).1.length = 4 * es.length :=
  length_flatMap_leBytes 4 (fun e : Int × Bool => wrapN 32 e.1) es

theorem entriesFloat_length (es : List Nat) (f : MmFlags) : (entriesFloat es f).1.length = 4 * es.length :=
  length_flatMap_leBytes 4 id es

section
variable {p : SpdState} {x : MmCmd} {d : Nat}

/-- The bytes of a tile. -/
def mmBytes (p : SpdState) (x : MmCmd) (d m n : Nat) : List Byte := (mmTile p x d m n MmFlags.zero).1

theorem mmBytes_length (m n : Nat) : (mmBytes p x d m n).length = tileBytes x.fmt := by
  unfold mmBytes mmTile tileBytes
  split
  · simp [entriesInt_length, tilePlaces_length]
  · split
    · simp [entriesInt_length, tilePlaces_length]
    · simp [entriesFloat_length, tilePlaces_length]

/-- The flags raised before do not enter a tile's bytes. -/
theorem mmTile_bytes (m n : Nat) (f : MmFlags) : (mmTile p x d m n f).1 = mmBytes p x d m n := by
  unfold mmBytes mmTile
  split
  · rfl
  · split <;> rfl

/-- An entry of a tile in an integer format other than complex. -/
theorem mmBytes_entry {m n r j : Nat} (hint : fmtInt x.fmt = true) (hcplx : x.fmt ≠ 0xA) (hr : r < 16) (hj : j < 16) :
    ((mmBytes p x d m n).drop (4 * (16 * r + j))).take 4 = leBytes 4 (wrapN 32 (mmIntEntry p x m n r j).1) := by
  have hplace : 16 * r + j < tilePlaces.length := by rw [tilePlaces_length]; omega
  rw [mmBytes, mmTile, if_neg hcplx, if_pos hint]
  refine (take_drop_flatMap (fun _ => leBytes_length 4 _) (by rwa [List.length_map])).trans ?_
  rw [List.getElem_map, tilePlaces_getElem hj]

/-- What an MMUL writes: its tiles and, where it asks for one, its status, which tells the flags `f`. -/
def MmCmd.writes (x : MmCmd) (p : SpdState) (d : Nat) (f : MmFlags) : List (Nat × List Byte) :=
  tileWrites x.mb x.nb x.coff (tileBytes x.fmt) (mmBytes p x d) ++
    if x.sen then [(x.soff, mmStatus f 0)] else []

theorem mmStatus_length (f : MmFlags) (extra : Nat) : (mmStatus f extra).length = 8 := by simp [mmStatus, leBytes_length]

end

section
variable {s t : State} {c : CoreId} {ws : List (Nat × List Byte)}

theorem State.PutsDue.status {p : Prop} [Decidable p] {a : Nat} {bs : List Byte} (h : s.PutsDue t c 1 ws) :
    s.PutsDue (if p then t.wideWrite c 1 a bs else t) c 1 (ws ++ if p then [(a, bs)] else []) := by
  split
  · exact h.trans (State.wideWrite_putsDue a bs)
  · exact h.trans .refl

/-- The end of a product command counts and posts; it writes nothing. -/
theorem State.PutsDue.mmEnd {f : MmFlags} {k : Nat} (h : s.PutsDue t c 1 ws) : s.PutsDue (t.mmEnd c f k) c 1 ws := by
  have hpost {p : Prop} [Decidable p] {u : State} {code : Nat} (h : s.PutsDue u c 1 ws) :
      s.PutsDue (if p then u.postCore c code else u) c 1 ws := by
    split
    · exact h.of_core rfl rfl
    · exact h
  have hmxe (g : MxeState → MxeState) : s.PutsDue (t.modMxe c g) c 1 ws :=
    h.of_core (by rw [State.modMxe, State.modCore_same]) (by rw [State.modMxe, State.modCore_same])
  exact hpost (hpost (hmxe _))

theorem State.mmWork_putsDue (x : MmCmd) : ∃ f, s.PutsDue (s.mmWork c x) c 1 (x.writes s.cores[c].spd s.free f) := by
  have htiles : State.PutsDue { s with free := s.free + 1 } _ c 1 _ := State.tiles_putsDue (mb := x.mb) (nb := x.nb)
    (coff := x.coff) (tb := tileBytes x.fmt) (mmTile_bytes (p := s.cores[c].spd) (x := x) (d := s.free))
  exact ⟨_, htiles.status.mmEnd⟩

end

/-! ### What an MMUL leaves in the scratchpad -/

/-- The bytes of C. -/
def MmCmd.clen (x : MmCmd) : Nat := tileBytes x.fmt * (x.mb * x.nb)

section
variable {p : SpdState} {x : MmCmd} {d : Nat} {f : MmFlags}

/-- Every write lies in C or is the status. -/
theorem MmCmd.writes_within {w : Nat × List Byte} (hw : w ∈ x.writes p d f) :
    (x.coff ≤ w.1 ∧ w.1 + w.2.length ≤ x.coff + x.clen) ∨ (x.sen = true ∧ w.1 = x.soff ∧ w.2.length = 8) := by
  obtain hw | hw := List.mem_append.mp hw
  · exact .inl (tileWrites_within mmBytes_length hw)
  · split at hw
    case isTrue hsen =>
      obtain rfl := List.mem_singleton.mp hw
      exact .inr ⟨hsen, rfl, mmStatus_length f 0⟩
    case isFalse => exact absurd hw List.not_mem_nil

theorem MmCmd.writes_apart (hapart : x.sen = true → overlap x.coff x.clen x.soff 8 = false) :
    (x.writes p d f).Pairwise WritesApart := by
  refine List.pairwise_append.mpr ⟨tileWrites_apart mmBytes_length, ?_, fun v hv w hw => ?_⟩
  · split
    · exact List.pairwise_singleton _ _
    · exact .nil
  · split at hw
    case isTrue hsen =>
      obtain rfl := List.mem_singleton.mp hw
      have hin : x.coff ≤ v.1 ∧ v.1 + v.2.length ≤ x.coff + x.clen := tileWrites_within mmBytes_length hv
      have := tileWrites_length mmBytes_length hv
      have := tileBytes_pos x.fmt
      have := apart_of_not_overlap (hapart hsen) (by omega) (by decide)
      simp only [WritesApart, mmStatus_length]
      omega
    case isFalse => exact absurd hw List.not_mem_nil

end

theorem mmOk_status_apart {q : EngCmd} (h : mmOk q = true) (hsen : (mmCmd q).sen = true) :
    overlap (mmCmd q).coff (mmCmd q).clen (mmCmd q).soff 8 = false := by
  simp only [mmOk, Bool.and_eq_true] at h
  obtain ⟨-, h⟩ := h
  simpa [hsen, MmCmd.clen] using h

section
variable {s t : State} {c : CoreId} {q : EngCmd} {n : Nat} {x : MmCmd}

/-- An MMUL whose lines may be written makes its writes, whatever the flags they raise. -/
theorem State.mmWork_performed (ht : s.mmWork c x = t) (hw : s.Works c 1 q n)
    (hput : s.cores[c].spd.Writable ((x.coff, x.clen) :: if x.sen then [(x.soff, 8)] else [])) :
    ∃ f, (t.performed c 1).cores[c].spd.mem = writeAll s.cores[c].spd.mem (x.writes s.cores[c].spd s.free f) := by
  subst ht
  obtain ⟨-, -, -, hwork⟩ := hw
  obtain ⟨f, hdue⟩ := s.mmWork_putsDue (c := c) x
  refine ⟨f, hdue.performed hwork fun w hw a ha ha' => ?_⟩
  have hline {r : Nat × Nat} (hr : r ∈ (x.coff, x.clen) :: if x.sen then [(x.soff, 8)] else []) :
      s.cores[c].spd.Writable [r] := fun l hl => hput l <| by
    rw [rangeLines, List.flatMap_singleton] at hl
    exact List.mem_flatMap.mpr ⟨r, hr, hl⟩
  obtain ⟨hlo, hhi⟩ | ⟨hsen, haddr, hlen⟩ := MmCmd.writes_within hw
  · exact (hline List.mem_cons_self).line (by omega) (by omega)
  · exact (hline (r := (x.soff, 8)) (by simp [hsen])).line (by omega) (by omega)

/-- Outside C and the status block no byte changes. -/
theorem State.mmWork_outside {a : Nat} (ht : s.mmWork c x = t) (hw : s.Works c 1 q n)
    (hwf : s.cores[c].spd.mem.wf = true)
    (hput : s.cores[c].spd.Writable ((x.coff, x.clen) :: if x.sen then [(x.soff, 8)] else []))
    (hc : a < x.coff ∨ x.coff + x.clen ≤ a) (hstatus : x.sen = true → a < x.soff ∨ x.soff + 8 ≤ a) :
    (t.performed c 1).cores[c].spd.mem.byte a = s.cores[c].spd.mem.byte a := by
  obtain ⟨f, hmem⟩ := State.mmWork_performed ht hw hput
  rw [hmem]
  refine byte_writeAll_outside hwf fun w hw => ?_
  obtain hin | ⟨hsen, haddr, hlen⟩ := MmCmd.writes_within hw
  · omega
  · have := hstatus hsen
    omega

/-- An entry of C in an integer format other than complex is its accumulation (R199, R202). -/
theorem State.mmWork_entry {m k r j : Nat} (ht : s.mmWork c x = t) (hw : s.Works c 1 q n)
    (hwf : s.cores[c].spd.mem.wf = true)
    (hput : s.cores[c].spd.Writable ((x.coff, x.clen) :: if x.sen then [(x.soff, 8)] else []))
    (hapart : x.sen = true → overlap x.coff x.clen x.soff 8 = false) (hfmt : x.fmt ≤ 1 ∨ x.fmt = 9)
    (hm : m < x.mb) (hk : k < x.nb) (hr : r < 16) (hj : j < 16) :
    (t.performed c 1).cores[c].spd.mem.num (x.coff + 1024 * (m * x.nb + k) + 4 * (16 * r + j)) 4 =
      wrapN 32 (mmIntEntry s.cores[c].spd x m k r j).1 := by
  obtain ⟨f, hmem⟩ := State.mmWork_performed ht hw hput
  have hcplx : x.fmt ≠ 0xA := by omega
  have hint : fmtInt x.fmt = true := by
    simp only [fmtInt, Bool.or_eq_true, decide_eq_true_eq]
    omega
  have htb : tileBytes x.fmt = 1024 := if_neg hcplx
  have htile : (x.coff + 1024 * (m * x.nb + k), mmBytes s.cores[c].spd x s.free m k) ∈ x.writes s.cores[c].spd s.free f :=
    List.mem_append_left _ (List.mem_map.mpr ⟨(m, k), mem_tilePairs.mpr ⟨hm, hk⟩, by rw [htb]⟩)
  have hlen : (mmBytes s.cores[c].spd x s.free m k).length = 1024 := (mmBytes_length m k).trans htb
  rw [hmem]
  calc _ = wrapN 32 (mmIntEntry s.cores[c].spd x m k r j).1 % 2 ^ 32 :=
        num_writeAll_field hwf (MmCmd.writes_apart hapart) htile (by omega) (mmBytes_entry hint hcplx hr hj)
    _ = _ := Nat.mod_eq_of_lt (wrapN_lt 32 _)

end

/-! ### The statement -/

section
variable {s t : State} {c : CoreId} {q : EngCmd} {n : Nat}

theorem State.execMmul_done (hw : s.Works c 1 q n) (ho : q.opc = 1) (hr : s.mmul c q = .done t) :
    execMmul c s = .next (t.performed c 1) :=
  congrArg Host.Outcome.next (engineStep_done (run := fun q t => t.mmul c q) hw (beq_iff_eq.mpr ho) hr)

theorem State.execMmul_wait (hw : s.Works c 1 q n) (ho : q.opc = 1) (hr : s.mmul c q = .wait 1 t) :
    execMmul c s = .next (t.partly c 1) :=
  congrArg Host.Outcome.next (engineStep_wait (run := fun q t => t.mmul c q) hw (beq_iff_eq.mpr ho) hr)

theorem State.execSpmm_done (hw : s.Works c 1 q n) (ho : q.opc = 0x10) (hr : s.spmm c q = .done t) :
    execSpmm c s = .next (t.performed c 1) :=
  congrArg Host.Outcome.next (engineStep_done (run := fun q t => t.spmm c q) hw (beq_iff_eq.mpr ho) hr)

theorem State.execNbmap_done (hw : s.Works c 1 q n) (ho : q.opc = 0x11) (hr : s.nbmap c q = .done t) :
    execNbmap c s = .next (t.performed c 1) :=
  congrArg Host.Outcome.next (engineStep_done (run := fun q t => t.nbmap c q) hw (beq_iff_eq.mpr ho) hr)

theorem State.execSconv_done (hw : s.Works c 1 q n) (ho : q.opc = 0x12) (hr : s.sconv c q = .done t) :
    execSconv c s = .next (t.performed c 1) :=
  congrArg Host.Outcome.next (engineStep_done (run := fun q t => t.sconv c q) hw (beq_iff_eq.mpr ho) hr)

end

/-- Settles O22: each command's run by the lemma about it, what it changes, and the bytes an MMUL writes. -/
theorem matrixAndSparse : Obligations.MatrixAndSparse := by
  intro s c q n hw hwf p x on cn zeroPoints
  refine ⟨?mmul, ?ramp, ?spmm, ?nbmap, ?sconv⟩
  case mmul =>
    intro ho hok hon hz hr
    have hrun := State.mmul_done hw hok hon hz hr
    have honly := s.mmWork_onlyCore (c := c) (mmCmd q)
    generalize ht : s.mmWork c (mmCmd q) = t at hrun honly
    refine ⟨t, hrun, State.execMmul_done hw ho hrun, honly, fun hput => ⟨fun a hc hstatus => ?_,
      fun hfmt m hm k hk r hr j hj => ?_⟩⟩
    · exact State.mmWork_outside ht hw hwf hput hc hstatus
    · exact State.mmWork_entry ht hw hwf hput (mmOk_status_apart hok) hfmt hm hk hr hj
  case ramp =>
    intro ho hok hn hoff
    subst hn
    exact State.execMmul_wait hw ho (State.mmul_wait hw hok hoff)
  case spmm =>
    intro ho hok hon y io ls hz hindex hheads hr
    have hrun := State.spmm_done hw hok hon hz hindex hheads hr
    exact ⟨_, hrun, State.execSpmm_done hw ho hrun, State.spWork_onlyCore ..⟩
  case nbmap =>
    intro ho hok y hrecs hr
    have hrun := State.nbmap_done hw hok hrecs hr
    exact ⟨_, hrun, State.execNbmap_done hw ho hrun, State.nbWork_onlyCore _⟩
  case sconv =>
    intro ho hwords hon hdesc y hok hmap hr
    have hrun := State.sconv_done hw hwords hon rfl hdesc hok hmap hr
    exact ⟨_, hrun, State.execSconv_done hw ho hrun, State.scWork_onlyCore _⟩

end Sys2Proof.Machine
end

/-! The proofs: the vector engine, its commands. -/

section
namespace Sys2Proof.Machine

/-! ### What stays on the core -/

section
variable {s t : State} {c : CoreId}

theorem State.modVec_onlyCore (f : VecState → VecState) : OnlyCore s (s.modVec c f) c :=
  OnlyCore.modCore (fun _ => rfl) (fun _ => rfl) fun _ => rfl

theorem State.vecStore_onlyCore (a : Nat) (bs : List Byte) : OnlyCore s (s.vecStore c a bs) c := State.narrowPut_onlyCore ..

/-- A result that is stored where the command asks for it. -/
theorem OnlyCore.storeIf {p : Prop} [Decidable p] {a : Nat} {bs : List Byte} (h : OnlyCore s t c) :
    OnlyCore s (if p then t.vecStore c a bs else t) c :=
  .ite (h.trans (State.vecStore_onlyCore ..)) h

/-- A row is written by wide writes, whatever its layout (R240). -/
theorem State.writeRow_onlyCore (x : Tensor) (fill r : Nat) (xs : List Nat) : OnlyCore s (s.writeRow c x fill r xs) c := by
  unfold State.writeRow
  dsimp only
  split
  · exact State.wideWrite_onlyCore ..
  · exact .foldl fun _ _ => State.wideWrite_onlyCore ..
  · exact .foldl fun _ _ => State.wideWrite_onlyCore ..

/-- The end of a row changes the stream's counts and may post its alarm (R255, R256). -/
theorem State.satRow_onlyCore (k : Fin 16) (n : Nat) : OnlyCore s (s.satRow c k n) c := .postIf (State.modVec_onlyCore _)

/-- What VCNT counts is posted (R263). -/
theorem OnlyCore.vcntIf {p : Prop} [Decidable p] {f : VecState → VecState} {code : Nat} (h : OnlyCore s t c) :
    OnlyCore s (if p then (t.modVec c f).postCore c code else t) c :=
  .ite (h.trans ((State.modVec_onlyCore f).trans (State.postCore_onlyCore code))) h

theorem State.vecEnd_onlyCore (x : VCmd) (n : VecCnt) : OnlyCore s (s.vecEnd c x n) c := by
  refine .postIf (.vcntIf (.vcntIf ?_))
  split
  · exact State.wideWrite_onlyCore ..
  · exact .refl

theorem State.vecRows_onlyCore {row : State → Nat → State × VecCnt} (h : ∀ t r, OnlyCore t (row t r).1 c) (n : Nat) :
    OnlyCore s (s.vecRows n row).1 c :=
  List.foldlRecOn (motive := fun a : State × VecCnt => OnlyCore s a.1 c) _ _ .refl fun _ ha _ _ => ha.trans (h ..)

theorem State.ewWrite_onlyCore (x : VCmd) (p : SpdState) (r : Nat) : OnlyCore s (s.ewWrite c x p r).1 c := by
  have hrow (e : List Nat × VecCnt) : OnlyCore s
      (if isStream x.d.fmt then (s.writeRow c x.d 0 r e.1).satRow c x.strm e.2.sat else s.writeRow c x.d 0 r e.1) c :=
    .ite ((State.writeRow_onlyCore ..).trans (State.satRow_onlyCore ..)) (State.writeRow_onlyCore ..)
  unfold State.ewWrite
  dsimp only
  split
  · exact (hrow _).trans (State.vecStore_onlyCore ..)
  · exact hrow _

theorem State.histWrite_onlyCore (d : ScaleDesc) (vs : List FV) : OnlyCore s (s.histWrite c d vs).1 c :=
  State.wideWrite_onlyCore ..

theorem State.qntWrite_onlyCore (x : VCmd) (p : SpdState) (d : ScaleDesc) (r : Nat) :
    OnlyCore s (s.qntWrite c x p d r).1 c := by
  refine .trans (.storeIf (.trans ?_ (State.vecStore_onlyCore ..))) (State.satRow_onlyCore ..)
  exact .trans (.trans (.storeIf .refl) (State.writeRow_onlyCore ..)) (State.vecStore_onlyCore ..)

theorem State.rqWrite_onlyCore (x : VCmd) (p : SpdState) (r : Nat) : OnlyCore s (s.rqWrite c x p r).1 c :=
  (State.writeRow_onlyCore ..).trans (State.satRow_onlyCore ..)

theorem State.dqWrite_onlyCore (x : VCmd) (p : SpdState) (d : ScaleDesc) (r : Nat) : OnlyCore s (s.dqWrite c x p d r).1 c :=
  State.writeRow_onlyCore ..

end

/-! ### The runs (R244 to R261) -/

section
variable {s : State} {c : CoreId} {q : EngCmd} {n : Nat} {x : VCmd} {d : ScaleDesc}

/-- The run works out its results, and they are its own core's. -/
def EngineRun.DoneOn (run : EngineRun) (s : State) (c : CoreId) : Prop := ∃ t, run = .done t ∧ OnlyCore s t c

/-- What every vector command may read besides its operands: the stream record, where it writes one (R256). -/
def SpdState.VecReady (p : SpdState) (x : VCmd) (v : VecState) (ins : List (Nat × Nat)) : Prop :=
  p.Ready (ins ++ x.recordRange v)

/-- A part whose lines may be read does what its work on them does. -/
theorem State.overSpd_doneOn {rs : List (Nat × Nat)} {work : State → EngineRun} (hw : s.Works c 2 q n)
    (hr : s.cores[c].spd.Ready rs) (h : (work s).DoneOn s c) : (s.overSpd c 2 rs work).DoneOn s c := by
  obtain ⟨t, hrun, honly⟩ := h
  exact ⟨t, overSpd_done hw.noLatch hr hrun, honly⟩

theorem State.vecRun_doneOn {ins : List (Nat × Nat)} {work : State → State × VecCnt} (hw : s.Works c 2 q n)
    (hr : s.cores[c].spd.VecReady x s.cores[c].vec ins) (honly : OnlyCore s (work s).1 c) :
    (s.vecRun c x ins work).DoneOn s c :=
  State.overSpd_doneOn hw hr ⟨_, rfl, honly.trans (State.vecEnd_onlyCore ..)⟩

theorem State.ew_doneOn (hw : s.Works c 2 q n) (hx : vCmd q = x) (hcommon : x.common q s.cores[c].vec = true)
    (hok : x.ewOk = true)
    (hranges : rangesOk (x.bRange ++ if x.a = x.d then [] else [(x.a.off, x.a.len)])
      ((x.d.off, x.d.len) :: if x.sums then [(x.roff, 4 * x.a.rows)] else []) = true)
    (hr : s.cores[c].spd.VecReady x s.cores[c].vec
      ((x.a.off, x.a.len) :: (x.bRange ++ if x.eop = 3 then [(x.d.off, x.d.len)] else []))) : (s.ew c q).DoneOn s c := by
  simp only [State.ew, hx, hcommon, hok, decide_eq_true_eq, hranges, Bool.and_self, Bool.not_true, Bool.false_eq_true, if_false]
  exact State.vecRun_doneOn hw hr (State.vecRows_onlyCore (fun _ _ => State.ewWrite_onlyCore ..) _)

theorem State.red_doneOn (hw : s.Works c 2 q n) (hx : vCmd q = x) (hcommon : x.common q s.cores[c].vec = true)
    (hopx : x.opx = 0) (hfmt : x.d.fmt = 0) (hrop : fld x.w3 0 3 ≤ 4) (hzero : fld x.w3 3 61 = 0)
    (hranges : rangesOk [(x.a.off, x.a.len)] [(x.d.off, x.redBytes * x.a.rows)] = true)
    (hr : s.cores[c].spd.VecReady x s.cores[c].vec [(x.a.off, x.a.len)]) : (s.red c q).DoneOn s c := by
  simp only [State.red, hx, hcommon, hopx, hfmt, hrop, hzero, hranges, decide_true, Bool.and_self, Bool.not_true,
    Bool.false_eq_true, if_false]
  exact State.vecRun_doneOn hw hr (State.vecRows_onlyCore (fun _ _ => State.vecStore_onlyCore ..) _)

theorem State.qnt_doneOn (hw : s.Works c 2 q n) (hx : vCmd q = x) (hd : scaleDesc s.cores[c].spd (fld x.w3 0 23) = d)
    (hcommon : x.common q s.cores[c].vec = true) (hok : x.qntOk = true)
    (hdesc : s.cores[c].spd.Ready [(fld x.w3 0 23, 64)]) (hdescOk : x.qntDescOk d = true)
    (hranges : rangesOk (x.qntIns d) (x.qntOuts d) = true)
    (hr : s.cores[c].spd.VecReady x s.cores[c].vec (x.qntIns d ++ if d.hen && d.hacc then [d.histRange] else [])) :
    (s.qnt c q).DoneOn s c := by
  simp only [State.qnt, hx, hcommon, hok, Bool.and_self, Bool.not_true, Bool.false_eq_true, if_false]
  refine State.overSpd_doneOn hw hdesc ?_
  simp only [hd, hdescOk, hranges, Bool.and_self, Bool.not_true, Bool.false_eq_true, if_false]
  refine State.vecRun_doneOn hw hr ?_
  have hrows (p : SpdState) : OnlyCore s (s.vecRows x.a.rows fun t r => t.qntWrite c x p d r).1 c :=
    State.vecRows_onlyCore (fun _ _ => State.qntWrite_onlyCore ..) _
  split
  · exact (hrows _).trans (State.histWrite_onlyCore ..)
  · exact hrows _

/-- The table of an RQ, if it takes its parameters from one (R252). -/
def VCmd.rqTable (x : VCmd) : List (Nat × Nat) := if x.msrc = 0 then [] else [(x.boff, 8 * x.rqEntries)]

/-- Limits of an RQ apart from its ranges and its table's entries (R252). -/
def VCmd.rqOk (x : VCmd) : Prop :=
  x.a.fmt = 7 ∧ vInt x.d.fmt = true ∧ x.d.ok = true ∧ x.opx = 0 ∧ fld x.w3 48 16 = 0 ∧ x.msrc < 3 ∧
    (x.msrc ≠ 0 → x.vfb = 0)

theorem State.rq_doneOn (hw : s.Works c 2 q n) (hx : vCmd q = x) (hcommon : x.common q s.cores[c].vec = true)
    (hok : x.rqOk) (hranges : rangesOk ((x.a.off, x.a.len) :: x.rqTable) [(x.d.off, x.d.len)] = true)
    (htable : s.cores[c].spd.Ready x.rqTable)
    (hentries : ∀ i < x.rqEntries, s.cores[c].spd.num (x.boff + 8 * i) 8 < 2 ^ 46)
    (hr : s.cores[c].spd.VecReady x s.cores[c].vec ((x.a.off, x.a.len) :: x.rqTable)) : (s.rq c q).DoneOn s c := by
  obtain ⟨ha, hint, hd, hopx, hzero, hmsrc, hvfb⟩ := hok
  have hb : (decide (x.msrc = 0) || decide (x.vfb = 0)) = true := by
    rw [Bool.or_eq_true, decide_eq_true_eq, decide_eq_true_eq]
    exact Decidable.or_iff_not_imp_left.mpr hvfb
  have hgood : ((List.range x.rqEntries).any fun i => decide (2 ^ 46 ≤ s.cores[c].spd.num (x.boff + 8 * i) 8)) = false :=
    List.any_eq_false.mpr fun i hi => by simpa using hentries i (List.mem_range.mp hi)
  unfold VCmd.rqTable at hranges
  simp only [State.rq, hx, hcommon, ha, hint, hd, hopx, hzero, hmsrc, hb, hranges, decide_true, Bool.and_self, Bool.not_true,
    Bool.false_eq_true, if_false]
  refine State.overSpd_doneOn hw htable ?_
  rw [if_neg (Bool.eq_false_iff.mp hgood)]
  exact State.vecRun_doneOn hw hr (State.vecRows_onlyCore (fun _ _ => State.rqWrite_onlyCore ..) _)

/-- Limits of a DQ apart from its ranges and its descriptor (R253). -/
def VCmd.dqOk (x : VCmd) : Prop :=
  (vInt x.a.fmt = true ∨ vFp8 x.a.fmt = true) ∧ 4 ≤ x.d.fmt ∧ x.d.fmt ≤ 6 ∧ x.d.ok = true ∧ x.opx = 0 ∧
    descWordOk x.w3 = true

theorem State.dq_doneOn (hw : s.Works c 2 q n) (hx : vCmd q = x) (hd : scaleDesc s.cores[c].spd (fld x.w3 0 23) = d)
    (hcommon : x.common q s.cores[c].vec = true) (hok : x.dqOk)
    (hdesc : s.cores[c].spd.Ready [(fld x.w3 0 23, 64)]) (hdescOk : x.dqDescOk d = true)
    (hranges : rangesOk (x.dqIns d) [(x.d.off, x.d.len)] = true)
    (hr : s.cores[c].spd.VecReady x s.cores[c].vec (x.dqIns d)) : (s.dq c q).DoneOn s c := by
  obtain ⟨ha, hlo, hhi, hlayout, hopx, hword⟩ := hok
  simp only [State.dq, hx, hcommon, Bool.or_eq_true_iff.mpr ha, between, hlo, hhi, hlayout, hopx, hword, decide_true,
    Bool.and_self, Bool.not_true, Bool.false_eq_true, if_false]
  refine State.overSpd_doneOn hw hdesc ?_
  simp only [hd, hdescOk, hranges, Bool.and_self, Bool.not_true, Bool.false_eq_true, if_false]
  exact State.vecRun_doneOn hw hr (State.vecRows_onlyCore (fun _ _ => State.dqWrite_onlyCore ..) _)

theorem State.hist_doneOn (hw : s.Works c 2 q n) (hx : vCmd q = x) (hd : scaleDesc s.cores[c].spd (fld x.w3 0 23) = d)
    (hcommon : x.common q s.cores[c].vec = true) (hopx : x.opx = 0) (hfmt : x.d.fmt = 0) (hword : descWordOk x.w3 = true)
    (hdesc : s.cores[c].spd.Ready [(fld x.w3 0 23, 64)]) (hen : d.hen = true) (hok : d.histOk = true)
    (hranges : rangesOk [(x.a.off, x.a.len), (fld x.w3 0 23, 64)] [d.histRange] = true)
    (hr : s.cores[c].spd.VecReady x s.cores[c].vec ((x.a.off, x.a.len) :: if d.hacc then [d.histRange] else [])) :
    (s.hist c q).DoneOn s c := by
  simp only [State.hist, hx, hcommon, hopx, hfmt, hword, decide_true, Bool.and_self, Bool.not_true, Bool.false_eq_true, if_false]
  refine State.overSpd_doneOn hw hdesc ?_
  simp only [hd, hen, hok, hranges, Bool.and_self, Bool.not_true, Bool.false_eq_true, if_false]
  exact State.vecRun_doneOn hw hr (State.histWrite_onlyCore ..)

/-- A vector command in work whose run works out its results is performed (R69). -/
theorem State.vecStep_performs {op : Nat} {run : EngCmd → State → EngineRun} (hw : s.Works c 2 q n) (ho : q.opc = op)
    (h : (run q s).DoneOn s c) :
    ∃ t, run q s = .done t ∧ (.next (s.vecStep c op run) : Answer) = .next (t.performed c 2) ∧ OnlyCore s t c := by
  obtain ⟨t, hrun, honly⟩ := h
  exact ⟨t, hrun, congrArg _ (engineStep_done hw (beq_iff_eq.mpr ho) hrun), honly⟩

end

/-! ### The statement -/

/-- Settles O23: each command's run by the lemma about it. -/
theorem vectorEngine : Obligations.VectorEngine := by
  intro s c q n hw p x ar da d ready hcommon
  refine ⟨?ew, ?red, ?qnt, ?rq, ?dq, ?hist⟩
  case ew =>
    intro ho hok outs hranges hr
    exact State.vecStep_performs (run := fun q t => t.ew c q) hw ho (State.ew_doneOn hw rfl hcommon hok hranges hr)
  case red =>
    intro ho hopx hfmt hrop hzero hranges hr
    exact State.vecStep_performs (run := fun q t => t.red c q) hw ho
      (State.red_doneOn hw rfl hcommon hopx hfmt hrop hzero hranges hr)
  case qnt =>
    intro ho hok hdesc hdescOk hranges hr
    exact State.vecStep_performs (run := fun q t => t.qnt c q) hw ho
      (State.qnt_doneOn hw rfl rfl hcommon hok hdesc hdescOk hranges hr)
  case rq =>
    intro ho ha hint hd hopx hzero hmsrc hvfb table hranges htable hentries hr
    exact State.vecStep_performs (run := fun q t => t.rq c q) hw ho
      (State.rq_doneOn hw rfl hcommon ⟨ha, hint, hd, hopx, hzero, hmsrc, hvfb⟩ hranges htable hentries hr)
  case dq =>
    intro ho ha hlo hhi hok hopx hword hdesc hdescOk hranges hr
    exact State.vecStep_performs (run := fun q t => t.dq c q) hw ho
      (State.dq_doneOn hw rfl rfl hcommon ⟨ha, hlo, hhi, hok, hopx, hword⟩ hdesc hdescOk hranges hr)
  case hist =>
    intro ho hopx hfmt hword hdesc hen hok hranges hr
    exact State.vecStep_performs (run := fun q t => t.hist c q) hw ho
      (State.hist_doneOn hw rfl rfl hcommon hopx hfmt hword hdesc hen hok hranges hr)

end Sys2Proof.Machine
end

/-! The proofs: selection, the order of keys and what a selection holds. -/

section
namespace Sys2Proof.Machine

/-! ### Values in order (R266) -/

/-- A finite value in units of 2^q. -/
def scaledAt (q : Int) (neg : Bool) (m : Nat) (e : Int) : Int := sgn neg (m * 2 ^ (e - q).toNat)

theorem scaledAt_finer {q r e : Int} (neg : Bool) (m : Nat) (hr : q ≤ r) (he : r ≤ e) :
    scaledAt q neg m e = scaledAt r neg m e * 2 ^ (r - q).toNat := by
  have hexp : (e - q).toNat = (e - r).toNat + (r - q).toNat := by omega
  cases neg <;>
    simp only [scaledAt, sgn, hexp, Nat.pow_add, ← Nat.mul_assoc, Int.natCast_mul, Int.natCast_pow, Int.cast_ofNat_Int,
      Int.neg_mul, if_true, if_false, Bool.false_eq_true]

/-- Finite values compare as their multiples of any unit that divides both. -/
theorem FV.lt_fin_iff {q e g : Int} {s t : Bool} {m n : Nat} (he : q ≤ e) (hg : q ≤ g) :
    (FV.fin s m e).lt (.fin t n g) = true ↔ scaledAt q s m e < scaledAt q t n g := by
  have hle : q ≤ min e g := by omega
  have hpos : (0 : Int) < 2 ^ (min e g - q).toNat := Int.pow_pos (by decide)
  rw [scaledAt_finer s m hle (Int.min_le_left e g), scaledAt_finer t n hle (Int.min_le_right e g),
    Int.mul_lt_mul_right hpos]
  exact decide_eq_true_iff

/-- The exponent of a value's unit. -/
def FV.unit : FV → Int
  | .fin _ _ e => e
  | _ => 0

/-- Where a value lies: below all numbers, among them or above them. -/
def FV.side : FV → Int
  | .inf true => -1
  | .inf false => 1
  | _ => 0

/-- The number among those of its side, in units of 2^q. -/
def FV.units (q : Int) : FV → Int
  | .fin s m e => scaledAt q s m e
  | _ => 0

/-- The order of values is by side and then by number. -/
theorem FV.lt_iff {a b : FV} {q : Int} (ha : a.isNan = false) (hb : b.isNan = false) (hqa : q ≤ a.unit) (hqb : q ≤ b.unit) :
    a.lt b = true ↔ a.side < b.side ∨ a.side = b.side ∧ a.units q < b.units q := by
  cases a with
  | nan => cases ha
  | inf s =>
    cases b with
    | nan => cases hb
    | inf t => cases s <;> cases t <;> simp [FV.lt, FV.lt?, FV.side, FV.units]
    | fin t n g => cases s <;> simp [FV.lt, FV.lt?, FV.side]
  | fin s m e =>
    cases b with
    | nan => cases hb
    | inf t => cases t <;> simp [FV.lt, FV.lt?, FV.side]
    | fin t n g =>
      refine (FV.lt_fin_iff (e := e) (g := g) hqa hqb).trans ?_
      exact ⟨fun h => .inr ⟨rfl, h⟩, fun h => (h.resolve_left (Int.lt_irrefl 0)).2⟩

theorem FV.lt_asymm {a b : FV} (ha : a.isNan = false) (hb : b.isNan = false) (h : a.lt b = true) : ¬ b.lt a = true := by
  have hqa : min a.unit b.unit ≤ a.unit := Int.min_le_left ..
  have hqb : min a.unit b.unit ≤ b.unit := Int.min_le_right ..
  rw [FV.lt_iff ha hb hqa hqb] at h
  rw [FV.lt_iff hb ha hqb hqa]
  omega

/-- Of two values apart, every third lies above the lower or below the higher. -/
theorem FV.lt_between {a b c : FV} (ha : a.isNan = false) (hb : b.isNan = false) (hc : c.isNan = false)
    (h : a.lt c = true) : a.lt b = true ∨ b.lt c = true := by
  obtain ⟨q, hqa, hqb, hqc⟩ : ∃ q, q ≤ a.unit ∧ q ≤ b.unit ∧ q ≤ c.unit :=
    ⟨min a.unit (min b.unit c.unit), by omega⟩
  rw [FV.lt_iff ha hc hqa hqc] at h
  rw [FV.lt_iff ha hb hqa hqb, FV.lt_iff hb hc hqb hqc]
  omega

/-! ### Keys in order (R265, R266) -/

/-- Keys of one format are all integers or all floating. -/
theorem keyOf_kind (kf : Nat) : (∀ raw, ∃ x, keyOf kf raw = .int x) ∨ ∀ raw, ∃ v, keyOf kf raw = .flt v :=
  match kf with
  | 0 | 1 | 2 | 3 | 4 => .inl fun _ => ⟨_, rfl⟩
  | 5 | 6 | _ + 7 => .inr fun _ => ⟨_, rfl⟩

theorem keyOf_gt_asymm {kf a b : Nat} (ha : (keyOf kf a).isNan = false) (hb : (keyOf kf b).isNan = false)
    (h : (keyOf kf a).gt (keyOf kf b) = true) : ¬ (keyOf kf b).gt (keyOf kf a) = true := by
  obtain hint | hflt := keyOf_kind kf
  · obtain ⟨x, hx⟩ := hint a
    obtain ⟨y, hy⟩ := hint b
    simp only [hx, hy, Key.gt, decide_eq_true_eq] at h ⊢
    omega
  · obtain ⟨v, hv⟩ := hflt a
    obtain ⟨w, hw⟩ := hflt b
    rw [hv] at ha h ⊢
    rw [hw] at hb h ⊢
    exact FV.lt_asymm hb ha h

theorem keyOf_gt_between {kf a b c : Nat} (ha : (keyOf kf a).isNan = false) (hb : (keyOf kf b).isNan = false)
    (hc : (keyOf kf c).isNan = false) (h : (keyOf kf a).gt (keyOf kf c) = true) :
    (keyOf kf a).gt (keyOf kf b) = true ∨ (keyOf kf b).gt (keyOf kf c) = true := by
  obtain hint | hflt := keyOf_kind kf
  · obtain ⟨x, hx⟩ := hint a
    obtain ⟨y, hy⟩ := hint b
    obtain ⟨z, hz⟩ := hint c
    simp only [hx, hy, hz, Key.gt, decide_eq_true_eq] at h ⊢
    omega
  · obtain ⟨u, hu⟩ := hflt a
    obtain ⟨v, hv⟩ := hflt b
    obtain ⟨w, hw⟩ := hflt c
    rw [hu] at ha h ⊢
    rw [hv] at hb ⊢
    rw [hw] at hc h ⊢
    exact (FV.lt_between hc hb ha h).symm

/-! ### Rank order: NaNs first, then by value (R266) -/

section
variable {kf a b c : Nat} {dir : Bool}

theorem not_ranksBefore_nan (hb : (keyOf kf b).isNan = true) : ¬ ranksBefore kf dir a b = true := by
  simp only [ranksBefore, hb, Bool.not_true, Bool.and_false, Bool.false_and, Bool.or_self, Bool.false_eq_true, not_false_eq_true]

theorem ranksBefore_of_nan (ha : (keyOf kf a).isNan = true) (hb : (keyOf kf b).isNan = false) :
    ranksBefore kf dir a b = true := by
  simp only [ranksBefore, ha, hb, Bool.not_false, Bool.and_self, Bool.true_or]

/-- Numbers rank by value, the larger first where DIR is 0. -/
theorem ranksBefore_of_numbers (ha : (keyOf kf a).isNan = false) (hb : (keyOf kf b).isNan = false) :
    ranksBefore kf dir a b = if dir then (keyOf kf b).gt (keyOf kf a) else (keyOf kf a).gt (keyOf kf b) := by
  simp only [ranksBefore, ha, hb, Bool.not_false, Bool.and_self, Bool.false_and, Bool.true_and, Bool.false_or]

theorem ranksBefore_asymm (h : ranksBefore kf dir a b = true) : ¬ ranksBefore kf dir b a = true := by
  cases ha : (keyOf kf a).isNan with
  | true => exact not_ranksBefore_nan ha
  | false =>
    cases hb : (keyOf kf b).isNan with
    | true => exact absurd h (not_ranksBefore_nan hb)
    | false =>
      rw [ranksBefore_of_numbers ha hb] at h
      rw [ranksBefore_of_numbers hb ha]
      cases dir with
      | false => exact keyOf_gt_asymm ha hb h
      | true => exact keyOf_gt_asymm hb ha h

/-- Where a ranks before c, every third key ranks behind a or before c. -/
theorem ranksBefore_between (b : Nat) (h : ranksBefore kf dir a c = true) :
    ranksBefore kf dir a b = true ∨ ranksBefore kf dir b c = true := by
  cases hc : (keyOf kf c).isNan with
  | true => exact absurd h (not_ranksBefore_nan hc)
  | false =>
    cases hb : (keyOf kf b).isNan with
    | true => exact .inr (ranksBefore_of_nan hb hc)
    | false =>
      cases ha : (keyOf kf a).isNan with
      | true => exact .inl (ranksBefore_of_nan ha hb)
      | false =>
        rw [ranksBefore_of_numbers ha hc] at h
        rw [ranksBefore_of_numbers ha hb, ranksBefore_of_numbers hb hc]
        cases dir with
        | false => exact keyOf_gt_between ha hb hc h
        | true => exact (keyOf_gt_between hc hb ha h).symm

end

/-! ### Lists in rank order (R266) -/

section
variable {α : Type} {before : α → α → Bool}

theorem insertRank_perm (e : α) (l : List α) : (insertRank before e l).Perm (e :: l) := by
  induction l with
  | nil => exact .refl _
  | cons x r ih =>
    rw [insertRank]
    split
    · exact .refl _
    · exact (ih.cons x).trans (.swap ..)

theorem foldl_insertRank_perm (l done : List α) : (l.foldl (fun d e => insertRank before e d) done).Perm (l ++ done) := by
  induction l generalizing done with
  | nil => exact .refl _
  | cons e r ih => exact (ih _).trans (((insertRank_perm e done).append_left r).trans List.perm_middle)

theorem rankSort_perm (l : List α) : (rankSort before l).Perm l := by
  have h := foldl_insertRank_perm (before := before) l []
  rwa [List.append_nil] at h

/-- No element comes before an earlier one. -/
def InOrder (before : α → α → Bool) (l : List α) : Prop := l.Pairwise fun a b => ¬ before b a = true

theorem insertRank_inOrder (hasymm : ∀ a b, before a b = true → ¬ before b a = true)
    (hbetween : ∀ a b c, before a c = true → before a b = true ∨ before b c = true) (e : α) {l : List α}
    (hl : InOrder before l) : InOrder before (insertRank before e l) := by
  induction l with
  | nil => exact List.pairwise_singleton _ _
  | cons x r ih =>
    obtain ⟨hx, hr⟩ := List.pairwise_cons.mp hl
    rw [insertRank]
    split
    case isTrue hbefore =>
      refine List.pairwise_cons.mpr ⟨List.forall_mem_cons.mpr ⟨hasymm e x hbefore, fun y hy hye => ?_⟩, hl⟩
      exact (hbetween y x e hye).elim (hx y hy) (hasymm e x hbefore)
    case isFalse hbehind =>
      refine List.pairwise_cons.mpr ⟨fun y hy => ?_, ih hr⟩
      obtain rfl | hy := List.mem_cons.mp ((insertRank_perm e r).mem_iff.mp hy)
      · exact hbehind
      · exact hx y hy

theorem rankSort_inOrder (hasymm : ∀ a b, before a b = true → ¬ before b a = true)
    (hbetween : ∀ a b c, before a c = true → before a b = true ∨ before b c = true) (l : List α) :
    InOrder before (rankSort before l) :=
  List.foldlRecOn (motive := InOrder before) l _ .nil fun _ hb e _ => insertRank_inOrder hasymm hbetween e hb

end

/-- Elements by rank: none ranks before an earlier one. -/
theorem SelCmd.rank_inOrder (x : SelCmd) (l : List SelElem) :
    InOrder (fun a b => ranksBefore x.kf x.dir a.key b.key) (x.rank l) :=
  rankSort_inOrder (fun _ _ => ranksBefore_asymm) (fun _ b _ => ranksBefore_between b.key) l

/-- Settles O25: the selection is the head of the elements in rank order. -/
theorem topKIsTopK : Obligations.TopKIsTopK := by
  intro x l hpos z before
  have hperm : (x.rank l).Perm l := rankSort_perm l
  have hsub : z.Sublist (x.rank l) := List.take_sublist ..
  have hnodup : l.Nodup := (List.pairwise_map.mp hpos).imp fun hne heq => hne (congrArg SelElem.pos heq)
  have hsplit := x.rank_inOrder l
  rw [InOrder, ← List.take_append_drop x.k (x.rank l), List.pairwise_append] at hsplit
  obtain ⟨hin, -, hout⟩ := hsplit
  refine ⟨?_, fun e he => hperm.mem_iff.mp (hsub.mem he), (hperm.nodup_iff.mpr hnodup).sublist hsub, hin, ?_⟩
  · exact List.length_take.trans (by rw [hperm.length_eq])
  · intro e he f hf hleft
    have hmem : f ∈ (x.rank l).take x.k ++ (x.rank l).drop x.k := by
      rw [List.take_append_drop]
      exact hperm.mem_iff.mpr hf
    exact hout e he f ((List.mem_append.mp hmem).resolve_left hleft)

end Sys2Proof.Machine
end

/-! The proofs: the select engine, its commands. -/

section
namespace Sys2Proof.Machine

/-! ### What stays on the core -/

section
variable {s t : State} {c : CoreId}

theorem State.modSel_onlyCore (f : Word → Word) : OnlyCore s (s.modSel c f) c :=
  OnlyCore.modCore (fun _ => rfl) (fun _ => rfl) fun _ => rfl

/-- What SELCNT counts is posted (R282). -/
theorem OnlyCore.selcntIf {p : Prop} [Decidable p] {f : Word → Word} {code : Nat} (h : OnlyCore s t c) :
    OnlyCore s (if p then (t.modSel c f).postCore c code else t) c :=
  .ite (h.trans ((State.modSel_onlyCore f).trans (State.postCore_onlyCore code))) h

theorem State.putRecord_onlyCore (a : Nat) (bs : List Byte) : OnlyCore s (s.putRecord c a bs) c :=
  (State.wideWrite_onlyCore ..).trans (State.wideWrite_onlyCore ..)

theorem State.openRanges_onlyCore (rs : List (Nat × Nat)) : OnlyCore s (s.openRanges c rs) c :=
  .foldl fun _ _ => (State.drawBytes_onlyCore _).trans (State.wideWrite_onlyCore ..)

theorem State.throughWork_onlyCore {ins outs work : List (Nat × Nat)} {go : State → State} (h : OnlyCore s (go s) c) :
    OnlyCore s (s.throughWork c ins outs work go) c :=
  (OnlyCore.ite (State.openRanges_onlyCore outs) h).trans (State.openRanges_onlyCore work)

/-- Each segment's record is written, and the first saturated one is told (R274). -/
theorem State.selSegments_onlyCore (x : SelCmd) (p : SpdState) (r : SelPar) (choose : List SelElem → Selection)
    (ks : List Nat) (b : Bool) :
    OnlyCore s (ks.foldl (fun (t : State × Bool) k =>
      let u := t.1.selSegment c x p r choose k
      (u.1, t.2 || u.2)) (s, b)).1 c :=
  List.foldlRecOn (motive := fun t : State × Bool => OnlyCore s t.1 c) ks _ .refl
    fun _ ht _ _ => ht.trans (State.putRecord_onlyCore ..)

end

/-! ### Commands over segments (R271 to R274, R277) -/

section
variable {s : State} {c : CoreId} {q : EngCmd} {n : Nat} {x : SelCmd}

/-- A part over lines that may be read does what its work on them does, whichever the engine. -/
theorem EngineRun.DoneOn.overSpd {e : Fin 7} {rs : List (Nat × Nat)} {work : State → EngineRun} (hw : s.Works c e q n)
    (hr : s.cores[c].spd.Ready rs) (h : (work s).DoneOn s c) : (s.overSpd c e rs work).DoneOn s c := by
  obtain ⟨t, hrun, honly⟩ := h
  exact ⟨t, overSpd_done hw.noLatch hr hrun, honly⟩

/-- The parameter block and the segments may be read, and the block is in order (R268, R271). -/
structure SelCmd.SegReady (x : SelCmd) (p : SpdState) : Prop where
  parRange : rangesOk x.parRange [] = true
  parReady : p.Ready x.parRange
  parOk : (x.par p).ok = true
  heads : p.Ready (x.heads (x.par p))
  reads : p.Ready (x.segReads p (x.par p))

/-- The command's ranges: no output over an input, the parameter block or the workspace (R271). -/
def SelCmd.RangesOk (x : SelCmd) (p : SpdState) (work outs : List (Nat × Nat)) : Prop :=
  rangesOk (x.segments (x.par p) ++ x.parRange ++ work) outs = true

theorem State.overSegs_doneOn {outs work : List (Nat × Nat)} {parOk : SelPar → Bool} {go : SelPar → State → State}
    (hw : s.Works c 3 q n) (hx : x.SegReady s.cores[c].spd) (hpar : parOk (x.par s.cores[c].spd) = true)
    (hranges : x.RangesOk s.cores[c].spd work outs) (hgo : OnlyCore s (go (x.par s.cores[c].spd) s) c) :
    (s.overSegs c x outs work parOk go).DoneOn s c := by
  rw [SelCmd.RangesOk] at hranges
  rw [State.overSegs, hx.parRange, Bool.not_true, if_neg Bool.false_ne_true]
  refine .overSpd hw hx.parReady ?_
  simp only [hx.parOk, hpar, hranges, Bool.and_self, Bool.not_true, Bool.false_eq_true, if_false]
  exact .overSpd hw hx.heads (.overSpd hw hx.reads ⟨_, rfl, State.throughWork_onlyCore hgo⟩)

theorem State.selRun_doneOn {work : List (Nat × Nat)} {parOk : SelPar → Bool} {choose : SelPar → List SelElem → Selection}
    (hw : s.Works c 3 q n) (hx : x.SegReady s.cores[c].spd) (hpar : parOk (x.par s.cores[c].spd) = true)
    (hranges : x.RangesOk s.cores[c].spd work [(x.ooff, x.ostr * x.nseg)]) :
    (s.selRun c x work parOk choose).DoneOn s c :=
  State.overSegs_doneOn hw hx hpar hranges (State.selSegments_onlyCore ..).selcntIf

theorem State.argmax_doneOn (hw : s.Works c 3 q n) (hq : selCmd q = x) (hok : x.segOk q = true)
    (hx : x.SegReady s.cores[c].spd) (hk : x.k = 1)
    (hranges : x.RangesOk s.cores[c].spd [] [(x.ooff, x.ostr * x.nseg)]) : (s.argmax c q).DoneOn s c := by
  simp only [State.argmax, hq, hok, hk, decide_true, Bool.and_self, Bool.not_true, Bool.false_eq_true, if_false]
  exact State.selRun_doneOn hw hx rfl hranges

/-- The workspace of a TOPK, if its K is that large (R270). -/
def SelCmd.topkWork (x : SelCmd) : List (Nat × Nat) := if 16384 < x.k then [(x.woff, x.n * pairBytes x.kf)] else []

theorem State.topkRun_doneOn (hw : s.Works c 3 q n) (hq : selCmd q = x) (hok : x.segOk q = true)
    (hx : x.SegReady s.cores[c].spd) (hk : x.k ≤ x.n) (hbig : 16384 < x.k → x.n ≤ 262144)
    (hranges : x.RangesOk s.cores[c].spd x.topkWork [(x.ooff, x.ostr * x.nseg)]) : (s.topkRun c q).DoneOn s c := by
  have hfits : (decide (16384 < x.k) && decide (262144 < x.n)) = false := by
    rw [Bool.and_eq_false_imp, decide_eq_true_eq, decide_eq_false_iff_not, Nat.not_lt]
    exact hbig
  simp only [State.topkRun, hq, hok, hk, hfits, decide_true, Bool.and_self, Bool.not_false, Bool.not_true,
    Bool.false_eq_true, if_false, decide_eq_true_eq]
  exact State.selRun_doneOn hw hx rfl hranges

/-- Limits of a BTOPK's buckets (R268, R271). -/
def SelCmd.bucketsOk (x : SelCmd) (r : SelPar) : Prop :=
  1 ≤ r.bper ∧ r.bper ≤ 8 ∧ 2 ≤ r.nbkt ∧ r.nbkt ≤ 4096 ∧ x.k ≤ r.nbkt * r.bper ∧ r.nbkt * r.bper ≤ 16384

theorem State.btopkRun_doneOn (hw : s.Works c 3 q n) (hq : selCmd q = x) (hok : x.segOk q = true)
    (hx : x.SegReady s.cores[c].spd) (hk : x.k ≤ x.n) (hsmall : x.k ≤ 16384) (hpen : x.pen = true)
    (hbuckets : x.bucketsOk (x.par s.cores[c].spd))
    (hranges : x.RangesOk s.cores[c].spd [] [(x.ooff, x.ostr * x.nseg)]) : (s.btopkRun c q).DoneOn s c := by
  obtain ⟨hb, hb', hn, hn', hkb, hbn⟩ := hbuckets
  simp only [State.btopkRun, hq, hok, hk, hsmall, hpen, decide_true, Bool.and_self, Bool.not_true, Bool.false_eq_true,
    if_false]
  refine State.selRun_doneOn hw hx ?_ hranges
  simp only [between, hb, hb', hn, hn', hkb, hbn, decide_true, Bool.and_self]

/-- Bytes of a segment of a SORT (R277). -/
def SelCmd.sortLen (x : SelCmd) : Nat := x.n * pairBytes x.kf

theorem State.sortRun_doneOn (hw : s.Works c 3 q n) (hq : selCmd q = x) (hok : x.segOk q = true)
    (hx : x.SegReady s.cores[c].spd) (hform : x.iform < 2) (hn : x.n ≤ 262144) (hk : x.k = 1) (hvout : x.vout = false)
    (hsumen : x.sumen = false)
    (hranges : x.RangesOk s.cores[c].spd [(x.woff, x.sortLen)] [(x.ooff, (x.sortLen + 15) / 16 * 16 * x.nseg)]) :
    (s.sortRun c q).DoneOn s c := by
  simp only [State.sortRun, hq, hok, hform, hn, hk, hvout, hsumen, decide_true, Bool.and_self, Bool.not_false,
    Bool.not_true, Bool.false_eq_true, if_false]
  exact State.overSegs_doneOn hw hx rfl hranges (.foldl fun _ _ => State.wideWrite_onlyCore ..)

/-! ### MERGE and SEARCH (R275, R276, R278) -/

/-- The words of a MERGE (R270, R271, R276). -/
structure SelCmd.MergeOk (x : SelCmd) (q : EngCmd) : Prop where
  words : x.words q = true
  nm1 : fld q.w1 23 20 = 0
  sgm1 : fld q.w1 49 14 = 0
  iform : x.iform = 0
  w3 : fld q.w3 0 46 = 0
  sums : x.sumen = true → x.pen = false ∧ x.kf ≠ 4

/-- The list table, the offsets it holds and the lists at some offsets (R275). -/
def SelCmd.listTable (x : SelCmd) (q : EngCmd) : Nat × Nat := (x.ioff, 4 * (fld q.w1 43 6 + 1))
def SelCmd.listOffs (x : SelCmd) (q : EngCmd) (p : SpdState) : List Nat :=
  (List.range (fld q.w1 43 6 + 1)).map fun i => p.num (x.ioff + 4 * i) 4
def SelCmd.lists (x : SelCmd) (p : SpdState) (offs : List Nat) : List (Nat × Nat) :=
  (offs.map (mList p)).map fun l => (l.off, 32 + l.valid * pairBytes x.kf)

theorem State.mergeRun_doneOn {offs : List Nat} (hw : s.Works c 3 q n) (hq : selCmd q = x)
    (hoffs : x.listOffs q s.cores[c].spd = offs) (hok : x.MergeOk q)
    (htab : rangesOk [x.listTable q] [(x.ooff, x.ostr)] = true) (htabReady : s.cores[c].spd.Ready [x.listTable q])
    (hoff : ∀ o ∈ offs, o < 2 ^ 23 ∧ o % 16 = 0 ∧ o + 32 ≤ 0x800000)
    (hheads : s.cores[c].spd.Ready (offs.map fun o => (o, 32)))
    (hranges : rangesOk (x.listTable q :: x.lists s.cores[c].spd offs) [(x.ooff, x.ostr)] = true)
    (hr : s.cores[c].spd.Ready (x.lists s.cores[c].spd offs)) : (s.mergeRun c q).DoneOn s c := by
  have hscope : (x.pen && x.sumen) = false := by
    cases hsum : x.sumen with
    | false => exact Bool.and_false _
    | true =>
      obtain ⟨hpen, -⟩ := hok.sums hsum
      rw [hpen, Bool.false_and]
  have hsumKey : (x.sumen && decide (x.kf = 4)) = false := by
    rw [Bool.and_eq_false_imp, decide_eq_false_iff_not]
    intro hsum
    obtain ⟨-, hkey⟩ := hok.sums hsum
    exact hkey
  have hgood : (offs.any fun o => decide (2 ^ 23 ≤ o) || decide (o % 16 ≠ 0) || decide (spdBytes < o + 32)) = false := by
    refine List.any_eq_false.mpr fun o ho => ?_
    obtain ⟨hlt, hmul, hend⟩ := hoff o ho
    change o + 32 ≤ spdBytes at hend
    simp only [Bool.or_eq_true, decide_eq_true_eq]
    omega
  unfold SelCmd.listTable at htab
  simp only [State.mergeRun, hq, hok.words, hok.nm1, hok.sgm1, hok.iform, hok.w3, hscope, hsumKey, htab, decide_true,
    Bool.and_self, Bool.not_false, Bool.not_true, Bool.false_eq_true, if_false]
  refine .overSpd hw htabReady ?_
  unfold SelCmd.listOffs at hoffs
  unfold SelCmd.lists SelCmd.listTable at hranges
  simp only [hoffs, hgood, Bool.false_eq_true, if_false]
  refine .overSpd hw hheads ?_
  simp only [hranges, Bool.not_true, Bool.false_eq_true, if_false]
  exact .overSpd hw hr ⟨_, rfl, (State.putRecord_onlyCore ..).selcntIf⟩

/-- The words of a SEARCH (R270, R271). -/
structure SelCmd.SearchOk (x : SelCmd) (q : EngCmd) : Prop where
  words : x.words q = true
  out : x.ooff % 16 = 0
  keys : x.n ≤ 524288
  nseg : x.nseg = 1
  km1 : fld q.w2 23 20 = 0
  iform : x.iform < 2
  vout : x.vout = false
  sumen : x.sumen = false
  queries : x.poff % 16 = 0
  w3 : fld q.w3 43 21 = 0
  count : fld q.w3 23 20 + 1 ≤ 524288

/-- The sorted array and the queries of a SEARCH. -/
def SelCmd.searchIns (x : SelCmd) (q : EngCmd) : List (Nat × Nat) :=
  [(x.ioff, x.n * if x.iform = 0 then keyBytes x.kf else pairBytes x.kf),
    (x.poff, (fld q.w3 23 20 + 1) * keyBytes x.kf)]

theorem State.searchRun_doneOn (hw : s.Works c 3 q n) (hq : selCmd q = x) (hok : x.SearchOk q)
    (hranges : rangesOk (x.searchIns q) [(x.ooff, 8 * (fld q.w3 23 20 + 1))] = true)
    (hr : s.cores[c].spd.Ready (x.searchIns q)) : (s.searchRun c q).DoneOn s c := by
  unfold SelCmd.searchIns at hranges
  simp only [State.searchRun, hq, hok.words, hok.out, hok.keys, hok.nseg, hok.km1, hok.iform, hok.vout, hok.sumen,
    hok.queries, hok.w3, hok.count, hranges, decide_true, Bool.and_self, Bool.not_false, Bool.not_true, Bool.false_eq_true,
    if_false]
  exact .overSpd hw hr ⟨_, rfl, .foldl fun _ _ => State.wideWrite_onlyCore ..⟩

/-- A select command in work whose run works out its results is performed (R69). -/
theorem State.selStep_performs {op : Nat} {run : EngCmd → State → EngineRun} (hw : s.Works c 3 q n) (ho : q.opc = op)
    (h : (run q s).DoneOn s c) :
    ∃ t, run q s = .done t ∧ (.next (s.selStep c op run) : Answer) = .next (t.performed c 3) ∧ OnlyCore s t c := by
  obtain ⟨t, hrun, honly⟩ := h
  exact ⟨t, hrun, congrArg _ (engineStep_done hw (beq_iff_eq.mpr ho) hrun), honly⟩

end

/-! ### The statement -/

/-- Settles O24: each command's run by the lemma about it. -/
theorem selectEngine : Obligations.SelectEngine := by
  intro s c q n hw p x kb done r ins out
  refine ⟨?segments, ?merge, ?search⟩
  case segments =>
    intro hok hparRange hparReady hparOk hheads hreads
    have hx : x.SegReady p := ⟨hparRange, hparReady, hparOk, hheads, hreads⟩
    have bare {outs : List (Nat × Nat)} (h : rangesOk ins outs = true) : x.RangesOk p [] outs := by
      rwa [SelCmd.RangesOk, List.append_nil]
    refine ⟨?argmax, ?topk, ?btopk, ?sort⟩
    case argmax =>
      intro ho hk hranges
      exact State.selStep_performs (run := fun q t => t.argmax c q) hw ho
        (State.argmax_doneOn hw rfl hok hx hk (bare hranges))
    case topk =>
      intro ho hk hbig hranges
      exact State.selStep_performs (run := fun q t => t.topkRun c q) hw ho
        (State.topkRun_doneOn hw rfl hok hx hk hbig hranges)
    case btopk =>
      intro ho hk hsmall hpen hb hb' hn hn' hkb hbn hranges
      exact State.selStep_performs (run := fun q t => t.btopkRun c q) hw ho
        (State.btopkRun_doneOn hw rfl hok hx hk hsmall hpen ⟨hb, hb', hn, hn', hkb, hbn⟩ (bare hranges))
    case sort =>
      intro ho hform hn hk hvout hsumen len hranges
      exact State.selStep_performs (run := fun q t => t.sortRun c q) hw ho
        (State.sortRun_doneOn hw rfl hok hx hform hn hk hvout hsumen hranges)
  case merge =>
    intro ho hwords hnm hsgm hform hw3 hsums tab offs ms htab htabReady hoff hheads hranges hr
    exact State.selStep_performs (run := fun q t => t.mergeRun c q) hw ho
      (State.mergeRun_doneOn hw rfl rfl ⟨hwords, hnm, hsgm, hform, hw3, hsums⟩ htab htabReady hoff hheads hranges hr)
  case search =>
    intro ho hwords hout hn hnseg hkm hform hvout hsumen hpoff hw3 hcount sIns hranges hr
    exact State.selStep_performs (run := fun q t => t.searchRun c q) hw ho
      (State.searchRun_doneOn hw rfl
        ⟨hwords, hout, hn, hnseg, hkm, hform, hvout, hsumen, hpoff, hw3, hcount⟩ hranges hr)

end Sys2Proof.Machine
end

/-! The proofs: the gather units, their registers and a request's way in and out. -/

section
namespace Sys2Proof.Machine

/-! ### A unit changed -/

section
variable {s : State} {u : Fin 16} {f g : NmgUnit → NmgUnit}

/-- What a change of a unit leaves in it. -/
theorem State.modUnit_unit : (s.modUnit u f).nmg.units[u] = f s.nmg.units[u] := Vector.getElem_set_self _

theorem State.modUnit_modUnit : (s.modUnit u f).modUnit u g = s.modUnit u fun x => g (f x) := by
  simp only [State.modUnit, State.modNmg, Fin.getElem_fin, Vector.getElem_set_self, Vector.set_set]

end

/-! ### Table descriptors and hot segments (R284, R302) -/

section
variable {s : State} {t : Fin 64} {p : Fin 4} {ini : Ini} {off : Nat} {data : List Byte} {v : Word}

/-- What lets a descriptor be stored: who writes it, EN, its reserved fields and its limits. -/
def State.tabTaken (s : State) (t : Fin 64) (ini : Ini) (w : Rec64) : Prop :=
  (ini = 0x60 ∨ ini = 0x70) ∧ (tbEn s.nmg.tab[t] = false ∨ tbEn w = false) ∧ tabReserved w = false ∧
    (tbEn w = true → s.tabOk w = true)

theorem State.not_tabTaken_iff {w : Rec64} : ¬ s.tabTaken t ini w ↔
    (ini ≠ 0x60 ∧ ini ≠ 0x70) ∨ (tbEn s.nmg.tab[t] = true ∧ tbEn w = true) ∨ tabReserved w = true ∨
      (tbEn w = true ∧ (!s.tabOk w) = true) := by
  simp only [State.tabTaken, Classical.not_and_iff_not_or_not, not_or, Classical.not_imp, Bool.not_eq_false,
    Bool.not_eq_true', Bool.not_eq_true, ne_eq]

theorem State.nmgTabWrite_taken (h : s.tabTaken t ini (recStore s.nmg.tab[t] off data)) :
    s.nmgTabWrite t ini off data = s.modNmg fun n => { n with tab := n.tab.set t (recStore s.nmg.tab[t] off data) } :=
  if_neg fun hno => State.not_tabTaken_iff.mpr hno h

theorem State.nmgTabWrite_refused (h : ¬ s.tabTaken t ini (recStore s.nmg.tab[t] off data)) :
    s.nmgTabWrite t ini off data = s.nmgPost 0 0x2201 :=
  if_pos (State.not_tabTaken_iff.mp h)

/-- What lets a segment be stored: who writes it, no enabled table of its partition, and the other segments. -/
def State.hsegTaken (s : State) (p : Fin 4) (ini : Ini) (w : Word) : Prop :=
  (ini = 0x60 ∨ ini = 0x70) ∧ (∀ i : Fin 64, tbEn s.nmg.tab[i] = true → tbWpart s.nmg.tab[i] ≠ p) ∧ s.nmg.segsOk p w = true

theorem NmgState.any_tab_iff {n : NmgState} {f : Rec64 → Bool} :
    n.tab.toList.any f = true ↔ ∃ i : Fin 64, f n.tab[i] = true := by
  simp only [List.any_eq_true, Vector.mem_toList_iff, Vector.mem_iff_getElem]
  exact ⟨fun ⟨_, ⟨i, hi, he⟩, h⟩ => ⟨⟨i, hi⟩, he ▸ h⟩, fun ⟨i, h⟩ => ⟨_, ⟨i.val, i.isLt, rfl⟩, h⟩⟩

theorem State.not_hsegTaken_iff {w : Word} : ¬ s.hsegTaken p ini w ↔
    (ini ≠ 0x60 ∧ ini ≠ 0x70) ∨ s.nmg.tab.toList.any (fun t => tbEn t && decide (tbWpart t = p)) = true ∨
      (!s.nmg.segsOk p w) = true := by
  simp only [State.hsegTaken, NmgState.any_tab_iff, Classical.not_and_iff_not_or_not, not_or, Classical.not_forall,
    not_not, Bool.and_eq_true, decide_eq_true_eq, Bool.not_eq_true', Bool.not_eq_true, ne_eq, exists_prop]

theorem State.hsegWrite_taken (h : s.hsegTaken p ini (maskWrite hsegMask s.nmg.hseg[p] v)) :
    s.hsegWrite p ini .full v =
      s.modNmg fun n => { n with hseg := n.hseg.set p (maskWrite hsegMask s.nmg.hseg[p] v) } :=
  if_neg fun hno => State.not_hsegTaken_iff.mpr hno h

theorem State.hsegWrite_refused (h : ¬ s.hsegTaken p ini (maskWrite hsegMask s.nmg.hseg[p] v)) :
    s.hsegWrite p ini .full v = s.nmgPost 0 0x2201 :=
  if_pos (State.not_hsegTaken_iff.mp h)

end

/-! ### A request's way into a queue (R288 to R290) -/

section
variable {s : State} {u : Fin 16} {p part : Fin 4} {ini : Ini} {data : List Byte} {r t : Rec64}

theorem State.reqOk_full (h : 16 ≤ s.nmg.units[u].queues[part].length) : s.reqOk u ini r t part = false := by
  have hfull : decide (s.nmg.units[u].queues[part].length < 16) = false := decide_eq_false (Nat.not_lt.mpr h)
  simp only [State.reqOk, hfull, Bool.and_false, Bool.false_and]

theorem State.reqOk_foreign (h : s.partOf (rqCore r) ≠ part) : s.reqOk u ini r t part = false := by
  simp only [State.reqOk, decide_eq_false h, Bool.and_false, Bool.false_and]

/-- Bytes staged in a unit change nothing that judges a request. -/
theorem State.reqOk_modUnit {f : NmgUnit → NmgUnit} (h : (f s.nmg.units[u]).queues = s.nmg.units[u].queues) :
    (s.modUnit u f).reqOk u ini r t part = s.reqOk u ini r t part := by
  have hq : (s.modUnit u f).nmg.units[u].queues = s.nmg.units[u].queues := (congrArg NmgUnit.queues State.modUnit_unit).trans h
  unfold State.reqOk
  rw [hq]
  rfl

/-- A whole request of the host is judged with the partition it names and the descriptor of the table it names (R288). -/
theorem State.nmgReqWrite_host (hl : data.length = 64) : s.nmgReqWrite u p 0x60 0 data =
    let r := recStore s.nmg.units[u].staged[p] 0 data
    let part : Fin 4 := Fin.ofNat 4 (recField r 2 1)
    let d := s.nmg.tab[Fin.ofNat 64 (rqTid r)]
    let staged := s.modUnit u fun x => { x with staged := x.staged.set p r }
    if s.reqOk u 0x60 r d part then staged.modUnit u fun x => { x with queues := x.queues.set part (x.queues[part] ++ [⟨r, part, d⟩]) }
    else staged.nmgRefuse u r := by
  have hcov : covers 0 data.length 0x3C 0x3F = true := covers_of_lt (by omega)
  simp only [State.nmgReqWrite, hcov, Bool.not_true, Bool.false_eq_true, if_false, if_true, State.reqOk_modUnit]
  rfl

end

/-! ### A request's way out of its unit (R291, R296) -/

section
variable {s : State} {u : Fin 16} {y : NmgRun}

/-- Without a signal the status is all that a request writes. -/
theorem State.nmgFinish_unsignalled (h : rqSync y.r.req / 2 ^ 15 % 2 = 0) : s.nmgFinish u y =
    s.windowWrites (rqCore y.r.req) (nmgIni u) (rqDest y.r.req) y.status :=
  if_neg (by omega)

theorem State.execNmgRequestComplete_cons {rest : List NmgRun} (h : s.nmg.units[u].run = y :: rest) :
    execNmgRequestComplete u s = .next ((s.nmgFinish u y).modUnit u fun x => { x with run := rest }) := by
  rw [execNmgRequestComplete, h]

theorem NmgUnit.inEpoch_eq_zero_iff {x : NmgUnit} {e : Bool} : x.inEpoch e = 0 ↔ ∀ y ∈ x.run, y.epoch ≠ some e := by
  simp only [NmgUnit.inEpoch, List.length_eq_zero_iff, List.filter_eq_nil_iff, decide_eq_true_eq, ne_eq]

theorem NmgState.drained_iff {n : NmgState} {e : Bool} :
    (n.units.toList.all fun x => decide (x.inEpoch e = 0)) = true ↔ ∀ i : Fin 16, ∀ y ∈ n.units[i].run, y.epoch ≠ some e := by
  simp only [List.all_eq_true, decide_eq_true_eq, Vector.mem_toList_iff, Vector.mem_iff_getElem, NmgUnit.inEpoch_eq_zero_iff]
  exact ⟨fun h i => h _ ⟨i.val, i.isLt, rfl⟩, fun h _ ⟨i, hi, he⟩ => he ▸ h ⟨i, hi⟩⟩

section
variable {r : NmgReq} {old : Bool} (h : s.nmg.retire = some (u, r, old))
include h

/-- A RETIRE completes once no LOOKUP holds the old epoch. -/
theorem State.retireEnd_drained (hd : ∀ i : Fin 16, ∀ y ∈ s.nmg.units[i].run, y.epoch ≠ some old) :
    s.retireEnd = (s.nmgFinish u ⟨r, 0, 0, 0, none⟩).modNmg fun n => { n with retire := none } := by
  simp only [State.retireEnd, h]
  exact if_pos (NmgState.drained_iff.mpr hd)

theorem State.retireEnd_waits (hd : ∃ i : Fin 16, ∃ y ∈ s.nmg.units[i].run, y.epoch = some old) : s.retireEnd = s := by
  obtain ⟨i, y, hy, he⟩ := hd
  simp only [State.retireEnd, h]
  exact if_neg fun hall => NmgState.drained_iff.mp hall i y hy he

end
end

/-! ### The statement -/

/-- Settles O30: the two tables of the block by what lets a write through, then a request's way in and out. -/
theorem gatherRegistersAndRequests : Obligations.GatherRegistersAndRequests := by
  intro s u p t ini data v g x withUnit owner
  refine ⟨?tab, ?hseg, ?req, ?complete, fun y hy => State.nmgFinish_unsignalled hy, ?retire, rfl, fun a => rfl⟩
  case tab =>
    intro hl w good
    have hin := inRange_of_ok (s := s) (t := s.nmgTabWrite t ini 0 data) (bytesIn_whole hl (by decide))
    exact ⟨fun hg => hin.trans (congrArg _ (State.nmgTabWrite_taken hg)),
      fun hg => hin.trans (congrArg _ (State.nmgTabWrite_refused hg))⟩
  case hseg =>
    exact ⟨fun hg => congrArg _ (State.hsegWrite_taken hg), fun hg => congrArg _ (State.hsegWrite_refused hg)⟩
  case req =>
    intro hl hi r part d staged
    have hwrite : exec (.nmgReqWrite u p ini 0 data) s = .next (s.nmgReqWrite u p ini.val 0 data) :=
      inRange_of_ok (bytesIn_whole hl (by decide))
    rw [hwrite, hi, State.nmgReqWrite_host hl]
    refine ⟨fun hok => ?_, fun hno => ?_, State.reqOk_full, State.reqOk_foreign⟩
    · rw [if_pos hok, State.modUnit_modUnit]
      rfl
    · rw [if_neg (Bool.eq_false_iff.mp hno), State.nmgRefuse, State.modUnit_modUnit]
      rfl
  case complete => exact fun y rest hy => State.execNmgRequestComplete_cons hy
  case retire =>
    exact fun w r old hr => ⟨fun hd => congrArg _ (State.retireEnd_drained hr hd),
      fun hd => congrArg _ (State.retireEnd_waits hr hd)⟩

end Sys2Proof.Machine
end

/-! The proofs: the gather units, the requests they grant. -/

section
namespace Sys2Proof.Machine

/-! ### The granted request (R288, R295) -/

section
variable {s : State} {u : Fin 16} {p : Fin 4} {r : NmgReq}

/-- A request is granted only where it may start. -/
theorem State.mayStart_of_granted (hg : s.granted u = some (p, r)) : s.nmg.mayStart u r = true := by
  obtain ⟨q, -, hq⟩ := List.exists_of_findSome?_eq_some hg
  split at hq
  next x rest _ =>
    split at hq
    next hstart =>
      obtain ⟨-, rfl⟩ := Prod.mk.inj (Option.some.inj hq)
      exact hstart
    next => cases hq
  next => cases hq

/-- With eight requests under way only a change that will be held starts (R288). -/
theorem NmgState.mayStart_full {n : NmgState} (hm : n.mayStart u r = true) (h8 : 8 ≤ n.running u) :
    rqKind r.req ≠ 0 ∧ rqKind r.req ≠ 4 ∧ n.units[u].migrates r = true := by
  have hroom : decide (n.running u < 8) = false := decide_eq_false (Nat.not_lt.mpr h8)
  simp only [NmgState.mayStart, hroom, Bool.false_and, Bool.false_or] at hm
  split at hm
  next => cases hm
  next => cases hm
  next h0 h4 => exact ⟨h0, h4, (Bool.and_eq_true_iff.mp hm).2⟩

/-- No change starts while the hold queue is full (R295). -/
theorem NmgState.mayStart_holdFull {n : NmgState} (hm : n.mayStart u r = true) (h64 : 64 ≤ n.units[u].held.length) :
    rqKind r.req = 0 := by
  have hchange : decide (n.units[u].held.length < 64) = false := decide_eq_false (Nat.not_lt.mpr h64)
  simp only [NmgState.mayStart, hchange, Bool.false_and, Bool.and_false] at hm
  split at hm
  next h0 => exact h0
  next => cases hm
  next => cases hm

/-- Leaving its queue changes neither the unit's migrations nor its held changes nor what is under way. -/
theorem State.takeReq_migr : (s.takeReq u p).nmg.units[u].migr = s.nmg.units[u].migr := by
  rw [State.takeReq, State.modUnit_unit]

theorem State.takeReq_held : (s.takeReq u p).nmg.units[u].held = s.nmg.units[u].held := by
  rw [State.takeReq, State.modUnit_unit]

theorem State.takeReq_run : (s.takeReq u p).nmg.units[u].run = s.nmg.units[u].run := by
  rw [State.takeReq, State.modUnit_unit]

theorem State.takeReq_migrates : (s.takeReq u p).nmg.units[u].migrates r = s.nmg.units[u].migrates r := by
  rw [NmgUnit.migrates, State.takeReq_migr, NmgUnit.migrates]

/-- A change of a row under migration waits for it; one that does not fill the hold queue is not told (R295). -/
theorem State.orHold_holds {work : State → State} (hm : s.nmg.units[u].migrates r = true)
    (hlen : s.nmg.units[u].held.length < 63) :
    s.orHold u r work = s.modUnit u fun x => { x with held := x.held ++ [r] } := by
  have hheld : (s.modUnit u fun x => { x with held := x.held ++ [r] }).nmg.units[u].held = s.nmg.units[u].held ++ [r] :=
    congrArg NmgUnit.held State.modUnit_unit
  have hnot64 : (s.nmg.units[u].held ++ [r]).length ≠ 64 := by rw [List.length_append, List.length_singleton]; omega
  simp only [State.orHold, if_pos hm, hheld, if_neg hnot64]

section
variable {kind : Nat} {work : NmgReq → State → State} (hg : s.granted u = some (p, r))
include hg

/-- A unit's step for another kind of request than the one granted does nothing. -/
theorem State.nmgStep_other (hk : rqKind r.req ≠ kind) : s.nmgStep u kind work = s := by
  simp only [State.nmgStep, hg, if_neg hk]

variable (hk : rqKind r.req = kind)
include hk

theorem State.nmgStep_mine : s.nmgStep u kind work = work r (s.takeReq u p) := by
  simp only [State.nmgStep, hg, if_pos hk]

/-- A change of a row that no migration moves is made at once. -/
theorem State.changeStep_works (hm : s.nmg.units[u].migrates r = false) :
    s.nmgStep u kind (fun r t => t.orHold u r (work r)) = work r (s.takeReq u p) :=
  (State.nmgStep_mine hg hk).trans (if_neg (by rw [State.takeReq_migrates, hm]; exact Bool.false_ne_true))

/-- A change of a row under migration leaves its queue and is held. -/
theorem State.changeStep_holds (hm : s.nmg.units[u].migrates r = true) (hlen : s.nmg.units[u].held.length < 63) :
    s.nmgStep u kind (fun r t => t.orHold u r (work r)) =
      (s.takeReq u p).modUnit u fun x => { x with held := x.held ++ [r] } :=
  (State.nmgStep_mine hg hk).trans (State.orHold_holds (State.takeReq_migrates.trans hm) (by rwa [State.takeReq_held]))

end

/-! ### MIGR (R294, R295) -/

section
variable (hg : s.granted u = some (p, r))
include hg

theorem State.execMigr_starts (hk : rqKind r.req = 2) : execMigr u s =
    .next (s.nmgStep u 2 fun r t => t.orHold u r fun t => t.migrStart u r) :=
  congrArg _ (if_pos (by simp [hg, hk]))

/-- With no MIGR granted the oldest migration ends. -/
theorem State.execMigr_ends {m : NmgMigr} {rest : List NmgMigr} (hk : rqKind r.req ≠ 2)
    (hm : s.nmg.units[u].migr = m :: rest) : execMigr u s = .next (s.migrEnd u m) := by
  rw [execMigr, if_neg (by simp [hg, hk]), hm]

end
end

/-! ### A FLIP in the hot store (R286, R293) -/

section
variable {s : State} {u : Fin 16} {r : NmgReq} {id : Nat} {bs : List Byte} {held : Bool}

/-- Where a pointer of the hot store is read as `bs`, and `bs` spells the pointer of a row. -/
def State.hotPointer (s : State) (u : Fin 16) (r : NmgReq) (id : Nat) (bs : List Byte) : Prop :=
  tbKeyed r.tab = false ∧ tbIhot r.tab = true ∧ id < tbNind r.tab ∧
    s.nmg.inSeg (tbWpart r.tab) (tbIbase r.tab + 8 * id) 8 = true ∧
    s.nmg.hotRead (nmgDie u) (tbIbase r.tab + 8 * id) 8 = some bs ∧
    ptrValid (BitVec.ofNat 64 (leNat bs)) = true ∧ ptrWell r.tab (BitVec.ofNat 64 (leNat bs)) = true

theorem State.rowPtr_hot (h : s.hotPointer u r id bs) :
    s.rowPtr u r id = (s, .ok (tbIbase r.tab + 8 * id, BitVec.ofNat 64 (leNat bs))) := by
  obtain ⟨hkeyed, hhot, hid, hseg, hread, hvalid, hwell⟩ := h
  have hplace : s.ptrPlace u r id = (s, .ok (tbIbase r.tab + 8 * id)) := by
    simp only [State.ptrPlace, hkeyed, Bool.false_eq_true, if_false, if_neg (Nat.not_le.mpr hid)]
  simp only [State.rowPtr, hplace, State.placeRead, hhot, hseg, hread, hvalid, hwell, Bool.and_self, if_true]

/-- The new pointer lands in both mirrors. -/
theorem State.nmgFlip_hot (h : s.hotPointer u r (rqIds r.req) bs) : s.nmgFlip u held r =
    (s.hotWrite (tbIbase r.tab + 8 * rqIds r.req) (leBytes 8 (rqBofs r.req))).changeDone u r true false held := by
  have hnptr : (nptr r).toNat = rqBofs r.req := Nat.mod_eq_of_lt (fld_lt _ _ 64)
  simp only [State.nmgFlip, State.rowPtr_hot h]
  obtain ⟨-, hhot, -, hseg, -⟩ := h
  simp only [State.placeWrite, hhot, leBytes_length, hseg, if_true, hnptr]

/-- A change of a row that was found misses nothing: its status is due, and no event is posted. -/
theorem State.changeDone_found : s.changeDone u r true false held =
    s.modUnit u fun x => { x with run := x.run ++ [⟨r, 1, 0, 32 * ofBool held, none⟩] } := by
  simp [State.changeDone, State.nmgDone, ofBool]

end

/-! ### Keyed tables (R286) -/

/-- The home slot of a key is an entry of its table. -/
theorem keySlot_lt {nind : Nat} (h : 0 < nind) (id : Nat) : keySlot nind id < nind := by
  have hhash : id * 0xC2B2AE3D27D4EB4F % 2 ^ 64 / 2 ^ 32 < 2 ^ 32 :=
    Nat.div_lt_of_lt_mul (Nat.mod_lt _ (Nat.two_pow_pos 64))
  exact Nat.div_lt_of_lt_mul (Nat.mul_lt_mul_of_pos_right hhash h)

/-! ### The statement -/

/-- Settles O31: which requests are granted, then what each kind does and where it does nothing. -/
theorem gatherWork : Obligations.GatherWork := by
  intro s u p r hg g x s' k id held
  have hstart : g.mayStart u r = true := State.mayStart_of_granted hg
  refine ⟨fun hk => congrArg _ (State.nmgStep_mine hg hk), ?upd, ?flip, ?updHeld, ?flipHeld, ?migr, ?migrHeld,
    fun _ _ => State.execMigr_ends hg, fun hk => congrArg _ (State.nmgStep_mine hg hk),
    fun hk => congrArg _ (State.nmgStep_other hg hk), fun hk => congrArg _ (State.nmgStep_other hg hk),
    fun hk => congrArg _ (State.nmgStep_other hg hk), fun hk => congrArg _ (State.nmgStep_other hg hk), ?hot,
    NmgState.mayStart_full hstart, NmgState.mayStart_holdFull hstart, ?slot⟩
  case upd => exact fun hk hm => congrArg _ (State.changeStep_works hg hk hm)
  case flip => exact fun hk hm => congrArg _ (State.changeStep_works hg hk hm)
  case updHeld => exact fun hk hm hlen => congrArg _ (State.changeStep_holds hg hk hm hlen)
  case flipHeld => exact fun hk hm hlen => congrArg _ (State.changeStep_holds hg hk hm hlen)
  case migr => exact fun hk hm => (State.execMigr_starts hg hk).trans (congrArg _ (State.changeStep_works hg hk hm))
  case migrHeld =>
    exact fun hk hm hlen => (State.execMigr_starts hg hk).trans (congrArg _ (State.changeStep_holds hg hk hm hlen))
  case hot =>
    intro hk hm hkeyed hhot hid hseg hread old hvalid hwell
    have hptr : s'.hotPointer u r id (g.hot.read (tbIbase r.tab + 8 * id) 8) :=
      ⟨hkeyed, hhot, hid, hseg, hread, hvalid, hwell⟩
    refine ⟨_, congrArg Host.Outcome.next ((State.changeStep_works hg hk hm).trans
      ((State.nmgFlip_hot hptr).trans State.changeDone_found)), rfl, ?run, rfl⟩
    case run => exact (congrArg NmgUnit.run State.modUnit_unit).trans (congrArg (· ++ _) State.takeReq_run)
  case slot => exact fun i => (Nat.eq_zero_or_pos _).symm.imp_left fun h => keySlot_lt h i

end Sys2Proof.Machine
end

/-! The proofs: what no command but a few changes (the queue, TB_CNT, the DDR regions, what Cloche computes with, Crown's running
image and MINSVN). -/

section
namespace Sys2Proof.Machine

/-! ### What is kept -/

/-- What few commands change: the queue, TB_CNT, the DDR regions, what Cloche computes with, and Crown's running image and MINSVN. -/
structure Kept where
  pending : List Instr
  cnt : Word
  rgn : Vector Word 16
  blocks : SMap (List Byte)
  image : Option (List Byte)
  ref : SMap Int
  minSvn : Nat
  running : Option (List Byte)

def State.kept (s : State) : Kept :=
  ⟨s.pending, s.tb.cnt, s.ddr.rgn, s.clo.blocks, s.clo.image, s.clo.ref, s.crn.minSvn, s.crn.running⟩

@[simp] theorem State.kept_ite (p : Prop) {_ : Decidable p} (a b : State) :
    (if p then a else b).kept = if p then a.kept else b.kept := apply_ite State.kept p a b

@[simp] theorem State.kept_mk (a d e f g h i j k l m n o q r u v w x) : State.kept ⟨a, d, e, f, g, h, i, j, k, l, m, n, o, q, r, u, v, w, x⟩ =
  ⟨x, e.cnt, d.rgn, m.blocks, m.image, m.ref, l.minSvn, l.running⟩ := (rfl)

@[simp] theorem State.kept_eta (s : State) :
    (⟨s.pending, s.tb.cnt, s.ddr.rgn, s.clo.blocks, s.clo.image, s.clo.ref, s.crn.minSvn, s.crn.running⟩ : Kept) = s.kept := (rfl)

theorem kept_foldl_fst {α β : Type} {f : State × β → α → State × β} (h : ∀ t a, (f t a).1.kept = t.1.kept) (l : List α)
    (s : State × β) : (l.foldl f s).1.kept = s.1.kept := by
  induction l generalizing s with
  | nil => rfl
  | cons a l ih => exact (ih _).trans (h s a)

theorem kept_foldl {α : Type} {f : State → α → State} (h : ∀ t a, (f t a).kept = t.kept) (l : List α) (s : State) :
    (l.foldl f s).kept = s.kept := by
  induction l generalizing s with
  | nil => rfl
  | cons a l ih => exact (ih _).trans (h s a)

/-- A command of an engine leaves what is kept as it was, however far it comes. -/
@[irreducible] def EngineRun.Keeps (k : Kept) : EngineRun → Prop
  | .hold s => s.kept = k
  | .refuse => True
  | .fail _ s => s.kept = k
  | .wait _ s => s.kept = k
  | .done s => s.kept = k

section
variable {k : Kept} {s : State} {n : Nat}
@[simp] theorem EngineRun.keeps_hold : (EngineRun.hold s).Keeps k ↔ s.kept = k := by rw [EngineRun.Keeps]
@[simp] theorem EngineRun.keeps_refuse : EngineRun.refuse.Keeps k := by simp only [EngineRun.Keeps]
@[simp] theorem EngineRun.keeps_fail : (EngineRun.fail n s).Keeps k ↔ s.kept = k := by rw [EngineRun.Keeps]
@[simp] theorem EngineRun.keeps_wait : (EngineRun.wait n s).Keeps k ↔ s.kept = k := by rw [EngineRun.Keeps]
@[simp] theorem EngineRun.keeps_done : (EngineRun.done s).Keeps k ↔ s.kept = k := by rw [EngineRun.Keeps]
end

theorem EngineRun.keeps_map {k : Kept} {f : State → State} (h : ∀ t, (f t).kept = t.kept) (r : EngineRun) :
    (r.map f).Keeps k ↔ r.Keeps k := by
  cases r <;> simp [EngineRun.map, h]

theorem EngineRun.keeps_onHold {k : Kept} {f : State → State} (h : ∀ t, (f t).kept = t.kept) (r : EngineRun) :
    (r.onHold f).Keeps k ↔ r.Keeps k := by
  cases r <;> simp [EngineRun.onHold, h]

/-- A command that may be refused first. -/
theorem EngineRun.keeps_ite_refuse {k : Kept} {p : Prop} {_ : Decidable p} {r : EngineRun} (h : r.Keeps k) :
    (if p then EngineRun.refuse else r).Keeps k := by
  split
  · exact EngineRun.keeps_refuse
  · exact h

/-- A command answers a state with this kept part. -/
def Keeps (k : Kept) (a : Answer) : Prop := ∃ t, a = .next t ∧ t.kept = k

@[simp] theorem keeps_next {k : Kept} {t : State} : Keeps k (.next t) ↔ t.kept = k := by
  simp [Keeps]

/-! ### What leaves all of it as it was

One lemma per operation of the model, in the model's order. -/

/-! #### The shared operations -/

@[simp] theorem inRange_kept (s : State) (ok : Bool) (t : State) (h0 : t.kept = s.kept) : Keeps s.kept (inRange s ok t) := by
  simp_all [inRange]

@[simp] theorem State.modCore_kept (s : State) (c : CoreId) (f : CoreSt → CoreSt) : (s.modCore c f).kept = s.kept := (rfl)

@[simp] theorem State.modSeq_kept (s : State) (c : CoreId) (f : SeqState → SeqState) : (s.modSeq c f).kept = s.kept := (rfl)

@[simp] theorem State.modSpd_kept (s : State) (c : CoreId) (f : SpdState → SpdState) : (s.modSpd c f).kept = s.kept := (rfl)

@[simp] theorem State.modEng_kept (s : State) (c : CoreId) (e : Fin 7) (f : EngState → EngState) :
    (s.modEng c e f).kept = s.kept :=
  (rfl)

theorem State.eachCore_kept (s : State) {f : CoreId → State → State} (h : ∀ c t, (f c t).kept = t.kept) :
    (s.eachCore f).kept = s.kept :=
  kept_foldl (fun t c => h c t) _ s

@[simp] theorem State.eachCore_kept' (s : State) {f : CoreId → State → State} (h : ∀ c t, (f c t).kept = t.kept) :
    (s.eachCore f).kept = s.kept :=
  s.eachCore_kept h

@[simp] theorem State.drawWord_kept (s : State) : (s.drawWord).2.kept = s.kept := (rfl)

@[simp] theorem State.drawBytes_kept (s : State) (n : ℕ) : (s.drawBytes n).2.kept = s.kept := (rfl)

@[simp] theorem State.emit_kept (s : State) (o : Output) : (s.emit o).kept = s.kept := (rfl)

@[simp] theorem State.postFull_kept (s : State) (code : ℕ) (src : Ini) (part : Option (Fin 4)) (gnt : Bool) :
    (s.postFull code src part gnt).kept = s.kept :=
  (rfl)

@[simp] theorem State.postPart_kept (s : State) (code : ℕ) (src : Ini) (part : Option (Fin 4)) :
    (s.postPart code src part).kept = s.kept :=
  (rfl)

@[simp] theorem State.post_kept (s : State) (code : ℕ) (src : Ini) : (s.post code src).kept = s.kept := (rfl)

@[simp] theorem State.postCore_kept (s : State) (c : CoreId) (code : ℕ) : (s.postCore c code).kept = s.kept := (rfl)

@[simp] theorem State.netFault_kept (s : State) (path : List Link) (f : NetFault) : (s.netFault path f).kept = s.kept := by
  simp only [State.netFault]; (repeat' split) <;> simp

@[simp] theorem State.syncAdd_kept (s : State) (c : CoreId) (n : ℕ) (v : Word) : (s.syncAdd c n v).kept = s.kept := (rfl)

@[simp] theorem State.syncSet_kept (s : State) (c : CoreId) (n : ℕ) (v : Word) : (s.syncSet c n v).kept = s.kept := (rfl)

@[simp] theorem State.signalRefused_kept (s : State) (c : CoreId) : (s.signalRefused c).kept = s.kept := (rfl)

@[simp] theorem State.modMon_kept (s : State) (d : Fin 4) (f : DieMon → DieMon) : (s.modMon d f).kept = s.kept := (rfl)

@[simp] theorem State.wakeDie_kept (s : State) (d : Fin 4) : (s.wakeDie d).kept = s.kept := (rfl)

@[simp] theorem State.remoteSignal_kept (s : State) (c : CoreId) (i : Ini) (n : ℕ) (v : Word) (who : optParam Sender
    (Sender.ini i)) : (s.remoteSignal c i n v who).kept = s.kept := by
  simp only [State.remoteSignal]; (repeat' split) <;> simp

@[simp] theorem State.windowViolation_kept (s : State) (c : CoreId) (i : Ini) (off : ℕ) :
    (s.windowViolation c i off).kept = s.kept :=
  (rfl)

@[simp] theorem State.windowWrite_kept (s : State) (c : CoreId) (i : Ini) (off : ℕ) (data : List Byte) (who : optParam Sender
    (Sender.ini i)) : (s.windowWrite c i off data who).kept = s.kept := by
  simp only [State.windowWrite]; (repeat' split) <;> simp

@[simp] theorem State.windowWrites_kept (s : State) (c : CoreId) (i : Ini) (off : ℕ) (data : List Byte) :
    (s.windowWrites c i off data).kept = s.kept := by
  simp [State.windowWrites, kept_foldl]

/-! #### DDR: the channels -/

@[simp] theorem State.ddrRefuse_kept (s : State) (who : DdrWho) (wr : Bool) (a : ℕ) (n : ℕ) :
    (s.ddrRefuse who wr a n).kept = s.kept :=
  (rfl)

@[simp] theorem State.modChan_kept (s : State) (ch : Fin 16) (f : ChanState → ChanState) : (s.modChan ch f).kept = s.kept := (rfl)

@[simp] theorem State.ddrUncorrectable_kept (s : State) (b : ℕ) : (s.ddrUncorrectable b).kept = s.kept := (rfl)

@[simp] theorem State.grantAll_kept (s : State) (p : Fin 4) (bursts : List ℕ) : (s.grantAll p bursts).kept = s.kept := by
  unfold State.grantAll; refine kept_foldl (fun t a => ?_) _ _; simp

@[simp] theorem State.grantFor_kept (s : State) (who : DdrWho) (bursts : List ℕ) : (s.grantFor who bursts).kept = s.kept := by
  unfold State.grantFor; split <;> simp

@[simp] theorem State.eachChan_kept (s : State) (f : ChanState → ChanState) : (s.eachChan f).kept = s.kept := (rfl)

@[simp] theorem State.chanServe_kept (s : State) (ch : Fin 16) : (s.chanServe ch).kept = s.kept := by
  simp only [State.chanServe]; (repeat' split) <;> simp

@[simp] theorem State.ddrAnswer_kept (s : State) : (s.ddrAnswer).kept = s.kept := by
  unfold State.ddrAnswer; refine kept_foldl (fun t a => ?_) _ _; simp

@[simp] theorem State.ddrServe_kept (s : State) : (s.ddrServe).kept = s.kept := by simp [State.ddrServe, kept_foldl]

@[simp] theorem State.ddrTick_kept (s : State) : (s.ddrTick).kept = s.kept := by simp [State.ddrTick]

@[simp] theorem State.ddrFetch_kept (s : State) (who : DdrWho) (a n : Nat) : (s.ddrFetch who a n).1.kept = s.kept := by
  simp only [State.ddrFetch]; (repeat' split) <;> simp [kept_foldl]

@[simp] theorem State.ddrRead_kept (s : State) (who : DdrWho) (a n : Nat) : (s.ddrRead who a n).1.kept = s.kept := by
  simp [State.ddrRead]

theorem State.kept_of_ddrRead {s t : State} {who : DdrWho} {a n : Nat} {r : Option (List Byte)} (h : s.ddrRead who a n = (t, r)) :
    t.kept = s.kept := by
  simpa [h] using State.ddrRead_kept s who a n

@[simp] theorem State.ddrPoison_kept (s : State) (b : ℕ) : (s.ddrPoison b).kept = s.kept := (rfl)

@[simp] theorem DdrState.store_rgn (d : DdrState) (a : Nat) (bs : List Byte) : (d.store a bs).rgn = d.rgn := by
  induction bs generalizing d a with
  | nil => rfl
  | cons b bs ih => simp [DdrState.store, ih]

@[simp] theorem State.ddrAccept_kept (s : State) (who : DdrWho) (a : Nat) (bytes : List Byte) :
    (s.ddrAccept who a bytes).1.kept = s.kept := by
  simp only [State.ddrAccept]; (repeat' split) <;> simp [kept_foldl]

@[simp] theorem State.ddrWrite_kept (s : State) (who : DdrWho) (a : ℕ) (bytes : List Byte) :
    (s.ddrWrite who a bytes).1.kept = s.kept := by
  simp [State.ddrWrite]

@[simp] theorem State.ddrPut_kept (s : State) (who : DdrWho) (a : ℕ) (bytes : List Byte) :
    (s.ddrPut who a bytes).kept = s.kept := by
  simp [State.ddrPut]

/-! #### DDR -/

@[simp] theorem State.ddrCorrected_kept (s : State) (b : ℕ) (rank : Bool) (dev : ℕ) :
    (s.ddrCorrected b rank dev).kept = s.kept := by
  simp [State.ddrCorrected]

@[simp] theorem State.eccBeyond_kept (s : State) (b : ℕ) : (s.eccBeyond b).kept = s.kept := by simp [State.eccBeyond]

@[simp] theorem State.ddrEccOn_kept (s : State) (b : ℕ) (e : DdrEcc) : (s.ddrEccOn b e).kept = s.kept := by
  unfold State.ddrEccOn; split <;> simp

@[simp] theorem State.ddrQueue_kept (s : State) (p : Fin 4) (ini : Ini) (a : Nat) (bs : List Nat) (data : Option (List Byte))
    (read : Bool) : (s.ddrQueue p ini a bs data read).kept = s.kept := by
  simp [State.ddrQueue, kept_foldl]

@[simp] theorem State.ddrAccess_kept (s : State) (r : DdrReq) (a : ℕ) (op : DdrOp) (e : DdrEcc) (f : NetFault) :
    (s.ddrAccess r a op e f).kept = s.kept := by
  simp only [State.ddrAccess]; (repeat' split) <;> simp

@[simp] theorem execDdrAccess_kept (r : DdrReq) (a : ℕ) (op : DdrOp) (e : DdrEcc) (f : NetFault) (s : State) :
    Keeps s.kept (execDdrAccess r a op e f s) := by
  simp [execDdrAccess]

theorem State.rgnRefused_of_ne {ini : Ini} (h : ini ≠ 0x70) (s : State) (i : Fin 16) (new : Word) :
    s.rgnRefused i ini new = true := by
  simp only [State.rgnRefused, decide_eq_true h, Bool.true_or]

@[simp] theorem State.rgnWrite_kept (s : State) (i : Fin 16) {ini : Ini} (hw : Half) (v : Word) (h : ini ≠ 0x70) :
    (s.rgnWrite i ini hw v).kept = s.kept := by
  simp [State.rgnWrite, State.rgnRefused_of_ne h]

@[simp] theorem State.bwWrite_kept (s : State) (d : Fin 2) (ini : Ini) (h : Half) (v : Word) :
    (s.bwWrite d ini h v).kept = s.kept := by
  simp [State.bwWrite]

@[simp] theorem execDdrBwWrite_kept (d : Fin 2) (ini : Initiator) (h : Half) (v : Word) (s : State) :
    Keeps s.kept (execDdrBwWrite d ini h v s) := by
  simp [execDdrBwWrite]

@[simp] theorem execDdrRefresh_kept (ch : Fin 16) (s : State) : Keeps s.kept (execDdrRefresh ch s) := by simp [execDdrRefresh]

@[simp] theorem State.dimmEvent_kept (s : State) (ch : Fin 16) (low : Bool) : (s.dimmEvent ch low).kept = s.kept := by
  simp [State.dimmEvent]

@[simp] theorem execDimmEventAssert_kept (e : DimmEvent) (s : State) : Keeps s.kept (execDimmEventAssert e s) := by
  simp [execDimmEventAssert]

@[simp] theorem execRefresh1xReturn_kept (ch : Fin 16) (s : State) : Keeps s.kept (execRefresh1xReturn ch s) := by
  simp [execRefresh1xReturn]

@[simp] theorem State.scrub_kept (s : State) (ch : Fin 16) (e : DdrEcc) : (s.scrub ch e).kept = s.kept := by simp [State.scrub]

@[simp] theorem execDdrScrub_kept (ch : Fin 16) (e : DdrEcc) (s : State) : Keeps s.kept (execDdrScrub ch e s) := by
  simp [execDdrScrub]

@[simp] theorem State.ddrDrop_kept (s : State) (ch : Fin 16) : (s.ddrDrop ch).kept = s.kept := by
  unfold State.ddrDrop; refine kept_foldl (fun t a => ?_) _ _; simp

@[simp] theorem State.caParity_kept (s : State) (ch : Fin 16) (retryFails : Bool) (own : Bool) :
    (s.caParity ch retryFails own).kept = s.kept := by
  simp [State.caParity]

@[simp] theorem execDdrCaParityError_kept (ch : Fin 16) (retryFails : Bool) (own : Bool) (s : State) :
    Keeps s.kept (execDdrCaParityError ch retryFails own s) := by
  simp [execDdrCaParityError]

/-! #### Events -/

@[simp] theorem State.eventRoute_kept (s : State) : (s.eventRoute).kept = s.kept := by
  simp only [State.eventRoute]; (repeat' split) <;> simp

@[simp] theorem execEventRoute_kept (s : State) : Keeps s.kept (execEventRoute s) := by simp [execEventRoute]

@[simp] theorem State.modFn_kept (s : State) (pf1 : Bool) (f : PciFn → PciFn) : (s.modFn pf1 f).kept = s.kept := by
  simp [State.modFn]

@[simp] theorem State.raise_kept (s : State) (pf1 : Bool) (v : ℕ) : (s.raise pf1 v).kept = s.kept := by simp [State.raise]

@[simp] theorem State.sendPending_kept (s : State) (pf1 : Bool) (v : ℕ) : (s.sendPending pf1 v).kept = s.kept := by
  simp [State.sendPending]

@[simp] theorem execMsixPendingSend_kept (pf1 : Bool) (v : Fin 256) (s : State) : Keeps s.kept (execMsixPendingSend pf1 v s) := by
  simp [execMsixPendingSend]

@[simp] theorem State.deliverRing_kept (s : State) (p : Posted) (v : Byte) (rest : List (Posted × Byte)) :
    (s.deliverRing p v rest).kept = s.kept := by
  simp [State.deliverRing]

@[simp] theorem State.deliverCrown_kept (s : State) (p : Posted) (rest : List Posted) :
    (s.deliverCrown p rest).kept = s.kept := by
  simp [State.deliverCrown]

@[simp] theorem State.queueDeliver_kept (s : State) : (s.queueDeliver).kept = s.kept := by
  unfold State.queueDeliver; split <;> simp

@[simp] theorem execEventQueueDeliver_kept (s : State) : Keeps s.kept (execEventQueueDeliver s) := by simp [execEventQueueDeliver]

@[simp] theorem State.routeWaiting_kept (s : State) : (s.routeWaiting).kept = s.kept := by simp [State.routeWaiting, kept_foldl]

@[simp] theorem State.routeWrite_kept (s : State) (i : Fin 256) (ini : Ini) (h : Half) (v : Word) :
    (s.routeWrite i ini h v).kept = s.kept := by
  simp [State.routeWrite]

@[simp] theorem execEvtRouteWrite_kept (i : Fin 256) (ini : Initiator) (h : Half) (v : Word) (s : State) :
    Keeps s.kept (execEvtRouteWrite i ini h v s) := by
  simp [execEvtRouteWrite]

@[simp] theorem State.evtIdxWrite_kept (s : State) (ini : Ini) (h : Half) (v : Word) : (s.evtIdxWrite ini h v).kept = s.kept := by
  simp [State.evtIdxWrite]

@[simp] theorem State.evtStatWrite_kept (s : State) (ini : Ini) (h : Half) (v : Word) :
    (s.evtStatWrite ini h v).kept = s.kept := by
  simp [State.evtStatWrite]

/-! #### The time base -/

@[simp] theorem State.tbRefuse_kept (s : State) : (s.tbRefuse).kept = s.kept := (rfl)

@[simp] theorem State.modDom_kept (s : State) (d : Fin 2) (f : TbDom → TbDom) : (s.modDom d f).kept = s.kept := (rfl)

@[simp] theorem State.domRate_kept (s : State) (d : Fin 2) (r : BitVec 32) : (s.domRate d r).kept = s.kept := by
  simp [State.domRate]

@[simp] theorem State.rateWrite_kept (s : State) (d : Fin 2) (ini : Ini) (h : Half) (v : Word) :
    (s.rateWrite d ini h v).kept = s.kept := by
  simp only [State.rateWrite]; (repeat' split) <;> simp

@[simp] theorem execTbRateWrite_kept (d : Fin 2) (ini : Initiator) (h : Half) (v : Word) (s : State) :
    Keeps s.kept (execTbRateWrite d ini h v s) := by
  simp [execTbRateWrite]

@[simp] theorem State.pulseStep_kept (s : State) (k : Fin 4) (t : ℕ) : (s.pulseStep k t).kept = s.kept := by
  simp [State.pulseStep]

@[simp] theorem State.domStep_kept (s : State) (d : Fin 2) (v : Word) : (s.domStep d v).kept = s.kept := by
  simp [State.domStep, kept_foldl]

@[simp] theorem State.stepWrite_kept (s : State) (d : Fin 2) (ini : Ini) (h : Half) (v : Word) :
    (s.stepWrite d ini h v).kept = s.kept := by
  simp [State.stepWrite]

@[simp] theorem execTbStepWrite_kept (d : Fin 2) (ini : Initiator) (h : Half) (v : Word) (s : State) :
    Keeps s.kept (execTbStepWrite d ini h v s) := by
  simp [execTbStepWrite]

@[simp] theorem State.followB_kept (s : State) : (s.followB).kept = s.kept := by simp [State.followB]

@[simp] theorem State.domHoldover_kept (s : State) (d : Fin 2) : (s.domHoldover d).kept = s.kept := by simp [State.domHoldover]

@[simp] theorem State.domState_kept (s : State) (d : Fin 2) (v : ℕ) : (s.domState d v).kept = s.kept := by
  unfold State.domState; split <;> simp

@[simp] theorem State.dstatWrite_kept (s : State) (d : Fin 2) (ini : Ini) (h : Half) (v : Word) :
    (s.dstatWrite d ini h v).kept = s.kept := by
  simp only [State.dstatWrite]; (repeat' split) <;> simp

@[simp] theorem execTbStateWrite_kept (d : Fin 2) (ini : Initiator) (h : Half) (v : Word) (s : State) :
    Keeps s.kept (execTbStateWrite d ini h v s) := by
  simp [execTbStateWrite]

@[simp] theorem execTbLostWrite_kept (d : Fin 2) (ini : Initiator) (s : State) : Keeps s.kept (execTbLostWrite d ini s) := by
  simp [execTbLostWrite]

@[simp] theorem execTbWatchdogExpire_kept (d : Fin 2) (s : State) : Keeps s.kept (execTbWatchdogExpire d s) := by
  simp [execTbWatchdogExpire]

@[simp] theorem State.epochLatch_kept (s : State) (d : Fin 2) : (s.epochLatch d).kept = s.kept := by simp [State.epochLatch]

@[simp] theorem execEpochLatch_kept (d : Fin 2) (s : State) : Keeps s.kept (execEpochLatch d s) := by simp [execEpochLatch]

@[simp] theorem State.tbSnap_kept (s : State) (ini : Ini) (h : Half) (v : Word) : (s.tbSnap ini h v).kept = s.kept := by
  simp [State.tbSnap]

@[simp] theorem execTbSnap_kept (ini : Initiator) (h : Half) (v : Word) (s : State) : Keeps s.kept (execTbSnap ini h v s) := by
  simp [execTbSnap]

@[simp] theorem State.modTx_kept (s : State) (p : Fin 4) (f : TxPort → TxPort) : (s.modTx p f).kept = s.kept := (rfl)

@[simp] theorem State.txqWrite_kept (s : State) (p : Fin 4) (ini : Ini) (off : ℕ) (data : List Byte) :
    (s.txqWrite p ini off data).kept = s.kept := by
  simp [State.txqWrite]

@[simp] theorem execTbTxqWrite_kept (p : Fin 4) (ini : Initiator) (off : ℕ) (data : List Byte) (s : State) :
    Keeps s.kept (execTbTxqWrite p ini off data s) := by
  simp [execTbTxqWrite]

@[simp] theorem State.latePost_kept (s : State) (p : Fin 4) : (s.latePost p).kept = s.kept := by simp [State.latePost]

@[simp] theorem State.lineBusy_kept (s : State) (p : Fin 4) (n : ℕ) : (s.lineBusy p n).kept = s.kept := (rfl)

@[simp] theorem State.txSend_kept (s : State) (p : Fin 4) (d : TxDesc) (t : Word) : (s.txSend p d t).kept = s.kept := (rfl)

@[simp] theorem State.txLaunch_kept (s : State) (p : Fin 4) : (s.txLaunch p).kept = s.kept := by
  unfold State.txLaunch; split <;> simp

@[simp] theorem execTimedFrameLaunch_kept (p : Fin 4) (s : State) : Keeps s.kept (execTimedFrameLaunch p s) := by
  simp [execTimedFrameLaunch]

@[simp] theorem State.modPulse_kept (s : State) (k : Fin 4) (f : Pulse → Pulse) : (s.modPulse k f).kept = s.kept := (rfl)

@[simp] theorem State.evoWrite_kept (s : State) (k : Fin 4) (ini : Ini) (reg : Fin 3) (h : Half) (v : Word) :
    (s.evoWrite k ini reg h v).kept = s.kept := by
  simp only [State.evoWrite]; (repeat' split) <;> simp

@[simp] theorem execTbEvoWrite_kept (k : Fin 4) (ini : Initiator) (reg : Fin 3) (h : Half) (v : Word) (s : State) :
    Keeps s.kept (execTbEvoWrite k ini reg h v s) := by
  simp [execTbEvoWrite]

@[simp] theorem State.pulseEdge_kept (s : State) (k : Fin 4) : (s.pulseEdge k).kept = s.kept := by simp [State.pulseEdge]

@[simp] theorem execPulseEdge_kept (k : Fin 4) (s : State) : Keeps s.kept (execPulseEdge k s) := by simp [execPulseEdge]

@[simp] theorem execPulseWidthEnd_kept (k : Fin 4) (s : State) : Keeps s.kept (execPulseWidthEnd k s) := by
  simp [execPulseWidthEnd]

@[simp] theorem execTbMismatch_kept (s : State) : Keeps s.kept (execTbMismatch s) := by simp [execTbMismatch]

/-! #### Frames -/

@[simp] theorem State.ptpDrop_kept (s : State) : (s.ptpDrop).kept = s.kept := by simp [State.ptpDrop]

@[simp] theorem State.ptpQueue_kept (s : State) (q : Fin 4) (w : FwdFrame) : (s.ptpQueue q w).kept = s.kept := by
  simp [State.ptpQueue]

@[simp] theorem State.ptpForward_kept (s : State) (p : Fin 4) (f : List Byte) (o : ℕ) (v6 : Bool) :
    (s.ptpForward p f o v6).kept = s.kept := by
  simp [State.ptpForward, kept_foldl]

/-! #### PTP -/

@[simp] theorem State.modServo_kept (s : State) (d : Fin 2) (f : PtpServo → PtpServo) : (s.modServo d f).kept = s.kept := (rfl)

@[simp] theorem State.ownQueue_kept (s : State) (d : Fin 2) (p : Fin 4) (f : List Byte) : (s.ownQueue d p f).kept = s.kept :=
  (rfl)

@[simp] theorem State.ptpTake_kept (s : State) (d : Fin 2) (p : Fin 4) (f : List Byte) (o : ℕ) :
    (s.ptpTake d p f o).kept = s.kept := by
  unfold State.ptpTake; split <;> simp

@[simp] theorem State.ptpServe_kept (s : State) (p : Fin 4) (f : List Byte) (o : ℕ) (udp : Bool) :
    (s.ptpServe p f o udp).kept = s.kept := by
  simp [State.ptpServe, kept_foldl]

@[simp] theorem State.ptpRequest_kept (s : State) (d : Fin 2) (p : Fin 4) : (s.ptpRequest d p).kept = s.kept := by
  simp [State.ptpRequest]

@[simp] theorem State.ownSent_kept (s : State) (d : Fin 2) (p : Fin 4) (f : List Byte) : (s.ownSent d p f).kept = s.kept := by
  simp [State.ownSent]

@[simp] theorem State.syncAccept_kept (s : State) (d : Fin 2) (named : PtpSync → Bool) (r : BitVec 32) :
    (s.syncAccept d named r).kept = s.kept := by
  unfold State.syncAccept; split <;> simp

@[simp] theorem execSyncAccept_kept (d : Fin 2) (port : Fin 4) (src : BitVec 80) (seq : BitVec 16) (r : BitVec 32) (s : State) :
    Keeps s.kept (execSyncAccept d port src seq r s) := by
  simp [execSyncAccept]

@[simp] theorem State.announceLost_kept (s : State) (d : Fin 2) : (s.announceLost d).kept = s.kept := by simp [State.announceLost]

@[simp] theorem execAnnounceTimeout_kept (d : Fin 2) (s : State) : Keeps s.kept (execAnnounceTimeout d s) := by
  simp [execAnnounceTimeout]

/-! #### Ingest -/

@[simp] theorem State.modIng_kept (s : State) (f : IngState → IngState) : (s.modIng f).kept = s.kept := (rfl)

@[simp] theorem State.modPort_kept (s : State) (p : Fin 4) (f : EthPort → EthPort) : (s.modPort p f).kept = s.kept := (rfl)

@[simp] theorem State.modCnt_kept (s : State) (p : Fin 4) (f : PortCounts → PortCounts) : (s.modCnt p f).kept = s.kept := (rfl)

@[simp] theorem State.modSens_kept (s : State) (n : Fin 16) (f : SensState → SensState) : (s.modSens n f).kept = s.kept := (rfl)

@[simp] theorem State.modRing_kept (s : State) (p : Fin 4) (f : IngRing → IngRing) : (s.modRing p f).kept = s.kept := (rfl)

@[simp] theorem State.modSweep_kept (s : State) (id : ℕ) (f : Sweep → Sweep) : (s.modSweep id f).kept = s.kept := (rfl)

@[simp] theorem State.ingPost_kept (s : State) (code : ℕ) (rings : ℕ) : (s.ingPost code rings).kept = s.kept := (rfl)

@[simp] theorem State.startRing_kept (s : State) (id : ℕ) (rings : ℕ) (p : Fin 4) : (s.startRing id rings p).kept = s.kept := by
  simp [State.startRing]

@[simp] theorem State.sweepOpen_kept (s : State) (n : Fin 16) (golden : Bool) (t : BitVec 32) :
    (s.sweepOpen n golden t).kept = s.kept := by
  simp [State.sweepOpen, kept_foldl]

@[simp] theorem State.sweepClose_kept (s : State) (n : Fin 16) (golden : Bool) : (s.sweepClose n golden).kept = s.kept := by
  simp only [State.sweepClose]; (repeat' split) <;> simp [kept_foldl]

@[simp] theorem State.pointDrop_kept (s : State) (w : Sweep) (p : Fin 4) (code : ℕ) : (s.pointDrop w p code).kept = s.kept := by
  unfold State.pointDrop; split <;> simp

@[simp] theorem State.stagePoint_kept (s : State) (id : ℕ) (bytes : List Byte) : (s.stagePoint id bytes).kept = s.kept := by
  unfold State.stagePoint; refine kept_foldl (fun t a => ?_) _ _; (repeat' split) <;> simp

@[simp] theorem State.skipPoint_kept (s : State) (n : Fin 16) (golden : Bool) (oor : Bool) :
    (s.skipPoint n golden oor).kept = s.kept := by
  simp only [State.skipPoint]; split <;> simp

@[simp] theorem State.deliverPoint_kept (s : State) (n : Fin 16) (golden : Bool) (t : Rec64) (p : Point) (beam : ℕ) (f0 : ℤ)
    (ret : ℕ) (time : BitVec 32) : (s.deliverPoint n golden t p beam f0 ret time).kept = s.kept := by
  simp only [State.deliverPoint]; (repeat' split) <;> simp

@[simp] theorem State.closeBefore_kept (s : State) (n : Fin 16) (golden : Bool) (t : Rec64) (p : Point) (time : BitVec 32) :
    (s.closeBefore n golden t p time).kept = s.kept := by
  simp only [State.closeBefore]; (repeat' split) <;> simp

@[simp] theorem State.ingestPoint_kept (s : State) (n : Fin 16) (golden : Bool) (t : Rec64) (pay : List Byte) (stamp : Word)
    (blk : ℕ) (pt : ℕ) : (s.ingestPoint n golden t pay stamp blk pt).kept = s.kept := by
  simp only [State.ingestPoint]; (repeat' split) <;> simp

@[simp] theorem State.ingestFrame_kept (s : State) (p : Fin 4) (n : Fin 16) (golden : Bool) (pay : List Byte) (stamp : Word) :
    (s.ingestFrame p n golden pay stamp).kept = s.kept := by
  simp only [State.ingestFrame]; (repeat' split) <;> simp [kept_foldl]

@[simp] theorem State.frameWork_kept (s : State) (p : Fin 4) (f : RxFrame) : (s.frameWork p f).kept = s.kept := by
  simp only [State.frameWork]; (repeat' split) <;> simp

@[simp] theorem State.endPatterns_kept (s : State) (p : Fin 4) (l : List RxItem) : (s.endPatterns p l).kept = s.kept := by
  induction l generalizing s with
  | nil => rfl
  | cons i l ih => cases i <;> simp [State.endPatterns, ih]

@[simp] theorem State.ingestNext_kept (s : State) (p : Fin 4) : (s.ingestNext p).kept = s.kept := by
  simp only [State.ingestNext]; split <;> simp

@[simp] theorem execIngestFrameProcess_kept (p : Fin 4) (s : State) : Keeps s.kept (execIngestFrameProcess p s) := by
  simp [execIngestFrameProcess]

@[simp] theorem State.fifoPut_kept (s : State) (p : Fin 4) (f : RxFrame) : (s.fifoPut p f).kept = s.kept := by
  simp [State.fifoPut]

@[simp] theorem State.frameQueue_kept (s : State) (p : Fin 4) (f : List Byte) : (s.frameQueue p f).kept = s.kept := by
  simp only [State.frameQueue]; (repeat' split) <;> simp

@[simp] theorem State.tapFrame_kept (s : State) (p : Fin 4) (f : List Byte) : (s.tapFrame p f).kept = s.kept := by
  simp only [State.tapFrame]; split <;> simp [CloState.dropFrame]

@[simp] theorem State.frameReceive_kept (s : State) (p : Fin 4) (data : List Byte) (fcsOk : Bool) :
    (s.frameReceive p data fcsOk).kept = s.kept := by
  simp [State.frameReceive]

@[simp] theorem execFrameReceive_kept (p : Fin 4) (data : List Byte) (fcsOk : Bool) (s : State) :
    Keeps s.kept (execFrameReceive p data fcsOk s) := by
  simp [execFrameReceive]

@[simp] theorem execEthLinkUp_kept (p : Fin 4) (s : State) : Keeps s.kept (execEthLinkUp p s) := by simp [execEthLinkUp]

@[simp] theorem execEthLinkDown_kept (p : Fin 4) (s : State) : Keeps s.kept (execEthLinkDown p s) := by simp [execEthLinkDown]

/-! #### The rings -/

@[simp] theorem State.writeRecord_kept (s : State) (p : Fin 4) (w : Sweep) (bytes : List Byte) :
    (s.writeRecord p w bytes).kept = s.kept := by
  unfold State.writeRecord; split <;> simp

@[simp] theorem State.putHeader_kept (s : State) (p : Fin 4) (bytes : List Byte) : (s.putHeader p bytes).kept = s.kept := by
  simp [State.putHeader]

@[simp] theorem State.closeInRing_kept (s : State) (p : Fin 4) (w : Sweep) : (s.closeInRing p w).kept = s.kept := by
  unfold State.closeInRing; split <;> simp

@[simp] theorem State.ringBurst_kept (s : State) (p : Fin 4) (n : Nat) : (s.ringBurst p n).kept = s.kept := by
  induction n generalizing s with
  | zero => rfl
  | succ n ih => simp only [State.ringBurst]; (repeat' split) <;> simp [ih]

@[simp] theorem State.writerBurst_kept (s : State) : (s.writerBurst).kept = s.kept := by
  simp only [State.writerBurst]; split <;> simp

@[simp] theorem execRecordWriterBurst_kept (s : State) : Keeps s.kept (execRecordWriterBurst s) := by simp [execRecordWriterBurst]

@[simp] theorem State.ingRefuse_kept (s : State) : (s.ingRefuse).kept = s.kept := (rfl)

@[simp] theorem State.tplWrite_kept (s : State) (t : Fin 16) (ini : Ini) (off : ℕ) (data : List Byte) :
    (s.tplWrite t ini off data).kept = s.kept := by
  simp [State.tplWrite]

@[simp] theorem execTplWrite_kept (t : Fin 16) (ini : Initiator) (off : ℕ) (data : List Byte) (s : State) :
    Keeps s.kept (execTplWrite t ini off data s) := by
  simp [execTplWrite]

@[simp] theorem State.sensWrite_kept (s : State) (n : Fin 16) (ini : Ini) (off : ℕ) (data : List Byte) :
    (s.sensWrite n ini off data).kept = s.kept := by
  simp [State.sensWrite]

@[simp] theorem execSensWrite_kept (n : Fin 16) (ini : Initiator) (off : ℕ) (data : List Byte) (s : State) :
    Keeps s.kept (execSensWrite n ini off data s) := by
  simp [execSensWrite]

@[simp] theorem State.extWrite_kept (s : State) (n : Fin 16) (ini : Ini) (off : ℕ) (data : List Byte) :
    (s.extWrite n ini off data).kept = s.kept := by
  simp [State.extWrite]

@[simp] theorem execExtWrite_kept (n : Fin 16) (ini : Initiator) (off : ℕ) (data : List Byte) (s : State) :
    Keeps s.kept (execExtWrite n ini off data s) := by
  simp [execExtWrite]

@[simp] theorem State.beamWrite_kept (s : State) (k : ℕ) (ini : Ini) (off : ℕ) (data : List Byte) :
    (s.beamWrite k ini off data).kept = s.kept := by
  simp [State.beamWrite]

@[simp] theorem State.ringBaseWrite_kept (s : State) (p : Fin 4) (ini : Ini) (header : Bool) (h : Half) (v : Word) :
    (s.ringBaseWrite p ini header h v).kept = s.kept := by
  simp [State.ringBaseWrite]

@[simp] theorem State.ringLeave_kept (s : State) (p : Fin 4) : (s.ringLeave p).kept = s.kept := (rfl)

@[simp] theorem State.rctlWrite_kept (s : State) (p : Fin 4) (ini : Ini) (h : Half) (v : Word) :
    (s.rctlWrite p ini h v).kept = s.kept := by
  simp [State.rctlWrite]

@[simp] theorem execRctlWrite_kept (p : Fin 4) (ini : Initiator) (h : Half) (v : Word) (s : State) :
    Keeps s.kept (execRctlWrite p ini h v s) := by
  simp [execRctlWrite]

@[simp] theorem State.holdWrite_kept (s : State) (p : Fin 4) (ini : Ini) (h : Half) (v : Word) :
    (s.holdWrite p ini h v).kept = s.kept := by
  simp [State.holdWrite]

@[simp] theorem execHoldWrite_kept (p : Fin 4) (ini : Initiator) (h : Half) (v : Word) (s : State) :
    Keeps s.kept (execHoldWrite p ini h v s) := by
  simp [execHoldWrite]

@[simp] theorem State.slotmapWrite_kept (s : State) (ini : Ini) (off : ℕ) (data : List Byte) :
    (s.slotmapWrite ini off data).kept = s.kept := by
  simp [State.slotmapWrite]

@[simp] theorem execSlotmapWrite_kept (ini : Initiator) (off : ℕ) (data : List Byte) (s : State) :
    Keeps s.kept (execSlotmapWrite ini off data s) := by
  simp [execSlotmapWrite]

@[simp] theorem State.injqWrite_kept (s : State) (p : Fin 4) (ini : Ini) (off : ℕ) (data : List Byte) :
    (s.injqWrite p ini off data).kept = s.kept := by
  simp [State.injqWrite]

@[simp] theorem execInjqWrite_kept (p : Fin 4) (ini : Initiator) (off : ℕ) (data : List Byte) (s : State) :
    Keeps s.kept (execInjqWrite p ini off data s) := by
  simp [execInjqWrite]

@[simp] theorem State.injOne_kept (s : State) (p : Fin 4) (w : BitVec 256) (x : InjRun) : (s.injOne p w x).1.kept = s.kept := by
  simp only [State.injOne]
  split
  next t h => split <;> simp [State.kept_of_ddrRead h]
  next t bs h =>
    have ht := State.kept_of_ddrRead h
    (repeat' split) <;> simp [ht]

@[simp] theorem State.injSlots_kept (p : Fin 4) (w : BitVec 256) (n : Nat) (a : State × InjRun) :
    (State.injSlots p w n a).1.kept = a.1.kept := by
  induction n generalizing a with
  | zero => rfl
  | succ n ih =>
    simp only [State.injSlots]
    (repeat' split) <;> simp [ih, kept_foldl_fst]

@[simp] theorem State.injSweep_kept (s : State) (p : Fin 4) (w : BitVec 256) : (s.injSweep p w).kept = s.kept := by
  simp only [State.injSweep]; (repeat' split) <;> simp

@[simp] theorem State.injExecute_kept (s : State) (p : Fin 4) : (s.injExecute p).kept = s.kept := by
  unfold State.injExecute; split <;> simp

@[simp] theorem execInjectionExecute_kept (p : Fin 4) (s : State) : Keeps s.kept (execInjectionExecute p s) := by
  simp [execInjectionExecute]

@[simp] theorem State.sensDisable_kept (s : State) (n : Fin 16) : (s.sensDisable n).kept = s.kept := by simp [State.sensDisable]

@[simp] theorem State.burstLost_kept (s : State) (p : Fin 4) (more : ℕ) : (s.burstLost p more).kept = s.kept := (rfl)

@[simp] theorem State.ingFault_kept (s : State) (f : IngFault) : (s.ingFault f).kept = s.kept := by
  simp only [State.ingFault]; (repeat' split) <;> simp [kept_foldl]

@[simp] theorem execIngestEccError_kept (f : IngFault) (s : State) : Keeps s.kept (execIngestEccError f s) := by
  simp [execIngestEccError]

/-! #### Cloche -/

@[simp] theorem State.modClo_kept (s : State) (f : CloState → CloState) :
    (s.modClo f).kept = ⟨s.pending, s.tb.cnt, s.ddr.rgn, (f s.clo).blocks, (f s.clo).image, (f s.clo).ref, s.crn.minSvn, s.crn.running⟩ :=
  (rfl)

@[simp] theorem CloState.setChan_same (x : CloState) (b : Bool) (c : CloChan) :
    (x.setChan b c).blocks = x.blocks ∧ (x.setChan b c).image = x.image ∧ (x.setChan b c).ref = x.ref := by
  cases b <;> simp [CloState.setChan]

@[simp] theorem CloState.addAudit_same (x : CloState) (kind b : Nat) (old new : List Byte) :
    (x.addAudit kind b old new).blocks = x.blocks ∧ (x.addAudit kind b old new).image = x.image ∧ (x.addAudit kind b old new).ref = x.ref := by
  simp [CloState.addAudit]

@[simp] theorem CloState.dropFrame_same (x : CloState) :
    x.dropFrame.blocks = x.blocks ∧ x.dropFrame.image = x.image ∧ x.dropFrame.ref = x.ref := by
  simp [CloState.dropFrame]

@[simp] theorem CloState.start_same (x : CloState) (br f : Bool) :
    (x.start br f).blocks = x.blocks ∧ (x.start br f).image = x.image ∧ (x.start br f).ref = x.ref := by
  simp [CloState.start]

@[simp] theorem CloState.modCap_same (x : CloState) (f : CloCap → CloCap) :
    (x.modCap f).blocks = x.blocks ∧ (x.modCap f).image = x.image ∧ (x.modCap f).ref = x.ref := by
  simp [CloState.modCap]

@[simp] theorem CloState.modTrack_same (x : CloState) (k : Fin 4) (f : CloTrack → CloTrack) :
    (x.modTrack k f).blocks = x.blocks ∧ (x.modTrack k f).image = x.image ∧ (x.modTrack k f).ref = x.ref := by
  simp [CloState.modTrack]

@[simp] theorem CloState.endCap_same (x : CloState) :
    x.endCap.blocks = x.blocks ∧ x.endCap.image = x.image ∧ x.endCap.ref = x.ref := by
  unfold CloState.endCap; split <;> simp

@[simp] theorem CloState.sweepClose_same (x : CloState) (k : Fin 4) :
    (x.sweepClose k).blocks = x.blocks ∧ (x.sweepClose k).image = x.image ∧ (x.sweepClose k).ref = x.ref := by
  simp only [CloState.sweepClose]; split <;> simp

@[simp] theorem CloState.sweepOpen_same (x : CloState) (k : Fin 4) (t : BitVec 32) :
    (x.sweepOpen k t).blocks = x.blocks ∧ (x.sweepOpen k t).image = x.image ∧ (x.sweepOpen k t).ref = x.ref := by
  simp only [CloState.sweepOpen]; (repeat' split) <;> simp

@[simp] theorem CloState.point_same (x : CloState) (k : Fin 4) (t : Rec64) (p : Point) (ret : Nat) (time : BitVec 32) :
    (x.point k t p ret time).blocks = x.blocks ∧ (x.point k t p ret time).image = x.image ∧ (x.point k t p ret time).ref = x.ref := by
  simp only [CloState.point]; (repeat' split) <;> simp

@[simp] theorem CloState.framePoint_same (m : SMap (List Byte)) (k : Fin 4) (pay : List Byte) (stamp : Word) (x : CloState)
    (blk pt : Nat) : (CloState.framePoint m k pay stamp x blk pt).blocks = x.blocks ∧
      (CloState.framePoint m k pay stamp x blk pt).image = x.image ∧ (CloState.framePoint m k pay stamp x blk pt).ref = x.ref := by
  simp only [CloState.framePoint]; (repeat' split) <;> simp

theorem CloState.foldl_same {α : Type} {f : CloState → α → CloState} (h : ∀ t a, (f t a).blocks = t.blocks ∧
    (f t a).image = t.image ∧ (f t a).ref = t.ref) (l : List α) (x : CloState) :
    (l.foldl f x).blocks = x.blocks ∧ (l.foldl f x).image = x.image ∧ (l.foldl f x).ref = x.ref := by
  induction l generalizing x with
  | nil => simp
  | cons a l ih => simp [ih, h]

@[simp] theorem CloState.frame_same (x : CloState) (k : Fin 4) (pay : List Byte) (stamp : Word) :
    (x.frame k pay stamp).blocks = x.blocks ∧ (x.frame k pay stamp).image = x.image ∧ (x.frame k pay stamp).ref = x.ref := by
  have fold (m : SMap (List Byte)) (n p : Nat) (y : CloState) := CloState.foldl_same
    (f := fun x blk => (List.range p).foldl (fun x pt => CloState.framePoint m k pay stamp x blk pt) x)
    (fun t blk => CloState.foldl_same (fun t pt => CloState.framePoint_same m k pay stamp t blk pt) _ t) (List.range n) y
  simp only [CloState.frame]
  (repeat' split) <;> simp [fold]

@[simp] theorem State.cloPost_kept (s : State) (code : ℕ) : (s.cloPost code).kept = s.kept := (rfl)

@[simp] theorem State.tapPorts_kept (s : State) : (s.tapPorts).kept = s.kept := (rfl)

@[simp] theorem State.cloStart_kept (s : State) (badRef : Bool) (fault : Bool) : (s.cloStart badRef fault).kept = s.kept := by
  simp [State.cloStart]

@[simp] theorem State.sealChange_kept (s : State) (isOpen : Bool) : (s.sealChange isOpen).kept = s.kept := by
  simp [State.sealChange]

@[simp] theorem execSealChange_kept (isOpen : Bool) (s : State) : Keeps s.kept (execSealChange isOpen s) := by
  simp [execSealChange]

@[simp] theorem State.cloRecord_kept (s : State) (c : CloCap) (r : Reading) (zseq : Word) :
    (s.cloRecord c r zseq).kept = s.kept :=
  (rfl)

@[simp] theorem State.cloRecordWrite_kept (s : State) : (s.cloRecordWrite).kept = s.kept := by
  unfold State.cloRecordWrite; split <;> simp

@[simp] theorem execCloRecordWrite_kept (s : State) : Keeps s.kept (execCloRecordWrite s) := by simp [execCloRecordWrite]

@[simp] theorem State.cloTap_kept (s : State) : (s.cloTap).kept = s.kept := by
  simp only [State.cloTap]; (repeat' split) <;> simp

@[simp] theorem execCloFrameTap_kept (s : State) : Keeps s.kept (execCloFrameTap s) := by simp [execCloFrameTap]

@[simp] theorem State.capCut_kept (s : State) (c : CloCap) (aborted : Bool) : (s.capCut c aborted).kept = s.kept := by
  simp [State.capCut]

@[simp] theorem State.beltRecord_kept (s : State) (c : CloCap) (final : Bool) (cut : Bool) (aborted : Bool) :
    (s.beltRecord c final cut aborted).kept = s.kept := by
  simp [State.beltRecord]

@[simp] theorem State.captureTimeout_kept (s : State) : (s.captureTimeout).kept = s.kept := by
  unfold State.captureTimeout; split <;> simp

@[simp] theorem execCaptureTimeout_kept (s : State) : Keeps s.kept (execCaptureTimeout s) := by simp [execCaptureTimeout]

@[simp] theorem State.encoder_kept (s : State) (a b : Bool) : (s.encoder a b).kept = s.kept := by
  simp only [State.encoder]
  split
  · rfl
  · rw [State.modClo_kept]; split <;> simp

@[simp] theorem execEncoderCount_kept (a : Bool) (b : Bool) (s : State) : Keeps s.kept (execEncoderCount a b s) := by
  simp [execEncoderCount]

@[simp] theorem State.cloWatchdog_kept (s : State) (canSign : Bool) : (s.cloWatchdog canSign).kept = s.kept := by
  simp only [State.cloWatchdog]; (repeat' split) <;> simp

@[simp] theorem execCloWatchdog_kept (canSign : Bool) (s : State) : Keeps s.kept (execCloWatchdog canSign s) := by
  simp [execCloWatchdog]

@[simp] theorem execCloSramCorrect_kept (s : State) : Keeps s.kept (execCloSramCorrect s) := by simp [execCloSramCorrect]

/-! #### Tasks -/

@[simp] theorem State.signalRecord_kept (s : State) (c : CoreId) (r : Rec64) : (s.signalRecord c r).kept = s.kept := by
  unfold State.signalRecord; split <;> simp

@[simp] theorem State.slotDone_kept (s : State) (c : CoreId) (i : Fin 4) (status : ℕ) (ran : Bool) (signal : Bool) :
    (s.slotDone c i status ran signal).kept = s.kept := by
  simp [State.slotDone]

@[simp] theorem State.finishTask_kept (s : State) (c : CoreId) (status : ℕ) : (s.finishTask c status).kept = s.kept := by
  simp [State.finishTask]

@[simp] theorem State.fenceCore_kept (s : State) (c : CoreId) : (s.fenceCore c).kept = s.kept := by
  simp [State.fenceCore, kept_foldl]

@[simp] theorem State.haltRuns_kept (s : State) (c : CoreId) : (s.haltRuns c).kept = s.kept := (rfl)

@[simp] theorem State.stopEngines_kept (s : State) (c : CoreId) : (s.stopEngines c).kept = s.kept := (rfl)

@[simp] theorem State.failPreparing_kept (s : State) (c : CoreId) (status : ℕ) : (s.failPreparing c status).kept = s.kept := by
  simp [State.failPreparing]

@[simp] theorem State.failTask_kept (s : State) (c : CoreId) (status : ℕ) : (s.failTask c status).kept = s.kept := by
  simp only [State.failTask]; split <;> simp

@[simp] theorem State.endHeldCore_kept (s : State) (c : CoreId) : (s.endHeldCore c).kept = s.kept := by
  simp [State.endHeldCore, kept_foldl]

/-! #### The sequencer -/

@[simp] theorem State.seqNext_kept (s : State) (c : CoreId) (f : SeqState → SeqState) : (s.seqNext c f).kept = s.kept := (rfl)

@[simp] theorem State.seqWait_kept (s : State) (c : CoreId) (w : SeqWait) : (s.seqWait c w).kept = s.kept := (rfl)

@[simp] theorem State.imemCorrected_kept (s : State) (c : CoreId) (flt : FetchFault) : (s.imemCorrected c flt).kept = s.kept := by
  simp [State.imemCorrected]

@[simp] theorem State.seqStep_kept (s : State) (c : CoreId) (flt : FetchFault) (mine : ℕ → Bool) (body : Word → State → State)
    (h0 : ∀ z0 z1, (body z0 z1).kept = z1.kept) : (s.seqStep c flt mine body).kept = s.kept := by
  simp only [State.seqStep]; (repeat' split) <;> simp_all

@[simp] theorem State.seqPure_kept (s : State) (c : CoreId) (flt : FetchFault) (o : ℕ) (f : Word → SeqState → SeqState) :
    Keeps s.kept (s.seqPure c flt o f) := by
  simp [State.seqPure]

@[simp] theorem execAdd_kept (c : CoreId) (flt : FetchFault) (s : State) : Keeps s.kept (execAdd c flt s) := by simp [execAdd]

@[simp] theorem execSub_kept (c : CoreId) (flt : FetchFault) (s : State) : Keeps s.kept (execSub c flt s) := by simp [execSub]

@[simp] theorem execMul_kept (c : CoreId) (flt : FetchFault) (s : State) : Keeps s.kept (execMul c flt s) := by simp [execMul]

@[simp] theorem execMulhu_kept (c : CoreId) (flt : FetchFault) (s : State) : Keeps s.kept (execMulhu c flt s) := by
  simp [execMulhu]

@[simp] theorem execMulhs_kept (c : CoreId) (flt : FetchFault) (s : State) : Keeps s.kept (execMulhs c flt s) := by
  simp [execMulhs]

@[simp] theorem execAnd_kept (c : CoreId) (flt : FetchFault) (s : State) : Keeps s.kept (execAnd c flt s) := by simp [execAnd]

@[simp] theorem execOr_kept (c : CoreId) (flt : FetchFault) (s : State) : Keeps s.kept (execOr c flt s) := by simp [execOr]

@[simp] theorem execXor_kept (c : CoreId) (flt : FetchFault) (s : State) : Keeps s.kept (execXor c flt s) := by simp [execXor]

@[simp] theorem execShl_kept (c : CoreId) (flt : FetchFault) (s : State) : Keeps s.kept (execShl c flt s) := by simp [execShl]

@[simp] theorem execShr_kept (c : CoreId) (flt : FetchFault) (s : State) : Keeps s.kept (execShr c flt s) := by simp [execShr]

@[simp] theorem execSar_kept (c : CoreId) (flt : FetchFault) (s : State) : Keeps s.kept (execSar c flt s) := by simp [execSar]

@[simp] theorem execMin_kept (c : CoreId) (flt : FetchFault) (s : State) : Keeps s.kept (execMin c flt s) := by simp [execMin]

@[simp] theorem execMax_kept (c : CoreId) (flt : FetchFault) (s : State) : Keeps s.kept (execMax c flt s) := by simp [execMax]

@[simp] theorem execMinu_kept (c : CoreId) (flt : FetchFault) (s : State) : Keeps s.kept (execMinu c flt s) := by simp [execMinu]

@[simp] theorem execMaxu_kept (c : CoreId) (flt : FetchFault) (s : State) : Keeps s.kept (execMaxu c flt s) := by simp [execMaxu]

@[simp] theorem execClz_kept (c : CoreId) (flt : FetchFault) (s : State) : Keeps s.kept (execClz c flt s) := by simp [execClz]

@[simp] theorem execAddi_kept (c : CoreId) (flt : FetchFault) (s : State) : Keeps s.kept (execAddi c flt s) := by simp [execAddi]

@[simp] theorem execSubi_kept (c : CoreId) (flt : FetchFault) (s : State) : Keeps s.kept (execSubi c flt s) := by simp [execSubi]

@[simp] theorem execMuli_kept (c : CoreId) (flt : FetchFault) (s : State) : Keeps s.kept (execMuli c flt s) := by simp [execMuli]

@[simp] theorem execMulhui_kept (c : CoreId) (flt : FetchFault) (s : State) : Keeps s.kept (execMulhui c flt s) := by
  simp [execMulhui]

@[simp] theorem execMulhsi_kept (c : CoreId) (flt : FetchFault) (s : State) : Keeps s.kept (execMulhsi c flt s) := by
  simp [execMulhsi]

@[simp] theorem execAndi_kept (c : CoreId) (flt : FetchFault) (s : State) : Keeps s.kept (execAndi c flt s) := by simp [execAndi]

@[simp] theorem execOri_kept (c : CoreId) (flt : FetchFault) (s : State) : Keeps s.kept (execOri c flt s) := by simp [execOri]

@[simp] theorem execXori_kept (c : CoreId) (flt : FetchFault) (s : State) : Keeps s.kept (execXori c flt s) := by simp [execXori]

@[simp] theorem execShli_kept (c : CoreId) (flt : FetchFault) (s : State) : Keeps s.kept (execShli c flt s) := by simp [execShli]

@[simp] theorem execShri_kept (c : CoreId) (flt : FetchFault) (s : State) : Keeps s.kept (execShri c flt s) := by simp [execShri]

@[simp] theorem execSari_kept (c : CoreId) (flt : FetchFault) (s : State) : Keeps s.kept (execSari c flt s) := by simp [execSari]

@[simp] theorem execMini_kept (c : CoreId) (flt : FetchFault) (s : State) : Keeps s.kept (execMini c flt s) := by simp [execMini]

@[simp] theorem execMaxi_kept (c : CoreId) (flt : FetchFault) (s : State) : Keeps s.kept (execMaxi c flt s) := by simp [execMaxi]

@[simp] theorem execMinui_kept (c : CoreId) (flt : FetchFault) (s : State) : Keeps s.kept (execMinui c flt s) := by
  simp [execMinui]

@[simp] theorem execMaxui_kept (c : CoreId) (flt : FetchFault) (s : State) : Keeps s.kept (execMaxui c flt s) := by
  simp [execMaxui]

@[simp] theorem execLi_kept (c : CoreId) (flt : FetchFault) (s : State) : Keeps s.kept (execLi c flt s) := by simp [execLi]

@[simp] theorem execLih_kept (c : CoreId) (flt : FetchFault) (s : State) : Keeps s.kept (execLih c flt s) := by simp [execLih]

@[simp] theorem State.spdCorrected_kept (s : State) (c : CoreId) : (s.spdCorrected c).kept = s.kept := (rfl)

@[simp] theorem State.load_kept (s : State) (c : CoreId) (ecc : EccFault) (w : Word) : (s.load c ecc w).kept = s.kept := by
  unfold State.load; split <;> simp

@[simp] theorem State.narrowStore_kept (s : State) (c : CoreId) (w : Word) : (s.narrowStore c w).kept = s.kept := by
  simp [State.narrowStore]

@[simp] theorem execLd_kept (c : CoreId) (flt : FetchFault) (ecc : EccFault) (s : State) : Keeps s.kept (execLd c flt ecc s) := by
  simp [execLd]

@[simp] theorem execSt_kept (c : CoreId) (flt : FetchFault) (s : State) : Keeps s.kept (execSt c flt s) := by simp [execSt]

@[simp] theorem State.retryLine_kept (s : State) (c : CoreId) : (s.retryLine c).kept = s.kept := by simp [State.retryLine]

@[simp] theorem execMovs_kept (c : CoreId) (flt : FetchFault) (s : State) : Keeps s.kept (execMovs c flt s) := by simp [execMovs]

@[simp] theorem execFence_kept (c : CoreId) (flt : FetchFault) (s : State) : Keeps s.kept (execFence c flt s) := by
  simp [execFence]

@[simp] theorem execFenceComplete_kept (c : CoreId) (s : State) : Keeps s.kept (execFenceComplete c s) := by
  simp [execFenceComplete]

@[simp] theorem execCeq_kept (c : CoreId) (flt : FetchFault) (s : State) : Keeps s.kept (execCeq c flt s) := by simp [execCeq]

@[simp] theorem execCne_kept (c : CoreId) (flt : FetchFault) (s : State) : Keeps s.kept (execCne c flt s) := by simp [execCne]

@[simp] theorem execClt_kept (c : CoreId) (flt : FetchFault) (s : State) : Keeps s.kept (execClt c flt s) := by simp [execClt]

@[simp] theorem execCltu_kept (c : CoreId) (flt : FetchFault) (s : State) : Keeps s.kept (execCltu c flt s) := by simp [execCltu]

@[simp] theorem execCle_kept (c : CoreId) (flt : FetchFault) (s : State) : Keeps s.kept (execCle c flt s) := by simp [execCle]

@[simp] theorem execCleu_kept (c : CoreId) (flt : FetchFault) (s : State) : Keeps s.kept (execCleu c flt s) := by simp [execCleu]

@[simp] theorem execCtst_kept (c : CoreId) (flt : FetchFault) (s : State) : Keeps s.kept (execCtst c flt s) := by simp [execCtst]

@[simp] theorem execFand_kept (c : CoreId) (flt : FetchFault) (s : State) : Keeps s.kept (execFand c flt s) := by simp [execFand]

@[simp] theorem execForF_kept (c : CoreId) (flt : FetchFault) (s : State) : Keeps s.kept (execForF c flt s) := by simp [execForF]

@[simp] theorem execFxor_kept (c : CoreId) (flt : FetchFault) (s : State) : Keeps s.kept (execFxor c flt s) := by simp [execFxor]

@[simp] theorem execFandn_kept (c : CoreId) (flt : FetchFault) (s : State) : Keeps s.kept (execFandn c flt s) := by
  simp [execFandn]

@[simp] theorem execFmov_kept (c : CoreId) (flt : FetchFault) (s : State) : Keeps s.kept (execFmov c flt s) := by simp [execFmov]

@[simp] theorem execNop_kept (c : CoreId) (flt : FetchFault) (s : State) : Keeps s.kept (execNop c flt s) := by simp [execNop]

@[simp] theorem State.seqControl_kept (s : State) (c : CoreId) (flt : FetchFault) (o : Nat) (f : SeqState → Word → Control) :
    Keeps s.kept (s.seqControl c flt o f) :=
  keeps_next.mpr (State.seqStep_kept _ _ _ _ _ fun w t => by split <;> simp)

@[simp] theorem execLoop_kept (c : CoreId) (flt : FetchFault) (s : State) : Keeps s.kept (execLoop c flt s) := by simp [execLoop]

@[simp] theorem execBr_kept (c : CoreId) (flt : FetchFault) (s : State) : Keeps s.kept (execBr c flt s) := by simp [execBr]

@[simp] theorem execCall_kept (c : CoreId) (flt : FetchFault) (s : State) : Keeps s.kept (execCall c flt s) := by simp [execCall]

@[simp] theorem execRet_kept (c : CoreId) (flt : FetchFault) (s : State) : Keeps s.kept (execRet c flt s) := by simp [execRet]

@[simp] theorem execLbrk_kept (c : CoreId) (flt : FetchFault) (s : State) : Keeps s.kept (execLbrk c flt s) := by simp [execLbrk]

@[simp] theorem execHalt_kept (c : CoreId) (flt : FetchFault) (s : State) : Keeps s.kept (execHalt c flt s) := by simp [execHalt]

@[simp] theorem execHaltComplete_kept (c : CoreId) (s : State) : Keeps s.kept (execHaltComplete c s) := by
  unfold execHaltComplete; split <;> simp

@[simp] theorem execDrain_kept (c : CoreId) (flt : FetchFault) (s : State) : Keeps s.kept (execDrain c flt s) := by
  simp [execDrain]

@[simp] theorem execDrainComplete_kept (c : CoreId) (s : State) : Keeps s.kept (execDrainComplete c s) := by
  simp [execDrainComplete]

@[simp] theorem execTset_kept (c : CoreId) (flt : FetchFault) (s : State) : Keeps s.kept (execTset c flt s) := by simp [execTset]

@[simp] theorem execTwait_kept (c : CoreId) (flt : FetchFault) (s : State) : Keeps s.kept (execTwait c flt s) := by
  simp [execTwait]

@[simp] theorem State.seqSync_kept (s : State) (c : CoreId) (flt : FetchFault) (o : ℕ) (body : Word → ℕ → State → State)
    (h0 : ∀ z0 z1 z2, (body z0 z1 z2).kept = z2.kept) : Keeps s.kept (s.seqSync c flt o body) := by
  simp_all [State.seqSync]

@[simp] theorem execSig_kept (c : CoreId) (flt : FetchFault) (s : State) : Keeps s.kept (execSig c flt s) := by simp [execSig]

@[simp] theorem execSwait_kept (c : CoreId) (flt : FetchFault) (s : State) : Keeps s.kept (execSwait c flt s) := by
  simp [execSwait]

@[simp] theorem execSrd_kept (c : CoreId) (flt : FetchFault) (s : State) : Keeps s.kept (execSrd c flt s) := by simp [execSrd]

@[simp] theorem execSset_kept (c : CoreId) (flt : FetchFault) (s : State) : Keeps s.kept (execSset c flt s) := by simp [execSset]

@[simp] theorem execSeqWaitResume_kept (c : CoreId) (s : State) : Keeps s.kept (execSeqWaitResume c s) := by
  simp only [execSeqWaitResume]; split <;> simp

@[simp] theorem execWaitTimeout_kept (c : CoreId) (s : State) : Keeps s.kept (execWaitTimeout c s) := by
  simp only [execWaitTimeout]; split <;> simp

@[simp] theorem execWopen_kept (c : CoreId) (flt : FetchFault) (s : State) : Keeps s.kept (execWopen c flt s) := by
  simp [execWopen]

@[simp] theorem execWclose_kept (c : CoreId) (flt : FetchFault) (s : State) : Keeps s.kept (execWclose c flt s) := by
  simp [execWclose]

@[simp] theorem execEvt_kept (c : CoreId) (flt : FetchFault) (s : State) : Keeps s.kept (execEvt c flt s) := by simp [execEvt]

@[simp] theorem State.issue_kept (s : State) (c : CoreId) (w : Word) : (s.issue c w).kept = s.kept := by
  unfold State.issue
  dsimp only
  split
  · rw [State.seqWait_kept]
  · rw [State.seqNext_kept, State.modEng_kept]

@[simp] theorem execIssue_kept (c : CoreId) (flt : FetchFault) (s : State) : Keeps s.kept (execIssue c flt s) := by
  simp [execIssue]

@[simp] theorem execIssueUnblock_kept (c : CoreId) (s : State) : Keeps s.kept (execIssueUnblock c s) := by simp [execIssueUnblock]

/-! #### The fabric -/

@[simp] theorem State.modFab_kept (s : State) (f : FabState → FabState) : (s.modFab f).kept = s.kept := (rfl)

@[simp] theorem State.modLink_kept (s : State) (p : Fin 6) (f : FabPort → FabPort) : (s.modLink p f).kept = s.kept := (rfl)

@[simp] theorem State.fabPost_kept (s : State) (code : ℕ) : (s.fabPost code).kept = s.kept := (rfl)

@[simp] theorem State.fabDrop_kept (s : State) (k : Fin 4) : (s.fabDrop k).kept = s.kept := (rfl)

@[simp] theorem State.freeEntry_kept (s : State) (e : FabEntry) : (s.freeEntry e).kept = s.kept := by
  unfold State.freeEntry; split <;> simp

@[simp] theorem State.fabPump_kept (s : State) (p : Fin 6) (n : Nat) : (s.fabPump p n).kept = s.kept := by
  induction n generalizing s with
  | zero => rfl
  | succ n ih => unfold State.fabPump; split <;> simp [ih]

@[simp] theorem State.fabSend_kept (s : State) (p : Fin 6) : (s.fabSend p).kept = s.kept := by simp [State.fabSend]

@[simp] theorem State.fabQueue_kept (s : State) (p : Fin 6) (e : FabEntry) : (s.fabQueue p e).kept = s.kept := by
  simp [State.fabQueue]

@[simp] theorem State.fabDown_kept (s : State) (p : Fin 6) : (s.fabDown p).kept = s.kept := by simp [State.fabDown, kept_foldl]

@[simp] theorem State.fabLinkDown_kept (s : State) (p : Fin 6) : (s.fabLinkDown p).kept = s.kept := by simp [State.fabLinkDown]

@[simp] theorem State.fabTrained_kept (s : State) (p : Fin 6) (lanes : BitVec 5) : (s.fabTrained p lanes).kept = s.kept := by
  simp only [State.fabTrained]; (repeat' split) <;> simp

@[simp] theorem State.laneRetire_kept (s : State) (p : Fin 6) (l : Fin 5) : (s.laneRetire p l).kept = s.kept := by
  simp [State.laneRetire]

@[simp] theorem execFabricLaneRetire_kept (p : Fin 6) (l : Fin 5) (s : State) : Keeps s.kept (execFabricLaneRetire p l s) := by
  simp [execFabricLaneRetire]

@[simp] theorem State.badCodeword_kept (s : State) (p : Fin 6) : (s.badCodeword p).kept = s.kept := by simp [State.badCodeword]

@[simp] theorem execUncorrectableCodeword_kept (p : Fin 6) (s : State) : Keeps s.kept (execUncorrectableCodeword p s) := by
  simp [execUncorrectableCodeword]

@[simp] theorem State.replayEvent_kept (s : State) (p : Fin 6) : (s.replayEvent p).kept = s.kept := by simp [State.replayEvent]

@[simp] theorem State.creditIn_kept (s : State) (p : Fin 6) (cnt : Vector (BitVec 16) 4) (ack : BitVec 32) (nak : Bool) :
    (s.creditIn p cnt ack nak).kept = s.kept := by
  simp [State.creditIn]

@[simp] theorem execCreditSend_kept (p : Fin 6) (s : State) : Keeps s.kept (execCreditSend p s) := by simp [execCreditSend]

@[simp] theorem State.linkTick_kept (s : State) (p : Fin 6) : (s.linkTick p).kept = s.kept := by
  simp only [State.linkTick]; (repeat' split) <;> simp [kept_foldl]

@[simp] theorem State.retrain_kept (s : State) (p : Fin 6) (ini : Ini) : (s.retrain p ini).kept = s.kept := by
  simp [State.retrain]

@[simp] theorem State.fabRoute_kept (s : State) (e : FabEntry) : (s.fabRoute e).kept = s.kept := by
  simp only [State.fabRoute]; split <;> simp

@[simp] theorem State.fabIssue_kept (s : State) (typ : Fin 8) (ini : Ini) (dst : BitVec 15) (a0 : Word) (a1 : Word)
    (payload : List Byte) : (s.fabIssue typ ini dst a0 a1 payload).kept = s.kept := by
  simp [State.fabIssue]

@[simp] theorem State.fabSignal_kept (s : State) (ini : Ini) (dst : BitVec 15) (core : ℕ) (sync : ℕ) (v : Word) :
    (s.fabSignal ini dst core sync v).kept = s.kept := by
  simp [State.fabSignal]

@[simp] theorem State.fabWrite_kept (s : State) (ini : Ini) (dst : BitVec 15) (addr : ℕ) (data : List Byte) :
    (s.fabWrite ini dst addr data).kept = s.kept := by
  simp [State.fabWrite]

@[simp] theorem State.sigx_kept (s : State) (c : CoreId) (w : Word) : (s.sigx c w).kept = s.kept := by simp [State.sigx]

@[simp] theorem execSigx_kept (c : CoreId) (flt : FetchFault) (s : State) : Keeps s.kept (execSigx c flt s) := by simp [execSigx]

@[simp] theorem State.mgmtIn_kept (s : State) (p : Fin 6) (sub : ℕ) (m : MgmtHead) (use : State → State) (h0 : ∀ z0,
    (use z0).kept = z0.kept) : (s.mgmtIn p sub m use).kept = s.kept := by
  simp only [State.mgmtIn]; (repeat' split) <;> simp_all

@[simp] theorem State.fabFragment_kept (s : State) (p : Fin 6) (k : FabPkt) : (s.fabFragment p k).kept = s.kept := (rfl)

@[simp] theorem State.fabMgmt_kept (s : State) (e : FabEntry) (q : FabPkt) : (s.fabMgmt e q).kept = s.kept := by
  simp only [State.fabMgmt]; (repeat' split) <;> simp

@[simp] theorem State.fabForward_kept (s : State) (p : Fin 6) (k : FabPkt) : (s.fabForward p k).kept = s.kept := by
  simp only [State.fabForward]; (repeat' split) <;> simp

@[simp] theorem execFabricPacketForward_kept (p : Fin 6) (k : FabPkt) (s : State) :
    Keeps s.kept (execFabricPacketForward p k s) := by
  simp [execFabricPacketForward]

@[simp] theorem State.apertureWrites_kept (s : State) (i : Ini) (who : Sender) (a : ℕ) (data : List Byte) :
    (s.apertureWrites i who a data).kept = s.kept := by
  simp [State.apertureWrites, kept_foldl]

@[simp] theorem State.fabTake_kept (s : State) (typ : Fin 8) (use : FabPkt → State → State) (h0 : ∀ z0 z1,
    (use z0 z1).kept = z1.kept) : (s.fabTake typ use).kept = s.kept := by
  simp only [State.fabTake]; (repeat' split) <;> simp_all

@[simp] theorem State.fabWriteIn_kept (k : FabPkt) (s : State) : (State.fabWriteIn k s).kept = s.kept := by
  simp [State.fabWriteIn]

@[simp] theorem execWrite_kept (s : State) : Keeps s.kept (execWrite s) := by simp [execWrite]

@[simp] theorem State.fabSignalIn_kept (k : FabPkt) (s : State) : (State.fabSignalIn k s).kept = s.kept := by
  simp [State.fabSignalIn]

@[simp] theorem execSignal_kept (s : State) : Keeps s.kept (execSignal s) := by simp [execSignal]

/-! #### Discovery -/

@[simp] theorem execHelloSend_kept (p : Fin 6) (s : State) : Keeps s.kept (execHelloSend p s) := by simp [execHelloSend]

@[simp] theorem State.helloIn_kept (s : State) (p : Fin 6) (m : MgmtHead) (h : Hello) : (s.helloIn p m h).kept = s.kept := by
  simp [State.helloIn]

@[simp] theorem State.sendMgmt_kept (s : State) (route : List (Fin 6)) (m : FabMgmt) : (s.sendMgmt route m).kept = s.kept := by
  unfold State.sendMgmt; split <;> simp

@[simp] theorem State.askSurvey_kept (s : State) (route : List (Fin 6)) : (s.askSurvey route).kept = s.kept := by
  simp [State.askSurvey]

@[simp] theorem State.surveyFault_kept (s : State) : (s.surveyFault).kept = s.kept := (rfl)

@[simp] theorem State.assignSelf_kept (s : State) (addr : BitVec 15) (size : Vector (Fin 9) 3) (wrap : Vector Bool 3)
    (map : FabMap) : (s.assignSelf addr size wrap map).kept = s.kept :=
  (rfl)

@[simp] theorem State.unassign_kept (s : State) : (s.unassign).kept = s.kept := (rfl)

@[simp] theorem State.surveyEnd_kept (s : State) (v : Survey) : (s.surveyEnd v).kept = s.kept := by
  simp only [State.surveyEnd, State.fabPost_kept, State.assignSelf_kept, State.modFab_kept]
  rw [kept_foldl fun t n => State.sendMgmt_kept _ _ _]
  split <;> simp

@[simp] theorem State.surveyOn_kept (s : State) (n : SurveyNode) : (s.surveyOn n).kept = s.kept := by
  unfold State.surveyOn; refine kept_foldl (fun t a => ?_) _ _; (repeat' split) <;> simp

@[simp] theorem State.surveyCheck_kept (s : State) : (s.surveyCheck).kept = s.kept := by unfold State.surveyCheck; split <;> simp

@[simp] theorem State.discoveryStart_kept (s : State) : (s.discoveryStart).kept = s.kept := by simp [State.discoveryStart]

@[simp] theorem execDiscoveryStart_kept (s : State) : Keeps s.kept (execDiscoveryStart s) := by simp [execDiscoveryStart]

@[simp] theorem State.surveyIn_kept (s : State) (p : Fin 6) (route : List (Fin 6)) : (s.surveyIn p route).kept = s.kept := by
  simp only [State.surveyIn]; split <;> simp

@[simp] theorem State.remap_kept (s : State) : (s.remap).kept = s.kept := by
  simp only [State.remap]
  split
  · rfl
  · rw [State.fabPost_kept, State.modFab_kept]
    exact kept_foldl (fun t n => by split <;> simp) _ _

@[simp] theorem State.endsChanged_kept (s : State) (ident : Word) (peers : Vector (Option Word) 6) :
    (s.endsChanged ident peers).kept = s.kept := by
  simp [State.endsChanged]

@[simp] theorem State.linksChanged_kept (s : State) : (s.linksChanged).kept = s.kept := by
  simp only [State.linksChanged]; (repeat' split) <;> simp

@[simp] theorem State.reportIn_kept (s : State) (route : List (Fin 6)) (ident : Word) (origin : Bool) (peers : Vector
    (Option Word) 6) : (s.reportIn route ident origin peers).kept = s.kept := by
  simp only [State.reportIn]; (repeat' split) <;> simp

@[simp] theorem State.newMap_kept (s : State) (map : FabMap) : (s.newMap map).kept = s.kept := (rfl)

@[simp] theorem State.messageWork_kept (s : State) (p : Fin 6) (m : FabMgmt) : (s.messageWork p m).kept = s.kept := by
  unfold State.messageWork; split <;> simp

@[simp] theorem State.bridgeStore_kept (s : State) (k : Fin 2) (v : Word) : (s.bridgeStore k v).kept = s.kept := (rfl)

@[simp] theorem State.mgmtWork_kept (s : State) (w : MgmtWork) : (s.mgmtWork w).kept = s.kept := by
  unfold State.mgmtWork; split <;> simp

@[simp] theorem State.mgmtServe_kept (s : State) : (s.mgmtServe).kept = s.kept := by unfold State.mgmtServe; split <;> simp

@[simp] theorem State.mgmtArrive_kept (s : State) (w : MgmtWork) : (s.mgmtArrive w).kept = s.kept := by
  simp [State.mgmtArrive, kept_foldl]

@[simp] theorem State.watchLinks_kept (s : State) (f : State → State) (h0 : ∀ z0, (f z0).kept = z0.kept) :
    (s.watchLinks f).kept = s.kept := by
  simp_all [State.watchLinks]

@[simp] theorem execFabricPortTrained_kept (p : Fin 6) (lanes : BitVec 5) (s : State) :
    Keeps s.kept (execFabricPortTrained p lanes s) := by
  simp [execFabricPortTrained]

@[simp] theorem execFabricLinkDown_kept (p : Fin 6) (s : State) : Keeps s.kept (execFabricLinkDown p s) := by
  simp [execFabricLinkDown]

@[simp] theorem execFabPortRetrain_kept (p : Fin 6) (ini : Initiator) (s : State) :
    Keeps s.kept (execFabPortRetrain p ini s) := by
  simp [execFabPortRetrain]

@[simp] theorem execHello_kept (p : MgmtAt) (h : Hello) (s : State) : Keeps s.kept (execHello p h s) := by simp [execHello]

@[simp] theorem execCredit_kept (p : Fin 6) (cnt : Vector (BitVec 16) 4) (ack : BitVec 32) (nak : Bool) (s : State) :
    Keeps s.kept (execCredit p cnt ack nak s) := by
  simp [execCredit]

@[simp] theorem execSurvey_kept (p : MgmtAt) (route : List (Fin 6)) (s : State) : Keeps s.kept (execSurvey p route s) := by
  simp [execSurvey]

@[simp] theorem execReport_kept (p : MgmtAt) (route : List (Fin 6)) (who : ModuleIdent) (peers : Vector (Option Word) 6)
    (s : State) : Keeps s.kept (execReport p route who peers s) := by
  simp [execReport]

@[simp] theorem execAssign_kept (p : MgmtAt) (addr : BitVec 15) (shape : SliceShape) (map : FabMap) (s : State) :
    Keeps s.kept (execAssign p addr shape map s) := by
  simp [execAssign]

@[simp] theorem execFailureMap_kept (x : MapAt) (s : State) : Keeps s.kept (execFailureMap x s) := by simp [execFailureMap]

/-! #### The engines -/

@[simp] theorem State.bankWrite_kept (s : State) (c : CoreId) (a : ℕ) (bs : List Byte) : (s.bankWrite c a bs).kept = s.kept :=
  (rfl)

@[simp] theorem State.enginePut_kept (s : State) (c : CoreId) (e : Fin 7) (narrow : Bool) (unit : ℕ) (a : ℕ) (bs : List Byte) :
    (s.enginePut c e narrow unit a bs).kept = s.kept :=
  (rfl)

@[simp] theorem State.wideWrite_kept (s : State) (c : CoreId) (e : Fin 7) (a : ℕ) (bs : List Byte) :
    (s.wideWrite c e a bs).kept = s.kept :=
  (rfl)

@[simp] theorem State.narrowPut_kept (s : State) (c : CoreId) (e : Fin 7) (a : ℕ) (bs : List Byte) :
    (s.narrowPut c e a bs).kept = s.kept :=
  (rfl)

@[simp] theorem State.keepLine_kept (s : State) (c : CoreId) (e : Fin 7) (l : ℕ) (bs : List Byte) :
    (s.keepLine c e l bs).kept = s.kept :=
  (rfl)

@[simp] theorem State.loseAccess_kept (s : State) (c : CoreId) (e : Fin 7) : (s.loseAccess c e).kept = s.kept := (rfl)

@[simp] theorem State.readLines_kept (c : CoreId) (e : Fin 7) (ls : List Nat) (s : State) :
    (State.readLines c e ls s).2.kept = s.kept := by
  induction ls generalizing s with
  | nil => rfl
  | cons l ls ih => simp only [State.readLines]; (repeat' split) <;> simp [ih]

@[simp] theorem State.showLines_kept (s : State) (c : CoreId) (e : Fin 7) : (s.showLines c e).kept = s.kept := (rfl)

@[simp] theorem State.withMem_kept (s : State) (c : CoreId) (m : Mem) : (s.withMem c m).kept = s.kept := (rfl)

@[simp] theorem State.overSpd_kept (s : State) (c : CoreId) (e : Fin 7) (rs : List (Nat × Nat)) {work : State → EngineRun}
    (h : ∀ t, (work t).Keeps t.kept) : (s.overSpd c e rs work).Keeps s.kept := by
  have hlast := h ((State.readLines c e (rangeLines rs) s).2.showLines c e)
  simp only [State.showLines_kept, State.readLines_kept] at hlast
  simp only [State.overSpd]
  split
  · exact (EngineRun.keeps_onHold (by simp) _).mpr (h s)
  · split
    · exact (EngineRun.keeps_map (by simp) _).mpr hlast
    · simp

@[simp] theorem State.noteLost_kept (s : State) (c : CoreId) (e : Fin 7) : (s.noteLost c e).kept = s.kept := by
  simp [State.noteLost]

@[simp] theorem State.finishWork_kept (s : State) (c : CoreId) (e : Fin 7) : (s.finishWork c e).kept = s.kept := by
  simp [State.finishWork]

@[simp] theorem State.performed_kept (s : State) (c : CoreId) (e : Fin 7) : (s.performed c e).kept = s.kept := by
  simp [State.performed]

@[simp] theorem State.engineRefuse_kept (s : State) (c : CoreId) (e : Fin 7) (event : ℕ) (src : Ini) :
    (s.engineRefuse c e event src).kept = s.kept := by
  simp [State.engineRefuse]

@[simp] theorem State.engineWork_kept (s : State) (c : CoreId) (e : Fin 7) (ev : Nat)
    (src : Ini) {run : EngCmd → State → EngineRun} (h : ∀ q t, (run q t).Keeps t.kept) : (s.engineWork c e ev src run).kept = s.kept := by
  unfold State.engineWork
  split
  · rfl
  next q _ =>
    have hq := h q s
    (repeat' split) <;> simp_all

@[simp] theorem State.engineStep_kept (s : State) (c : CoreId) (e : Fin 7) (mine listed : Nat → Bool) (ev : Nat)
    (src : Ini) {run : EngCmd → State → EngineRun} (h : ∀ q t, (run q t).Keeps t.kept) : (s.engineStep c e mine listed ev src run).kept = s.kept := by
  have hrun : ∀ (q : EngCmd) (t : State), (if mine q.opc then run q t else EngineRun.refuse).Keeps t.kept := by
    intro q t; split <;> simp [h]
  simp only [State.engineStep]
  (repeat' split) <;> simp [hrun]

@[simp] theorem State.engineComplete_kept (s : State) (c : CoreId) (e : Fin 7) : (s.engineComplete c e).kept = s.kept := by
  simp only [State.engineComplete]; (repeat' split) <;> simp

@[simp] theorem State.ddrReadFree_kept (s : State) (who : DdrWho) (a n : Nat) : (s.ddrReadFree who a n).1.kept = s.kept := by
  unfold State.ddrReadFree
  split
  next t bs h => exact State.kept_of_ddrRead h
  next t h => simp [State.kept_of_ddrRead h]

@[simp] theorem State.fetLines_kept (c : CoreId) (who : DdrWho) (n : Nat) (l : List (Nat × Nat)) (s : State) :
    (State.fetLines c who n l s).Keeps s.kept := by
  induction l generalizing s n with
  | nil => simp [State.fetLines]
  | cons x l ih =>
    have hr := State.ddrRead_kept s who x.1 256
    simp only [State.fetLines]
    split
    · simp
    · split
      next t h => simpa [h] using hr
      next t bs h =>
        have := ih (n + 1) (if t.cores[c].spd.lineOn (x.2 / 256) then t.bankWrite c x.2 bs else t.loseAccess c 0)
        simp_all

@[simp] theorem State.fetFrom_kept (s : State) (c : CoreId) (who : DdrWho) (lines : List (ℕ × ℕ)) :
    (s.fetFrom c who lines).Keeps s.kept := by
  simp [State.fetFrom]

@[simp] theorem State.fetLinear_kept (s : State) (c : CoreId) (q : EngCmd) : (s.fetLinear c q).Keeps s.kept := by
  simp only [State.fetLinear]; split <;> simp

@[simp] theorem State.fet2d_kept (s : State) (c : CoreId) (q : EngCmd) : (s.fet2d c q).Keeps s.kept := by
  simp only [State.fet2d]; split <;> simp

@[simp] theorem execFetLinear_kept (c : CoreId) (s : State) : Keeps s.kept (execFetLinear c s) := by simp [execFetLinear]

@[simp] theorem execFet2d_kept (c : CoreId) (s : State) : Keeps s.kept (execFet2d c s) := by simp [execFet2d]

/-! #### The matrix engine -/

@[simp] theorem State.modMxe_kept (s : State) (c : CoreId) (f : MxeState → MxeState) : (s.modMxe c f).kept = s.kept := (rfl)

@[simp] theorem State.mmEnd_kept (s : State) (c : CoreId) (f : MmFlags) (steps : ℕ) : (s.mmEnd c f steps).kept = s.kept := by
  simp [State.mmEnd]

@[simp] theorem State.onRamp_kept (s : State) (c : CoreId) {go : State → EngineRun} (h : ∀ t, (go t).Keeps t.kept) :
    (s.onRamp c go).Keeps s.kept := by
  unfold State.onRamp
  split
  · simp
  · exact (EngineRun.keeps_onHold (by simp) _).mpr (h s)

@[simp] theorem State.steps_kept (s : State) (c : CoreId) {go : State → EngineRun} (h : ∀ t, (go t).Keeps t.kept) :
    (s.steps c go).Keeps s.kept := by
  unfold State.steps; split <;> simp [h]

@[simp] theorem State.tiles_kept (s : State) (c : CoreId) (mb : ℕ) (nb : ℕ) (coff : ℕ) (tb : ℕ)
    (tile : ℕ → ℕ → MmFlags → List Byte × MmFlags) : (s.tiles c mb nb coff tb tile).1.kept = s.kept := by
  unfold State.tiles; refine kept_foldl_fst (fun t a => ?_) _ _; simp

@[simp] theorem State.onZeroPoints_kept (s : State) (c : CoreId) (x : MmCmd) {go : State → EngineRun} (h : ∀ t,
    (go t).Keeps t.kept) : (s.onZeroPoints c x go).Keeps s.kept := by
  unfold State.onZeroPoints
  split
  · exact State.overSpd_kept s c 1 _ fun t => by split <;> simp [h]
  · exact h s

@[simp] theorem State.mmWork_kept (s : State) (c : CoreId) (x : MmCmd) : (s.mmWork c x).kept = s.kept := by simp [State.mmWork]

@[simp] theorem State.mmul_kept (s : State) (c : CoreId) (q : EngCmd) : (s.mmul c q).Keeps s.kept := by
  simp only [State.mmul]
  split
  · simp
  · exact State.onRamp_kept _ _ fun t => State.onZeroPoints_kept _ _ _ fun t => State.overSpd_kept _ _ _ _ fun t =>
      State.steps_kept _ _ fun t => by simp

@[simp] theorem execMmul_kept (c : CoreId) (s : State) : Keeps s.kept (execMmul c s) := by simp [execMmul]

@[simp] theorem State.rampDown_kept (s : State) (c : CoreId) : (s.rampDown c).kept = s.kept := (rfl)

@[simp] theorem execMxeRampDown_kept (c : CoreId) (s : State) : Keeps s.kept (execMxeRampDown c s) := by simp [execMxeRampDown]

@[simp] theorem State.mxclr_kept (s : State) (c : CoreId) (h : Half) (v : Word) : (s.mxclr c h v).kept = s.kept := by
  simp [State.mxclr]

@[simp] theorem State.spclr_kept (s : State) (c : CoreId) (h : Half) (v : Word) : (s.spclr c h v).kept = s.kept := by
  simp [State.spclr]

@[simp] theorem execMxclr_kept (c : CoreId) (h : Half) (v : Word) (s : State) : Keeps s.kept (execMxclr c h v s) := by
  simp [execMxclr]

@[simp] theorem execSpclr_kept (c : CoreId) (h : Half) (v : Word) (s : State) : Keeps s.kept (execSpclr c h v s) := by
  simp [execSpclr]

@[simp] theorem State.engineFault_kept (s : State) (c : CoreId) (f : EngFault) : (s.engineFault c f).kept = s.kept := by
  simp [State.engineFault]

@[simp] theorem execMxeResidueError_kept (c : CoreId) (f : EngFault) (s : State) : Keeps s.kept (execMxeResidueError c f s) := by
  simp [execMxeResidueError]

/-! #### The vector engine -/

@[simp] theorem State.modVec_kept (s : State) (c : CoreId) (f : VecState → VecState) : (s.modVec c f).kept = s.kept := (rfl)

@[simp] theorem State.vecStore_kept (s : State) (c : CoreId) (a : ℕ) (bs : List Byte) : (s.vecStore c a bs).kept = s.kept := (rfl)

@[simp] theorem State.writeRow_kept (s : State) (c : CoreId) (t : Tensor) (fill r : Nat) (xs : List Nat) :
    (s.writeRow c t fill r xs).kept = s.kept := by
  simp only [State.writeRow]; split <;> simp [kept_foldl]

@[simp] theorem State.satRow_kept (s : State) (c : CoreId) (k : Fin 16) (n : ℕ) : (s.satRow c k n).kept = s.kept := by
  simp [State.satRow]

@[simp] theorem State.vecEnd_kept (s : State) (c : CoreId) (x : VCmd) (n : VecCnt) : (s.vecEnd c x n).kept = s.kept := by
  unfold State.vecEnd; split <;> simp

@[simp] theorem State.vecRun_kept (s : State) (c : CoreId) (x : VCmd) (ins : List (ℕ × ℕ)) (work : State → State × VecCnt)
    (h0 : ∀ z0, (work z0).1.kept = z0.kept) : (s.vecRun c x ins work).Keeps s.kept := by
  simp_all [State.vecRun]

@[simp] theorem State.vecRows_kept (s : State) (n : Nat) {row : State → Nat → State × VecCnt} (h : ∀ t r,
    (row t r).1.kept = t.kept) : (s.vecRows n row).1.kept = s.kept := by
  unfold State.vecRows
  exact kept_foldl_fst (fun t r => by simp [h]) _ _

@[simp] theorem State.ewWrite_kept (s : State) (c : CoreId) (x : VCmd) (p : SpdState) (r : ℕ) :
    (s.ewWrite c x p r).1.kept = s.kept := by
  simp only [State.ewWrite]; split <;> simp

@[simp] theorem State.ew_kept (s : State) (c : CoreId) (q : EngCmd) : (s.ew c q).Keeps s.kept := by
  simp only [State.ew]; (repeat' split) <;> simp

@[simp] theorem State.red_kept (s : State) (c : CoreId) (q : EngCmd) : (s.red c q).Keeps s.kept := by
  simp only [State.red]; split <;> simp

@[simp] theorem State.histWrite_kept (s : State) (c : CoreId) (d : ScaleDesc) (vs : List FV) :
    (s.histWrite c d vs).1.kept = s.kept :=
  (rfl)

@[simp] theorem State.hist_kept (s : State) (c : CoreId) (q : EngCmd) : (s.hist c q).Keeps s.kept := by
  unfold State.hist
  exact EngineRun.keeps_ite_refuse (State.overSpd_kept _ _ _ _ fun t => EngineRun.keeps_ite_refuse
    (State.vecRun_kept _ _ _ _ _ fun t => by simp))

@[simp] theorem State.qntWrite_kept (s : State) (c : CoreId) (x : VCmd) (p : SpdState) (d : ScaleDesc) (r : ℕ) :
    (s.qntWrite c x p d r).1.kept = s.kept := by
  simp [State.qntWrite]

@[simp] theorem State.qnt_kept (s : State) (c : CoreId) (q : EngCmd) : (s.qnt c q).Keeps s.kept := by
  unfold State.qnt
  refine EngineRun.keeps_ite_refuse (State.overSpd_kept _ _ _ _ fun t => EngineRun.keeps_ite_refuse
    (State.vecRun_kept _ _ _ _ _ fun t => ?_))
  dsimp only
  split <;> simp

@[simp] theorem State.rqWrite_kept (s : State) (c : CoreId) (x : VCmd) (p : SpdState) (r : ℕ) :
    (s.rqWrite c x p r).1.kept = s.kept := by
  simp [State.rqWrite]

@[simp] theorem State.rq_kept (s : State) (c : CoreId) (q : EngCmd) : (s.rq c q).Keeps s.kept := by
  unfold State.rq
  exact EngineRun.keeps_ite_refuse (State.overSpd_kept _ _ _ _ fun t => EngineRun.keeps_ite_refuse
    (State.vecRun_kept _ _ _ _ _ fun t => by simp))

@[simp] theorem State.dqWrite_kept (s : State) (c : CoreId) (x : VCmd) (p : SpdState) (d : ScaleDesc) (r : ℕ) :
    (s.dqWrite c x p d r).1.kept = s.kept := by
  simp [State.dqWrite]

@[simp] theorem State.dq_kept (s : State) (c : CoreId) (q : EngCmd) : (s.dq c q).Keeps s.kept := by
  unfold State.dq
  exact EngineRun.keeps_ite_refuse (State.overSpd_kept _ _ _ _ fun t => EngineRun.keeps_ite_refuse
    (State.vecRun_kept _ _ _ _ _ fun t => by simp))

@[simp] theorem State.vset_kept (s : State) (c : CoreId) (q : EngCmd) : (s.vset c q).Keeps s.kept := by
  unfold State.vset; split <;> simp

@[simp] theorem State.vecStep_kept (s : State) (c : CoreId) (op : ℕ) (run : EngCmd → State → EngineRun) (h0 : ∀ z0 z1,
    (run z0 z1).Keeps z1.kept) : (s.vecStep c op run).kept = s.kept := by
  simp_all [State.vecStep]

@[simp] theorem execEw_kept (c : CoreId) (s : State) : Keeps s.kept (execEw c s) := by simp [execEw]

@[simp] theorem execRed_kept (c : CoreId) (s : State) : Keeps s.kept (execRed c s) := by simp [execRed]

@[simp] theorem execQnt_kept (c : CoreId) (s : State) : Keeps s.kept (execQnt c s) := by simp [execQnt]

@[simp] theorem execRq_kept (c : CoreId) (s : State) : Keeps s.kept (execRq c s) := by simp [execRq]

@[simp] theorem execDq_kept (c : CoreId) (s : State) : Keeps s.kept (execDq c s) := by simp [execDq]

@[simp] theorem execHist_kept (c : CoreId) (s : State) : Keeps s.kept (execHist c s) := by simp [execHist]

@[simp] theorem execVset_kept (c : CoreId) (s : State) : Keeps s.kept (execVset c s) := by simp [execVset]

@[simp] theorem State.satcfg_kept (s : State) (c : CoreId) (k : Fin 16) (ini : Ini) (h : Half) (v : Word) :
    (s.satcfg c k ini h v).kept = s.kept := by
  simp [State.satcfg]

@[simp] theorem execSatcfgWrite_kept (c : CoreId) (k : Fin 16) (ini : Initiator) (h : Half) (v : Word) (s : State) :
    Keeps s.kept (execSatcfgWrite c k ini h v s) := by
  simp [execSatcfgWrite]

@[simp] theorem State.satAlarm_kept (s : State) (c : CoreId) (k : Fin 16) (h : Half) (v : Word) :
    (s.satAlarm c k h v).kept = s.kept := by
  simp [State.satAlarm]

@[simp] theorem State.vclr_kept (s : State) (c : CoreId) (h : Half) (v : Word) : (s.vclr c h v).kept = s.kept := by
  simp [State.vclr]

@[simp] theorem execVclr_kept (c : CoreId) (h : Half) (v : Word) (s : State) : Keeps s.kept (execVclr c h v s) := by
  simp [execVclr]

/-! #### Collectives -/

@[simp] theorem State.coStatus_kept (s : State) (id : ℕ) (w : BitVec 128) : (s.coStatus id w).kept = s.kept := (rfl)

@[simp] theorem State.coSignal_kept (s : State) (d : Rec64) : (s.coSignal d).kept = s.kept := by simp [State.coSignal]

@[simp] theorem State.coDrop_kept (s : State) (id : ℕ) : (s.coDrop id).kept = s.kept := (rfl)

@[simp] theorem State.dropFrags_kept (s : State) (p : FabPkt → Bool) : (s.dropFrags p).kept = s.kept := by
  simp [State.dropFrags, kept_foldl]

@[simp] theorem State.coAbort_kept (s : State) (o : ColOp) (cause : ℕ) : (s.coAbort o cause).kept = s.kept := by
  simp [State.coAbort]

@[simp] theorem State.coSend_kept (s : State) (o : ColOp) (d : ℕ) (plus : Bool) (down : Bool) (f : ℕ) (data : List Byte) :
    (s.coSend o d plus down f data).kept = s.kept := by
  simp [State.coSend]

@[simp] theorem State.modOp_kept (s : State) (id : ℕ) (f : ColOp → ColOp) : (s.modOp id f).kept = s.kept := (rfl)

@[simp] theorem State.coComplete_kept (s : State) (o : ColOp) : (s.coComplete o).kept = s.kept := by
  unfold State.coComplete; rw [State.coSignal_kept, State.coStatus_kept, State.coDrop_kept]

@[simp] theorem State.coResult_kept (s : State) (o : ColOp) (f : ℕ) (data : List Byte) : (s.coResult o f data).kept = s.kept := by
  simp [State.coResult]

@[simp] theorem State.coAdvance_kept (s : State) (id : ℕ) (k : ℕ) (f : ℕ) (data : List Byte) :
    (s.coAdvance id k f data).kept = s.kept := by
  simp only [State.coAdvance]; (repeat' split) <;> simp

@[simp] theorem State.coSource_kept (s : State) (o : ColOp) (f : ℕ) : (s.coSource o f).1.kept = s.kept := by
  unfold State.coSource; split <;> simp

@[simp] theorem State.coUp_kept (s : State) (o : ColOp) (k : ℕ) (d : ℕ) (f : ℕ) (got : List Byte) (own : List Byte) :
    (s.coUp o k d f got own).kept = s.kept := by
  simp [State.coUp]

@[simp] theorem State.coDiffer_kept (s : State) (o : ColOp) (k : FabPkt) : (s.coDiffer o k).kept = s.kept := by
  simp [State.coDiffer]

@[simp] theorem State.coMeet_kept (s : State) (o : ColOp) (k : FabPkt) : (s.coMeet o k).1.kept = s.kept := by
  have hs := State.coSource_kept s o (fld k.args0 8 24)
  simp only [State.coMeet]
  split
  · simp
  · split
    · simp
    · split
      · rfl
      · split
        · simp only [State.coAdvance_kept]; split <;> simp
        · split
          · split
            next t h => simpa [h] using hs
            next t own h => simpa [h] using hs
          · split <;> simp

@[simp] theorem State.coTake_kept (s : State) (p : Fin 6) (k : FabPkt) : (s.coTake p k).kept = s.kept := by
  unfold State.coTake; split <;> simp

@[simp] theorem State.coRetry_kept (s : State) : (s.coRetry).kept = s.kept := by simp [State.coRetry, kept_foldl]

@[simp] theorem State.coFragment_kept (s : State) (p : Fin 6) (k : FabPkt) : (s.coFragment p k).kept = s.kept := by
  simp only [State.coFragment]; (repeat' split) <;> simp

@[simp] theorem execCollFragment_kept (p : Fin 6) (k : FabPkt) (s : State) : Keeps s.kept (execCollFragment p k s) := by
  simp [execCollFragment]

@[simp] theorem State.coStart_kept (s : State) (o : ColOp) : (s.coStart o).kept = s.kept := by
  simp only [State.coStart, State.coRetry_kept, State.kept_ite]
  rw [kept_foldl, State.coStatus_kept, State.modFab_kept, ite_self]
  intro t f
  split
  · rfl
  next o _ =>
    have hs := State.coSource_kept t o f
    split
    next u h => simpa [h] using hs
    next u data h => simpa [h] using hs

@[simp] theorem State.colqWrite_kept (s : State) (ini : Ini) (off : ℕ) (data : List Byte) :
    (s.colqWrite ini off data).kept = s.kept := by
  simp [State.colqWrite]

@[simp] theorem execCollDescriptor_kept (ini : Initiator) (off : ℕ) (data : List Byte) (s : State) :
    Keeps s.kept (execCollDescriptor ini off data s) := by
  simp [execCollDescriptor]

@[simp] theorem State.colTimeout_kept (s : State) (id : Fin 256) : (s.colTimeout id).kept = s.kept := by simp [State.colTimeout]

@[simp] theorem execColTimeout_kept (id : Fin 256) (s : State) : Keeps s.kept (execColTimeout id s) := by simp [execColTimeout]

@[simp] theorem State.coAbortAll_kept (s : State) (p : Fin 4 → Bool) (cause : ℕ) : (s.coAbortAll p cause).kept = s.kept := by
  simp [State.coAbortAll, kept_foldl]

@[simp] theorem State.fabParity_kept (s : State) (f : FabFault) : (s.fabParity f).kept = s.kept := by
  unfold State.fabParity; split <;> simp

@[simp] theorem execFabricParityError_kept (f : FabFault) (s : State) : Keeps s.kept (execFabricParityError f s) := by
  simp [execFabricParityError]

/-! #### Tables -/

@[simp] theorem State.modNmg_kept (s : State) (f : NmgState → NmgState) : (s.modNmg f).kept = s.kept := (rfl)

@[simp] theorem State.modUnit_kept (s : State) (u : Fin 16) (f : NmgUnit → NmgUnit) : (s.modUnit u f).kept = s.kept := (rfl)

@[simp] theorem State.nmgPost_kept (s : State) (u : Fin 16) (code : ℕ) : (s.nmgPost u code).kept = s.kept := (rfl)

@[simp] theorem State.nmgTabWrite_kept (s : State) (t : Fin 64) (ini : Ini) (off : ℕ) (data : List Byte) :
    (s.nmgTabWrite t ini off data).kept = s.kept := by
  simp [State.nmgTabWrite]

@[simp] theorem execNmgTabWrite_kept (t : Fin 64) (ini : Initiator) (off : ℕ) (data : List Byte) (s : State) :
    Keeps s.kept (execNmgTabWrite t ini off data s) := by
  simp [execNmgTabWrite]

@[simp] theorem State.hsegWrite_kept (s : State) (p : Fin 4) (ini : Ini) (h : Half) (v : Word) :
    (s.hsegWrite p ini h v).kept = s.kept := by
  simp [State.hsegWrite]

@[simp] theorem execNmgHsegWrite_kept (p : Fin 4) (ini : Initiator) (h : Half) (v : Word) (s : State) :
    Keeps s.kept (execNmgHsegWrite p ini h v s) := by
  simp [execNmgHsegWrite]

@[simp] theorem State.nmgRefuse_kept (s : State) (u : Fin 16) (r : Rec64) : (s.nmgRefuse u r).kept = s.kept := (rfl)

@[simp] theorem State.nmgReqWrite_kept (s : State) (u : Fin 16) (p : Fin 4) (ini : Ini) (off : ℕ) (data : List Byte) :
    (s.nmgReqWrite u p ini off data).kept = s.kept := by
  simp [State.nmgReqWrite]

@[simp] theorem execNmgReqWrite_kept (u : Fin 16) (p : Fin 4) (ini : Initiator) (off : ℕ) (data : List Byte) (s : State) :
    Keeps s.kept (execNmgReqWrite u p ini off data s) := by
  simp [execNmgReqWrite]

@[simp] theorem State.takeReq_kept (s : State) (u : Fin 16) (p : Fin 4) : (s.takeReq u p).kept = s.kept := (rfl)

@[simp] theorem State.nmgStep_kept (s : State) (u : Fin 16) (kind : ℕ) (work : NmgReq → State → State) (h0 : ∀ z0 z1,
    (work z0 z1).kept = z1.kept) : (s.nmgStep u kind work).kept = s.kept := by
  simp only [State.nmgStep]; (repeat' split) <;> simp_all

@[simp] theorem State.hotWrite_kept (s : State) (a : ℕ) (data : List Byte) : (s.hotWrite a data).kept = s.kept := (rfl)

@[simp] theorem State.placeRead_kept (s : State) (u : Fin 16) (r : NmgReq) (hot : Bool) (a : ℕ) (len : ℕ) :
    (s.placeRead u r hot a len).1.kept = s.kept := by
  simp only [State.placeRead]; (repeat' split) <;> simp

@[simp] theorem State.placeWrite_kept (s : State) (u : Fin 16) (r : NmgReq) (hot : Bool) (a : ℕ) (data : List Byte) :
    (s.placeWrite u r hot a data).kept = s.kept := by
  simp [State.placeWrite]

@[simp] theorem State.probeKey_kept (s : State) (u : Fin 16) (r : NmgReq) (id : Nat) (l : List Nat) :
    (s.probeKey u r id l).1.kept = s.kept := by
  induction l generalizing s with
  | nil => rfl
  | cons x l ih =>
    have hr := State.placeRead_kept s u r (tbIhot r.tab) (tbIbase r.tab + 16 * x) 8
    simp only [State.probeKey]
    split
    next t h => simpa [h] using hr
    next t k h =>
      have ht : t.kept = s.kept := by simpa [h] using hr
      (repeat' split) <;> simp [ih, ht]

@[simp] theorem State.ptrPlace_kept (s : State) (u : Fin 16) (r : NmgReq) (id : ℕ) : (s.ptrPlace u r id).1.kept = s.kept := by
  simp only [State.ptrPlace]; (repeat' split) <;> simp

@[simp] theorem State.rowPtr_kept (s : State) (u : Fin 16) (r : NmgReq) (id : Nat) : (s.rowPtr u r id).1.kept = s.kept := by
  have hp := State.ptrPlace_kept s u r id
  unfold State.rowPtr
  split
  next t h => simpa [h] using hp
  next t h => simpa [h] using hp
  next t a h =>
    have ht : t.kept = s.kept := by simpa [h] using hp
    have hr := State.placeRead_kept t u r (tbIhot r.tab) a 8
    split
    next u h => simpa [h, ht] using hr
    next u b h =>
      have hu : u.kept = s.kept := by simpa [h, ht] using hr
      dsimp only
      split <;> exact hu

@[simp] theorem State.rowRead_kept (s : State) (u : Fin 16) (r : NmgReq) (id : Nat) : (s.rowRead u r id).1.kept = s.kept := by
  have hp := State.rowPtr_kept s u r id
  unfold State.rowRead
  split
  next t h => simpa [h] using hp
  next t h => simpa [h] using hp
  next t a p h =>
    have ht : t.kept = s.kept := by simpa [h] using hp
    have hr := State.placeRead_kept t u r (ptrHot p) (ptrAddr p) (tbRstr r.tab)
    split
    next v h => simpa [h, ht] using hr
    next v b h => simpa [h, ht] using hr

@[simp] theorem State.rowsOf_kept (s : State) (u : Fin 16) (r : NmgReq) (n : NmgCnt) (ids : List Nat) :
    (s.rowsOf u r n ids).1.kept = s.kept := by
  unfold State.rowsOf
  refine kept_foldl_fst (fun a id => ?_) _ _
  have hr := State.rowRead_kept a.1 u r id
  split
  next t b h => simpa [h] using hr
  next t h => simpa [h] using hr
  next t h => simpa [h] using hr

@[simp] theorem State.idsOf_kept (s : State) (u : Fin 16) (r : NmgReq) (lo : ℕ) (hi : ℕ) :
    (s.idsOf u r lo hi).1.kept = s.kept := by
  simp [State.idsOf, kept_foldl_fst]

@[simp] theorem State.bagOut_kept (s : State) (u : Fin 16) (r : NmgReq) (n : NmgCnt) (b : ℕ) (lo : ℕ) (hi : ℕ) :
    (s.bagOut u r n b lo hi).1.kept = s.kept := by
  simp [State.bagOut, kept_foldl]

@[simp] theorem State.bagsOf_kept (s : State) (u : Fin 16) (r : NmgReq) : (s.bagsOf u r).1.kept = s.kept := by
  simp only [State.bagsOf]
  split
  · rfl
  · split
    next t h => exact State.kept_of_ddrRead h
    next t bs h => exact State.kept_of_ddrRead h

@[simp] theorem State.nmgDone_kept (s : State) (u : Fin 16) (x : NmgRun) : (s.nmgDone u x).kept = s.kept := by
  simp [State.nmgDone]

@[simp] theorem State.nmgLookup_kept (s : State) (u : Fin 16) (r : NmgReq) : (s.nmgLookup u r).kept = s.kept := by
  simp only [State.nmgLookup]
  split <;> simp [kept_foldl_fst]

@[simp] theorem execLookup_kept (u : Fin 16) (s : State) : Keeps s.kept (execLookup u s) := by simp [execLookup]

@[simp] theorem State.changeDone_kept (s : State) (u : Fin 16) (r : NmgReq) (found : Bool) (err : Bool) (held : Bool) :
    (s.changeDone u r found err held).kept = s.kept := by
  simp [State.changeDone]

@[simp] theorem State.nmgUpd_kept (s : State) (u : Fin 16) (held : Bool) (r : NmgReq) : (s.nmgUpd u held r).kept = s.kept := by
  have hp := State.rowPtr_kept s u r (rqIds r.req)
  unfold State.nmgUpd
  split
  next t h => simpa [h] using hp
  next t h => simpa [h] using hp
  next t a p h =>
    have ht : t.kept = s.kept := by simpa [h] using hp
    split
    next v h => simp [State.kept_of_ddrRead h, ht]
    next v b h => simp [State.kept_of_ddrRead h, ht]

@[simp] theorem State.nmgFlip_kept (s : State) (u : Fin 16) (held : Bool) (r : NmgReq) : (s.nmgFlip u held r).kept = s.kept := by
  have hp := State.rowPtr_kept s u r (rqIds r.req)
  unfold State.nmgFlip
  split
  next t h => simpa [h] using hp
  next t h => simpa [h] using hp
  next t a p h =>
    have ht : t.kept = s.kept := by simpa [h] using hp
    simp [ht]

@[simp] theorem State.migrLand_kept (s : State) (u : Fin 16) (held : Bool) (r : NmgReq) (data : List Byte) :
    (s.migrLand u held r data).kept = s.kept := by
  simp [State.migrLand]

@[simp] theorem State.applyHeld_kept (s : State) (u : Fin 16) (r : NmgReq) : (s.applyHeld u r).kept = s.kept := by
  have hr := State.rowRead_kept s u r (rqIds r.req)
  unfold State.applyHeld
  split
  · simp
  · simp
  · split
    next t b h => simpa [h] using hr
    next t h => simpa [h] using hr
    next t h => simpa [h] using hr

@[simp] theorem State.orHold_kept (s : State) (u : Fin 16) (r : NmgReq) (work : State → State) (h0 : ∀ z0,
    (work z0).kept = z0.kept) : (s.orHold u r work).kept = s.kept := by
  simp_all [State.orHold]

@[simp] theorem execUpd_kept (u : Fin 16) (s : State) : Keeps s.kept (execUpd u s) := by simp [execUpd]

@[simp] theorem execFlip_kept (u : Fin 16) (s : State) : Keeps s.kept (execFlip u s) := by simp [execFlip]

@[simp] theorem State.migrStart_kept (s : State) (u : Fin 16) (r : NmgReq) : (s.migrStart u r).kept = s.kept := by
  have hr := State.rowRead_kept s u r (rqIds r.req)
  unfold State.migrStart
  split
  next t b h => simpa [h] using hr
  next t h => simpa [h] using hr
  next t h => simpa [h] using hr

@[simp] theorem State.migrGo_kept (s : State) (u : Fin 16) (m : NmgMigr) {land : State → State} (h : ∀ t, (land t).kept = t.kept) :
    (s.migrGo u m land).kept = s.kept := by
  unfold State.migrGo
  dsimp only
  rw [kept_foldl fun t r => State.applyHeld_kept _ _ _, h, State.modUnit_kept]

@[simp] theorem State.migrEnd_kept (s : State) (u : Fin 16) (m : NmgMigr) : (s.migrEnd u m).kept = s.kept := by
  simp [State.migrEnd]

@[simp] theorem execMigr_kept (u : Fin 16) (s : State) : Keeps s.kept (execMigr u s) := by
  simp only [execMigr]; (repeat' split) <;> simp

@[simp] theorem State.nmgRetire_kept (s : State) (u : Fin 16) (r : NmgReq) : (s.nmgRetire u r).kept = s.kept := (rfl)

@[simp] theorem execRetire_kept (u : Fin 16) (s : State) : Keeps s.kept (execRetire u s) := by simp [execRetire]

@[simp] theorem State.nmgFinish_kept (s : State) (u : Fin 16) (x : NmgRun) : (s.nmgFinish u x).kept = s.kept := by
  simp [State.nmgFinish]

@[simp] theorem execNmgRequestComplete_kept (u : Fin 16) (s : State) : Keeps s.kept (execNmgRequestComplete u s) := by
  unfold execNmgRequestComplete; split <;> simp

@[simp] theorem State.retireEnd_kept (s : State) : (s.retireEnd).kept = s.kept := by unfold State.retireEnd; split <;> simp

@[simp] theorem execRetireEpochDrain_kept (s : State) : Keeps s.kept (execRetireEpochDrain s) := by simp [execRetireEpochDrain]

@[simp] theorem State.endErr_kept (s : State) (u : Fin 16) (r : NmgReq) (held : Bool) : (s.endErr u r held).kept = s.kept := (rfl)

@[simp] theorem State.endHit_kept (s : State) (u : Fin 16) (h : NmgHit) : (s.endHit u h).kept = s.kept := by
  simp only [State.endHit]; (repeat' split) <;> simp

@[simp] theorem State.nmgFault_kept (s : State) (u : Fin 16) (f : NmgFault) : (s.nmgFault u f).kept = s.kept := by
  unfold State.nmgFault; split <;> simp

@[simp] theorem execNmgError_kept (u : Fin 16) (f : NmgFault) (s : State) : Keeps s.kept (execNmgError u f s) := by
  simp [execNmgError]

@[simp] theorem State.nmgReset_kept (s : State) (p : Fin 4) : (s.nmgReset p).kept = s.kept := (rfl)

/-! #### The fault block -/

@[simp] theorem State.modFlt_kept (s : State) (f : FltState → FltState) : (s.modFlt f).kept = s.kept := (rfl)

@[simp] theorem State.fltPost_kept (s : State) (code : ℕ) : (s.fltPost code).kept = s.kept := (rfl)

@[simp] theorem State.unbindCore_kept (s : State) (c : CoreId) (src : Ini) : (s.unbindCore c src).kept = s.kept := (rfl)

@[simp] theorem State.rebind_kept (s : State) (src : Ini) (c : CoreId) : (s.rebind src c).kept = s.kept := by
  unfold State.rebind; split <;> simp

@[simp] theorem State.rebindAll_kept (s : State) (cs : List CoreId) (src : Ini) : (s.rebindAll cs src).kept = s.kept := by
  simp [State.rebindAll, kept_foldl]

@[simp] theorem State.queueRepair_kept (s : State) (t : Byte) (loc : Word) : (s.queueRepair t loc).kept = s.kept := by
  simp [State.queueRepair]

@[simp] theorem State.failRows_kept (s : State) (rows : List RowFail) : (s.failRows rows).kept = s.kept := by
  unfold State.failRows; refine kept_foldl (fun t a => ?_) _ _; (repeat' split) <;> simp

@[simp] theorem State.partReset_kept (s : State) (p : Fin 4) : (s.partReset p).kept = s.kept := by simp [State.partReset]

@[simp] theorem State.holdCore_kept (s : State) (c : CoreId) : (s.holdCore c).kept = s.kept := by simp [State.holdCore]

@[simp] theorem State.startRestart_kept (s : State) (p : Fin 4) : (s.startRestart p).kept = s.kept := by
  simp [State.startRestart, kept_foldl]

@[simp] theorem State.holdPart_kept (s : State) (p : Fin 4) : (s.holdPart p).kept = s.kept := (rfl)

@[simp] theorem State.releaseCore_kept (s : State) (c : CoreId) : (s.releaseCore c).kept = s.kept := (rfl)

@[simp] theorem State.releasePart_kept (s : State) (p : Fin 4) : (s.releasePart p).kept = s.kept := by
  unfold State.releasePart; refine kept_foldl (fun t a => ?_) _ _; simp

/-! #### Gauntlet -/

@[simp] theorem State.modGnt_kept (s : State) (f : GntState → GntState) : (s.modGnt f).kept = s.kept := (rfl)

@[simp] theorem State.modStrm_kept (s : State) (i : Fin 64) (f : Stream → Stream) : (s.modStrm i f).kept = s.kept := (rfl)

@[simp] theorem State.gntPost_kept (s : State) (code : ℕ) : (s.gntPost code).kept = s.kept := (rfl)

@[simp] theorem State.askWarm_kept (s : State) : (s.askWarm).kept = s.kept := (rfl)

@[simp] theorem State.enterSafe_kept (s : State) (cause : Byte) : (s.enterSafe cause).kept = s.kept := by simp [State.enterSafe]

@[simp] theorem State.noticeRefuse_kept (s : State) (code : ℕ) : (s.noticeRefuse code).kept = s.kept := (rfl)

@[simp] theorem State.noticePair_kept (s : State) (p : Fin 2) (n : Notice) : (s.noticePair p n).kept = s.kept := by
  simp [State.noticePair]

@[simp] theorem State.noticeWrite_kept (s : State) (p : Fin 2) (ini : Ini) (off : ℕ) (data : List Byte) :
    (s.noticeWrite p ini off data).kept = s.kept := by
  simp [State.noticeWrite]

@[simp] theorem execGntNotice_kept (p : Fin 2) (ini : Initiator) (off : ℕ) (data : List Byte) (s : State) :
    Keeps s.kept (execGntNotice p ini off data s) := by
  simp [execGntNotice]

@[simp] theorem State.gntRead_kept (s : State) (p : Fin 2) (n : Notice) : (s.gntRead p n).1.kept = s.kept := by
  simp only [State.gntRead]
  split
  · rfl
  · split
    next t h => simp [State.kept_of_ddrRead h]
    · simp

@[simp] theorem State.gntCompare_kept (s : State) : (s.gntCompare).kept = s.kept := by
  simp only [State.gntCompare]; (repeat' split) <;> simp

@[simp] theorem execGntCompare_kept (s : State) : Keeps s.kept (execGntCompare s) := by simp [execGntCompare]

@[simp] theorem State.disagree_kept (s : State) (n : BitVec 32) : (s.disagree n).kept = s.kept := by simp [State.disagree]

@[simp] theorem State.giveVerdict_kept (s : State) (i : Fin 64) (r : Pair) (verd : ℕ) (n : Notice) :
    (s.giveVerdict i r verd n).kept = s.kept := by
  simp [State.giveVerdict]

@[simp] theorem State.judge_kept (s : State) (i : Fin 64) : (s.judge i).kept = s.kept := by
  simp only [State.judge]; (repeat' split) <;> simp

@[simp] theorem execGntVerdict_kept (i : Fin 64) (s : State) : Keeps s.kept (execGntVerdict i s) := by simp [execGntVerdict]

@[simp] theorem State.ageOne_kept (s : State) (i : Fin 64) : (s.ageOne i).kept = s.kept := by simp [State.ageOne]

@[simp] theorem execAgeCheck_kept (s : State) : Keeps s.kept (execAgeCheck s) := by simp [execAgeCheck, kept_foldl]

/-! #### Cloche's commands -/

@[simp] theorem State.cloRespond_kept (s : State) (b : Bool) (r : CloRes) : (s.cloRespond b r).kept = s.kept := by
  simp [State.cloRespond]

@[simp] theorem State.cloExec_kept (s : State) (opc : ℕ) (f : CloChan → State → State × CloRes) (h0 : ∀ z0 z1,
    (f z0 z1).1.kept = z1.kept) : (s.cloExec opc f).kept = s.kept := by
  simp only [State.cloExec]; (repeat' split) <;> simp_all

@[simp] theorem State.cloSubmit_kept (s : State) (b : Bool) (off : ℕ) (data : List Byte) :
    (s.cloSubmit b off data).kept = s.kept := by
  simp [State.cloSubmit]

@[simp] theorem execGetid_kept (s : State) : Keeps s.kept (execGetid s) := by simp [execGetid]

@[simp] theorem execGetstat_kept (s : State) : Keeps s.kept (execGetstat s) := by simp [execGetstat]

@[simp] theorem execGetparam_kept (s : State) : Keeps s.kept (execGetparam s) := by simp [execGetparam]

@[simp] theorem execGetaudit_kept (s : State) : Keeps s.kept (execGetaudit s) := by simp [execGetaudit]

@[simp] theorem execGetkey_kept (s : State) : Keeps s.kept (execGetkey s) := by simp [execGetkey]

@[simp] theorem State.getrec_kept (s : State) (n : ℕ) : (s.getrec n).1.kept = s.kept := by unfold State.getrec; split <;> simp

@[simp] theorem execGetrec_kept (s : State) : Keeps s.kept (execGetrec s) := by simp [execGetrec]

@[simp] theorem State.setparam_kept (s : State) (c : CloChan) : (s.setparam c).1.kept = s.kept := by
  simp only [State.setparam]; (repeat' split) <;> simp

@[simp] theorem execSetparam_kept (s : State) : Keeps s.kept (execSetparam s) := by simp [execSetparam]

@[simp] theorem State.startCap_kept (s : State) (kind : ℕ) (fits : Bool) : (s.startCap kind fits).1.kept = s.kept := by
  simp only [State.startCap]; (repeat' split) <;> simp

@[simp] theorem execZero_kept (s : State) : Keeps s.kept (execZero s) := by simp [execZero]

@[simp] theorem execMeasure_kept (s : State) : Keeps s.kept (execMeasure s) := by simp [execMeasure]

@[simp] theorem execBeltstart_kept (s : State) : Keeps s.kept (execBeltstart s) := by simp [execBeltstart]

@[simp] theorem State.beltEnd_kept (s : State) (final : Bool) : (s.beltEnd final).1.kept = s.kept := by
  simp only [State.beltEnd]; (repeat' split) <;> simp

@[simp] theorem execBeltread_kept (s : State) : Keeps s.kept (execBeltread s) := by simp [execBeltread]

@[simp] theorem execBeltstop_kept (s : State) : Keeps s.kept (execBeltstop s) := by simp [execBeltstop]

@[simp] theorem State.cloAbort_kept (s : State) : (s.cloAbort).1.kept = s.kept := by
  simp only [State.cloAbort]; (repeat' split) <;> simp

@[simp] theorem execAbort_kept (s : State) : Keeps s.kept (execAbort s) := by simp [execAbort]

@[simp] theorem State.setexp_kept (s : State) (lo : ℕ) (hi : ℕ) : (s.setexp lo hi).1.kept = s.kept := by
  unfold State.setexp; split <;> simp

@[simp] theorem execSetexp_kept (s : State) : Keeps s.kept (execSetexp s) := by simp [execSetexp]

@[simp] theorem State.cloExport_kept (s : State) (sel : ℕ) (dst : ℕ) : (s.cloExport sel dst).1.kept = s.kept := by
  simp only [State.cloExport]; split <;> simp

@[simp] theorem execExportMap_kept (s : State) : Keeps s.kept (execExportMap s) := by simp [execExportMap]

@[simp] theorem State.fwload_kept (s : State) (c : CloChan) : (s.fwload c).1.kept = s.kept := by
  simp only [State.fwload]; (repeat' split) <;> simp

@[simp] theorem execFwload_kept (s : State) : Keeps s.kept (execFwload s) := by simp [execFwload]

/-! #### Golden patterns -/

@[simp] theorem State.ageFromNow_kept (s : State) : (s.ageFromNow).kept = s.kept := by simp [State.ageFromNow]

@[simp] theorem State.enterArmed_kept (s : State) : (s.enterArmed).kept = s.kept := (rfl)

@[simp] theorem State.armRefuse_kept (s : State) (item : Option Byte) : (s.armRefuse item).kept = s.kept := by
  unfold State.armRefuse; split <;> simp

@[simp] theorem State.armCheck_kept (s : State) : (s.armCheck).kept = s.kept := by unfold State.armCheck; split <;> simp

@[simp] theorem State.arm_kept (s : State) (ini : Ini) : (s.arm ini).kept = s.kept := by simp [State.arm]

@[simp] theorem execArm_kept (ini : Initiator) (s : State) : Keeps s.kept (execArm ini s) := by simp [execArm]

@[simp] theorem State.disarm_kept (s : State) (ini : Ini) : (s.disarm ini).kept = s.kept := by simp [State.disarm]

@[simp] theorem execDisarm_kept (ini : Initiator) (s : State) : Keeps s.kept (execDisarm ini s) := by simp [execDisarm]

@[simp] theorem State.askSafe_kept (s : State) (ini : Ini) : (s.askSafe ini).kept = s.kept := by simp [State.askSafe]

@[simp] theorem execSafe_kept (ini : Initiator) (s : State) : Keeps s.kept (execSafe ini s) := by simp [execSafe]

@[simp] theorem State.askDefer_kept (s : State) (ini : Ini) : (s.askDefer ini).kept = s.kept := by simp [State.askDefer]

@[simp] theorem execDefer_kept (ini : Initiator) (s : State) : Keeps s.kept (execDefer ini s) := by simp [execDefer]

@[simp] theorem State.testsDone_kept (s : State) (fail : Bool) (test : Fin 12) (inst : BitVec 16) (rows : List RowFail) :
    (s.testsDone fail test inst rows).kept = s.kept := by
  simp only [State.testsDone]; (repeat' split) <;> simp

@[simp] theorem execStartTestsDone_kept (fail : Bool) (test : Fin 12) (place : TestPlace) (s : State) :
    Keeps s.kept (execStartTestsDone fail test place s) := by
  simp [execStartTestsDone]

@[simp] theorem State.faultToggle_kept (s : State) : (s.faultToggle).kept = s.kept := by simp [State.faultToggle]

@[simp] theorem execFaultOutputToggle_kept (s : State) : Keeps s.kept (execFaultOutputToggle s) := by simp [execFaultOutputToggle]

@[simp] theorem State.gntReport_kept (s : State) (f : GntFault) : (s.gntReport f).kept = s.kept := by
  cases f <;> simp [State.gntReport]

@[simp] theorem execGntLockstepError_kept (f : GntFault) (s : State) : Keeps s.kept (execGntLockstepError f s) := by
  simp [execGntLockstepError]

@[simp] theorem State.muteEvents_kept (s : State) (p : Fin 4) : (s.muteEvents p).kept = s.kept := (rfl)

@[simp] theorem State.cutChannel_kept (s : State) (p : Fin 2) : (s.cutChannel p).kept = s.kept := (rfl)

@[simp] theorem State.fencePath_kept (s : State) (p : Fin 2) : (s.fencePath p).kept = s.kept := by simp [State.fencePath]

@[simp] theorem State.pathFence_kept (s : State) (p : Fin 2) (stay : Bool) : (s.pathFence p stay).kept = s.kept := by
  simp only [State.pathFence]; split <;> simp

@[simp] theorem State.fenceAgain_kept (s : State) (p : Fin 2) : (s.fenceAgain p).kept = s.kept := by
  simp [State.fenceAgain, kept_foldl]

@[simp] theorem State.readmitted_kept (s : State) : (s.readmitted).kept = s.kept := (rfl)

@[simp] theorem State.inject_kept (s : State) (g : Fin 4) : (s.inject g).kept = s.kept := by simp [State.inject, kept_foldl]

theorem State.oppOne_kept (r : State × Bool) (g : Fin 4) : (State.oppOne r g).1.kept = r.1.kept := by
  simp only [State.oppOne]; (repeat' split) <;> simp

@[simp] theorem execGoldenOpportunity_kept (s : State) : Keeps s.kept (execGoldenOpportunity s) :=
  keeps_next.mpr (kept_foldl_fst (fun _ _ => State.oppOne_kept _ _) _ _)

@[simp] theorem State.goldPath_kept (s : State) (i : Fin 64) (want : ℕ × ℕ) (p : Fin 2) (n : Option Notice) :
    (s.goldPath i want p n).1.kept = s.kept := by
  unfold State.goldPath; split <;> simp

@[simp] theorem State.goldReact_kept (s : State) (r : GoldenRun) (f0 : Bool) (f1 : Bool) :
    (s.goldReact r f0 f1).kept = s.kept := by
  simp only [State.goldReact]; split <;> simp

theorem State.goldStream_kept (r : GoldenRun) (a : State × Bool × Bool) (i : Fin 64) :
    (State.goldStream r a i).1.kept = a.1.kept := by
  simp [State.goldStream]

@[simp] theorem State.goldJudge_kept (s : State) (r : GoldenRun) : (s.goldJudge r).kept = s.kept := by
  simp [State.goldJudge, kept_foldl_fst, State.goldStream_kept]

@[simp] theorem execGoldenJudge_kept (s : State) : Keeps s.kept (execGoldenJudge s) := by
  simp only [execGoldenJudge]; (repeat' split) <;> simp

@[simp] theorem State.goldTimeout_kept (s : State) : (s.goldTimeout).kept = s.kept := by
  simp only [State.goldTimeout]; (repeat' split) <;> simp

@[simp] theorem execGoldenNoticeTimeout_kept (s : State) : Keeps s.kept (execGoldenNoticeTimeout s) := by
  simp [execGoldenNoticeTimeout]

@[simp] theorem State.linkEvent_kept (s : State) (xd : Bool) : (s.linkEvent xd).kept = s.kept := by simp [State.linkEvent]

@[simp] theorem State.routedEvent_kept (s : State) : (s.routedEvent).kept = s.kept := by
  simp only [State.routedEvent]; (repeat' split) <;> simp

@[simp] theorem execGntRoutedEvent_kept (s : State) : Keeps s.kept (execGntRoutedEvent s) := by simp [execGntRoutedEvent]

@[simp] theorem State.gctlWrite_kept (s : State) (ini : Ini) (h : Half) (v : Word) : (s.gctlWrite ini h v).kept = s.kept := by
  simp [State.gctlWrite]

@[simp] theorem State.strmWrite_kept (s : State) (i : Fin 64) (k : Fin 4) (ini : Ini) (h : Half) (v : Word) :
    (s.strmWrite i k ini h v).kept = s.kept := by
  simp [State.strmWrite]

@[simp] theorem State.gpatWrite_kept (s : State) (g : Fin 4) (ini : Ini) (off : ℕ) (data : List Byte) :
    (s.gpatWrite g ini off data).kept = s.kept := by
  simp [State.gpatWrite]

@[simp] theorem State.gwinWrite_kept (s : State) (ini : Ini) (off : ℕ) (data : List Byte) :
    (s.gwinWrite ini off data).kept = s.kept := by
  simp [State.gwinWrite]

/-! #### Faults -/

@[simp] theorem State.fltRefuse_kept (s : State) : (s.fltRefuse).kept = s.kept := (rfl)

@[simp] theorem State.startRestarts_kept (s : State) (set : List (Fin 4)) : (s.startRestarts set).kept = s.kept := by
  simp [State.startRestarts, kept_foldl]

@[simp] theorem State.prstWrite_kept (s : State) (ini : Ini) (h : Half) (v : Word) : (s.prstWrite ini h v).kept = s.kept := by
  simp [State.prstWrite]

@[simp] theorem execFltPrst_kept (ini : Initiator) (h : Half) (v : Word) (s : State) : Keeps s.kept (execFltPrst ini h v s) := by
  simp [execFltPrst]

@[simp] theorem State.mrstWrite_kept (s : State) (ini : Ini) (warm : Bool) (cold : Bool) :
    (s.mrstWrite ini warm cold).kept = s.kept := by
  simp [State.mrstWrite]

@[simp] theorem execFltMrstWarm_kept (ini : Initiator) (s : State) : Keeps s.kept (execFltMrstWarm ini s) := by
  simp [execFltMrstWarm]

@[simp] theorem execFltMrstCold_kept (ini : Initiator) (s : State) : Keeps s.kept (execFltMrstCold ini s) := by
  simp [execFltMrstCold]

@[simp] theorem State.failCores_kept (s : State) (cs : List CoreId) (bad : BitVec 32) : (s.failCores cs bad).kept = s.kept := by
  unfold State.failCores; refine kept_foldl (fun t a => ?_) _ _; simp

@[simp] theorem State.gntReleased_kept (s : State) (p : Fin 4) : (s.gntReleased p).kept = s.kept := by simp [State.gntReleased]

@[simp] theorem State.partRelease_kept (s : State) (p : Fin 4) (bad : BitVec 32) (spares : BitVec 4) (ddr : Bool)
    (rows : List RowFail) : (s.partRelease p bad spares ddr rows).kept = s.kept := by
  simp [State.partRelease, kept_foldl]

@[simp] theorem execPartitionRelease_kept (p : Fin 4) (found : CoreTests) (spares : BitVec 4) (ddr : Bool) (s : State) :
    Keeps s.kept (execPartitionRelease p found spares ddr s) := by
  simp [execPartitionRelease]

@[simp] theorem State.pmapWrite_kept (s : State) (ini : Ini) (h : Half) (v : Word) : (s.pmapWrite ini h v).kept = s.kept := by
  simp [State.pmapWrite]

@[simp] theorem execFltPmapWrite_kept (ini : Initiator) (h : Half) (v : Word) (s : State) :
    Keeps s.kept (execFltPmapWrite ini h v s) := by
  simp [execFltPmapWrite]

@[simp] theorem State.ownEntry_kept (s : State) (act : ℕ) (detail : ℕ) : (s.ownEntry act detail).kept = s.kept := (rfl)

@[simp] theorem State.writeRepair_kept (s : State) (r : RepairRec) : (s.writeRepair r).kept = s.kept := by
  simp [State.writeRepair]

@[simp] theorem State.rowError_kept (s : State) (t : Byte) (loc : Word) (n : ℕ) : (s.rowError t loc n).kept = s.kept := by
  simp [State.rowError]

@[simp] theorem State.rowsFailed_kept (s : State) (ch : ℕ) : (s.rowsFailed ch).kept = s.kept := by
  simp [State.rowsFailed, kept_foldl]

@[simp] theorem State.rowsWorn_kept (s : State) (ch : ℕ) : (s.rowsWorn ch).kept = s.kept := by simp [State.rowsWorn, kept_foldl]

@[simp] theorem State.repairFor_kept (s : State) (q : Posted) (detail : Word) : (s.repairFor q detail).kept = s.kept := by
  simp only [State.repairFor]; (repeat' split) <;> simp

@[simp] theorem State.writeAllRepairs_kept (s : State) : (s.writeAllRepairs).kept = s.kept := by
  simp [State.writeAllRepairs, kept_foldl]

@[simp] theorem State.writeRepairs_kept (s : State) : (s.writeRepairs).kept = s.kept := by simp [State.writeRepairs]

@[simp] theorem State.faultLog_kept (s : State) (detail : Word) : (s.faultLog detail).kept = s.kept := by
  simp only [State.faultLog]; (repeat' split) <;> simp

@[simp] theorem execFaultLogEntry_kept (detail : Word) (s : State) : Keeps s.kept (execFaultLogEntry detail s) := by
  simp [execFaultLogEntry]

/-! #### PCIe -/

@[simp] theorem State.unsupportedBy_kept (s : State) (pf1 : Bool) : (s.unsupportedBy pf1).kept = s.kept := by
  simp [State.unsupportedBy]

@[simp] theorem State.unsupported_kept (s : State) : (s.unsupported).kept = s.kept := (rfl)

@[simp] theorem State.tlpDropBy_kept (s : State) (pf1 : Bool) (f : TlpFault) : (s.tlpDropBy pf1 f).kept = s.kept := by
  unfold State.tlpDropBy; split <;> simp

@[simp] theorem State.tlpDrop_kept (s : State) (f : TlpFault) : (s.tlpDrop f).kept = s.kept := by simp [State.tlpDrop]

@[simp] theorem State.linkUp_kept (s : State) (speed : Fin 5) (width : Fin 3) : (s.linkUp speed width).kept = s.kept := by
  simp [State.linkUp]

@[simp] theorem State.linkDown_kept (s : State) : (s.linkDown).kept = s.kept := by simp [State.linkDown]

@[simp] theorem State.pcieReset_kept (s : State) : (s.pcieReset).kept = s.kept := by simp [State.pcieReset]

@[simp] theorem State.flr0_kept (s : State) : (s.flr0).kept = s.kept := (rfl)

@[simp] theorem execPcieLinkUp_kept (speed : Fin 5) (width : Fin 3) (s : State) :
    Keeps s.kept (execPcieLinkUp speed width s) := by
  simp [execPcieLinkUp]

@[simp] theorem execPcieLinkDown_kept (s : State) : Keeps s.kept (execPcieLinkDown s) := by simp [execPcieLinkDown]

@[simp] theorem execPcieReset_kept (s : State) : Keeps s.kept (execPcieReset s) := by simp [execPcieReset]

@[simp] theorem execFlrPf0_kept (s : State) : Keeps s.kept (execFlrPf0 s) := by simp [execFlrPf0]

@[simp] theorem State.apbaseWrite_kept (s : State) (ini : Ini) (h : Half) (v : Word) : (s.apbaseWrite ini h v).kept = s.kept := by
  simp [State.apbaseWrite]

@[simp] theorem State.hwinWrite_kept (s : State) (k : Fin 32) (ini : Ini) (h : Half) (v : Word) :
    (s.hwinWrite k ini h v).kept = s.kept := by
  simp [State.hwinWrite]

@[simp] theorem execPciApbaseWrite_kept (ini : Initiator) (h : Half) (v : Word) (s : State) :
    Keeps s.kept (execPciApbaseWrite ini h v s) := by
  simp [execPciApbaseWrite]

@[simp] theorem execPciHwinWrite_kept (k : Fin 32) (ini : Initiator) (h : Half) (v : Word) (s : State) :
    Keeps s.kept (execPciHwinWrite k ini h v s) := by
  simp [execPciHwinWrite]

@[simp] theorem State.hostWindow_kept (s : State) (k : Fin 32) (off : ℕ) (data : List Byte) (f : TlpFault) :
    (s.hostWindow k off data f).kept = s.kept := by
  simp [State.hostWindow]

@[simp] theorem execHostWindowWrite_kept (k : Fin 32) (off : ℕ) (data : List Byte) (f : TlpFault) (s : State) :
    Keeps s.kept (execHostWindowWrite k off data f s) := by
  simp [execHostWindowWrite]

@[simp] theorem State.hostDdr_kept (s : State) (off : ℕ) (op : DdrOp) (f : TlpFault) : (s.hostDdr off op f).kept = s.kept := by
  simp only [State.hostDdr]; (repeat' split) <;> simp

@[simp] theorem execHostDdrAccess_kept (off : ℕ) (op : DdrOp) (f : TlpFault) (s : State) :
    Keeps s.kept (execHostDdrAccess off op f s) := by
  simp [execHostDdrAccess]

/-! #### Power -/

@[simp] theorem State.modPwr_kept (s : State) (f : PwrState → PwrState) : (s.modPwr f).kept = s.kept := (rfl)

@[simp] theorem State.pwrPost_kept (s : State) (code : ℕ) : (s.pwrPost code).kept = s.kept := (rfl)

@[simp] theorem State.pwrRefuse_kept (s : State) : (s.pwrRefuse).kept = s.kept := (rfl)

@[simp] theorem State.monClock_kept (s : State) (d : Fin 4) (fp : ℕ) : (s.monClock d fp).kept = s.kept := (rfl)

@[simp] theorem State.monRail_kept (s : State) (d : Fin 4) (vp : ℕ) : (s.monRail d vp).kept = s.kept := (rfl)

@[simp] theorem State.throttled_kept (s : State) (c : CoreId) : (s.throttled c).kept = s.kept := by simp [State.throttled]

@[simp] theorem State.brimAssert_kept (s : State) (code : ℕ) (isNew : Bool) (f : PwrState → PwrState) :
    (s.brimAssert code isNew f).kept = s.kept := by
  simp [State.brimAssert]

@[simp] theorem State.brimRelease_kept (s : State) (f : PwrState → PwrState) : (s.brimRelease f).kept = s.kept := by
  simp only [State.brimRelease]; split <;> simp

@[simp] theorem execBrimOvercurrent_kept (d : Fin 4) (s : State) : Keeps s.kept (execBrimOvercurrent d s) := by
  simp [execBrimOvercurrent]

@[simp] theorem execBrimPinAssert_kept (s : State) : Keeps s.kept (execBrimPinAssert s) := by simp [execBrimPinAssert]

@[simp] theorem execBrimClear_kept (pin : Fin 5) (s : State) : Keeps s.kept (execBrimClear pin s) := by simp [execBrimClear]

@[simp] theorem State.stepDown_kept (s : State) (d : Fin 4) : (s.stepDown d).kept = s.kept := by simp [State.stepDown]

@[simp] theorem execBrimStepDown_kept (d : Fin 4) (s : State) : Keeps s.kept (execBrimStepDown d s) := by simp [execBrimStepDown]

@[simp] theorem State.heartbeatMiss_kept (s : State) : (s.heartbeatMiss).kept = s.kept := by simp [State.heartbeatMiss]

@[simp] theorem execHeartbeatMiss_kept (s : State) : Keeps s.kept (execHeartbeatMiss s) := by simp [execHeartbeatMiss]

@[simp] theorem State.hbWrite_kept (s : State) (ini : Ini) (h : Half) (v : Word) : (s.hbWrite ini h v).kept = s.kept := by
  simp [State.hbWrite]

@[simp] theorem execPwrHb_kept (ini : Initiator) (h : Half) (v : Word) (s : State) : Keeps s.kept (execPwrHb ini h v s) := by
  simp [execPwrHb]

@[simp] theorem State.pointChange_kept (tgt : BitVec 32) (s : State) (d : Fin 4) : (State.pointChange tgt s d).kept = s.kept :=
  (rfl)

@[simp] theorem State.dvfsWrite_kept (s : State) (ini : Ini) (h : Half) (v : Word) : (s.dvfsWrite ini h v).kept = s.kept := by
  simp only [State.dvfsWrite]; split <;> simp [kept_foldl]

@[simp] theorem execPwrDvfsWrite_kept (ini : Initiator) (h : Half) (v : Word) (s : State) :
    Keeps s.kept (execPwrDvfsWrite ini h v s) := by
  simp [execPwrDvfsWrite]

@[simp] theorem State.settled_kept (s : State) (d : Fin 4) : (s.settled d).kept = s.kept := by
  simp only [State.settled]; split <;> simp

@[simp] theorem execDvfsVoltageSettled_kept (d : Fin 4) (s : State) : Keeps s.kept (execDvfsVoltageSettled d s) := by
  simp [execDvfsVoltageSettled]

@[simp] theorem State.napEnter_kept (s : State) (d : Fin 4) : (s.napEnter d).kept = s.kept := by simp [State.napEnter]

@[simp] theorem execNapEnter_kept (d : Fin 4) (s : State) : Keeps s.kept (execNapEnter d s) := by simp [execNapEnter]

@[simp] theorem State.napWake_kept (s : State) (d : Fin 4) : (s.napWake d).kept = s.kept := by simp [State.napWake]

@[simp] theorem execNapWake_kept (d : Fin 4) (s : State) : Keeps s.kept (execNapWake d s) := by simp [execNapWake]

@[simp] theorem State.stopAll_kept (s : State) : (s.stopAll).kept = s.kept := by simp [State.stopAll]

@[simp] theorem State.powerDown_kept (s : State) : (s.powerDown).kept = s.kept := by unfold State.powerDown; split <;> simp

@[simp] theorem execPowerDown_kept (s : State) : Keeps s.kept (execPowerDown s) := by simp [execPowerDown]

@[simp] theorem State.trip_kept (s : State) : (s.trip).kept = s.kept := by simp [State.trip]

@[simp] theorem State.pwrMismatch_kept (s : State) : (s.pwrMismatch).kept = s.kept := by simp [State.pwrMismatch]

@[simp] theorem State.thermalSample_kept (s : State) (raw : Vector (BitVec 16) 24) (off : Fin 24 → ℤ) :
    (s.thermalSample raw off).kept = s.kept := by
  unfold State.thermalSample; split <;> simp

@[simp] theorem execAoClockLoss_kept (s : State) : Keeps s.kept (execAoClockLoss s) := by simp [execAoClockLoss]

@[simp] theorem State.dozeEnter_kept (s : State) (ini : Ini) : (s.dozeEnter ini).kept = s.kept := by
  simp only [State.dozeEnter]; (repeat' split) <;> simp [kept_foldl]

@[simp] theorem execDozeEnter_kept (ini : Initiator) (s : State) : Keeps s.kept (execDozeEnter ini s) := by simp [execDozeEnter]

@[simp] theorem State.pwrCtlWrite_kept (s : State) (ini : Ini) (h : Half) (v : Word) : (s.pwrCtlWrite ini h v).kept = s.kept := by
  simp [State.pwrCtlWrite, kept_foldl]

/-! #### Crown -/

@[simp] theorem State.modCrn_kept (s : State) (f : CrnState → CrnState) :
    (s.modCrn f).kept = ⟨s.pending, s.tb.cnt, s.ddr.rgn, s.clo.blocks, s.clo.image, s.clo.ref, (f s.crn).minSvn, (f s.crn).running⟩ :=
  (rfl)

@[simp] theorem CrnState.setChan_same (c : CrnState) (b : Bool) (x : MbxChan) :
    (c.setChan b x).minSvn = c.minSvn ∧ (c.setChan b x).running = c.running := by
  cases b <;> simp [CrnState.setChan]

@[simp] theorem CrnState.cutUpdate_same (c : CrnState) (e : Bool) :
    (c.cutUpdate e).minSvn = c.minSvn ∧ (c.cutUpdate e).running = c.running ∧ (c.cutUpdate e).image = c.image := by
  simp [CrnState.cutUpdate]

@[simp] theorem State.crnPost_kept (s : State) (code : ℕ) : (s.crnPost code).kept = s.kept := (rfl)

@[simp] theorem State.loadCheck_kept (s : State) (load : ℕ) : (s.loadCheck load).kept = s.kept := by
  unfold State.loadCheck; split <;> simp

@[simp] theorem execCrownLoadCheck_kept (load : Fin 101) (s : State) : Keeps s.kept (execCrownLoadCheck load s) := by
  simp [execCrownLoadCheck]

@[simp] theorem State.setPoints_kept (s : State) : (s.setPoints).kept = s.kept := by simp [State.setPoints]

@[simp] theorem State.gather_kept (s : State) : (s.gather).kept = s.kept := (rfl)

@[simp] theorem State.powerLoop_kept (s : State) (pts : Vector (Fin 8) 4) : (s.powerLoop pts).kept = s.kept := by
  simp [State.powerLoop]

@[simp] theorem execPowerLoop_kept (pts : Vector (Fin 8) 4) (s : State) : Keeps s.kept (execPowerLoop pts s) := by
  simp [execPowerLoop]

@[simp] theorem State.thermalDie_kept (s : State) (d : Fin 4) : (s.thermalDie d).kept = s.kept := by simp [State.thermalDie]

@[simp] theorem State.thermalLoop_kept (s : State) : (s.thermalLoop).kept = s.kept := by simp [State.thermalLoop, kept_foldl]

@[simp] theorem execThermalLoop_kept (s : State) : Keeps s.kept (execThermalLoop s) := by simp [execThermalLoop]

@[simp] theorem State.sampleTemps_kept (s : State) (raw : Vector (BitVec 16) 24) : (s.sampleTemps raw).kept = s.kept := by
  simp [State.sampleTemps]

@[simp] theorem execThermalSample_kept (t : ThermalReading) (s : State) : Keeps s.kept (execThermalSample t s) := by
  simp [execThermalSample]

@[simp] theorem State.dimmTemps_kept (s : State) (t : Vector Byte 16) : (s.dimmTemps t).kept = s.kept := by
  unfold State.dimmTemps; refine kept_foldl (fun t a => ?_) _ _; simp

@[simp] theorem execDimmTempRead_kept (t : Vector Byte 16) (s : State) : Keeps s.kept (execDimmTempRead t s) := by
  simp [execDimmTempRead]

@[simp] theorem State.telemetry_kept (s : State) (pwr : BitVec 16) (ic : BitVec 16) (vc : BitVec 16) :
    (s.telemetry pwr ic vc).kept = s.kept := by
  simp only [State.telemetry]; split <;> simp

@[simp] theorem execTelemetrySample_kept (pwr : BitVec 16) (ic : BitVec 16) (vc : BitVec 16) (s : State) :
    Keeps s.kept (execTelemetrySample pwr ic vc s) := by
  simp [execTelemetrySample]

@[simp] theorem execDbgChallengeExpire_kept (s : State) : Keeps s.kept (execDbgChallengeExpire s) := by
  simp [execDbgChallengeExpire]

/-! #### The mailbox -/

@[simp] theorem State.modMbx_kept (s : State) (smb : Bool) (f : MbxChan → MbxChan) : (s.modMbx smb f).kept = s.kept := by
  simp [State.modMbx]

@[simp] theorem State.respond_kept (s : State) (smb : Bool) (r : MbxReq) (x : MbxRes) : (s.respond smb r x).kept = s.kept := by
  simp [State.respond]

@[simp] theorem State.answer_kept (s : State) (smb : Bool) (r : MbxReq) (x : MbxRes) : (s.answer smb r x).kept = s.kept := by
  simp [State.answer]

@[simp] theorem State.mbxFlush_kept (n : Nat) (s : State) : (State.mbxFlush n s).kept = s.kept := by
  induction n generalizing s with
  | zero => rfl
  | succ n ih => simp only [State.mbxFlush]; (repeat' split) <;> simp [ih]

@[simp] theorem State.mbxSettle_kept (s : State) : (s.mbxSettle).kept = s.kept := by simp [State.mbxSettle]

@[simp] theorem State.mbxExec_kept (s : State) (opc : Nat) {f : Bool → MbxReq → State → State × MbxRes} (h : ∀ b r t,
    (f b r t).1.kept = t.kept) : (s.mbxExec opc f).kept = s.kept := by
  simp only [State.mbxExec]; (repeat' split) <;> simp [h]

@[simp] theorem State.mbxWrite_kept (s : State) (ini : Ini) (off : ℕ) (data : List Byte) :
    (s.mbxWrite ini off data).kept = s.kept := by
  simp only [State.mbxWrite]; (repeat' split) <;> simp

@[simp] theorem execMbxSubmit_kept (ini : Initiator) (off : ℕ) (data : List Byte) (s : State) :
    Keeps s.kept (execMbxSubmit ini off data s) := by
  simp [execMbxSubmit]

@[simp] theorem State.mbxIdxWrite_kept (s : State) (ini : Ini) (h : Half) (v : Word) : (s.mbxIdxWrite ini h v).kept = s.kept := by
  simp [State.mbxIdxWrite]

@[simp] theorem State.smbusWrite_kept (s : State) (pecOk : Bool) (code : Byte) (data : List Byte) :
    (s.smbusWrite pecOk code data).kept = s.kept := by
  simp [State.smbusWrite]

@[simp] theorem execSmbusBlockWrite_kept (pecOk : Bool) (code : Byte) (data : List Byte) (s : State) :
    Keeps s.kept (execSmbusBlockWrite pecOk code data s) := by
  simp [execSmbusBlockWrite]

@[simp] theorem State.smbusRead_kept (s : State) : (s.smbusRead).kept = s.kept := by unfold State.smbusRead; split <;> simp

@[simp] theorem execSmbusBlockRead_kept (s : State) : Keeps s.kept (execSmbusBlockRead s) := by simp [execSmbusBlockRead]

/-! #### The mailbox commands -/

@[simp] theorem MbxReq.sized_kept (r : MbxReq) (n : ℕ) (s : State) (f : State × MbxRes) (h0 : f.1.kept = s.kept) :
    (r.sized n s f).1.kept = s.kept := by
  simp only [MbxReq.sized]; (repeat' split) <;> simp_all

@[simp] theorem State.setResult_kept (s : State) (smb : Bool) (r : MbxReq) (bs : List Byte) :
    (s.setResult smb r bs).1.kept = s.kept := by
  simp [State.setResult]

@[simp] theorem execGetId_kept (s : State) : Keeps s.kept (execGetId s) := by simp [execGetId]

@[simp] theorem execGetCert_kept (s : State) : Keeps s.kept (execGetCert s) := by simp [execGetCert]

@[simp] theorem State.attest_kept (s : State) (smb : Bool) (r : MbxReq) : (s.attest smb r).1.kept = s.kept := by
  simp [State.attest]

@[simp] theorem execAttest_kept (s : State) : Keeps s.kept (execAttest s) := by simp [execAttest]

@[simp] theorem State.bufRead_kept (s : State) (smb : Bool) (r : MbxReq) : (s.bufRead smb r).1.kept = s.kept := by
  simp only [State.bufRead]; (repeat' split) <;> simp

@[simp] theorem execBufRead_kept (s : State) : Keeps s.kept (execBufRead s) := by simp [execBufRead]

@[simp] theorem State.bufWrite_kept (s : State) (smb : Bool) (r : MbxReq) : (s.bufWrite smb r).1.kept = s.kept := by
  unfold State.bufWrite; split <;> simp

@[simp] theorem execBufWrite_kept (s : State) : Keeps s.kept (execBufWrite s) := by simp [execBufWrite]

@[simp] theorem State.fwUpdate_kept (s : State) (r : MbxReq) : (s.fwUpdate r).1.kept = s.kept := by
  simp only [State.fwUpdate]; (repeat' split) <;> simp

@[simp] theorem execFwUpdate_kept (s : State) : Keeps s.kept (execFwUpdate s) := by simp [execFwUpdate]

@[simp] theorem State.fwWritten_kept (s : State) (ok : Bool) : (s.fwWritten ok).kept = s.kept := by
  unfold State.fwWritten; split <;> simp

@[simp] theorem execFwFlashWriteDone_kept (ok : Bool) (s : State) : Keeps s.kept (execFwFlashWriteDone ok s) := by
  simp [execFwFlashWriteDone]

@[simp] theorem State.fwStatus_kept (s : State) : (s.fwStatus).1.kept = s.kept := by unfold State.fwStatus; split <;> simp

@[simp] theorem execFwStatus_kept (s : State) : Keeps s.kept (execFwStatus s) := by simp [execFwStatus]

@[simp] theorem State.recoverLoad_kept (s : State) (r : MbxReq) : (s.recoverLoad r).1.kept = s.kept := by
  unfold State.recoverLoad; split <;> simp

@[simp] theorem execRecoverLoad_kept (s : State) : Keeps s.kept (execRecoverLoad s) := by simp [execRecoverLoad]

@[simp] theorem State.calRead_kept (s : State) (smb : Bool) (r : MbxReq) : (s.calRead smb r).1.kept = s.kept := by
  simp only [State.calRead]; (repeat' split) <;> simp

@[simp] theorem execCalRead_kept (s : State) : Keeps s.kept (execCalRead s) := by simp [execCalRead]

@[simp] theorem State.calWrite_kept (s : State) (r : MbxReq) (flashOk : Bool) : (s.calWrite r flashOk).1.kept = s.kept := by
  simp only [State.calWrite]; (repeat' split) <;> simp

@[simp] theorem execCalWrite_kept (flashOk : Bool) (s : State) : Keeps s.kept (execCalWrite flashOk s) := by simp [execCalWrite]

@[simp] theorem State.cfgRead_kept (s : State) (r : MbxReq) : (s.cfgRead r).1.kept = s.kept := by
  simp only [State.cfgRead]; split <;> simp

@[simp] theorem execCfgRead_kept (s : State) : Keeps s.kept (execCfgRead s) := by simp [execCfgRead]

@[simp] theorem State.telemCfg_kept (s : State) (r : MbxReq) : (s.telemCfg r).1.kept = s.kept := by
  simp only [State.telemCfg]; split <;> simp

@[simp] theorem execTelemCfg_kept (s : State) : Keeps s.kept (execTelemCfg s) := by simp [execTelemCfg]

@[simp] theorem execTelemLast_kept (s : State) : Keeps s.kept (execTelemLast s) :=
  keeps_next.mpr (State.mbxExec_kept _ _ fun _ r t => MbxReq.sized_kept _ _ _ _ (by split <;> rfl))

@[simp] theorem State.logRead_kept (s : State) (smb : Bool) (r : MbxReq) : (s.logRead smb r).1.kept = s.kept := by
  unfold State.logRead; split <;> simp

@[simp] theorem execLogRead_kept (s : State) : Keeps s.kept (execLogRead s) := by simp [execLogRead]

@[simp] theorem execSetOrigin_kept (s : State) : Keeps s.kept (execSetOrigin s) :=
  keeps_next.mpr (State.mbxExec_kept _ _ fun _ r t => MbxReq.sized_kept _ _ _ _ (by split <;> rfl))

@[simp] theorem State.dbgChal_kept (s : State) : (s.dbgChal).1.kept = s.kept := (rfl)

@[simp] theorem execDbgChal_kept (s : State) : Keeps s.kept (execDbgChal s) := by simp [execDbgChal]

@[simp] theorem State.dbgUnlock_kept (s : State) : (s.dbgUnlock).1.kept = s.kept := by simp only [State.dbgUnlock]; split <;> simp

@[simp] theorem execDbgUnlock_kept (s : State) : Keeps s.kept (execDbgUnlock s) := by simp [execDbgUnlock]

/-! #### The grid -/

@[simp] theorem State.modGeo_kept (s : State) (c : CoreId) (f : GeoCore → GeoCore) : (s.modGeo c f).kept = s.kept := (rfl)

@[simp] theorem State.modCounts_kept (s : State) (c : CoreId) (f : ScanCounts → ScanCounts) : (s.modCounts c f).kept = s.kept :=
  (rfl)

@[simp] theorem State.spillRead_kept (s : State) (c : CoreId) (i : ℕ) : (s.spillRead c i).1.kept = s.kept := by
  simp [State.spillRead]

@[simp] theorem State.ownedSpills_kept (c : CoreId) (l : List Nat) (s : State) : (State.ownedSpills c l s).1.kept = s.kept := by
  induction l generalizing s with
  | nil => rfl
  | cons i l ih => simp [State.ownedSpills, ih]

@[simp] theorem State.spills_kept (s : State) (c : CoreId) : (s.spills c).1.kept = s.kept := by
  simp only [State.spills]; split <;> simp

@[simp] theorem State.spillProbe_kept (c : CoreId) (k : Word) (l : List Nat) (s : State) :
    (State.spillProbe c k l s).1.kept = s.kept := by
  induction l generalizing s with
  | nil => rfl
  | cons i l ih => simp only [State.spillProbe]; (repeat' split) <;> simp [ih]

@[simp] theorem State.spillPlace_kept (s : State) (c : CoreId) (k : Word) : (s.spillPlace c k).1.kept = s.kept := by
  simp only [State.spillPlace]; split <;> simp

@[simp] theorem State.placeOf_kept (s : State) (c : CoreId) (k : Word) : (s.placeOf c k).1.kept = s.kept := by
  simp only [State.placeOf]; (repeat' split) <;> simp

@[simp] theorem State.accStore_kept (s : State) (c : CoreId) (a : ℕ) (bs : List Byte) : (s.accStore c a bs).kept = s.kept := by
  simp [State.accStore, kept_foldl]

@[simp] theorem State.accLoad_kept (s : State) (c : CoreId) (a : ℕ) : (s.accLoad c a).1.kept = s.kept := by
  unfold State.accLoad; split <;> simp

@[simp] theorem State.accUpdate_kept (s : State) (c : CoreId) (spilled : Bool) (n : ℕ) (p : RoutedPoint) :
    (s.accUpdate c spilled n p).1.kept = s.kept := by
  simp only [State.accUpdate]; (repeat' split) <;> simp

@[simp] theorem State.accZero_kept (s : State) (c : CoreId) (sp : Bool) (n : Nat) : (s.accZero c sp n).kept = s.kept := by
  unfold State.accZero
  dsimp only
  split
  · rfl
  · split
    · exact State.ddrPut_kept _ _ _ _
    · exact State.accStore_kept _ _ _ _

@[simp] theorem State.geoOnce_kept (s : State) (c : CoreId) (b : ℕ) (code : ℕ) : (s.geoOnce c b code).kept = s.kept := by
  simp [State.geoOnce]

@[simp] theorem State.brickPoint_kept (s : State) (c : CoreId) (spilled : Bool) (n : ℕ) (b : Brick) (p : RoutedPoint) :
    (s.brickPoint c spilled n b p).kept = s.kept := by
  simp [State.brickPoint]

@[simp] theorem State.insertPoint_kept (s : State) (c : CoreId) (p : RoutedPoint) : (s.insertPoint c p).kept = s.kept := by
  simp only [State.insertPoint]; split <;> simp

@[simp] theorem State.applyItem_kept (s : State) (c : CoreId) (sender : CoreId) (i : GeoItem) :
    (s.applyItem c sender i).kept = s.kept := by
  unfold State.applyItem; split <;> simp

@[simp] theorem State.itemTake_kept (s : State) (k : ℕ) (x : CoreId × GeoItem) : (s.itemTake k x).kept = s.kept := (rfl)

@[simp] theorem State.builderGrant_kept (s : State) (c : CoreId) : (s.builderGrant c).kept = s.kept := by
  simp only [State.builderGrant]; (repeat' split) <;> simp

@[simp] theorem State.builderStep_kept (s : State) (c : CoreId) : (s.builderStep c).kept = s.kept := by
  simp only [State.builderStep]; split <;> simp

@[simp] theorem execBuilderPointInsert_kept (c : CoreId) (s : State) : Keeps s.kept (execBuilderPointInsert c s) := by
  simp [execBuilderPointInsert]

@[simp] theorem State.ginit_kept (s : State) (c : CoreId) (q : EngCmd) : (s.ginit c q).Keeps s.kept := by
  unfold State.ginit
  dsimp only
  refine EngineRun.keeps_ite_refuse (State.overSpd_kept _ _ _ _ fun t => EngineRun.keeps_ite_refuse ?_)
  rw [EngineRun.keeps_done, State.kept_ite]
  exact ite_self _

@[simp] theorem State.sendRecord_kept (s : State) (c : CoreId) (slot : ℕ) (htrunc : Bool) (r : List Byte) :
    (s.sendRecord c slot htrunc r).kept = s.kept := by
  simp only [State.sendRecord]; (repeat' split) <;> simp

@[simp] theorem State.insertEntry_kept (s : State) (c : CoreId) (who : DdrWho) (rbase : ℕ) (hbase : ℕ) (e : SweepEntry) :
    (s.insertEntry c who rbase hbase e).kept = s.kept := by
  simp [State.insertEntry, kept_foldl]

@[simp] theorem State.gins_kept (s : State) (c : CoreId) (q : EngCmd) : (s.gins c q).Keeps s.kept := by
  unfold State.gins
  dsimp only
  split
  · split <;> simp
  · exact EngineRun.keeps_ite_refuse (State.overSpd_kept _ _ _ _ fun t => EngineRun.keeps_ite_refuse
      (State.overSpd_kept _ _ _ _ fun t => EngineRun.keeps_wait.mpr
        (kept_foldl (fun t e => State.insertEntry_kept _ _ _ _ _ _) _ _)))

@[simp] theorem State.ownCounts_kept (s : State) (d : CoreId) : (s.ownCounts d).1.kept = s.kept := by simp [State.ownCounts]

@[simp] theorem State.exchange_kept (s : State) (set : Nat) : (s.exchange set).kept = s.kept := by
  unfold State.exchange
  dsimp only
  rw [kept_foldl fun t d => State.modGeo_kept _ _ _]
  exact kept_foldl_fst (fun a d => by simp) _ _

@[simp] theorem State.gfinEnd_kept (s : State) (c : CoreId) (a : ℕ) (t : ScanCounts) : (s.gfinEnd c a t).kept = s.kept := by
  simp [State.gfinEnd]

@[simp] theorem State.gfin_kept (s : State) (c : CoreId) (q : EngCmd) : (s.gfin c q).Keeps s.kept := by
  simp only [State.gfin]; (repeat' split) <;> simp

@[simp] theorem State.ownBricks_kept (s : State) (c : CoreId) : (s.ownBricks c).1.kept = s.kept := by simp [State.ownBricks]

@[simp] theorem State.findBrick_kept (s : State) (c : CoreId) (k : Word) : (s.findBrick c k).1.kept = s.kept := by
  unfold State.findBrick; split <;> simp

@[simp] theorem State.gnbr_kept (s : State) (c : CoreId) (q : EngCmd) : (s.gnbr c q).Keeps s.kept := by
  simp only [State.gnbr]; (repeat' split) <;> simp

@[simp] theorem State.lookupStep_kept (s : State) (c : CoreId) : (s.lookupStep c).kept = s.kept := by
  simp only [State.lookupStep]; split <;> simp

@[simp] theorem execNeighbourLookup_kept (c : CoreId) (s : State) : Keeps s.kept (execNeighbourLookup c s) := by
  simp [execNeighbourLookup]

@[simp] theorem State.grel_kept (s : State) (c : CoreId) (q : EngCmd) : (s.grel c q).Keeps s.kept := by
  simp only [State.grel]; (repeat' split) <;> simp

@[simp] theorem State.geoStep_kept (s : State) (c : CoreId) (op : ℕ) (run : EngCmd → State → EngineRun) (h0 : ∀ z0 z1,
    (run z0 z1).Keeps z1.kept) : (s.geoStep c op run).kept = s.kept := by
  simp_all [State.geoStep]

@[simp] theorem execGinit_kept (c : CoreId) (s : State) : Keeps s.kept (execGinit c s) := by simp [execGinit]

@[simp] theorem execGins_kept (c : CoreId) (s : State) : Keeps s.kept (execGins c s) := by simp [execGins]

@[simp] theorem execGfin_kept (c : CoreId) (s : State) : Keeps s.kept (execGfin c s) := by simp [execGfin]

@[simp] theorem execGnbr_kept (c : CoreId) (s : State) : Keeps s.kept (execGnbr c s) := by simp [execGnbr]

@[simp] theorem execGrel_kept (c : CoreId) (s : State) : Keeps s.kept (execGrel c s) := by simp [execGrel]

@[simp] theorem State.spillRefuse_kept (s : State) : (s.spillRefuse).kept = s.kept := (rfl)

@[simp] theorem State.spillWrite_kept (s : State) (p : Fin 4) (ctl : Bool) (ini : Ini) (h : Half) (v : Word) :
    (s.spillWrite p ctl ini h v).kept = s.kept := by
  simp [State.spillWrite]

@[simp] theorem execGrdSpillWrite_kept (p : Fin 4) (ctl : Bool) (ini : Initiator) (h : Half) (v : Word) (s : State) :
    Keeps s.kept (execGrdSpillWrite p ctl ini h v s) := by
  simp [execGrdSpillWrite]

@[simp] theorem State.builderFault_kept (s : State) (c : CoreId) (f : BuilderFault) : (s.builderFault c f).kept = s.kept := by
  unfold State.builderFault; split <;> simp

@[simp] theorem execBrickTableEccError_kept (c : CoreId) (f : BuilderFault) (s : State) :
    Keeps s.kept (execBrickTableEccError c f s) := by
  simp [execBrickTableEccError]

/-! #### The scratchpads -/

@[simp] theorem State.imemWrite_kept (s : State) (c : CoreId) (ini : Ini) (i : ℕ) (h : Half) (v : Word) :
    (s.imemWrite c ini i h v).kept = s.kept := by
  simp [State.imemWrite]

@[simp] theorem State.tagWrite_kept (s : State) (c : CoreId) (ini : Ini) (t : ℕ) (h : Half) (v : Word) :
    (s.tagWrite c ini t h v).kept = s.kept := by
  simp [State.tagWrite]

@[simp] theorem State.syncaddWrite_kept (s : State) (c : CoreId) (ini : Ini) (n : ℕ) (h : Half) (v : Word) :
    (s.syncaddWrite c ini n h v).kept = s.kept := by
  simp [State.syncaddWrite]

@[simp] theorem State.spdClr_kept (s : State) (c : CoreId) (h : Half) (v : Word) : (s.spdClr c h v).kept = s.kept := by
  simp [State.spdClr]

@[simp] theorem State.launchWrite_kept (s : State) (n : Fin 128) (ini : Ini) (off : ℕ) (data : List Byte) :
    (s.launchWrite n ini off data).kept = s.kept := by
  simp [State.launchWrite]

@[simp] theorem execImemWrite_kept (c : CoreId) (ini : Initiator) (i : Fin 32768) (h : Half) (v : Word) (s : State) :
    Keeps s.kept (execImemWrite c ini i h v s) := by
  simp [execImemWrite]

@[simp] theorem execTagdescWrite_kept (c : CoreId) (ini : Initiator) (t : Fin 4096) (h : Half) (v : Word) (s : State) :
    Keeps s.kept (execTagdescWrite c ini t h v s) := by
  simp [execTagdescWrite]

@[simp] theorem State.retryPuts_kept (s : State) (c : CoreId) (e : Fin 7) : (s.retryPuts c e).kept = s.kept := by
  simp [State.retryPuts]

@[simp] theorem execTagWaitResume_kept (c : CoreId) (s : State) : Keeps s.kept (execTagWaitResume c s) := by
  simp [execTagWaitResume, kept_foldl]

@[simp] theorem execCuffIdleFlush_kept (c : CoreId) (line : ℕ) (s : State) : Keeps s.kept (execCuffIdleFlush c line s) := by
  simp [execCuffIdleFlush]

@[simp] theorem execWindowWrite_kept (c : CoreId) (src : SentBy) (off : ℕ) (data : List Byte) (s : State) :
    Keeps s.kept (execWindowWrite c src off data s) := by
  simp [execWindowWrite]

@[simp] theorem execRemoteSignal_kept (c : CoreId) (src : SentBy) (n : Fin 512) (v : Word) (s : State) :
    Keeps s.kept (execRemoteSignal c src n v s) := by
  simp [execRemoteSignal]

@[simp] theorem execSyncaddWrite_kept (c : CoreId) (ini : Initiator) (n : Fin 512) (h : Half) (v : Word) (s : State) :
    Keeps s.kept (execSyncaddWrite c ini n h v s) := by
  simp [execSyncaddWrite]

@[simp] theorem execSpdClr_kept (c : CoreId) (h : Half) (v : Word) (s : State) : Keeps s.kept (execSpdClr c h v s) := by
  simp [execSpdClr]

@[simp] theorem execLaunchRecordWrite_kept (n : Fin 128) (ini : Initiator) (off : ℕ) (data : List Byte) (s : State) :
    Keeps s.kept (execLaunchRecordWrite n ini off data s) := by
  simp [execLaunchRecordWrite]

@[simp] theorem State.slotTake_kept (s : State) (c : CoreId) : (s.slotTake c).kept = s.kept := by
  simp only [State.slotTake]; (repeat' split) <;> simp

@[simp] theorem execLaunchSlotTake_kept (c : CoreId) (s : State) : Keeps s.kept (execLaunchSlotTake c s) := by
  simp [execLaunchSlotTake]

@[simp] theorem State.taskStart_kept (s : State) (c : CoreId) : (s.taskStart c).kept = s.kept := by simp [State.taskStart]

@[simp] theorem execTaskStart_kept (c : CoreId) (s : State) : Keeps s.kept (execTaskStart c s) := by simp [execTaskStart]

@[simp] theorem State.spdControlParity_kept (s : State) (c : CoreId) : (s.spdControlParity c).kept = s.kept := by
  simp only [State.spdControlParity]; (repeat' split) <;> simp [kept_foldl]

@[simp] theorem execSpdParityError_kept (c : CoreId) (f : SpdFault) (s : State) : Keeps s.kept (execSpdParityError c f s) := by
  unfold execSpdParityError; split <;> simp

/-! #### Selection -/

@[simp] theorem State.modSel_kept (s : State) (c : CoreId) (f : Word → Word) : (s.modSel c f).kept = s.kept := (rfl)

@[simp] theorem State.putRecord_kept (s : State) (c : CoreId) (a : ℕ) (bs : List Byte) : (s.putRecord c a bs).kept = s.kept :=
  (rfl)

@[simp] theorem State.selSegment_kept (s : State) (c : CoreId) (x : SelCmd) (p : SpdState) (r : SelPar)
    (choose : List SelElem → Selection) (k : ℕ) : (s.selSegment c x p r choose k).1.kept = s.kept :=
  (rfl)

@[simp] theorem State.openRanges_kept (s : State) (c : CoreId) (rs : List (ℕ × ℕ)) : (s.openRanges c rs).kept = s.kept := by
  unfold State.openRanges; refine kept_foldl (fun t a => ?_) _ _; simp

@[simp] theorem State.throughWork_kept (s : State) (c : CoreId) (ins : List (ℕ × ℕ)) (outs : List (ℕ × ℕ)) (work : List
    (ℕ × ℕ)) (go : State → State) (h0 : ∀ z0, (go z0).kept = z0.kept) : (s.throughWork c ins outs work go).kept = s.kept := by
  simp_all [State.throughWork]

@[simp] theorem State.overSegs_kept (s : State) (c : CoreId) (x : SelCmd) (outs work : List (Nat × Nat))
    (parOk : SelPar → Bool) {go : SelPar → State → State} (h : ∀ r t, (go r t).kept = t.kept) : (s.overSegs c x outs work parOk go).Keeps s.kept := by
  simp only [State.overSegs]
  split
  · simp
  · refine State.overSpd_kept _ _ _ _ fun t => ?_
    split
    · simp
    · exact State.overSpd_kept _ _ _ _ fun t => State.overSpd_kept _ _ _ _ fun t => by simp [h]

@[simp] theorem State.selRun_kept (s : State) (c : CoreId) (x : SelCmd) (work : List (ℕ × ℕ)) (parOk : SelPar → Bool)
    (choose : SelPar → List SelElem → Selection) : (s.selRun c x work parOk choose).Keeps s.kept := by
  simp [State.selRun, kept_foldl_fst]

@[simp] theorem State.argmax_kept (s : State) (c : CoreId) (q : EngCmd) : (s.argmax c q).Keeps s.kept := by
  simp only [State.argmax]; split <;> simp

@[simp] theorem State.topkRun_kept (s : State) (c : CoreId) (q : EngCmd) : (s.topkRun c q).Keeps s.kept := by
  simp only [State.topkRun]; split <;> simp

@[simp] theorem State.btopkRun_kept (s : State) (c : CoreId) (q : EngCmd) : (s.btopkRun c q).Keeps s.kept := by
  simp only [State.btopkRun]; split <;> simp

@[simp] theorem State.mergeRun_kept (s : State) (c : CoreId) (q : EngCmd) : (s.mergeRun c q).Keeps s.kept := by
  simp only [State.mergeRun]
  split
  · simp
  · refine State.overSpd_kept _ _ _ _ fun t => ?_
    split
    · simp
    · refine State.overSpd_kept _ _ _ _ fun t => ?_
      split
      · simp
      · refine State.overSpd_kept _ _ _ _ fun t => ?_
        split <;> simp

@[simp] theorem State.sortRun_kept (s : State) (c : CoreId) (q : EngCmd) : (s.sortRun c q).Keeps s.kept := by
  simp only [State.sortRun]; (repeat' split) <;> simp [kept_foldl]

@[simp] theorem State.searchRun_kept (s : State) (c : CoreId) (q : EngCmd) : (s.searchRun c q).Keeps s.kept := by
  simp only [State.searchRun]; (repeat' split) <;> simp [kept_foldl]

@[simp] theorem State.selStep_kept (s : State) (c : CoreId) (op : ℕ) (run : EngCmd → State → EngineRun) (h0 : ∀ z0 z1,
    (run z0 z1).Keeps z1.kept) : (s.selStep c op run).kept = s.kept := by
  simp_all [State.selStep]

@[simp] theorem execArgmax_kept (c : CoreId) (s : State) : Keeps s.kept (execArgmax c s) := by simp [execArgmax]

@[simp] theorem execTopk_kept (c : CoreId) (s : State) : Keeps s.kept (execTopk c s) := by simp [execTopk]

@[simp] theorem execBtopk_kept (c : CoreId) (s : State) : Keeps s.kept (execBtopk c s) := by simp [execBtopk]

@[simp] theorem execMerge_kept (c : CoreId) (s : State) : Keeps s.kept (execMerge c s) := by simp [execMerge]

@[simp] theorem execSort_kept (c : CoreId) (s : State) : Keeps s.kept (execSort c s) := by simp [execSort]

@[simp] theorem execSearch_kept (c : CoreId) (s : State) : Keeps s.kept (execSearch c s) := by simp [execSearch]

@[simp] theorem State.selclr_kept (s : State) (c : CoreId) (h : Half) (v : Word) : (s.selclr c h v).kept = s.kept := by
  simp [State.selclr]

@[simp] theorem execSelclr_kept (c : CoreId) (h : Half) (v : Word) (s : State) : Keeps s.kept (execSelclr c h v s) := by
  simp [execSelclr]

/-! #### Slice time -/

@[simp] theorem State.modTb_kept (s : State) (f : TbState → TbState) :
    (s.modTb f).kept = ⟨s.pending, (f s.tb).cnt, s.ddr.rgn, s.clo.blocks, s.clo.image, s.clo.ref, s.crn.minSvn, s.crn.running⟩ :=
  (rfl)

@[simp] theorem State.pdreqSend_kept (s : State) (p : Fin 6) : (s.pdreqSend p).kept = s.kept := by simp [State.pdreqSend]

@[simp] theorem execPdreqSend_kept (p : Fin 6) (s : State) : Keeps s.kept (execPdreqSend p s) := by simp [execPdreqSend]

@[simp] theorem execPdreq_kept (p : MgmtAt) (s : State) : Keeps s.kept (execPdreq p s) := by simp [execPdreq]

@[simp] theorem State.pdresp_kept (s : State) (p : Fin 6) (t2 : Word) (t3 : Word) : (s.pdresp p t2 t3).kept = s.kept := by
  unfold State.pdresp; split <;> simp

@[simp] theorem execPdresp_kept (p : MgmtAt) (t2 : Word) (t3 : Word) (s : State) : Keeps s.kept (execPdresp p t2 t3 s) := by
  simp [execPdresp]

@[simp] theorem State.syncOut_kept (s : State) (time : Word) : (s.syncOut time).kept = s.kept := by
  simp [State.syncOut, kept_foldl]

@[simp] theorem execSliceSyncSend_kept (s : State) : Keeps s.kept (execSliceSyncSend s) := by simp [execSliceSyncSend]

@[simp] theorem State.syncIn_kept (s : State) (p : Fin 6) (time : Word) (r : BitVec 32) : (s.syncIn p time r).kept = s.kept := by
  simp [State.syncIn]

@[simp] theorem execSync_kept (p : MgmtAt) (time : Word) (r : BitVec 32) (s : State) : Keeps s.kept (execSync p time r s) := by
  simp [execSync]

@[simp] theorem State.syncLoss_kept (s : State) : (s.syncLoss).kept = s.kept := by unfold State.syncLoss; split <;> simp

@[simp] theorem execSliceSyncLoss_kept (s : State) : Keeps s.kept (execSliceSyncLoss s) := by simp [execSliceSyncLoss]

@[simp] theorem execBridgeSend_kept (k : Fin 2) (s : State) : Keeps s.kept (execBridgeSend k s) := by simp [execBridgeSend]

@[simp] theorem State.bridgeIn_kept (s : State) (k : Fin 2) (time : Word) : (s.bridgeIn k time).kept = s.kept := by
  simp [State.bridgeIn]

@[simp] theorem execBridge_kept (k : Fin 2) (b : BridgeTime) (s : State) : Keeps s.kept (execBridge k b s) := by simp [execBridge]

@[simp] theorem State.bridgeLoss_kept (s : State) (k : Fin 2) : (s.bridgeLoss k).kept = s.kept := by
  unfold State.bridgeLoss; split <;> simp

@[simp] theorem execBridgeLoss_kept (k : Fin 2) (s : State) : Keeps s.kept (execBridgeLoss k s) := by simp [execBridgeLoss]

/-! #### Register reads -/

@[simp] theorem State.devRead_kept (s : State) (who : DdrWho) (a : ℕ) (n : ℕ) : (s.devRead who a n).1.kept = s.kept := by
  simp only [State.devRead]; (repeat' split) <;> simp

/-! #### DMA: operations -/

@[simp] theorem State.modDch_kept (s : State) (e : DmaEng) (ch : Fin 16) (f : DmaChan → DmaChan) :
    (s.modDch e ch f).kept = s.kept := by
  unfold State.modDch; split <;> simp

@[simp] theorem State.dmaPost_kept (s : State) (e : DmaEng) (ch : Fin 16) (code : ℕ) (fault : Bool) :
    (s.dmaPost e ch code fault).kept = s.kept :=
  (rfl)

@[simp] theorem State.dmaRefuse_kept (s : State) (e : DmaEng) : (s.dmaRefuse e).kept = s.kept := (rfl)

@[simp] theorem State.descRead_kept (s : State) (e : DmaEng) (ch : Fin 16) (a : Nat) (sp : Bool) :
    (s.descRead e ch a sp).1.kept = s.kept := by
  have hr := State.devRead_kept s (s.dmaWho e ch) a 64
  simp only [State.descRead]
  (repeat' split) <;> simp_all

@[simp] theorem State.endList_kept (s : State) (e : DmaEng) (ch : Fin 16) (endc : ℕ) : (s.endList e ch endc).kept = s.kept := by
  unfold State.endList; split <;> simp

@[simp] theorem State.breakList_kept (s : State) (e : DmaEng) (ch : Fin 16) : (s.breakList e ch).kept = s.kept := by
  simp [State.breakList]

@[simp] theorem State.fetchCur_kept (s : State) (e : DmaEng) (ch : Fin 16) : (s.fetchCur e ch).kept = s.kept := by
  have hr := State.descRead_kept s e ch (s.dch e ch).want (s.dch e ch).wsp
  simp only [State.fetchCur]
  split
  · split
    · split <;> simp
    · split
      · rfl
      next t h =>
        have ht : t.kept = s.kept := by simpa [h] using hr
        split <;> simp [ht]
      next t d h =>
        have ht : t.kept = s.kept := by simpa [h] using hr
        simp [ht]
  · rfl

@[simp] theorem State.startList_kept (s : State) (e : DmaEng) (ch : Fin 16) (head : ℕ) (hsp : Bool) (level : ℕ) (soff : ℕ)
    (sen : Bool) (reg : Bool) : (s.startList e ch head hsp level soff sen reg).kept = s.kept := by
  simp [State.startList]

@[simp] theorem State.chanGo_kept (s : State) (e : DmaEng) (ch : Fin 16) (ini : Ini) : (s.chanGo e ch ini).kept = s.kept := by
  simp only [State.chanGo]; (repeat' split) <;> simp

@[simp] theorem State.chanStop_kept (s : State) (e : DmaEng) (ch : Fin 16) : (s.chanStop e ch).kept = s.kept := by
  simp [State.chanStop]

@[simp] theorem execDchGo_kept (e : DmaEng) (ch : Fin 16) (ini : Initiator) (s : State) :
    Keeps s.kept (execDchGo e ch ini s) := by
  simp [execDchGo]

@[simp] theorem execDchStop_kept (e : DmaEng) (ch : Fin 16) (ini : Initiator) (s : State) :
    Keeps s.kept (execDchStop e ch ini s) := by
  simp [execDchStop]

@[simp] theorem State.dchWrite_kept (s : State) (e : DmaEng) (ch : Fin 16) (k : ℕ) (ini : Ini) (h : Half) (v : Word) :
    (s.dchWrite e ch k ini h v).kept = s.kept := by
  simp [State.dchWrite]

@[simp] theorem State.drgnWrite_kept (s : State) (d : Fin 2) (i : Fin 2) (limit : Bool) (ini : Ini) (h : Half) (v : Word) :
    (s.drgnWrite d i limit ini h v).kept = s.kept := by
  simp [State.drgnWrite]

@[simp] theorem State.dmaCmdRefuse_kept (s : State) (c : CoreId) : (s.dmaCmdRefuse c).kept = s.kept := by
  simp [State.dmaCmdRefuse]

@[simp] theorem State.dmaHead_kept (s : State) (c : CoreId) (mine : ℕ → Bool) (bad : EngCmd → Bool)
    (run : EngCmd → Fin 16 → State) (h0 : ∀ z0 z1, (run z0 z1).kept = s.kept) : (s.dmaHead c mine bad run).kept = s.kept := by
  simp only [State.dmaHead]; (repeat' split) <;> simp_all

@[simp] theorem State.dmaRun_kept (s : State) (c : CoreId) : (s.dmaRun c).kept = s.kept := by simp [State.dmaRun]

@[simp] theorem State.dmaStop_kept (s : State) (c : CoreId) : (s.dmaStop c).kept = s.kept := by simp [State.dmaStop]

@[simp] theorem execDmaRun_kept (c : CoreId) (s : State) : Keeps s.kept (execDmaRun c s) := by simp [execDmaRun]

@[simp] theorem execDmaStop_kept (c : CoreId) (s : State) : Keeps s.kept (execDmaStop c s) := by simp [execDmaStop]

/-! #### The bus -/

@[simp] theorem State.onHalf_kept (s : State) (o : ℕ) (data : List Byte) (f : Half → Word → State) (h0 : ∀ z0 z1,
    (f z0 z1).kept = s.kept) : (s.onHalf o data f).kept = s.kept := by
  simp only [State.onHalf]; (repeat' split) <;> simp_all

@[simp] theorem State.pciPut_kept (s : State) (ini : Ini) (o : ℕ) (data : List Byte) : (s.pciPut ini o data).kept = s.kept := by
  simp [State.pciPut]

@[simp] theorem State.evtPut_kept (s : State) (ini : Ini) (o : ℕ) (data : List Byte) : (s.evtPut ini o data).kept = s.kept := by
  simp [State.evtPut]

@[simp] theorem State.pwrPut_kept (s : State) (ini : Ini) (o : ℕ) (data : List Byte) : (s.pwrPut ini o data).kept = s.kept := by
  simp [State.pwrPut]

@[simp] theorem State.spdPut_kept (s : State) (c : CoreId) (ini : Ini) (o : ℕ) (data : List Byte) :
    (s.spdPut c ini o data).kept = s.kept := by
  simp [State.spdPut]

@[simp] theorem State.ringPut_kept (s : State) (p : Fin 4) (ini : Ini) (k : ℕ) (h : Half) (v : Word) :
    (s.ringPut p ini k h v).kept = s.kept := by
  unfold State.ringPut; split <;> simp

@[simp] theorem State.ingPut_kept (s : State) (ini : Ini) (o : ℕ) (data : List Byte) : (s.ingPut ini o data).kept = s.kept := by
  simp [State.ingPut, kept_foldl]

@[simp] theorem State.grdPut_kept (s : State) (ini : Ini) (o : ℕ) (data : List Byte) : (s.grdPut ini o data).kept = s.kept := by
  simp [State.grdPut]

@[simp] theorem State.mxePut_kept (s : State) (c : CoreId) (o : ℕ) (data : List Byte) : (s.mxePut c o data).kept = s.kept := by
  simp [State.mxePut]

@[simp] theorem State.vecPut_kept (s : State) (c : CoreId) (ini : Ini) (o : ℕ) (data : List Byte) :
    (s.vecPut c ini o data).kept = s.kept := by
  simp [State.vecPut]

@[simp] theorem State.selPut_kept (s : State) (c : CoreId) (o : ℕ) (data : List Byte) : (s.selPut c o data).kept = s.kept := by
  simp [State.selPut]

@[simp] theorem State.nmgPut_kept (s : State) (ini : Ini) (o : ℕ) (data : List Byte) : (s.nmgPut ini o data).kept = s.kept := by
  simp [State.nmgPut]

@[simp] theorem State.dmaPut_kept (s : State) (ini : Ini) (o : ℕ) (data : List Byte) : (s.dmaPut ini o data).kept = s.kept := by
  simp [State.dmaPut]

@[simp] theorem State.ddrRegPut_kept (s : State) {ini : Ini} (o : Nat) (data : List Byte) (h : ini ≠ 0x70) :
    (s.ddrRegPut ini o data).kept = s.kept := by
  unfold State.ddrRegPut
  refine State.onHalf_kept _ _ _ _ fun hw v => ?_
  split
  · exact State.rgnWrite_kept _ _ _ _ h
  · split <;> simp

@[simp] theorem State.fabPut_kept (s : State) {ini : Ini} (o : Nat) (data : List Byte) (h : ini ≠ 0x70) :
    (s.fabPut ini o data).kept = s.kept := by
  unfold State.fabPut
  split
  · simp
  · exact State.onHalf_kept _ _ _ _ fun hw v => by (repeat' split) <;> simp_all

@[simp] theorem State.tbDomPut_kept (s : State) (d : Fin 2) (ini : Ini) (k : ℕ) (h : Half) (v : Word) :
    (s.tbDomPut d ini k h v).kept = s.kept := by
  unfold State.tbDomPut; split <;> simp

@[simp] theorem State.tbPut_kept (s : State) (ini : Ini) (o : ℕ) (data : List Byte) : (s.tbPut ini o data).kept = s.kept := by
  simp only [State.tbPut]; (repeat' split) <;> simp

@[simp] theorem State.gntArmPut_kept (s : State) (ini : Ini) (w : Word) : (s.gntArmPut ini w).kept = s.kept := by
  simp [State.gntArmPut]

@[simp] theorem State.gntPut_kept (s : State) (ini : Ini) (o : ℕ) (data : List Byte) : (s.gntPut ini o data).kept = s.kept := by
  simp [State.gntPut]

@[simp] theorem State.fltPut_kept (s : State) (ini : Ini) (o : ℕ) (data : List Byte) : (s.fltPut ini o data).kept = s.kept := by
  simp [State.fltPut]

@[simp] theorem State.crnPut_kept (s : State) (ini : Ini) (o : ℕ) (data : List Byte) : (s.crnPut ini o data).kept = s.kept := by
  simp [State.crnPut]

@[simp] theorem State.regPut_kept (s : State) {ini : Ini} (o : Nat) (data : List Byte) (h : ini ≠ 0x70) :
    (s.regPut ini o data).kept = s.kept := by
  have hd := State.ddrRegPut_kept s (o - 0x3200000) data h
  have hf := State.fabPut_kept s (o - 0x3400000) data h
  unfold State.regPut
  simp [hd, hf]

@[simp] theorem State.regPuts_kept (s : State) {ini : Ini} (l : List (Nat × List Byte)) (h : ini ≠ 0x70) :
    (s.regPuts ini l).1.kept = s.kept := by
  induction l generalizing s with
  | nil => rfl
  | cons r l ih =>
    have hr := State.regPut_kept s r.1 r.2 h
    simp only [State.regPuts]; split <;> simp [ih, hr]

@[simp] theorem State.devWrite_kept (s : State) {who : DdrWho} (a : Nat) (data : List Byte) (h : who.ini ≠ 0x70) :
    (s.devWrite who a data).1.kept = s.kept := by
  have hr := fun l => State.regPuts_kept s l h
  unfold State.devWrite; split <;> simp [hr]

/-! #### DMA -/

@[simp] theorem State.dmaRead_kept (s : State) (e : DmaEng) (ch : Fin 16) (sp : Bool) (a : ℕ) (n : ℕ) :
    (s.dmaRead e ch sp a n).1.kept = s.kept := by
  unfold State.dmaRead; split <;> simp

@[simp] theorem State.dmaSrc_kept (s : State) (e : DmaEng) (ch : Fin 16) (sp : Bool) (a : ℕ) (n : ℕ) :
    (s.dmaSrc e ch sp a n).1.kept = s.kept := by
  simp only [State.dmaSrc]; (repeat' split) <;> simp

theorem State.dmaWho_ini (s : State) (e : DmaEng) (ch : Fin 16) : (s.dmaWho e ch).ini ≠ 0x70 := by
  have core : ∀ c : CoreId, (DmaEng.core c).ini ≠ 0x70 := by decide
  have die : ∀ d : Fin 2, (DmaEng.die d).ini ≠ 0x70 := by decide
  unfold State.dmaWho
  split
  next c => exact core c
  next d => split <;> exact die d

@[simp] theorem State.dmaWrite_kept (s : State) (e : DmaEng) (ch : Fin 16) (sp : Bool) (a : Nat) (bs : List Byte) :
    (s.dmaWrite e ch sp a bs).1.kept = s.kept := by
  unfold State.dmaWrite
  split
  · split <;> simp
  · exact State.devWrite_kept _ _ _ (State.dmaWho_ini _ _ _)

@[simp] theorem State.dmaUndef_kept (s : State) (e : DmaEng) (ch : Fin 16) (d : Rec64) : (s.dmaUndef e ch d).kept = s.kept := by
  simp [State.dmaUndef, kept_foldl]

@[simp] theorem State.indexEntry_kept (s : State) (pres : ℕ) (off : ℕ) : (s.indexEntry pres off).1.kept = s.kept := by
  unfold State.indexEntry; split <;> simp

@[simp] theorem State.setProg_kept (s : State) (e : DmaEng) (ch : Fin 16) (x : DmaProg) : (s.setProg e ch x).kept = s.kept := by
  simp [State.setProg]

@[simp] theorem State.descEnd_kept (s : State) (e : DmaEng) (ch : Fin 16) (x : DescEnd) : (s.descEnd e ch x).kept = s.kept := by
  simp [State.descEnd]

@[simp] theorem State.descFail_kept (s : State) (e : DmaEng) (ch : Fin 16) (d : Rec64) (x : DmaProg) (ecode : ℕ) :
    (s.descFail e ch d x ecode).kept = s.kept := by
  simp [State.descFail]

@[simp] theorem State.srcTaken_kept (s : State) (d : Rec64) (x : DmaProg) (bs : List Byte) :
    (s.srcTaken d x bs).1.kept = s.kept := by
  simp only [State.srcTaken]; (repeat' split) <;> simp

@[simp] theorem State.putRemote_kept (s : State) (e : DmaEng) (ch : Fin 16) (d : Rec64) (x : DmaProg) (a : ℕ) (bs : List Byte) :
    (s.putRemote e ch d x a bs).kept = s.kept := by
  simp [State.putRemote]

@[simp] theorem State.dmaBurst_kept (s : State) (e : DmaEng) (ch : Fin 16) : (s.dmaBurst e ch).kept = s.kept := by
  have hsrc := State.dmaSrc_kept s e ch (dSsp (s.dch e ch).desc)
  have hdst := State.dmaRead_kept s e ch (dDsp (s.dch e ch).desc)
  unfold State.dmaBurst
  dsimp only
  split
  next a n _ =>
    split
    next t h => simpa [h] using hsrc a n
    next t bs h => simpa [h] using hsrc a n
  next a n _ =>
    split
    next t h => simpa [h] using hdst a n
    next t bs h => simpa [h] using hdst a n
  · (repeat' split) <;> simp
  · split <;> simp

@[simp] theorem State.setDmaTok_kept (s : State) (e : DmaEng) (ch : Fin 16) : (s.setDmaTok e ch).kept = s.kept := by
  unfold State.setDmaTok; split <;> simp

@[simp] theorem State.dmaServe_kept (e : DmaEng) (ch : Fin 16) (n : Nat) (s : State) : (State.dmaServe e ch n s).kept = s.kept := by
  induction n generalizing s with
  | zero => rfl
  | succ n ih => simp only [State.dmaServe]; (repeat' split) <;> simp [ih]

@[simp] theorem State.prefetch_kept (s : State) (e : DmaEng) (ch : Fin 16) : (s.prefetch e ch).kept = s.kept := by
  have hr := State.descRead_kept s e ch (dNext (s.dch e ch).desc) (dNsp (s.dch e ch).desc)
  simp only [State.prefetch]
  split
  · rfl
  · split
    · rfl
    next t h =>
      have ht : t.kept = s.kept := by simpa [h] using hr
      simp [ht]
    next t d h =>
      have ht : t.kept = s.kept := by simpa [h] using hr
      simp [ht]

@[simp] theorem State.descStart_kept (s : State) (e : DmaEng) (ch : Fin 16) : (s.descStart e ch).kept = s.kept := by
  simp [State.descStart]

@[simp] theorem State.startAll_kept (s : State) (e : DmaEng) : (s.startAll e).kept = s.kept := by
  simp [State.startAll, kept_foldl]

@[simp] theorem State.dmaExec_kept (s : State) (e : DmaEng) (ch : Fin 16) (op : ℕ) : (s.dmaExec e ch op).kept = s.kept := by
  simp [State.dmaExec]

@[simp] theorem execDmaCopy_kept (e : DmaEng) (ch : Fin 16) (s : State) : Keeps s.kept (execDmaCopy e ch s) := by
  simp [execDmaCopy]

@[simp] theorem execDmaFill_kept (e : DmaEng) (ch : Fin 16) (s : State) : Keeps s.kept (execDmaFill e ch s) := by
  simp [execDmaFill]

@[simp] theorem execDmaCmp_kept (e : DmaEng) (ch : Fin 16) (s : State) : Keeps s.kept (execDmaCmp e ch s) := by simp [execDmaCmp]

@[simp] theorem execDmaCompress_kept (e : DmaEng) (ch : Fin 16) (s : State) : Keeps s.kept (execDmaCompress e ch s) := by
  simp [execDmaCompress]

@[simp] theorem State.dmaSignal_kept (s : State) (e : DmaEng) (ch : Fin 16) (d : Rec64) (half : Bool) :
    (s.dmaSignal e ch d half).kept = s.kept := by
  simp only [State.dmaSignal]; (repeat' split) <;> simp

@[simp] theorem State.halfSignal_kept (s : State) (e : DmaEng) (ch : Fin 16) : (s.halfSignal e ch).kept = s.kept := by
  simp [State.halfSignal]

@[simp] theorem execDmaHalfSignal_kept (e : DmaEng) (ch : Fin 16) (s : State) : Keeps s.kept (execDmaHalfSignal e ch s) := by
  simp [execDmaHalfSignal]

@[simp] theorem State.putStatus_kept (s : State) (e : DmaEng) (ch : Fin 16) (c : DmaChan) : (s.putStatus e ch c).kept = s.kept := by
  simp only [State.putStatus]
  split
  · split <;> simp
  · exact State.devWrite_kept _ _ _ (State.dmaWho_ini _ _ _)

@[simp] theorem State.advance_kept (s : State) (e : DmaEng) (ch : Fin 16) : (s.advance e ch).kept = s.kept := by
  simp only [State.advance]; (repeat' split) <;> simp

@[simp] theorem State.descDone_kept (s : State) (e : DmaEng) (ch : Fin 16) : (s.descDone e ch).kept = s.kept := by
  simp [State.descDone]

@[simp] theorem execDmaDescriptorDone_kept (e : DmaEng) (ch : Fin 16) (s : State) :
    Keeps s.kept (execDmaDescriptorDone e ch s) := by
  simp [execDmaDescriptorDone]

@[simp] theorem State.dmaParity_kept (s : State) (e : DmaEng) (ch : Fin 16) : (s.dmaParity e ch).kept = s.kept := by
  simp only [State.dmaParity]; split <;> simp

@[simp] theorem execDmaParityHalt_kept (e : DmaEng) (ch : Fin 16) (s : State) : Keeps s.kept (execDmaParityHalt e ch s) := by
  simp [execDmaParityHalt]

/-! #### Host reads -/

@[simp] theorem State.complete_kept (s : State) (bs : List Byte) : (s.complete bs).kept = s.kept := (rfl)

@[simp] theorem State.readBar0_kept (s : State) (off : ℕ) (n : ℕ) : (s.readBar0 off n).kept = s.kept := by simp [State.readBar0]

@[simp] theorem State.readBar2_kept (s : State) (off : ℕ) (n : ℕ) : (s.readBar2 off n).kept = s.kept := by simp [State.readBar2]

@[simp] theorem State.readPf1_kept (s : State) (off : ℕ) (n : ℕ) : (s.readPf1 off n).kept = s.kept := by simp [State.readPf1]

@[simp] theorem State.hostRead_kept (s : State) (b : HostSpace) (off : ℕ) (n : ℕ) (f : TlpFault) :
    (s.hostRead b off n f).kept = s.kept := by
  simp only [State.hostRead]; (repeat' split) <;> simp

@[simp] theorem execHostRead_kept (b : HostSpace) (off : ℕ) (n : ℕ) (f : TlpFault) (s : State) :
    Keeps s.kept (execHostRead b off n f s) := by
  simp [execHostRead]

@[simp] theorem State.pf1Put_kept (s : State) (off : ℕ) (data : List Byte) : (s.pf1Put off data).kept = s.kept := by
  simp [State.pf1Put]

@[simp] theorem State.cfgRequest_kept (s : State) (pf1 : Bool) (op : CfgOp) : (s.cfgRequest pf1 op).kept = s.kept := by
  simp [State.cfgRequest]

@[simp] theorem execConfigurationRequest_kept (pf1 : Bool) (op : CfgOp) (s : State) :
    Keeps s.kept (execConfigurationRequest pf1 op s) := by
  simp [execConfigurationRequest]

@[simp] theorem State.flr1_kept (s : State) : (s.flr1).kept = s.kept := (rfl)

@[simp] theorem execFlrPf1_kept (s : State) : Keeps s.kept (execFlrPf1 s) := by simp [execFlrPf1]

/-! #### Monitors -/

@[simp] theorem State.monitored_kept (s : State) (m : Monitor) (x : ℕ) : (s.monitored m x).kept = s.kept := by
  simp [State.monitored]

@[simp] theorem execMonitorViolation_kept (x : Measured) (s : State) : Keeps s.kept (execMonitorViolation x s) := by
  simp [execMonitorViolation]

/-! #### Queries -/

@[simp] theorem State.overQuery_kept (s : State) (c : CoreId) (x : QueryCmd) {work : State → EngineRun} (h : ∀ t,
    (work t).Keeps t.kept) : (s.overQuery c x work).Keeps s.kept :=
  State.overSpd_kept _ _ _ _ fun _ => State.overSpd_kept _ _ _ _ fun _ => State.overSpd_kept _ _ _ _ h

@[simp] theorem State.knnStore_kept (s : State) (c : CoreId) (x : QueryCmd) (i : ℕ) (row : List Byte) :
    (s.knnStore c x i row).kept = s.kept :=
  (rfl)

@[simp] theorem State.queryEnd_kept (s : State) (c : CoreId) (bad : ℕ) (ovf : ℕ) : (s.queryEnd c bad ovf).kept = s.kept := by
  simp [State.queryEnd]

@[simp] theorem State.ball_kept (s : State) (c : CoreId) (q : EngCmd) : (s.ball c q).Keeps s.kept := by
  simp only [State.ball]; (repeat' split) <;> simp [kept_foldl]

@[simp] theorem State.knnc_kept (s : State) (c : CoreId) (q : EngCmd) : (s.knnc c q).Keeps s.kept := by
  simp only [State.knnc]; (repeat' split) <;> simp [kept_foldl]

@[simp] theorem State.fpsPasses_kept (s : State) (c : CoreId) (wk : ℕ) (n : ℕ) (m : ℕ) (t : State) (h0 : t.kept = s.kept) :
    (s.fpsPasses c wk n m t).Keeps s.kept := by
  simp only [State.fpsPasses]; (repeat' split) <;> simp_all

@[simp] theorem State.fps_kept (s : State) (c : CoreId) (q : EngCmd) : (s.fps c q).Keeps s.kept := by
  simp only [State.fps]; (repeat' split) <;> simp

@[simp] theorem vdBrick_kept (c : CoreId) (d : Rec64) (out cap : Nat) (runs : Option Nat) (r : Nat) (b : Brick)
    (block : List Byte) (x : VdRun) : (vdBrick c d out cap runs r b block x).s.kept = x.s.kept := by
  simp only [vdBrick]; split <;> simp

@[simp] theorem vdSpilled_kept (c : CoreId) (g : GeoCore) (out cap : Nat) (runs : Option Nat) (n i : Nat) (x : VdRun) :
    (vdSpilled c g out cap runs n i x).s.kept = x.s.kept := by
  simp only [vdSpilled]; split <;> simp

theorem VdRun.kept_foldl {α : Type} {f : VdRun → α → VdRun} (h : ∀ x a, (f x a).s.kept = x.s.kept) (l : List α) (x : VdRun) :
    (l.foldl f x).s.kept = x.s.kept := by
  induction l generalizing x with
  | nil => rfl
  | cons a l ih => exact (ih _).trans (h x a)

@[simp] theorem State.vdWork_kept (s : State) (c : CoreId) (out cap : Nat) (runs : Option Nat) :
    (s.vdWork c out cap runs).kept = s.kept := by
  simp only [State.vdWork]; (repeat' split) <;> simp [VdRun.kept_foldl]

@[simp] theorem State.vdown_kept (s : State) (c : CoreId) (q : EngCmd) : (s.vdown c q).Keeps s.kept := by
  simp only [State.vdown]; split <;> simp

@[simp] theorem execBall_kept (c : CoreId) (s : State) : Keeps s.kept (execBall c s) := by simp [execBall]

@[simp] theorem execKnnc_kept (c : CoreId) (s : State) : Keeps s.kept (execKnnc c s) := by simp [execKnnc]

@[simp] theorem execFps_kept (c : CoreId) (s : State) : Keeps s.kept (execFps c s) := by simp [execFps]

@[simp] theorem execVdown_kept (c : CoreId) (s : State) : Keeps s.kept (execVdown c s) := by simp [execVdown]

/-! #### Rays -/

@[simp] theorem State.rayRoute_kept (s : State) (c : CoreId) (slot job : Nat) (rs : List (List Byte)) :
    (s.rayRoute c slot job rs).1.kept = s.kept :=
  kept_foldl_fst (fun t r => by dsimp only; split <;> simp) _ _

@[simp] theorem State.rayNote_kept (s : State) (c : CoreId) (k : RayCounts) : (s.rayNote c k).kept = s.kept := by
  simp [State.rayNote]

@[simp] theorem State.overScene_kept (c : CoreId) (x : RayCmd) {work : State → EngineRun} (h : ∀ t, (work t).Keeps t.kept)
    (n : Nat) (s : State) : (State.overScene c x work n s).Keeps s.kept := by
  induction n generalizing s with
  | zero => exact h s
  | succ n ih =>
    unfold State.overScene
    exact State.overSpd_kept s c 5 _ fun t => by dsimp only; split <;> simp [h, ih]

@[simp] theorem State.castRays_kept (s : State) (c : CoreId) (x : RayCmd) : (s.castRays c x).kept = s.kept := by
  simp [State.castRays]

@[simp] theorem State.cast_kept (s : State) (c : CoreId) (q : EngCmd) : (s.cast c q).Keeps s.kept := by
  unfold State.cast
  exact EngineRun.keeps_ite_refuse (State.overSpd_kept _ _ _ _ fun t => EngineRun.keeps_ite_refuse (EngineRun.keeps_ite_refuse
    ((EngineRun.keeps_onHold (by simp) _).mpr (State.overSpd_kept _ _ _ _ fun t => EngineRun.keeps_ite_refuse
      (State.overScene_kept _ _ (fun t => by simp) _ _)))))

@[simp] theorem State.castComplete_kept (s : State) (c : CoreId) : (s.castComplete c).kept = s.kept := by
  unfold State.castComplete; split <;> simp

@[simp] theorem State.commandComplete_kept (s : State) (c : CoreId) (e : Fin 7) : (s.commandComplete c e).kept = s.kept := by
  simp [State.commandComplete]

@[simp] theorem execEngineCommandComplete_kept (c : CoreId) (e : Fin 7) (s : State) :
    Keeps s.kept (execEngineCommandComplete c e s) := by
  simp [execEngineCommandComplete]

@[simp] theorem execCast_kept (c : CoreId) (s : State) : Keeps s.kept (execCast c s) := by simp [execCast]

/-! #### Restarts -/

@[simp] theorem State.checkRecords_kept (s : State) (lost : List (Fin 512)) : (s.checkRecords lost).kept = s.kept := by
  unfold State.checkRecords; refine kept_foldl (fun t a => ?_) _ _; simp

@[simp] theorem State.buildMap_kept (s : State) : (s.buildMap).kept = s.kept := by simp [State.buildMap]

@[simp] theorem State.excludeLanes_kept (s : State) : (s.excludeLanes).kept = s.kept := (rfl)

@[simp] theorem State.markDevices_kept (s : State) : (s.markDevices).kept = s.kept := by simp [State.markDevices, kept_foldl]

@[simp] theorem State.ddrCold_kept (s : State) (e : StartEnv) : (s.ddrCold e).kept = s.kept := by
  simp only [State.ddrCold]; split <;> simp [kept_foldl, DdrState.running]

@[simp] theorem State.dimmLimits_kept (s : State) : (s.dimmLimits).kept = s.kept := (rfl)

@[simp] theorem State.ddrWarm_kept (s : State) : (s.ddrWarm).kept = s.kept := by
  unfold State.ddrWarm; split <;> simp [DdrState.running]

@[simp] theorem State.applyExt_kept (s : State) : (s.applyExt).kept = s.kept := by
  unfold State.applyExt; refine kept_foldl (fun t a => ?_) _ _; (repeat' split) <;> simp

@[simp] theorem State.applyRate_kept (s : State) : (s.applyRate).kept = s.kept := by simp [State.applyRate]

@[simp] theorem State.releaseAll_kept (s : State) : (s.releaseAll).kept = s.kept := (rfl)

@[simp] theorem State.resume_kept (s : State) : (s.resume).kept = s.kept := by simp [State.resume]

/-! #### Sparse operands -/

@[simp] theorem State.badIndex_kept (s : State) (c : CoreId) : (s.badIndex c).kept = s.kept := (rfl)

@[simp] theorem State.spWork_kept (s : State) (c : CoreId) (x : MmCmd) (ls : List (SpLine × ℕ × Bool)) (recs : List (ℕ × ℕ)) :
    (s.spWork c x ls recs).kept = s.kept := by
  simp [State.spWork]

@[simp] theorem State.spmm_kept (s : State) (c : CoreId) (q : EngCmd) : (s.spmm c q).Keeps s.kept := by
  simp only [State.spmm]
  split
  · simp
  · exact State.onRamp_kept _ _ fun t => State.onZeroPoints_kept _ _ _ fun t => State.overSpd_kept _ _ _ _ fun t =>
      State.overSpd_kept _ _ _ _ fun t => State.overSpd_kept _ _ _ _ fun t => State.steps_kept _ _ fun t => by simp

@[simp] theorem execSpmm_kept (c : CoreId) (s : State) : Keeps s.kept (execSpmm c s) := by simp [execSpmm]

@[simp] theorem State.nbRecord_kept (s : State) (c : CoreId) (x : NbCmd) (n : NbCounts) (r : Nat) :
    (s.nbRecord c x n r).1.kept = s.kept := by
  simp only [State.nbRecord, State.narrowPut_kept]
  exact kept_foldl_fst (fun t i => by split <;> simp) _ _

@[simp] theorem State.nbWork_kept (s : State) (c : CoreId) (x : NbCmd) : (s.nbWork c x).kept = s.kept := by
  simp [State.nbWork, kept_foldl_fst]

@[simp] theorem State.nbmap_kept (s : State) (c : CoreId) (q : EngCmd) : (s.nbmap c q).Keeps s.kept := by
  unfold State.nbmap; split <;> simp

@[simp] theorem execNbmap_kept (c : CoreId) (s : State) : Keeps s.kept (execNbmap c s) := by simp [execNbmap]

@[simp] theorem State.scEnd_kept (s : State) (c : CoreId) (n : ScCounts) : (s.scEnd c n).kept = s.kept := by simp [State.scEnd]

@[simp] theorem State.scWork_kept (s : State) (c : CoreId) (x : ScCmd) : (s.scWork c x).kept = s.kept := by simp [State.scWork]

@[simp] theorem State.sconv_kept (s : State) (c : CoreId) (q : EngCmd) : (s.sconv c q).Keeps s.kept := by
  simp only [State.sconv]
  split
  · simp
  · refine State.onRamp_kept _ _ fun t => State.overSpd_kept _ _ _ _ fun t => ?_
    split
    · simp
    · exact State.overSpd_kept _ _ _ _ fun t => State.overSpd_kept _ _ _ _ fun t => State.steps_kept _ _ fun t => by simp

@[simp] theorem execSconv_kept (c : CoreId) (s : State) : Keeps s.kept (execSconv c s) := by simp [execSconv]

/-! #### Time -/

@[simp] theorem State.clocks_kept (s : State) : (s.clocks).kept = s.kept := by simp [State.clocks]

@[simp] theorem State.fwdTick_kept (s : State) (p : Fin 4) : (s.fwdTick p).kept = s.kept := by
  simp only [State.fwdTick]; (repeat' split) <;> simp

@[simp] theorem State.ptpTick_kept (s : State) : (s.ptpTick).kept = s.kept := by simp [State.ptpTick, kept_foldl]

@[simp] theorem State.crownTick_kept (s : State) : (s.crownTick).kept = s.kept := by simp [State.crownTick]

@[simp] theorem State.mainTick_kept (s : State) : (s.mainTick).kept = s.kept := by simp [State.mainTick, kept_foldl]

/-- No GiB lies in two enabled regions of a region table (R328). -/
def rgnsApart (v : Vector Word 16) : Prop :=
  ∀ i j : Fin 16, i ≠ j → rgnEn v[i] = true → rgnEn v[j] = true →
    ¬ ∃ g, (rgnBase v[i] ≤ g ∧ g < rgnBase v[i] + rgnSize v[i]) ∧ (rgnBase v[j] ≤ g ∧ g < rgnBase v[j] + rgnSize v[j])

theorem DdrState.regionsApart_iff (d : DdrState) : d.regionsApart ↔ rgnsApart d.rgn := Iff.rfl

/-- What a register write, Crown or a restart may do to what is kept: write a region that stays apart from the others (R328),
raise MINSVN, and run an image that is no older than MINSVN (R465, R466). -/
structure Kept.Follows (k l : Kept) : Prop where
  pending : l.pending = k.pending
  cnt : l.cnt = k.cnt
  blocks : l.blocks = k.blocks
  image : l.image = k.image
  ref : l.ref = k.ref
  rgn : rgnsApart k.rgn → rgnsApart l.rgn
  minSvn : k.minSvn ≤ l.minSvn
  running : ∀ bs, l.running = some bs → l.running ≠ k.running → k.minSvn ≤ imgSvn bs

theorem Kept.Follows.refl (k : Kept) : k.Follows k :=
  ⟨rfl, rfl, rfl, rfl, rfl, id, le_rfl, fun _ _ h => absurd rfl h⟩

theorem Kept.Follows.of_eq {k l : Kept} (h : l = k) : k.Follows l := h ▸ Kept.Follows.refl k

theorem Kept.Follows.trans {k l m : Kept} (h : k.Follows l) (g : l.Follows m) : k.Follows m where
  pending := g.pending.trans h.pending
  cnt := g.cnt.trans h.cnt
  blocks := g.blocks.trans h.blocks
  image := g.image.trans h.image
  ref := g.ref.trans h.ref
  rgn := g.rgn ∘ h.rgn
  minSvn := h.minSvn.trans g.minSvn
  running := fun bs hm hne => by
    by_cases he : m.running = l.running
    · exact h.running bs (he ▸ hm) (he ▸ hne)
    · exact h.minSvn.trans (g.running bs hm he)

theorem Kept.Follows.ite {k : Kept} {p : Prop} [Decidable p] {a b : State} (ha : k.Follows a.kept) (hb : k.Follows b.kept) :
    k.Follows (if p then a else b).kept := by
  split
  · exact ha
  · exact hb

theorem foldl_follows {α : Type} {f : State → α → State} (h : ∀ (t : State) (a : α), t.kept.Follows (f t a).kept) (l : List α) (s : State) :
    s.kept.Follows (l.foldl f s).kept := by
  induction l generalizing s with
  | nil => exact Kept.Follows.refl _
  | cons a l ih => exact (h s a).trans (ih _)

/-! ### Writes of the region registers (R328) -/

/-- A region that overlaps an enabled one is refused. -/
theorem State.rgnOverlap_of_accepted {s : State} {i j : Fin 16} {ini : Ini} {v : Word} (h : s.rgnRefused i ini v = false)
    (hij : j ≠ i) : rgnOverlap v s.ddr.rgn[j] = false := by
  simp only [State.rgnRefused, Bool.or_eq_false_iff] at h
  obtain ⟨⟨⟨⟨-, h⟩, -⟩, -⟩, -⟩ := h
  have := List.any_eq_false.mp h j (List.mem_finRange j)
  simpa [hij] using this

/-- Enabled regions that do not overlap share no GiB. -/
theorem gib_not_shared {v w : Word} (h : rgnOverlap v w = false) (hv : rgnEn v = true) (hw : rgnEn w = true) (g : Nat) :
    ¬ ((rgnBase v ≤ g ∧ g < rgnBase v + rgnSize v) ∧ (rgnBase w ≤ g ∧ g < rgnBase w + rgnSize w)) := by
  simp only [rgnOverlap, hv, hw, Bool.true_and, Bool.or_eq_false_iff, overlaps, Bool.and_eq_false_iff, decide_eq_false_iff_not] at h
  omega

/-- A region written beside regions that it does not overlap leaves the table apart. -/
theorem rgnsApart_set {r : Vector Word 16} {i : Fin 16} {v : Word} (ha : rgnsApart r)
    (h : ∀ j : Fin 16, j ≠ i → rgnOverlap v r[j] = false) : rgnsApart (r.set i v) := by
  have at_ (k : Fin 16) : (r.set i v)[k] = if k = i then v else r[k] := by
    simp [Vector.getElem_set, Fin.ext_iff, eq_comm]
  intro a b hab
  rw [at_, at_]
  split_ifs with hai hbi hbi
  · exact absurd (hai.trans hbi.symm) hab
  · intro hv hw ⟨g, hg⟩
    exact gib_not_shared (h b hbi) hv hw g hg
  · intro hw hv ⟨g, hga, hgb⟩
    exact gib_not_shared (h a hai) hv hw g ⟨hgb, hga⟩
  · exact ha a b hab

theorem State.rgnWrite_follows (s : State) (i : Fin 16) (ini : Ini) (hw : Half) (v : Word) :
    s.kept.Follows (s.rgnWrite i ini hw v).kept := by
  simp only [State.rgnWrite]
  split
  · exact .of_eq (State.postPart_kept _ _ _ _)
  next h =>
    simp only [not_or, Bool.not_eq_true] at h
    exact { Kept.Follows.refl s.kept with rgn := fun ha => rgnsApart_set ha fun j hj => State.rgnOverlap_of_accepted h.1 hj }

theorem State.onHalf_follows (s : State) (o : Nat) (data : List Byte) {f : Half → Word → State}
    (h : ∀ hw v, s.kept.Follows (f hw v).kept) : s.kept.Follows (s.onHalf o data f).kept := by
  unfold State.onHalf
  split
  · exact h _ _
  · exact .refl _

theorem State.ddrRegPut_follows (s : State) (ini : Ini) (o : Nat) (data : List Byte) :
    s.kept.Follows (s.ddrRegPut ini o data).kept := by
  refine s.onHalf_follows o data fun hw v => ?_
  split
  · exact s.rgnWrite_follows _ _ _ _
  · exact .of_eq (by split <;> simp)

theorem State.cfgApply_follows (s : State) (i : Nat) (v : BitVec 128) : s.kept.Follows (s.cfgApply i v).kept := by
  simp only [State.cfgApply]
  split
  · exact s.rgnWrite_follows _ _ _ _
  · exact .of_eq (by (repeat' split) <;> simp)

theorem State.fabCrown_follows (s : State) (o : Nat) (hw : Half) (v : Word) : s.kept.Follows (s.fabCrown o hw v).kept := by
  simp only [State.fabCrown]
  split
  · exact s.cfgApply_follows _ _
  · split
    · exact s.cfgApply_follows _ _
    · exact .of_eq (by (repeat' split) <;> simp)

theorem State.fabPut_follows (s : State) (ini : Ini) (o : Nat) (data : List Byte) : s.kept.Follows (s.fabPut ini o data).kept := by
  unfold State.fabPut
  split
  · exact .of_eq (by simp)
  · refine s.onHalf_follows o data fun hw v => ?_
    split
    · exact .of_eq (by split <;> simp)
    · split
      · exact s.fabCrown_follows _ _ _
      · exact .refl _

theorem State.regPut_follows (s : State) (ini : Ini) (o : Nat) (data : List Byte) : s.kept.Follows (s.regPut ini o data).kept := by
  by_cases h : ini = 0x70
  · have hd := s.ddrRegPut_follows ini (o - 0x3200000) data
    have hf := s.fabPut_follows ini (o - 0x3400000) data
    unfold State.regPut
    iterate 11 refine .ite (.of_eq (by simp)) ?_
    refine .ite hd (.ite hf ?_)
    iterate 4 refine .ite (.of_eq (by simp)) ?_
    exact .refl _
  · exact .of_eq (State.regPut_kept s o data h)

theorem State.regWrite_follows (s : State) (ini : Ini) (o : Nat) (data : List Byte) : s.kept.Follows (s.regWrite ini o data).kept :=
  foldl_follows (fun t (r : Nat × List Byte) => t.regPut_follows ini r.1 r.2) _ s

theorem State.regAccess_follows (s : State) (b : RegSpace) (off : Nat) (data : List Byte) (f : TlpFault) :
    s.kept.Follows (s.regAccess b off data f).kept := by
  unfold State.regAccess
  split
  · exact .refl _
  · split
    next ini =>
      unfold State.bar0Put
      split
      · exact .of_eq (by simp)
      · split
        · exact .refl _
        · split
          · exact .refl _
          · exact s.regWrite_follows _ _ _
    · exact .of_eq (by (repeat' split) <;> simp)
    · exact .of_eq (by simp)

theorem State.cfgWrite_follows (s : State) (r : MbxReq) (ok : Bool) : s.kept.Follows (s.cfgWrite r ok).1.kept := by
  simp only [State.cfgWrite]
  have ht : s.kept.Follows (if (r.num 18 1).testBit 0 = true then s.cfgApply (r.num 0 2) (BitVec.ofNat 128 (r.num 2 16)) else s).kept := by
    split
    · exact s.cfgApply_follows _ _
    · exact .refl _
  generalize (if (r.num 18 1).testBit 0 = true then s.cfgApply (r.num 0 2) (BitVec.ofNat 128 (r.num 2 16)) else s) = t at ht ⊢
  split
  · exact .refl _
  · (repeat' split) <;> simpa using ht

theorem State.mbxExec_follows (s : State) (opc : Nat) {f : Bool → MbxReq → State → State × MbxRes}
    (h : ∀ (b : Bool) (r : MbxReq) (t : State), t.kept.Follows (f b r t).1.kept) : s.kept.Follows (s.mbxExec opc f).kept := by
  have hf (b : Bool) (r : MbxReq) := h b r s.mbxSettle
  simp only [State.mbxSettle_kept] at hf
  simp only [State.mbxExec]
  split
  · exact .of_eq (by simp)
  · split
    · exact .of_eq (by simp)
    · split
      · exact .of_eq (by simp)
      · split
        · exact .of_eq (by simp)
        · simpa using hf _ _

theorem MbxReq.sized_follows (r : MbxReq) (n : Nat) (s : State) {f : State × MbxRes} (h : s.kept.Follows f.1.kept) :
    s.kept.Follows (r.sized n s f).1.kept := by
  unfold MbxReq.sized
  split
  · exact h
  · exact .refl _

/-! ### Crown's start (R465, R466) -/

theorem imgSvn_of_sound {bs : List Byte} {n : Nat} (h : imgFault bs n = none) : n ≤ imgSvn bs := by
  unfold imgFault at h
  split at h
  · cases h
  · split at h
    · cases h
    next hn => exact Nat.le_of_not_lt hn

theorem CrnState.svn_of_imageOk {c : CrnState} {bs : List Byte} (h : c.imageOk = true) (hi : c.image = some bs) : c.minSvn ≤ imgSvn bs := by
  simp only [CrnState.imageOk, hi, Bool.and_eq_true, Option.isNone_iff_eq_none] at h
  exact imgSvn_of_sound h.2

theorem CrnState.minSvn_le_rom (c : CrnState) (atStart : Bool) : c.minSvn ≤ (c.rom atStart).minSvn := by
  simp only [CrnState.rom]
  split
  · dsimp only
    split
    · exact le_max_left _ _
    · exact le_rfl
  · exact le_rfl

/-- The ROM starts no image that is older than MINSVN. -/
theorem CrnState.svn_of_rom_runs (c : CrnState) {atStart : Bool} {bs : List Byte} (hi : (c.rom atStart).running = some bs)
    (hne : (c.rom atStart).running ≠ c.running) : c.minSvn ≤ imgSvn bs := by
  simp only [CrnState.rom] at hi hne
  split at hi
  next h => exact CrnState.svn_of_imageOk h hi
  next h => exact absurd (by rw [if_neg h]) hne

theorem State.romStart_follows (s : State) (atStart : Bool) : s.kept.Follows (s.romStart atStart).kept := by
  have hrom : s.kept.Follows (s.modCrn fun c => { c.rom atStart with loopAt := s.tb.cnt, thermAt := s.tb.cnt }).kept :=
    { Kept.Follows.refl s.kept with
      minSvn := s.crn.minSvn_le_rom atStart
      running := fun bs hi hne => s.crn.svn_of_rom_runs hi hne }
  simp only [State.romStart]
  split
  · simpa using hrom
  · exact hrom

theorem State.watchdog_follows (s : State) (busy erased : Bool) : s.kept.Follows (s.watchdog busy erased).kept := by
  unfold State.watchdog
  split
  · exact .refl _
  · extract_lets u v
    have hu : u.kept = s.kept := by unfold u; split <;> simp
    have hv : v.kept = s.kept := by simp [v, hu]
    rw [← hv]
    simpa using v.romStart_follows (v.crn.mode = .recovery && v.crn.atStart)

/-! ### Restarts -/

theorem rgnsApart_reset : rgnsApart DdrState.reset.rgn :=
  DdrState.regionsApart_of_rgn_zero (d := DdrState.reset) fun i => by simp [DdrState.reset]

theorem State.assertReset_follows (s : State) (cold erased : Bool) : s.kept.Follows (s.assertReset cold erased).kept where
  pending := rfl
  cnt := by cases cold <;> rfl
  blocks := rfl
  image := rfl
  ref := rfl
  rgn := fun _ => rgnsApart_reset
  minSvn := le_rfl
  running := fun _ h => nomatch h

theorem State.restartBegin_follows (s : State) (r : Restart) (erased : Bool) : s.kept.Follows (s.restartBegin r erased).kept := by
  simpa [State.restartBegin] using s.assertReset_follows _ erased

theorem State.startRest_follows (s : State) (r : Restart) (e : StartEnv) : s.kept.Follows (s.startRest r e).kept := by
  have hmap : (s.checkRecords e.lost).applyMap.kept = s.kept := by
    unfold State.applyMap
    dsimp only
    split <;> simp [State.cfgApply]
  have hstored (t : State) : t.kept.Follows t.applyStored.kept := foldl_follows (fun t (e : Nat × BitVec 128) => t.cfgApply_follows e.1 e.2) _ t
  simp only [State.startRest]
  split
  · simpa [hmap] using hstored (((s.checkRecords e.lost).applyMap.buildMap.excludeLanes.markDevices.ddrCold e).applyRate.dimmLimits)
  · simpa [hmap] using hstored ((s.checkRecords e.lost).applyMap.buildMap.excludeLanes.markDevices.ddrWarm.dimmLimits)

/-- The ROM's start, and the rest of the start where an image runs. -/
theorem State.romThen_follows (s : State) (atStart : Bool) (p : Prop) [Decidable p] (r : Restart) (e : StartEnv) :
    s.kept.Follows (if p then (s.romStart atStart).startRest r e else s.romStart atStart).kept := by
  split
  · exact (s.romStart_follows _).trans (State.startRest_follows _ r e)
  · exact s.romStart_follows _

theorem State.proceed_follows (s : State) (e : StartEnv) : s.kept.Follows (s.proceed e).kept := by
  unfold State.proceed
  split
  · split
    · exact .refl _
    next r _ _ =>
      refine .trans ?_ (State.romThen_follows _ true _ r e)
      exact .of_eq (by simp)
  · exact .refl _

theorem State.commitImage_follows (s : State) (bs : List Byte) (e : StartEnv) : s.kept.Follows (s.commitImage bs e).kept := by
  refine .trans ?_ (State.romThen_follows _ _ _ s.pwr.start e)
  exact .of_eq (by simp)

theorem State.recoverCommit_follows (s : State) (r : MbxReq) (ok : Bool) (e : StartEnv) :
    s.kept.Follows (s.recoverCommit r ok e).1.kept := by
  simp only [State.recoverCommit]
  split
  · exact .refl _
  · split
    · exact .refl _
    · split
      · exact s.commitImage_follows _ _
      · exact .refl _

theorem State.restart_follows (s : State) (r : Restart) (erased : Bool) (e : StartEnv) :
    s.kept.Follows ((s.restartBegin r erased).proceed e).kept :=
  (s.restartBegin_follows r erased).trans (State.proceed_follows _ e)

theorem State.coldRestart_follows (s : State) (erased : Bool) (e : StartEnv) : s.kept.Follows (s.coldRestart erased e).kept := by
  unfold State.coldRestart
  split
  · split
    · exact .refl _
    · refine .trans ?_ (State.proceed_follows _ e)
      simpa using s.restartBegin_follows .cold erased
  · split
    · exact s.restart_follows _ _ _
    · exact .refl _
  · exact .refl _

theorem State.warmRestart_follows (s : State) (pin erased : Bool) (e : StartEnv) : s.kept.Follows (s.warmRestart pin erased e).kept := by
  unfold State.warmRestart
  extract_lets u
  have hu : u.kept = s.kept := by simp [u]
  rw [← hu]
  split
  · split
    · exact u.restart_follows _ _ _
    · exact .refl _
  · exact .refl _

theorem State.rstRelease_follows (s : State) (e : StartEnv) : s.kept.Follows (s.rstRelease e).kept := by
  simpa [State.rstRelease] using State.proceed_follows (s.modPwr fun p => { p with rstLow := false }) e

theorem State.tripRelease_follows (s : State) (e : StartEnv) : s.kept.Follows (s.tripRelease e).kept := by
  unfold State.tripRelease
  split
  · simpa using State.proceed_follows ((s.modPwr fun p => { p with trip := false }).pwrPost 0x9061) e
  · exact .refl _

theorem State.dozeExit_follows (s : State) (erased : Bool) : s.kept.Follows (s.dozeExit erased).kept := by
  unfold State.dozeExit
  split
  · exact .refl _
  · split
    · simpa using s.restartBegin_follows .warm erased
    · exact .of_eq (by simp)

@[simp] theorem State.kept_pending (s : State) : s.kept.pending = s.pending := rfl
@[simp] theorem State.kept_cnt (s : State) : s.kept.cnt = s.tb.cnt := rfl
@[simp] theorem State.kept_rgn (s : State) : s.kept.rgn = s.ddr.rgn := rfl
@[simp] theorem State.kept_blocks (s : State) : s.kept.blocks = s.clo.blocks := rfl
@[simp] theorem State.kept_image (s : State) : s.kept.image = s.clo.image := rfl
@[simp] theorem State.kept_ref (s : State) : s.kept.ref = s.clo.ref := rfl
@[simp] theorem State.kept_minSvn (s : State) : s.kept.minSvn = s.crn.minSvn := rfl
@[simp] theorem State.kept_running (s : State) : s.kept.running = s.crn.running := rfl

/-! ### Cloche: COMMIT, FWCOMMIT, the end of a ZERO and a start (R440, R441) -/

/-- A command of Cloche does to what is kept what its work does. -/
theorem State.cloExec_ind {P : Kept → Prop} (s : State) (opc : Nat) {f : CloChan → State → State × CloRes}
    (hs : P s.kept) (hf : ∀ c, P (f c s).1.kept) : P (s.cloExec opc f).kept := by
  unfold State.cloExec
  split
  · exact hs
  · dsimp only
    split
    · exact hs
    · split
      · simpa using hs
      · split
        · simpa using hs
        · simpa using hf _

/-- Only the blocks change, and only with the seal open. -/
theorem State.commitParam_kept (s : State) (b : Nat) :
    ∃ m, (s.commitParam b).1.kept = { s.kept with blocks := m } ∧ (s.clo.sealOpen = false → m = s.clo.blocks) := by
  simp only [State.commitParam]
  split
  · exact ⟨_, rfl, fun _ => rfl⟩
  next h =>
    split
    · exact ⟨_, rfl, fun _ => rfl⟩
    · split
      · exact ⟨_, rfl, fun _ => rfl⟩
      · exact ⟨_, rfl, fun hc => absurd hc (by simpa using h)⟩

theorem execCommit_kept (s : State) :
    ∃ t m, execCommit s = .next t ∧ t.kept = { s.kept with blocks := m } ∧ (s.clo.sealOpen = false → m = s.clo.blocks) := by
  have h : ∃ m, (s.cloExec 5 fun c s => s.commitParam (c.arg 0 4)).kept = { s.kept with blocks := m } ∧
      (s.clo.sealOpen = false → m = s.clo.blocks) :=
    State.cloExec_ind (P := fun k => ∃ m, k = { s.kept with blocks := m } ∧ (s.clo.sealOpen = false → m = s.clo.blocks)) s 5
      ⟨_, rfl, fun _ => rfl⟩ fun c => s.commitParam_kept _
  obtain ⟨m, hk, hm⟩ := h
  exact ⟨_, m, rfl, hk, hm⟩

/-- Only the image changes, and only with the seal open. -/
theorem State.fwcommit_kept (s : State) (n : Nat) (ok : Bool) :
    ∃ i, (s.fwcommit n ok).1.kept = { s.kept with image := i } ∧ (s.clo.sealOpen = false → i = s.clo.image) := by
  simp only [State.fwcommit]
  split
  · exact ⟨_, rfl, fun _ => rfl⟩
  next h =>
    split
    · exact ⟨_, rfl, fun _ => rfl⟩
    · split
      · exact ⟨_, rfl, fun _ => rfl⟩
      · split
        · exact ⟨_, rfl, fun _ => rfl⟩
        · exact ⟨_, rfl, fun hc => absurd hc (by simpa using h)⟩

theorem execFwcommit_kept (ok : Bool) (s : State) :
    ∃ t i, execFwcommit ok s = .next t ∧ t.kept = { s.kept with image := i } ∧ (s.clo.sealOpen = false → i = s.clo.image) := by
  have h : ∃ i, (s.cloExec 0x11 fun c s => s.fwcommit (c.arg 0 4) ok).kept = { s.kept with image := i } ∧
      (s.clo.sealOpen = false → i = s.clo.image) :=
    State.cloExec_ind (P := fun k => ∃ i, k = { s.kept with image := i } ∧ (s.clo.sealOpen = false → i = s.clo.image)) s 0x11
      ⟨_, rfl, fun _ => rfl⟩ fun c => s.fwcommit_kept _ _
  obtain ⟨i, hk, hi⟩ := h
  refine ⟨_, i, rfl, ?_, hi⟩
  simp only [State.fwcommitAll]
  split <;> simpa using hk

theorem State.capDone_kept (s : State) (c : CloCap) :
    ∃ r, (s.capDone c).kept = { s.kept with ref := r } ∧ (c.kind ≠ 3 → r = s.clo.ref) := by
  simp only [State.capDone]
  split
  next h3 =>
    split
    · exact ⟨s.clo.ref, by simp, fun h => absurd h3 h⟩
    · exact ⟨newRef (blockBytes c.blocks 0) c.cells, by simp, fun h => absurd h3 h⟩
  · exact ⟨_, by simp, fun _ => rfl⟩

/-- Only the zero references change, and only at the end of a ZERO. -/
theorem execCaptureEnd_kept (s : State) :
    ∃ t r, execCaptureEnd s = .next t ∧ t.kept = { s.kept with ref := r } ∧
      ((∀ c, s.clo.cap = some c → c.kind ≠ 3) → r = s.clo.ref) := by
  simp only [execCaptureEnd, State.captureEnd]
  split
  next c hc =>
    split
    · obtain ⟨r, hk, hr⟩ := s.capDone_kept c
      exact ⟨_, r, rfl, hk, fun h => hr (h c hc)⟩
    · exact ⟨_, _, rfl, rfl, fun _ => rfl⟩
  · exact ⟨_, _, rfl, rfl, fun _ => rfl⟩

theorem State.loseBlocks_kept (l : List Nat) (s : State) :
    ∃ m, (l.foldl State.loseBlock s).kept = { s.kept with blocks := m } ∧ (l = [] → m = s.clo.blocks) := by
  induction l generalizing s with
  | nil => exact ⟨_, rfl, fun _ => rfl⟩
  | cons b l ih =>
    obtain ⟨m, hm, -⟩ := ih (s.loseBlock b)
    exact ⟨m, hm, fun h => nomatch h⟩

theorem execClocheStart_kept (lost : List (Fin 17)) (bad : Bool) (s : State) :
    ∃ t m, execClocheStart lost bad s = .next t ∧ t.kept = { s.kept with blocks := m } ∧ (lost = [] → m = s.clo.blocks) := by
  obtain ⟨m, hk, hm⟩ := State.loseBlocks_kept (lost.map fun i => cloBlocks.getD i.val 0) s
  exact ⟨_, m, rfl, by simpa [State.cloPowerGood] using hk, fun h => hm (List.map_eq_nil_iff.mpr h)⟩

/-! ### PWROK_AO and time (R374) -/

theorem execPowerOff_kept (erased : Bool) (s : State) :
    ∃ t, execPowerOff erased s = .next t ∧
      t.kept = { s.kept with cnt := 0, rgn := State.reset.ddr.rgn, running := none } := by
  exact ⟨_, rfl, rfl⟩

theorem execAoPowerGood_kept (s : State) :
    ∃ t, execAoPowerGood s = .next t ∧ t.kept = { s.kept with cnt := if s.pwr.mode = .off then 0 else s.tb.cnt } := by
  refine ⟨_, rfl, ?_⟩
  unfold State.aoGood
  split
  next h => rfl
  next h => simp [not_not.mp h]; rfl

theorem State.tick_kept (s : State) :
    s.tick.kept = { s.kept with cnt := if s.pwr.mode = .off then s.tb.cnt else s.tb.cnt + 1 } := by
  simp only [State.tick]
  split
  · rfl
  · split
    · rw [State.mainTick_kept]; rfl
    · rfl

/-! ### The commands -/

/-- What command `c`, performed on state `s`, may leave as `l` of what is kept. -/
def After (s : State) (c : Instr) (l : Kept) : Prop :=
  match c with
  | .commit => ∃ m, l = { s.kept with blocks := m } ∧ (s.clo.sealOpen = false → m = s.clo.blocks)
  | .fwcommit _ => ∃ i, l = { s.kept with image := i } ∧ (s.clo.sealOpen = false → i = s.clo.image)
  | .captureEnd => ∃ r, l = { s.kept with ref := r } ∧ ((∀ c, s.clo.cap = some c → c.kind ≠ 3) → r = s.clo.ref)
  | .clocheStart lost _ => ∃ m, l = { s.kept with blocks := m } ∧ (lost = [] → m = s.clo.blocks)
  | .aoPowerGood => l = { s.kept with cnt := if s.pwr.mode = .off then 0 else s.tb.cnt }
  | .powerOff _ => l = { s.kept with cnt := 0, rgn := State.reset.ddr.rgn, running := none }
  | _ => s.kept.Follows l

/-- The commands that leave all of what is kept as it was. -/
def ordinary : Instr → Bool
  | .ddrRgnWrite .. | .clocheStart .. | .captureEnd | .commit | .fwcommit _ | .crownWatchdog .. | .recoverCommit .. | .cfgWrite _
  | .registerWrite .. | .coldRestart .. | .warmRestart .. | .modRstRelease _ | .tripRelease _ | .dozeExit _ | .aoPowerGood
  | .powerOff _ => false
  | _ => true

theorem exec_kept (c : Instr) (s : State) (h : ordinary c = true) : Keeps s.kept (exec c s) := by
  cases c <;> simp [ordinary] at h ⊢

theorem After.of_ordinary {s : State} {c : Instr} (h : ordinary c = true) : After s c s.kept := by
  unfold After
  split
  case h_7 => exact .refl _
  all_goals cases h

theorem inRange_follows {s t : State} {ok : Bool} (h : s.kept.Follows t.kept) :
    ∃ u, inRange s ok t = .next u ∧ s.kept.Follows u.kept := by
  cases ok
  · exact ⟨s, rfl, .refl _⟩
  · exact ⟨t, rfl, h⟩

/-- What any command can do to what is kept. -/
theorem exec_after (c : Instr) (s : State) : ∃ t, exec c s = .next t ∧ After s c t.kept := by
  cases ho : ordinary c
  case true =>
    obtain ⟨t, ht, hk⟩ := exec_kept c s ho
    exact ⟨t, ht, hk ▸ After.of_ordinary ho⟩
  case false =>
    unfold ordinary at ho
    split at ho
    case h_1 i ini hw v => exact ⟨_, rfl, s.rgnWrite_follows i ini hw v⟩
    case h_2 lost bad =>
      obtain ⟨t, m, ht, hm⟩ := execClocheStart_kept lost bad s
      exact ⟨t, ht, m, hm⟩
    case h_3 =>
      obtain ⟨t, r, ht, hr⟩ := execCaptureEnd_kept s
      exact ⟨t, ht, r, hr⟩
    case h_4 =>
      obtain ⟨t, m, ht, hm⟩ := execCommit_kept s
      exact ⟨t, ht, m, hm⟩
    case h_5 ok =>
      obtain ⟨t, i, ht, hi⟩ := execFwcommit_kept ok s
      exact ⟨t, ht, i, hi⟩
    case h_6 busy erased => exact ⟨_, rfl, s.watchdog_follows busy erased⟩
    case h_7 ok e => exact ⟨_, rfl, s.mbxExec_follows _ fun _ r t => r.sized_follows _ t (t.recoverCommit_follows r ok e)⟩
    case h_8 ok => exact ⟨_, rfl, s.mbxExec_follows _ fun _ r t => r.sized_follows _ t (t.cfgWrite_follows r ok)⟩
    case h_9 b off data f => exact inRange_follows (s.regAccess_follows b off data f)
    case h_10 erased e => exact ⟨_, rfl, s.coldRestart_follows erased e⟩
    case h_11 pin erased e => exact ⟨_, rfl, s.warmRestart_follows pin erased e⟩
    case h_12 e => exact ⟨_, rfl, s.rstRelease_follows e⟩
    case h_13 e => exact ⟨_, rfl, s.tripRelease_follows e⟩
    case h_14 erased => exact ⟨_, rfl, s.dozeExit_follows erased⟩
    case h_15 => exact execAoPowerGood_kept s
    case h_16 erased => exact execPowerOff_kept erased s
    case h_17 => cases ho

theorem After.pending {s : State} {c : Instr} {l : Kept} (h : After s c l) : l.pending = s.pending := by
  unfold After at h
  split at h
  · obtain ⟨_, rfl, -⟩ := h; rfl
  · obtain ⟨_, rfl, -⟩ := h; rfl
  · obtain ⟨_, rfl, -⟩ := h; rfl
  · obtain ⟨_, rfl, -⟩ := h; rfl
  · obtain rfl := h; rfl
  · obtain rfl := h; rfl
  · exact h.pending

/-- No command but PWROK_AO's two edges writes TB_CNT. -/
theorem After.cnt {s : State} {c : Instr} {l : Kept} (h : After s c l) (hoff : ∀ e, c ≠ .powerOff e) (hao : c ≠ .aoPowerGood) :
    l.cnt = s.tb.cnt := by
  unfold After at h
  split at h
  · obtain ⟨_, rfl, -⟩ := h; rfl
  · obtain ⟨_, rfl, -⟩ := h; rfl
  · obtain ⟨_, rfl, -⟩ := h; rfl
  · obtain ⟨_, rfl, -⟩ := h; rfl
  · exact absurd rfl hao
  · exact absurd rfl (hoff _)
  · exact h.cnt

theorem After.blocks {s : State} {c : Instr} {l : Kept} (h : After s c l) (hne : l.blocks ≠ s.clo.blocks) :
    (s.clo.sealOpen = true ∧ c = .commit) ∨ ∃ lost bad, lost ≠ [] ∧ c = .clocheStart lost bad := by
  unfold After at h
  split at h
  · obtain ⟨m, rfl, hm⟩ := h
    exact .inl ⟨Bool.not_eq_false _ ▸ mt hm hne, rfl⟩
  · obtain ⟨_, rfl, -⟩ := h; exact absurd rfl hne
  · obtain ⟨_, rfl, -⟩ := h; exact absurd rfl hne
  next lost bad =>
    obtain ⟨m, rfl, hm⟩ := h
    exact .inr ⟨lost, bad, mt hm hne, rfl⟩
  · obtain rfl := h; exact absurd rfl hne
  · obtain rfl := h; exact absurd rfl hne
  · exact absurd h.blocks hne

theorem After.image {s : State} {c : Instr} {l : Kept} (h : After s c l) (hne : l.image ≠ s.clo.image) :
    s.clo.sealOpen = true ∧ ∃ ok, c = .fwcommit ok := by
  unfold After at h
  split at h
  · obtain ⟨_, rfl, -⟩ := h; exact absurd rfl hne
  next ok =>
    obtain ⟨i, rfl, hi⟩ := h
    exact ⟨Bool.not_eq_false _ ▸ mt hi hne, ok, rfl⟩
  · obtain ⟨_, rfl, -⟩ := h; exact absurd rfl hne
  · obtain ⟨_, rfl, -⟩ := h; exact absurd rfl hne
  · obtain rfl := h; exact absurd rfl hne
  · obtain rfl := h; exact absurd rfl hne
  · exact absurd h.image hne

theorem After.ref {s : State} {c : Instr} {l : Kept} (h : After s c l) (hne : l.ref ≠ s.clo.ref) :
    c = .captureEnd ∧ ∃ p, s.clo.cap = some p ∧ p.kind = 3 := by
  unfold After at h
  split at h
  · obtain ⟨_, rfl, -⟩ := h; exact absurd rfl hne
  · obtain ⟨_, rfl, -⟩ := h; exact absurd rfl hne
  · obtain ⟨r, rfl, hr⟩ := h
    refine ⟨rfl, ?_⟩
    by_contra hno
    exact hne (hr fun p hp h3 => hno ⟨p, hp, h3⟩)
  · obtain ⟨_, rfl, -⟩ := h; exact absurd rfl hne
  · obtain rfl := h; exact absurd rfl hne
  · obtain rfl := h; exact absurd rfl hne
  · exact absurd h.ref hne

theorem After.minSvn {s : State} {c : Instr} {l : Kept} (h : After s c l) : s.crn.minSvn ≤ l.minSvn := by
  unfold After at h
  split at h
  · obtain ⟨_, rfl, -⟩ := h; exact le_rfl
  · obtain ⟨_, rfl, -⟩ := h; exact le_rfl
  · obtain ⟨_, rfl, -⟩ := h; exact le_rfl
  · obtain ⟨_, rfl, -⟩ := h; exact le_rfl
  · obtain rfl := h; exact le_rfl
  · obtain rfl := h; exact le_rfl
  · exact h.minSvn

theorem After.running {s : State} {c : Instr} {l : Kept} (h : After s c l) {bs : List Byte} (hr : l.running = some bs)
    (hne : l.running ≠ s.crn.running) : s.crn.minSvn ≤ imgSvn bs := by
  unfold After at h
  split at h
  · obtain ⟨_, rfl, -⟩ := h; exact absurd rfl hne
  · obtain ⟨_, rfl, -⟩ := h; exact absurd rfl hne
  · obtain ⟨_, rfl, -⟩ := h; exact absurd rfl hne
  · obtain ⟨_, rfl, -⟩ := h; exact absurd rfl hne
  · obtain rfl := h; exact absurd rfl hne
  · obtain rfl := h; nomatch hr
  · exact h.running bs hr hne

theorem After.rgnsApart {s : State} {c : Instr} {l : Kept} (h : After s c l) (ha : rgnsApart s.ddr.rgn) : rgnsApart l.rgn := by
  unfold After at h
  split at h
  · obtain ⟨_, rfl, -⟩ := h; exact ha
  · obtain ⟨_, rfl, -⟩ := h; exact ha
  · obtain ⟨_, rfl, -⟩ := h; exact ha
  · obtain ⟨_, rfl, -⟩ := h; exact ha
  · obtain rfl := h; exact ha
  · obtain rfl := h; exact rgnsApart_reset
  · exact h.rgn ha

/-! ### A step -/

theorem step_nil {s : State} (h : s.pending = []) : step s = .next s.tick := by
  simp only [step, h]

theorem step_cons {s : State} {c : Instr} {rest : List Instr} (h : s.pending = c :: rest) :
    step s = exec c (s.withPending rest) := by
  simp only [step, h]

/-- A step that answers `t` has ticked, or has run the command at the front of the queue. -/
theorem step_cases {s t : State} (h : step s = .next t) :
    (s.pending = [] ∧ t = s.tick) ∨ ∃ c rest, s.pending = c :: rest ∧ After (s.withPending rest) c t.kept := by
  cases hp : s.pending with
  | nil =>
    rw [step_nil hp] at h
    cases h
    exact .inl ⟨rfl, rfl⟩
  | cons c rest =>
    rw [step_cons hp] at h
    obtain ⟨u, hu, ha⟩ := exec_after c (s.withPending rest)
    rw [hu] at h
    cases h
    exact .inr ⟨c, rest, rfl, ha⟩

/-- Settles O1: the queue's front is what `step` runs. -/
theorem stepRunsFront : Obligations.StepRunsFront :=
  fun _ _ _ h => step_cons h

/-- Settles O55, by what any command can do to the queue. -/
theorem moduleNeverStops : Obligations.ModuleNeverStops := by
  intro s hq
  have hstep : ∃ t, step s = .next t ∧ t.kept.pending = s.pending.tail := by
    cases hp : s.pending with
    | nil => exact ⟨_, step_nil hp, by rw [State.tick_kept]; exact hp⟩
    | cons c rest =>
      obtain ⟨t, ht, ha⟩ := exec_after c (s.withPending rest)
      exact ⟨t, (step_cons hp).trans ht, ha.pending⟩
  obtain ⟨t, ht, hp⟩ := hstep
  refine ⟨t, ht, hp, fun c hc => hq c (List.mem_of_mem_tail ?_)⟩
  rwa [← hp]

/-- Settles O56: a tick counts, and no command but PWROK_AO's two edges writes TB_CNT. -/
theorem timeBaseCounts : Obligations.TimeBaseCounts := by
  intro s t h
  obtain ⟨hp, rfl⟩ | ⟨c, rest, hp, ha⟩ := step_cases h
  · refine ⟨fun _ => congrArg Kept.cnt s.tick_kept, fun c rest hc => ?_⟩
    cases hp.symm.trans hc
  · refine ⟨fun hn => ?_, fun c' rest' hc => ?_⟩
    · cases hn.symm.trans hp
    · cases hp.symm.trans hc
      split
      · exact congrArg Kept.cnt ha
      · exact congrArg Kept.cnt ha
      next hoff hao => exact ha.cnt hoff hao

/-- Settles O57, by what any command can do to what Cloche computes with. -/
theorem onlyThreeThingsChangeCloche : Obligations.OnlyThreeThingsChangeCloche := by
  intro s t h
  obtain ⟨-, rfl⟩ | ⟨c, rest, hp, ha⟩ := step_cases h
  · have hk := s.tick_kept
    exact ⟨fun hne => absurd (congrArg Kept.blocks hk) hne, fun hne => absurd (congrArg Kept.image hk) hne,
      fun hne => absurd (congrArg Kept.ref hk) hne⟩
  · simp only [hp, List.head?_cons, Option.some.injEq]
    exact ⟨ha.blocks, ha.image, ha.ref⟩

/-- Settles O58: only the ROM's start moves MINSVN or runs another image, and it runs none older than MINSVN. -/
theorem noRollback : Obligations.NoRollback := by
  intro s t h
  obtain ⟨-, rfl⟩ | ⟨c, rest, -, ha⟩ := step_cases h
  · have hk := s.tick_kept
    exact ⟨(congrArg Kept.minSvn hk).ge, fun _ _ hne => absurd (congrArg Kept.running hk) hne⟩
  · exact ⟨ha.minSvn, fun _ hr hne => ha.running hr hne⟩

/-- Settles O60: a region is written only where it overlaps no enabled one, or all are reset. -/
theorem regionsNeverOverlap : Obligations.RegionsNeverOverlap := by
  intro s t hd h
  obtain ⟨-, rfl⟩ | ⟨c, rest, -, ha⟩ := step_cases h
  · have hr : s.tick.ddr.rgn = s.ddr.rgn := congrArg Kept.rgn s.tick_kept
    rw [DdrState.regionsApart_iff, hr]
    exact hd
  · exact ha.rgnsApart hd

/-! ### Time adds to the outputs (R374)

What has been put out stays put out, and first: one lemma per operation that time may run. -/

@[simp] theorem State.ptpRequest_out (s : State) (d : Fin 2) (p : Fin 4) : (s.ptpRequest d p).out = s.out := by
  unfold State.ptpRequest
  extract_lets
  split <;> rfl

@[simp] theorem State.fabPost_out (s : State) (code : Nat) : (s.fabPost code).out = s.out := rfl

@[simp] theorem State.assignSelf_out (s : State) (addr : BitVec 15) (size : Vector (Fin 9) 3) (wrap : Vector Bool 3) (map : FabMap) :
    (s.assignSelf addr size wrap map).out = s.out := rfl

@[simp] theorem State.unassign_out (s : State) : s.unassign.out = s.out := rfl

@[simp] theorem State.surveyFault_out (s : State) : s.surveyFault.out = s.out := rfl

section
variable {o : List Output} {s : State} (h : o <+: s.out)
include h

@[simp] theorem State.emit_grows (x : Output) : o <+: s.out ++ [x] := h.trans (List.prefix_append _ _)

omit h in
theorem out_foldl_grows {α : Type} {f : State → α → State} (hf : ∀ (t : State) (a : α), o <+: t.out → o <+: (f t a).out) (l : List α)
    {s : State} (h : o <+: s.out) : o <+: (l.foldl f s).out := by
  induction l generalizing s with
  | nil => exact h
  | cons a l ih => exact ih (hf s a h)

@[simp] theorem State.freeEntry_grows (e : FabEntry) : o <+: (s.freeEntry e).out := by
  unfold State.freeEntry; split <;> simpa

@[simp] theorem State.fabPump_grows (p : Fin 6) (n : Nat) : o <+: (s.fabPump p n).out := by
  induction n generalizing s with
  | zero => exact h
  | succ n ih =>
    unfold State.fabPump
    split
    · exact h
    · exact ih (State.freeEntry_grows (by simp [h]) _)

@[simp] theorem State.fabSend_grows (p : Fin 6) : o <+: (s.fabSend p).out := by
  simp [State.fabSend, h]

@[simp] theorem State.linkTick_grows (p : Fin 6) : o <+: (s.linkTick p).out := by
  have hemit (t : State) (e : BitVec 32 × FabPkt) (ht : o <+: t.out) : o <+: (t.emit (.packet p e.2)).out := by simp [ht]
  simp only [State.linkTick]
  split
  · simpa
  · split
    · exact State.fabSend_grows (out_foldl_grows hemit _ (by simpa)) p
    · exact out_foldl_grows hemit _ (by simpa)

@[simp] theorem State.ownSent_grows (d : Fin 2) (p : Fin 4) (f : List Byte) : o <+: (s.ownSent d p f).out := by
  simp only [State.ownSent, State.ownQueue]
  (repeat' split) <;> simpa

@[simp] theorem State.fwdTick_grows (p : Fin 4) : o <+: (s.fwdTick p).out := by
  unfold State.fwdTick
  split
  · exact h
  · dsimp only
    split
    · split
      · simp [State.lineBusy, h]
      · exact State.ownSent_grows (by simp [State.lineBusy, h]) _ _ _
    · exact h

@[simp] theorem State.ptpTick_grows : o <+: s.ptpTick.out := by
  unfold State.ptpTick
  split
  · exact h
  · exact out_foldl_grows (fun t d ht => out_foldl_grows (fun t p ht => by simpa) _ ht) _ h

@[simp] theorem State.chanServe_grows (ch : Fin 16) : o <+: (s.chanServe ch).out := by
  simp only [State.chanServe]
  split
  · exact h
  · split <;> simpa

@[simp] theorem State.ddrAnswer_grows : o <+: s.ddrAnswer.out :=
  out_foldl_grows (fun _ _ ht => State.emit_grows ht _) _ h

@[simp] theorem State.ddrTick_grows : o <+: s.ddrTick.out :=
  State.ddrAnswer_grows (out_foldl_grows (fun _ ch ht => State.chanServe_grows ht ch) _ h)

/-! Crown's requests and its management of the fabric. -/

@[simp] theorem State.answer_grows (smb : Bool) (r : MbxReq) (x : MbxRes) : o <+: (s.answer smb r x).out := by
  simp only [State.answer, State.respond]
  split <;> simpa

@[simp] theorem State.mbxFlush_grows (n : Nat) : o <+: (State.mbxFlush n s).out := by
  induction n generalizing s with
  | zero => exact h
  | succ n ih =>
    unfold State.mbxFlush
    split
    · exact h
    · split
      · exact h
      · exact ih (by simp [h])

@[simp] theorem State.mbxSettle_grows : o <+: s.mbxSettle.out := by
  unfold State.mbxSettle
  split <;> simp [h]

@[simp] theorem State.sendMgmt_grows (route : List (Fin 6)) (m : FabMgmt) : o <+: (s.sendMgmt route m).out := by
  unfold State.sendMgmt
  split <;> simp [h]

@[simp] theorem State.surveyEnd_grows (v : Survey) : o <+: (s.surveyEnd v).out := by
  simp only [State.surveyEnd, State.fabPost_out, State.assignSelf_out, State.modFab_out]
  refine out_foldl_grows (fun t n ht => by simp [ht]) _ ?_
  split <;> simpa

@[simp] theorem State.surveyCheck_grows : o <+: s.surveyCheck.out := by
  unfold State.surveyCheck
  (repeat' split) <;> simp [h]

@[simp] theorem State.surveyOn_grows (n : SurveyNode) : o <+: (s.surveyOn n).out := by
  refine out_foldl_grows (fun t p ht => ?_) _ h
  split
  · split
    · exact ht
    · unfold State.askSurvey
      split
      · exact ht
      · exact State.sendMgmt_grows (by simpa) _ _
  · exact ht

@[simp] theorem State.surveyIn_grows (p : Fin 6) (route : List (Fin 6)) : o <+: (s.surveyIn p route).out := by
  simp only [State.surveyIn]
  split <;> simp [h]

@[simp] theorem State.remap_grows : o <+: s.remap.out := by
  simp only [State.remap]
  split
  · exact h
  · simp only [State.fabPost_out, State.modFab_out]
    refine out_foldl_grows (fun t n ht => ?_) _ h
    split
    · exact State.emit_grows ht _
    · exact ht

@[simp] theorem State.endsChanged_grows (ident : Word) (peers : Vector (Option Word) 6) : o <+: (s.endsChanged ident peers).out := by
  unfold State.endsChanged
  split
  · exact State.remap_grows (by simpa)
  · exact h

@[simp] theorem State.linksChanged_grows : o <+: s.linksChanged.out := by
  simp only [State.linksChanged]
  split
  · exact h
  · split
    · simp [h]
    · split <;> simp [h]

@[simp] theorem State.reportIn_grows (route : List (Fin 6)) (ident : Word) (origin : Bool) (peers : Vector (Option Word) 6) :
    o <+: (s.reportIn route ident origin peers).out := by
  have hend (v : Survey) : o <+: ((s.modFab fun b => { b with survey := some v }).fabPost 0x3081).surveyCheck.out :=
    State.surveyCheck_grows (by simpa)
  have hon (v : Survey) : o <+: (s.modFab fun b => { b with survey := some v }).surveyCheck.out := State.surveyCheck_grows (by simpa)
  simp only [State.reportIn]
  split
  · exact State.endsChanged_grows h _ _
  · split
    · exact h
    · split
      · simpa
      · split
        · split
          · exact hon _
          · exact State.surveyCheck_grows (State.surveyOn_grows (by simpa) _)
        · split
          · exact hon _
          · exact hend _
        · exact hend _

@[simp] theorem State.mgmtWork_grows (w : MgmtWork) : o <+: (s.mgmtWork w).out := by
  cases w with
  | message p m => cases m <;> simp [State.mgmtWork, State.messageWork, State.newMap, h]
  | bridge k v => exact h
  | links => exact State.linksChanged_grows h

@[simp] theorem State.mgmtServe_grows : o <+: s.mgmtServe.out := by
  unfold State.mgmtServe
  (repeat' split) <;> simp [h]

theorem State.mainTick_grows : o <+: s.mainTick.out := by
  have hc : o <+: s.clocks.out := by simpa [State.clocks] using h
  have hl := out_foldl_grows (fun _ p ht => State.linkTick_grows ht p) (List.finRange 6) hc
  have hf := out_foldl_grows (fun _ p ht => State.fwdTick_grows ht p) (List.finRange 4) (State.ptpTick_grows hl)
  simp only [State.mainTick, State.crownTick]
  exact State.mgmtServe_grows (State.mbxSettle_grows (State.ddrTick_grows hf))

end

/-- Settles O2: a tick counts, and puts out what it must after what was put out before. -/
theorem idleStepTicks : Obligations.IdleStepTicks := by
  intro s hp
  have hk := s.tick_kept
  refine ⟨s.tick, step_nil hp, (congrArg Kept.pending hk).trans hp, ?_, fun hoff => ?_, fun hon => ?_⟩
  · unfold State.tick
    dsimp only
    split
    · exact List.prefix_rfl
    · split
      · exact State.mainTick_grows List.prefix_rfl
      · exact List.prefix_rfl
  · unfold State.tick
    exact if_pos hoff
  · simpa [hon] using congrArg Kept.cnt hk

end Sys2Proof.Machine
end

/-! The proofs: fields of words. -/

section
namespace Sys2Proof.Machine

/-! ### Fields of words -/

section
variable {n lo len lo' len' v i : Nat} {w : BitVec n}

theorem bit_setFld (w : BitVec n) (lo len v : Nat) {i : Nat} (hi : i < n) :
    bit (setFld w lo len v) i = if lo ≤ i ∧ i < lo + len then v.testBit (i - lo) else bit w i := by
  simp only [bit, setFld, BitVec.getLsbD_or, BitVec.getLsbD_and, BitVec.getLsbD_not, BitVec.getLsbD_ofNat,
    Nat.testBit_shiftLeft, Nat.testBit_two_pow_sub_one, Nat.testBit_mod_two_pow, hi, decide_true, Bool.true_and]
  by_cases hl : lo ≤ i
  · by_cases hu : i < lo + len
    · have : i - lo < len := by omega
      simp [hl, hu, this]
    · have : ¬ i - lo < len := by omega
      simp [hl, hu, this]
  · simp [hl]

@[simp] theorem bit_setFld_inside (h : lo ≤ i ∧ i < lo + len ∧ i < n) : bit (setFld w lo len v) i = v.testBit (i - lo) := by
  rw [bit_setFld w lo len v h.2.2, if_pos ⟨h.1, h.2.1⟩]

@[simp] theorem bit_setFld_outside (h : (i < lo ∨ lo + len ≤ i) ∧ i < n) : bit (setFld w lo len v) i = bit w i := by
  rw [bit_setFld w lo len v h.2, if_neg (by omega)]

theorem testBit_fld (w : BitVec n) (lo len i : Nat) : (fld w lo len).testBit i = (decide (i < len) && bit w (lo + i)) := by
  simp [fld, bit, Nat.testBit_mod_two_pow, BitVec.testBit_toNat]

@[simp] theorem fld_setFld_same (h : lo + len ≤ n) : fld (setFld w lo len v) lo len = v % 2 ^ len := by
  refine Nat.eq_of_testBit_eq fun i => ?_
  rw [testBit_fld, Nat.testBit_mod_two_pow]
  by_cases hi : i < len
  · rw [bit_setFld_inside ⟨by omega, by omega, by omega⟩, Nat.add_sub_cancel_left]
  · simp [hi]

@[simp] theorem fld_setFld_other (h : (lo + len ≤ lo' ∨ lo' + len' ≤ lo) ∧ lo + len ≤ n) :
    fld (setFld w lo' len' v) lo len = fld w lo len := by
  refine Nat.eq_of_testBit_eq fun i => ?_
  rw [testBit_fld, testBit_fld]
  by_cases hi : i < len
  · rw [bit_setFld_outside ⟨by omega, by omega⟩]
  · simp [hi]

theorem bit_setBit (w : BitVec n) (j : Nat) (b : Bool) (hi : i < n) : bit (setBit w j b) i = if i = j then b else bit w i := by
  rw [setBit, bit_setFld w j 1 _ hi]
  by_cases h : i = j
  · subst h; cases b <;> simp [ofBool]
  · rw [if_neg (by omega), if_neg h]

end

@[simp] theorem bit_zero (n i : Nat) : bit (0 : BitVec n) i = false := by simp [bit]

@[simp] theorem fld_zero (n lo len : Nat) : fld (0 : BitVec n) lo len = 0 := by simp [fld]

@[simp] theorem testBit_ofBool_zero (b : Bool) : (ofBool b).testBit 0 = b := by cases b <;> rfl

end Sys2Proof.Machine
end

/-! The proofs: places, bytes and grants of DDR. -/

section
namespace Sys2Proof.Machine

/-! ### Places of a region (R326, R327) -/

theorem xorGroups_lt (k n hi : Nat) : xorGroups k n hi < 2 ^ k := by
  induction n generalizing hi with
  | zero => exact Nat.two_pow_pos k
  | succ n ih =>
    unfold xorGroups
    split
    · exact Nat.two_pow_pos k
    · exact Nat.xor_lt_two_pow (Nat.mod_lt _ (Nat.two_pow_pos k)) (ih _)

/-- The channel of a line, within its set. -/
def lineChan (k l : Nat) : Nat := (l % 2 ^ k) ^^^ xorGroups k 48 (l / 2 ^ k)

theorem lineChan_lt (k l : Nat) : lineChan k l < 2 ^ k :=
  Nat.xor_lt_two_pow (Nat.mod_lt _ (Nat.two_pow_pos k)) (xorGroups_lt k _ _)

/-- Lines that share a channel and a place in it are one line. -/
theorem line_ext {k l m : Nat} (hc : lineChan k l = lineChan k m) (hd : l / 2 ^ k = m / 2 ^ k) : l = m := by
  unfold lineChan at hc
  rw [hd, Nat.xor_left_inj] at hc
  rw [← Nat.div_add_mod l (2 ^ k), ← Nat.div_add_mod m (2 ^ k), hd, hc]

theorem placeIn_eq (w : Word) (a : Nat) : placeIn w a =
    ((if rgnSet w = 2 then 8 + lineChan (rgnK w) ((a - rgnBase w * 2 ^ 30) / 256)
      else lineChan (rgnK w) ((a - rgnBase w * 2 ^ 30) / 256)) % 16,
     rgnChofs w * 2 ^ 26 + (a - rgnBase w * 2 ^ 30) / 256 / 2 ^ rgnK w * 256 + (a - rgnBase w * 2 ^ 30) % 256) := rfl

/-- A region's channel numbers, as its set and its channel bits give them. -/
theorem placeIn_chan (w : Word) (a : Nat) : (placeIn w a).1 =
    if rgnSet w = 2 then 8 + lineChan (rgnK w) ((a - rgnBase w * 2 ^ 30) / 256)
    else lineChan (rgnK w) ((a - rgnBase w * 2 ^ 30) / 256) := by
  have hlt := lineChan_lt (rgnK w) ((a - rgnBase w * 2 ^ 30) / 256)
  rw [placeIn_eq]
  refine Nat.mod_eq_of_lt ?_
  unfold rgnK at hlt ⊢
  split_ifs at hlt ⊢ <;> omega

theorem placeIn_inj {w : Word} {a b : Nat} (ha : rgnBase w * 2 ^ 30 ≤ a) (hb : rgnBase w * 2 ^ 30 ≤ b)
    (h : placeIn w a = placeIn w b) : a = b := by
  have hc := congrArg Prod.fst h
  rw [placeIn_chan, placeIn_chan] at hc
  have hline : lineChan (rgnK w) ((a - rgnBase w * 2 ^ 30) / 256) = lineChan (rgnK w) ((b - rgnBase w * 2 ^ 30) / 256) := by
    split_ifs at hc <;> omega
  have ho := congrArg Prod.snd h
  simp only [placeIn_eq] at ho
  have := line_ext hline (by omega)
  omega

theorem placeIn_chan_lt (w : Word) (a : Nat) : (placeIn w a).1 < 16 := Nat.mod_lt _ (by decide)

theorem rgnK_of_half {w : Word} (h : rgnSet w ≠ 0) : rgnK w = 3 := if_neg h

theorem placeIn_chan_of_set1 {w : Word} (h : rgnSet w = 1) (a : Nat) : (placeIn w a).1 < 8 := by
  rw [placeIn_chan, if_neg (by omega), rgnK_of_half (by omega)]
  exact lineChan_lt 3 _

theorem placeIn_chan_of_set2 {w : Word} (h : rgnSet w = 2) (a : Nat) : 8 ≤ (placeIn w a).1 := by
  rw [placeIn_chan, if_pos h]
  exact Nat.le_add_right _ _

/-! ### Keys -/

section
variable {d : DdrState} {a b : Nat} {w : Word}

theorem DdrState.regionAt_holds (h : d.regionAt a = some w) :
    rgnBase w * 2 ^ 30 ≤ a ∧ a < (rgnBase w + rgnSize w) * 2 ^ 30 := by
  have := List.find?_some h
  simp only [Bool.and_eq_true, decide_eq_true_eq] at this
  obtain ⟨⟨-, hl⟩, hu⟩ := this
  omega

theorem DdrState.key_of_region (h : d.regionAt a = some w) : d.key a = placeKey (placeIn w a) := by
  simp [DdrState.key, DdrState.place, h]

/-- A region that fits its channels keeps its places below 64 GiB of each. -/
theorem placeIn_off_lt (h : d.regionAt a = some w) (hfit : rgnChofs w * 2 ^ 26 + rgnPer w ≤ 2 ^ 36) : (placeIn w a).2 < 2 ^ 36 := by
  obtain ⟨hl, hu⟩ := DdrState.regionAt_holds h
  refine Nat.lt_of_lt_of_le ?_ hfit
  simp only [placeIn_eq, rgnPer]
  generalize hx : a - rgnBase w * 2 ^ 30 = x
  have hxs : x < rgnSize w * 2 ^ 30 := by omega
  unfold rgnK
  split_ifs <;> omega

/-- Two addresses of a region that fits its channels share a key only when they are one. -/
theorem DdrState.key_inj (ha : d.regionAt a = some w) (hb : d.regionAt b = some w) (hfit : rgnChofs w * 2 ^ 26 + rgnPer w ≤ 2 ^ 36)
    (h : d.key a = d.key b) : a = b := by
  rw [d.key_of_region ha, d.key_of_region hb] at h
  unfold placeKey at h
  have hoa := placeIn_off_lt ha hfit
  have hob := placeIn_off_lt hb hfit
  exact placeIn_inj (DdrState.regionAt_holds ha).1 (DdrState.regionAt_holds hb).1 (Prod.ext (by omega) (by omega))

end

/-! ### Bytes (R331) -/

/-- A store changes the bytes alone. -/
theorem DdrState.store_eq (d : DdrState) (a : Nat) (bs : List Byte) : d.store a bs = { d with mem := (d.store a bs).mem } := by
  induction bs generalizing d a with
  | nil => rfl
  | cons b bs ih => exact ih _ _

theorem DdrState.wf_store {d : DdrState} (h : d.mem.wf = true) (a : Nat) (bs : List Byte) : (d.store a bs).mem.wf = true := by
  induction bs generalizing d a with
  | nil => exact h
  | cons b bs ih => exact ih (d := { d with mem := d.mem.put (d.key a) b }) (Mem.wf_put h _ _) (a + 1)

/-- A byte at a key that no address of the store has. -/
theorem DdrState.byte_store_outside {d : DdrState} (h : d.mem.wf = true) {a x : Nat} {bs : List Byte}
    (hx : ∀ i < bs.length, d.key (a + i) ≠ x) : (d.store a bs).mem.byte x = d.mem.byte x := by
  induction bs generalizing d a with
  | nil => rfl
  | cons b bs ih =>
    have hput : (d.mem.put (d.key a) b).byte x = d.mem.byte x := by
      rw [Mem.byte_put h, if_neg fun he => hx 0 (by simp) he.symm]
    rw [← hput]
    refine ih (d := { d with mem := d.mem.put (d.key a) b }) (Mem.wf_put h _ _) fun i hi => ?_
    have := hx (i + 1) (by simpa using hi)
    rwa [Nat.add_comm i 1, ← Nat.add_assoc] at this

/-- A byte at a key of the store, where the addresses have keys of their own. -/
theorem DdrState.byte_store_inside {d : DdrState} (h : d.mem.wf = true) {a : Nat} {bs : List Byte}
    (hinj : ∀ i < bs.length, ∀ j < bs.length, d.key (a + i) = d.key (a + j) → i = j) {i : Nat} (hi : i < bs.length) :
    (d.store a bs).mem.byte (d.key (a + i)) = bs[i] := by
  induction bs generalizing d a i with
  | nil => nomatch hi
  | cons b bs ih =>
    have hwf := Mem.wf_put h (d.key a) b
    have hsucc (j : Nat) : a + 1 + j = a + (j + 1) := by omega
    cases i with
    | zero =>
      refine (DdrState.byte_store_outside (d := { d with mem := d.mem.put (d.key a) b }) hwf fun j hj he => ?_).trans ?_
      · have := hinj (j + 1) (by simpa using hj) 0 (by simp) (by rw [← hsucc]; exact he)
        omega
      · simp [Mem.byte_put h]
    | succ i =>
      rw [← hsucc]
      refine ih (d := { d with mem := d.mem.put (d.key a) b }) hwf (fun j hj k hk he => ?_) (Nat.lt_of_succ_lt_succ hi)
      rw [hsucc, hsucc] at he
      have := hinj (j + 1) (by simpa using hj) (k + 1) (by simpa using hk) he
      omega

theorem DdrState.key_congr {d e : DdrState} (h : e.rgn = d.rgn) (a : Nat) : e.key a = d.key a := by
  simp [DdrState.key, DdrState.place, DdrState.regionAt, h]

theorem DdrState.length_bytes (d : DdrState) (a n : Nat) : (d.bytes a n).length = n := by simp [DdrState.bytes]

/-! ### Grants (R332) -/

theorem ChanState.grant_frame (k : ChanState) (p : Fin 4) (v : Word) : k.grant p v = { k with
    grants := (k.grant p v).grants, tokLo := (k.grant p v).tokLo, tokHi := (k.grant p v).tokHi, bw := (k.grant p v).bw } := by
  simp only [ChanState.grant]
  split <;> rfl

theorem OnlyGrants.refl (d : DdrState) : OnlyGrants d d := ⟨rfl, fun _ => rfl⟩

theorem OnlyGrants.trans {d e f : DdrState} (h : OnlyGrants d e) (g : OnlyGrants e f) : OnlyGrants d f := by
  obtain ⟨hd, hk⟩ := h
  obtain ⟨he, hl⟩ := g
  refine ⟨by rw [he, hd], fun k => ?_⟩
  rw [hl k, hk k]

/-- What a state shares with one that differs in its grants at most. -/
theorem State.grantAll_onlyGrants (s : State) (p : Fin 4) (bs : List Nat) :
    OnlyGrants s.ddr (s.grantAll p bs).ddr ∧ { s.grantAll p bs with ddr := s.ddr } = s := by
  induction bs generalizing s with
  | nil => exact ⟨.refl _, rfl⟩
  | cons b bs ih =>
    obtain ⟨hd, hs⟩ := ih (s.modChan (burstChan b) fun c => c.grant p s.ddr.bw[chanDie (burstChan b)])
    refine ⟨.trans ⟨rfl, fun k => ?_⟩ hd, ?_⟩
    · simp only [State.modChan, Fin.getElem_fin, Vector.getElem_set]
      split
      next he =>
        obtain rfl : burstChan b = k := Fin.ext he
        exact ChanState.grant_frame _ _ _
      · rfl
    · have := congrArg (fun t : State => { t with ddr := s.ddr }) hs
      exact this

theorem State.grantFor_onlyGrants (s : State) (who : DdrWho) (bs : List Nat) :
    OnlyGrants s.ddr (s.grantFor who bs).ddr ∧ { s.grantFor who bs with ddr := s.ddr } = s := by
  cases who with
  | part ini p => exact s.grantAll_onlyGrants p bs
  | _ => exact ⟨.refl _, rfl⟩

/-! ### An accepted write (R331, R338) -/

/-- A write with no bad burst is accepted whole: its bytes are stored, and what it covers whole is no longer bad. -/
theorem State.ddrAccept_of_good {s : State} {who : DdrWho} {a : Nat} {data : List Byte}
    (hok : s.ddr.admitsAll who true a data.length = true) (hans : s.ddrAnswers who (s.ddr.bursts a data.length) = true)
    (hgood : ∀ b ∈ s.ddr.bursts a data.length, s.ddr.isBad b = false) :
    s.ddrAccept who a data = ({ s with ddr := { s.ddr.store a data with
      bad := SMap.drop (fun b => (s.ddr.wholeBursts a data.length).contains b) (s.ddr.store a data).bad } }, true) := by
  have hbad : (s.ddr.bursts a data.length).filter s.ddr.isBad = [] :=
    List.filter_eq_nil_iff.mpr fun b hb => by simp [hgood b hb]
  simp [State.ddrAccept, hok, hans, hbad]

/-- Settles O34: a region's places are apart, so a store and a read meet at the same keys. -/
theorem ddrPlacesAndBytes : Obligations.DdrPlacesAndBytes := by
  refine ⟨fun w a b => placeIn_inj, fun w a => ⟨placeIn_chan_lt w a, (placeIn_chan_of_set1 · a), (placeIn_chan_of_set2 · a)⟩, ?_⟩
  intro s who w a data hwf hok hans hrgn hgood hfit t
  have hacc := State.ddrAccept_of_good hok hans hgood
  have ht : t = { s with ddr := { s.ddr.store a data with
      bad := SMap.drop (fun b => (s.ddr.wholeBursts a data.length).contains b) (s.ddr.store a data).bad } } := by
    simp only [t, hacc]
  have hkey (x : Nat) : t.ddr.key x = s.ddr.key x := by
    rw [ht]
    exact DdrState.key_congr (by rw [s.ddr.store_eq]) x
  have hmem : t.ddr.mem = (s.ddr.store a data).mem := by rw [ht]
  have hbyte (i : Nat) (hi : i < data.length) : t.ddr.mem.byte (t.ddr.key (a + i)) = data[i] := by
    rw [hkey, hmem]
    refine DdrState.byte_store_inside hwf (fun j hj k hk he => ?_) hi
    have := DdrState.key_inj (hrgn j hj) (hrgn k hk) hfit he
    omega
  refine ⟨by rw [hacc], ?_, hmem ▸ DdrState.wf_store hwf a data, fun b hb hout => ?_, ?_, ?_⟩
  · exact List.ext_getElem (t.ddr.length_bytes _ _) fun i _ hi => by simp [DdrState.bytes, hbyte i hi]
  · simp only [DdrState.bytes, hkey, hmem, List.range_one, List.map_cons, List.map_nil, Nat.add_zero]
    rw [DdrState.byte_store_outside hwf fun i hi he => ?_]
    have := DdrState.key_inj (hrgn i hi) hb hfit he
    omega
  · rw [ht, s.ddr.store_eq]
  · have hw : (s.ddrWrite who a data).1 = t.grantFor who (s.ddr.bursts a data.length) := by
      simp [State.ddrWrite, t, hacc]
    obtain ⟨hg, hs⟩ := t.grantFor_onlyGrants who (s.ddr.bursts a data.length)
    rw [hw]
    refine ⟨hg, ?_⟩
    have := congrArg (fun u : State => { u with ddr := s.ddr }) hs
    refine this.trans ?_
    rw [ht]

end Sys2Proof.Machine
end

/-! The proofs: DDR accesses. -/

section
namespace Sys2Proof.Machine

/-! ### DDR accesses (R329, R331, R332) -/

/-- A channel's check finds nothing to change where the code finds no error. -/
@[simp] theorem State.ddrEccOn_none (s : State) (b : Nat) : s.ddrEccOn b .none = s := rfl

@[simp] theorem State.netFault_none (s : State) (path : List Link) : s.netFault path .none = s := rfl

section
variable {s : State} {who : DdrWho} {a n : Nat} {d : List Byte}

theorem State.ddrFetch_of_refused (h : ¬ s.ddr.admitsAll who false a n = true) : s.ddrFetch who a n = (s.ddrRefuse who false a n, none) :=
  if_neg h

theorem State.ddrFetch_of_good (h : s.ddr.admitsAll who false a n = true) (hu : s.ddrAnswers who (s.ddr.bursts a n) = true)
    (hg : ∀ b ∈ s.ddr.bursts a n, s.ddr.isBad b = false) : s.ddrFetch who a n = (s, some (s.ddr.bytes a n)) := by
  have hbad : (s.ddr.bursts a n).filter s.ddr.isBad = [] := List.filter_eq_nil_iff.mpr fun b hb => by simp [hg b hb]
  simp [State.ddrFetch, h, hu, hbad]

theorem State.ddrFetch_of_bad (h : s.ddr.admitsAll who false a n = true) (hu : s.ddrAnswers who (s.ddr.bursts a n) = true)
    {b : Nat} (hb : b ∈ s.ddr.bursts a n) (hbad : s.ddr.isBad b = true) :
    s.ddrFetch who a n = (((s.ddr.bursts a n).filter s.ddr.isBad).foldl State.ddrUncorrectable s, none) := by
  have hne : (s.ddr.bursts a n).filter s.ddr.isBad ≠ [] := List.ne_nil_of_mem (List.mem_filter.mpr ⟨hb, hbad⟩)
  obtain ⟨c, cs, hc⟩ := List.exists_cons_of_ne_nil hne
  simp [State.ddrFetch, h, hu, hc]

theorem State.ddrAccept_of_refused (h : ¬ s.ddr.admitsAll who true a d.length = true) :
    s.ddrAccept who a d = (s.ddrRefuse who true a d.length, false) := if_neg h

theorem State.ddrAccept_of_silent (h : s.ddr.admitsAll who true a d.length = true)
    (hu : ¬ s.ddrAnswers who (s.ddr.bursts a d.length) = true) : s.ddrAccept who a d = (s, false) := by
  simp [State.ddrAccept, h, hu]

end

section
variable {s : State} {r : DdrReq} {a n : Nat} {d : List Byte}

/-- A read that ingest may not make, or the region check refuses. -/
theorem State.ddrAccess_read_refused (e : DdrEcc)
    (h : ¬ s.ddr.admitsAll (s.whoOf r) false a n = true ∨ ¬ s.ingestMay (s.whoOf r) a n = true) :
    s.ddrAccess r a (.read n) e .none = (s.ddrRefuse (s.whoOf r) false a n).emit (.ddrCompletion r.ini a none) := by
  simp only [State.ddrAccess, DdrOp.size, State.netFault_none, Bool.not_false, Bool.true_and]
  split
  · rfl
  next hm =>
    have ha := h.resolve_right (by simpa using hm)
    simp only [Bool.not_eq_true] at ha
    simp only [ha, Bool.false_and]
    rw [State.ddrFetch_of_refused (by simp [ha])]

theorem State.ddrAccess_write_refused (e : DdrEcc) (h : ¬ s.ddr.admitsAll (s.whoOf r) true a d.length = true) :
    s.ddrAccess r a (.write d) e .none = s.ddrRefuse (s.whoOf r) true a d.length := by
  simp only [Bool.not_eq_true] at h
  simp only [State.ddrAccess, DdrOp.size, State.netFault_none, Bool.not_true, Bool.false_and, h, Bool.false_eq_true, if_false]
  rw [State.ddrAccept_of_refused (by simp [h])]

theorem State.ddrAccess_write_silent (e : DdrEcc) (h : s.ddr.admitsAll (s.whoOf r) true a d.length = true)
    (hu : ¬ s.ddrAnswers (s.whoOf r) (s.ddr.bursts a d.length) = true) :
    s.ddrAccess r a (.write d) e .none = s.emit (.ddrCompletion r.ini a none) := by
  rw [Bool.not_eq_true] at hu
  simp only [State.ddrAccess, DdrOp.size, State.netFault_none, Bool.not_true, Bool.false_and, h, hu, Bool.and_false,
    Bool.false_eq_true, if_false, if_true]
  rw [State.ddrAccept_of_silent h (by simp [hu])]

/-- A read that goes, of an initiator that no share covers: it is answered at once. -/
theorem State.ddrAccess_read_host (hw : s.whoOf r = .host) (h : s.ddr.admitsAll .host false a n = true)
    (hu : s.ddrAnswers .host (s.ddr.bursts a n) = true) :
    s.ddrAccess r a (.read n) .none .none =
      (s.ddrFetch .host a n).1.emit (.ddrCompletion r.ini a (s.ddrFetch .host a n).2) := by
  simp only [State.ddrAccess, DdrOp.size, State.netFault_none, Bool.not_false, Bool.true_and, hw, h, hu, State.ingestMay,
    Bool.not_true, Bool.false_eq_true, if_false, Bool.and_true]
  split <;> rfl

/-- A read that goes, of a partition: its completion waits for its bursts. -/
theorem State.ddrAccess_read_part {p : Fin 4} (hw : s.whoOf r = .part r.ini p) (h : s.ddr.admitsAll (s.whoOf r) false a n = true)
    (hm : s.ingestMay (s.whoOf r) a n = true) (hu : s.ddrAnswers (s.whoOf r) (s.ddr.bursts a n) = true) :
    s.ddrAccess r a (.read n) .none .none =
      (s.ddrFetch (s.whoOf r) a n).1.ddrQueue p r.ini a (s.ddr.bursts a n) (s.ddrFetch (s.whoOf r) a n).2 true := by
  rw [hw] at h hm hu ⊢
  simp only [State.ddrAccess, DdrOp.size, State.netFault_none, Bool.not_false, Bool.true_and, hw, h, hm, hu,
    Bool.not_true, Bool.false_eq_true, if_false, Bool.and_true]
  split <;> rfl

theorem State.ddrAccess_write_host (hw : s.whoOf r = .host) (h : s.ddr.admitsAll .host true a d.length = true)
    (hu : s.ddrAnswers .host (s.ddr.bursts a d.length) = true) :
    s.ddrAccess r a (.write d) .none .none = (s.ddrAccept .host a d).1 := by
  simp only [State.ddrAccess, DdrOp.size, State.netFault_none, Bool.not_true, Bool.false_and, hw, h, hu, Bool.false_eq_true,
    if_false, Bool.and_true]
  split <;> rfl

theorem State.ddrAccess_write_part {p : Fin 4} (hw : s.whoOf r = .part r.ini p)
    (h : s.ddr.admitsAll (s.whoOf r) true a d.length = true) (hu : s.ddrAnswers (s.whoOf r) (s.ddr.bursts a d.length) = true) :
    s.ddrAccess r a (.write d) .none .none =
      (s.ddrAccept (s.whoOf r) a d).1.ddrQueue p r.ini a (s.ddr.bursts a d.length) none false := by
  rw [hw] at h hu ⊢
  simp only [State.ddrAccess, DdrOp.size, State.netFault_none, Bool.not_true, Bool.false_and, hw, h, hu,
    Bool.false_eq_true, if_false, Bool.and_true]
  split <;> rfl

end

/-! ### The queues of a channel (R332) -/

/-- The partitions that wait, as `pick` gathers them. -/
theorem bit_waiting (q : List DdrBurst) (m : BitVec 4) (p : Fin 4) :
    bit (q.foldl (fun m x => setBit m x.part.val true) m) p.val = (bit m p.val || q.any fun x => decide (x.part = p)) := by
  induction q generalizing m with
  | nil => simp
  | cons x q ih =>
    rw [List.foldl_cons, ih, bit_setBit _ _ _ p.isLt]
    by_cases h : x.part = p
    · simp [h]
    · have : ¬ p.val = x.part.val := fun he => h (Fin.ext he.symm)
      simp [h, this]

/-- A channel serves a waiting burst of the partition it chooses. -/
theorem ChanState.pick_spec {k : ChanState} {q : DdrBurst} (h : k.pick = some q) :
    q ∈ k.queue ∧ k.choose (k.queue.foldl (fun m x => setBit m x.part.val true) (0 : BitVec 4)) = some q.part := by
  unfold ChanState.pick at h
  dsimp only at h
  split at h
  · nomatch h
  next p hp =>
    have hmem : q ∈ k.queue.filter fun x => decide (x.part = p) := by
      split at h
      next r hr =>
        cases h
        rw [hr]
        exact List.mem_singleton_self _
      · rcases Option.or_eq_some_iff.mp h with hf | ⟨-, hh⟩
        · exact List.mem_of_find?_eq_some hf
        · exact List.mem_of_head? hh
    obtain ⟨hq, hpart⟩ := List.mem_filter.mp hmem
    exact ⟨hq, by rw [of_decide_eq_true hpart, hp]⟩

/-- Completions do not touch the memory. -/
theorem State.foldl_emit_ddr {α : Type} (f : α → Output) (l : List α) (s : State) :
    (l.foldl (fun t q => t.emit (f q)) s).ddr = s.ddr := by
  induction l generalizing s with
  | nil => rfl
  | cons q l ih => exact ih _

/-- A completion is due while a burst of its read waits. -/
theorem State.mem_ddrAnswer (s : State) (x : DdrReply) :
    x ∈ s.ddrAnswer.ddr.replies ↔ x ∈ s.ddr.replies ∧ ∃ c : Fin 16, ∃ q ∈ s.ddr.ch[c].queue, q.id = x.id := by
  simp only [State.ddrAnswer, State.foldl_emit_ddr, List.mem_filter, List.any_eq_true, decide_eq_true_eq]
  refine and_congr_right fun _ => ⟨fun ⟨c, hc, hq⟩ => ?_, fun ⟨c, hq⟩ => ⟨_, ?_, hq⟩⟩
  · obtain ⟨i, hi, rfl⟩ := Array.getElem_of_mem (Array.mem_toList_iff.mp hc)
    exact ⟨⟨i, by simpa using hi⟩, hq⟩
  · simp

/-! ### A refusal is recorded (R329) -/

section
variable (s : State) (who : DdrWho) (wr : Bool) (a n : Nat)

/-- DDR_LASTREF's low word, by its fields. -/
theorem State.ddrRefuse_refLo : (s.ddrRefuse who wr a n).ddr.refLo = pack [(63, 1, 1), (62, 1, ofBool wr),
    (61, 1, ofBool (match who with | .part _ _ => false | _ => true)), (58, 2, match who with | .part _ p => p.val | _ => 0),
    (48, 8, who.ini.toNat), (0, 48, a)] := rfl

theorem State.ddrRefuse_wr : bit (s.ddrRefuse who wr a n).ddr.refLo 62 = wr := by
  rw [State.ddrRefuse_refLo]
  cases wr <;> simp [pack, ofBool]

theorem State.ddrRefuse_ini : fld (s.ddrRefuse who wr a n).ddr.refLo 48 8 = who.ini.toNat := by
  rw [State.ddrRefuse_refLo]
  simp [pack, Nat.mod_eq_of_lt who.ini.isLt]

theorem State.ddrRefuse_addr : fld (s.ddrRefuse who wr a n).ddr.refLo 0 48 = a % 2 ^ 48 := by
  rw [State.ddrRefuse_refLo]
  simp [pack]

end

/-- A core, and a core's DMA engine, are checked as a partition. -/
theorem State.whoOf_core (s : State) {r : DdrReq} (h : r.ini.val.toNat < 0x20) : ∃ p, s.whoOf r = .part r.ini p := by
  have hc : coreOfIni r.ini.val = some (Fin.ofNat 32 r.ini.val.toNat) := if_pos (by omega)
  exact ⟨s.partOf (Fin.ofNat 32 r.ini.val.toNat), by simp only [State.whoOf, hc]⟩

/-- Settles O35, by what each kind of access comes to. -/
theorem ddrAccesses : Obligations.DdrAccesses := by
  intro s r a op hop
  have hx (e : DdrEcc) : exec (.ddrAccess r a op e .none) s = .next (s.ddrAccess r a op e .none) := by
    rw [exec_ddrAccess, execDdrAccess, inRange_of_ok hop]
  intro who n wr bs ok may up fit ans
  have hini : r.ini.val.toNat < 0x20 → ∃ p, who = .part r.ini p := s.whoOf_core
  refine ⟨?host, ?gauntlet, hini, ?readRefused, ?writeRefused, ?writeSilent, ?readHost, ?writeHost, ?readPart, ?writePart, ?readBad,
    ?pick, s.mem_ddrAnswer, rfl, s.ddrRefuse_wr who wr a n, s.ddrRefuse_ini who wr a n, s.ddrRefuse_addr who wr a n⟩
  case host => intro hi; simp [who, State.whoOf, coreOfIni, hi]
  case gauntlet => intro hi; simp [who, State.whoOf, coreOfIni, hi]
  case readRefused =>
    rintro m e rfl h
    exact (hx e).trans (congrArg _ (State.ddrAccess_read_refused (n := m) e h))
  case writeRefused =>
    rintro d e rfl h
    rw [hx, State.ddrAccess_write_refused e h]
  case writeSilent =>
    rintro d e rfl h hu
    rw [hx, State.ddrAccess_write_silent e h hu]
  case readHost =>
    rintro m rfl h ⟨hu, hg⟩ hw
    rw [hx, State.ddrAccess_read_host (n := m) hw (hw ▸ h) (hw ▸ hu), State.ddrFetch_of_good (n := m) (hw ▸ h) (hw ▸ hu) hg]
  case writeHost =>
    rintro d rfl h ⟨hu, -⟩ hw
    rw [hx, State.ddrAccess_write_host hw (hw ▸ h) (hw ▸ hu), hw]
  case readPart =>
    rintro m p rfl h hm ⟨hu, hg⟩ hw
    rw [hx, State.ddrAccess_read_part (n := m) hw h hm hu, State.ddrFetch_of_good (n := m) h hu hg]
    rfl
  case writePart =>
    rintro d p rfl h ⟨hu, -⟩ hw
    exact (hx _).trans (congrArg _ (State.ddrAccess_write_part hw h hu))
  case readBad =>
    rintro m b rfl h hu hw hb hbad
    rw [hx, State.ddrAccess_read_host (n := m) hw (hw ▸ h) (hw ▸ hu), State.ddrFetch_of_bad (n := m) (hw ▸ h) (hw ▸ hu) hb hbad]
    rfl
  case pick =>
    intro k q hq
    obtain ⟨hmem, hc⟩ := ChanState.pick_spec hq
    exact ⟨hmem, _, fun p => by rw [bit_waiting, bit_zero, Bool.false_or], hc⟩

end Sys2Proof.Machine
end

/-! The proofs: DDR registers and upkeep. -/

section
namespace Sys2Proof.Machine

/-! ### Region and bandwidth registers (R328, R333) -/

@[simp] theorem mergeHalf_full (old v : Word) : mergeHalf .full old v = v := rfl

theorem State.armed_eq_false {s : State} (h : s.gnt.mode ≠ .armed ∧ s.gnt.mode ≠ .single) : s.armed = false := by
  simp [State.armed, h.1, h.2]

theorem State.rgnRefused_of_overlap {s : State} {i j : Fin 16} (ini : Ini) {v : Word} (hij : i ≠ j)
    (h : rgnOverlap v s.ddr.rgn[j] = true) : s.rgnRefused i ini v = true := by
  have hany : (List.finRange 16).any (fun k => decide (k ≠ i) && rgnOverlap v s.ddr.rgn[k]) = true :=
    List.any_eq_true.mpr ⟨j, List.mem_finRange j, by simp only [h, Bool.and_true, decide_eq_true_eq]; exact hij.symm⟩
  simp only [State.rgnRefused, hany, Bool.or_true, Bool.true_or]

theorem rgnOverlap_of_gib {v w : Word} (hv : rgnEn v = true) (hw : rgnEn w = true) (h : rgnBase v < rgnBase w + rgnSize w)
    (g : rgnBase w < rgnBase v + rgnSize v) : rgnOverlap v w = true := by
  simp [rgnOverlap, overlaps, hv, hw, h, g]

theorem State.rgnRefused_of_not_crown (s : State) (i : Fin 16) {ini : Ini} (v : Word) (h : ini ≠ 0x70) : s.rgnRefused i ini v = true := by
  simp only [State.rgnRefused, h, ne_eq, not_false_eq_true, decide_true, Bool.true_or]

theorem maskWrite_zero (mask v : Word) : maskWrite mask 0 v = v &&& mask := by simp [maskWrite]

/-- A write of DDR_BW, by the minima of its masked value. -/
theorem State.bwWrite_full (s : State) (d : Fin 2) (ini : Ini) (v : Word) :
    let w := v &&& 0x00000FFFFFFFFFFF#64
    s.bwWrite d ini .full v =
      if ini ≠ 0x70 ∨ 64 < fld w 0 7 + fld w 7 7 + fld w 14 7 + fld w 21 7 ∨ (s.armed ∧ bwSafetyBad d s.ddr.bw[d] w) then
        s.postPart 0x2061 (if d = 0 then 0xC2 else 0xC3) none
      else { s with ddr := { s.ddr with bw := s.ddr.bw.set d w } } := by
  simp only [State.bwWrite, mergeHalf_full, maskWrite_zero]
  rfl

/-! ### The upkeep of a channel (R334, R335, R339) -/

section
variable {s : State} {ch : Fin 16}

theorem State.dimmEvent_enters (h : s.ddr.ch[ch].ref2x = false) : s.dimmEvent ch true =
    (s.modChan ch fun c => { c with eventN := true, ref2x := true }).postPart (0x2040 + ch.val) (ddrSrc ch.val) none := by
  simp only [State.dimmEvent, h, if_true, Bool.false_eq_true, if_false]

theorem State.dimmEvent_stays (h : s.ddr.ch[ch].ref2x = true) :
    s.dimmEvent ch true = s.modChan ch fun c => { c with eventN := true, ref2x := true } := by
  simp only [State.dimmEvent, h, if_true]

theorem State.dimmEvent_lets_go (h : s.ddr.ch[ch].eventN = true) :
    s.dimmEvent ch false = s.modChan ch fun c => { c with eventN := false, eventOff := some s.tb.cnt } := by
  simp only [State.dimmEvent, h, Bool.false_eq_true, if_false, if_true]

/-- A scrub of a good burst moves on to the next. -/
theorem State.scrub_of_good (h : s.ddr.ch[ch].state = 2) (hs : s.ddr.selfRefresh = false)
    (hb : s.ddr.isBad (ch.val * 2 ^ 30 + s.ddr.ch[ch].scrubAt) = false) : s.scrub ch .none =
      s.modChan ch fun c => { c with scrubAt := if c.scrubAt + 1 < s.ddr.chanBursts then c.scrubAt + 1 else 0 } := by
  have hn : ¬ (s.ddr.ch[ch].state ≠ 2 ∨ s.ddr.selfRefresh = true) := by rw [hs]; simp only [h]; decide
  refine (if_neg hn).trans ?_
  rw [State.ddrEccOn_none]
  exact if_neg (Bool.eq_false_iff.mp hb)

end

theorem ChanState.cool_of_second {k : ChanState} {now x : Word} (he : k.eventN = false) (ho : k.eventOff = some x)
    (h : 500000000 ≤ (now - x).toNat) : k.cool now = true := by
  simp [ChanState.cool, he, ho, h, -BitVec.toNat_sub]

theorem ChanState.not_cool_of_event {k : ChanState} (now : Word) (h : k.eventN = true) : ¬ k.cool now = true := by
  simp [ChanState.cool, h]

theorem ChanState.not_cool_within_second {k : ChanState} {now x : Word} (ho : k.eventOff = some x)
    (h : (now - x).toNat < 500000000) : ¬ k.cool now = true := by
  simp [ChanState.cool, ho, h, -BitVec.toNat_sub]

/-- A stopped channel, and no completion for what waited at it. -/
theorem State.ddrDrop_ddr (s : State) (ch : Fin 16) : (s.ddrDrop ch).ddr = { s.ddr with
    ch := (s.ddr.ch.set ch { s.ddr.ch[ch] with state := 3 }).map fun c =>
      { c with queue := c.queue.filter fun q => !(s.ddr.ch[ch].queue.map fun q => q.id).contains q.id }
    replies := s.ddr.replies.filter fun q => !(s.ddr.ch[ch].queue.map fun q => q.id).contains q.id } := by
  simp only [State.ddrDrop, State.foldl_emit_ddr]
  rfl

theorem State.ddrDrop_state (s : State) (ch : Fin 16) : (s.ddrDrop ch).ddr.ch[ch].state = 3 := by
  rw [State.ddrDrop_ddr]
  simp

theorem State.ddrDrop_replies (s : State) (ch : Fin 16) :
    ∀ x ∈ (s.ddrDrop ch).ddr.replies, ∀ q ∈ s.ddr.ch[ch].queue, q.id ≠ x.id := by
  intro x hx q hq he
  rw [State.ddrDrop_ddr] at hx
  have := (List.mem_filter.mp hx).2
  simp only [Bool.not_eq_true', List.contains_eq_mem, decide_eq_false_iff_not] at this
  exact this (List.mem_map.mpr ⟨q, hq, he⟩)

/-! ### The choice of a partition (R332) -/

theorem toList_four {α : Type} (g : Vector α 4) : g.toList = [g[0], g[1], g[2], g[3]] := by
  refine List.ext_getElem (by simp) fun i hi _ => ?_
  have : i < 4 := by simpa using hi
  interval_cases i <;> simp

/-- One more grant of a partition is one more of all. -/
theorem foldl_add_set_succ (g : Vector Nat 4) (p : Fin 4) :
    (g.set p (g[p] + 1)).toList.foldl (· + ·) 0 = g.toList.foldl (· + ·) 0 + 1 := by
  simp only [toList_four, List.foldl_cons, List.foldl_nil, Vector.getElem_set]
  fin_cases p <;> simp <;> omega

theorem ChanState.mem_tieOrder (k : ChanState) (p : Fin 4) : p ∈ k.tieOrder := by
  unfold ChanState.tieOrder pairOrder
  fin_cases p <;> split_ifs <;> decide

/-- A frame of 64 grants ends, and the next takes up DDR_BW as written. -/
theorem ChanState.grant_frame_end {k : ChanState} (h : 64 ≤ k.grants.toList.foldl (· + ·) 0 + 1) (p : Fin 4) (v : Word) :
    (k.grant p v).bw = v ∧ (k.grant p v).grants = Vector.replicate 4 0 := by
  have hsum : 64 ≤ (k.grants.set p (k.grants[p] + 1)).toList.foldl (· + ·) 0 := by rwa [foldl_add_set_succ]
  simp only [ChanState.grant, if_pos hsum, and_self]

/-- A waiting partition below its minimum goes before the others, when they are not. -/
theorem ChanState.choose_below_min {k : ChanState} {m : BitVec 4} {p : Fin 4} (hp : bit m p.val = true)
    (hmin : k.grants[p] < fld k.bw (7 * p.val) 7)
    (h : ∀ q : Fin 4, q ≠ p → bit m q.val = true → fld k.bw (7 * q.val) 7 ≤ k.grants[q]) : k.choose m = some p := by
  have hmem : p ∈ k.tieOrder.filter fun q => bit m q.val := List.mem_filter.mpr ⟨k.mem_tieOrder p, hp⟩
  have hfind : (k.tieOrder.filter fun q => bit m q.val).find? (fun q => decide (k.grants[q] < bwMin k.bw q.val)) = some p := by
    cases hf : (k.tieOrder.filter fun q => bit m q.val).find? (fun q => decide (k.grants[q] < bwMin k.bw q.val)) with
    | none => exact absurd (decide_eq_true hmin) (List.find?_eq_none.mp hf p hmem)
    | some q =>
      by_contra hne
      have hq := (List.mem_filter.mp (List.mem_of_find?_eq_some hf)).2
      have hlt := List.find?_some hf
      exact absurd (of_decide_eq_true hlt) (Nat.not_lt.mpr (h q (fun he => hne (by rw [he])) hq))
  simp only [ChanState.choose, hfind]

/-- Settles O36, by the registers' writes and the upkeep of one channel. -/
theorem ddrRegistersAndUpkeep : Obligations.DdrRegistersAndUpkeep := by
  intro s ch d ini v k withChan src disarmed w sum
  refine ⟨?rgn, ?rgnRefused, ?overlap, fun i h => s.rgnRefused_of_not_crown i v h, ?bw, ?bwRefused, ?refresh, ?event, ?eventAgain,
    ?eventOff, ?cool, ?low, ?warm, ?scrub, ?ca, ?caFails, s.ddrDrop_state ch, s.ddrDrop_replies ch,
    fun p h => ChanState.grant_frame_end h p v, fun m p => ChanState.choose_below_min⟩
  case rgn =>
    intro i h hd
    rw [exec_ddrRgnWrite]
    simp [execDdrRgnWrite, State.rgnWrite, h, State.armed_eq_false hd]
  case rgnRefused =>
    intro i h
    simp [execDdrRgnWrite, State.rgnWrite, h]
  case overlap => exact fun i j hij hv hw h g => State.rgnRefused_of_overlap ini hij (rgnOverlap_of_gib hv hw h g)
  case bw =>
    intro hi hsum hd
    refine congrArg _ ((s.bwWrite_full d ini v).trans (if_neg ?_))
    rintro (h | h | ⟨h, -⟩)
    · exact h hi
    · exact Nat.not_lt.mpr hsum h
    · rw [State.armed_eq_false hd] at h
      cases h
  case bwRefused =>
    intro h
    exact congrArg _ ((s.bwWrite_full d ini v).trans (if_pos (h.imp_right .inl)))
  case refresh => exact fun h => congrArg _ (if_pos h)
  case event => exact fun h => congrArg _ (State.dimmEvent_enters h)
  case eventAgain =>
    intro h
    refine congrArg _ ((State.dimmEvent_stays h).trans ?_)
    have hk : { k with eventN := true, ref2x := true } = { k with eventN := true } := by rw [← h]
    exact congrArg withChan hk
  case eventOff => exact fun h => congrArg _ (State.dimmEvent_lets_go h)
  case cool => exact fun x he ho hx => congrArg _ (if_pos (ChanState.cool_of_second he ho hx))
  case low => exact fun h => congrArg _ (if_neg (ChanState.not_cool_of_event _ h))
  case warm => exact fun x ho hx => congrArg _ (if_neg (ChanState.not_cool_within_second ho hx))
  case scrub => exact fun h hs hb => congrArg _ (State.scrub_of_good h hs hb)
  case ca => exact fun h => congrArg _ (if_pos h)
  case caFails => exact fun h => congrArg _ (if_pos h)

end Sys2Proof.Machine
end

/-! The proofs: DMA lists. -/

section
namespace Sys2Proof.Machine

/-! ### Channels of a DMA engine (R303) -/

section
variable {s : State} {e : DmaEng} {ch : Fin 16} {f g : DmaChan → DmaChan}

/-- A channel reads as what it was changed to. -/
@[simp] theorem State.dch_modDch_same : (s.modDch e ch f).dch e ch = f (s.dch e ch) := by
  cases e <;> simp [State.dch, State.modDch]

@[simp] theorem State.modDch_modDch : (s.modDch e ch f).modDch e ch g = s.modDch e ch (g ∘ f) := by
  cases e <;> simp [State.modDch, Vector.set_set]

/-- A change of a channel changes the DMA engines alone. -/
theorem State.modDch_frame : { s.modDch e ch f with dma := s.dma } = s := by cases e <;> rfl

theorem State.modDch_congr (h : f (s.dch e ch) = g (s.dch e ch)) : s.modDch e ch f = s.modDch e ch g := by
  cases e <;> simp only [State.modDch, State.dch] at h ⊢ <;> rw [h]

end

theorem dmaChanOk_core {c : CoreId} {ch : Fin 16} (h : ch.val < 8) : dmaChanOk (.core c) ch = true := decide_eq_true h

/-! ### GO and STOP (R304, R305, R315) -/

section
variable {s : State} {c : CoreId} {ch : Fin 16} {ini : Ini}

theorem State.chanGo_busy (h : (s.dch (.core c) ch).busy = true) : s.chanGo (.core c) ch ini = s := by
  simp [State.chanGo, mayWriteDch, isPriv, h]

theorem State.chanGo_starts (hi : ini = 0x60) (hp : s.cores[c].seq.phase = .idle) (hb : (s.dch (.core c) ch).busy = false)
    (hr : s.flt.part[s.partOf c] = .running) : s.chanGo (.core c) ch ini =
      (s.wakeDie (dieOf c)).startList (.core c) ch (fld (s.dch (.core c) ch).head 0 48) (bit (s.dch (.core c) ch).head 48)
        (s.dch (.core c) ch).prio 0 false true := by
  have hgo : s.goOk (.core c) ch ini = true := by simp [State.goOk, CoreSt.busy, hi, hp, -Fin.getElem_fin]
  simp only [State.chanGo, mayWriteDch, isPriv, hb, hgo, hr, Bool.not_false, Bool.true_or, Bool.not_true, Bool.false_eq_true,
    ne_eq, not_true_eq_false, if_false]

theorem State.chanGo_refused (hb : (s.dch (.core c) ch).busy = false) (h : ini ≠ 0x60 ∨ s.cores[c].seq.phase ≠ .idle) :
    s.chanGo (.core c) ch ini = s.dmaRefuse (.core c) := by
  have hgo : s.goOk (.core c) ch ini = false := by
    rcases h with h | h
    · simp only [State.goOk, decide_eq_false h, Bool.false_and]
    · simp only [State.goOk, CoreSt.busy, decide_eq_true h, Bool.not_true, Bool.and_false]
  simp only [State.chanGo, mayWriteDch, isPriv, hb, hgo, Bool.not_false, Bool.true_or, Bool.not_true, Bool.false_eq_true, if_false,
    if_true]

theorem State.chanStop_busy {e : DmaEng} (h : (s.dch e ch).busy = true) :
    s.chanStop e ch = s.modDch e ch fun x => { x with stop := true } :=
  State.modDch_congr (if_pos h)

theorem State.chanStop_free {e : DmaEng} (h : (s.dch e ch).busy = false) : s.chanStop e ch = s := by
  have hid : s.modDch e ch id = s := by cases e <;> simp [State.modDch]
  refine Eq.trans (State.modDch_congr (g := id) ?_) hid
  exact if_neg (Bool.eq_false_iff.mp h)

end

/-! ### RUN and STOP (R319, R320) -/

section
variable {s : State} {c : CoreId} {ch : Fin 16} {q : EngCmd} {rest : List EngCmd}

theorem State.dmaHead_runs {mine : Nat → Bool} {bad : EngCmd → Bool} {run : EngCmd → Fin 16 → State}
    (hq : s.cores[c].engines[(6 : Fin 7)].queue = q :: rest) (hm : mine q.opc = true) (hs : q.mayStart s.cores[c].spd = true)
    (hb : bad q = false) (hch : fld q.w2 0 3 = ch.val) : s.dmaHead c mine bad run = run q ch := by
  have hof : Fin.ofNat 16 (fld q.w2 0 3) = ch := by rw [hch]; exact Fin.ofNat_val_eq_self ch
  simp only [State.dmaHead, hq, hm, hs, hb, hof, Bool.and_true, Bool.not_true, Bool.false_eq_true, if_false]

/-- The next descriptor of a list that goes on is fetched and becomes the one in progress (R306). -/
theorem State.fetchCur_got {t : State} {e : DmaEng} {d : Rec64} (hb : (s.dch e ch).busy = true) (hp : (s.dch e ch).phase = .idle)
    (hs : (s.dch e ch).stop = false) (hr : s.descRead e ch (s.dch e ch).want (s.dch e ch).wsp = (t, .got d)) :
    s.fetchCur e ch = t.modDch e ch fun x => x.take d := by
  simp only [State.fetchCur, hb, hp, hs, hr, decide_true, Bool.true_and, if_true, Bool.false_eq_true, if_false]

/-- A fetched descriptor of the own scratchpad becomes the one in progress (R306). -/
theorem State.startList_spd {head lvl soff d : Nat} {sen reg : Bool} (ha : head % 64 = 0)
    (hp : s.cores[c].spd.poweredAll head 64 = true) (hr : s.cores[c].spd.mayReadAll head 64 = true)
    (hd : s.cores[c].spd.num head 64 = d) :
    s.startList (.core c) ch head true lvl soff sen reg = s.modDch (.core c) ch fun x =>
      (x.start head true lvl soff sen reg).take (BitVec.ofNat 512 d) := by
  have hread : (s.modDch (.core c) ch fun x => x.start head true lvl soff sen reg).descRead (.core c) ch head true =
      (s.modDch (.core c) ch fun x => x.start head true lvl soff sen reg, .got (BitVec.ofNat 512 d)) := by
    simp [State.descRead, ha, hp, hr, hd, -Fin.getElem_fin]
  have hwant : (s.modDch (.core c) ch fun x => x.start head true lvl soff sen reg).dch (.core c) ch =
      (s.dch (.core c) ch).start head true lvl soff sen reg := State.dch_modDch_same
  refine (State.fetchCur_got (d := BitVec.ofNat 512 d) ?_ ?_ ?_ ?_).trans State.modDch_modDch <;> rw [hwant]
  case refine_4 => exact hread
  all_goals rfl

end

/-- Settles O32, by what GO, STOP, RUN and the fetch come to on one channel. -/
theorem dmaLists : Obligations.DmaLists := by
  intro s c ch ini hch e k x
  refine ⟨?go, ?refused, ?busy, ?stop, ?stopFree, ?run, ?stopCmd, ?fetch, ?priv⟩
  case go =>
    intro hi hp hb hr
    rw [exec_dchGo, execDchGo, inRange_of_ok (dmaChanOk_core hch), State.chanGo_starts hi hp hb hr]
  case refused =>
    intro hb h
    rw [exec_dchGo, execDchGo, inRange_of_ok (dmaChanOk_core hch), State.chanGo_refused hb h]
    rfl
  case busy =>
    intro hb
    rw [exec_dchGo, execDchGo, inRange_of_ok (dmaChanOk_core hch), State.chanGo_busy hb]
  case stop =>
    intro hb
    refine ⟨_, inRange_of_ok (dmaChanOk_core hch), ?_⟩
    rw [if_pos (show mayWriteDch e ch ini = true from rfl), State.chanStop_busy hb]
    exact ⟨State.dch_modDch_same, State.modDch_frame⟩
  case stopFree =>
    intro hb
    rw [exec_dchStop, execDchStop, inRange_of_ok (dmaChanOk_core hch), if_pos (show mayWriteDch e ch ini = true from rfl),
      State.chanStop_free hb]
  case run =>
    intro q rest hq ho hs hbad hf
    have hrun := fun run => State.dmaHead_runs (run := run) (mine := fun o => o = 1 || !dmaListed o)
      (bad := fun q => decide (q.opc ≠ 1) || dmaRunBad q) hq (by simp [ho]) hs (by simp [ho, hbad]) hf
    refine ⟨fun hb => ?_, fun hb => ?_⟩
    · rw [exec_dmaRun, execDmaRun, State.dmaRun, hrun, if_neg (Bool.eq_false_iff.mp hb)]
    · rw [exec_dmaRun, execDmaRun, State.dmaRun, hrun, if_pos hb]
  case stopCmd =>
    intro q rest hq ho hs hbad hf hb
    have hrun := fun run => State.dmaHead_runs (run := run) (mine := fun o => o = 2) (bad := dmaStopBad) hq (by simp [ho]) hs hbad hf
    refine ⟨(s.modEng c 6 EngState.start).chanStop (.core c) ch, ?_, ?_⟩
    · rw [exec_dmaStop, execDmaStop, State.dmaStop, hrun]
      exact congrArg _ (if_pos hb)
    · rw [State.chanStop_busy (s := s.modEng c 6 EngState.start) (ch := ch) (e := .core c) hb]
      refine ⟨State.dch_modDch_same, ?_⟩
      simp only [State.modDch_cores]
      have he : k.engines[(6 : Fin 7)].start = { queue := rest, active := k.engines[(6 : Fin 7)].active ++ [⟨q, false⟩], phase := 0, work := EngWork.none } := by
        simp only [EngState.start, hq, k]
      have hs : (s.modEng c 6 EngState.start).cores[c].engines[(6 : Fin 7)] = k.engines[(6 : Fin 7)].start := by
        simp [State.modEng, k]
      rw [hs, he]
      exact ⟨rfl, rfl⟩
  case fetch =>
    intro head soff lvl sen reg d hb ha hp hr hd
    rw [State.startList_spd ha hp hr hd, State.dch_modDch_same]
    rfl
  case priv =>
    intro d n i hn hi
    have hw : mayWriteDch (.die d) n i = false := by
      simp only [mayWriteDch, isPriv, decide_eq_true hn, Bool.not_true, Bool.false_or, decide_eq_false hi]
    rw [exec_dchGo, execDchGo, inRange_of_ok (ok := dmaChanOk (.die d) n) rfl]
    simp only [State.chanGo, hw, Bool.not_false, if_true]
    rfl

end Sys2Proof.Machine
end

/-! The proofs: links of the fabric. -/

section
namespace Sys2Proof.Machine

/-! ### One port of the fabric -/

section
variable {s : State} {p : Fin 6} {f g : FabPort → FabPort}

theorem State.modLink_port_same : (s.modLink p f).fab.ports[p] = f s.fab.ports[p] := by simp

theorem State.modLink_congr (h : f s.fab.ports[p] = g s.fab.ports[p]) : s.modLink p f = s.modLink p g := by
  simp only [State.modLink, State.modFab, h]

theorem State.modLink_id : s.modLink p (fun x => x) = s := by simp [State.modLink, State.modFab]

theorem State.modLink_of_eq (h : f s.fab.ports[p] = s.fab.ports[p]) : s.modLink p f = s :=
  (State.modLink_congr (g := fun x => x) h).trans State.modLink_id

theorem State.modLink_modLink : (s.modLink p f).modLink p g = s.modLink p fun x => g (f x) := by
  simp [State.modLink, State.modFab, Vector.set_set]

/-- A port that holds no packet, and does not drain, has nothing to send. -/
theorem State.fabSend_empty (hq : s.fab.ports[p].queue = []) (h5 : s.fab.ports[p].state ≠ 5) : s.fabSend p = s := by
  have hpump : s.fabPump p s.fab.ports[p].queue.length = s := by rw [hq]; rfl
  simp only [State.fabSend, hpump]
  exact State.modLink_of_eq (if_neg fun h => h5 h.1)

/-- An empty port that drains trains again (R345). -/
theorem State.fabSend_drained (hq : s.fab.ports[p].queue = []) (h5 : s.fab.ports[p].state = 5) (hd : s.fab.ports[p].drain = 0) :
    s.fabSend p = s.modLink p fun x => { x with state := 1, lanes := 0, wait := true } := by
  have hpump : s.fabPump p s.fab.ports[p].queue.length = s := by rw [hq]; rfl
  simp only [State.fabSend, hpump]
  exact State.modLink_congr (if_pos ⟨h5, hd⟩)

/-- An empty port that goes down starts anew (R358). -/
theorem State.fabDown_empty (hq : s.fab.ports[p].queue = []) : s.fabDown p =
    s.modLink p fun x => { FabPort.reset with uncw := x.uncw, csym := x.csym, excl := x.excl, replay := x.replay } := by
  have hdrops : s.fab.drops.set 2 (s.fab.drops[2] + BitVec.ofNat 64 0) = s.fab.drops := by simp
  simp only [State.fabDown, hq, List.foldl_nil, List.isEmpty_nil, if_true, List.length_nil, State.modFab, hdrops]

/-! ### The ends of this module's links (R357) -/

theorem State.watchLinks_same {t : State} (h : t.fab.peers = s.fab.peers) : s.watchLinks (fun _ => t) = t :=
  if_pos (decide_eq_true h)

theorem State.linksChanged_unplaced (h : s.fab.valid = false) : s.linksChanged = s := by simp [State.linksChanged, h]

/-- An unplaced module has no origin to report to. -/
theorem State.watchLinks_unplaced {t : State} (hv : t.fab.valid = false) (hq : t.crn.mgmtQ = []) (hs : t.serves .management = true) :
    s.watchLinks (fun _ => t) = t := by
  have harrive : t.mgmtArrive .links = t := by
    have hserves : State.serves { t with crn := { t.crn with mgmtQ := [.links] } } .management = true := hs
    have hcrn : { t with crn := { t.crn with mgmtQ := [] } } = t := by rw [← hq]
    simp only [State.mgmtArrive, hq, List.length_nil, List.nil_append, Nat.zero_add, List.range_one, List.foldl_cons,
      List.foldl_nil, State.mgmtServe, hserves, if_true, State.mgmtWork, hcrn, State.linksChanged_unplaced hv]
  simp only [State.watchLinks, harrive, ite_self]

/-- What the peers are read from. -/
def FabPort.names (x : FabPort) : Nat × Nat × Bool × Option FabPeer := (x.state, x.mode, x.wait, x.peer)

theorem FabState.peers_congr {b b' : FabState} (h : ∀ q : Fin 6, b'.ports[q].names = b.ports[q].names) : b'.peers = b.peers := by
  refine Vector.ext fun i hi => ?_
  have := h ⟨i, hi⟩
  simp only [FabPort.names, Prod.mk.injEq, Fin.getElem_fin] at this
  obtain ⟨h1, h2, h3, h4⟩ := this
  simp only [FabState.peers, Vector.getElem_map, h1, h2, h3, h4]

/-- What a change of one port leaves of every port. -/
theorem State.modLink_keeps {α : Type} {g : FabPort → α} (h : g (f s.fab.ports[p]) = g s.fab.ports[p]) (q : Fin 6) :
    g (s.modLink p f).fab.ports[q] = g s.fab.ports[q] := by
  simp only [State.modLink_fab, Fin.getElem_fin, Vector.getElem_set]
  split
  next hq =>
    obtain rfl : p = q := Fin.ext hq
    exact h
  · rfl

/-- A change of a port that does not touch what names its peer. -/
theorem State.modLink_peers (h : (f s.fab.ports[p]).names = s.fab.ports[p].names) : (s.modLink p f).fab.peers = s.fab.peers :=
  FabState.peers_congr (State.modLink_keeps h)

/-- What sending leaves of every port: the peer's name and the next codeword. -/
def FabPort.rest (x : FabPort) : (Nat × Nat × Bool × Option FabPeer) × BitVec 32 := (x.names, x.txCw)

theorem State.freeEntry_rest (e : FabEntry) (q : Fin 6) : (s.freeEntry e).fab.ports[q].rest = s.fab.ports[q].rest := by
  unfold State.freeEntry
  split
  · exact State.modLink_keeps (g := FabPort.rest) rfl q
  · rfl

theorem State.fabPump_rest (n : Nat) (s : State) (q : Fin 6) : (s.fabPump p n).fab.ports[q].rest = s.fab.ports[q].rest := by
  induction n generalizing s with
  | zero => rfl
  | succ n ih =>
    cases hg : s.fab.ports[p].grant with
    | none => simp only [State.fabPump, hg]
    | some x =>
      simp only [State.fabPump, hg]
      refine (ih _).trans ((State.freeEntry_rest _ q).trans ?_)
      exact State.modLink_keeps (s := s) (p := p) (g := FabPort.rest) (f := fun y => { y with
        queue := y.queue.eraseIdx x.1, drain := y.drain - 1, tokIn := x.2.input, tokVc := x.2.pkt.vc.val, store := y.keep x.2.pkt
        sent := y.sent.set x.2.pkt.vc (y.sent[x.2.pkt.vc] + BitVec.ofNat 16 x.2.pkt.flits) }) rfl q

/-- Sending from a port that does not drain leaves the rest of every port. -/
theorem State.fabSend_rest (h : s.fab.ports[p].state ≠ 5) (q : Fin 6) : (s.fabSend p).fab.ports[q].rest = s.fab.ports[q].rest := by
  have hstate := congrArg (fun r => r.1.1) (State.fabPump_rest (p := p) s.fab.ports[p].queue.length s p)
  refine Eq.trans (State.modLink_keeps (g := FabPort.rest) ?_ q) (State.fabPump_rest _ _ q)
  exact congrArg FabPort.rest (if_neg fun h5 => h (hstate.symm.trans h5.1))

theorem State.replayEvent_rest (q : Fin 6) : (s.replayEvent p).fab.ports[q].rest = s.fab.ports[q].rest := by
  unfold State.replayEvent
  split
  · exact State.modLink_keeps (g := FabPort.rest) (f := fun x => { x with replay := some s.tb.cnt }) rfl q
  · rfl

theorem State.replayEvent_tb : (s.replayEvent p).tb = s.tb := by
  unfold State.replayEvent
  split <;> rfl

theorem FabState.peers_of_rest {b b' : FabState} (h : ∀ q : Fin 6, b'.ports[q].rest = b.ports[q].rest) : b'.peers = b.peers :=
  FabState.peers_congr fun q => congrArg Prod.fst (h q)

end

/-! ### Grants (R359) -/

theorem FabPort.grant_mem {x : FabPort} {n : Nat} {e : FabEntry} (h : x.grant = some (n, e)) :
    e ∈ x.queue ∧ x.hasCredit e.pkt = true ∧ x.sends e.pkt = true := by
  simp only [FabPort.grant] at h
  obtain ⟨k, -, hk⟩ := List.exists_of_findSome?_eq_some h
  obtain ⟨hheads, hok⟩ := List.mem_filter.mp (List.mem_of_find?_eq_some hk)
  rw [Bool.and_eq_true] at hok
  refine ⟨?_, hok.2, hok.1⟩
  obtain ⟨y, hy, he⟩ := List.mem_map.mp (List.mem_filter.mp hheads).1
  have hmem : e ∈ (if x.state = 5 then x.queue.take x.drain else x.queue) := by
    cases he
    exact List.fst_mem_of_mem_zipIdx hy
  split at hmem
  · exact List.mem_of_mem_take hmem
  · exact hmem

theorem FabPort.grant_replaying {x : FabPort} (h : x.txCw ≠ x.top) : x.grant = none := by
  by_contra hne
  obtain ⟨⟨n, e⟩, hg⟩ := Option.ne_none_iff_exists'.mp hne
  have := (FabPort.grant_mem hg).2.2
  simp [FabPort.sends, h] at this

/-! ### What a link's commands come to (R345, R347, R352, R358) -/

section
variable {s : State} {p : Fin 6}

theorem State.fabTrained_up {lanes l : BitVec 5} (h1 : s.fab.ports[p].state ≤ 1) (hq : s.fab.ports[p].queue = [])
    (hl : fourLanes (lanes &&& ~~~s.fab.ports[p].excl) = some l) : s.fabTrained p lanes =
      (s.modLink p fun x => { FabPort.reset with
        state := if s.fab.valid then 3 else 2, mode := s.fab.modeOf p, lanes := l, uncw := x.uncw, csym := x.csym, excl := x.excl
        replay := x.replay, peer := if x.wait then x.peer else none }).fabPost (0x3010 + p.val) := by
  simp only [State.fabTrained, if_pos h1, hl]
  rw [State.fabSend_empty]
  · exact congrArg (State.fabPost · _) (State.modLink_congr (by simp only [hq]; rfl))
  · simpa [State.fabPost] using hq
  · simp only [State.fabPost, State.postPart_fab, State.modLink_fab, Fin.getElem_fin, Vector.getElem_set_self]
    split <;> decide

theorem State.fabTrained_fails {lanes : BitVec 5} (h1 : s.fab.ports[p].state ≤ 1) (hw : s.fab.ports[p].wait = false)
    (hl : fourLanes (lanes &&& ~~~s.fab.ports[p].excl) = none) : s.fabTrained p lanes =
      s.modLink p fun x => { x with state := 0, lanes := 0 } := by
  simp only [State.fabTrained, if_pos h1, hl, hw, Bool.false_eq_true, if_false]

theorem State.laneRetire_empty {l : Fin 5} (hl : bit s.fab.ports[p].lanes l.val = true) (h2 : 2 ≤ s.fab.ports[p].state)
    (hq : s.fab.ports[p].queue = []) : s.laneRetire p l =
      (s.modLink p fun x => { x with
        state := 1, lanes := 0, drain := 0, csym := satAdd 0xFFFF x.csym 1024, excl := setBit x.excl l.val true, wait := true }).fabPost
        (0x3030 + p.val) := by
  simp only [State.laneRetire, hl, h2, decide_true, Bool.and_true, if_true]
  rw [State.fabSend_drained]
  · refine Eq.trans (congrArg (State.fabPost · _) (State.modLink_modLink (s := s) (p := p) (g := fun x => { x with state := 1, lanes := 0, wait := true }))) ?_
    exact congrArg (State.fabPost · _) (State.modLink_congr (by simp only [hq]; rfl))
  · simpa [State.fabPost] using hq
  · simp [State.fabPost]
  · simpa [State.fabPost] using hq

theorem State.badCodeword_up (h2 : 2 ≤ s.fab.ports[p].state) :
    s.badCodeword p = s.modLink p fun x => { x with uncw := satAdd 0xFFFF x.uncw 1, nak := true } := if_pos h2

theorem State.creditIn_held {cnt : Vector (BitVec 16) 4} {ack : BitVec 32} {nak : Bool} (h4 : s.fab.ports[p].state = 4) :
    s.creditIn p cnt ack nak = s := if_pos (.inr h4)

theorem State.creditIn_acked {cnt : Vector (BitVec 16) 4} {ack : BitVec 32} (h2 : 2 ≤ s.fab.ports[p].state)
    (h4 : s.fab.ports[p].state ≠ 4) (h5 : s.fab.ports[p].state ≠ 5) (hq : s.fab.ports[p].queue = []) :
    s.creditIn p cnt ack false = s.modLink p fun x => { x with cnt := cnt, ack := ack, naks := 0 } := by
  refine (if_neg (by omega)).trans ?_
  rw [if_neg (by simp)]
  refine (State.fabSend_empty ?_ ?_).trans rfl
  · simpa using hq
  · simpa using h5

/-- A port after the first NAK of a codeword: it replays from there. -/
theorem State.creditIn_naked {cnt : Vector (BitVec 16) 4} {ack : BitVec 32} (h3 : s.fab.ports[p].state = 3)
    (hn : s.fab.ports[p].naks = 0) (q : Fin 6) : (s.creditIn p cnt ack true).fab.ports[q].rest =
      (s.modLink p fun x => { x with cnt := cnt, ack := ack, naks := 1, txCw := ack }).fab.ports[q].rest := by
  have hnaks : (if s.fab.ports[p].ack = ack ∧ 0 < s.fab.ports[p].naks then s.fab.ports[p].naks + 1 else 1) = 1 := if_neg (by omega)
  have he : s.creditIn p cnt ack true =
      ((s.modLink p fun x => { x with cnt := cnt, ack := ack, naks := 1, txCw := ack }).replayEvent p).fabSend p := by
    refine (if_neg (by omega)).trans ?_
    simp only [if_true, hnaks]
    rfl
  rw [he, State.fabSend_rest, State.replayEvent_rest]
  have := congrArg (fun r => r.1.1) (State.replayEvent_rest (p := p)
    (s := s.modLink p fun x => { x with cnt := cnt, ack := ack, naks := 1, txCw := ack }) p)
  refine fun h => ?_
  have h3' := this.symm.trans h
  simp only [State.modLink_port_same, FabPort.rest, FabPort.names, h3] at h3'
  cases h3'

/-- The eighth NAK of one codeword takes the link down. -/
theorem State.creditIn_eighth {cnt : Vector (BitVec 16) 4} {ack : BitVec 32} (h2 : 2 ≤ s.fab.ports[p].state)
    (h4 : s.fab.ports[p].state ≠ 4) (ha : s.fab.ports[p].ack = ack) (hn : 7 ≤ s.fab.ports[p].naks) :
    s.creditIn p cnt ack true = ((s.modLink p fun x => { x with
      cnt := cnt, ack := ack, naks := s.fab.ports[p].naks + 1, txCw := ack }).replayEvent p).fabLinkDown p := by
  have hnaks : (if s.fab.ports[p].ack = ack ∧ 0 < s.fab.ports[p].naks then s.fab.ports[p].naks + 1 else 1) =
      s.fab.ports[p].naks + 1 := if_pos ⟨ha, by omega⟩
  refine (if_neg (by omega)).trans ?_
  simp only [if_true, hnaks]
  exact if_pos (by omega)

theorem State.fabLinkDown_up (h0 : s.fab.ports[p].state ≠ 0) : s.fabLinkDown p = (s.fabDown p).fabPost (0x3020 + p.val) := if_neg h0

/-- A port that has gone down is down, empty, and Crown hears of it. -/
theorem State.fabDown_port : (s.fabDown p).fab.ports[p].state = 0 ∧ (s.fabDown p).fab.ports[p].queue = [] := by
  simp only [State.fabDown, State.modLink_port_same]
  exact ⟨rfl, rfl⟩

theorem State.freeEntry_tb (e : FabEntry) : (s.freeEntry e).tb = s.tb := by
  unfold State.freeEntry
  split <;> rfl

theorem State.fabDown_tb : (s.fabDown p).tb = s.tb := by
  have hfree (l : List FabEntry) (t : State) : (l.foldl State.freeEntry t).tb = t.tb := by
    induction l generalizing t with
    | nil => rfl
    | cons e l ih => exact (ih _).trans (State.freeEntry_tb e)
  simp only [State.fabDown, State.modLink_tb]
  split <;> exact hfree _ s

theorem State.retrain_empty {ini : Ini} (hi : ini = 0x60 ∨ ini = 0x70) (hq : s.fab.ports[p].queue = []) : s.retrain p ini =
    s.modLink p fun x => { FabPort.reset with state := 1, uncw := x.uncw, csym := x.csym, excl := x.excl, replay := x.replay } := by
  refine (if_pos hi).trans ?_
  rw [State.fabDown_empty hq, State.modLink_modLink]

theorem State.retrain_refused {ini : Ini} (hi : ini ≠ 0x60 ∧ ini ≠ 0x70) : s.retrain p ini = s :=
  if_neg (not_or.mpr hi)

theorem State.fabParity_port_empty (hq : s.fab.ports[p].queue = []) : s.fabParity (.port p) =
    (s.modLink p fun x => { FabPort.reset with
      state := 1, uncw := x.uncw, csym := x.csym, excl := x.excl, replay := x.replay }).fabPost 0x3090 := by
  simp only [State.fabParity, State.fabDown_empty hq, State.modLink_modLink]

theorem State.fabParity_engine_idle (h : s.fab.ops = []) : s.fabParity .engine = (s.dropFrags fun _ => true).fabPost 0x3090 := by
  simp only [State.fabParity, State.coAbortAll, h, List.filter_nil, List.foldl_nil]

theorem State.dropFrags_all : (s.dropFrags fun _ => true).fab.frags = [] :=
  List.filter_eq_nil_iff.mpr fun _ _ h => nomatch h

theorem State.helloIn_good {m : MgmtHead} {h : Hello} (h2 : 2 ≤ s.fab.ports[p].state) (hm : m.good = true)
    (hb : s.fab.mismatch p h = false) : s.helloIn p m h = s.modLink p fun x => { x with nak := false, peer := some h } := by
  simp only [State.helloIn, if_neg (Nat.not_lt.mpr h2), hm, hb, Bool.not_true, Bool.false_and, Bool.false_eq_true, if_false]

theorem State.helloIn_wrong_port {m : MgmtHead} {h : Hello} (h2 : 2 ≤ s.fab.ports[p].state) (hm : m.good = true)
    (h4 : s.fab.ports[p].state ≠ 4) (hp : h.port ≠ oppPort p) : s.helloIn p m h =
      (s.modLink p fun x => { x with nak := false, peer := some h, state := 4 }).fabPost (0x3040 + p.val) := by
  have hb : s.fab.mismatch p h = true := by simp only [FabState.mismatch, decide_eq_true hp, Bool.true_or]
  simp only [State.helloIn, if_neg (Nat.not_lt.mpr h2), hm, hb, h4, ne_eq, not_false_eq_true, decide_true, Bool.not_true,
    Bool.false_eq_true, if_false, if_true, Bool.and_self]

theorem State.helloIn_bad {m : MgmtHead} {h : Hello} (h2 : 2 ≤ s.fab.ports[p].state) (hm : m.good = false) :
    s.helloIn p m h = s.fabDrop 1 := by
  simp only [State.helloIn, if_neg (Nat.not_lt.mpr h2), hm, Bool.not_false, if_true]

end

/-- Settles O37: a port's commands one by one, and Crown's work where the ends of the links change. -/
theorem fabricLinks : Obligations.FabricLinks := by
  intro s p b x withPort fresh idle seen
  refine ⟨fun t => State.watchLinks_same, fun t => State.watchLinks_unplaced, ?trained, ?untrained, ?retire, ?codeword, ?send, ?held,
    ?acked, ?naked, FabPort.grant_replaying, ?eighth, ?down, ?isDown, ?retrain, ?noRetrain, ?parity, ?engine, State.dropFrags_all,
    ?helloSend, ?hello, ?wrongPort, ?badHello, fun n e => FabPort.grant_mem⟩
  case trained =>
    intro lanes l h1 hq hl
    exact congrArg (fun t => Host.Outcome.next (s.watchLinks fun _ => t)) (State.fabTrained_up h1 hq hl)
  case untrained =>
    intro lanes h1 hw hl
    exact congrArg (fun t => Host.Outcome.next (s.watchLinks fun _ => t)) (State.fabTrained_fails h1 hw hl)
  case retire => exact fun l hl h2 hq => congrArg _ (State.laneRetire_empty hl h2 hq)
  case codeword => exact fun h2 => congrArg _ (State.badCodeword_up h2)
  case send => exact fun h2 h4 => congrArg _ (if_pos ⟨h2, h4⟩)
  case held =>
    refine fun h4 => ⟨congrArg _ (if_neg fun h => h.2 h4), fun cnt ack nak => ?_⟩
    exact congrArg _ ((congrArg (fun t => s.watchLinks fun _ => t) (State.creditIn_held h4)).trans (State.watchLinks_same rfl))
  case acked =>
    intro cnt ack h4 h5 h2 hq
    refine congrArg _ ((congrArg (fun t => s.watchLinks fun _ => t) (State.creditIn_acked h2 h4 h5 hq)).trans ?_)
    exact State.watchLinks_same (State.modLink_peers rfl)
  case naked =>
    intro cnt ack h3 hn
    have hrest := State.creditIn_naked (cnt := cnt) (ack := ack) h3 hn
    have hpeers : (s.creditIn p cnt ack true).fab.peers = s.fab.peers :=
      (FabState.peers_of_rest hrest).trans (State.modLink_peers rfl)
    refine ⟨s.creditIn p cnt ack true, congrArg _ (State.watchLinks_same hpeers), ?_⟩
    exact (congrArg Prod.snd (hrest p)).trans (by rw [State.modLink_port_same]; rfl)
  case eighth =>
    intro cnt ack h2 h4 ha hn
    obtain ⟨u, hu⟩ : ∃ u, u = (s.modLink p fun x => { x with
      cnt := cnt, ack := ack, naks := s.fab.ports[p].naks + 1, txCw := ack }).replayEvent p := ⟨_, rfl⟩
    have hstate : u.fab.ports[p].state = s.fab.ports[p].state := by
      rw [hu]
      refine (congrArg (fun r => r.1.1) (State.replayEvent_rest p)).trans ?_
      rw [State.modLink_port_same]
      rfl
    have htb : u.tb = s.tb := by rw [hu, State.replayEvent_tb, State.modLink_tb]
    have hdown : s.creditIn p cnt ack true = (u.fabDown p).fabPost (0x3020 + p.val) := by
      rw [State.creditIn_eighth h2 h4 ha hn, ← hu]
      exact State.fabLinkDown_up (by rw [hstate]; exact Nat.ne_of_gt (Nat.lt_of_lt_of_le Nat.zero_lt_two h2))
    refine ⟨(u.fabDown p).fabPost (0x3020 + p.val), congrArg (fun t => Host.Outcome.next (s.watchLinks fun _ => t)) hdown,
      State.fabDown_port.1, State.fabDown_port.2, (u.fabDown p).evt.incoming, ?_⟩
    rw [← htb, ← State.fabDown_tb (p := p)]
    rfl
  case down =>
    intro hq h0
    refine congrArg (fun t => Host.Outcome.next (s.watchLinks fun _ => t)) ((State.fabLinkDown_up h0).trans ?_)
    rw [State.fabDown_empty hq]
    rfl
  case isDown =>
    intro h0
    exact congrArg _ ((congrArg (fun t => s.watchLinks fun _ => t) (if_pos h0)).trans (State.watchLinks_same rfl))
  case retrain =>
    intro ini hq hi
    exact congrArg (fun t => Host.Outcome.next (s.watchLinks fun _ => t)) (State.retrain_empty hi hq)
  case noRetrain =>
    intro ini hi
    exact congrArg _ ((congrArg (fun t => s.watchLinks fun _ => t) (State.retrain_refused hi)).trans (State.watchLinks_same rfl))
  case parity => exact fun hq => congrArg (fun t => Host.Outcome.next (s.watchLinks fun _ => t)) (State.fabParity_port_empty hq)
  case engine => exact fun h => congrArg (fun t => Host.Outcome.next (s.watchLinks fun _ => t)) (State.fabParity_engine_idle h)
  case helloSend => exact fun h2 => congrArg _ (if_pos h2)
  case hello => exact fun m h h2 hm hb => congrArg (fun t => Host.Outcome.next (s.watchLinks fun _ => t)) (State.helloIn_good h2 hm hb)
  case wrongPort =>
    intro m h h2 hm h4 hp
    exact congrArg (fun t => Host.Outcome.next (s.watchLinks fun _ => t)) (State.helloIn_wrong_port h2 hm h4 hp)
  case badHello =>
    intro m h h2 hm
    exact congrArg _ ((congrArg (fun t => s.watchLinks fun _ => t) (State.helloIn_bad h2 hm)).trans (State.watchLinks_same rfl))

end Sys2Proof.Machine
end

/-! The proofs: packets of the fabric. -/

section
namespace Sys2Proof.Machine

/-! ### Routing (R356) -/

/-- A packet at its address has no way to go. -/
theorem FabState.nextPort_self (b : FabState) (up : Fin 6 → Bool) (a : Nat) : b.nextPort up a a 0 = .eject := by
  simp [FabState.nextPort]

/-- Without detour and hall, the first dimension whose coordinates differ is the one a packet goes along. -/
theorem FabState.nextPort_first {b : FabState} (up : Fin 6 → Bool) {cur dst d : Nat} (hh : b.hall = false) (hd : d < 3)
    (hbefore : ∀ k < d, coordOf cur k = coordOf dst k) (hne : coordOf cur d ≠ coordOf dst d) {dir : Bool}
    (hleg : b.legDir d cur dst = some dir) : b.nextPort up cur dst 0 = .out (portOf d dir) 0 false := by
  have hfind : [0, 1, 2].find? (fun k => !decide (coordOf cur k = coordOf dst k)) = some d := by
    interval_cases d
    · simp [hne]
    · simp [hne, hbefore 0]
    · simp [hne, hbefore 0, hbefore 1]
  simp [FabState.nextPort, hh, hfind, hleg]

theorem FabState.legDir_straight {b : FabState} {d cur dst : Nat} (hw : b.wraps d = false)
    (hb : b.blocked d cur dst (decide (coordOf cur d < coordOf dst d)) false = false) :
    b.legDir d cur dst = some (decide (coordOf cur d < coordOf dst d)) := by
  simp only [FabState.legDir, hw, hb, Bool.false_eq_true, if_false]

/-! ### A hop (R350) -/

theorem FabState.hopIn_reserved (b : FabState) (p : Fin 6) {k : FabPkt} (h : k.reserved = true) : b.hopIn p k = .error 3 := if_pos h

theorem FabState.hopIn_torus {b : FabState} {p : Fin 6} {k : FabPkt} (hr : k.reserved = false) (hm : b.ports[p].mode = 1)
    (h0 : 0 < k.hops.toNat) (h63 : k.hops.toNat < 63) : b.hopIn p k = .ok { k with hops := k.hops + 1 } := by
  have hz : k.hops ≠ 0#8 := fun h => by rw [h] at h0; exact absurd h0 (by decide)
  simp [FabState.hopIn, hr, hm, hz, Nat.not_le.mpr h63, -Fin.getElem_fin]

/-- The hop checks of a port read its mode and its peer. -/
theorem FabState.hopIn_congr {b b' : FabState} {p : Fin 6} (h : b'.ports[p].names = b.ports[p].names) (k : FabPkt) :
    b'.hopIn p k = b.hopIn p k := by
  simp only [FabPort.names, Prod.mk.injEq] at h
  obtain ⟨-, hm, -, hp⟩ := h
  simp only [FabState.hopIn, hm, hp]

section
variable {s : State} {p : Fin 6} {k q : FabPkt}

/-- A packet that arrives at a port that is up (R355). -/
theorem State.fabForward_up (h3 : s.fab.ports[p].state = 3) : s.fabForward p k =
    let t := s.modLink p fun x => { x with nak := false }
    match s.fab.hopIn p k with
    | .error c => (t.freeEntry (arrival p k)).fabDrop c
    | .ok q =>
      if q.typ = 4 then t.fabMgmt (arrival p k) q
      else if !s.fab.valid then (t.freeEntry (arrival p k)).fabDrop 1
      else if q.typ = 3 then t.fabFragment p q
      else t.fabRoute { arrival p k with pkt := q } := by
  have hin : (s.modLink p fun x => { x with nak := false }).fab.hopIn p k = s.fab.hopIn p k :=
    FabState.hopIn_congr (State.modLink_keeps (g := FabPort.names) rfl p) k
  refine (if_neg (by omega)).trans ?_
  simp only [hin]
  rfl

theorem State.fabForward_down (h2 : s.fab.ports[p].state < 2) : s.fabForward p k = s := if_pos (by omega)

theorem State.fabForward_error {c : Fin 4} (h3 : s.fab.ports[p].state = 3) (h : s.fab.hopIn p k = .error c) :
    s.fabForward p k = ((s.modLink p fun x => { x with nak := false }).freeEntry (arrival p k)).fabDrop c := by
  rw [State.fabForward_up h3]
  simp only [h]

theorem State.fabForward_routes (h3 : s.fab.ports[p].state = 3) (h : s.fab.hopIn p k = .ok q) (ht : q.typ = 1 ∨ q.typ = 2)
    (hv : s.fab.valid = true) :
    s.fabForward p k = (s.modLink p fun x => { x with nak := false }).fabRoute { arrival p k with pkt := q } := by
  rw [State.fabForward_up h3]
  rcases ht with ht | ht <;> simp [h, ht, hv]

/-- A packet for this module waits in its inbox. -/
theorem State.fabRoute_ejects {e : FabEntry} (ha : s.fab.addr.toNat = e.pkt.dst.toNat % 2 ^ 15) (hd : e.pkt.dtr = 0) :
    s.fabRoute e = s.modFab fun b => { b with inbox := b.inbox ++ [e] } := by
  simp only [State.fabRoute, ← ha, hd, Fin.val_zero, FabState.nextPort_self]

/-- A source-routed packet goes no further in a module that has an address (R354; log entry 188). -/
theorem State.fabForward_source_routed {o : Fin 6} (h3 : s.fab.ports[p].state = 3) (h : s.fab.hopIn p k = .ok q) (ht : q.typ = 4)
    (hs : q.sr = true) (hv : s.fab.valid = true) (ho : routePort q.args0 q.hops.toNat = some o) : s.fabForward p k =
      ((s.modLink p fun x => { x with nak := false }).freeEntry (arrival p k)).fabDrop 3 := by
  rw [State.fabForward_up h3]
  simp [h, ht, State.fabMgmt, hs, ho, hv]

/-! ### At the destination (R361, R362) -/

theorem FabState.takes_congr {b b' : FabState} (hv : b'.valid = b.valid) (ha : b'.admitMask = b.admitMask) (k : FabPkt) :
    b'.takes k = b.takes k := by
  simp only [FabState.takes, hv, ha]

theorem State.freeEntry_takes (e : FabEntry) (k : FabPkt) : (s.freeEntry e).fab.takes k = s.fab.takes k := by
  unfold State.freeEntry
  split
  · exact FabState.takes_congr rfl rfl k
  · rfl

/-- The oldest packet leaves the inbox for the command of its type. -/
theorem State.fabTake_first {e : FabEntry} {rest : List FabEntry} {typ : Fin 8} {use : FabPkt → State → State}
    (hi : s.fab.inbox = e :: rest) (ht : e.pkt.typ = typ) :
    s.fabTake typ use = use e.pkt ((s.modFab fun b => { b with inbox := rest }).freeEntry e) := by
  simp only [State.fabTake, hi, if_pos ht]

theorem State.taken_takes {rest : List FabEntry} (e : FabEntry) (k : FabPkt) :
    ((s.modFab fun b => { b with inbox := rest }).freeEntry e).fab.takes k = s.fab.takes k :=
  (State.freeEntry_takes e k).trans (FabState.takes_congr rfl rfl k)

theorem FabState.takes_refuses {b : FabState} {k : FabPkt}
    (h : k.pcrc ≠ k.crc ∨ b.valid = false ∨ bit b.admitMask (k.src.toNat / 512 % 64) = false) : b.takes k = false := by
  rcases h with h | h | h <;> simp [FabState.takes, h]

end

/-- Settles O38: the way of a packet, hop by hop and at its destination. -/
theorem fabricPackets : Obligations.FabricPackets := by
  refine ⟨FabState.nextPort_self, ?first, fun b p k => b.hopIn_reserved p, fun b p k => FabState.hopIn_torus, ?_⟩
  case first =>
    intro b up cur dst d hh hd hbefore hne hw hb
    exact FabState.nextPort_first up hh hd hbefore hne (FabState.legDir_straight hw hb)
  intro s p k e rest hk b x at' taken
  have hx {t : State} (h : s.fabForward p k = t) : exec (.fabricPacketForward p k) s = .next t := by
    rw [exec_fabricPacketForward, execFabricPacketForward, inRange_of_ok hk, h]
  refine ⟨fun h3 c h => hx (State.fabForward_error h3 h), fun h3 q h ht hv => hx (State.fabForward_routes h3 h ht hv), ?eject,
    fun h2 => hx (State.fabForward_down h2), ?write, ?writeBad, ?signal, ?routed, ?signalBad, FabState.takes_refuses,
    fun f => ⟨by simp [State.fabDrop, State.fabPost, State.modFab, b], rfl⟩⟩
  case eject =>
    intro h3 q h ht hv ha hd
    exact hx ((State.fabForward_routes h3 h ht hv).trans (State.fabRoute_ejects ha hd))
  case write =>
    intro hi ht hk ha
    refine congrArg _ ((State.fabTake_first hi ht).trans ?_)
    simp only [State.fabWriteIn, State.taken_takes, ha, Bool.and_true]
    exact if_pos hk
  case writeBad =>
    intro hi ht hk
    refine congrArg _ ((State.fabTake_first hi ht).trans ?_)
    simp only [State.fabWriteIn, State.taken_takes]
    exact if_neg (by simp only [b] at hk; simp [hk])
  case signal =>
    intro hi ht hk
    refine congrArg _ ((State.fabTake_first hi ht).trans ?_)
    simp only [State.fabSignalIn, State.taken_takes]
    exact if_pos hk
  case routed => exact fun h3 q o h ht hs hv ho => hx (State.fabForward_source_routed h3 h ht hs hv ho)
  case signalBad =>
    intro hi ht hk
    refine congrArg _ ((State.fabTake_first hi ht).trans ?_)
    simp only [State.fabSignalIn, State.taken_takes]
    exact if_neg (Bool.eq_false_iff.mp hk)

end Sys2Proof.Machine
end

/-! The proofs: discovery and collectives. -/

section
namespace Sys2Proof.Machine

/-! ### Crown's management work (R461) -/

section
variable {s : State} {p : Fin 6} {sub : Nat} {m : MgmtHead} {use : State → State} {w : MgmtWork}

theorem FabState.mgmtStop_congr {b b' : FabState} (h : b'.ports[p].names = b.ports[p].names) (sub : Nat) (m : MgmtHead) :
    b'.mgmtStop p sub m = b.mgmtStop p sub m := by
  simp only [FabPort.names, Prod.mk.injEq] at h
  obtain ⟨-, hm, -, hp⟩ := h
  simp only [FabState.mgmtStop, hm, hp]

theorem State.mgmtIn_down (h : s.fab.ports[p].state < 2 ∨ s.fab.ports[p].state = 4) : s.mgmtIn p sub m use = s := if_pos h

/-- A message at a port that is up. -/
theorem State.mgmtIn_up (h : 2 ≤ s.fab.ports[p].state ∧ s.fab.ports[p].state ≠ 4) : s.mgmtIn p sub m use =
    match s.fab.mgmtStop p sub m with
    | some k => (s.modLink p fun x => { x with nak := false }).fabDrop k
    | none => use (s.modLink p fun x => { x with nak := false }) := by
  have hstop : (s.modLink p fun x => { x with nak := false }).fab.mgmtStop p sub m = s.fab.mgmtStop p sub m :=
    FabState.mgmtStop_congr (State.modLink_keeps (g := FabPort.names) rfl p) sub m
  refine (if_neg (by omega)).trans ?_
  simp only [hstop] <;> rfl

theorem State.mgmtIn_stopped {k : Fin 4} (h : 2 ≤ s.fab.ports[p].state ∧ s.fab.ports[p].state ≠ 4)
    (hk : s.fab.mgmtStop p sub m = some k) : s.mgmtIn p sub m use = (s.modLink p fun x => { x with nak := false }).fabDrop k := by
  rw [State.mgmtIn_up h]
  simp only [hk]

theorem State.mgmtIn_taken (h : 2 ≤ s.fab.ports[p].state ∧ s.fab.ports[p].state ≠ 4) (hk : s.fab.mgmtStop p sub m = none) :
    s.mgmtIn p sub m use = use (s.modLink p fun x => { x with nak := false }) := by
  rw [State.mgmtIn_up h]
  simp only [hk]

/-- What a trunk does not pass. -/
theorem FabState.mgmtStop_trunk {b : FabState} (hm : b.ports[p].mode = 2) (ht : trunkSub sub = false) : b.mgmtStop p sub m = some 3 := by
  simp [FabState.mgmtStop, hm, ht, -Fin.getElem_fin]

/-- Crown takes up at once what arrives in its turn with nothing before it. -/
theorem State.mgmtArrive_served (hs : s.serves .management = true) (hq : s.crn.mgmtQ = []) : s.mgmtArrive w = s.mgmtWork w := by
  have hserves : State.serves { s with crn := { s.crn with mgmtQ := [w] } } .management = true := hs
  have hcrn : { s with crn := { s.crn with mgmtQ := [] } } = s := by rw [← hq]
  simp only [State.mgmtArrive, hq, List.length_nil, List.nil_append, Nat.zero_add, List.range_one, List.foldl_cons,
    List.foldl_nil, State.mgmtServe, hserves, if_true, hcrn]

theorem State.mgmtServe_busy (hs : s.serves .management = false) : s.mgmtServe = s := by
  unfold State.mgmtServe
  split
  · rfl
  · exact if_neg (Bool.eq_false_iff.mp hs)

/-- Work that arrives while a class above is ready waits. -/
theorem State.mgmtArrive_queued (hs : s.serves .management = false) :
    s.mgmtArrive w = { s with crn := { s.crn with mgmtQ := s.crn.mgmtQ ++ [w] } } := by
  have hserves : State.serves { s with crn := { s.crn with mgmtQ := s.crn.mgmtQ ++ [w] } } .management = false := hs
  exact List.foldl_fixed' (fun _ => State.mgmtServe_busy hserves) _

end

/-! ### The survey (R353, R354) -/

section
variable {s : State} {n : SurveyNode} {v : Survey}

/-- A survey goes no further from a module that names no other. -/
theorem State.surveyOn_alone (h : ∀ q : Fin 6, n.peers[q] = none) : s.surveyOn n = s :=
  List.foldl_fixed' (fun p => by simp only [h]) _

theorem State.surveyCheck_waits (hv : s.fab.survey = some v) (hw : v.waiting ≠ []) : s.surveyCheck = s := by
  simp only [State.surveyCheck, hv]
  exact if_neg (by simpa using hw)

theorem State.surveyCheck_ends (hv : s.fab.survey = some v) (hw : v.waiting = []) : s.surveyCheck = s.surveyEnd v := by
  simp only [State.surveyCheck, hv, hw, List.isEmpty_nil, if_true]

/-- A module that names no other is not misplaced. -/
theorem misplaced_alone {size : Vector (Fin 9) 3} {wrap : Vector Bool 3} (h : ∀ q : Fin 6, n.peers[q] = none) (bad : List Word)
    (waiting : List (List (Fin 6))) : misplaced ⟨[n], bad, waiting⟩ size wrap = [] := by
  have hport (p : Fin 6) : badPort ⟨[n], bad, waiting⟩ size wrap n p = none := by simp only [badPort, h, Option.bind_none]
  simp [misplaced, hport]

/-- The state after a survey that placed no module but this one. -/
theorem State.surveyEnd_alone (h : ∀ q : Fin 6, n.peers[q] = none) (hr : n.route = []) : ∃ map placed tree,
    s.surveyEnd ⟨[n], [], []⟩ = ((s.modFab fun b => { b with survey := none, placed := placed, parent := none, tree := tree }).assignSelf
      (BitVec.ofNat 15 (512 * s.fab.cfgSlice.val)) s.fab.cfgSize s.fab.wrapsNow map).fabPost 0x3080 := by
  simp only [State.surveyEnd, misplaced_alone h, List.contains_nil, Bool.not_false, List.filter_true, List.isEmpty_nil, if_true,
    List.reverse_singleton, List.foldl_cons, List.foldl_nil, hr, State.sendMgmt]
  exact ⟨_, _, _, rfl⟩

theorem State.assignSelf_fab (s : State) (addr : BitVec 15) (size : Vector (Fin 9) 3) (wrap : Vector Bool 3) (map : FabMap) :
    let t := s.assignSelf addr size wrap map
    t.fab.addr = addr ∧ t.fab.valid = true ∧ t.fab.size = size ∧ t.fab.wrap = wrap ∧ t.fab.map = map ∧ { t with fab := s.fab } = s ∧
      ∀ q : Fin 6, s.fab.ports[q].state = 2 → t.fab.ports[q].state = 3 := by
  refine ⟨rfl, rfl, rfl, rfl, rfl, rfl, fun q hq => ?_⟩
  simp only [Fin.getElem_fin] at hq
  simp [State.assignSelf, State.modFab, hq]

end

/-! ### Collective operations (R363 to R367) -/

section
variable {s : State} {p : Fin 6} {k q : FabPkt} {o : ColOp}

/-- A fragment that arrives whole at a port that is up. -/
theorem State.coFragment_arrives (h3 : s.fab.ports[p].state = 3) (h : s.fab.hopIn p k = .ok q) (ht : q.typ = 3)
    (hv : s.fab.valid = true) (hc : q.pcrc = q.crc) :
    s.coFragment p k = ((s.modLink p fun x => { x with nak := false }).coTake p q).coRetry := by
  have hin : (s.modLink p fun x => { x with nak := false }).fab.hopIn p k = s.fab.hopIn p k :=
    FabState.hopIn_congr (State.modLink_keeps (g := FabPort.names) rfl p) k
  have hvalid : (s.modLink p fun x => { x with nak := false }).fab.valid = true := hv
  refine (if_neg (by omega)).trans ?_
  simp only [hin, h, ht, hvalid, hc, ne_eq, not_true_eq_false, if_false, Bool.not_true, Bool.false_eq_true]

theorem State.freeEntry_opOf (s : State) (e : FabEntry) (id : Nat) : (s.freeEntry e).opOf id = s.opOf id := by
  unfold State.freeEntry
  split <;> rfl

/-- A fragment whose PCRC is wrong aborts its operation (R366). -/
theorem State.coFragment_corrupt (h3 : s.fab.ports[p].state = 3) (h : s.fab.hopIn p k = .ok q) (ht : q.typ = 3)
    (hv : s.fab.valid = true) (hc : q.pcrc ≠ q.crc) (ho : s.opOf (fld q.args0 0 8) = some o) : s.coFragment p k =
      (((s.modLink p fun x => { x with nak := false }).freeEntry (arrival p k)).fabDrop 1).coAbort o 3 := by
  have hin : (s.modLink p fun x => { x with nak := false }).fab.hopIn p k = s.fab.hopIn p k :=
    FabState.hopIn_congr (State.modLink_keeps (g := FabPort.names) rfl p) k
  have hop : (((s.modLink p fun x => { x with nak := false }).freeEntry (arrival p k)).fabDrop 1).opOf (fld q.args0 0 8) = some o :=
    (State.freeEntry_opOf (s.modLink p fun x => { x with nak := false }) _ _).trans ho
  have hvalid : (s.modLink p fun x => { x with nak := false }).fab.valid = true := hv
  refine (if_neg (by omega)).trans ?_
  simp only [hin, h, ht, hvalid, hc, hop, ne_eq, not_true_eq_false, not_false_eq_true, if_false, if_true, Bool.not_true,
    Bool.false_eq_true]

theorem State.coTake_unposted (h : s.opOf (fld q.args0 0 8) = none) :
    s.coTake p q = s.modFab fun b => { b with frags := b.frags ++ [(p, q)] } := by
  simp only [State.coTake, h]

/-- The only fragment waits again when its operation is not posted. -/
theorem State.coRetry_unposted (h : s.opOf (fld q.args0 0 8) = none) (hf : s.fab.frags = [(p, q)]) : s.coRetry = s := by
  simp only [State.coRetry, hf, List.foldl_cons, List.foldl_nil]
  refine (State.coTake_unposted (s := s.modFab fun b => { b with frags := [] }) h).trans ?_
  simp only [State.modFab, List.nil_append, ← hf]

theorem State.coTake_met {t : State} (h : s.opOf (fld q.args0 0 8) = some o) (hm : s.coMeet o q = (t, false)) :
    s.coTake p q = t.freeEntry (arrival p q) := by
  simp only [State.coTake, h, hm, Bool.false_eq_true, if_false]

theorem State.coMeet_differs (h : fld q.args1 32 32 ≠ (coCheck o.desc).toNat) : s.coMeet o q = (s.coDiffer o q, false) := by
  have hne : BitVec.ofNat 32 (fld q.args1 32 32) ≠ coCheck o.desc := fun he => h (by
    rw [← he, BitVec.toNat_ofNat, Nat.mod_eq_of_lt (fld_lt _ _ _)])
  simp only [State.coMeet, if_pos hne]

/-- A fragment on its way up the first line meets this module's source. -/
theorem State.coMeet_first {d : Nat} {own : List Byte} {t : State} (h : fld q.args1 32 32 = (coCheck o.desc).toNat)
    (hd : (coPhases o.desc).head? = some d) (hq : fld q.args0 32 2 = d) (hup : bit q.args0 34 = false)
    (hfull : s.coFull o 1 q.payload.length = false) (hsrc : s.coSource o (fld q.args0 8 24) = (t, some own)) :
    s.coMeet o q = (t.coUp o 0 d (fld q.args0 8 24) q.payload own, false) := by
  have hchk : BitVec.ofNat 32 (fld q.args1 32 32) = coCheck o.desc := by rw [h, BitVec.ofNat_toNat, BitVec.setWidth_eq]
  have hidx : (coPhases o.desc).findIdx? (fun x => decide (x = d)) = some 0 := by
    obtain ⟨ds, hds⟩ := List.head?_eq_some_iff.mp hd
    simp [hds, List.findIdx?_cons]
  simp [State.coMeet, hchk, hq, hidx, hup, hfull, hsrc]

theorem State.colTimeout_unposted {id : Fin 256} (ho : s.opOf id.val = none) (hf : s.fab.frags = [(p, k)])
    (hk : fld k.args0 0 8 = id.val) : s.colTimeout id =
      ((s.dropFrags fun k => decide (fld k.args0 0 8 = id.val)).coStatus id.val (coStat 0 3 1 false false)).fabPost 0x3071 := by
  simp [State.colTimeout, ho, hf, hk]

/-- What dropping the only fragment, which is of the operation, leaves. -/
theorem State.dropFrags_only {f : FabPkt → Bool} (hf : s.fab.frags = [(p, k)]) (hk : f k = true) :
    s.dropFrags f = (s.freeEntry (arrival p k)).modFab fun b => { b with frags := [] } := by
  have hfree : (s.freeEntry (arrival p k)).fab.frags = [(p, k)] := by
    rw [← hf]
    unfold State.freeEntry
    split <;> rfl
  simp [State.dropFrags, hf, hk, State.modFab, hfree]

theorem State.freeEntry_evt (s : State) (e : FabEntry) : (s.freeEntry e).evt = s.evt := by
  unfold State.freeEntry
  split <;> rfl

/-- An operation that was not posted in time: its fragment is dropped and its status says so (R367). -/
theorem State.colTimeout_only {id : Fin 256} (ho : s.opOf id.val = none) (hf : s.fab.frags = [(p, k)])
    (hk : fld k.args0 0 8 = id.val) :
    (s.colTimeout id).fab.frags = [] ∧
      SMap.get 0 (s.colTimeout id).fab.colStat id.val = BitVec.ofNat 128 (3 * 2 ^ 32 + 2 ^ 40) ∧
      (s.colTimeout id).evt.incoming = s.evt.incoming ++ [⟨0x3071, 0xC8, s.tb.cnt, none, false, false⟩] := by
  rw [State.colTimeout_unposted ho hf hk, State.dropFrags_only hf (decide_eq_true hk)]
  refine ⟨rfl, ?_, ?_⟩
  · have hne : coStat 0 3 1 false false ≠ 0 := by decide
    simp only [State.coStatus, State.modFab, State.fabPost, State.postPart_fab, SMap.set, if_neg hne, SMap.get_insert, if_true]
    rfl
  · rw [← State.freeEntry_evt s (arrival p k), ← State.freeEntry_tb (arrival p k)]
    rfl

/-- Why a descriptor is refused (R363). -/
theorem State.coOk_refuses {ini : Ini} {d : Rec64} (h : 16 ≤ s.fab.ops.length ∨ s.fab.valid = false ∨
    (∃ o ∈ s.fab.ops, coId o.desc = coId d) ∨ isSafety (s.coPart ini d) = true ∨ coReserved d = true) : s.coOk ini d = false := by
  rcases h with h | h | ⟨o, ho, he⟩ | h | h
  · simp [State.coOk, Nat.not_lt.mpr h]
  · simp [State.coOk, h]
  · have hany : s.fab.ops.any (fun o => decide (coId o.desc = coId d)) = true := List.any_eq_true.mpr ⟨o, ho, decide_eq_true he⟩
    simp only [State.coOk, hany, Bool.not_true, Bool.and_false, Bool.false_and]
  · simp [State.coOk, h]
  · simp [State.coOk, h]

end

/-- A sum that leaves the range of INT32 is one that saturates. -/
theorem sat32_ne_iff (x : Int) : sat32 x ≠ x ↔ x < -2 ^ 31 ∨ 2 ^ 31 - 1 < x := by
  unfold sat32
  omega

/-- INT32 elements as they combine (R365). -/
theorem coElem_int (x y : Nat) : coElem 0 2 x y = (wrapN 32 (max (-2 ^ 31) (min (2 ^ 31 - 1) (toSigned 32 x + toSigned 32 y))),
      decide (toSigned 32 x + toSigned 32 y < -2 ^ 31 ∨ 2 ^ 31 - 1 < toSigned 32 x + toSigned 32 y)) ∧
    coElem 1 2 x y = (wrapN 32 (max (toSigned 32 x) (toSigned 32 y)), false) ∧
    coElem 2 2 x y = (wrapN 32 (min (toSigned 32 x) (toSigned 32 y)), false) := by
  refine ⟨?_, rfl, rfl⟩
  simp only [coElem, if_true, sat32_ne_iff]
  rfl

/-! ### What Crown does with a message (R353, R354, R357) -/

section
variable {s : State}

/-- A REPORT with nothing surveyed tells of changed links. -/
theorem State.reportIn_placed {route : List (Fin 6)} {ident : Word} {o : Bool} {peers : Vector (Option Word) 6}
    (h : s.fab.survey = none) : s.reportIn route ident o peers = s.endsChanged ident peers := by
  simp only [State.reportIn, h]

/-- A second origin in the slice is a fault. -/
theorem State.reportIn_origin {v : Survey} {route : List (Fin 6)} {ident : Word} {peers : Vector (Option Word) 6}
    (h : s.fab.survey = some v) (hr : route ∈ v.waiting) (hi : ident ≠ Config.deviceId) :
    s.reportIn route ident true peers = s.surveyFault := by
  have hc : v.waiting.contains route = true := List.contains_iff_mem.mpr hr
  simp only [State.reportIn, h, hc, hi, Bool.not_true, Bool.false_eq_true, if_false, ne_eq, not_false_eq_true, decide_true,
    Bool.and_self, if_true]

/-- A module that answers from a free place, and is not known, is placed there. -/
theorem State.reportIn_places {v : Survey} {route : List (Fin 6)} {q : Fin 6} {n : SurveyNode} {c : Nat} {ident : Word}
    {peers : Vector (Option Word) 6} (h : s.fab.survey = some v) (hr : route ∈ v.waiting)
    (hn : v.nodes.find? (fun k => k.route = route.dropLast) = some n) (hq : route.getLast? = some q)
    (hc : stepCoord s.fab.cfgSize s.fab.wrapsNow n.coord q = some c) (hnew : ∀ k ∈ v.nodes, k.ident ≠ ident ∧ k.coord ≠ c)
    (hbad : ident ∉ v.bad) : s.reportIn route ident false peers =
      ((s.modFab fun b => { b with survey := some { v with
        nodes := v.nodes ++ [⟨ident, c, route, peers⟩], waiting := v.waiting.erase route } }).surveyOn
          ⟨ident, c, route, peers⟩).surveyCheck := by
  have hwait : v.waiting.contains route = true := List.contains_iff_mem.mpr hr
  have hknown : v.nodes.find? (fun k => decide (k.ident = ident)) = none :=
    List.find?_eq_none.mpr fun k hk => by simpa using (hnew k hk).1
  have htaken : v.nodes.find? (fun k => decide (k.coord = c)) = none :=
    List.find?_eq_none.mpr fun k hk => by simpa using (hnew k hk).2
  have hb : v.bad.contains ident = false := by simpa using hbad
  simp only [State.reportIn, h, hwait, hn, hq, hc, hknown, htaken, hb, Bool.not_true, Bool.false_eq_true, if_false, Bool.false_and,
    Option.bind_some]

/-- A survey that placed no module but this one assigns this one its address. -/
theorem State.surveyEnd_alone_assigns {n : SurveyNode} (h : ∀ q : Fin 6, n.peers[q] = none) (hr : n.route = []) :
    let t := s.surveyEnd ⟨[n], [], []⟩
    t.fab.valid = true ∧ t.fab.addr = BitVec.ofNat 15 (512 * s.fab.cfgSlice.val) ∧ t.fab.survey = none ∧ t.out = s.out ∧
      t.evt.incoming = s.evt.incoming ++ [⟨0x3080, 0xC8, s.tb.cnt, none, false, false⟩] := by
  obtain ⟨map, placed, tree, ht⟩ := State.surveyEnd_alone (s := s) h hr
  simp only [ht]
  exact ⟨rfl, rfl, rfl, rfl, rfl⟩

/-- Discovery of a slice of one module. -/
theorem State.discoveryStart_alone (ho : s.fab.origin = true) (hp : ∀ q : Fin 6, s.fab.peers[q] = none) :
    let self : SurveyNode := ⟨Config.deviceId, 0, [], s.fab.peers⟩
    s.discoveryStart = (s.unassign.modFab fun b => { b with survey := some ⟨[self], [], []⟩ }).surveyEnd ⟨[self], [], []⟩ := by
  simp only [State.discoveryStart, ho, Bool.not_true, Bool.false_eq_true, if_false]
  rw [State.surveyOn_alone hp]
  exact State.surveyCheck_ends rfl rfl

end

/-- Settles O39: discovery message by message, and the collective engine fragment by fragment. -/
theorem discoveryAndCollectives : Obligations.DiscoveryAndCollectives := by
  intro s p b x at' up turn comes held isMgmt arrives adds
  have hserve {t : MgmtWork} (h : turn) : at'.mgmtArrive t = at'.mgmtWork t := State.mgmtArrive_served h.1 h.2
  have hfrag {k : FabPkt} {t : State} (hk : pktOk k = true) (h : s.coFragment p k = t) : exec (.collFragment p k) s = .next t := by
    rw [exec_collFragment, execCollFragment, inRange_of_ok hk, h]
  have hin {sub : Nat} {m : MgmtHead} {use : State → State} (h : comes sub m) : s.mgmtIn p sub m use = use at' :=
    State.mgmtIn_taken h.1 h.2.2
  refine ⟨?down, ?stopped, fun sub m => FabState.mgmtStop_trunk, ?queued, fun h => congrArg _ (if_neg (Bool.eq_false_iff.mp h)),
    ?notOrigin, ?held, ?alone, ?survey, ?links, ?origin2, ?places, ?assign, ?map, ?desc, ?early, ?corrupt, ?differs, ?first, ?timeout,
    coElem_int⟩
  case down =>
    rintro i m sub (⟨r, hr, rfl, rfl⟩ | ⟨r, ident, o, peers, hr, rfl, rfl⟩ | ⟨addr, size, wrap, map, rfl, rfl⟩ | ⟨map, rfl, rfl⟩) h
    · exact (inRange_of_ok hr).trans (congrArg _ (State.mgmtIn_down h))
    · exact (inRange_of_ok hr).trans (congrArg _ (State.mgmtIn_down h))
    · exact congrArg _ (State.mgmtIn_down h)
    · exact congrArg _ (State.mgmtIn_down h)
  case stopped =>
    rintro i m sub k (⟨r, hr, rfl, rfl⟩ | ⟨r, ident, o, peers, hr, rfl, rfl⟩ | ⟨addr, size, wrap, map, rfl, rfl⟩ | ⟨map, rfl, rfl⟩) h hk
    · exact (inRange_of_ok hr).trans (congrArg _ (State.mgmtIn_stopped h hk))
    · exact (inRange_of_ok hr).trans (congrArg _ (State.mgmtIn_stopped h hk))
    · exact congrArg _ (State.mgmtIn_stopped h hk)
    · exact congrArg _ (State.mgmtIn_stopped h hk)
  case queued =>
    intro m map h hk hs
    exact congrArg _ ((State.mgmtIn_taken h hk).trans (State.mgmtArrive_queued (s := at') hs))
  case notOrigin =>
    intro ho
    refine congrArg Host.Outcome.next ?_
    split
    · exact if_pos (by simp only [b] at ho; simp [ho])
    · rfl
  case held =>
    refine ⟨rfl, fun q hq => ?_⟩
    simp only [b, Fin.getElem_fin] at hq
    simp [held, State.unassign, State.modFab, hq]
  case alone =>
    intro hs ho hp
    refine ⟨s.discoveryStart, congrArg _ (if_pos hs), ?_⟩
    rw [State.discoveryStart_alone ho hp]
    exact State.surveyEnd_alone_assigns hp rfl
  case survey =>
    intro m route hc hr ho u
    refine (inRange_of_ok hr).trans (congrArg _ ((hin hc).trans ((hserve hc.2.1).trans ?_)))
    have hu : u.fab.origin = false := ho
    simp only [State.mgmtWork, State.messageWork, State.surveyIn]
    rw [if_neg (Bool.eq_false_iff.mp hu), hu]
    rfl
  case links =>
    intro m route ident o peers hc hr hv
    exact (inRange_of_ok hr).trans (congrArg _ ((hin hc).trans ((hserve hc.2.1).trans (State.reportIn_placed hv))))
  case origin2 =>
    intro m v route ident peers hc hr hv hw hi
    exact (inRange_of_ok hr).trans (congrArg _ ((hin hc).trans ((hserve hc.2.1).trans (State.reportIn_origin hv hw hi))))
  case places =>
    intro m v route q n c ident peers hc hr hv hw hn hq hstep hnew hbad
    have hx : exec (.report ⟨p, m⟩ route ⟨ident, false⟩ peers) s =
        .next (((adds v ⟨ident, c, route, peers⟩).surveyOn ⟨ident, c, route, peers⟩).surveyCheck) :=
      (inRange_of_ok hr).trans (congrArg _ ((hin hc).trans ((hserve hc.2.1).trans
        (State.reportIn_places hv hw hn hq hstep hnew hbad))))
    refine ⟨hx, fun hp hleft => hx.trans (congrArg _ ?_)⟩
    rw [State.surveyOn_alone hp]
    exact State.surveyCheck_waits rfl hleft
  case assign =>
    intro m addr size wrap map hc
    obtain ⟨ha, hv, hs, hw, hm, hfab, hports⟩ := at'.assignSelf_fab addr size wrap map
    have hx : exec (.assign ⟨p, m⟩ addr ⟨size, wrap⟩ map) s = .next (at'.assignSelf addr size wrap map) :=
      congrArg Host.Outcome.next ((hin hc).trans (hserve hc.2.1))
    refine ⟨_, hx, ha, hv, hs, hw, hm, ?_, fun q hq => hports q ?_⟩
    · exact congrArg (fun t : State => { t with fab := b }) hfab
    · exact (congrArg Prod.fst (State.modLink_keeps (s := s) (p := p) (g := FabPort.names) (f := fun x => { x with nak := false }) rfl q)).trans hq
  case map =>
    intro m map hc
    exact congrArg _ ((hin hc).trans (hserve hc.2.1))
  case desc =>
    intro ini data hd d put
    have hx (t : State) (h : s.colqWrite ini 0 data = t) : exec (.collDescriptor ini 0 data) s = .next t := by
      rw [exec_collDescriptor, execCollDescriptor, inRange_of_ok (by simp [bytesIn, hd]), h]
    have hcov : covers 0 data.length 0x3C 0x3F = true := by simp [covers, hd]
    have hwrite : s.colqWrite ini 0 data = if put.coOk ini d then put.coStart ⟨d, put.coPart ini d, 0, false, false, []⟩
        else (put.modFab fun b => { b with colRef := b.colRef + 1 }).fabPost 0x3070 := by
      unfold State.colqWrite
      simp only [hcov, Bool.not_true, Bool.false_eq_true, if_false]
      rfl
    exact ⟨fun h => hx _ (hwrite.trans (if_pos h)), fun h => hx _ (hwrite.trans (if_neg (Bool.eq_false_iff.mp h))),
      State.coOk_refuses⟩
  case early =>
    rintro k q ⟨hk, h3, hq, ht, hv, hcrc⟩ ho hf
    have hop (t : State) (h : t.fab.ops = []) : t.opOf (fld q.args0 0 8) = none := by simp [State.opOf, h]
    refine hfrag hk ((State.coFragment_arrives h3 hq ht hv hcrc).trans ?_)
    have hfr : at'.fab.frags ++ [(p, q)] = [(p, q)] := by
      rw [show at'.fab.frags = [] from hf]
      rfl
    have htake : at'.coTake p q = at'.modFab fun b => { b with frags := [(p, q)] } :=
      (State.coTake_unposted (hop at' ho)).trans (congrArg (fun l => at'.modFab fun b => { b with frags := l }) hfr)
    exact (congrArg State.coRetry htake).trans (State.coRetry_unposted (q := q) (p := p) (hop _ ho) rfl)
  case corrupt => exact fun k q o hk h3 hq ht hv hcrc ho => hfrag hk (State.coFragment_corrupt h3 hq ht hv hcrc ho)
  case differs =>
    rintro k q o ⟨hk, h3, hq, ht, hv, hcrc⟩ ho hd
    refine hfrag hk ((State.coFragment_arrives h3 hq ht hv hcrc).trans (congrArg State.coRetry ?_))
    exact State.coTake_met ho (State.coMeet_differs hd)
  case first =>
    rintro k q o d own t ⟨hk, h3, hq, ht, hv, hcrc⟩ ho hchk hd hdim hup hfull hsrc
    refine hfrag hk ((State.coFragment_arrives h3 hq ht hv hcrc).trans (congrArg State.coRetry ?_))
    exact State.coTake_met ho (State.coMeet_first hchk hd hdim hup hfull hsrc)
  case timeout =>
    intro id ho k hf hk
    have hx : exec (.colTimeout id) s = .next (s.colTimeout id) := rfl
    exact ⟨_, hx, State.colTimeout_only ho hf hk⟩

end Sys2Proof.Machine
end

/-! The proofs: what the stop of a partition leaves alone. -/

section
namespace Sys2Proof.Machine

@[simp] theorem bit_ofNat_zero (n i : Nat) : bit (0#n) i = false := bit_zero n i

/-! ### What stopping leaves alone -/

/-- What the abort of a collective leaves alone: the FLT block, time, DMA, the PWR block but NAP, Gauntlet but its monitors, the
event unit but what it is given, and every core's IMEM and sequencer. -/
structure Steady where
  flt : FltState
  tb  : TbState
  dma : DmaState
  pwr : PwrState
  gnt : GntState
  evt : EvtState
  cores : CoreId → SMap Word × SeqState

def State.steady (s : State) : Steady :=
  ⟨s.flt, s.tb, s.dma, { s.pwr with nap := 0 }, { s.gnt with mon := Vector.replicate 4 DieMon.reset }, { s.evt with incoming := [] },
    fun c => (s.cores[c].imem, s.cores[c].seq)⟩

section
variable {s t : State}

theorem steady_foldl {α : Type} {f : State → α → State} (h : ∀ t a, (f t a).steady = t.steady) (l : List α) (s : State) :
    (l.foldl f s).steady = s.steady := by
  induction l generalizing s with
  | nil => rfl
  | cons a l ih => exact (ih _).trans (h s a)

@[simp] theorem State.postPart_steady (code : Nat) (src : Ini) (p : Option (Fin 4)) : (s.postPart code src p).steady = s.steady := rfl

@[simp] theorem State.modSpd_steady (c : CoreId) (f : SpdState → SpdState) : (s.modSpd c f).steady = s.steady := by
  have hcore (d : CoreId) : ((s.modSpd c f).cores[d].imem, (s.modSpd c f).cores[d].seq) = (s.cores[d].imem, s.cores[d].seq) := by
    rw [State.modSpd, State.modCore_core]
    split
    · next h => rw [h]
    · rfl
  exact congrArg (Steady.mk _ _ _ _ _ _) (funext hcore)

@[simp] theorem State.modChan_steady (ch : Fin 16) (f : ChanState → ChanState) : (s.modChan ch f).steady = s.steady := rfl

@[simp] theorem State.wakeDie_steady (d : Fin 4) : (s.wakeDie d).steady = s.steady := rfl

@[simp] theorem State.syncAdd_steady (c : CoreId) (n : Nat) (v : Word) : (s.syncAdd c n v).steady = s.steady := State.modSpd_steady c _

@[simp] theorem State.signalRefused_steady (c : CoreId) : (s.signalRefused c).steady = s.steady :=
  (State.modSpd_steady (s := s) c fun p => { p with sgref := satAdd 0xFFFF p.sgref 1 })

@[simp] theorem State.remoteSignal_steady (c : CoreId) (i : Ini) (n : Nat) (v : Word) (who : Sender) :
    (s.remoteSignal c i n v who).steady = s.steady := by
  simp only [State.remoteSignal]
  (repeat' split) <;> simp

@[simp] theorem State.ddrRefuse_steady (who : DdrWho) (wr : Bool) (a n : Nat) : (s.ddrRefuse who wr a n).steady = s.steady := rfl

@[simp] theorem State.grantFor_steady (who : DdrWho) (bs : List Nat) : (s.grantFor who bs).steady = s.steady := by
  unfold State.grantFor State.grantAll
  split
  · exact steady_foldl (fun _ b => State.modChan_steady (burstChan b) _) _ _
  · rfl

/-- Bytes stored in DDR change only the DDR block. -/
theorem State.steady_ddr (d : DdrState) : ({ s with ddr := d } : State).steady = s.steady := rfl

@[simp] theorem State.ddrAccept_steady (who : DdrWho) (a : Nat) (bs : List Byte) : (s.ddrAccept who a bs).1.steady = s.steady := by
  simp only [State.ddrAccept]
  split
  · split
    · exact (State.steady_ddr _).trans (steady_foldl (fun _ _ => State.postPart_steady _ _ _) _ _)
    · rfl
  · exact State.ddrRefuse_steady who true a bs.length

@[simp] theorem State.ddrPut_steady (who : DdrWho) (a : Nat) (bs : List Byte) : (s.ddrPut who a bs).steady = s.steady := by
  simp only [State.ddrPut, State.ddrWrite]
  split <;> simp

@[simp] theorem State.drawBytes_steady (n : Nat) : (s.drawBytes n).2.steady = s.steady := rfl

@[simp] theorem State.modFab_steady (f : FabState → FabState) : (s.modFab f).steady = s.steady := rfl

@[simp] theorem State.fabPost_steady (code : Nat) : (s.fabPost code).steady = s.steady := rfl

@[simp] theorem State.coStatus_steady (id : Nat) (w : BitVec 128) : (s.coStatus id w).steady = s.steady := rfl

@[simp] theorem State.coDrop_steady (id : Nat) : (s.coDrop id).steady = s.steady := rfl

@[simp] theorem State.freeEntry_steady (e : FabEntry) : (s.freeEntry e).steady = s.steady := by
  unfold State.freeEntry
  split <;> rfl

@[simp] theorem State.dropFrags_steady (p : FabPkt → Bool) : (s.dropFrags p).steady = s.steady :=
  (State.modFab_steady _).trans (steady_foldl (fun _ _ => State.freeEntry_steady _) _ _)

@[simp] theorem State.coSignal_steady (d : Rec64) : (s.coSignal d).steady = s.steady := by
  unfold State.coSignal
  split <;> simp

@[simp] theorem State.coAbort_steady (o : ColOp) (cause : Nat) : (s.coAbort o cause).steady = s.steady := by
  unfold State.coAbort
  rw [State.fabPost_steady, State.coSignal_steady, State.coStatus_steady, State.dropFrags_steady, State.coDrop_steady,
    State.ddrPut_steady, State.drawBytes_steady]

@[simp] theorem State.coAbortAll_steady (p : Fin 4 → Bool) (cause : Nat) : (s.coAbortAll p cause).steady = s.steady :=
  steady_foldl (fun _ o => State.coAbort_steady o cause) _ _

/-- What a partition's reset does outside its cores. -/
@[simp] theorem State.partReset_steady (p : Fin 4) : (s.partReset p).steady = s.steady :=
  State.coAbortAll_steady (s := s.nmgReset p) _ 0

/-! ### What is read off -/

theorem State.steady_flt (h : t.steady = s.steady) : t.flt = s.flt := congrArg Steady.flt h
theorem State.steady_tb (h : t.steady = s.steady) : t.tb = s.tb := congrArg Steady.tb h
theorem State.steady_dma (h : t.steady = s.steady) : t.dma = s.dma := congrArg Steady.dma h
theorem State.steady_gnt (h : t.steady = s.steady) :
    { t.gnt with mon := Vector.replicate 4 DieMon.reset } = { s.gnt with mon := Vector.replicate 4 DieMon.reset } := congrArg Steady.gnt h
theorem State.steady_fenced (h : t.steady = s.steady) : t.evt.fenced = s.evt.fenced := congrArg (fun x => x.evt.fenced) h
theorem State.steady_imem (h : t.steady = s.steady) (c : CoreId) : t.cores[c].imem = s.cores[c].imem :=
  congrArg (fun x => (x.cores c).1) h
theorem State.steady_seq (h : t.steady = s.steady) (c : CoreId) : t.cores[c].seq = s.cores[c].seq :=
  congrArg (fun x => (x.cores c).2) h

end

/-! ### Cores held in reset -/

/-- A core whose IMEM is clear and that has no task. -/
def State.stopped (s : State) (c : CoreId) : Prop := s.cores[c].imem = [] ∧ s.cores[c].seq.phase = .idle

section
variable {s t : State}

/-- What holding a core in reset leaves alone: everything outside the cores and the cores' DMA engines. -/
structure HeldOnly (s t : State) : Prop where
  rest : { t with cores := s.cores, dma := s.dma } = s
  dies : t.dma.dies = s.dma.dies

/-- Any part of the state but the cores and DMA is as it was. -/
theorem HeldOnly.part {α : Type} (h : HeldOnly s t) (f : State → α) (hf : ∀ u : State, f { u with cores := s.cores, dma := s.dma } = f u) :
    f t = f s := (hf t).symm.trans (congrArg f h.rest)

theorem HeldOnly.flt (h : HeldOnly s t) : t.flt = s.flt := h.part State.flt fun _ => rfl
theorem HeldOnly.tb (h : HeldOnly s t) : t.tb = s.tb := h.part State.tb fun _ => rfl
theorem HeldOnly.gnt (h : HeldOnly s t) : t.gnt = s.gnt := h.part State.gnt fun _ => rfl
theorem HeldOnly.evt (h : HeldOnly s t) : t.evt = s.evt := h.part State.evt fun _ => rfl
theorem HeldOnly.pwr (h : HeldOnly s t) : t.pwr = s.pwr := h.part State.pwr fun _ => rfl

theorem HeldOnly.refl (s : State) : HeldOnly s s := ⟨rfl, rfl⟩

theorem HeldOnly.trans {u : State} (h : HeldOnly s t) (g : HeldOnly t u) : HeldOnly s u := by
  obtain ⟨hr, hd⟩ := h
  obtain ⟨gr, gd⟩ := g
  exact ⟨(congrArg (fun x : State => { x with cores := s.cores, dma := s.dma }) gr).trans hr, gd.trans hd⟩

theorem HeldOnly.foldl {α : Type} {f : State → α → State} (h : ∀ t a, HeldOnly t (f t a)) (l : List α) (s : State) :
    HeldOnly s (l.foldl f s) := by
  induction l generalizing s with
  | nil => exact HeldOnly.refl s
  | cons a l ih => exact (h s a).trans (ih _)

theorem State.modCore_heldOnly (c : CoreId) (f : CoreSt → CoreSt) : HeldOnly s (s.modCore c f) := ⟨rfl, rfl⟩

theorem State.slotDone_heldOnly (c : CoreId) (i : Fin 4) (status : Nat) (ran : Bool) :
    HeldOnly s (s.slotDone c i status ran false) := ⟨rfl, rfl⟩

theorem State.endHeldCore_heldOnly (c : CoreId) : HeldOnly s (s.endHeldCore c) := by
  unfold State.endHeldCore
  exact (HeldOnly.foldl (fun _ i => State.slotDone_heldOnly c i _ _) _ s).trans (State.modCore_heldOnly c _)

theorem State.holdCore_heldOnly (c : CoreId) : HeldOnly s (s.holdCore c) :=
  (State.endHeldCore_heldOnly c).trans ⟨rfl, rfl⟩

/-- What holding a core in reset leaves alone of another core. -/
theorem State.slotDone_other {c d : CoreId} (h : d ≠ c) (i : Fin 4) (status : Nat) (ran : Bool) :
    (s.slotDone c i status ran false).cores[d] = s.cores[d] := by
  simp only [State.slotDone, Bool.false_eq_true, if_false, State.modSpd]
  exact State.modCore_other _ h _

theorem State.endHeldCore_other {c d : CoreId} (h : d ≠ c) : (s.endHeldCore c).cores[d] = s.cores[d] := by
  have hfold (l : List (Fin 4)) (ran : Fin 4 → Bool) : ∀ t : State,
      (l.foldl (fun t i => t.slotDone c i 0x93 (ran i) false) t).cores[d] = t.cores[d] := by
    induction l with
    | nil => exact fun _ => rfl
    | cons i l ih => exact fun t => (ih _).trans (State.slotDone_other h i _ _)
  unfold State.endHeldCore
  exact (State.modCore_other _ h _).trans (hfold _ (fun i => _ && decide (_ = i)) s)

theorem State.holdCore_other {c d : CoreId} (h : d ≠ c) : (s.holdCore c).cores[d] = s.cores[d] :=
  (State.modCore_other _ h _).trans (State.endHeldCore_other h)

theorem State.holdCore_same (c : CoreId) : (s.holdCore c).cores[c] = (s.endHeldCore c).cores[c].heldReset := State.modCore_same _ c _

theorem State.holdCore_stopped (c : CoreId) : (s.holdCore c).stopped c := by
  rw [State.stopped, State.holdCore_same]
  exact ⟨rfl, rfl⟩

theorem State.stopped_congr {c : CoreId} (h : t.cores[c] = s.cores[c]) : t.stopped c ↔ s.stopped c := by
  rw [State.stopped, State.stopped, h]

theorem State.stopped_steady (h : t.steady = s.steady) (c : CoreId) : t.stopped c ↔ s.stopped c := by
  rw [State.stopped, State.stopped, State.steady_imem h, State.steady_seq h]

theorem State.holdCore_stopped_keeps {d : CoreId} (h : s.stopped d) (c : CoreId) : (s.holdCore c).stopped d := by
  by_cases hd : d = c
  · rw [hd]
    exact State.holdCore_stopped c
  · exact (State.stopped_congr (State.holdCore_other hd)).mpr h

theorem State.holdCores_stopped_keeps {d : CoreId} (l : List CoreId) (h : s.stopped d) : (l.foldl State.holdCore s).stopped d := by
  induction l generalizing s with
  | nil => exact h
  | cons c l ih => exact ih (State.holdCore_stopped_keeps h c)

theorem State.holdCores_stopped {d : CoreId} {l : List CoreId} (h : d ∈ l) : (l.foldl State.holdCore s).stopped d := by
  induction l generalizing s with
  | nil => cases h
  | cons c l ih =>
    obtain rfl | h := List.mem_cons.mp h
    · exact State.holdCores_stopped_keeps l (State.holdCore_stopped d)
    · exact ih h

theorem State.holdCores_heldOnly (l : List CoreId) : HeldOnly s (l.foldl State.holdCore s) :=
  HeldOnly.foldl (fun _ c => State.holdCore_heldOnly c) l s

/-! ### A partition's restart -/

theorem State.mem_coresOf {p : Fin 4} {c : CoreId} : c ∈ s.coresOf p ↔ s.partOf c = p := by
  simp [State.coresOf]

/-- A partition's cores held in reset, and what it does outside them reset. -/
def State.clearPart (s : State) (p : Fin 4) : State := ((s.coresOf p).foldl State.holdCore s).partReset p

theorem State.startRestart_eq (p : Fin 4) : s.startRestart p = ((s.clearPart p).modFlt fun f =>
    { f with part := f.part.set p .restarting, rcnt := satAdd 0xFFFFFFFF f.rcnt 1 }).fltPost (0x6080 + p.val) := rfl

variable (s) in
theorem State.clearPart_flt (p : Fin 4) : (s.clearPart p).flt = s.flt :=
  (State.steady_flt (State.partReset_steady p)).trans
    (State.holdCores_heldOnly (s.coresOf p)).flt

variable (s) in
theorem State.clearPart_cnt (p : Fin 4) : (s.clearPart p).tb = s.tb :=
  (State.steady_tb (State.partReset_steady p)).trans
    (State.holdCores_heldOnly (s.coresOf p)).tb

variable (s) in
theorem State.clearPart_gnt (p : Fin 4) : { (s.clearPart p).gnt with mon := Vector.replicate 4 DieMon.reset } =
    { s.gnt with mon := Vector.replicate 4 DieMon.reset } :=
  (State.steady_gnt (State.partReset_steady p)).trans
    (congrArg (fun g : GntState => { g with mon := Vector.replicate 4 DieMon.reset }) (State.holdCores_heldOnly (s.coresOf p)).gnt)

variable (s) in
theorem State.clearPart_dies (p : Fin 4) : (s.clearPart p).dma.dies = s.dma.dies :=
  (congrArg DmaState.dies (State.steady_dma (State.partReset_steady p))).trans (State.holdCores_heldOnly (s.coresOf p)).dies

variable (s) in
theorem State.clearPart_fenced (p : Fin 4) : (s.clearPart p).evt.fenced = s.evt.fenced :=
  (State.steady_fenced (State.partReset_steady p)).trans
    (congrArg EvtState.fenced (State.holdCores_heldOnly (s.coresOf p)).evt)

theorem State.clearPart_stopped {p : Fin 4} {c : CoreId} (h : s.partOf c = p) : (s.clearPart p).stopped c :=
  (State.stopped_steady (State.partReset_steady p) c).mpr (State.holdCores_stopped (State.mem_coresOf.mpr h))

end

end Sys2Proof.Machine
end

/-! The proofs: the FLT block. -/

section
namespace Sys2Proof.Machine

/-! ### FLT_PRST, FLT_MRST, FLT_PMAP -/

section
variable {s : State} {p : Fin 4} {ini : Initiator} {h : Half} {v : Word}

theorem State.prstWrite_refused (hi : gntOwner ini = false) : s.prstWrite ini h v = s.fltRefuse := by
  rw [State.prstWrite, hi]; rfl

theorem State.mrstWrite_refused (hi : gntOwner ini = false) (warm cold : Bool) : s.mrstWrite ini warm cold = s.fltRefuse := by
  rw [State.mrstWrite, hi]; rfl

theorem gntOwner_iff : gntOwner ini.val = true ↔ ini.val = 0x60 ∨ ini.val = 0x70 := by
  simp [gntOwner]

/-- The partition that a single bit of FLT_PRST asks for. -/
theorem askedFor_single (p : Fin 4) : ((List.finRange 4).filter fun q => bit (carried .full ((1 <<< p.val : Nat) : Word)) q.val) = [p] := by
  revert p
  decide

theorem mapPart_val (m : Word) (c : CoreId) : (mapPart m c).val = fld m (2 * c.val) 2 :=
  Nat.mod_eq_of_lt (Nat.mod_lt _ (by decide))

theorem bit_eq_testBit_mapPart (m : Word) {i : Nat} (hi : i < 64) :
    m.getLsbD i = (mapPart m ⟨i / 2, by omega⟩).val.testBit (i % 2) := by
  have hlt : i % 2 < 2 := Nat.mod_lt _ (by decide)
  rw [mapPart_val, testBit_fld, bit, Nat.div_add_mod, decide_eq_true hlt, Bool.true_and]

/-- Maps that place every core alike are equal. -/
theorem map_ext {a b : Word} (h : ∀ c : CoreId, mapPart a c = mapPart b c) : a = b := by
  refine BitVec.eq_of_getLsbD_eq fun i hi => ?_
  rw [bit_eq_testBit_mapPart a hi, bit_eq_testBit_mapPart b hi, h]

theorem FltState.mapMoves_nil (f : FltState) (h : f.mapMoves [] = true) : f.peff = f.pmap := by
  refine map_ext fun c => ?_
  have hall := List.all_eq_true.mp h c (List.mem_finRange c)
  simpa using hall

theorem State.startRestarts_nil : s.startRestarts [] = s := by
  by_cases h : s.flt.mapMoves [] = true
  · refine (if_pos h).trans ?_
    exact congrArg (fun m => s.modFlt fun f => { f with peff := m }) (FltState.mapMoves_nil _ h).symm
  · exact if_neg h

theorem State.prstWrite_owner (hi : gntOwner ini = true) : s.prstWrite ini h v =
    (if (((List.finRange 4).filter fun q => bit (carried h v) q.val).filter fun q => isSafety q && s.armed).isEmpty then s
      else s.fltRefuse).startRestarts
        (((List.finRange 4).filter fun q => bit (carried h v) q.val).filter fun q =>
          !(isSafety q && s.armed) && decide (s.flt.part[q] = .running)) := by
  rw [State.prstWrite, hi]
  rfl

/-- A restart of one partition that Gauntlet's mode forbids. -/
theorem State.prstWrite_one_forbidden (hi : gntOwner ini = true) (hp : isSafety p = true) (ha : s.armed = true) :
    s.prstWrite ini .full ((1 <<< p.val : Nat) : Word) = s.fltRefuse := by
  rw [State.prstWrite_owner hi, askedFor_single]
  simp [hp, ha, State.startRestarts_nil]

/-- A restart of one partition that may not, or need not, restart. -/
theorem State.prstWrite_one_held (hi : gntOwner ini = true) (ha : s.armed = false) (hp : s.flt.part[p] ≠ .running) :
    s.prstWrite ini .full ((1 <<< p.val : Nat) : Word) = s := by
  rw [State.prstWrite_owner hi, askedFor_single]
  simp [ha, hp, State.startRestarts_nil, -Fin.getElem_fin]

theorem State.prstWrite_one_running (hi : gntOwner ini = true) (ha : ¬ (isSafety p = true ∧ s.armed = true)) (hp : s.flt.part[p] = .running) :
    s.prstWrite ini .full ((1 <<< p.val : Nat) : Word) = s.startRestarts [p] := by
  have hb : (isSafety p && s.armed) = false := by simpa using ha
  rw [State.prstWrite_owner hi, askedFor_single]
  simp [hb, hp, -Fin.getElem_fin, -Bool.not_and]

/-- The module as the restarts of `set` find it: the old cores held, the staged map in force when it can be. -/
def State.restartFrom (s : State) (set : List (Fin 4)) : State :=
  let s := set.foldl (fun t p => (t.coresOf p).foldl State.holdCore t) s
  if s.flt.mapMoves set then s.modFlt fun f => { f with peff := f.pmap } else s

theorem State.startRestarts_one : s.startRestarts [p] = (s.restartFrom [p]).startRestart p := by
  simp only [State.startRestarts, State.restartFrom, List.foldl_cons, List.foldl_nil]

theorem State.restartFrom_flt (l : List (Fin 4)) : ∃ m, (s.restartFrom l).flt = { s.flt with peff := m } ∧ (s.restartFrom l).tb = s.tb := by
  have hheld : HeldOnly s (l.foldl (fun t p => (t.coresOf p).foldl State.holdCore t) s) :=
    HeldOnly.foldl (fun t p => State.holdCores_heldOnly (t.coresOf p)) l s
  unfold State.restartFrom
  simp only
  split
  · exact ⟨_, by rw [State.modFlt_flt, hheld.flt], hheld.tb⟩
  · exact ⟨s.flt.peff, hheld.flt, hheld.tb⟩

/-- A restart of one running partition: its state, the count, its cores and its event. -/
theorem State.startRestart_spec (p : Fin 4) : let t := s.startRestart p
    t.flt.part[p] = .restarting ∧ t.flt.rcnt = min 0xFFFFFFFF (s.flt.rcnt + 1) ∧
    (∀ c, t.partOf c = p → t.cores[c].imem = [] ∧ t.cores[c].seq.phase = .idle) ∧
    ∃ m, t.evt.incoming = m ++ [⟨BitVec.ofNat 16 (0x6080 + p.val), 0xC5, s.tb.cnt, none, false, false⟩] := by
  have hflt := s.clearPart_flt p
  refine ⟨?_, ?_, fun c hc => ?_, (s.clearPart p).evt.incoming, ?_⟩
  · simp [State.startRestart_eq, State.fltPost]
  · simp only [State.startRestart_eq, State.fltPost, State.postPart_flt, State.modFlt_flt, hflt]
    rfl
  · have hpart : s.partOf c = p := by
      rw [← hc, State.startRestart_eq]
      simp only [State.partOf, State.fltPost, State.postPart_flt, State.modFlt_flt, hflt]
    exact State.clearPart_stopped hpart
  · rw [← s.clearPart_cnt p]
    rfl

/-- Every core that a staged map would move off P0 or P1 refuses it. -/
theorem FltState.mapRefused_of_safety {f : FltState} {c : CoreId} (hs : isSafety (mapPart f.peff c) = true)
    (hm : mapPart v c ≠ mapPart f.peff c) : f.mapRefused v = true := by
  refine List.any_eq_true.mpr ⟨c, List.mem_finRange c, ?_⟩
  simp [hs, hm]

theorem State.pmapWrite_refused (hi : ini.val ≠ 0x70) : s.pmapWrite ini h v = s.fltRefuse := if_pos (Or.inl hi)

theorem State.pmapWrite_taken (hi : ini.val = 0x70) (hv : s.armed = false ∨ s.flt.mapRefused v = false) :
    s.pmapWrite ini .full v = s.modFlt fun f => { f with pmap := v } := by
  refine if_neg ?_
  rintro (hne | ⟨ha, hr⟩)
  · exact hne hi
  · obtain h | h := hv
    · exact absurd ha (by simp [h])
    · exact absurd hr (by simp [mergeHalf, h])

end

/-! ### What repair leaves alone -/

/-- The parts of the FLT block that a change of the repair map keeps. -/
structure FltRepaired (f g : FltState) : Prop where
  eq : { g with bind := f.bind, unbound := f.unbound, failed := f.failed, repairQ := f.repairQ, rowMap := f.rowMap } = f

section
variable {f g k : FltState}

theorem FltRepaired.refl (f : FltState) : FltRepaired f f := ⟨rfl⟩

theorem FltRepaired.trans (h : FltRepaired f g) (e : FltRepaired g k) : FltRepaired f k :=
  ⟨(congrArg (fun x : FltState => { x with
    bind := f.bind, unbound := f.unbound, failed := f.failed, repairQ := f.repairQ, rowMap := f.rowMap }) e.eq).trans h.eq⟩

theorem FltRepaired.foldl {α : Type} {k : FltState → α → FltState} (h : ∀ f a, FltRepaired f (k f a)) (l : List α) (f : FltState) :
    FltRepaired f (l.foldl k f) := by
  induction l generalizing f with
  | nil => exact FltRepaired.refl f
  | cons a l ih => exact (h f a).trans (ih _)

theorem FltRepaired.field {α : Type} (h : FltRepaired f g) (e : FltState → α) (he : ∀ x : FltState, e { x with
    bind := f.bind, unbound := f.unbound, failed := f.failed, repairQ := f.repairQ, rowMap := f.rowMap } = e x) : e g = e f :=
  (he g).symm.trans (congrArg e h.eq)

end

/-- A change of the repair map, CRN_COREAV and the events posted, and of nothing else. -/
structure Repaired (s t : State) : Prop where
  rest : { t with flt := s.flt, crn := s.crn, evt := s.evt } = s
  flt  : FltRepaired s.flt t.flt

section
variable {s t u : State} {p : Fin 4}

theorem Repaired.refl (s : State) : Repaired s s := ⟨rfl, FltRepaired.refl _⟩

theorem Repaired.trans (h : Repaired s t) (g : Repaired t u) : Repaired s u := by
  obtain ⟨hr, hf⟩ := h
  obtain ⟨gr, gf⟩ := g
  exact ⟨(congrArg (fun x : State => { x with flt := s.flt, crn := s.crn, evt := s.evt }) gr).trans hr, hf.trans gf⟩

theorem Repaired.foldl {α : Type} {f : State → α → State} (h : ∀ t a, Repaired t (f t a)) (l : List α) (s : State) :
    Repaired s (l.foldl f s) := by
  induction l generalizing s with
  | nil => exact Repaired.refl s
  | cons a l ih => exact (h s a).trans (ih _)

theorem Repaired.state {α : Type} (h : Repaired s t) (f : State → α)
    (hf : ∀ u : State, f { u with flt := s.flt, crn := s.crn, evt := s.evt } = f u) : f t = f s := (hf t).symm.trans (congrArg f h.rest)

theorem Repaired.gnt (h : Repaired s t) : t.gnt = s.gnt := h.state State.gnt fun _ => rfl
theorem Repaired.tb (h : Repaired s t) : t.tb = s.tb := h.state State.tb fun _ => rfl
theorem Repaired.part (h : Repaired s t) : t.flt.part = s.flt.part := h.flt.field FltState.part fun _ => rfl
theorem Repaired.peff (h : Repaired s t) : t.flt.peff = s.flt.peff := h.flt.field FltState.peff fun _ => rfl
theorem Repaired.partOf (h : Repaired s t) (c : CoreId) : t.partOf c = s.partOf c := by rw [State.partOf, State.partOf, h.peff]
theorem Repaired.coresOf (h : Repaired s t) (p : Fin 4) : t.coresOf p = s.coresOf p := by
  simp only [State.coresOf, h.partOf]

theorem FltState.failCore_repaired (f : FltState) (q : Nat) : FltRepaired f (f.failCore q) := by
  unfold FltState.failCore
  split <;> exact ⟨rfl⟩

theorem FltState.applyRows_repaired (f : FltState) (qs : List Nat) : FltRepaired f (f.applyRows qs) := by
  have hfold := FltRepaired.foldl FltState.failCore_repaired (qs.filter (FltState.rowsFail { f with
    rowMap := f.rowMap.filter (fun r => !qs.contains (r / 512)) ++ f.rowGroups.filter fun r => qs.contains (r / 512) })) { f with
    rowMap := f.rowMap.filter (fun r => !qs.contains (r / 512)) ++ f.rowGroups.filter fun r => qs.contains (r / 512) }
  exact ⟨congrArg (fun x : FltState => { x with rowMap := f.rowMap }) hfold.eq⟩

theorem State.modFlt_repaired {f : FltState → FltState} (h : FltRepaired s.flt (f s.flt)) : Repaired s (s.modFlt f) := ⟨rfl, h⟩

theorem State.failCores_repaired (cs : List CoreId) (bad : BitVec 32) : Repaired s (s.failCores cs bad) :=
  Repaired.foldl (fun t q => State.modFlt_repaired (FltState.failCore_repaired t.flt q)) _ s

theorem State.queueRepair_repaired (k : Byte) (loc : Word) : Repaired s (s.queueRepair k loc) := by
  unfold State.queueRepair
  split
  · exact Repaired.refl s
  · exact State.modFlt_repaired ⟨rfl⟩

theorem State.failRows_repaired (rows : List RowFail) : Repaired s (s.failRows rows) := by
  refine Repaired.foldl (fun t r => ?_) rows s
  split
  · exact State.queueRepair_repaired 2 _
  · exact Repaired.refl t

theorem State.rebind_repaired (src : Ini) (c : CoreId) : Repaired s (s.rebind src c) := by
  unfold State.rebind
  split
  · exact State.modFlt_repaired ⟨rfl⟩
  · exact ⟨rfl, ⟨rfl⟩⟩

theorem State.rebindAll_repaired (cs : List CoreId) (src : Ini) : Repaired s (s.rebindAll cs src) :=
  Repaired.foldl (fun _ c => State.rebind_repaired src c) _ s

/-! ### The release of a partition -/

/-- What the restart tests find is applied to the repair map. -/
def State.repairPart (s : State) (p : Fin 4) (bad : BitVec 32) (rows : List RowFail) : State :=
  let cs := s.coresOf p
  ((s.failCores cs bad).failRows (rows.filter fun r => cs.contains r.1)).modFlt fun f => f.applyRows (f.physOf cs)

/-- The cores of the partition bound anew. -/
def State.rebindPart (s : State) (cs : List CoreId) : State :=
  (s.rebindAll cs 0xC5).modFlt fun f => f.applyRows (f.physOf cs)

theorem State.repairPart_repaired (bad : BitVec 32) (rows : List RowFail) : Repaired s (s.repairPart p bad rows) := by
  unfold State.repairPart
  exact (State.failCores_repaired _ bad).trans ((State.failRows_repaired _).trans (State.modFlt_repaired (FltState.applyRows_repaired _ _)))

theorem State.rebindPart_repaired (cs : List CoreId) : Repaired s (s.rebindPart cs) :=
  (State.rebindAll_repaired cs 0xC5).trans (State.modFlt_repaired (FltState.applyRows_repaired _ _))

theorem State.partRelease_not_restarting {bad : BitVec 32} {spares : BitVec 4} {ddr : Bool} {rows : List RowFail}
    (h : s.flt.part[p] ≠ .restarting) : s.partRelease p bad spares ddr rows = s := if_pos h

theorem State.partRelease_restarting {bad : BitVec 32} {spares : BitVec 4} {ddr : Bool} {rows : List RowFail}
    (h : s.flt.part[p] = .restarting) : s.partRelease p bad spares ddr rows =
    let a := s.repairPart p bad rows
    let b := a.rebindPart (s.coresOf p)
    let failed := heldAfter a.flt.bind b.flt.bind (s.coresOf p) (isSafety p) spares ddr
    if failed || b.gnt.keeps p then
      let t := (b.flt.physOf ((s.coresOf p).filter fun c => decide (a.flt.bind[c] ≠ b.flt.bind[c]) && bit spares (c.val / 8))).foldl
        (fun t q => t.modFlt fun f => f.failCore q) b
      (if isSafety p && failed then (t.modGnt fun g => { g with stuck := setBit g.stuck p.val true }).gntPost 0x6050 else t).holdPart p
    else (b.releasePart p).gntReleased p := if_neg (not_not.mpr h)

theorem State.holdPart_part : (s.holdPart p).flt.part[p] = .held := by
  simp [State.holdPart, State.fltPost]

theorem heldAfter_ddr {old new : Vector (Option Nat) 32} {cs : List CoreId} {spares : BitVec 4} : heldAfter old new cs true spares true = true := rfl

/-- A partition that the tests or Gauntlet keep back is held; a path that fails its tests is Gauntlet's. -/
theorem State.partRelease_held {bad : BitVec 32} {spares : BitVec 4} {ddr : Bool} {rows : List RowFail}
    (h : s.flt.part[p] = .restarting) (hf : (isSafety p = true ∧ ddr = true) ∨ s.gnt.keeps p = true) :
    ∃ t, s.partRelease p bad spares ddr rows = State.holdPart t p ∧ (isSafety p = true → ddr = true → t.gnt.keeps p = true) := by
  have hb : Repaired s ((s.repairPart p bad rows).rebindPart (s.coresOf p)) :=
    (State.repairPart_repaired bad rows).trans (State.rebindPart_repaired _)
  have hcond (old new : Vector (Option Nat) 32) : (heldAfter old new (s.coresOf p) (isSafety p) spares ddr ||
      ((s.repairPart p bad rows).rebindPart (s.coresOf p)).gnt.keeps p) = true := by
    obtain ⟨hp, hd⟩ | hk := hf
    · rw [hp, hd, heldAfter_ddr, Bool.true_or]
    · rw [hb.gnt, hk, Bool.or_true]
  refine ⟨_, (State.partRelease_restarting h).trans (if_pos (hcond _ _)), fun hp hd => ?_⟩
  have hlt : p.val < 2 := of_decide_eq_true hp
  simp only [hp, hd, heldAfter_ddr, Bool.and_self, if_true]
  simp only [State.gntPost, State.postPart_gnt, State.modGnt_gnt, GntState.keeps, bit_setBit _ _ _ hlt, hlt, decide_true, Bool.and_self,
    if_true]

/-! A restart that finds nothing. -/

theorem State.failCores_none (cs : List CoreId) : s.failCores cs 0 = s := by
  simp [State.failCores, FltState.physOf]

theorem FltState.rowsFail_none {f : FltState} (h : f.rowGroups = []) (q : Nat) : f.rowsFail q = false := by
  simp [FltState.rowsFail, h]

theorem FltState.applyRows_none {f : FltState} (h : f.rowGroups = []) (qs : List Nat) : ∃ m, f.applyRows qs = { f with rowMap := m } := by
  have hrows (m : List Nat) : ({ f with rowMap := m } : FltState).rowsFail = fun _ => false :=
    funext fun q => FltState.rowsFail_none (f := { f with rowMap := m }) h q
  simp only [FltState.applyRows, hrows, List.filter_false, List.foldl_nil]
  exact ⟨_, rfl⟩

theorem State.rebindAll_none {cs : List CoreId} {src : Ini} (h : ∀ c ∈ cs, s.flt.lost' c = false) : s.rebindAll cs src = s := by
  have hnone : cs.filter s.flt.lost' = [] := List.filter_eq_nil_iff.mpr fun c hc => by simp [h c hc]
  simp [State.rebindAll, State.rebindOrder, hnone]

theorem State.bind_unchanged {cs : List CoreId} {a : State} (h : ∀ c ∈ cs, a.flt.lost' c = false) (hr : a.flt.rowGroups = []) :
    (a.rebindPart cs).flt.bind = a.flt.bind := by
  obtain ⟨m, hm⟩ := FltState.applyRows_none hr (a.flt.physOf cs)
  simp only [State.rebindPart, State.rebindAll_none h, State.modFlt_flt, hm]

/-- A partition that passes its tests runs again. -/
theorem State.partRelease_released {bad : BitVec 32} {rows : List RowFail} (h : s.flt.part[p] = .restarting) (hk : s.gnt.keeps p = false)
    (hp : isSafety p = false ∨ (bad = 0 ∧ rows = [] ∧ s.flt.rowGroups = [] ∧ ∀ c, s.partOf c = p → s.flt.lost' c = false)) :
    ∃ b, Repaired s b ∧ s.partRelease p bad 0 false rows = (b.releasePart p).gntReleased p := by
  have hb : Repaired s ((s.repairPart p bad rows).rebindPart (s.coresOf p)) :=
    (State.repairPart_repaired bad rows).trans (State.rebindPart_repaired _)
  refine ⟨_, hb, ?_⟩
  rw [State.partRelease_restarting h]
  simp only [hb.gnt, hk, Bool.or_false]
  refine if_neg ?_
  obtain hp | ⟨rfl, rfl, hr, hl⟩ := hp
  · simp [heldAfter, hp]
  · obtain ⟨m, hm⟩ := FltState.applyRows_none hr (s.flt.physOf (s.coresOf p))
    have ha : s.repairPart p 0 [] = s.modFlt fun f => { f with rowMap := m } := by
      simp only [State.repairPart, State.failCores_none, List.filter_nil, State.failRows, List.foldl_nil, State.modFlt, hm]
    have hbind := State.bind_unchanged (a := s.repairPart p 0 []) (cs := s.coresOf p)
      (fun c hc => by rw [ha]; exact hl c (State.mem_coresOf.mp hc)) (by rw [ha]; exact hr)
    simp only [heldAfter, hbind]
    simp

theorem State.releaseCores_spec (l : List CoreId) : (l.foldl State.releaseCore s).tb = s.tb ∧
    (∀ c ∈ l, bit (l.foldl State.releaseCore s).flt.fenced c.val = false) ∧
    (∀ c : CoreId, bit s.flt.fenced c.val = false → bit (l.foldl State.releaseCore s).flt.fenced c.val = false) := by
  induction l generalizing s with
  | nil => exact ⟨rfl, fun _ hc => absurd hc (List.not_mem_nil), fun _ hc => hc⟩
  | cons d l ih =>
    obtain ⟨htb, hin, hkeep⟩ := ih (s := s.releaseCore d)
    have hone (c : CoreId) (hc : c = d ∨ bit s.flt.fenced c.val = false) : bit (s.releaseCore d).flt.fenced c.val = false := by
      simp only [State.releaseCore, State.modFlt_flt, State.modSpd, State.modCore_flt, bit_setBit _ _ _ c.isLt, ← Fin.ext_iff]
      split
      · rfl
      · next hne => exact hc.resolve_left hne
    refine ⟨htb, fun c hc => ?_, fun c hc => hkeep c (hone c (Or.inr hc))⟩
    obtain rfl | hc := List.mem_cons.mp hc
    · exact hkeep c (hone c (Or.inl rfl))
    · exact hin c hc

theorem State.gntReleased_frame : (s.gntReleased p).flt = s.flt ∧ (s.gntReleased p).evt = s.evt := by
  unfold State.gntReleased
  split <;> exact ⟨rfl, rfl⟩

/-- A released partition runs, its cores are not fenced, and its event is posted. -/
theorem State.releasePart_spec (s : State) (p : Fin 4) : let t := (s.releasePart p).gntReleased p
    t.flt.part[p] = .running ∧ (∀ c, s.partOf c = p → bit t.flt.fenced c.val = false) ∧
    ∃ m, t.evt.incoming = m ++ [⟨BitVec.ofNat 16 (0x6084 + p.val), 0xC5, s.tb.cnt, none, false, false⟩] := by
  obtain ⟨hflt, hevt⟩ := State.gntReleased_frame (s := s.releasePart p) (p := p)
  obtain ⟨htb, hin, -⟩ := State.releaseCores_spec (s := s) (s.coresOf p)
  simp only [hflt, hevt]
  refine ⟨?_, fun c hc => ?_, ((s.coresOf p).foldl State.releaseCore s).evt.incoming, ?_⟩
  · simp [State.releasePart, State.fltPost]
  · exact hin c (State.mem_coresOf.mpr hc)
  · rw [← htb]
    rfl

end

/-! ### Crown's log and its repair records -/

/-- At most `n` repair records are queued; the log, the table and Crown's queue of events stay. -/
structure Queues (n : Nat) (s t : State) : Prop where
  log    : t.flt.log = s.flt.log
  crownQ : t.evt.crownQ = s.evt.crownQ
  table  : t.flt.table = s.flt.table
  count  : t.flt.repairQ.length ≤ s.flt.repairQ.length + n

section
variable {s t u : State} {n m : Nat} {q : Posted} {detail : Word}

theorem Queues.refl (s : State) : Queues n s s := ⟨rfl, rfl, rfl, Nat.le_add_right _ _⟩

theorem Queues.trans (h : Queues n s t) (g : Queues m t u) : Queues (n + m) s u :=
  ⟨g.log.trans h.log, g.crownQ.trans h.crownQ, g.table.trans h.table, by have := h.count; have := g.count; omega⟩

theorem Queues.le (h : Queues n s t) (hn : n ≤ m) : Queues m s t := ⟨h.log, h.crownQ, h.table, by have := h.count; omega⟩

theorem Queues.foldl {α : Type} {f : State → α → State} (h : ∀ t a, Queues 1 t (f t a)) (l : List α) (s : State) :
    Queues l.length s (l.foldl f s) := by
  induction l generalizing s with
  | nil => exact Queues.refl s
  | cons a l ih => exact ((h s a).trans (ih _)).le (by rw [List.length_cons]; omega)

theorem State.queueRepair_queues (k : Byte) (loc : Word) : Queues 1 s (s.queueRepair k loc) := by
  unfold State.queueRepair
  split
  · exact Queues.refl s
  · exact ⟨rfl, rfl, rfl, by simp⟩

theorem State.failCore_queues (q : Nat) : Queues 1 s (s.modFlt fun f => f.failCore q) := by
  simp only [State.modFlt, FltState.failCore]
  split
  · exact Queues.refl s
  · exact ⟨rfl, rfl, rfl, by simp⟩

theorem State.rowError_queues (k : Byte) (loc : Word) (n : Nat) : Queues 1 s (s.rowError k loc n) := by
  simp only [State.rowError]
  split
  · exact ((⟨rfl, rfl, rfl, Nat.le_refl _⟩ : Queues 0 s (s.modFlt _)).trans (State.queueRepair_queues k loc))
  · exact ⟨rfl, rfl, rfl, Nat.le_add_right _ _⟩

theorem State.rowsFailed_queues (ch : Nat) : Queues s.flt.rowUe.length s (s.rowsFailed ch) := by
  simp only [State.rowsFailed]
  have hstart : Queues 0 s (s.modFlt fun f => { f with rowUe := f.rowUe.filter fun w => !decide (fld w 0 8 = ch) }) :=
    ⟨rfl, rfl, rfl, Nat.le_refl _⟩
  exact (hstart.trans (Queues.foldl (fun _ w => State.queueRepair_queues 4 w) _ _)).le
    (by rw [Nat.zero_add]; exact List.length_filter_le _ _)

theorem length_eraseDups_le {α : Type} [BEq α] (l : List α) : l.eraseDups.length ≤ l.length := by
  induction hn : l.length using Nat.strong_induction_on generalizing l with
  | _ n ih =>
    cases l with
    | nil => simp
    | cons a l =>
      have hf : (l.filter fun b => !b == a).length ≤ l.length := List.length_filter_le _ l
      have hrest := ih _ (by rw [← hn, List.length_cons]; omega) (l.filter fun b => !b == a) rfl
      rw [List.eraseDups_cons, ← hn, List.length_cons, List.length_cons]
      omega

theorem State.rowsWorn_queues (ch : Nat) : Queues s.flt.rowErr.length s (s.rowsWorn ch) := by
  simp only [State.rowsWorn]
  refine (Queues.foldl (fun t w => ?_) _ s).le ((length_eraseDups_le _).trans ?_)
  · split
    · exact State.queueRepair_queues 4 w
    · exact Queues.refl t
  · rw [List.length_map]
    exact List.length_filter_le _ _

theorem State.repairFor_queues (q : Posted) (detail : Word) :
    Queues (s.flt.rowUe.length + s.flt.rowErr.length + 1) s (s.repairFor q detail) := by
  simp only [State.repairFor]
  split
  · split
    · exact Queues.refl s
    · split
      · exact (State.failCore_queues _).le (by omega)
      · exact Queues.refl s
  split
  · exact (State.queueRepair_queues 2 detail).le (by omega)
  split
  · exact (State.rowError_queues 2 detail 16).le (by omega)
  split
  · exact (State.queueRepair_queues 3 detail).le (by omega)
  split
  · exact (State.rowsFailed_queues _).le (by omega)
  split
  · exact (State.rowsWorn_queues _).le (by omega)
  split
  · exact (State.queueRepair_queues 5 _).le (by omega)
  · exact Queues.refl s

/-- A record written while the table has room. -/
theorem State.writeRepair_room (r : RepairRec) (h : s.flt.table.length < 512) : ∃ x, (s.writeRepair r).flt.table = s.flt.table ++ [x] ∧
    x.type = r.type ∧ x.loc = r.loc ∧
    (s.writeRepair r).evt = { s.evt with incoming := s.evt.incoming ++ [⟨0x6092, 0x70, s.tb.cnt, none, false, false⟩] } ∧
    (s.writeRepair r).flt.log = s.flt.log := by
  rw [State.writeRepair, if_neg (by omega)]
  exact ⟨_, rfl, rfl, rfl, rfl, rfl⟩

/-- Records written while the table has room for all of them. -/
theorem State.writeRepair_all (rs : List RepairRec) (h : s.flt.table.length + rs.length ≤ 512) :
    (rs.foldl State.writeRepair s).flt.log = s.flt.log ∧ (rs.foldl State.writeRepair s).evt.crownQ = s.evt.crownQ := by
  induction rs generalizing s with
  | nil => exact ⟨rfl, rfl⟩
  | cons r rs ih =>
    rw [List.length_cons] at h
    obtain ⟨x, htable, -, -, hevt, hlog⟩ := s.writeRepair_room r (by omega)
    obtain ⟨hl, hq⟩ := ih (s := s.writeRepair r) (by rw [htable, List.length_append, List.length_singleton]; omega)
    exact ⟨hl.trans hlog, hq.trans (by rw [hevt])⟩

theorem State.writeRepairs_room (h : s.flt.table.length + s.flt.repairQ.length ≤ 512) :
    s.writeRepairs.flt.log = s.flt.log ∧ s.writeRepairs.evt.crownQ = s.evt.crownQ := by
  unfold State.writeRepairs
  split
  · exact ⟨rfl, rfl⟩
  · exact State.writeRepair_all (s := s.modFlt fun f => { f with repairQ := [] }) s.flt.repairQ h

/-- Crown takes an event that it logs. -/
theorem State.faultLog_logs {rest : List Posted} (hm : s.crn.mode = .running) (hl : s.evt.crownLost = 0) (hq : s.evt.crownQ = q :: rest)
    (hc : loggedCode q.code.toNat = true) :
    s.faultLog detail = (State.repairFor (({ s with evt := { s.evt with crownQ := rest } } : State).modFlt fun f =>
      f.addLog (s.logEntry q detail)) q detail).writeRepairs := by
  simp only [State.faultLog, hm, hl, hq, hc, ne_eq, not_true_eq_false, if_false, if_true]
  rfl

theorem State.faultLog_spec {rest : List Posted} (hm : s.crn.mode = .running) (hl : s.evt.crownLost = 0) (hq : s.evt.crownQ = q :: rest)
    (hc : loggedCode q.code.toNat = true)
    (hr : s.flt.table.length + s.flt.repairQ.length + s.flt.rowUe.length + s.flt.rowErr.length < 511) :
    (s.faultLog detail).evt.crownQ = rest ∧ (s.faultLog detail).flt.log = (s.logEntry q detail :: s.flt.log).take 4096 := by
  rw [State.faultLog_logs hm hl hq hc]
  have hrep := State.repairFor_queues (s := ({ s with evt := { s.evt with crownQ := rest } } : State).modFlt fun f =>
      f.addLog (s.logEntry q detail)) q detail
  obtain ⟨hlog, hcq⟩ := State.writeRepairs_room (by
    have hcount := hrep.count
    rw [hrep.table]
    simp only [State.modFlt_flt, FltState.addLog] at hcount ⊢
    omega)
  exact ⟨hcq.trans hrep.crownQ, hlog.trans hrep.log⟩

end

/-- Settles O44: the FLT block by one lemma for each command; what a restart does outside its partition's cores leaves the FLT block
alone, and so does what repair does to the map. -/
theorem faultBlock : Obligations.FaultBlock := by
  unfold Obligations.FaultBlock
  intro s p ini
  have hnot (h : ¬ (ini.val = 0x60 ∨ ini.val = 0x70)) : gntOwner ini.val = false := Bool.eq_false_iff.mpr (mt gntOwner_iff.mp h)
  refine ⟨?refused, ?cold, ?warm, ?restart, ?forbidden, ?held, ?pmap, ?pmapRefused, ?mapRefused, ?notRestarting, ?released, ?failed,
    ?kept, ?notServed, ?logged, ?notRunning, ?written, ?entry⟩
  case refused =>
    intro h v hi
    exact ⟨congrArg _ (State.prstWrite_refused (hnot hi)), congrArg _ (State.mrstWrite_refused (hnot hi) true false),
      congrArg _ (State.mrstWrite_refused (hnot hi) false true)⟩
  case cold =>
    intro hi
    refine congrArg Host.Outcome.next ?_
    rw [State.mrstWrite, gntOwner_iff.mpr hi]
    rfl
  case warm =>
    intro hi
    refine congrArg Host.Outcome.next ?_
    rw [State.mrstWrite, gntOwner_iff.mpr hi]
    rfl
  case restart =>
    intro hi hp hr
    obtain ⟨m, hflt, htb⟩ := State.restartFrom_flt (s := s) [p]
    obtain ⟨hpart, hcnt, hcores, hevt⟩ := State.startRestart_spec (s := s.restartFrom [p]) p
    refine ⟨_, congrArg Host.Outcome.next ((State.prstWrite_one_running (gntOwner_iff.mpr hi) hp hr).trans State.startRestarts_one),
      hpart, ?_, hcores, ?_⟩
    · rw [hcnt, hflt]
    · rw [← htb]
      exact hevt
  case forbidden => exact fun hi hp ha => congrArg _ (State.prstWrite_one_forbidden (gntOwner_iff.mpr hi) hp ha)
  case held => exact fun hi hp ha _ => congrArg _ (State.prstWrite_one_held (gntOwner_iff.mpr hi) ha hp)
  case pmap => exact fun v hi hv => congrArg _ (State.pmapWrite_taken hi hv)
  case pmapRefused => exact fun h v hi => congrArg _ (State.pmapWrite_refused hi)
  case mapRefused => exact fun v c => FltState.mapRefused_of_safety
  case notRestarting => exact fun bad spares ddr rows h => congrArg _ (State.partRelease_not_restarting h)
  case released =>
    intro bad rows h hk hp
    obtain ⟨b, hb, heq⟩ := State.partRelease_released h hk hp
    obtain ⟨hpart, hfence, hevt⟩ := State.releasePart_spec b p
    refine ⟨_, congrArg Host.Outcome.next heq, hpart, fun c hc => hfence c ((hb.partOf c).trans hc), ?_⟩
    rw [← hb.tb]
    exact hevt
  case failed =>
    intro bad spares rows h hp
    obtain ⟨t, heq, hk⟩ := State.partRelease_held (bad := bad) (spares := spares) (rows := rows) (ddr := true) h (Or.inl ⟨hp, rfl⟩)
    exact ⟨_, congrArg Host.Outcome.next heq, State.holdPart_part, hk hp rfl⟩
  case kept =>
    intro bad spares ddr rows h hk
    obtain ⟨t, heq, -⟩ := State.partRelease_held (bad := bad) (spares := spares) (rows := rows) (ddr := ddr) h (Or.inr hk)
    exact ⟨_, congrArg Host.Outcome.next heq, State.holdPart_part⟩
  case notServed => exact fun detail h => congrArg Host.Outcome.next (if_neg (Bool.eq_false_iff.mp h))
  case logged =>
    intro detail q rest hs hm hl hq hc hr
    exact ⟨_, congrArg Host.Outcome.next (if_pos hs), State.faultLog_spec hm hl hq hc hr⟩
  case notRunning =>
    intro detail hm
    have hsame : s.faultLog detail = s := if_pos hm
    refine congrArg Host.Outcome.next ?_
    rw [hsame, ite_self]
  case written =>
    intro r h
    obtain ⟨x, htable, htype, hloc, hevt, -⟩ := s.writeRepair_room r h
    exact ⟨x, htable, htype, hloc, by rw [hevt]⟩
  case entry => exact fun q detail => ⟨rfl, rfl, rfl, rfl, rfl⟩

end Sys2Proof.Machine
end

/-! The proofs: domain times. -/

section
namespace Sys2Proof.Machine

/-! ### Time of a domain (R376, R377) -/

section
variable {x : TbDom} {c : Word}

theorem TbDom.time_congr {y : TbDom} (ho : y.ofs = x.ofs) (ha : y.anc = x.anc) (hr : y.rate = x.rate) (c : Word) : y.time c = x.time c := by
  simp only [TbDom.time, ho, ha, hr]

/-- A new rate does not move the time of its tick. -/
theorem TbDom.setRate_time (x : TbDom) (c : Word) (r : BitVec 32) : (x.setRate c r).time c = x.time c := by
  rw [TbDom.time]
  simp [TbDom.setRate]

/-- A domain that Crown gives a rate in tick `c`. -/
def TbDom.takeRate (x : TbDom) (c : Word) (r : BitVec 32) : TbDom := { x.setRate c r with touched := c }

theorem TbDom.takeRate_time (x : TbDom) (c : Word) (r : BitVec 32) : (x.takeRate c r).time c = x.time c :=
  (TbDom.time_congr (x := x.setRate c r) rfl rfl rfl c).trans (TbDom.setRate_time x c r)

/-- A STEP moves the time by its operand. -/
theorem TbDom.time_step {y : TbDom} (v : Word) (ho : y.ofs = x.ofs + v) (ha : y.anc = x.anc) (hr : y.rate = x.rate) :
    y.time c = x.time c + v := by
  simp only [TbDom.time, ho, ha, hr]
  have hnat (w : Word) : BitVec.ofInt 64 (w.toNat : Int) = w := by rw [BitVec.ofInt_natCast, BitVec.ofNat_toNat, BitVec.setWidth_eq]
  rw [BitVec.ofInt_add, BitVec.ofInt_add, BitVec.ofInt_add, BitVec.ofInt_add, hnat, hnat]
  ac_rfl

/-- The time n ticks after the anchor. -/
theorem TbDom.time_after (x : TbDom) {n : Nat} (h : n < 2 ^ 63) : x.time (x.anc + BitVec.ofNat 64 n) =
    BitVec.ofInt 64 (x.ofs.toNat + 2 * n + (2 * n * x.rate.toInt).fdiv (2 ^ 40)) := by
  have hn : (x.anc + BitVec.ofNat 64 n - x.anc).toNat = n := by
    rw [BitVec.add_comm, BitVec.add_sub_cancel, BitVec.toNat_ofNat]
    omega
  simp only [TbDom.time, hn]

end

section
variable {s : State} {d e : Fin 2} {f : TbDom → TbDom}

theorem State.modDom_same : (s.modDom d f).tb.dom[d] = f s.tb.dom[d] := by simp

theorem State.modDom_other (h : e ≠ d) : (s.modDom d f).tb.dom[e] = s.tb.dom[e] := by
  have hv : d.val ≠ e.val := fun hv => h (Fin.ext hv.symm)
  simp [Vector.getElem_set_ne, hv]

theorem State.domTime_modDom_same : (s.modDom d f).domTime d = (f s.tb.dom[d]).time s.tb.cnt :=
  congrArg (fun x : TbDom => x.time s.tb.cnt) State.modDom_same

theorem State.domTime_modDom_other (h : e ≠ d) : (s.modDom d f).domTime e = s.domTime e :=
  congrArg (fun x : TbDom => x.time s.tb.cnt) (State.modDom_other h)

/-- A change that keeps a domain's time keeps both. -/
theorem State.domTime_modDom (h : (f s.tb.dom[d]).time s.tb.cnt = s.tb.dom[d].time s.tb.cnt) (e : Fin 2) :
    (s.modDom d f).domTime e = s.domTime e := by
  by_cases he : e = d
  · subst he
    exact State.domTime_modDom_same.trans h
  · exact State.domTime_modDom_other he

theorem State.domTime_congr {t : State} (h : t.tb = s.tb) (e : Fin 2) : t.domTime e = s.domTime e := by
  rw [State.domTime, State.domTime, h]

theorem State.modDom_modDom (f g : TbDom → TbDom) : (s.modDom d f).modDom d g = s.modDom d fun x => g (f x) := by
  simp [State.modDom]

theorem State.tbRefuse_eq (s : State) : s.tbRefuse = s.postPart 0x7058 0xC4 none := State.post_of_block (by decide) s 0x7058

end

/-! ### RATE -/

section
variable {s : State} {d e : Fin 2} {r : BitVec 32} {v : Word}

theorem State.domRate_refused (h : rateOk r = false ∨ (d = 0 ∧ s.tb.dom[(0 : Fin 2)].state = .follow)) : s.domRate d r = s.tbRefuse := by
  refine if_pos ?_
  simpa using h

/-- The domains after a RATE: domain A follows with it when B is written and A follows B. -/
theorem State.domRate_taken (hr : rateOk r = true) (hf : ¬ (d = 0 ∧ s.tb.dom[(0 : Fin 2)].state = .follow)) : s.domRate d r =
    let t := s.modDom d fun x => x.takeRate s.tb.cnt r
    if d = 1 ∧ s.tb.dom[(0 : Fin 2)].state = .follow then t.modDom 0 fun x => x.setRate s.tb.cnt r else t := by
  refine (if_neg (by simpa [hr] using hf)).trans ?_
  simp only [Bool.and_eq_true, decide_eq_true_eq]
  rfl

/-- What a RATE does. -/
theorem State.domRate_spec (hr : rateOk r = true) (hf : ¬ (d = 0 ∧ s.tb.dom[(0 : Fin 2)].state = .follow)) : let t := s.domRate d r
    (∀ e : Fin 2, t.domTime e = s.domTime e) ∧ t.tb.dom[d].rate = r ∧ t.tb.dom[d].touched = s.tb.cnt ∧
    t.tb.dom[d].state = s.tb.dom[d].state ∧ (d = 1 → s.tb.dom[(0 : Fin 2)].state = .follow → t.tb.dom[(0 : Fin 2)].rate = r) ∧
    { t with tb := s.tb } = s := by
  have hone (e : Fin 2) : (s.modDom d fun x => x.takeRate s.tb.cnt r).domTime e = s.domTime e :=
    State.domTime_modDom (f := fun x => x.takeRate s.tb.cnt r) (TbDom.takeRate_time s.tb.dom[d] s.tb.cnt r) e
  rw [State.domRate_taken hr hf]
  by_cases hd : d = 1 ∧ s.tb.dom[(0 : Fin 2)].state = .follow
  · simp only [if_pos hd]
    have hne : d ≠ 0 := by rw [hd.1]; decide
    have htwo (e : Fin 2) := State.domTime_modDom (s := s.modDom d fun x => x.takeRate s.tb.cnt r) (d := 0)
      (f := fun x => x.setRate s.tb.cnt r) (TbDom.setRate_time _ s.tb.cnt r) e
    refine ⟨fun e => (htwo e).trans (hone e), ?_, ?_, ?_, fun _ _ => ?_, rfl⟩
    · rw [State.modDom_other hne, State.modDom_same]; rfl
    · rw [State.modDom_other hne, State.modDom_same]; rfl
    · rw [State.modDom_other hne, State.modDom_same]; rfl
    · rw [State.modDom_same]; rfl
  · simp only [if_neg hd]
    refine ⟨hone, ?_, ?_, ?_, fun h1 h2 => absurd ⟨h1, h2⟩ hd, rfl⟩
    · rw [State.modDom_same]; rfl
    · rw [State.modDom_same]; rfl
    · rw [State.modDom_same]; rfl

theorem PtpServo.sync_ignored {q : PtpServo} {e : Bool} {p : Fin 4} {f : List Byte} {o : Nat} {rx : Int}
    (h : (∀ m, q.best = some m → m.port ≠ p ∨ m.src ≠ ptpSrc f o) ∨ ptpLog f o < -7 ∨ 1 < ptpLog f o) : q.sync e p f o rx = q := by
  refine if_pos ?_
  obtain h | h | h := h
  · cases hb : q.best with
    | none => rfl
    | some m =>
      have hmine := h m hb
      simp only [Bool.or_eq_true, Bool.not_eq_true', Bool.and_eq_false_iff, decide_eq_false_iff_not]
      exact Or.inl (Or.inl hmine)
  · simp [h]
  · simp [h]

theorem State.syncAccept_named {y : PtpSync} {rest : List PtpSync} {named : PtpSync → Bool} (h : s.tb.servo[d].due = y :: rest)
    (hn : named y = true) :
    s.syncAccept d named r = (s.modServo d fun q => { q with due := rest, last := some y }).domRate d r := by
  simp only [State.syncAccept, h, hn, if_true]

theorem State.syncAccept_other {named : PtpSync → Bool} (h : ∀ y, s.tb.servo[d].due.head? = some y → named y = false) :
    s.syncAccept d named r = s := by
  unfold State.syncAccept
  split
  · rfl
  · next y rest hy => exact if_neg (by rw [h y (by rw [hy]; rfl)]; decide)

end

/-! ### STEP -/

section
variable {s : State} {d e : Fin 2} {v : Word}

/-- A pulse output's part in a STEP: the domains and TB_CNT stay, and events are only added. -/
structure Skips (s t : State) : Prop where
  dom : t.tb.dom = s.tb.dom
  cnt : t.tb.cnt = s.tb.cnt
  evt : ∃ m, t.evt.incoming = s.evt.incoming ++ m

theorem Skips.refl (s : State) : Skips s s := ⟨rfl, rfl, [], by simp⟩

theorem Skips.trans {t u : State} (h : Skips s t) (g : Skips t u) : Skips s u := by
  obtain ⟨m, hm⟩ := h.evt
  obtain ⟨n, hn⟩ := g.evt
  exact ⟨g.dom.trans h.dom, g.cnt.trans h.cnt, m ++ n, by rw [hn, hm, List.append_assoc]⟩

theorem State.pulseStep_skips (k : Fin 4) (t : Nat) : Skips s (s.pulseStep k t) := by
  unfold State.pulseStep
  extract_lets p j skipped
  split
  · exact ⟨rfl, rfl, _, rfl⟩
  · exact Skips.refl s

theorem Skips.foldl {α : Type} {f : State → α → State} (h : ∀ t a, Skips t (f t a)) (l : List α) (s : State) :
    Skips s (l.foldl f s) := by
  induction l generalizing s with
  | nil => exact Skips.refl s
  | cons a l ih => exact (h s a).trans (ih _)

/-- A domain that has taken a STEP. -/
def State.stepped (s : State) (d : Fin 2) (v : Word) : State :=
  let t := s.modDom d fun x => { x with was := x.before s.tb.cnt, ofs := x.ofs + v, steps := satAdd 0xFFFF x.steps 1 }
  (t.modDom d fun x => { x with
    epoch := x.time s.tb.cnt
    stepLog := (s.tb.cnt, s.domTime d, t.domTime d) :: x.stepLog.filter fun e => decide ((s.tb.cnt - e.1).toNat < 2 ^ 31) }).post
      (0x7010 + d.val) 0xC4

theorem State.domStep_skips (s : State) (d : Fin 2) (v : Word) : Skips (s.stepped d v) (s.domStep d v) := by
  simp only [State.domStep]
  split
  · refine Skips.foldl (fun t k => ?_) _ _
    split
    · exact State.pulseStep_skips k _
    · exact Skips.refl t
  · exact Skips.refl _

/-- A domain with a STEP by `v` in tick `c`. -/
def TbDom.step (x : TbDom) (c v : Word) : TbDom := { x with was := x.before c, ofs := x.ofs + v, steps := satAdd 0xFFFF x.steps 1 }

theorem TbDom.step_time (x : TbDom) (c v : Word) : (x.step c v).time c = x.time c + v := TbDom.time_step v rfl rfl rfl

theorem State.stepped_dom : ∃ l, (s.stepped d v).tb.dom[d] =
    { s.tb.dom[d].step s.tb.cnt v with epoch := (s.tb.dom[d].step s.tb.cnt v).time s.tb.cnt, stepLog := l } := by
  rw [State.stepped, State.post_of_block (by decide)]
  simp only [State.postPart_tb, State.modDom_modDom]
  exact ⟨_, State.modDom_same⟩

theorem State.stepped_other (h : e ≠ d) : (s.stepped d v).tb.dom[e] = s.tb.dom[e] := by
  rw [State.stepped, State.post_of_block (by decide)]
  simp only [State.postPart_tb, State.modDom_modDom]
  exact State.modDom_other h

/-- What a read of a domain's time gives in tick `c` (R377). -/
def TbDom.read (x : TbDom) (c : Word) : Word :=
  match x.was with
  | some (w, o, a, r) => if w = c then { x with ofs := o, anc := a, rate := r }.time w else x.time c
  | none => x.time c

theorem State.readTime_eq (s : State) (d : Fin 2) : s.readTime d = s.tb.dom[d].read s.tb.cnt := by
  cases h : s.tb.dom[d].was <;> simp only [State.readTime, TbDom.read, h, State.domTime]

/-- In the tick of a STEP a read gives what it gave before. -/
theorem TbDom.step_read (x : TbDom) (c v e : Word) (l : List (Word × Word × Word)) :
    TbDom.read { x.step c v with epoch := e, stepLog := l } c = x.read c := by
  have hkeep (o a : Word) (r : BitVec 32) : ({ x with ofs := o, anc := a, rate := r } : TbDom).time c =
      TbDom.time { x.step c v with epoch := e, stepLog := l, ofs := o, anc := a, rate := r } c := TbDom.time_congr rfl rfl rfl c
  cases hw : x.was with
  | none => simp [TbDom.read, TbDom.step, TbDom.before, hw, TbDom.time]
  | some w =>
    obtain ⟨w, o, a, r⟩ := w
    by_cases hc : w = c
    · simp [TbDom.read, TbDom.step, TbDom.before, hw, hc, TbDom.time]
    · simp [TbDom.read, TbDom.step, TbDom.before, hw, hc, TbDom.time]

/-- What a STEP does. -/
theorem State.domStep_spec (s : State) (d : Fin 2) (v : Word) : let t := s.domStep d v
    t.domTime d = s.domTime d + v ∧ t.readTime d = s.readTime d ∧ (∀ e : Fin 2, e ≠ d → t.domTime e = s.domTime e) ∧
    t.tb.dom[d].steps = min 0xFFFF (s.tb.dom[d].steps + 1) ∧ t.tb.dom[d].epoch = t.domTime d ∧
    ∃ m, t.evt.incoming = s.evt.incoming ++ ⟨BitVec.ofNat 16 (0x7010 + d.val), 0xC4, s.tb.cnt, none, false, false⟩ :: m := by
  obtain ⟨hdom, hcnt, m, hm⟩ := s.domStep_skips d v
  obtain ⟨l, hl⟩ := State.stepped_dom (s := s) (d := d) (v := v)
  have hcnt' : (s.domStep d v).tb.cnt = s.tb.cnt := hcnt
  have hsame : (s.domStep d v).tb.dom[d] = _ := (congrArg (fun x : Vector TbDom 2 => x[d]) hdom).trans hl
  have hother (e : Fin 2) (he : e ≠ d) : (s.domStep d v).tb.dom[e] = s.tb.dom[e] :=
    (congrArg (fun x : Vector TbDom 2 => x[e]) hdom).trans (State.stepped_other he)
  have htime : (s.domStep d v).domTime d = s.domTime d + v := by
    rw [State.domTime, hsame, hcnt']
    exact (TbDom.time_congr rfl rfl rfl _).trans (TbDom.step_time s.tb.dom[d] s.tb.cnt v)
  refine ⟨htime, ?_, fun e he => ?_, ?_, ?_, m, ?_⟩
  · rw [State.readTime_eq, State.readTime_eq, hsame, hcnt', TbDom.step_read]
  · rw [State.domTime, State.domTime, hother e he, hcnt']
  · rw [hsame]
    rfl
  · rw [hsame, htime]
    exact TbDom.step_time s.tb.dom[d] s.tb.cnt v
  · rw [hm, State.stepped, State.post_of_block (by decide)]
    simp [State.modDom]

end

/-! ### States (R379, R380) -/

section
variable {s : State} {d : Fin 2} {v : Word}

theorem State.domHoldover_other (h : s.tb.dom[d].state ≠ .locked) : s.domHoldover d = s := if_neg h

/-- The redundant switch when A may not follow. -/
theorem State.followB_not (h : ¬ (bit s.tb.cfg 48 = true ∧ s.tb.dom[(1 : Fin 2)].state = .locked)) : s.followB = s :=
  if_neg (by simpa only [Bool.and_eq_true, decide_eq_true_eq] using h)

/-- Domain A as it begins to follow B at rate `r`. -/
def TbDom.follow (x : TbDom) (c : Word) (r : BitVec 32) : TbDom := { x.setRate c r with state := .follow }

theorem TbDom.follow_time (x : TbDom) (c : Word) (r : BitVec 32) : (x.follow c r).time c = x.time c :=
  (TbDom.time_congr (x := x.setRate c r) rfl rfl rfl c).trans (TbDom.setRate_time x c r)

theorem State.followB_follows (h : bit s.tb.cfg 48 = true ∧ s.tb.dom[(1 : Fin 2)].state = .locked) : s.followB =
    (s.modDom 0 fun _ => s.tb.dom[(0 : Fin 2)].follow s.tb.cnt s.tb.dom[(1 : Fin 2)].rate).post 0x7030 0xC4 :=
  if_pos (by simpa only [Bool.and_eq_true, decide_eq_true_eq] using h)

/-- A domain in HOLDOVER, and its event. -/
def State.heldOver (s : State) (d : Fin 2) : State :=
  (s.modDom d fun x => { x with state := .holdover }).postPart (0x7020 + d.val) 0xC4 none

theorem State.domHoldover_eq (h : s.tb.dom[d].state = .locked) :
    s.domHoldover d = if d = 0 then (s.heldOver d).followB else s.heldOver d := by
  refine (if_pos h).trans ?_
  rw [State.post_of_block (by decide)]
  rfl

theorem State.heldOver_b : (s.heldOver 0).tb.dom[(1 : Fin 2)] = s.tb.dom[(1 : Fin 2)] :=
  State.modDom_other (f := fun x => { x with state := .holdover }) (by decide)

/-- A LOCKED domain in HOLDOVER, without the redundant switch. -/
theorem State.domHoldover_alone (h : s.tb.dom[d].state = .locked)
    (hf : ¬ (d = 0 ∧ bit s.tb.cfg 48 = true ∧ s.tb.dom[(1 : Fin 2)].state = .locked)) : s.domHoldover d = s.heldOver d := by
  rw [State.domHoldover_eq h]
  split
  · next hd =>
    subst hd
    exact State.followB_not (by rw [State.heldOver_b]; exact fun hb => hf ⟨rfl, hb⟩)
  · rfl

/-- Domain A follows B. -/
theorem State.domHoldover_follow (h : s.tb.dom[(0 : Fin 2)].state = .locked)
    (hb : bit s.tb.cfg 48 = true ∧ s.tb.dom[(1 : Fin 2)].state = .locked) : let t := s.domHoldover 0
    t.tb.dom[(0 : Fin 2)].state = .follow ∧ t.tb.dom[(0 : Fin 2)].rate = s.tb.dom[(1 : Fin 2)].rate ∧ t.domTime 0 = s.domTime 0 ∧
    { t with tb := s.tb, evt := s.evt } = s := by
  rw [State.domHoldover_eq h, if_pos rfl, State.followB_follows (by rw [State.heldOver_b]; exact hb), State.heldOver_b,
    State.post_of_block (by decide)]
  have hsame := State.modDom_same (s := s.heldOver 0) (d := 0)
    (f := fun _ => (s.heldOver 0).tb.dom[(0 : Fin 2)].follow (s.heldOver 0).tb.cnt s.tb.dom[(1 : Fin 2)].rate)
  have htime : (s.heldOver 0).domTime 0 = s.domTime 0 :=
    (State.domTime_congr (s := s.modDom 0 fun x => { x with state := .holdover }) rfl 0).trans
      (State.domTime_modDom_same.trans (TbDom.time_congr rfl rfl rfl _))
  refine ⟨?_, ?_, ?_, rfl⟩
  · simp only [State.postPart_tb, hsame]
    rfl
  · simp only [State.postPart_tb, hsame]
    rfl
  · refine (State.domTime_congr (s := (s.heldOver 0).modDom 0 fun _ =>
      (s.heldOver 0).tb.dom[(0 : Fin 2)].follow (s.heldOver 0).tb.cnt s.tb.dom[(1 : Fin 2)].rate) rfl 0).trans (Eq.trans ?_ htime)
    exact State.domTime_modDom_same.trans (TbDom.follow_time _ _ _)

/-- Crown writes WDMS and STATE, without LOST. -/
theorem State.dstatWrite_state (hb : bit v 3 = false) : s.dstatWrite d 0x70 .full v =
    (s.modDom d fun x => { x with wdms := fld v 16 16 }).domState d (fld v 0 3) := by
  unfold State.dstatWrite
  rw [if_neg (by decide)]
  exact if_neg (by rw [hb]; decide)

theorem State.domState_one : s.domState d 1 = s.modDom d fun x => { x with state := .locked, touched := s.tb.cnt } := rfl

theorem State.domState_none : ∀ {n : Nat}, 3 ≤ n → s.domState d n = s.tbRefuse
  | _ + 3, _ => rfl

/-- Crown writes STATE: LOCKED. -/
theorem State.dstatWrite_locked (h : fld v 0 4 = 1) : s.dstatWrite d 0x70 .full v =
    s.modDom d fun x => { x with wdms := fld v 16 16, state := .locked, touched := s.tb.cnt } := by
  have hstate : fld v 0 3 = 1 := by
    have hmod : fld v 0 3 = fld v 0 4 % 2 ^ 3 := by
      simp only [fld]
      omega
    rw [hmod, h]; rfl
  have hlost : bit v 3 = false := by
    have ht := testBit_fld v 0 4 3
    rw [h, decide_eq_true (by decide), Bool.true_and] at ht
    exact ht.symm
  rw [State.dstatWrite_state hlost, hstate, State.domState_one]
  exact State.modDom_modDom _ _

/-- Crown writes a STATE that stands for none. -/
theorem State.dstatWrite_none (h : 3 ≤ fld v 0 3) (hb : bit v 3 = false) : s.dstatWrite d 0x70 .full v =
    (s.modDom d fun x => { x with wdms := fld v 16 16 }).postPart 0x7058 0xC4 none := by
  rw [State.dstatWrite_state hb, State.domState_none h, State.tbRefuse_eq]

theorem State.watchdogDue_iff : s.watchdogDue d = true ↔
    s.tb.dom[d].wdms ≠ 0 ∧ s.tb.dom[d].wdms * 500000 ≤ (s.tb.cnt - s.tb.dom[d].touched).toNat := by
  simp [State.watchdogDue]

end

/-- Settles O40: the time of a domain as a function of its parameters, and one lemma for each of Crown's writes. -/
theorem domainTimes : Obligations.DomainTimes := by
  unfold Obligations.DomainTimes
  refine ⟨TbDom.setRate_time, fun x n => x.time_after, fun s d v => ?_⟩
  have hrefuse := State.tbRefuse_eq s
  refine ⟨?notCrown, ?rateRefused, ?rate, ?accept, ?other, ?ignored, ?step, ?half, ?locked, ?noState, ?lost, ?timeout, ?noWatchdog,
    ?notLocked, ?follows, ?epoch, ?noEpoch, ?snap, ?snapRefused, ?mismatch⟩
  case notCrown =>
    intro ini h hi
    simp only [← hrefuse]
    exact ⟨congrArg _ (if_pos hi), congrArg _ (if_pos (Or.inl hi)), congrArg _ (if_pos hi), congrArg _ (if_pos hi)⟩
  case rateRefused =>
    intro h
    refine congrArg Host.Outcome.next ((State.domRate_refused ?_).trans hrefuse)
    exact h.imp id not_not.mp
  case rate => exact fun hr hf => ⟨_, rfl, State.domRate_spec hr hf⟩
  case accept =>
    intro y rest hd
    exact congrArg Host.Outcome.next (State.syncAccept_named hd (by simp))
  case other =>
    intro port src seq h
    refine congrArg Host.Outcome.next (State.syncAccept_other fun y hy => ?_)
    obtain h | h | h := h y hy <;> simp [h]
  case ignored => exact fun q e p f o rx h => PtpServo.sync_ignored h
  case step =>
    intro hf
    refine ⟨_, congrArg Host.Outcome.next (if_neg ?_), s.domStep_spec d v⟩
    rintro (h | h | h)
    · exact h rfl
    · exact h rfl
    · exact hf h
  case half => exact fun h hh => congrArg Host.Outcome.next ((if_pos (Or.inr (Or.inl hh))).trans hrefuse)
  case locked => exact fun h => congrArg Host.Outcome.next (State.dstatWrite_locked h)
  case noState => exact fun h hb => congrArg Host.Outcome.next (State.dstatWrite_none h hb)
  case lost =>
    intro hl hf
    have hheld := State.domHoldover_alone hl hf
    refine ⟨congrArg Host.Outcome.next ((if_neg (by decide)).trans hheld), fun hw hd => ?_⟩
    exact congrArg Host.Outcome.next ((if_pos (State.watchdogDue_iff.mpr ⟨hw, hd⟩)).trans hheld)
  case timeout => exact congrArg Host.Outcome.next (if_neg (by decide)).symm
  case noWatchdog => exact fun h => congrArg Host.Outcome.next (if_neg fun hd => (State.watchdogDue_iff.mp hd).1 h)
  case notLocked => exact fun h => congrArg Host.Outcome.next ((if_neg (by decide)).trans (State.domHoldover_other h))
  case follows =>
    rintro hl ⟨rfl, hb⟩
    exact ⟨_, congrArg Host.Outcome.next (if_neg (by decide)), State.domHoldover_follow hl hb⟩
  case epoch => exact fun h => congrArg Host.Outcome.next (if_pos h)
  case noEpoch => exact fun h => congrArg Host.Outcome.next (if_neg (not_not.mpr h))
  case snap =>
    intro ini hi hb
    have howner : tbHostOrCrown ini.val = true := by simpa [tbHostOrCrown] using hi
    refine congrArg Host.Outcome.next ?_
    rw [State.tbSnap, howner]
    exact if_pos hb
  case snapRefused =>
    intro ini h h0 h1
    have howner : tbHostOrCrown ini.val = false := by simpa [tbHostOrCrown] using ⟨h0, h1⟩
    refine congrArg Host.Outcome.next (Eq.trans ?_ hrefuse)
    rw [State.tbSnap, howner]
    rfl
  case mismatch => exact congrArg Host.Outcome.next (State.post_of_block (by decide) s 0x7080)

end Sys2Proof.Machine
end

/-! The proofs: timed frames, pulse outputs and slice time. -/

section
namespace Sys2Proof.Machine

/-! ### Timed transmit (R385, R386) -/

section
variable {s : State} {p : Fin 4} {ini : Initiator} {w : BitVec 128}

/-- What makes a descriptor bad, by its fields. -/
theorem txDescBad_of_fields (h : fld w 80 16 < 60 ∨ 9212 < fld w 80 16 ∨ fld w 64 4 ≠ 0) : txDescBad w = true := by
  have hofs : fld w 64 4 = fld w 64 15 % 16 := by
    simp only [fld]
    omega
  rw [hofs] at h
  simp only [txDescBad, txDescOf, Bool.or_eq_true]
  obtain h | h | h := h
  · exact Or.inl (Or.inl (Or.inl (Or.inl (Or.inr (decide_eq_true h)))))
  · exact Or.inl (Or.inl (Or.inl (Or.inr (decide_eq_true h))))
  · exact Or.inl (Or.inl (Or.inl (Or.inl (Or.inl (Or.inr (decide_eq_true h))))))

theorem State.modTx_modTx (f g : TxPort → TxPort) : (s.modTx p f).modTx p g = s.modTx p fun x => g (f x) := by
  simp [State.modTx]

theorem State.modTx_same (f : TxPort → TxPort) : (s.modTx p f).tb.tx[p] = f s.tb.tx[p] := by
  simp [State.modTx]

/-- A whole descriptor written. -/
theorem State.txqWrite_whole {data : List Byte} (hi : tbHostOrCrown ini = true) (hl : data.length = 16) : s.txqWrite p ini 0 data =
    let w := stage16 s.tb.tx[p].stage 0 data
    let t := s.modTx p fun x => { x with stage := w }
    if txDescBad w = true ∨ 32 ≤ s.tb.tx[p].queue.length then t.tbRefuse
    else t.modTx p fun x => { x with queue := x.queue ++ [txDescOf w] } := by
  have hq : (s.modTx p fun x => { x with stage := stage16 s.tb.tx[p].stage 0 data }).tb.tx[p].queue = s.tb.tx[p].queue := by
    rw [State.modTx_same]
  have hc : covers 0 data.length 12 15 = true := by simp [covers, hl]
  simp only [State.txqWrite, hi, hc, hq, Bool.not_true, Bool.false_eq_true, if_false, Bool.or_eq_true, decide_eq_true_eq]

theorem State.latePost_frame : (s.latePost p).out = s.out ∧ (s.latePost p).tb.tx[p].queue = s.tb.tx[p].queue ∧
    (s.latePost p).tb.tx[p].latec = s.tb.tx[p].latec ∧ (s.latePost p).tb.tx[p].dropc = s.tb.tx[p].dropc := by
  have hpost : ∀ c f, ((s.modTx p f).post c 0xC4).tb.tx[p] = f s.tb.tx[p] := fun _ f => State.modTx_same f
  unfold State.latePost
  extract_lets x due
  cases due
  · exact ⟨rfl, rfl, rfl, rfl⟩
  · refine ⟨rfl, ?_⟩
    simp only [if_true, hpost, and_self]

section
variable {d : TxDesc} {rest : List TxDesc} {t : Word} (hq : s.tb.tx[p].queue = d :: rest) (hu : s.ing.port[p].up = true)
  (hm : s.pwr.mode = .run) (ht : t = s.domTime (if d.dom then 1 else 0) + BitVec.ofNat 64 (txLat s.tb.tx[p].lat))
include hq hu hm ht

/-- The course of the frame at the head of a port's queue, on a port that is up in a module that runs. -/
theorem State.txLaunch_head : s.txLaunch p =
    let late : Bool := !d.now && decide (d.launch.toNat + 16 < t.toNat)
    if s.sending p && !(late && !d.late) then s
    else if d.now then s.txSend p d t
    else if t.toNat + 16 < d.launch.toNat then s
    else if !late then s.txSend p d t
    else if d.late then ((s.txSend p d t).modTx p fun x => { x with latec := satAdd 0xFFFF x.latec 1 }).latePost p
    else (s.modTx p fun x => { x with queue := x.queue.drop 1, seq := d.seq, dropc := satAdd 0xFFFF x.dropc 1 }).latePost p := by
  simp only [State.txLaunch, hq, hu, hm, Bool.not_true, ne_eq, not_true_eq_false, decide_false, Bool.or_self, Bool.false_eq_true,
    if_false, ht]

theorem State.txLaunch_line_taken (hs : s.sending p = true) (h : d.now = true ∨ t.toNat ≤ d.launch.toNat + 16 ∨ d.late = true) :
    s.txLaunch p = s := by
  refine (State.txLaunch_head hq hu hm ht).trans (if_pos ?_)
  obtain h | h | h := h
  · simp [hs, h]
  · simp [hs, Nat.not_lt.mpr h]
  · simp [hs, h]

theorem State.txLaunch_sends (hs : s.sending p = false) (h : d.now = true ∨ (d.launch.toNat ≤ t.toNat + 16 ∧ t.toNat ≤ d.launch.toNat + 16)) :
    s.txLaunch p = s.txSend p d t := by
  rw [State.txLaunch_head hq hu hm ht]
  obtain h | ⟨h1, h2⟩ := h
  · simp [hs, h]
  · simp [hs, Nat.not_lt.mpr h1, Nat.not_lt.mpr h2]

theorem State.txLaunch_early (hn : d.now = false) (h : t.toNat + 16 < d.launch.toNat) : s.txLaunch p = s := by
  rw [State.txLaunch_head hq hu hm ht]
  simp [hn, h]

theorem State.txLaunch_late_sent (hs : s.sending p = false) (hn : d.now = false) (h : d.launch.toNat + 16 < t.toNat) (hl : d.late = true) :
    s.txLaunch p = ((s.txSend p d t).modTx p fun x => { x with latec := satAdd 0xFFFF x.latec 1 }).latePost p := by
  have h2 : ¬ t.toNat + 16 < d.launch.toNat := by omega
  rw [State.txLaunch_head hq hu hm ht]
  simp [hs, hn, h, h2, hl]

theorem State.txLaunch_late_dropped (hn : d.now = false) (h : d.launch.toNat + 16 < t.toNat) (hl : d.late = false) :
    s.txLaunch p = (s.modTx p fun x => { x with queue := x.queue.drop 1, seq := d.seq, dropc := satAdd 0xFFFF x.dropc 1 }).latePost p := by
  have h2 : ¬ t.toNat + 16 < d.launch.toNat := by omega
  rw [State.txLaunch_head hq hu hm ht]
  simp [hn, h, h2, hl]

end

/-- A frame as it leaves. -/
theorem State.txSend_eq {d : TxDesc} {rest : List TxDesc} {t : Word} (hq : s.tb.tx[p].queue = d :: rest) : s.txSend p d t =
    (s.modTx p fun x => { x with
      queue := rest, seq := d.seq, stamp := if d.stamp then t else x.stamp
      busy := some (s.tb.cnt + BitVec.ofNat 64 ((wireNs s.ing.port[p].phy d.len + 1) / 2)) }).emit
      (.frame p (s.tb.tx[p].buf.read d.bofs d.len)) := by
  have hmod : (s.lineBusy p d.len).modTx p (fun x => { x with queue := x.queue.drop 1, seq := d.seq, stamp := if d.stamp then t else x.stamp }) =
      s.modTx p fun x => { x with
        queue := rest, seq := d.seq, stamp := if d.stamp then t else x.stamp
        busy := some (s.tb.cnt + BitVec.ofNat 64 ((wireNs s.ing.port[p].phy d.len + 1) / 2)) } := by
    rw [State.lineBusy, State.modTx_modTx, State.modTx, State.modTx, hq]
    rfl
  rw [State.txSend, hmod]

/-- A frame that is sent late. -/
theorem State.txLate_spec {d : TxDesc} {rest : List TxDesc} {t : Word} (hq : s.tb.tx[p].queue = d :: rest) :
    let u := ((s.txSend p d t).modTx p fun x => { x with latec := satAdd 0xFFFF x.latec 1 }).latePost p
    u.out = (s.txSend p d t).out ∧ u.tb.tx[p].queue = rest ∧ u.tb.tx[p].latec = min 0xFFFF (s.tb.tx[p].latec + 1) ∧
      u.tb.tx[p].dropc = s.tb.tx[p].dropc := by
  obtain ⟨ho, hqueue, hlate, hdrop⟩ := State.latePost_frame (s := (s.txSend p d t).modTx p fun x => { x with latec := satAdd 0xFFFF x.latec 1 })
    (p := p)
  simp only [ho, hqueue, hlate, hdrop, State.modTx_same]
  rw [State.txSend_eq hq]
  simp only [State.emit_tb, State.modTx_same]
  exact ⟨rfl, trivial, rfl, trivial⟩

theorem State.txDropped_spec {d : TxDesc} {rest : List TxDesc} (hq : s.tb.tx[p].queue = d :: rest) :
    let u := (s.modTx p fun x => { x with queue := x.queue.drop 1, seq := d.seq, dropc := satAdd 0xFFFF x.dropc 1 }).latePost p
    u.out = s.out ∧ u.tb.tx[p].queue = rest ∧ u.tb.tx[p].latec = s.tb.tx[p].latec ∧
      u.tb.tx[p].dropc = min 0xFFFF (s.tb.tx[p].dropc + 1) := by
  obtain ⟨ho, hqueue, hlate, hdrop⟩ := State.latePost_frame
    (s := s.modTx p fun x => { x with queue := x.queue.drop 1, seq := d.seq, dropc := satAdd 0xFFFF x.dropc 1 }) (p := p)
  simp only [ho, hqueue, hlate, hdrop, State.modTx_same, hq]
  exact ⟨rfl, rfl, trivial, rfl⟩

end

/-! ### Pulse outputs (R387) -/

section
variable {o : Pulse} {t : Nat}

/-- The first whole number of periods that reaches `d`. -/
theorem ceil_div_spec {per d : Nat} (hp : 0 < per) : d ≤ (d + per - 1) / per * per ∧ ∀ j, d ≤ j * per → (d + per - 1) / per ≤ j := by
  refine ⟨?_, fun j hj => ?_⟩
  · have := Nat.div_add_mod (d + per - 1) per
    have := Nat.mod_lt (d + per - 1) hp
    rw [Nat.mul_comm]
    omega
  · refine Nat.le_of_lt_succ ((Nat.div_lt_iff_lt_mul hp).mpr ?_)
    rw [Nat.succ_mul]
    omega

/-- The first edge from `i` on that is not before `t`. -/
theorem Pulse.firstFrom_spec (h : 0 < fld o.pw 32 32) (t : Nat) : t ≤ o.edgeTime (o.firstFrom t) ∧ o.i ≤ o.firstFrom t ∧
    ∀ j, o.i ≤ j → t ≤ o.edgeTime j → o.firstFrom t ≤ j := by
  obtain ⟨hreach, hfirst⟩ := ceil_div_spec (d := t - o.start.toNat) h
  have hmono (a b : Nat) : a * fld o.pw 32 32 ≤ max b a * fld o.pw 32 32 := Nat.mul_le_mul_right _ (Nat.le_max_right b a)
  simp only [Pulse.firstFrom, Pulse.edgeTime, Nat.pos_iff_ne_zero.mp h, if_false]
  refine ⟨?_, Nat.le_max_left _ _, fun j hi hj => Nat.max_le.mpr ⟨hi, ?_⟩⟩
  · split
    · have := hmono ((t - o.start.toNat + fld o.pw 32 32 - 1) / fld o.pw 32 32) o.i
      omega
    · omega
  · split
    · exact hfirst j (by omega)
    · exact Nat.zero_le j

end

section
variable {s : State} {k : Fin 4} {ini : Ini} {v : Word}

theorem State.evoWrite_start (hi : tbHostOrCrown ini = true) : s.evoWrite k ini 0 .full v = s.modPulse k fun p =>
    if p.en then { p with startN := v } else { p with startN := v, start := v, pw := p.pwN } := by
  unfold State.evoWrite
  rw [hi]
  rfl

theorem State.evoWrite_pw_bad (hi : tbHostOrCrown ini = true) (h : pulseOk v = false) : s.evoWrite k ini 1 .full v = s.tbRefuse := by
  unfold State.evoWrite
  rw [hi]
  exact if_neg (Bool.eq_false_iff.mp h)

theorem State.evoWrite_pw (hi : tbHostOrCrown ini = true) (h : pulseOk v = true) : s.evoWrite k ini 1 .full v = s.modPulse k fun p =>
    if p.en then { p with pwN := v } else { p with pwN := v, start := p.startN, pw := v } := by
  unfold State.evoWrite
  rw [hi]
  exact if_pos h

theorem State.evoWrite_disable (hi : tbHostOrCrown ini = true) (h : bit v 0 = false) : s.evoWrite k ini 2 .full v = s.modPulse k fun p =>
    { p with pol := bit v 2, dom := bit v 1, en := false, on := false } := by
  unfold State.evoWrite
  rw [hi]
  simp only [h, Bool.not_true, Bool.not_false, Bool.false_eq_true, if_false, if_true]

theorem State.pulseEdge_due (he : s.tb.evo[k].en = true) (hh : s.tb.evo[k].hasEdge = true)
    (ht : s.tb.evo[k].edgeTime s.tb.evo[k].i ≤ (s.domTime (if s.tb.evo[k].dom then 1 else 0)).toNat)
    (hs : s.tb.evo[k].start = s.tb.evo[k].startN) (hp : s.tb.evo[k].pw = s.tb.evo[k].pwN) : s.pulseEdge k = s.modPulse k fun p =>
      { p with on := true, offAt := BitVec.ofNat 64 (p.edgeTime p.i + fld p.pw 0 32), i := p.i + 1 } := by
  refine (if_pos (by simp only [he, hh, ht, decide_true, Bool.and_self])).trans ?_
  simp only [if_pos (And.intro hs hp)]
  rfl

theorem State.pulseEdge_early (ht : (s.domTime (if s.tb.evo[k].dom then 1 else 0)).toNat < s.tb.evo[k].edgeTime s.tb.evo[k].i) :
    s.pulseEdge k = s := by
  refine if_neg ?_
  simp only [Nat.not_le.mpr ht, decide_false, Bool.and_false, Bool.false_eq_true, not_false_iff]

end

/-! ### Slice time (R388, R389) -/

section
variable {s : State} {p : Fin 6} {t : Word} {r : BitVec 32}

/-- Whether a port leads to a child of the survey tree. -/
def FabState.child (b : FabState) (p : Fin 6) : Bool := bit b.tree p.val && decide (b.ports[p].state = 3) && decide (b.ports[p].mode = 1)

/-- The SYNC messages that leave for the children. -/
def FabState.syncs (b : FabState) (time : Word) : List Output :=
  ((List.finRange 6).filter b.child).map fun p => .time p b.addr 0x70 (.sync time)

theorem State.syncOut_eq (s : State) (time : Word) : s.syncOut time = { s with out := s.out ++ s.fab.syncs time } := by
  have hfold (l : List (Fin 6)) : ∀ u : State, u.fab = s.fab →
      l.foldl (fun t p => if t.fab.child p then t.emit (.time p t.fab.addr 0x70 (.sync time)) else t) u =
      { u with out := u.out ++ (l.filter s.fab.child).map fun p => .time p s.fab.addr 0x70 (.sync time) } := by
    induction l with
    | nil => exact fun u _ => by simp
    | cons p l ih =>
      intro u hu
      rw [List.foldl_cons, List.filter_cons]
      simp only [hu]
      cases s.fab.child p
      · exact (ih u hu).trans (by simp [hu])
      · exact (ih (u.emit (.time p s.fab.addr 0x70 (.sync time))) hu).trans (by simp [State.emit, hu])
  exact hfold _ s rfl

/-- A SYNC from the parent. -/
theorem State.syncIn_parent (hf : s.fabEn = true) (h3 : s.fab.ports[p].state = 3) (hp : s.fab.parent = some p) (hm : s.fab.ports[p].mode = 1) :
    s.syncIn p t r = ((s.modTb fun b => { b with lastSync := some b.cnt }).domRate s.fabDom r).syncOut
      (t + BitVec.ofInt 64 ((s.modTb fun b => { b with lastSync := some b.cnt }).domRate s.fabDom r).tb.peer[p].delay) :=
  if_pos (by simp only [hf, State.linkUp', h3, hp, hm, decide_true, Bool.and_self])

theorem State.syncIn_other (hp : s.fab.parent ≠ some p) : s.syncIn p t r = s :=
  if_neg (by simp only [decide_eq_false hp, Bool.and_false, Bool.false_and, Bool.false_eq_true, not_false_iff])

/-- What a RATE, taken or refused, leaves. -/
theorem State.domRate_frame (d : Fin 2) : (∀ e : Fin 2, (s.domRate d r).domTime e = s.domTime e) ∧ (s.domRate d r).tb.cnt = s.tb.cnt ∧
    (s.domRate d r).tb.lastSync = s.tb.lastSync ∧ (s.domRate d r).tb.peer = s.tb.peer ∧
    { s.domRate d r with tb := s.tb, evt := s.evt } = s := by
  by_cases h : rateOk r = false ∨ (d = 0 ∧ s.tb.dom[(0 : Fin 2)].state = .follow)
  · rw [State.domRate_refused h, State.tbRefuse_eq]
    exact ⟨fun e => State.domTime_congr rfl e, rfl, rfl, rfl, rfl⟩
  · rw [not_or, Bool.not_eq_false] at h
    obtain ⟨htime, -⟩ := State.domRate_spec h.1 h.2
    refine ⟨htime, ?_⟩
    rw [State.domRate_taken h.1 h.2]
    simp only
    split <;> exact ⟨rfl, rfl, rfl, rfl⟩

/-- What a SYNC from the parent does. -/
theorem State.syncIn_spec (hf : s.fabEn = true) (h3 : s.fab.ports[p].state = 3) (hp : s.fab.parent = some p) (hm : s.fab.ports[p].mode = 1) :
    let u := s.syncIn p t r
    u.tb.lastSync = some s.tb.cnt ∧ u.tb.cnt = s.tb.cnt ∧ (∀ e : Fin 2, u.domTime e = s.domTime e) ∧
    u.out = (s.syncOut (t + BitVec.ofInt 64 s.tb.peer[p].delay)).out ∧ { u with tb := s.tb, evt := s.evt, out := s.out } = s := by
  have hstamp (e : Fin 2) : (s.modTb fun b => { b with lastSync := some b.cnt }).domTime e = s.domTime e := by
    rw [State.domTime, State.domTime, State.modTb]
  obtain ⟨htime, hcnt, hsync, hpeer, hrest⟩ := State.domRate_frame (s := s.modTb fun b => { b with lastSync := some b.cnt }) (r := r) s.fabDom
  have hout := congrArg State.out hrest
  have hfab := congrArg State.fab hrest
  rw [State.syncIn_parent hf h3 hp hm]
  simp only [State.syncOut_eq, hpeer]
  refine ⟨hsync, hcnt, fun e => ?_, ?_, ?_⟩
  · exact (State.domTime_congr rfl e).trans ((htime e).trans (hstamp e))
  · exact congrArg₂ (fun (o : List Output) (b : FabState) => o ++ b.syncs (t + BitVec.ofInt 64 s.tb.peer[p].delay)) hout hfab
  · exact congrArg (fun x : State => { x with tb := s.tb, evt := s.evt, out := s.out }) hrest

theorem State.syncLoss_late {l : Word} (hl : s.tb.lastSync = some l) (hf : s.fabEn = true) (h : 5000000 ≤ (s.tb.cnt - l).toNat) :
    s.syncLoss = ((s.modTb fun b => { b with lastSync := none }).domHoldover s.fabDom).post 0x7070 0xC4 := by
  simp only [State.syncLoss, hl, hf, h, decide_true, Bool.and_self, if_true]

/-- The loss of SYNC on a LOCKED domain B. -/
theorem State.syncLoss_spec {l : Word} (hl : s.tb.lastSync = some l) (hf : s.fabEn = true) (h : 5000000 ≤ (s.tb.cnt - l).toNat)
    (hs : s.tb.dom[s.fabDom].state = .locked) (hd : s.fabDom = 1) : let u := s.syncLoss
    u.tb.lastSync = none ∧ u.tb.dom[s.fabDom].state = .holdover ∧ u.evt.incoming =
      s.evt.incoming ++ [⟨0x7021, 0xC4, s.tb.cnt, none, false, false⟩, ⟨0x7070, 0xC4, s.tb.cnt, none, false, false⟩] := by
  have hne : ¬ (s.fabDom = 0 ∧ bit s.tb.cfg 48 = true ∧ s.tb.dom[(1 : Fin 2)].state = .locked) := by
    rw [hd]
    exact fun hc => absurd hc.1 (by decide)
  have hheld := State.domHoldover_alone (s := s.modTb fun b => { b with lastSync := none }) hs hne
  have hpost := fun t : State => State.post_of_block (src := 0xC4) (by decide) t 0x7070
  rw [State.syncLoss_late hl hf h, hheld, hpost]
  refine ⟨rfl, ?_, ?_⟩
  · exact congrArg TbDom.state (State.modDom_same (s := s.modTb fun b => { b with lastSync := none }) (d := s.fabDom)
      (f := fun x => { x with state := .holdover }))
  · simp [State.heldOver, State.modTb, hd]

theorem port_up_of_trained {n : Nat} (h : n = 3) : 2 ≤ n ∧ n ≠ 4 := by
  subst h
  decide

theorem State.modLink_on (hf : s.fabEn = true) (h3 : s.fab.ports[p].state = 3) :
    ((s.modLink p fun x => { x with nak := false }).fabEn && (s.modLink p fun x => { x with nak := false }).linkUp' p) = true := by
  have hstate : (s.modLink p fun x => { x with nak := false }).fab.ports[p].state = s.fab.ports[p].state :=
    State.modLink_keeps (g := FabPort.state) rfl p
  rw [State.linkUp', hstate, h3]
  exact (Bool.and_true _).trans hf

theorem State.pdresp_answered {t1 t2 t3 : Word} (h : (s.fabEn && s.linkUp' p) = true) (hy : s.tb.peer[p].t1 = some t1) :
    s.pdresp p t2 t3 = s.modTb fun b => { b with peer := b.peer.set p ⟨none, ((s.stamp - t1) - (t3 - t2)).toInt / 2⟩ } := by
  simp only [State.pdresp, hy, h, if_true]

theorem State.pdresp_unasked {t2 t3 : Word} (hy : s.tb.peer[p].t1 = none) : s.pdresp p t2 t3 = s := by
  simp only [State.pdresp, hy]

theorem State.bridgeLoss_late {k : Fin 2} {l : Word} (hl : s.tb.lastBridge[k] = some l) (h : 50000000 ≤ (s.tb.cnt - l).toNat) :
    s.bridgeLoss k = (s.modTb fun b => { b with
      bridge := b.bridge.set k (setBit b.bridge[k] 63 false), lastBridge := b.lastBridge.set k none }).postPart 0x7071 0xC4 none := by
  have hpost := fun t : State => State.post_of_block (src := 0xC4) (by decide) t 0x7071
  simp only [State.bridgeLoss, hl, h, if_true, hpost]

/-- What BRIDGE stores on a trunk that is up, in Crown's turn. -/
theorem State.bridgeIn_spec {k : Fin 2} (hf : s.fabEn = true) (h3 : s.fab.ports[trunkPort k].state = 3) (hm : s.fab.ports[trunkPort k].mode = 2)
    (hs : s.serves .management = true) (hq : s.crn.mgmtQ = []) :
    let a := s.modLink (trunkPort k) fun x => { x with nak := false }
    let u := a.bridgeIn k t
    bit u.tb.bridge[k] 63 = true ∧ u.tb.lastBridge[k] = some s.tb.cnt ∧
    fld u.tb.bridge[k] 0 63 = fld (t + BitVec.ofInt 64 s.tb.peer[trunkPort k].delay - s.domTime s.fabDom) 0 63 ∧ { u with tb := s.tb } = a := by
  have hmode : (s.modLink (trunkPort k) fun x => { x with nak := false }).fab.ports[trunkPort k].mode = 2 :=
    (State.modLink_keeps (g := FabPort.mode) rfl _).trans hm
  have hstate : (s.modLink (trunkPort k) fun x => { x with nak := false }).fab.ports[trunkPort k].state = 3 :=
    (State.modLink_keeps (g := FabPort.state) rfl _).trans h3
  have hon : ((s.modLink (trunkPort k) fun x => { x with nak := false }).fabEn &&
      (s.modLink (trunkPort k) fun x => { x with nak := false }).trunkUp k) = true := by
    rw [State.trunkUp, State.linkUp', hmode, hstate]
    exact (Bool.and_true _).trans hf
  have harrive := State.mgmtArrive_served (s := s.modLink (trunkPort k) fun x => { x with nak := false })
    (w := .bridge k (t + BitVec.ofInt 64 s.tb.peer[trunkPort k].delay - s.domTime s.fabDom)) hs hq
  have hbridge : (s.modLink (trunkPort k) fun x => { x with nak := false }).bridgeIn k t =
      (s.modLink (trunkPort k) fun x => { x with nak := false }).bridgeStore k
        (t + BitVec.ofInt 64 s.tb.peer[trunkPort k].delay - s.domTime s.fabDom) := (if_pos hon).trans harrive
  simp only [hbridge]
  refine ⟨?_, ?_, ?_, rfl⟩
  · simp [State.bridgeStore, bit_setBit]
  · simp [State.bridgeStore]
  · simp [State.bridgeStore, setBit]

end

/-- Settles O41: a port's queue, a pulse output, and the messages of slice time, each by the lemmas of its commands. -/
theorem timeOnPortsAndLinks : Obligations.TimeOnPortsAndLinks := by
  unfold Obligations.TimeOnPortsAndLinks
  refine ⟨fun s p k ini hown => ?ports, fun s p k m t r => ?links⟩
  case ports =>
    have hi : tbHostOrCrown ini.val = true := by simpa [tbHostOrCrown] using hown
    refine ⟨fun data hl => ?submit, fun d rest hq hu hm => ?launch, ?empty, ?start, ?pwBad, ?pw, ?disable, ?edge, ?early, ?width, ?noWidth,
      fun t h => Pulse.firstFrom_spec h t⟩
    case submit =>
      have hexec : exec (.tbTxqWrite p ini 0 data) s = .next (s.txqWrite p ini.val 0 data) :=
        inRange_of_ok (by simp [bytesIn, hl])
      refine ⟨fun hb hq => ?_, fun h => ?_, txDescBad_of_fields⟩
      · rw [hexec, State.txqWrite_whole hi hl]
        simp only [hb, Bool.false_eq_true, Nat.not_le.mpr hq, or_self, if_false, State.modTx_modTx]
        rfl
      · rw [hexec, State.txqWrite_whole hi hl]
        simp only [if_pos h, State.tbRefuse_eq]
        rfl
    case launch =>
      refine ⟨fun hfree h => ?_, fun hfree h => ?_, fun hn h => ?_, fun hfree hn h hl => ?_, fun hn h hl => ?_⟩
      · exact congrArg Host.Outcome.next (State.txLaunch_line_taken hq hu hm rfl ((Bool.not_eq_false _).mp hfree) h)
      · exact congrArg Host.Outcome.next ((State.txLaunch_sends hq hu hm rfl hfree h).trans (State.txSend_eq hq))
      · exact congrArg Host.Outcome.next (State.txLaunch_early hq hu hm rfl hn h)
      · refine ⟨_, congrArg Host.Outcome.next (State.txLaunch_late_sent hq hu hm rfl hfree hn h hl), ?_⟩
        have hspec := State.txLate_spec (t := s.domTime (if d.dom then 1 else 0) + BitVec.ofNat 64 (txLat s.tb.tx[p].lat)) hq
        rw [State.txSend_eq hq] at hspec ⊢
        exact hspec
      · exact ⟨_, congrArg Host.Outcome.next (State.txLaunch_late_dropped hq hu hm rfl hn h hl), State.txDropped_spec hq⟩
    case empty =>
      intro hq
      refine congrArg Host.Outcome.next ?_
      simp only [State.txLaunch, hq]
    case start =>
      intro v
      refine congrArg Host.Outcome.next ((State.evoWrite_start hi).trans ?_)
      rfl
    case pwBad => exact fun v h => congrArg Host.Outcome.next ((State.evoWrite_pw_bad hi h).trans (State.tbRefuse_eq s))
    case pw =>
      intro v h he
      refine congrArg Host.Outcome.next ((State.evoWrite_pw hi h).trans ?_)
      simp only [State.modPulse, he, if_true]
    case disable => exact fun v h => congrArg Host.Outcome.next (State.evoWrite_disable hi h)
    case edge => exact fun he hh ht hs hp => congrArg Host.Outcome.next (State.pulseEdge_due he hh ht hs hp)
    case early => exact fun h => congrArg Host.Outcome.next (State.pulseEdge_early h)
    case width => exact fun ho ht => congrArg Host.Outcome.next (if_pos ⟨ho, ht⟩)
    case noWidth =>
      refine fun h => congrArg Host.Outcome.next (if_neg ?_)
      rintro ⟨ho, ht⟩
      obtain h | h := h
      · exact absurd ho (Bool.eq_false_iff.mp h)
      · exact Nat.not_lt.mpr ht h
  case links =>
    refine ⟨?stopped, ?down, ?pdreqSend, ?pdreq, ?pdresp, ?pdrespNone, ?sync, ?syncNone, ?syncParent, ?syncOther, ?loss, ?lossNone,
      ?bridgeSend, ?bridgeBusy, ?bridge, ?bridgeLoss, ?bridgeLossNone⟩
    case stopped =>
      rintro i q sub f (⟨rfl, rfl, rfl⟩ | ⟨t2, t3, rfl, rfl, rfl⟩ | ⟨rfl, rfl, rfl⟩ | ⟨rfl, rfl, rfl⟩) h3 hf <;>
        exact congrArg Host.Outcome.next (State.mgmtIn_stopped (port_up_of_trained h3) hf)
    case down =>
      rintro i q sub (⟨rfl, rfl, rfl⟩ | ⟨t2, t3, rfl, rfl, rfl⟩ | ⟨rfl, rfl, rfl⟩ | ⟨rfl, rfl, rfl⟩) h <;>
        exact congrArg Host.Outcome.next (State.mgmtIn_down h)
    case pdreqSend =>
      rintro ⟨hf, h3⟩
      exact congrArg Host.Outcome.next (if_pos (by simp only [hf, State.linkUp', h3, decide_true, Bool.and_self]))
    case pdreq =>
      rintro ⟨hf, h3⟩ hw
      exact congrArg Host.Outcome.next ((State.mgmtIn_taken (port_up_of_trained h3) hw).trans (if_pos (State.modLink_on hf h3)))
    case pdresp =>
      rintro t1 t2 t3 ⟨hf, h3⟩ hw hy
      refine congrArg Host.Outcome.next ((State.mgmtIn_taken (port_up_of_trained h3) hw).trans ?_)
      exact State.pdresp_answered (State.modLink_on hf h3) hy
    case pdrespNone =>
      rintro t2 t3 ⟨hf, h3⟩ hw hy
      exact congrArg Host.Outcome.next ((State.mgmtIn_taken (port_up_of_trained h3) hw).trans (State.pdresp_unasked hy))
    case sync => exact fun hf hv ho => congrArg Host.Outcome.next (if_pos (by simp only [hf, hv, ho, Bool.and_self]))
    case syncNone => exact fun ho => congrArg Host.Outcome.next (if_neg (by simp only [ho, Bool.and_false, Bool.false_eq_true, not_false_iff]))
    case syncParent =>
      rintro ⟨hf, h3⟩ hw hp hm
      have hmode : (s.modLink p fun x => { x with nak := false }).fab.ports[p].mode = s.fab.ports[p].mode :=
        State.modLink_keeps (g := FabPort.mode) rfl p
      have hstate : (s.modLink p fun x => { x with nak := false }).fab.ports[p].state = s.fab.ports[p].state :=
        State.modLink_keeps (g := FabPort.state) rfl p
      exact ⟨_, congrArg Host.Outcome.next (State.mgmtIn_taken (port_up_of_trained h3) hw),
        State.syncIn_spec (s := s.modLink p fun x => { x with nak := false }) hf (hstate.trans h3) hp (hmode.trans hm)⟩
    case syncOther =>
      rintro ⟨hf, h3⟩ hw hp
      exact congrArg Host.Outcome.next ((State.mgmtIn_taken (port_up_of_trained h3) hw).trans (State.syncIn_other hp))
    case loss =>
      exact fun l hl hf h hs hd => ⟨_, rfl, State.syncLoss_spec hl hf h hs hd⟩
    case lossNone =>
      intro hl
      refine congrArg Host.Outcome.next ?_
      simp only [State.syncLoss, hl]
    case bridgeSend =>
      rintro ⟨hf, h3, hm⟩ hs
      exact congrArg Host.Outcome.next (if_pos (by simp only [hf, State.trunkUp, State.linkUp', h3, hm, hs, decide_true, Bool.and_self]))
    case bridgeBusy =>
      exact fun hs => congrArg Host.Outcome.next (if_neg (by simp only [hs, Bool.and_false, Bool.false_eq_true, not_false_iff]))
    case bridge =>
      rintro ⟨hf, h3, hm⟩ hw hs hq
      exact ⟨_, congrArg Host.Outcome.next (State.mgmtIn_taken (port_up_of_trained h3) hw), State.bridgeIn_spec hf h3 hm hs hq⟩
    case bridgeLoss =>
      intro l hl h
      refine ⟨_, congrArg Host.Outcome.next (State.bridgeLoss_late hl h), ?_, ?_, ?_⟩
      · rw [State.postPart_tb]
        simp [State.modTb, bit_setBit]
      · rw [State.postPart_tb]
        simp [State.modTb]
      · rfl
    case bridgeLossNone =>
      intro hl
      refine congrArg Host.Outcome.next ?_
      simp only [State.bridgeLoss, hl]

end Sys2Proof.Machine
end

/-! The proofs: what Cloche measures. -/

section
namespace Sys2Proof.Machine

/-! ### Start and seal (R441, R442) -/

section
variable {s : State} {br f : Bool}

theorem State.raise_clo (pf1 : Bool) (v : Nat) : (s.raise pf1 v).clo = s.clo := by
  simp only [State.raise]
  split
  · unfold State.modFn
    split <;> rfl
  · rfl

theorem State.cloStart_clo : (s.cloStart br f).clo = s.clo.start br f := by
  simp only [State.cloStart]
  split <;> rfl

/-- Parameters that are valid after a start. -/
theorem CloState.start_pvalid {x : CloState} (h : (x.start br f).pvalid = true) : x.lost = [] ∧ genOk (blockBytes x.blocks 0) = true := by
  obtain ⟨-, h⟩ := (Bool.and_eq_true _ _).mp h
  simpa [CloState.paramsOk] using h

theorem CloState.start_refValid {x : CloState} (h : (x.start br f).refValid = true) : br = false := by
  obtain ⟨-, h⟩ := (Bool.and_eq_true _ _).mp h
  simpa using h

theorem CloState.start_lost {x : CloState} (h : x.lost ≠ []) : (x.start br f).pvalid = false :=
  Bool.eq_false_iff.mpr fun hv => h (CloState.start_pvalid hv).1

theorem State.loseBlock_lost (b : Nat) : (s.loseBlock b).clo.lost ≠ [] := by
  simp only [State.loseBlock, State.modClo_clo]
  split
  · next h => exact fun hn => by simp [hn] at h
  · simp

/-- Blocks lost leave a list of them. -/
theorem State.loseBlocks_lost (l : List Nat) (h : l ≠ [] ∨ s.clo.lost ≠ []) : (l.foldl State.loseBlock s).clo.lost ≠ [] := by
  induction l generalizing s with
  | nil => exact h.resolve_left fun hn => hn rfl
  | cons b l ih => exact ih (Or.inr (State.loseBlock_lost b))

theorem State.sealChange_same {o : Bool} (h : s.clo.on = false ∨ s.clo.sealOpen = o) : s.sealChange o = s := by
  refine if_pos ?_
  obtain h | h := h <;> simp [h]

theorem State.sealChange_moves {o : Bool} (hon : s.clo.on = true) (h : s.clo.sealOpen ≠ o) : s.sealChange o =
    ((s.cloPost (if o then 0x8003 else 0x8004)).raise true 2).modClo fun x =>
      { (CloState.addAudit { x with sealOpen := o, staged := if o then x.staged else [] } (if o then 3 else 4) 0 noHash noHash) with
        cap := x.cap.map fun c => { c with sealOpen := c.sealOpen || o } } := by
  refine if_neg ?_
  simp [hon, h]

theorem State.sealChange_spec {o : Bool} (hon : s.clo.on = true) (h : s.clo.sealOpen ≠ o) : let t := s.sealChange o
    t.clo.sealOpen = o ∧ t.clo.staged = (if o then s.clo.staged else []) ∧ t.clo.blocks = s.clo.blocks ∧
      t.clo.audit = (auditBytes s.clo.evcnt (if o then 3 else 4) 0 s.clo.lastTime noHash noHash :: s.clo.audit).take 1024 ∧
      t.evt.incoming = s.evt.incoming ++ [⟨if o then 0x8003 else 0x8004, 0x72, s.tb.cnt, none, false, false⟩] := by
  rw [State.sealChange_moves hon h]
  simp only [State.modClo_clo, State.modClo_evt, State.raise_clo, State.raise_evt]
  cases o <;> exact ⟨rfl, rfl, rfl, rfl, rfl⟩

end

/-! ### Tapped frames (R446) -/

section
variable {x : CloState} {k : Fin 4}

theorem CloState.foldl_lastTime {α : Type} {f : CloState → α → CloState} (h : ∀ y a, (f y a).lastTime = y.lastTime) (l : List α) (x : CloState) :
    (l.foldl f x).lastTime = x.lastTime := by
  induction l generalizing x with
  | nil => rfl
  | cons a l ih => exact (ih _).trans (h x a)

@[simp] theorem CloState.modCap_lastTime (f : CloCap → CloCap) : (x.modCap f).lastTime = x.lastTime := rfl

theorem CloState.modCap_if (b : Bool) (y : CloState) (f : CloCap → CloCap) :
    (if b then y.modCap f else y).lastTime = y.lastTime ∧ (if b then y.modCap f else y).track = y.track := by
  cases b <;> exact ⟨rfl, rfl⟩

@[simp] theorem CloState.modTrack_lastTime (f : CloTrack → CloTrack) : (x.modTrack k f).lastTime = x.lastTime := rfl

@[simp] theorem CloState.sweepClose_lastTime : (x.sweepClose k).lastTime = x.lastTime := by
  simp only [CloState.sweepClose]
  split <;> rfl

@[simp] theorem CloState.sweepOpen_lastTime (t : BitVec 32) : (x.sweepOpen k t).lastTime = x.lastTime := by
  unfold CloState.sweepOpen
  extract_lets joins y
  cases joins <;> rfl

@[simp] theorem CloState.point_lastTime (t : Rec64) (p : Point) (ret : Nat) (time : BitVec 32) :
    (x.point k t p ret time).lastTime = x.lastTime := by
  simp only [CloState.point]
  (repeat' split) <;> simp

theorem CloState.framePoint_lastTime (m : SMap (List Byte)) (pay : List Byte) (stamp : Word) (b p : Nat) :
    (CloState.framePoint m k pay stamp x b p).lastTime = x.lastTime := by
  simp only [CloState.framePoint]
  split
  · rfl
  · split
    · exact CloState.point_lastTime _ _ _ _
    · rfl

theorem CloState.frame_lastTime (pay : List Byte) (stamp : Word) : (x.frame k pay stamp).lastTime = x.lastTime := by
  simp only [CloState.frame]
  split
  · rfl
  · refine (CloState.foldl_lastTime (fun y b => CloState.foldl_lastTime (fun z p => CloState.framePoint_lastTime _ _ _ _ _) _ y) _ _).trans ?_
    (repeat' split) <;> simp

end

section
variable {s : State} {p : Fin 4} {f : RxFrame} {rest : List (Fin 4 × RxFrame)}

/-- What a datagram of sensor `k` leaves: its stamp, and the sweeps of the sensors. -/
theorem State.cloTap_datagram {d : Datagram} {k : Fin 4} (ht : s.ing.tap = (p, f) :: rest) (hon : s.clo.on = true) (hfw : s.clo.nofw = false)
    (hf : parseFrame f.bytes = .udp d) (hk : cloMatch s.clo.params p d = some k) : s.cloTap.ing.tap = rest ∧
    s.cloTap.clo.lastTime = f.stampA ∧
    s.cloTap.clo.track = (({ s.clo with lastTime := f.stampA } : CloState).frame k d.payload f.stampA).track := by
  have hk' : cloMatch (CloState.params { s.clo with lastTime := f.stampA }) p d = some k := hk
  have hlast : (CloState.frame { s.clo with lastTime := f.stampA } k d.payload f.stampA).lastTime = f.stampA := CloState.frame_lastTime _ _
  have hoff : (!s.clo.on || s.clo.nofw) = false := by simp [hon, hfw]
  unfold State.cloTap
  simp only [ht, State.modIng, hoff, Bool.false_eq_true, if_false, hf, hk']
  exact ⟨trivial, (CloState.modCap_if _ _ _).1.trans hlast, (CloState.modCap_if _ _ _).2⟩

/-- A frame that is no datagram leaves its stamp only. -/
theorem State.cloTap_other (ht : s.ing.tap = (p, f) :: rest) (hon : s.clo.on = true) (hfw : s.clo.nofw = false)
    (hf : parseFrame f.bytes = .other) :
    s.cloTap = { s with ing := { s.ing with tap := rest }, clo := { s.clo with lastTime := f.stampA } } := by
  simp only [State.cloTap, ht, State.modIng, hon, hfw, hf, Bool.not_true, Bool.or_self, Bool.false_eq_true, if_false]

theorem State.cloTap_none (ht : s.ing.tap = []) : s.cloTap = s := by
  simp only [State.cloTap, ht]

end

/-! ### Points (R446, R447) -/

section
variable {c : CloCap} {p : Point} {ret : Nat}

/-- A point that the map of the parameters takes. -/
def CloCap.takes (c : CloCap) (p : Point) (ret : Nat) : Prop :=
  let g := blockBytes c.blocks 0
  ret ≤ gRetmax g ∧ -32768 ≤ p.z - gOrigin g 2 ∧ p.z - gOrigin g 2 ≤ 32767 ∧
    0 ≤ (p.x - gOrigin g 0).fdiv (gE g) ∧ (p.x - gOrigin g 0).fdiv (gE g) < gNx g ∧
    0 ≤ (p.y - gOrigin g 1).fdiv (gE g) ∧ (p.y - gOrigin g 1).fdiv (gE g) < gNy g

/-- The cell of a point. -/
def CloCap.cellOf (c : CloCap) (p : Point) : Nat :=
  let g := blockBytes c.blocks 0
  ((p.y - gOrigin g 1).fdiv (gE g)).toNat * gNx g + ((p.x - gOrigin g 0).fdiv (gE g)).toNat

theorem CloCap.enter_outside (h : ¬ c.takes p ret) : c.enter p ret = { c with nout := c.nout + 1 } := by
  refine if_pos ?_
  by_contra hc
  simp only [not_or, Nat.not_lt, Int.not_lt, Int.not_le] at hc
  exact h hc

theorem CloCap.enter_inside (h : c.takes p ret) : c.enter p ret =
    let v := SMap.get (0, 0) c.cells (c.cellOf p)
    if v.2 < 255 then { c with
      cells := SMap.insert (c.cellOf p) (v.1 + (p.z - gOrigin (blockBytes c.blocks 0) 2), v.2 + 1) c.cells, npts := c.npts + 1 } else c := by
  obtain ⟨h1, h2, h3, h4, h5, h6, h7⟩ := h
  refine (if_neg ?_).trans rfl
  simp only [not_or, Nat.not_lt, Int.not_lt, Int.not_le]
  exact ⟨h1, h2, h3, h4, h5, h6, h7⟩

end

/-! ### Captures and records -/

section
variable {s : State} {c : CloCap}

theorem State.captureEnd_full (hc : s.clo.cap = some c) (hk : c.kind = 1) (hf : c.full = true) : s.captureEnd = s.capDone c := by
  simp only [State.captureEnd, hc, hk, hf]
  rfl

theorem State.captureEnd_none (hc : s.clo.cap = none) : s.captureEnd = s := by simp only [State.captureEnd, hc]

theorem State.captureTimeout_none (hc : s.clo.cap = none) : s.captureTimeout = s := by simp only [State.captureTimeout, hc]

theorem State.captureTimeout_late (hc : s.clo.cap = some c) (hk : c.kind ≠ 2) (hf : c.full = false)
    (h : 1000000000 ≤ (s.tb.cnt - c.lastAt).toNat) : s.captureTimeout = s.capCut c false := by
  simp only [State.captureTimeout, hc, hf, h]
  exact if_pos (by simpa using hk)

theorem CloState.endCap_some {x : CloState} (h : x.cap = some c) : x.endCap = { x with
    cap := none, map := c.cells, mapCells := gCells (blockBytes c.blocks 0), track := x.track.map fun t => { t with inCap := false } } := by
  simp only [CloState.endCap, h]

/-- What a record changes: the number given, and the queue. -/
theorem State.cloRecord_clo (r : Reading) (z : Word) : ∃ b, (s.cloRecord c r z).clo =
    { s.clo with rseq := s.clo.rseq + 1, queue := s.clo.queue ++ [(s.clo.rseq + 1, b)] } := ⟨_, rfl⟩

/-- The record of a capture that ends. -/
theorem State.cloRecord_ended (hc : s.clo.cap = some c) (r : Reading) (z : Word) : let t := (s.modClo CloState.endCap).cloRecord c r z
    t.clo.cap = none ∧ t.clo.rseq = s.clo.rseq + 1 ∧ t.clo.queue.length = s.clo.queue.length + 1 ∧ t.clo.ref = s.clo.ref ∧
      t.clo.zseq = s.clo.zseq := by
  obtain ⟨b, hb⟩ := State.cloRecord_clo (s := s.modClo CloState.endCap) (c := c) r z
  simp only [hb, State.modClo_clo, CloState.endCap_some hc]
  exact ⟨trivial, trivial, List.length_append, trivial, trivial⟩

/-- A zeroing that ends with few enough empty cells makes the reference. -/
theorem State.capDone_zero (hc : s.clo.cap = some c) (hk : c.kind = 3)
    (he : gCells (blockBytes c.blocks 0) - (defCells (blockBytes c.blocks 0) none c.cells).length ≤ gEmptymax (blockBytes c.blocks 0)) :
    let t := s.capDone c
    t.clo.ref = newRef (blockBytes c.blocks 0) c.cells ∧ t.clo.refValid = true ∧ t.clo.zseq = t.clo.rseq ∧ t.clo.cap = none := by
  have hend := CloState.endCap_some hc
  have hempty := decide_eq_false (Nat.not_lt.mpr he)
  simp only [State.capDone, hk, if_true, hempty, Bool.false_eq_true, if_false, State.cloRecord, State.modClo_clo, State.drawBytes, hend]
  exact ⟨trivial, trivial, trivial, trivial⟩

theorem State.cloRecordWrite_head {n : Word} {bytes : List Byte} {rest : List (Word × List Byte)} (hq : s.clo.queue = (n, bytes) :: rest) :
    let t := s.cloRecordWrite
    t.clo.queue = rest ∧ t.clo.recs = ((n, bytes) :: s.clo.recs).take 1024 ∧ t.clo.slots = s.clo.slots.set (Fin.ofNat 16 n.toNat) bytes ∧
      t.evt.incoming = s.evt.incoming ++ [⟨0x8002, 0x72, s.tb.cnt, none, false, false⟩] := by
  simp only [State.cloRecordWrite, hq, State.raise_clo, State.raise_evt]
  exact ⟨rfl, rfl, rfl, rfl⟩

end

/-! ### The encoder and faults (R457, R459) -/

section
variable {s : State}

theorem State.encoder_on (a b : Bool) (h : s.clo.on = true) : s.encoder a b = s.modClo fun x =>
    match quadStep x.encA x.encB a b with
    | some d => { x with encA := a, encB := b, enc := x.enc + d }
    | none => CloState.modCap { x with encA := a, encB := b } fun c : CloCap => if c.kind = 2 then { c with encErr := true } else c := by
  refine (if_neg ?_).trans rfl
  simp [h]

theorem State.cloWatchdog_idle {k : Bool} (hon : s.clo.on = true) (hc : s.clo.cap = none) :
    s.cloWatchdog k = ((s.cloPost 0x8021).raise true 3).cloStart false true := by
  simp only [State.cloWatchdog, hon, hc, Bool.not_true, Bool.false_eq_true, if_false]

theorem quadStep_a (a b a' : Bool) : quadStep a b a' b = some (if a' = a then 0 else if a' = b then -1 else 1) := by
  cases a <;> cases b <;> cases a' <;> rfl

theorem quadStep_b (a b b' : Bool) : quadStep a b a b' = some (if b' = b then 0 else if b' = a then 1 else -1) := by
  cases a <;> cases b <;> cases b' <;> rfl

theorem quadStep_both (a b : Bool) : quadStep a b (!a) (!b) = none := by
  cases a <;> cases b <;> rfl

end

/-- A quotient rounded away from zero is within half of the divisor. -/
theorem divAway_near (n : Int) {m : Nat} (hm : 0 < m) : 2 * (divAway n m * m - n).natAbs ≤ m := by
  have hq : ∀ a : Nat, 2 * (((2 * a + m) / (2 * m) : Nat) * m) ≤ 2 * a + m ∧ 2 * a < 2 * (((2 * a + m) / (2 * m) : Nat) * m) + m := by
    intro a
    have h1 := Nat.div_add_mod (2 * a + m) (2 * m)
    have h2 := Nat.mod_lt (2 * a + m) (show 0 < 2 * m by omega)
    have h3 : 2 * m * ((2 * a + m) / (2 * m)) = 2 * (((2 * a + m) / (2 * m) : Nat) * m) := by ring
    omega
  obtain ⟨hlo, hhi⟩ := hq n.natAbs
  unfold divAway
  extract_lets q
  have hprod : q * (m : Int) = ((((2 * n.natAbs + m) / (2 * m) : Nat) * m : Nat) : Int) := (Nat.cast_mul _ _).symm
  split
  · rw [Int.neg_mul, hprod]
    omega
  · rw [hprod]
    omega

/-- Settles O45: each of Cloche's own commands by the parts of its state that it changes. -/
theorem clocheMeasuring : Obligations.ClocheMeasuring := by
  unfold Obligations.ClocheMeasuring
  intro s c
  refine ⟨?start, fun br f => ?flash, fun o h => ?sealSame, fun o hon h => ?sealMoves, ?noTap, ?tapOther, ?tapUdp, ?point, ?captureEnd,
    fun h => ?noCapture, ?timeout, ?cut, ?zero, ?record, ?noRecord, ?off, ?encoder, ?both, ?watchdogOff, ?watchdog, ?sram,
    fun d => rfl, fun n m hm => divAway_near n hm⟩
  case start =>
    refine fun lost br => ⟨rfl, fun hl => ⟨_, rfl, ?_⟩⟩
    rw [State.cloPowerGood, State.cloStart_clo]
    exact CloState.start_lost (State.loseBlocks_lost _ (Or.inl (by simpa using hl)))
  case flash => exact ⟨rfl, rfl, rfl, rfl, rfl, rfl, rfl, rfl, CloState.start_pvalid, CloState.start_refValid⟩
  case sealSame => exact congrArg Host.Outcome.next (State.sealChange_same h)
  case sealMoves => exact ⟨_, rfl, State.sealChange_spec hon h⟩
  case noTap => exact fun h => congrArg Host.Outcome.next (State.cloTap_none h)
  case tapOther => exact fun p f rest ht hon hfw hf => congrArg Host.Outcome.next (State.cloTap_other ht hon hfw hf)
  case tapUdp => exact fun p f rest d k ht hon hfw hf hk => ⟨_, rfl, State.cloTap_datagram ht hon hfw hf hk⟩
  case point =>
    refine fun p ret => ⟨CloCap.enter_outside, fun h hv => ?_, fun h hv => ?_⟩
    · exact (CloCap.enter_inside h).trans (if_neg (Nat.not_lt.mpr hv))
    · have henter := (CloCap.enter_inside h).trans (if_pos hv)
      rw [henter]
      exact ⟨(SMap.get_insert ..).trans (if_pos rfl), rfl⟩
  case captureEnd => exact fun hc hk hf => congrArg Host.Outcome.next (State.captureEnd_full hc hk hf)
  case noCapture => exact ⟨congrArg Host.Outcome.next (State.captureEnd_none h), congrArg Host.Outcome.next (State.captureTimeout_none h)⟩
  case timeout => exact fun hc hk hf h => congrArg Host.Outcome.next (State.captureTimeout_late hc hk hf h)
  case cut => exact fun a hc => State.cloRecord_ended hc _ _
  case zero => exact fun hc hk he => State.capDone_zero hc hk he
  case record => exact fun n bytes rest hq => ⟨_, rfl, State.cloRecordWrite_head hq⟩
  case noRecord =>
    intro hq
    refine congrArg Host.Outcome.next ?_
    simp only [State.cloRecordWrite, hq]
  case off =>
    intro h
    have hoff : (!s.clo.on) = true := by rw [h]; rfl
    exact ⟨fun a b => congrArg Host.Outcome.next (if_pos hoff), congrArg Host.Outcome.next (if_pos hoff)⟩
  case encoder =>
    refine fun hon a b => ⟨congrArg Host.Outcome.next ?_, congrArg Host.Outcome.next ?_⟩
    · rw [State.encoder_on _ _ hon, State.modClo, quadStep_a]
    · rw [State.encoder_on _ _ hon, State.modClo, quadStep_b]
  case both =>
    refine fun hon hc => congrArg Host.Outcome.next ?_
    rw [State.encoder_on _ _ hon, State.modClo, quadStep_both]
    simp only [CloState.modCap, hc]
    rfl
  case watchdogOff =>
    intro k h
    have hoff : (!s.clo.on) = true := by rw [h]; rfl
    exact congrArg Host.Outcome.next (if_pos hoff)
  case watchdog =>
    intro k hon hc
    refine ⟨_, congrArg Host.Outcome.next (State.cloWatchdog_idle hon hc), ?_⟩
    rw [State.cloStart_clo, State.raise_clo]
    exact ⟨rfl, rfl, rfl, rfl⟩
  case sram =>
    intro hon
    have h : ¬ (!s.clo.on) = true := by simp [hon]
    exact congrArg Host.Outcome.next (if_neg h)

end Sys2Proof.Machine
end

/-! The proofs: Cloche's commands. -/

section
namespace Sys2Proof.Machine

/-! ### Responses (R454) -/

section
variable {s : State} {v : Bool} {r : CloRes}

/-- Cloche as a response of channel `v` leaves it. -/
def CloState.responded (x : CloState) (v : Bool) (r : CloRes) : CloState :=
  let c := x.chan v
  let data := r.2.take 504
  { (x.setChan v { c with
      exec := false, done := true, mute := false
      rsp := [c.area.byte 0, BitVec.ofNat 8 r.1] ++ c.area.read 2 2 ++ leBytes 4 data.length ++ data }) with
    tokB := !v, lastRes := if v then x.lastRes else BitVec.ofNat 8 r.1 }

theorem State.cloRespond_eq : s.cloRespond v r =
    let t : State := { s with clo := s.clo.responded v r }
    if v || (s.clo.chan v).mute then t else t.raise true 0 := rfl

/-- A response changes Cloche only, but for the interrupt of channel A. -/
theorem State.cloRespond_clo : (s.cloRespond v r).clo = s.clo.responded v r := by
  rw [State.cloRespond_eq]
  simp only
  split
  · rfl
  · exact State.raise_clo ..

theorem State.cloRespond_evt : (s.cloRespond v r).evt = s.evt := by
  rw [State.cloRespond_eq]
  simp only
  split
  · rfl
  · exact State.raise_evt ..

theorem State.raise_dma (pf1 : Bool) (n : Nat) : (s.raise pf1 n).dma = s.dma := by
  simp only [State.raise]
  split
  · unfold State.modFn
    split <;> rfl
  · rfl

theorem State.cloRespond_dma : (s.cloRespond v r).dma = s.dma := by
  rw [State.cloRespond_eq]
  simp only
  split
  · rfl
  · exact State.raise_dma ..

theorem State.cloRespond_spec (s : State) (v : Bool) (r : CloRes) : let t := s.cloRespond v r
    (t.clo.chan v).exec = false ∧ (t.clo.chan v).done = true ∧ (t.clo.chan v).rsp[1]? = some (BitVec.ofNat 8 r.1) ∧
      t.clo.chan (!v) = s.clo.chan (!v) ∧ (v = false → t.clo.lastRes = BitVec.ofNat 8 r.1) ∧ (v = true → t = { s with clo := t.clo }) := by
  simp only [State.cloRespond_clo]
  cases v
  · exact ⟨rfl, rfl, rfl, rfl, fun _ => rfl, fun h => absurd h (by decide)⟩
  · exact ⟨rfl, rfl, rfl, rfl, fun h => absurd h (by decide), fun _ => rfl⟩

end

/-! ### The command that is due (R454) -/

section
variable {s : State} {opc : Nat} {f : CloChan → State → State × CloRes}

/-- Channel A's command executes: its effect, then its response. -/
theorem State.cloExec_due (hn : s.clo.nextChan = some false) (hfw : s.clo.nofw = false) (hb : s.clo.chA.area.byte 1 = 0)
    (ho : (s.clo.chA.area.byte 0).toNat = opc) : s.cloExec opc f = (f s.clo.chA s).1.cloRespond false (f s.clo.chA s).2 := by
  simp only [State.cloExec, hn, CloState.chan, Bool.false_eq_true, if_false, ho, ne_eq, not_true_eq_false, hfw, Bool.false_and, Bool.or_self,
    hb]

/-- A reserved byte that is not 0 is BADARG (R12). -/
theorem State.cloExec_reserved (hn : s.clo.nextChan = some false) (hfw : s.clo.nofw = false) (hb : s.clo.chA.area.byte 1 ≠ 0)
    (ho : (s.clo.chA.area.byte 0).toNat = opc) : s.cloExec opc f = s.cloRespond false (3, []) := by
  simp only [State.cloExec, hn, CloState.chan, Bool.false_eq_true, if_false, ho, ne_eq, not_true_eq_false, hfw, Bool.false_and, Bool.or_self,
    hb, not_false_eq_true, if_true]

/-- Channel B may not ask for it. -/
theorem State.cloExec_denied (hn : s.clo.nextChan = some true) (ho : (s.clo.chB.area.byte 0).toNat = opc) (hd : cloOnB opc = false) :
    s.cloExec opc f = s.cloRespond true (4, []) := by
  simp only [State.cloExec, hn, CloState.chan, if_true, ho, ne_eq, not_true_eq_false, if_false, hd, Bool.not_false, Bool.and_self,
    Bool.true_or]

end

/-! ### What the commands answer -/

section
variable {s : State} {b n : Nat} {c : CloChan} {k : CloCap}

theorem State.getrec_found {r : Word × List Byte} (h : s.clo.recs.find? (fun r => r.1.toNat = n) = some r) :
    s.getrec n = (s.modClo fun x => { x with slots := x.slots.set (Fin.ofNat 16 n) r.2 }, 0, []) := by
  simp only [State.getrec, h]

theorem State.getrec_empty (h : s.clo.recs = []) : s.getrec n = (s, 9, []) := by
  simp [State.getrec, h]

theorem State.setparam_sealed (h : s.clo.sealOpen = false) : s.setparam c = (s, 2, []) := if_pos (by rw [h]; rfl)

theorem State.setparam_staged (h : s.clo.sealOpen = true) (hs : cloSize (c.arg 0 4) ≠ 0) (hn : c.arg 8 4 ≤ 240)
    (hl : c.arg 4 4 + c.arg 8 4 ≤ cloSize (c.arg 0 4)) : s.setparam c = (s.modClo fun x => { x with
      staged := SMap.insert (c.arg 0 4) (storeBytes (x.stagedBlock (c.arg 0 4)) (c.arg 4 4) (c.area.read 0x10 (c.arg 8 4))) x.staged }, 0, []) := by
  refine (if_neg (by rw [h]; decide)).trans (if_neg ?_)
  omega

theorem State.commitParam_sealed (h : s.clo.sealOpen = false) : s.commitParam b = (s, 2, []) := if_pos (by rw [h]; rfl)

theorem State.commitParam_last (h : s.clo.sealOpen = true) (he : s.clo.evcnt = 0xFFFFFFFF) : s.commitParam b = (s, 8, []) :=
  (if_neg (by rw [h]; decide)).trans (if_pos he)

/-- What a COMMIT that is taken leaves. -/
theorem State.commitParam_taken (h : s.clo.sealOpen = true) (he : s.clo.evcnt ≠ 0xFFFFFFFF) (hs : cloSize b ≠ 0)
    (hk : blockOk b (s.clo.stagedBlock b) = true) : let t := (s.commitParam b).1
    t.clo.blocks = SMap.insert b (s.clo.stagedBlock b) s.clo.blocks ∧ t.clo.evcnt = s.clo.evcnt + 1 ∧
      t.clo.phash = cloPhash t.clo.blocks ∧ t.clo.audit = (auditBytes (s.clo.evcnt + 1) 1 b s.clo.lastTime
        (sha256 (blockBytes s.clo.blocks b)) (sha256 (s.clo.stagedBlock b)) :: s.clo.audit).take 1024 ∧
      t.evt.incoming = s.evt.incoming ++ [⟨0x8005, 0x72, s.tb.cnt, none, false, false⟩] := by
  have hno : ¬ (cloSize b = 0 ∨ (!blockOk b (s.clo.stagedBlock b)) = true) := by simp [hs, hk]
  have hopen : ¬ (!s.clo.sealOpen) = true := by rw [h]; decide
  simp only [State.commitParam, if_neg hopen, if_neg he, if_neg hno]
  exact ⟨rfl, rfl, rfl, rfl, rfl⟩

theorem State.startCap_busy {kind : Nat} {fits : Bool} (h : s.clo.cap ≠ none) : s.startCap kind fits = (s, 1, []) :=
  if_pos (Option.isSome_iff_ne_none.mpr h)

theorem State.startCap_starts {kind : Nat} (h : s.clo.cap = none) (hv : s.clo.pvalid = true) (hr : kind = 3 ∨ s.clo.refValid = true) :
    s.startCap kind true = ((s.modClo fun x => { x with
      cap := some (s.newCap kind), track := x.track.map fun t => { t with inCap := false } }).tapPorts, 0,
      if kind = 2 then [] else s.clo.toCome) := by
  have hno : ¬ (kind ≠ 3 ∧ (!s.clo.refValid) = true) := by
    rintro ⟨hk, hf⟩
    obtain hr | hr := hr
    · exact hk hr
    · simp [hr] at hf
  simp only [State.startCap, h, hv, Option.isSome_none, Bool.false_eq_true, if_false, Bool.not_true, if_neg hno]
  rfl

theorem State.startCap_no_reference {kind : Nat} (h : s.clo.cap = none) (hv : s.clo.pvalid = true) (hk : kind ≠ 3)
    (hr : s.clo.refValid = false) : s.startCap kind true = (s, 5, []) := by
  simp only [State.startCap, h, hv, Option.isSome_none, Bool.false_eq_true, if_false, Bool.not_true, hr, Bool.not_false, hk, ne_eq,
    not_false_eq_true, and_self, if_true]

theorem State.beltEnd_run {final : Bool} (h : s.clo.cap = some k) (hk : k.kind = 2) :
    s.beltEnd final = (s.beltRecord k final false false, 0, s.clo.toCome) := by
  simp only [State.beltEnd, h, hk, if_true]

theorem State.cloAbort_run (h : s.clo.cap = some k) : s.cloAbort =
    (if k.kind = 2 then s.beltRecord k true false true else s.capCut k true, 0, s.clo.toCome) := by
  simp only [State.cloAbort, h]
  split <;> rfl

theorem State.cloAbort_none (h : s.clo.cap = none) : s.cloAbort = (s, 0, []) := by simp only [State.cloAbort, h]

theorem State.fwload_sealed (h : s.clo.sealOpen = false) : s.fwload c = (s, 2, []) := if_pos (by rw [h]; rfl)

theorem State.fwload_staged (h : s.clo.sealOpen = true) (hn : c.arg 4 4 ≤ 240) (hl : c.arg 0 4 + c.arg 4 4 ≤ 524288) :
    s.fwload c = (s.modClo fun x => { x with fwStage := x.fwStage.write (c.arg 0 4) (c.area.read 0x10 (c.arg 4 4)) }, 0, []) := by
  refine (if_neg (by rw [h]; decide)).trans (if_neg ?_)
  omega

theorem State.fwcommit_sealed {ok : Bool} (h : s.clo.sealOpen = false) : s.fwcommit n ok = (s, 2, []) := if_pos (by rw [h]; rfl)

/-- What an FWCOMMIT that is taken leaves, before Cloche restarts. -/
theorem State.fwcommit_taken {ok : Bool} (h : s.clo.sealOpen = true) (he : s.clo.evcnt ≠ 0xFFFFFFFF) (h0 : 0 < n) (hn : n ≤ 524288)
    (hi : Config.cloImageOk (s.clo.fwStage.read 0 n) = true) : let t := (s.fwcommit n ok).1
    t.clo.image = some (s.clo.fwStage.read 0 n) ∧ t.clo.imageBad = !ok ∧ t.clo.evcnt = s.clo.evcnt + 1 := by
  have hopen : ¬ (!s.clo.sealOpen) = true := by rw [h]; decide
  have hlen : ¬ (n = 0 ∨ 524288 < n) := by omega
  have himg : ¬ (!Config.cloImageOk (s.clo.fwStage.read 0 n)) = true := by rw [hi]; decide
  simp only [State.fwcommit, if_neg hopen, if_neg he, if_neg hlen, if_neg himg]
  exact ⟨rfl, rfl, rfl⟩

end

/-! ### The obligation -/

section
variable {s : State}

/-- A capture that starts on a command of channel A. -/
theorem State.startCap_cap {kind : Nat} {fits : Bool} (hf : fits = true) (h : s.clo.cap = none) (hv : s.clo.pvalid = true)
    (hr : kind = 3 ∨ s.clo.refValid = true) :
    ((s.startCap kind fits).1.cloRespond false (s.startCap kind fits).2).clo.cap = some (s.newCap kind) := by
  rw [State.cloRespond_clo, hf, State.startCap_starts h hv hr]
  rfl

/-- The EVCNT of a taken FWCOMMIT is a new one, so Cloche restarts with its image. -/
theorem State.fwcommitAll_taken {n : Nat} {ok : Bool} (hn : s.clo.nextChan = some false) (hfw : s.clo.nofw = false)
    (hb : s.clo.chA.area.byte 1 = 0) (ho : (s.clo.chA.area.byte 0).toNat = 0x11) (hlen : s.clo.chA.arg 0 4 = n)
    (h : s.clo.sealOpen = true) (he : s.clo.evcnt ≠ 0xFFFFFFFF) (h0 : 0 < n) (hmax : n ≤ 524288)
    (hi : Config.cloImageOk (s.clo.fwStage.read 0 n) = true) : let t := s.fwcommitAll ok
    t.clo.image = some (s.clo.fwStage.read 0 n) ∧ t.clo.imageBad = !ok ∧ t.clo.evcnt = s.clo.evcnt + 1 ∧ t.clo.cap = none := by
  obtain ⟨himg, hbad, hev⟩ := State.fwcommit_taken (ok := ok) h he h0 hmax hi
  have hne : s.clo.evcnt + 1 ≠ s.clo.evcnt := by bv_omega
  have hres : ((s.fwcommit n ok).1.cloRespond false (s.fwcommit n ok).2).clo.evcnt = s.clo.evcnt + 1 := by
    rw [State.cloRespond_clo]
    exact hev
  have hstart : s.fwcommitAll ok = ((s.fwcommit n ok).1.cloRespond false (s.fwcommit n ok).2).cloStart false false := by
    simp only [State.fwcommitAll, State.cloExec_due hn hfw hb ho, hlen, hres, if_neg hne]
  simp only [hstart, State.cloStart_clo, State.cloRespond_clo]
  exact ⟨himg, hbad, hev, rfl⟩

/-- With the seal closed FWCOMMIT answers SEALED, and Cloche does not restart. -/
theorem State.fwcommitAll_sealed {ok : Bool} (hn : s.clo.nextChan = some false) (hfw : s.clo.nofw = false)
    (hb : s.clo.chA.area.byte 1 = 0) (ho : (s.clo.chA.area.byte 0).toNat = 0x11) (h : s.clo.sealOpen = false) :
    s.fwcommitAll ok = s.cloRespond false (2, []) := by
  have hev : (s.cloRespond false (2, [])).clo.evcnt = s.clo.evcnt := by
    rw [State.cloRespond_clo]
    rfl
  simp only [State.fwcommitAll, State.cloExec_due hn hfw hb ho, State.fwcommit_sealed h, hev, if_true]

end

/-- Settles O46: each command of channel A by what `cloExec` makes of its effect, and the response by `cloRespond_spec`. -/
theorem clocheCommands : Obligations.ClocheCommands := by
  unfold Obligations.ClocheCommands
  refine ⟨fun s i opc hn hfw hb ho hi => ?_, fun s hn hfw hb => ?_⟩
  · have due (f) : (Host.Outcome.next (s.cloExec opc f) : Answer) = .next (s.cloRespond false (3, [])) :=
      congrArg Host.Outcome.next (State.cloExec_reserved hn hfw hb ho)
    simp only [List.mem_cons, Prod.mk.injEq, List.not_mem_nil, or_false] at hi
    obtain ⟨rfl, rfl⟩ | ⟨rfl, rfl⟩ | ⟨rfl, rfl⟩ | ⟨rfl, rfl⟩ | ⟨rfl, rfl⟩ | ⟨rfl, rfl⟩ | ⟨rfl, rfl⟩ | ⟨rfl, rfl⟩ | ⟨rfl, rfl⟩ | ⟨rfl, rfl⟩ |
      ⟨rfl, rfl⟩ | ⟨rfl, rfl⟩ | ⟨rfl, rfl⟩ | ⟨rfl, rfl⟩ | ⟨rfl, rfl⟩ | ⟨rfl, rfl⟩ | ⟨rfl, rfl⟩ := hi <;> exact due _
  have due {opc : Nat} {f : CloChan → State → State × CloRes} {t : State} {r : CloRes} (ho : (s.clo.chA.area.byte 0).toNat = opc)
      (hr : f s.clo.chA s = (t, r)) : (Host.Outcome.next (s.cloExec opc f) : Answer) = .next (t.cloRespond false r) := by
    rw [State.cloExec_due hn hfw hb ho, hr]
  refine ⟨fun h => due h rfl, fun h => due h rfl, fun h => due h rfl, fun h => due h rfl, fun h => due h rfl,
    fun r h hr => due h (State.getrec_found hr), fun h hr => due h (State.getrec_empty hr), fun hs => ?sealed,
    fun hs h h0 hn hl => due h (State.setparam_staged hs h0 hn hl), fun hs h he h0 hk => ?commit,
    fun hs h he => due h (State.commitParam_last hs he), fun hc => ?busy, ?zero, ?measure, ?belt, ?noReference, fun k hc hk => ?run,
    fun k hc hk h => ?abort, fun hc h => due h (State.cloAbort_none hc), fun h hok => ?setexp, fun h hok => ?badRange, fun h => due h rfl,
    fun hs h hn hl => due h (State.fwload_staged hs hn hl), fun ok hs h he h0 hl hi => ?fwcommit, ?denied,
    fun u v r => State.cloRespond_spec u v r⟩
  case sealed =>
    exact ⟨fun h => due h (State.setparam_sealed hs), fun h => due h (State.commitParam_sealed hs), fun h => due h (State.fwload_sealed hs),
      fun ok h => congrArg Host.Outcome.next (State.fwcommitAll_sealed hn hfw hb h hs)⟩
  case commit =>
    obtain ⟨hblocks, hev, hph, haud, hpost⟩ := State.commitParam_taken hs he h0 hk
    refine ⟨_, due h rfl, ?_⟩
    simp only [State.cloRespond_clo, State.cloRespond_evt]
    exact ⟨hblocks, hev, hph, haud, hpost⟩
  case busy =>
    exact ⟨fun h => due h (State.startCap_busy hc), fun h => due h (State.startCap_busy hc), fun h => due h (State.startCap_busy hc)⟩
  case zero => exact fun hc hv h => ⟨_, due h rfl, State.startCap_cap rfl hc hv (Or.inl rfl)⟩
  case measure =>
    exact fun hc hv hr hb h => ⟨_, due h rfl, State.startCap_cap (by rw [hb]; rfl) hc hv (Or.inr hr)⟩
  case belt => exact fun hc hv hr hb h => ⟨_, due h rfl, State.startCap_cap hb hc hv (Or.inr hr)⟩
  case noReference =>
    intro hc hv hr hb h
    refine due h ?_
    rw [hb]
    exact State.startCap_no_reference hc hv (by decide) hr
  case run =>
    refine ⟨fun h => due h (State.beltEnd_run hc hk), fun h => due h (State.beltEnd_run hc hk), fun h => due h ?_⟩
    rw [State.cloAbort_run hc, if_pos hk]
  case abort =>
    refine due h ?_
    rw [State.cloAbort_run hc, if_neg hk]
  case setexp =>
    refine ⟨_, due h (if_pos hok), ?_, ?_⟩
    · simp [State.cloRespond_dma]
    · rw [State.cloRespond_clo]
      rfl
  case badRange => exact due h (if_neg (by rw [hok]; decide))
  case fwcommit => exact ⟨_, rfl, State.fwcommitAll_taken hn hfw hb h rfl hs he h0 hl hi⟩
  case denied =>
    rintro u d hu rfl ho
    exact congrArg Host.Outcome.next (State.cloExec_denied hu ho rfl)

end Sys2Proof.Machine
end

/-! The proofs: the mailbox's channels. -/

section
namespace Sys2Proof.Machine

/-! ### The mailbox answers (R476, R480) -/

section
variable {s : State} {b : Bool} {r : MbxReq} {x : MbxRes}

/-- The module but for the queues and responses of Crown's mailbox and the events posted. -/
def State.unmailed (s : State) : State :=
  { s with
    crn := { s.crn with
      pcie := { s.crn.pcie with queue := [] }, smb := { s.crn.smb with queue := [] }, tokSmb := false, rspRing := [], rwidx := 0,
      smbRsp := [] }
    evt := { s.evt with incoming := [] } }

theorem State.answer_unmailed : (s.answer b r x).unmailed = s.unmailed := by
  cases b <;>
    simp only [State.answer, State.respond, State.modMbx, State.modCrn, CrnState.setChan, CrnState.chan, State.unmailed, State.post,
      State.postPart, State.postFull, if_true, if_false, Bool.false_eq_true]

theorem State.answer_incoming : s.evt.incoming <+: (s.answer b r x).evt.incoming := by
  cases b
  · exact List.prefix_append ..
  · exact List.prefix_refl _

theorem State.mbxFlush_unmailed (n : Nat) (s : State) : (State.mbxFlush n s).unmailed = s.unmailed := by
  induction n generalizing s with
  | zero => rfl
  | succ n ih =>
    unfold State.mbxFlush
    split
    · rfl
    · split
      · rfl
      · exact (ih _).trans State.answer_unmailed

theorem State.mbxFlush_incoming (n : Nat) (s : State) : s.evt.incoming <+: (State.mbxFlush n s).evt.incoming := by
  induction n generalizing s with
  | zero => exact List.prefix_refl _
  | succ n ih =>
    unfold State.mbxFlush
    split
    · exact List.prefix_refl _
    · split
      · exact List.prefix_refl _
      · exact State.answer_incoming.trans (ih _)

theorem State.mbxSettle_unmailed : s.mbxSettle.unmailed = s.unmailed := by
  unfold State.mbxSettle
  split
  · exact State.mbxFlush_unmailed ..
  · rfl

theorem State.mbxSettle_incoming : s.evt.incoming <+: s.mbxSettle.evt.incoming := by
  unfold State.mbxSettle
  split
  · exact State.mbxFlush_incoming ..
  · exact List.prefix_refl _

/-- What a response on the PCIe channel leaves. -/
theorem State.answer_pcie {p : MbxReq} {ps : List MbxReq} (hq : s.crn.pcie.queue = p :: ps) : let t := s.answer false p x
    t.crn.pcie.queue = ps ∧ t.crn.tokSmb = true ∧ t.crn.rwidx = s.crn.rwidx + 1 ∧
      t.crn.rspRing = SMap.insert (s.crn.rwidx.toNat % 64) ⟨p.opc, p.tag, BitVec.ofNat 8 x.1, x.2⟩ s.crn.rspRing ∧
      t.evt.incoming = s.evt.incoming ++ [⟨0xA010, 0xC1, s.tb.cnt, none, false, false⟩] :=
  ⟨(congrArg (List.drop 1) hq).trans rfl, rfl, rfl, rfl, rfl⟩

end

/-! ### Which request is executed (R478) -/

section
variable {s : State} {b : Bool} {r : MbxReq} {opc : Nat} {f : Bool → MbxReq → State → State × MbxRes}

theorem State.mbxSettle_held (h : s.serves .requests = false) : s.mbxSettle = s := if_neg (by simp [h])

theorem State.mbxSettle_off (h : s.mbxServes = false) : s.mbxSettle = s := if_neg (by simp [h])

theorem State.mbxSettle_empty (h : s.crn.nextReq = none) : s.mbxSettle = s := by
  unfold State.mbxSettle
  split
  · simp only [State.mbxFlush, h]
  · rfl

/-- A known opcode at the front stays. -/
theorem State.mbxSettle_known (h : s.crn.nextReq = some (b, r)) (hk : mbxOpcodes.contains r.opc.toNat = true) : s.mbxSettle = s := by
  unfold State.mbxSettle
  split
  · simp only [State.mbxFlush, h, hk, if_true]
  · rfl

/-- No request is executed while Crown does not serve the mailbox, a higher class is ready, or none waits. -/
theorem State.mbxExec_none (h : s.mbxServes = false ∨ s.serves .requests = false ∨ s.crn.nextReq = none) : s.mbxExec opc f = s := by
  have hs : s.mbxSettle = s := by
    obtain h | h | h := h
    · exact State.mbxSettle_off h
    · exact State.mbxSettle_held h
    · exact State.mbxSettle_empty h
  simp only [State.mbxExec, hs]
  split
  · rfl
  · next hserve =>
    obtain h | h | h := h
    · simp [h] at hserve
    · simp [h] at hserve
    · rw [h]

/-- The request that is due executes. -/
theorem State.mbxExec_due (hm : s.mbxServes = true) (hc : s.serves .requests = true) (hn : s.crn.nextReq = some (b, r))
    (ho : r.opc.toNat = opc) (hk : mbxOpcodes.contains opc = true) (ha : s.mbxAllowed b opc = true) :
    s.mbxExec opc f = ((f b r s).1.answer b r (f b r s).2).mbxSettle := by
  subst ho
  simp only [State.mbxExec, State.mbxSettle_known hn hk, hm, hc, hn, ha, Bool.not_true, Bool.or_self, Bool.false_eq_true, if_false,
    ne_eq, not_true_eq_false]

/-- A request that the channel or the state does not permit is answered NOTALLOWED. -/
theorem State.mbxExec_denied (hm : s.mbxServes = true) (hc : s.serves .requests = true) (hn : s.crn.nextReq = some (b, r))
    (ho : r.opc.toNat = opc) (hk : mbxOpcodes.contains opc = true) (ha : s.mbxAllowed b opc = false) :
    s.mbxExec opc f = (s.answer b r (3, [])).mbxSettle := by
  subst ho
  simp only [State.mbxExec, State.mbxSettle_known hn hk, hm, hc, hn, ha, Bool.not_true, Bool.not_false, Bool.or_self, Bool.false_eq_true,
    if_false, if_true, ne_eq, not_true_eq_false]

/-- A command under another opcode than that of the request at the front waits. -/
theorem State.mbxExec_other (hn : s.crn.nextReq = some (b, r)) (hk : mbxOpcodes.contains r.opc.toNat = true) (ho : r.opc.toNat ≠ opc) :
    s.mbxExec opc f = s := by
  simp only [State.mbxExec, State.mbxSettle_known hn hk, hn, if_pos ho, ite_self]

end

/-! ### Submission (R476, R480) -/

section
variable {s : State} {data : List Byte}

/-- A whole MBX_REQ written by host PF0 submits a request. -/
theorem State.mbxWrite_whole (hm : s.pwr.mode = .run) (hd : data.length = 256) :
    s.mbxWrite 0x60 0 data =
      let m := s.crn.reqArea.write 0 data
      let res := if reqBad m then 2 else if 32 ≤ s.crn.outstanding then 1 else 0
      let t : State := { s with crn := { s.crn with
        reqArea := m, lastTag := (reqOf m).tag, lastRes := res, busyN := if res = 1 then satAdd 0xFFFF s.crn.busyN 1 else s.crn.busyN } }
      if res = 0 then (t.modMbx false fun q => { q with queue := q.queue ++ [reqOf m] }).mbxSettle else t := by
  have hini : ¬ ((0x60 : Ini) ≠ 0x60 ∨ s.pwr.mode ≠ .run) := by simp [hm]
  simp only [State.mbxWrite, if_neg hini, hd, show (!covers 0 256 0xFC 0xFF) = false from rfl, Bool.false_eq_true, if_false]
  rfl

end

/-- Settles O48: each clause by the lemma of the branch that its premises choose. -/
theorem mailboxChannels : Obligations.MailboxChannels := by
  unfold Obligations.MailboxChannels
  intro s hm
  refine ⟨fun data hd => ?submit, fun ini off data hb hi => ?notHost, fun ok code data hl h => ?notTaken, fun data h8 hl => ?block,
    fun x rest h => ?read, fun h => ?readNone, fun p ps q qs hp hq => ?both, fun p ps hp hq => ?pcieOnly,
    fun p ps x hn hq => State.answer_pcie hq, fun h => ?noRequest, fun h => ?rom, fun h => ?held, fun hr h => ?above, fun r hr hc hn ho => ?smbus,
    fun b r hr hn ho => ?recovery, fun r hr hn hk ho => ?other⟩
  case submit =>
    have hin : bytesIn 0 data 256 = true := by simp [bytesIn, hd]
    have hexec : exec (.mbxSubmit pf0 0 data) s = .next (s.mbxWrite 0x60 0 data) := inRange_of_ok hin
    refine ⟨fun hbad => ?_, fun hok hfull => ?_, fun hok hroom => ?_⟩
    · rw [hexec, State.mbxWrite_whole hm hd]
      simp only [hbad, if_true]
      rfl
    · rw [hexec, State.mbxWrite_whole hm hd]
      simp only [hok, Bool.false_eq_true, if_false, hfull, if_true]
      rfl
    · rw [hexec, State.mbxWrite_whole hm hd]
      simp only [hok, Bool.false_eq_true, if_false, Nat.not_le.mpr hroom, if_true]
      rfl
  case notHost =>
    have hini : ini.val ≠ 0x60 ∨ s.pwr.mode ≠ .run := Or.inl hi
    exact (inRange_of_ok hb).trans (congrArg Host.Outcome.next (if_pos hini))
  case notTaken =>
    refine (inRange_of_ok (decide_eq_true hl)).trans (congrArg Host.Outcome.next (if_pos ?_))
    obtain h | h | h := h
    · rw [h]
      rfl
    · simp only [decide_eq_true h, Bool.or_true, Bool.true_or]
    · simp only [decide_eq_true h, Bool.or_true, Bool.true_or]
  case block =>
    have htaken : ¬ ((!true || decide ((1 : Byte) ≠ 1) || decide (data.length < 8) || decide (s.pwr.mode ≠ .run)) = true) := by
      simp [hm, h8]
    have hexec := (inRange_of_ok (s := s) (t := s.smbusWrite true 1 data) (decide_eq_true hl)).trans
      (congrArg Host.Outcome.next (if_neg htaken))
    refine ⟨fun hfull => hexec.trans (congrArg Host.Outcome.next (if_pos hfull)), fun hroom hbad => ?_, fun hroom h252 hlen hres => ?_⟩
    · refine hexec.trans (congrArg Host.Outcome.next ((if_neg (Nat.not_le.mpr hroom)).trans (if_pos ?_)))
      obtain h | h | h := hbad <;> simp [h]
    · refine hexec.trans (congrArg Host.Outcome.next ((if_neg (Nat.not_le.mpr hroom)).trans (if_neg ?_)))
      simp [Nat.not_lt.mpr h252, hlen, hres]
  case read =>
    refine congrArg Host.Outcome.next ((if_pos hm).trans ?_)
    simp only [State.smbusRead, h]
    rfl
  case readNone =>
    refine congrArg Host.Outcome.next ((if_pos hm).trans ?_)
    simp only [State.smbusRead, h]
  case both => simp only [CrnState.nextReq, hp, hq]
  case pcieOnly => simp only [CrnState.nextReq, hp, hq]
  case noRequest =>
    have hnone {opc f} : s.mbxExec opc f = s := State.mbxExec_none (Or.inr (Or.inr h))
    exact ⟨congrArg Host.Outcome.next hnone, congrArg Host.Outcome.next hnone, congrArg Host.Outcome.next hnone⟩
  case rom => exact congrArg Host.Outcome.next (State.mbxExec_none (Or.inl (by simp [State.mbxServes, h])))
  case held =>
    have hnone {opc f} : s.mbxExec opc f = s := State.mbxExec_none (Or.inr (Or.inl h))
    exact ⟨congrArg Host.Outcome.next hnone, congrArg Host.Outcome.next hnone, congrArg Host.Outcome.next hnone⟩
  case above =>
    have hruns : s.crownRuns = true := by simp [State.crownRuns, hr, hm]
    obtain h | h := h <;> simp [State.serves, hruns, CrnClass.above, State.classReady, h]
  case smbus =>
    have hmbx : s.mbxServes = true := by simp [State.mbxServes, hr, hm]
    refine congrArg Host.Outcome.next (State.mbxExec_denied hmbx hc hn (by rw [ho]; rfl) rfl ?_)
    rfl
  case recovery =>
    have hmbx : s.mbxServes = true := by simp [State.mbxServes, hr, hm]
    have hc : s.serves .requests = true := by simp [State.serves, State.crownRuns, hr]
    have ha : s.mbxAllowed b 3 = false := by simp [State.mbxAllowed, hr, mbxRecovery]
    exact congrArg Host.Outcome.next (State.mbxExec_denied hmbx hc hn (by rw [ho]; rfl) rfl ha)
  case other =>
    refine congrArg Host.Outcome.next (State.mbxExec_other hn hk fun h => ho ?_)
    exact BitVec.eq_of_toNat_eq h

end Sys2Proof.Machine
end

/-! The proofs: the mailbox commands. -/

section
namespace Sys2Proof.Machine

/-! ### The commands' effects (R467 to R475, R478, R479, R481) -/

section
variable {s t : State} {b : Bool} {r : MbxReq} {opc n : Nat} {x : MbxRes} {f : Bool → MbxReq → State → State × MbxRes}

/-- The request that is due and permitted is answered with what its command makes of it. -/
theorem State.mbxExec_reply (hm : s.mbxServes = true) (hc : s.serves .requests = true) (hn : s.crn.nextReq = some (b, r))
    (ha : s.mbxAllowed b r.opc.toNat = true) (ho : r.opc.toNat = opc) (hk : mbxOpcodes.contains opc = true) (hf : f b r s = (t, x)) :
    (Host.Outcome.next (s.mbxExec opc f) : Answer) = .next (t.answer b r x).mbxSettle := by
  rw [State.mbxExec_due hm hc hn ho hk (ho ▸ ha), hf]

theorem MbxReq.sized_exact {y : State × MbxRes} (h : r.data.length = n) : r.sized n s y = y := if_pos h

theorem MbxReq.sized_other {y : State × MbxRes} (h : r.data.length ≠ n) : r.sized n s y = (s, 2, []) := if_neg h

theorem State.bufRead_held (ht : (s.crn.chan b).resTag = some (BitVec.ofNat 16 (r.num 0 2))) (hn : r.num 4 2 ≤ 240)
    (hl : r.num 2 2 + r.num 4 2 ≤ 4096) : s.bufRead b r = (s, 0, (s.crn.chan b).result.read (r.num 2 2) (r.num 4 2)) :=
  (if_neg (not_not_intro ht)).trans (if_neg (by omega))

theorem State.bufRead_gone (ht : (s.crn.chan b).resTag ≠ some (BitVec.ofNat 16 (r.num 0 2))) : s.bufRead b r = (s, 7, []) := if_pos ht

theorem State.bufWrite_fits (h2 : 2 ≤ r.data.length) (hl : r.num 0 2 + (r.data.length - 2) ≤ 4096) : s.bufWrite b r =
    (s.modMbx b fun q => { q with input := q.input.write (r.num 0 2) (r.data.drop 2) }, 0, []) := if_neg (by omega)

/-- FW_UPDATE on an image that DDR gives up. -/
theorem State.fwUpdate_read {bs : List Byte} (hu : s.crn.update = none) (hn : r.num 8 4 ≤ 4194304)
    (hi : s.ddr.insideFor [50] (r.num 0 8) (r.num 8 4) = true) (hd : s.ddrRead .crown (r.num 0 8) (r.num 8 4) = (s, some bs)) :
    s.fwUpdate r = match imgFault bs s.crn.minSvn with
      | some e => (s, e, [])
      | none => ((s.postPart 0x9010 0x70 none).writeAllRepairs.modCrn fun c => { c with update := some (bs.take (imgLen bs + 384)) }, 0, []) := by
  have hok : ¬ ((!s.ddr.insideFor [50] (r.num 0 8) (r.num 8 4) || decide (4194304 < r.num 8 4)) = true) := by
    simp [hi, Nat.not_lt.mpr hn]
  simp only [State.fwUpdate, hu, Option.isSome_none, Bool.false_eq_true, if_false, if_neg hok, hd]
  rfl

theorem State.fwUpdate_busy (hu : s.crn.update ≠ none) : s.fwUpdate r = (s, 9, []) := if_pos (Option.isSome_iff_ne_none.mpr hu)

theorem State.fwStatus_idle (hu : s.crn.update = none) : s.fwStatus =
    (s, 0, leBytes 1 s.crn.code ++ leBytes 4 (match s.crn.image with | some bs => bs.length | none => 0) ++ [s.crn.fwRes]) := by
  simp only [State.fwStatus, hu] <;> rfl

theorem State.recoverLoad_fits (h4 : 4 ≤ r.data.length) (hl : r.data.length ≤ 244) (hn : r.num 0 4 + (r.data.length - 4) ≤ 4194304) :
    s.recoverLoad r = (s.modCrn fun c => { c with staging := c.staging.write (r.num 0 4) (r.data.drop 4) }, 0, []) :=
  if_neg (by omega)

/-- RECOVER_COMMIT of an image without fault. -/
theorem State.recoverCommit_sound {ok : Bool} {e : StartEnv} (hn : r.num 0 4 ≤ 4194304)
    (hi : imgFault (s.crn.staging.read 0 (r.num 0 4)) s.crn.minSvn = none) : s.recoverCommit r ok e =
      if ok then (s.commitImage (s.crn.staging.read 0 (r.num 0 4)) e, 0, []) else (s.modCrn fun c => { c with imageBad := true }, 0x0A, []) := by
  simp only [State.recoverCommit, if_neg (Nat.not_lt.mpr hn), hi]

theorem State.calRead_short {bs : List Byte} (hi : r.num 0 2 < 0x60) (hb : s.calItem (r.num 0 2) = some bs) (hl : bs.length ≤ 240) :
    s.calRead b r = (s, 0, bs) := by
  have hclo : ¬ (0x60 ≤ r.num 0 2 ∧ ((!s.clo.on) = true ∨ s.clo.nofw = true)) := fun h => by omega
  simp only [State.calRead, if_neg hclo, hb, if_pos hl]

theorem State.calWrite_refused {ok : Bool} {e : Nat} (h2 : 2 ≤ r.data.length) (he : calRefusal (r.num 0 2) (r.data.drop 2) = some e) :
    s.calWrite r ok = (s, e, []) := by
  simp only [State.calWrite, if_neg (Nat.not_lt.mpr h2), he]

theorem State.calWrite_stored (h2 : 2 ≤ r.data.length) (he : calRefusal (r.num 0 2) (r.data.drop 2) = none) (hi : r.num 0 2 < 0x40) :
    s.calWrite r true = ((s.modCrn fun c => { c with userCal := SMap.insert (r.num 0 2) (r.data.drop 2) c.userCal }).postPart
      0x9030 0x70 none, 0, []) := by
  have hext : between 0x40 (r.num 0 2) 0x4F = false := by simp [between, Nat.not_le.mpr hi]
  simp only [State.calWrite, if_neg (Nat.not_lt.mpr h2), he, Bool.not_true, Bool.false_eq_true, if_false, hext]
  rfl

theorem State.cfgRead_item (hi : r.num 0 2 < 30) : s.cfgRead r =
    (s, 0, leBytes 1 (ofBool (s.crn.stored.find? fun e => e.1 = r.num 0 2).isSome) ++
      leBytes 16 (match s.crn.stored.find? fun e => e.1 = r.num 0 2 with | some e => e.2.toNat | none => 0) ++
      leBytes 16 (s.cfgCurrent (r.num 0 2)).toNat) := (if_neg (Nat.not_le.mpr hi)).trans rfl

/-- CFG_WRITE with STORE alone. -/
theorem State.cfgWrite_store {ok : Bool} (hf : r.num 18 1 = 2) (hv : cfgValid (r.num 0 2) (BitVec.ofNat 128 (r.num 2 16)) = true) :
    s.cfgWrite r ok = if ok then ((s.modCrn fun c => { c with
      stored := SMap.insert (r.num 0 2) (BitVec.ofNat 128 (r.num 2 16)) c.stored }).postPart 0x9031 0x70 none, 0, [])
      else (s, 0x0A, []) := by
  have h0 : Nat.testBit 2 0 = false := by decide
  have h1 : Nat.testBit 2 1 = true := by decide
  have hok : ¬ (4 ≤ 2 ∨ (!cfgValid (r.num 0 2) (BitVec.ofNat 128 (r.num 2 16))) = true) := by simp [hv]
  simp only [State.cfgWrite, hf, if_neg hok, h0, h1, Bool.false_eq_true, if_false, ne_eq, not_true_eq_false, Bool.true_and, if_true]
  cases ok <;> rfl

/-- TELEM_CFG of a ring of 1,024 records. -/
theorem State.telemCfg_placed (hn : r.num 8 4 = 1024) (hi : s.ddr.insideFor [50, 51] (r.num 0 8) 131072 = true) :
    s.telemCfg r = (s.modCrn fun c => { c with ring := some ⟨r.num 0 8, 1024⟩ }, 0, []) := by
  have hlog : 2 ^ Nat.log2 1024 = 1024 := by decide
  have hok : ¬ ((!between 64 1024 65536 || decide (2 ^ Nat.log2 1024 ≠ 1024) || !s.ddr.insideFor [50, 51] (r.num 0 8) (128 * 1024)) = true) := by
    simp [between, hlog, hi]
  simp only [State.telemCfg, hn, if_neg hok]

theorem State.tokenOk_refused (h : s.armed = true ∨ s.chalValid = false) : s.tokenOk = false := by
  obtain h | h := h <;> simp [State.tokenOk, h]

theorem State.writeRepair_crn (s : State) (x : RepairRec) : (s.writeRepair x).crn = s.crn ∧ (s.writeRepair x).tb = s.tb := by
  unfold State.writeRepair
  split <;> exact ⟨rfl, rfl⟩

/-- Repair records go to the FLT block: Crown's own state and the time base stay. -/
theorem State.writeAllRepairs_crn (s : State) : s.writeAllRepairs.crn = s.crn ∧ s.writeAllRepairs.tb = s.tb := by
  have hfold (rs : List RepairRec) : ∀ t : State, (rs.foldl State.writeRepair t).crn = t.crn ∧ (rs.foldl State.writeRepair t).tb = t.tb := by
    induction rs with
    | nil => exact fun t => ⟨rfl, rfl⟩
    | cons x rs ih =>
      intro t
      obtain ⟨hcrn, htb⟩ := t.writeRepair_crn x
      obtain ⟨hcrn', htb'⟩ := ih (t.writeRepair x)
      exact ⟨hcrn'.trans hcrn, htb'.trans htb⟩
  exact hfold _ _

/-- The end of a flash write (R468). -/
theorem State.fwWritten_ends {ok : Bool} {bs : List Byte} (hu : s.crn.update = some bs) : let t := s.fwWritten ok
    t.crn.update = none ∧ t.crn.image = some bs ∧ t.crn.imageBad = !ok ∧ t.crn.running = s.crn.running ∧
      ∃ m, t.evt.incoming = m ++ [⟨if ok then 0x9011 else 0x9012, 0x70, s.tb.cnt, none, false, false⟩] := by
  obtain ⟨hcrn, htb⟩ := State.writeAllRepairs_crn (s.modCrn fun c => { c with
    update := none, image := some bs, imageBad := !ok, fwRes := if ok then 0 else 0x0A })
  simp only [State.fwWritten, hu, State.crnPost, State.postPart, State.postFull, hcrn, htb]
  cases ok <;> exact ⟨rfl, rfl, rfl, rfl, _, rfl⟩

/-- DBG_CHAL leaves a challenge of 32 bytes given now, which no answer touches. -/
theorem State.dbgChal_given : ∃ x, ((s.dbgChal.1.answer b r s.dbgChal.2).mbxSettle).crn.chal = some x ∧ x.cnt = s.tb.cnt ∧
    x.bytes.length = 32 := by
  have hmail := (State.mbxSettle_unmailed (s := s.dbgChal.1.answer b r s.dbgChal.2)).trans State.answer_unmailed
  have hkeep := congrArg (fun u : State => u.crn.chal) hmail
  exact ⟨_, hkeep, rfl, by simp [State.drawBytes]⟩

end

/-- Settles O49: each command's effect by its lemma, answered by `mbxExec_reply`. -/
theorem mailboxCommands : Obligations.MailboxCommands := by
  unfold Obligations.MailboxCommands
  intro s b r hm hc hn ha
  have due {opc : Nat} {f : Bool → MbxReq → State → State × MbxRes} {t : State} {x : MbxRes} (ho : r.opc.toNat = opc)
      (hk : mbxOpcodes.contains opc = true) (hf : f b r s = (t, x)) :
      (Host.Outcome.next (s.mbxExec opc f) : Answer) = .next (t.answer b r x).mbxSettle := State.mbxExec_reply hm hc hn ha ho hk hf
  have opcode {n : BitVec 16} (h : r.opc = n) : r.opc.toNat = n.toNat := congrArg BitVec.toNat h
  refine ⟨fun h => due h.1 rfl (MbxReq.sized_exact h.2), fun h => due h.1 rfl (MbxReq.sized_exact h.2),
    fun h => due h.1 rfl (MbxReq.sized_exact h.2), fun h hl => due (opcode h) rfl (MbxReq.sized_other hl),
    fun h ht hl hmax => due h.1 rfl ((MbxReq.sized_exact h.2).trans (State.bufRead_held ht hl hmax)),
    fun h ht => due h.1 rfl ((MbxReq.sized_exact h.2).trans (State.bufRead_gone ht)),
    fun h h2 hl => due (opcode h) rfl (State.bufWrite_fits h2 hl), fun bs h hu hl hi hd => ⟨fun hok => ?update, fun e hbad => ?badImage⟩,
    fun h hu => due h.1 rfl ((MbxReq.sized_exact h.2).trans (State.fwUpdate_busy hu)),
    fun bs ok hu => ⟨_, rfl, State.fwWritten_ends hu⟩,
    fun h hu => due h.1 rfl ((MbxReq.sized_exact h.2).trans (State.fwStatus_idle hu)),
    fun h h4 hl hmax => due (opcode h) rfl (State.recoverLoad_fits h4 hl hmax), fun e h hl hi => ⟨?flashBad, ?flashOk⟩,
    fun bs h hi hb hl => due h.1 rfl ((MbxReq.sized_exact h.2).trans (State.calRead_short hi hb hl)),
    fun h h2 he hi => due (opcode h) rfl (State.calWrite_stored h2 he hi),
    fun e ok h h2 he => due (opcode h) rfl (State.calWrite_refused h2 he),
    fun h hi => due h.1 rfl ((MbxReq.sized_exact h.2).trans (State.cfgRead_item hi)), fun h hf hv => ⟨?store, ?storeFails⟩,
    fun h hl hi => due h.1 rfl ((MbxReq.sized_exact h.2).trans (State.telemCfg_placed hl hi)), fun h hne => ?last, fun h he => ?noLast,
    fun h hl => due h.1 rfl (MbxReq.sized_exact h.2), fun h hl => ?origin, fun h => ?challenge, fun h ht => ?tokenBad, fun h ht => ?tokenGood,
    State.tokenOk_refused⟩
  case update =>
    refine due h.1 rfl ((MbxReq.sized_exact h.2).trans ((State.fwUpdate_read hu hl hi hd).trans ?_))
    rw [hok]
  case badImage =>
    refine due h.1 rfl ((MbxReq.sized_exact h.2).trans ((State.fwUpdate_read hu hl hi hd).trans ?_))
    rw [hbad]
  case flashBad => exact due h.1 rfl ((MbxReq.sized_exact h.2).trans (State.recoverCommit_sound hl hi))
  case flashOk => exact due h.1 rfl ((MbxReq.sized_exact h.2).trans (State.recoverCommit_sound hl hi))
  case store => exact due h.1 rfl ((MbxReq.sized_exact h.2).trans (State.cfgWrite_store hf hv))
  case storeFails => exact due h.1 rfl ((MbxReq.sized_exact h.2).trans (State.cfgWrite_store hf hv))
  case last =>
    have hfull : ¬ s.crn.newest.isEmpty = true := by simpa using hne
    exact due h.1 rfl ((MbxReq.sized_exact h.2).trans (if_neg hfull))
  case noLast =>
    have hempty : s.crn.newest.isEmpty = true := by simpa using he
    exact due h.1 rfl ((MbxReq.sized_exact h.2).trans (if_pos hempty))
  case origin => exact due h.1 rfl ((MbxReq.sized_exact h.2).trans (if_neg (Nat.not_lt.mpr hl)))
  case challenge => exact ⟨_, due h.1 rfl (MbxReq.sized_exact h.2), State.dbgChal_given⟩
  case tokenBad =>
    refine due h.1 rfl ((MbxReq.sized_exact h.2).trans ?_)
    simp only [State.dbgUnlock, ht]
    rfl
  case tokenGood =>
    refine due h.1 rfl ((MbxReq.sized_exact h.2).trans ?_)
    simp only [State.dbgUnlock, ht]
    rfl

end Sys2Proof.Machine
end

/-! The proofs: power and temperature. -/

section
namespace Sys2Proof.Machine

/-! ### Points in a word (R510) -/

section
variable {n lo len o k v : Nat} {w : BitVec n}

/-- A field inside the one that was written. -/
theorem fld_setFld_inside (ho : o + k ≤ len) (hn : lo + len ≤ n) : fld (setFld w lo len v) (lo + o) k = v / 2 ^ o % 2 ^ k := by
  refine Nat.eq_of_testBit_eq fun i => ?_
  rw [testBit_fld, Nat.testBit_mod_two_pow, Nat.testBit_div_two_pow]
  by_cases hi : i < k
  · have hin : lo ≤ lo + o + i ∧ lo + o + i < lo + len ∧ lo + o + i < n := by omega
    rw [bit_setFld_inside hin]
    congr 2
    omega
  · simp [hi]

end

section
variable {w tgt : BitVec 32} {d e : Fin 4} {vp fp : Nat}

@[simp] theorem ptFp_ptSet_same : ptFp (ptSet w d vp fp) d = fp % 8 := by
  have h := fld_setFld_inside (w := w) (lo := 8 * d.val) (len := 8) (o := 0) (k := 3) (v := 16 * (vp % 8) + fp % 8) (by omega) (by omega)
  exact h.trans (by omega)

@[simp] theorem ptVp_ptSet_same : ptVp (ptSet w d vp fp) d = vp % 8 := by
  have h := fld_setFld_inside (w := w) (lo := 8 * d.val) (len := 8) (o := 4) (k := 3) (v := 16 * (vp % 8) + fp % 8) (by omega) (by omega)
  exact h.trans (by omega)

theorem ptFp_ptSet_other (h : e ≠ d) : ptFp (ptSet w d vp fp) e = ptFp w e := by
  have hne : e.val ≠ d.val := fun hv => h (Fin.ext hv)
  exact fld_setFld_other (by omega)

theorem ptVp_ptSet_other (h : e ≠ d) : ptVp (ptSet w d vp fp) e = ptVp w e := by
  have hne : e.val ≠ d.val := fun hv => h (Fin.ext hv)
  exact fld_setFld_other (by omega)

theorem fld_mod (w : BitVec n) (lo len : Nat) : fld w lo len % 2 ^ len = fld w lo len := Nat.mod_eq_of_lt (fld_lt w lo len)

theorem ptFp_mod : ptFp w d % 8 = ptFp w d := fld_mod w _ 3
theorem ptVp_mod : ptVp w d % 8 = ptVp w d := fld_mod w _ 3

/-- The points that a write of PWR_DVFS names. -/
def pointsOf (v : Word) : BitVec 32 := v.setWidth 32 &&& tgtMask

theorem bit_pointsOf (v : Word) {i : Nat} (hi : i < 32) : bit (pointsOf v) i = (bit v i && bit tgtMask i) := by
  simp [pointsOf, bit, hi]

theorem ptFp_pointsOf (v : Word) (e : Fin 4) : ptFp (pointsOf v) e = fld v (8 * e.val) 3 := by
  have hmask : ∀ (e : Fin 4) (i : Fin 3), bit tgtMask (8 * e.val + i.val) = true := by decide
  refine Nat.eq_of_testBit_eq fun i => ?_
  rw [ptFp, testBit_fld, testBit_fld]
  by_cases hi : i < 3
  · rw [bit_pointsOf v (by omega), hmask e ⟨i, hi⟩, Bool.and_true]
  · simp [hi]

theorem ptVp_pointsOf (v : Word) (e : Fin 4) : ptVp (pointsOf v) e = fld v (8 * e.val + 4) 3 := by
  have hmask : ∀ (e : Fin 4) (i : Fin 3), bit tgtMask (8 * e.val + 4 + i.val) = true := by decide
  refine Nat.eq_of_testBit_eq fun i => ?_
  rw [ptVp, testBit_fld, testBit_fld]
  by_cases hi : i < 3
  · rw [bit_pointsOf v (by omega), hmask e ⟨i, hi⟩, Bool.and_true]
  · simp [hi]

theorem pointsOf_word (v : Word) : (pointsOf v).setWidth 64 = v &&& 0x77777777 := by
  have hmask : (0x77777777 : Word) = tgtMask.setWidth 64 := rfl
  rw [hmask]
  refine BitVec.eq_of_getLsbD_eq fun i hi => ?_
  simp only [pointsOf, BitVec.getLsbD_setWidth, BitVec.getLsbD_and, hi, decide_true, Bool.true_and]
  by_cases h32 : i < 32
  · simp [h32]
  · simp [h32, BitVec.getLsbD_of_ge tgtMask i (by omega)]

end

/-! ### A change of points (R510, R511) -/

/-- What DVFS holds of a die: its points and Gauntlet's monitors of it. -/
structure DiePoint where
  fp  : Nat
  vp  : Nat
  mon : DieMon

def State.point (s : State) (d : Fin 4) : DiePoint := ⟨ptFp s.pwr.pt d, ptVp s.pwr.pt d, s.gnt.mon[d]⟩

/-- A change towards `fp` and `vp` as it begins at `cnt`: a raise of the voltage waits for the regulator. -/
def DiePoint.towards (x : DiePoint) (fp vp : Nat) (cnt : Word) : DiePoint :=
  let f := if x.vp < vp then min fp x.fp else fp
  ⟨f, if x.vp < vp then x.vp else vp,
    { (if x.mon.vp = vp then x.mon else { x.mon with vp := vp, other := some (x.mon.vp, cnt) }) with fp := f }⟩

/-- Of the module only the dies' points and Gauntlet's monitors of them change. -/
def PointsOnly (s t : State) : Prop :=
  { t with pwr := s.pwr, gnt := s.gnt } = s ∧ { t.gnt with mon := s.gnt.mon } = s.gnt ∧
    { t.pwr with pt := s.pwr.pt, settle := s.pwr.settle } = s.pwr

section
variable {s t u : State} {d e : Fin 4} {tgt : BitVec 32}

theorem PointsOnly.refl (s : State) : PointsOnly s s := ⟨rfl, rfl, rfl⟩

theorem PointsOnly.trans (h : PointsOnly s t) (g : PointsOnly t u) : PointsOnly s u := by
  obtain ⟨hs, hg, hp⟩ := h
  obtain ⟨gs, gg, gp⟩ := g
  exact ⟨(congrArg (fun x : State => { x with pwr := s.pwr, gnt := s.gnt }) gs).trans hs,
    (congrArg (fun x : GntState => { x with mon := s.gnt.mon }) gg).trans hg,
    (congrArg (fun x : PwrState => { x with pt := s.pwr.pt, settle := s.pwr.settle }) gp).trans hp⟩

theorem PointsOnly.part {α : Type} (h : PointsOnly s t) (f : State → α) (hf : ∀ v : State, f { v with pwr := s.pwr, gnt := s.gnt } = f v) :
    f t = f s := (hf t).symm.trans (congrArg f h.1)

theorem PointsOnly.tb (h : PointsOnly s t) : t.tb = s.tb := h.part State.tb fun _ => rfl

theorem PointsOnly.onlyPower (h : PointsOnly s t) : OnlyPower s t := ⟨h.1, h.2.1⟩

theorem PointsOnly.brim (h : PointsOnly s t) (d : Fin 4) : t.pwr.brim d = s.pwr.brim d := by
  have hbrim := congrArg (fun x : PwrState => x.brim d) h.2.2
  exact hbrim

theorem PwrState.startChange_rest (p : PwrState) : { p.startChange tgt d with pt := p.pt, settle := p.settle } = p := by
  simp only [PwrState.startChange]
  split <;> rfl

theorem State.pointChange_points : PointsOnly s (s.pointChange tgt d) := ⟨rfl, rfl, PwrState.startChange_rest s.pwr⟩

theorem PwrState.startChange_pt (p : PwrState) : (p.startChange tgt d).pt = ptSet p.pt d (if ptVp p.pt d < ptVp tgt d then ptVp p.pt d else ptVp tgt d)
    (if ptVp p.pt d < ptVp tgt d then min (ptFp tgt d) (ptFp p.pt d) else ptFp tgt d) := by
  simp only [PwrState.startChange]
  split <;> rfl

theorem min_points_mod (x y : BitVec 32) : min (ptFp x d) (ptFp y d) % 8 = min (ptFp x d) (ptFp y d) := by
  have h := ptFp_mod (w := x) (d := d)
  omega

theorem State.modMon_same (f : DieMon → DieMon) : (s.modMon d f).gnt.mon[d] = f s.gnt.mon[d] := by simp [State.modMon]

theorem State.modMon_other (f : DieMon → DieMon) (h : e ≠ d) : (s.modMon d f).gnt.mon[e] = s.gnt.mon[e] :=
  Vector.getElem_set_ne d.isLt e.isLt fun hv => h (Fin.ext hv.symm)

theorem State.pointChange_pwr : (s.pointChange tgt d).pwr = s.pwr.startChange tgt d := rfl

/-- A change of die `d` as `DiePoint.towards` states it. -/
theorem State.pointChange_same : (s.pointChange tgt d).point d = (s.point d).towards (ptFp tgt d) (ptVp tgt d) s.tb.cnt := by
  have hfp : ptFp (s.pwr.startChange tgt d).pt d =
      if ptVp s.pwr.pt d < ptVp tgt d then min (ptFp tgt d) (ptFp s.pwr.pt d) else ptFp tgt d := by
    rw [PwrState.startChange_pt, ptFp_ptSet_same]
    split
    · exact min_points_mod ..
    · exact ptFp_mod
  have hvp : ptVp (s.pwr.startChange tgt d).pt d = if ptVp s.pwr.pt d < ptVp tgt d then ptVp s.pwr.pt d else ptVp tgt d := by
    rw [PwrState.startChange_pt, ptVp_ptSet_same]
    split <;> exact ptVp_mod
  have hmon : (s.pointChange tgt d).gnt.mon[d] = { (if s.gnt.mon[d].vp = ptVp tgt d then s.gnt.mon[d]
      else { s.gnt.mon[d] with vp := ptVp tgt d, other := some (s.gnt.mon[d].vp, s.tb.cnt) }) with fp := ptFp (s.pwr.startChange tgt d).pt d } :=
    (State.modMon_same _).trans (congrArg (fun k : DieMon => { k with fp := ptFp (s.pwr.startChange tgt d).pt d }) (State.modMon_same _))
  simp only [State.point, State.pointChange_pwr, hmon, hfp, hvp]
  rfl

theorem State.pointChange_other (h : e ≠ d) : (s.pointChange tgt d).point e = s.point e := by
  have hmon : (s.pointChange tgt d).gnt.mon[e] = s.gnt.mon[e] := (State.modMon_other _ h).trans (State.modMon_other _ h)
  simp only [State.point, State.pointChange_pwr, hmon, PwrState.startChange_pt, ptFp_ptSet_other h, ptVp_ptSet_other h]

/-- Changes of several dies, each once. -/
theorem State.pointChanges_spec {l : List (Fin 4)} (hl : l.Nodup) (s : State) :
    PointsOnly s (l.foldl (State.pointChange tgt) s) ∧ ∀ e, (l.foldl (State.pointChange tgt) s).point e =
      if e ∈ l then (s.point e).towards (ptFp tgt e) (ptVp tgt e) s.tb.cnt else s.point e := by
  induction l generalizing s with
  | nil => exact ⟨PointsOnly.refl s, fun e => rfl⟩
  | cons d l ih =>
    obtain ⟨hd, hl⟩ := List.nodup_cons.mp hl
    obtain ⟨hrest, hpoint⟩ := ih hl (s.pointChange tgt d)
    refine ⟨State.pointChange_points.trans hrest, fun e => (hpoint e).trans ?_⟩
    have hcnt : (s.pointChange tgt d).tb.cnt = s.tb.cnt := rfl
    rw [hcnt]
    by_cases he : e = d
    · subst he
      rw [if_neg hd, if_pos List.mem_cons_self, State.pointChange_same]
    · simp only [State.pointChange_other he, List.mem_cons, he, false_or]

/-- A write of PWR_DVFS by Crown that names points in order and raises no limited die. -/
theorem State.dvfsWrite_taken {v : Word} (hv : ∀ e : Fin 4, fld v (8 * e.val) 3 ≤ fld v (8 * e.val + 4) 3)
    (hb : ∀ e : Fin 4, s.pwr.brim e = true → fld v (8 * e.val) 3 ≤ ptFp s.pwr.pt e) : s.dvfsWrite 0x70 .full v =
      (List.finRange 4).foldl (State.pointChange (pointsOf v)) (s.modPwr fun p => { p with dvfs := (pointsOf v).setWidth 64 }) := by
  have hok : pointsOk (pointsOf v) = true := by
    simpa [pointsOk, ptFp_pointsOf, ptVp_pointsOf] using hv
  have hlim : s.pwr.raisesLimited (pointsOf v) = false := by
    simpa [PwrState.raisesLimited, ptFp_pointsOf] using hb
  refine if_neg ?_
  change ¬ ((0x70 : Ini) ≠ 0x70 ∨ (!pointsOk (pointsOf v)) = true ∨ s.pwr.raisesLimited (pointsOf v) = true)
  simp [hok, hlim]

/-- Every die after a write of PWR_DVFS that is taken. -/
theorem State.dvfsWrite_spec {v : Word} (hv : ∀ e : Fin 4, fld v (8 * e.val) 3 ≤ fld v (8 * e.val + 4) 3)
    (hb : ∀ e : Fin 4, s.pwr.brim e = true → fld v (8 * e.val) 3 ≤ ptFp s.pwr.pt e) : let t := s.dvfsWrite 0x70 .full v
    PointsOnly (s.modPwr fun p => { p with dvfs := v &&& 0x77777777 }) t ∧
      ∀ e, t.point e = (s.point e).towards (fld v (8 * e.val) 3) (fld v (8 * e.val + 4) 3) s.tb.cnt := by
  obtain ⟨hrest, hpoint⟩ := State.pointChanges_spec (tgt := pointsOf v) (List.nodup_finRange 4)
    (s.modPwr fun p => { p with dvfs := (pointsOf v).setWidth 64 })
  rw [State.dvfsWrite_taken hv hb]
  rw [pointsOf_word] at hrest hpoint ⊢
  refine ⟨hrest, fun e => (hpoint e).trans ?_⟩
  rw [if_pos (List.mem_finRange e), ptFp_pointsOf, ptVp_pointsOf]
  rfl

end

/-! ### Brim (R512) -/

/-- Of the module only the events posted grow. -/
def PostsOnly (s t : State) : Prop := ∃ m, t = { s with evt := { s.evt with incoming := s.evt.incoming ++ m } }

section
variable {s t u : State}

theorem PostsOnly.refl (s : State) : PostsOnly s s := ⟨[], by rw [List.append_nil]⟩

theorem PostsOnly.trans (h : PostsOnly s t) (g : PostsOnly t u) : PostsOnly s u := by
  obtain ⟨m, rfl⟩ := h
  obtain ⟨k, rfl⟩ := g
  exact ⟨m ++ k, by rw [List.append_assoc]⟩

theorem PostsOnly.foldl {α : Type} {f : State → α → State} (h : ∀ t a, PostsOnly t (f t a)) (l : List α) (s : State) :
    PostsOnly s (l.foldl f s) := by
  induction l generalizing s with
  | nil => exact PostsOnly.refl s
  | cons a l ih => exact (h s a).trans (ih _)

theorem State.throttled_posts (c : CoreId) : PostsOnly s (s.throttled c) := by
  unfold State.throttled
  split
  · exact ⟨_, rfl⟩
  · exact PostsOnly.refl s

theorem State.throttleCores_posts (p : CoreId → Bool) (l : List CoreId) (s : State) :
    PostsOnly s (l.foldl (fun t c => if p c = true then t.throttled c else t) s) := by
  refine PostsOnly.foldl (fun t c => ?_) l s
  split
  · exact State.throttled_posts c
  · exact PostsOnly.refl t

/-- A cause of Brim that is new: its event first, then those of the matrix engines that it limits. -/
theorem State.brimAssert_new (code : Nat) (f : PwrState → PwrState) : ∃ m, s.brimAssert code true f = { s with
    pwr := f s.pwr, evt := { s.evt with incoming := s.evt.incoming ++ ⟨BitVec.ofNat 16 code, 0xC7, s.tb.cnt, none, false, false⟩ :: m } } := by
  have hcores : PostsOnly ((s.modPwr f).pwrPost code) (s.brimAssert code true f) := by
    simp only [State.brimAssert, State.eachCore, if_true]
    exact State.throttleCores_posts _ (List.finRange 32) _
  obtain ⟨m, hm⟩ := hcores
  refine ⟨m, hm.trans ?_⟩
  simp only [State.pwrPost, State.postPart, State.postFull, State.modPwr, List.append_assoc, List.singleton_append]

theorem State.brimRelease_pwr (f : PwrState → PwrState) : (s.brimRelease f).pwr = f s.pwr := by
  simp only [State.brimRelease]
  split <;> rfl

/-- The last limit that falls is posted. -/
theorem State.brimRelease_last (f : PwrState → PwrState) (h : s.pwr.brims ≠ 0) (hf : (s.brimRelease f).pwr.brims = 0) :
    (s.brimRelease f).evt.incoming = s.evt.incoming ++ [⟨0x9053, 0xC7, s.tb.cnt, none, false, false⟩] := by
  rw [State.brimRelease_pwr] at hf
  exact congrArg (fun t : State => t.evt.incoming) (if_pos ⟨h, hf⟩)

theorem State.brimRelease_posts (f : PwrState → PwrState) : PostsOnly { s with pwr := f s.pwr } (s.brimRelease f) := by
  simp only [State.brimRelease]
  split
  · exact ⟨_, rfl⟩
  · exact PostsOnly.refl _

theorem PwrState.brim_of_cause {p : PwrState} {d : Fin 4} (h : bit p.ocCause d.val = true ∨ p.hbCause = true ∨ p.pinCause = true) :
    p.brim d = true := by
  obtain h | h | h := h <;> simp [PwrState.brim, h]

/-- A step down of a die whose current limit still holds. -/
theorem State.stepDown_spec {d : Fin 4} (hl : bit s.pwr.ocLow d.val = true) (h0 : 0 < ptFp s.pwr.pt d) : let t := s.stepDown d
    ptFp t.pwr.pt d = ptFp s.pwr.pt d - 1 ∧ ptVp t.pwr.pt d = ptVp s.pwr.pt d ∧
      t.evt.incoming = s.evt.incoming ++ [⟨0x9054, 0xC7, s.tb.cnt, none, false, false⟩] := by
  have hstep : ¬ ((!bit s.pwr.ocLow d.val || decide (ptFp s.pwr.pt d = 0)) = true) := by simp [hl, Nat.ne_of_gt h0]
  have hfp := ptFp_mod (w := s.pwr.pt) (d := d)
  simp only [State.stepDown, if_neg hstep]
  refine ⟨ptFp_ptSet_same.trans (by omega), ptVp_ptSet_same.trans ptVp_mod, rfl⟩

end

/-! ### NAP (R506, R507) -/

section
variable {s t u : State} {d : Fin 4}

theorem OnlyPower.refl (s : State) : OnlyPower s s := ⟨rfl, rfl⟩

theorem OnlyPower.trans (h : OnlyPower s t) (g : OnlyPower t u) : OnlyPower s u := by
  obtain ⟨hs, hg⟩ := h
  obtain ⟨gs, gg⟩ := g
  exact ⟨(congrArg (fun x : State => { x with pwr := s.pwr, gnt := s.gnt }) gs).trans hs,
    (congrArg (fun x : GntState => { x with mon := s.gnt.mon }) gg).trans hg⟩

theorem OnlyPower.part {α : Type} (h : OnlyPower s t) (f : State → α) (hf : ∀ v : State, f { v with pwr := s.pwr, gnt := s.gnt } = f v) :
    f t = f s := (hf t).symm.trans (congrArg f h.1)

theorem State.wakeDie_onlyPower (d : Fin 4) : OnlyPower s (s.wakeDie d) := ⟨rfl, rfl⟩

theorem State.wakeDies_onlyPower (l : List (Fin 4)) (s : State) : OnlyPower s (l.foldl State.wakeDie s) := by
  induction l generalizing s with
  | nil => exact OnlyPower.refl s
  | cons d l ih => exact (State.wakeDie_onlyPower d).trans (ih _)

theorem State.wakeDie_mon : (s.wakeDie d).gnt.mon[d] = s.gnt.mon[d].wake s.tb.cnt := State.modMon_same _

theorem DieMon.wake_running (k : DieMon) (cnt : Word) : (k.wake cnt).stopped = false := by
  unfold DieMon.wake
  split
  · rfl
  · next h => exact Bool.eq_false_iff.mpr h

theorem DieMon.wake_back {k : DieMon} (h : k.stopped = true) (cnt : Word) : (k.wake cnt).back = some cnt := by
  rw [DieMon.wake, if_pos h]

theorem State.napEnter_idle (hm : s.mainUp = true) (hn : s.pwr.napEn = true) (h : ∀ c ∈ dieCores d, s.coreIdle c = true) :
    s.napEnter d = (s.modPwr fun p => { p with nap := setBit p.nap d.val true }).modMon d fun k => { k with stopped := true } := by
  refine if_pos ?_
  rw [hm, hn, List.all_eq_true.mpr h]
  rfl

theorem State.napEnter_busy (h : s.pwr.napEn = false ∨ ∃ c ∈ dieCores d, s.coreIdle c = false) : s.napEnter d = s := by
  refine if_neg fun hall => ?_
  obtain ⟨hon, hidle⟩ := (Bool.and_eq_true _ _).mp hall
  obtain ⟨-, hen⟩ := (Bool.and_eq_true _ _).mp hon
  obtain h | ⟨c, hc, hbusy⟩ := h
  · simp [h] at hen
  · simp [List.all_eq_true.mp hidle c hc] at hbusy

theorem State.napWake_wakes (h : s.pwr.napEn = false ∨ ∃ c ∈ dieCores d, s.cores[c].waiting = true) : s.napWake d = s.wakeDie d := by
  refine if_pos ?_
  obtain h | ⟨c, hc, hw⟩ := h
  · simp [h]
  · rw [List.any_eq_true.mpr ⟨c, hc, hw⟩, Bool.or_true]

end

/-! ### Everything stops (R504, R514) -/

section
variable {s : State}

/-- Every core held in reset. -/
@[irreducible] def State.heldAll (s : State) : State := s.eachCore fun c t => t.holdCore c

theorem State.heldAll_eq : s.heldAll = (List.finRange 32).foldl State.holdCore s := by
  unfold State.heldAll State.eachCore
  rfl

theorem State.heldAll_stopped (c : CoreId) : s.heldAll.stopped c := by
  rw [State.heldAll_eq]
  exact State.holdCores_stopped (List.mem_finRange c)

theorem State.heldAll_heldOnly : HeldOnly s s.heldAll := by
  rw [State.heldAll_eq]
  exact State.holdCores_heldOnly (List.finRange 32)

/-- The engines of the memory dies stopped and DDR in self-refresh. -/
def State.diesStopped (u : State) : State := { u with
  dma := { u.dma with dies := Vector.replicate 2 (Vector.replicate 16 DmaChan.reset) }
  ddr := { u.ddr with selfRefresh := true } }

theorem State.stopAll_eq : s.stopAll = s.heldAll.diesStopped := by
  unfold State.stopAll State.heldAll State.diesStopped
  rfl

/-- What stops with everything, and what goes on. -/
theorem State.stopAll_spec : (∀ c : CoreId, s.stopAll.cores[c].seq.phase = .idle) ∧ s.stopAll.ddr.selfRefresh = true ∧
    s.stopAll.pwr = s.pwr ∧ s.stopAll.tb = s.tb := by
  have hheld := State.heldAll_heldOnly (s := s)
  rw [State.stopAll_eq]
  exact ⟨fun c => (State.heldAll_stopped c).2, rfl, hheld.pwr, hheld.tb⟩

theorem State.trip_spec : (∀ c : CoreId, s.trip.cores[c].seq.phase = .idle) ∧ s.trip.ddr.selfRefresh = true ∧ s.trip.pwr.trip = true ∧
    s.trip.pwr.mode = s.pwr.mode ∧ ∃ m, s.trip.evt.incoming = m ++ [⟨0x9060, 0xC7, s.tb.cnt, none, false, false⟩] := by
  obtain ⟨hidle, hself, hpwr, htb⟩ := State.stopAll_spec (s := s)
  unfold State.trip
  generalize s.stopAll = u at *
  refine ⟨hidle, hself, rfl, (congrArg PwrState.mode hpwr : u.pwr.mode = _), u.evt.incoming, ?_⟩
  rw [← htb]
  rfl

/-- The main rails lost, once everything has stopped. -/
def State.mainLost (u : State) : State :=
  (u.modPwr fun p => { p with main := false, mode := .aoOnly, settle := Vector.replicate 4 none }).pwrPost 0x9070

theorem State.powerDown_eq (h : s.pwr.mode = .run) : s.powerDown = s.stopAll.mainLost := by
  unfold State.powerDown
  split
  · next hm => cases h.symm.trans hm
  · next hm => cases h.symm.trans hm
  · next hm => cases h.symm.trans hm
  · rfl

theorem State.powerDown_run (h : s.pwr.mode = .run) : let t := s.powerDown
    t.pwr.mode = .aoOnly ∧ t.pwr.main = false ∧ t.ddr.selfRefresh = true ∧ (∀ c : CoreId, t.cores[c].seq.phase = .idle) ∧
      ∃ m, t.evt.incoming = m ++ [⟨0x9070, 0xC7, s.tb.cnt, none, false, false⟩] := by
  obtain ⟨hidle, hself, -, htb⟩ := State.stopAll_spec (s := s)
  rw [State.powerDown_eq h]
  generalize s.stopAll = u at *
  refine ⟨rfl, rfl, hself, hidle, u.evt.incoming, ?_⟩
  rw [← htb]
  rfl

end

/-! ### Temperature (R513, R514) -/

section
variable {s : State} {raw : Vector (BitVec 16) 24} {off : Fin 24 → Int}

/-- A sensor's reading as the factory calibrated it. -/
def factoryRead (raw : Vector (BitVec 16) 24) : Vector Int 24 :=
  Vector.ofFn fun k : Fin 24 => raw[k].toInt + (Config.factoryTemp k.val).toInt

theorem getElem_factoryRead (k : Fin 24) : (factoryRead raw)[k] = raw[k].toInt + (Config.factoryTemp k.val).toInt := by
  simp [factoryRead]

/-- The PWR block with new readings. -/
def PwrState.sampled (p : PwrState) (fact : Vector Int 24) (off : Fin 24 → Int) (cnt : Word) : PwrState := { p with
  temps := fact
  eff := Vector.ofFn fun k : Fin 24 => fact[k] + off k
  cool := if (List.finRange 24).all fun k => decide (fact[k] ≤ tripAt k - 320) then some (p.cool.getD cnt) else none }

/-- The module with new readings, before a trip. -/
def State.sampled (s : State) (fact : Vector Int 24) (off : Fin 24 → Int) : State := s.modPwr fun p => p.sampled fact off s.tb.cnt

/-- Whether a sensor has reached its trip temperature. -/
def isHot (fact : Vector Int 24) : Bool := (List.finRange 24).any fun k => decide (tripAt k ≤ fact[k])

theorem isHot_of_reached {fact : Vector Int 24} (h : ∃ k : Fin 24, tripAt k ≤ fact[k]) : isHot fact = true := by
  obtain ⟨k, hk⟩ := h
  exact List.any_eq_true.mpr ⟨k, List.mem_finRange k, decide_eq_true hk⟩

theorem isHot_of_below {fact : Vector Int 24} (h : ∀ k : Fin 24, fact[k] < tripAt k) : isHot fact = false :=
  List.any_eq_false.mpr fun k _ => by rw [decide_eq_true_eq]; exact Int.not_le.mpr (h k)

theorem State.thermalSample_run (h : s.pwr.mode = .run) : s.thermalSample raw off =
    let t := s.sampled (factoryRead raw) off
    if isHot (factoryRead raw) && !t.pwr.trip then t.trip else t := by
  unfold State.thermalSample
  split
  · next hm => cases h.symm.trans hm
  · next hm => cases h.symm.trans hm
  · next hm => cases h.symm.trans hm
  · unfold State.sampled PwrState.sampled isHot factoryRead
    simp only

section
variable (s) (fact : Vector Int 24) (off : Fin 24 → Int)

theorem State.sampled_mode : (s.sampled fact off).pwr.mode = s.pwr.mode := rfl
theorem State.sampled_trip : (s.sampled fact off).pwr.trip = s.pwr.trip := rfl
theorem State.sampled_evt : (s.sampled fact off).evt = s.evt := rfl
theorem State.sampled_eff (k : Fin 24) : (s.sampled fact off).pwr.eff[k] = fact[k] + off k := by
  simp [State.sampled, State.modPwr, PwrState.sampled]

end

theorem State.thermalSample_hot (h : s.pwr.mode = .run) (ht : s.pwr.trip = false)
    (hk : ∃ k : Fin 24, tripAt k ≤ raw[k].toInt + (Config.factoryTemp k.val).toInt) :
    s.thermalSample raw off = (s.sampled (factoryRead raw) off).trip := by
  have hhot : isHot (factoryRead raw) = true := isHot_of_reached (hk.imp fun k h => by rw [getElem_factoryRead]; exact h)
  simp only [State.thermalSample_run h, hhot, State.sampled_trip, ht, Bool.not_false, Bool.and_self, if_true]

theorem State.thermalSample_cold (h : s.pwr.mode = .run)
    (hk : ∀ k : Fin 24, raw[k].toInt + (Config.factoryTemp k.val).toInt < tripAt k) :
    s.thermalSample raw off = s.sampled (factoryRead raw) off := by
  have hcold : isHot (factoryRead raw) = false := isHot_of_below fun k => by rw [getElem_factoryRead]; exact hk k
  simp only [State.thermalSample_run h, hcold, Bool.false_and, Bool.false_eq_true, if_false]

/-- A sample leaves the mode. -/
theorem State.thermalSample_mode (h : s.pwr.mode = .run) : (s.thermalSample raw off).pwr.mode = .run := by
  simp only [State.thermalSample_run h]
  split
  · obtain ⟨-, -, -, hmode, -⟩ := State.trip_spec (s := s.sampled (factoryRead raw) off)
    rw [hmode, State.sampled_mode, h]
  · rw [State.sampled_mode, h]

/-- Crown's maxima with new readings (R481). -/
@[irreducible] def CrnState.keepTemps (c : CrnState) (eff : Vector Int 24) : CrnState :=
  { c with tmax := Vector.ofFn fun k : Fin 24 => max c.tmax[k] eff[k] }

theorem State.sampleTemps_eq : s.sampleTemps raw =
    { s.thermalSample raw s.crn.tempOffset with
      crn := (s.thermalSample raw s.crn.tempOffset).crn.keepTemps (s.thermalSample raw s.crn.tempOffset).pwr.eff } := by
  unfold State.sampleTemps CrnState.keepTemps
  generalize s.thermalSample raw s.crn.tempOffset = u
  simp only [State.modCrn]

/-- What Crown keeps of a sample leaves the sample's own effects. -/
theorem State.sampleTemps_rest {u : State} (h : s.thermalSample raw s.crn.tempOffset = u) : let t := s.sampleTemps raw
    t.pwr = u.pwr ∧ t.ddr = u.ddr ∧ t.cores = u.cores ∧ t.evt = u.evt := by
  rw [State.sampleTemps_eq, h]
  exact ⟨rfl, rfl, rfl, rfl⟩

end

/-- Comparators that disagree are reported while the main domain runs and nothing has tripped (R517). -/
theorem State.pwrMismatch_run {u : State} (h : u.pwr.mode = .run) :
    u.pwrMismatch = if u.pwr.trip then u else u.postFull 0x9078 0xC7 none true := by
  rw [State.pwrMismatch, State.mainUp, decide_eq_true h]
  cases u.pwr.trip <;> rfl

/-! ### DOZE (R508) -/

section
variable {s : State} {ini : Initiator}

theorem State.dozeEnter_refused (h60 : ini.val ≠ 0x60) (h70 : ini.val ≠ 0x70) : s.dozeEnter ini = s.pwrRefuse := by
  refine if_pos ?_
  rw [gntOwner, decide_eq_false h60, decide_eq_false h70]
  rfl

theorem gntOwner_not {i : Ini} (h : i = 0x60 ∨ i = 0x70) : ¬ (!gntOwner i) = true := by
  obtain rfl | rfl := h <;> decide

theorem State.dozeEnter_armed (h : ini.val = 0x60 ∨ ini.val = 0x70) (hm : s.pwr.mode = .run) (ha : s.armed = true) :
    s.dozeEnter ini = s.pwrPost 0x9073 := by
  refine (if_neg (gntOwner_not h)).trans ((if_neg (not_not_intro hm)).trans (if_pos ?_))
  rw [ha, Bool.true_or]

theorem State.linkDown_spec : s.linkDown.pci.linkUp = false ∧ s.linkDown.ddr = s.ddr := by
  unfold State.linkDown
  split
  · exact ⟨rfl, rfl⟩
  · next h => exact ⟨Bool.eq_false_iff.mpr h, rfl⟩

theorem State.dozeEnter_idle (h : ini.val = 0x60 ∨ ini.val = 0x70) (hm : s.pwr.mode = .run) (ha : s.armed = false)
    (hc : ∀ c : CoreId, s.cores[c].seq.phase = .idle) : let t := s.dozeEnter ini
    t.pwr.mode = .doze ∧ t.ddr.selfRefresh = true ∧ t.ddr.mem = s.ddr.mem ∧ t.pci.linkUp = false := by
  have hidle : ¬ ((s.armed || (List.finRange 32).any fun c => decide (s.cores[c].seq.phase ≠ .idle)) = true) := by
    have hnone : ((List.finRange 32).any fun c => decide (s.cores[c].seq.phase ≠ .idle)) = false :=
      List.any_eq_false.mpr fun c _ => by rw [decide_eq_true_eq]; exact not_not_intro (hc c)
    rw [ha, hnone]
    decide
  have hpower := State.wakeDies_onlyPower (List.finRange 4) s.linkDown
  obtain ⟨hlink, hddr⟩ := State.linkDown_spec (s := s)
  have hpci := hpower.part State.pci fun _ => rfl
  have hmem := hpower.part (fun u => u.ddr.mem) fun _ => rfl
  have hexec : s.dozeEnter ini = _ := (if_neg (gntOwner_not h)).trans ((if_neg (not_not_intro hm)).trans (if_neg hidle))
  rw [hexec]
  exact ⟨rfl, rfl, hmem.trans (congrArg DdrState.mem hddr), (congrArg PciState.linkUp hpci).trans hlink⟩

end

/-! ### DVFS, settled (R510, R511) -/

section
variable {s : State} {d : Fin 4} {b : Byte}

theorem State.settled_none (h : s.pwr.settle[d] = none) : s.settled d = s.modMon d fun k => { k with other := none } := by
  have hpwr : (s.modMon d fun k => { k with other := none }).pwr.settle[d] = none := h
  simp only [State.settled, hpwr]

/-- The points that a die takes when its raised voltage has settled. -/
theorem State.settled_spec (h : s.pwr.settle[d] = some b) (hb : s.pwr.brim d = false) : let t := s.settled d
    ptVp t.pwr.pt d = fld b 4 3 ∧ ptFp t.pwr.pt d = fld b 0 3 ∧ t.pwr.settle[d] = none ∧ t.gnt.mon[d].fp = fld b 0 3 ∧
      t.gnt.mon[d].other = none ∧ OnlyPower s t ∧ { t.pwr with pt := s.pwr.pt, settle := s.pwr.settle } = s.pwr := by
  have hpwr : (s.modMon d fun k => { k with other := none }).pwr.settle[d] = some b := h
  have hbrim : (s.modMon d fun k => { k with other := none }).pwr.brim d = false := hb
  have hfp : ptFp (ptSet s.pwr.pt d (fld b 4 3) (fld b 0 3)) d = fld b 0 3 := ptFp_ptSet_same.trans (fld_mod b 0 3)
  have hother : (s.modMon d fun k => { k with other := none }).gnt.mon[d].other = none :=
    congrArg DieMon.other (State.modMon_same (s := s) fun k => { k with other := none })
  simp only [State.settled, hpwr, State.modPwr, hbrim, Bool.false_eq_true, if_false, State.monClock]
  refine ⟨ptVp_ptSet_same.trans (fld_mod b 4 3), hfp, by simp, ?_, ?_, ⟨rfl, rfl⟩, rfl⟩
  · rw [State.modMon_same]
    exact hfp
  · rw [State.modMon_same]
    exact hother

/-- A write of PWR_DVFS that is refused. -/
theorem State.dvfsWrite_refused {ini : Ini} {v : Word} {h : Half} (hi : ini ≠ 0x70) : s.dvfsWrite ini h v = s.pwrRefuse := if_pos (Or.inl hi)

theorem State.dvfsWrite_bad {v : Word} (h : (∃ e : Fin 4, fld v (8 * e.val + 4) 3 < fld v (8 * e.val) 3) ∨
    ∃ e : Fin 4, s.pwr.brim e = true ∧ ptFp s.pwr.pt e < fld v (8 * e.val) 3) : s.dvfsWrite 0x70 .full v = s.pwrRefuse := by
  refine if_pos (Or.inr ?_)
  change (!pointsOk (pointsOf v)) = true ∨ s.pwr.raisesLimited (pointsOf v) = true
  obtain ⟨e, he⟩ | ⟨e, hb, he⟩ := h
  · refine Or.inl ?_
    simp only [pointsOk, ptFp_pointsOf, ptVp_pointsOf, Bool.not_eq_true', List.all_eq_false, decide_eq_true_eq]
    exact ⟨e, List.mem_finRange e, Nat.not_le.mpr he⟩
  · refine Or.inr (List.any_eq_true.mpr ⟨e, List.mem_finRange e, ?_⟩)
    rw [hb, ptFp_pointsOf, decide_eq_true he]
    rfl

/-- A change keeps FP at most VP. -/
theorem DiePoint.towards_le {x : DiePoint} {fp vp : Nat} {cnt : Word} (h : fp ≤ vp) (hx : x.fp ≤ x.vp) :
    (x.towards fp vp cnt).fp ≤ (x.towards fp vp cnt).vp := by
  simp only [DiePoint.towards]
  split <;> omega

theorem DiePoint.towards_mon {x : DiePoint} {fp vp : Nat} {cnt : Word} : (x.towards fp vp cnt).mon.fp = (x.towards fp vp cnt).fp ∧
    (x.towards fp vp cnt).mon.vp = vp ∧ (x.mon.vp ≠ vp → (x.towards fp vp cnt).mon.other = some (x.mon.vp, cnt)) := by
  simp only [DiePoint.towards]
  refine ⟨trivial, ?_, fun h => ?_⟩
  · split
    · assumption
    · rfl
  · rw [if_neg h]

/-- Without a raise of the voltage the change is made at once. -/
theorem DiePoint.towards_now {x : DiePoint} {fp vp : Nat} {cnt : Word} (h : vp ≤ x.vp) :
    (x.towards fp vp cnt).fp = fp ∧ (x.towards fp vp cnt).vp = vp := by
  simp only [DiePoint.towards, if_neg (Nat.not_lt.mpr h), and_self]

end

/-- Settles O52: each clause by the lemma about its command. -/
theorem powerAndTemperature : Obligations.PowerAndTemperature := by
  unfold Obligations.PowerAndTemperature
  intro s d
  refine ⟨fun ini h v hi => congrArg Host.Outcome.next (State.dvfsWrite_refused hi), fun v h => congrArg Host.Outcome.next (State.dvfsWrite_bad h),
    fun v hv hb hp => ⟨_, rfl, ?dvfs⟩, fun h => congrArg Host.Outcome.next (State.settled_none h),
    fun b h hb => ⟨_, rfl, State.settled_spec h hb⟩, fun h => ⟨_, rfl, ?overcurrent⟩, fun h => ⟨_, rfl, ?pin⟩, ⟨_, rfl, ?clear⟩,
    fun hl h0 => ⟨_, rfl, State.stepDown_spec hl h0⟩, fun h => congrArg Host.Outcome.next (if_pos ?noStep),
    fun hm hn h => congrArg Host.Outcome.next (State.napEnter_idle hm hn h), fun h => congrArg Host.Outcome.next (State.napEnter_busy h),
    fun h => ⟨_, rfl, ?wake⟩, fun raw hrun ht hk => ⟨_, rfl, ?hot⟩, fun raw hm hk => ⟨_, rfl, ?cold⟩, fun raw t hm ht => ?mismatch,
    fun h => ⟨_, rfl, State.powerDown_run h⟩, fun h => ?off, fun h hl => congrArg Host.Outcome.next (if_neg ?clock),
    fun ini h60 h70 => congrArg Host.Outcome.next (State.dozeEnter_refused h60 h70),
    fun ini h hm ha => congrArg Host.Outcome.next (State.dozeEnter_armed h hm ha),
    fun ini h hm ha hc => ⟨_, rfl, State.dozeEnter_idle h hm ha hc⟩⟩
  case dvfs =>
    obtain ⟨hrest, hpoint⟩ := State.dvfsWrite_spec hv hb
    have hfp (e : Fin 4) := congrArg DiePoint.fp (hpoint e)
    have hvp (e : Fin 4) := congrArg DiePoint.vp (hpoint e)
    have hmon (e : Fin 4) := congrArg DiePoint.mon (hpoint e)
    have hword : OnlyPower s (s.modPwr fun p => { p with dvfs := v &&& 0x77777777 }) := ⟨rfl, rfl⟩
    have hpower : OnlyPower s (s.dvfsWrite 0x70 .full v) := hword.trans hrest.onlyPower
    obtain ⟨-, -, hpwr⟩ := hrest
    refine ⟨congrArg PwrState.dvfs hpwr, hpower, congrArg (fun x : PwrState => { x with dvfs := s.pwr.dvfs }) hpwr, fun e => ?_,
      fun e => ?_, fun e he => ?_⟩
    · exact (hfp e).trans_le ((DiePoint.towards_le (hv e) (hp e)).trans_eq (hvp e).symm)
    · obtain ⟨hf, hr, ho⟩ := DiePoint.towards_mon (x := s.point e) (fp := fld v (8 * e.val) 3) (vp := fld v (8 * e.val + 4) 3) (cnt := s.tb.cnt)
      exact ⟨(congrArg DieMon.fp (hmon e)).trans (hf.trans (hfp e).symm), (congrArg DieMon.vp (hmon e)).trans hr,
        fun h => (congrArg DieMon.other (hmon e)).trans (ho h)⟩
    · obtain ⟨hf, hr⟩ := DiePoint.towards_now (x := s.point e) (fp := fld v (8 * e.val) 3) (cnt := s.tb.cnt) he
      exact ⟨(hfp e).trans hf, (hvp e).trans hr⟩
  case overcurrent =>
    rw [h]
    obtain ⟨m, hm⟩ := s.brimAssert_new 0x9050 fun p =>
      { p with ocLow := setBit p.ocLow d.val true, ocCause := setBit p.ocCause d.val true }
    rw [Bool.not_false, hm]
    exact ⟨PwrState.brim_of_cause (Or.inl ((bit_setBit _ _ _ d.isLt).trans (if_pos rfl))), rfl, m, rfl⟩
  case pin =>
    rw [h]
    obtain ⟨m, hm⟩ := s.brimAssert_new 0x9052 fun p => { p with brimLow := true, pinCause := true }
    rw [Bool.not_false, hm]
    exact ⟨fun e => PwrState.brim_of_cause (Or.inr (Or.inr rfl)), m, rfl⟩
  case clear => exact ⟨State.brimRelease_pwr _, fun h hf => State.brimRelease_last _ h hf⟩
  case noStep =>
    obtain h | h := h <;> simp [h]
  case wake =>
    rw [State.napWake_wakes h]
    refine ⟨rfl, State.wakeDie_onlyPower d, ?_, fun hst => ?_⟩
    · rw [State.wakeDie_mon]
      exact DieMon.wake_running _ _
    · rw [State.wakeDie_mon]
      exact DieMon.wake_back hst _
  case hot =>
    obtain ⟨hidle, hself, htrip, -, m, hm⟩ := State.trip_spec (s := s.sampled (factoryRead raw) s.crn.tempOffset)
    obtain ⟨hpwr, hddr, hcores, hevt⟩ := State.sampleTemps_rest (State.thermalSample_hot hrun ht hk)
    generalize (s.sampled (factoryRead raw) s.crn.tempOffset).trip = u at *
    simp only [Bool.false_eq_true, if_false, hpwr, hddr, hcores, hevt]
    exact ⟨htrip, hself, hidle, m, hm⟩
  case cold =>
    obtain ⟨hpwr, -, -, hevt⟩ := State.sampleTemps_rest (State.thermalSample_cold (off := s.crn.tempOffset) hm hk)
    simp only [Bool.false_eq_true, if_false, hpwr, hevt, State.sampled_trip, State.sampled_evt, State.sampled_eff, getElem_factoryRead,
      implies_true, and_self]
  case mismatch =>
    obtain ⟨hrun, -⟩ := (Bool.and_eq_true _ _).mp hm
    have hmode : (s.sampleTemps raw).pwr.mode = .run := by
      obtain ⟨hpwr, -⟩ := State.sampleTemps_rest (s := s) (raw := raw) rfl
      rw [hpwr]
      exact State.thermalSample_mode (of_decide_eq_true hrun)
    obtain rfl : s.sampleTemps raw = t := Host.Outcome.next.inj ht
    exact congrArg Host.Outcome.next (State.pwrMismatch_run hmode)
  case off => exact ⟨by simp [execPowerDown, State.powerDown, h], congrArg Host.Outcome.next (if_pos (Or.inr h))⟩
  case clock => simp [h, hl]

end Sys2Proof.Machine
end

/-! The proofs: Crown's loops. -/

section
namespace Sys2Proof.Machine

/-! ### The points of both loops (R463, R482) -/

section
variable {s t : State} {d e : Fin 4}

/-- Points written die by die. -/
theorem ptSets_spec {f : Fin 4 → Nat} {l : List (Fin 4)} (hl : l.Nodup) (w : BitVec 32) (e : Fin 4) :
    ptFp (l.foldl (fun w d => ptSet w d (f d) (f d)) w) e = (if e ∈ l then f e % 8 else ptFp w e) ∧
      ptVp (l.foldl (fun w d => ptSet w d (f d) (f d)) w) e = if e ∈ l then f e % 8 else ptVp w e := by
  induction l generalizing w with
  | nil => exact ⟨rfl, rfl⟩
  | cons d l ih =>
    obtain ⟨hd, hl⟩ := List.nodup_cons.mp hl
    obtain ⟨hfp, hvp⟩ := ih hl (ptSet w d (f d) (f d))
    by_cases he : e = d
    · subst he
      simp only [List.foldl_cons, hfp, hvp, if_neg hd, ptFp_ptSet_same, ptVp_ptSet_same, List.mem_cons_self, if_true, and_self]
    · simp only [List.foldl_cons, hfp, hvp, List.mem_cons, he, false_or, ptFp_ptSet_other he, ptVp_ptSet_other he, and_self]

theorem fld_word (w : BitVec 32) (lo len : Nat) : fld (w.setWidth 64) lo len = fld w lo len := by
  have h : (w.setWidth 64).toNat = w.toNat := by
    rw [BitVec.toNat_setWidth]
    exact Nat.mod_eq_of_lt (by omega)
  simp only [fld, h]

theorem State.wanted_lt (s : State) (d : Fin 4) : s.wanted d < 8 := by
  have h := s.crn.pts[d].isLt
  simp only [State.wanted]
  split <;> omega

theorem State.wanted_le (s : State) (d : Fin 4) : s.wanted d ≤ min s.crn.pts[d].val s.crn.thermal[d].val := by
  simp only [State.wanted]
  split
  · exact Nat.min_le_left ..
  · exact Nat.le_refl _

theorem State.wanted_limited (h : s.pwr.brim d = true) : s.wanted d ≤ ptFp s.pwr.pt d := by
  simp only [State.wanted, h, if_true]
  exact Nat.min_le_right ..

/-- Crown's write of PWR_DVFS is taken, and every die starts towards the point wanted. -/
theorem State.setPoints_spec (s : State) : (∃ w, PointsOnly (s.modPwr fun p => { p with dvfs := w }) s.setPoints) ∧
    ∀ e, s.setPoints.point e = (s.point e).towards (s.wanted e) (s.wanted e) s.tb.cnt := by
  have hspec (e : Fin 4) := ptSets_spec (f := s.wanted) (List.nodup_finRange 4) 0 e
  simp only [List.mem_finRange, if_true, Nat.mod_eq_of_lt (s.wanted_lt _)] at hspec
  have hfp (e : Fin 4) : fld (((List.finRange 4).foldl (fun w d => ptSet w d (s.wanted d) (s.wanted d)) 0).setWidth 64) (8 * e.val) 3 =
      s.wanted e := (fld_word ..).trans (hspec e).1
  have hvp (e : Fin 4) : fld (((List.finRange 4).foldl (fun w d => ptSet w d (s.wanted d) (s.wanted d)) 0).setWidth 64) (8 * e.val + 4) 3 =
      s.wanted e := (fld_word ..).trans (hspec e).2
  obtain ⟨hrest, hpoint⟩ := State.dvfsWrite_spec (s := s) (fun e => (hfp e).trans_le (hvp e).ge)
    (fun e hb => (hfp e).trans_le (State.wanted_limited hb))
  simp only [hfp, hvp] at hpoint
  exact ⟨⟨_, hrest⟩, hpoint⟩

theorem DiePoint.towards_fp_le (x : DiePoint) (fp vp : Nat) (cnt : Word) : (x.towards fp vp cnt).fp ≤ fp := by
  simp only [DiePoint.towards]
  split
  · exact Nat.min_le_left ..
  · exact Nat.le_refl _

theorem State.setPoints_fp (s : State) (e : Fin 4) : ptFp s.setPoints.pwr.pt e ≤ s.wanted e := by
  obtain ⟨-, hpoint⟩ := s.setPoints_spec
  exact (congrArg DiePoint.fp (hpoint e)).trans_le (DiePoint.towards_fp_le ..)

theorem State.setPoints_rest (s : State) : s.setPoints.crn = s.crn ∧ s.setPoints.evt = s.evt := by
  obtain ⟨⟨w, hrest⟩, -⟩ := s.setPoints_spec
  exact ⟨hrest.part State.crn fun _ => rfl, hrest.part State.evt fun _ => rfl⟩

theorem State.gather_rest (s : State) : s.gather.pwr = s.pwr ∧ s.gather.evt = s.evt ∧ s.gather.crn.pts = s.crn.pts ∧
    s.gather.crn.loopAt = s.crn.loopAt ∧ s.gather.crn.thermAt = s.crn.thermAt ∧ s.gather.crn.hbMissed = s.crn.hbMissed ∧
    s.gather.crn.thermal = s.crn.thermal := ⟨rfl, rfl, rfl, rfl, rfl, rfl, rfl⟩

end

/-! ### The power loop (R463) -/

section
variable {s : State}

/-- A missed heartbeat is reported. -/
def State.beatSeen (s : State) : State := if s.crn.hbMissed then (s.modCrn fun c => { c with hbMissed := false }).crnPost 0x9020 else s

/-- The points that hold the cap, as Crown keeps them. -/
def State.newPoints (s : State) (pts : Vector (Fin 8) 4) : State := { s with crn := { s.crn with pts := pts, loopAt := s.tb.cnt } }

theorem State.beatSeen_crn (s : State) : s.beatSeen.crn = { s.crn with hbMissed := false } := by
  unfold State.beatSeen
  split
  · rfl
  · next h => rw [← Bool.eq_false_iff.mpr h]

theorem State.beatSeen_tb (s : State) : s.beatSeen.tb = s.tb := by
  unfold State.beatSeen
  split <;> rfl

theorem State.beatSeen_pwr (s : State) : s.beatSeen.pwr = s.pwr := by
  unfold State.beatSeen
  split <;> rfl

theorem State.beatSeen_missed (h : s.crn.hbMissed = true) :
    s.beatSeen.evt.incoming = s.evt.incoming ++ [⟨0x9020, 0x70, s.tb.cnt, none, false, false⟩] := by
  rw [State.beatSeen, if_pos h]
  rfl

/-- A period of the power loop: what Crown keeps, the points set, and the heartbeat. -/
theorem State.powerLoop_spec (s : State) (pts : Vector (Fin 8) 4) : let t := s.powerLoop pts
    t.crn.pts = pts ∧ t.crn.loopAt = s.tb.cnt ∧ t.crn.hbMissed = false ∧ t.pwr.hbCause = false ∧
      (∀ d : Fin 4, ptFp t.pwr.pt d ≤ min pts[d].val s.crn.thermal[d].val) ∧
      (∀ d : Fin 4, s.pwr.brim d = true → ptFp t.pwr.pt d ≤ ptFp s.pwr.pt d) ∧
      (s.crn.hbMissed = true → ∃ m, t.evt.incoming = s.evt.incoming ++ ⟨0x9020, 0x70, s.tb.cnt, none, false, false⟩ :: m) := by
  obtain ⟨u, hu⟩ : ∃ u, u = s.beatSeen.newPoints pts := ⟨_, rfl⟩
  have heq : s.powerLoop pts = u.setPoints.gather.brimRelease fun p => { p with hbCause := false } := by rw [hu]; rfl
  have hcrn : u.crn = { s.crn with hbMissed := false, pts := pts, loopAt := s.tb.cnt } := by
    rw [hu, State.newPoints, State.beatSeen_crn, State.beatSeen_tb]
  have hpwr : u.pwr = s.pwr := by
    rw [hu]
    exact s.beatSeen_pwr
  obtain ⟨hsetCrn, hsetEvt⟩ := u.setPoints_rest
  obtain ⟨m, hm⟩ := u.setPoints.gather.brimRelease_posts fun p => { p with hbCause := false }
  rw [heq, hm]
  refine ⟨?_, ?_, ?_, rfl, fun d => ?_, fun d hd => ?_, fun h => ⟨m, ?_⟩⟩
  · exact (congrArg CrnState.pts hsetCrn).trans (congrArg CrnState.pts hcrn)
  · exact (congrArg CrnState.loopAt hsetCrn).trans (congrArg CrnState.loopAt hcrn)
  · exact (congrArg CrnState.hbMissed hsetCrn).trans (congrArg CrnState.hbMissed hcrn)
  · have hw := u.wanted_le d
    rw [hcrn] at hw
    exact (u.setPoints_fp d).trans hw
  · have hw := State.wanted_limited (s := u) (d := d) (by rw [hpwr]; exact hd)
    rw [hpwr] at hw
    exact (u.setPoints_fp d).trans hw
  · have hevt : u.setPoints.gather.evt.incoming = s.evt.incoming ++ [⟨0x9020, 0x70, s.tb.cnt, none, false, false⟩] := by
      refine (congrArg EvtState.incoming hsetEvt).trans ?_
      rw [hu]
      exact State.beatSeen_missed h
    change u.setPoints.gather.evt.incoming ++ m = _
    rw [hevt, List.append_assoc]
    rfl

end

/-! ### The thermal loop (R482) -/

section
variable {s t : State} {d e : Fin 4}

/-- Whether a sensor of a die exceeds its limit, and whether none does but one is not yet 5 degrees below it. -/
def PwrState.over (p : PwrState) (d : Fin 4) : Prop := ∃ x ∈ dieExcess p d, 0 < x
def PwrState.near (p : PwrState) (d : Fin 4) : Prop := (∀ x ∈ dieExcess p d, x ≤ 0) ∧ ∃ x ∈ dieExcess p d, -80 < x

/-- One die under the thermal loop. -/
theorem State.thermalDie_spec (s : State) (d : Fin 4) : ∃ b cool, (s.thermalDie d).crn =
    { s.crn with thermal := s.crn.thermal.set d b, coolAt := s.crn.coolAt.set d cool } ∧ (s.thermalDie d).pwr = s.pwr ∧
      (s.thermalDie d).tb = s.tb ∧ (s.pwr.over d → b.val = min s.crn.thermal[d].val s.crn.pts[d].val - 1) ∧
      (s.pwr.near d → b = s.crn.thermal[d]) := by
  unfold State.thermalDie
  extract_lets c ts was cool long b u now
  have hover (h : s.pwr.over d) : b.val = min s.crn.thermal[d].val s.crn.pts[d].val - 1 := by
    obtain ⟨x, hx, h0⟩ := h
    have hany : (ts.any fun t => decide (0 < t)) = true := List.any_eq_true.mpr ⟨x, hx, decide_eq_true h0⟩
    have hb : b = Fin.ofNat 8 (min c.thermal[d].val c.pts[d].val - 1) := if_pos hany
    rw [hb]
    exact Nat.mod_eq_of_lt (by have := s.crn.thermal[d].isLt; omega)
  have hnear (h : s.pwr.near d) : b = s.crn.thermal[d] := by
    obtain ⟨hle, x, hx, h80⟩ := h
    have hany : ¬ (ts.any fun t => decide (0 < t)) = true := by
      simpa using hle
    have hall : ¬ (ts.all fun t => decide (t ≤ -80)) = true := by
      simp only [List.all_eq_true, decide_eq_true_eq]
      exact fun h => absurd (h x hx) (Int.not_le.mpr h80)
    have hcool : cool = none := if_neg hall
    have hlong : ¬ long = true := by
      simp only [long, hcool]
      decide
    exact (if_neg hany).trans (if_neg hlong)
  refine ⟨b, cool, ?_, ?_, ?_, hover, hnear⟩ <;> (repeat' split) <;> rfl

/-- All four dies, each once. -/
theorem State.thermalDies_spec {l : List (Fin 4)} (hl : l.Nodup) (s : State) : let t := l.foldl State.thermalDie s
    t.pwr = s.pwr ∧ t.tb = s.tb ∧ t.crn.pts = s.crn.pts ∧ t.crn.thermAt = s.crn.thermAt ∧ (∀ e ∉ l, t.crn.thermal[e] = s.crn.thermal[e]) ∧
      (∀ e ∈ l, s.pwr.over e → t.crn.thermal[e].val = min s.crn.thermal[e].val s.crn.pts[e].val - 1) ∧
      (∀ e ∈ l, s.pwr.near e → t.crn.thermal[e] = s.crn.thermal[e]) := by
  induction l generalizing s with
  | nil => exact ⟨rfl, rfl, rfl, rfl, fun _ _ => rfl, fun e he => absurd he List.not_mem_nil, fun e he => absurd he List.not_mem_nil⟩
  | cons d l ih =>
    obtain ⟨hd, hl⟩ := List.nodup_cons.mp hl
    obtain ⟨b, cool, hcrn, hpwr, htb, hover, hnear⟩ := s.thermalDie_spec d
    obtain ⟨ihpwr, ihtb, ihpts, ihat, ihout, ihover, ihnear⟩ := ih hl (s.thermalDie d)
    have hpts : (s.thermalDie d).crn.pts = s.crn.pts := by rw [hcrn]
    have hsame : (s.thermalDie d).crn.thermal[d] = b := by simp [hcrn]
    have hother {e : Fin 4} (he : e ≠ d) : (s.thermalDie d).crn.thermal[e] = s.crn.thermal[e] := by
      rw [hcrn]
      exact Vector.getElem_set_ne d.isLt e.isLt fun hv => he (Fin.ext hv.symm)
    rw [hpwr] at ihover ihnear
    refine ⟨ihpwr.trans hpwr, ihtb.trans htb, ihpts.trans hpts, ihat.trans (by rw [hcrn]), fun e he => ?_, fun e he h => ?_,
      fun e he h => ?_⟩
    · obtain ⟨hne, hmem⟩ : e ≠ d ∧ e ∉ l := by simpa using he
      exact (ihout e hmem).trans (hother hne)
    · obtain rfl | hmem := List.mem_cons.mp he
      · exact (congrArg Fin.val ((ihout e hd).trans hsame)).trans (hover h)
      · have hne : e ≠ d := fun hed => hd (hed ▸ hmem)
        rw [List.foldl_cons, ihover e hmem h, hother hne, hpts]
    · obtain rfl | hmem := List.mem_cons.mp he
      · exact ((ihout e hd).trans hsame).trans (hnear h)
      · have hne : e ≠ d := fun hed => hd (hed ▸ hmem)
        rw [List.foldl_cons, ihnear e hmem h, hother hne]

theorem State.thermalLoop_spec (s : State) : let t := s.thermalLoop
    t.crn.pts = s.crn.pts ∧ t.crn.thermAt = s.tb.cnt ∧
      (∀ d : Fin 4, s.pwr.over d → t.crn.thermal[d].val = min s.crn.thermal[d].val s.crn.pts[d].val - 1) ∧
      (∀ d : Fin 4, s.pwr.near d → t.crn.thermal[d] = s.crn.thermal[d]) := by
  obtain ⟨-, -, hpts, hat, -, hover, hnear⟩ :=
    State.thermalDies_spec (List.nodup_finRange 4) (s.modCrn fun c => { c with thermAt := s.tb.cnt })
  obtain ⟨u, hu⟩ : ∃ u, u = (List.finRange 4).foldl State.thermalDie (s.modCrn fun c => { c with thermAt := s.tb.cnt }) := ⟨_, rfl⟩
  obtain ⟨hcrn, -⟩ := u.setPoints_rest
  have heq : s.thermalLoop = u.setPoints.gather := by rw [hu]; rfl
  rw [← hu] at hpts hat hover hnear
  obtain ⟨-, -, hgpts, -, hgat, -, hgth⟩ := u.setPoints.gather_rest
  simp only [heq, hgpts, hgat, hgth, hcrn]
  exact ⟨hpts, hat, fun d => hover d (List.mem_finRange d), fun d => hnear d (List.mem_finRange d)⟩

end

/-! ### DIMM temperatures (R334) -/

section
variable {s : State}

theorem State.dimmTemps_spec (l : List (Fin 16)) (v : Vector Byte 16) (s : State) (hl : l.Nodup) :
    let t := l.foldl (fun x ch => x.modChan ch fun c => { c with temp := v[ch] }) s
    (∀ ch : Fin 16, t.ddr.ch[ch] = if ch ∈ l then { s.ddr.ch[ch] with temp := v[ch] } else s.ddr.ch[ch]) ∧ { t with ddr := s.ddr } = s := by
  induction l generalizing s with
  | nil => exact ⟨fun _ => rfl, rfl⟩
  | cons a l ih =>
    obtain ⟨ha, hl⟩ := List.nodup_cons.mp hl
    obtain ⟨hch, hrest⟩ := ih (s.modChan a fun c => { c with temp := v[a] }) hl
    refine ⟨fun ch => (hch ch).trans ?_, congrArg (fun x : State => { x with ddr := s.ddr }) hrest⟩
    by_cases he : ch = a
    · subst he
      simp [ha, State.modChan]
    · have hother : (s.modChan a fun c => { c with temp := v[a] }).ddr.ch[ch] = s.ddr.ch[ch] :=
        Vector.getElem_set_ne a.isLt ch.isLt fun hv => he (Fin.ext hv.symm)
      simp only [hother, List.mem_cons, he, false_or]

end

/-! ### Telemetry (R481) -/

section
variable {s : State}

theorem State.telemRecord_length (s : State) (p i v : BitVec 16) : (s.telemRecord p i v).length = 128 := by
  simp [State.telemRecord, leBytes_length]

theorem State.poisons_ddr (l : List Nat) (s : State) : (l.foldl State.ddrPoison s).ddr = s.ddr := by
  obtain ⟨m, hm⟩ := PostsOnly.foldl (f := State.ddrPoison) (fun _ _ => ⟨_, rfl⟩) l s
  rw [hm]

theorem State.poisons_crn (l : List Nat) (s : State) : (l.foldl State.ddrPoison s).crn = s.crn := by
  obtain ⟨m, hm⟩ := PostsOnly.foldl (f := State.ddrPoison) (fun _ _ => ⟨_, rfl⟩) l s
  rw [hm]

theorem State.ddrPut_crown (s : State) (a : Nat) (bs : List Byte) : s.ddrPut .crown a bs = (s.ddrAccept .crown a bs).1 := ite_self _

/-- The bursts that a write poisons again. -/
def DdrState.partlyBad (d : DdrState) (a n : Nat) : List Nat :=
  ((d.bursts a n).filter d.isBad).filter fun b => !(d.wholeBursts a n).contains b

theorem State.ddrAccept_stores {who : DdrWho} {a : Nat} {bs : List Byte} (h : s.ddr.admitsAll who true a bs.length = true)
    (hu : s.ddrAnswers who (s.ddr.bursts a bs.length) = true) : (s.ddrAccept who a bs).1 =
      { ((s.ddr.partlyBad a bs.length).foldl State.ddrPoison s) with ddr := { s.ddr.store a bs with
        bad := SMap.drop (fun b => (s.ddr.wholeBursts a bs.length).contains b) (s.ddr.store a bs).bad } } := by
  simp only [State.ddrAccept, h, hu, if_true, State.poisons_ddr]
  rfl

/-- Crown's own accesses do not read Crown. -/
theorem State.crownPut_crn (s : State) (c : CrnState) (a : Nat) (bs : List Byte) :
    (State.ddrPut { s with crn := c } .crown a bs).ddr = (s.ddrPut .crown a bs).ddr ∧ (State.ddrPut { s with crn := c } .crown a bs).crn = c := by
  simp only [State.ddrPut_crown]
  by_cases hadmit : s.ddr.admitsAll .crown true a bs.length = true
  · by_cases hanswers : s.ddrAnswers .crown (s.ddr.bursts a bs.length) = true
    · rw [State.ddrAccept_stores hadmit hanswers, State.ddrAccept_stores (s := { s with crn := c }) hadmit hanswers]
      exact ⟨rfl, State.poisons_crn _ { s with crn := c }⟩
    · have hsilent : ¬ State.ddrAnswers { s with crn := c } .crown (s.ddr.bursts a bs.length) = true := hanswers
      rw [State.ddrAccept_of_silent hadmit hanswers, State.ddrAccept_of_silent (s := { s with crn := c }) hadmit hsilent]
      exact ⟨rfl, rfl⟩
  · rw [State.ddrAccept_of_refused hadmit, State.ddrAccept_of_refused (s := { s with crn := c }) hadmit]
    exact ⟨rfl, rfl⟩

/-- A telemetry record: kept, and placed where a ring stands. -/
theorem State.telemetry_spec (s : State) (p i v : BitVec 16) : let t := s.telemetry p i v
    t.crn.newest = s.telemRecord p i v ∧ (s.crn.ring = none → t.ddr = s.ddr ∧ t.crn.twidx = s.crn.twidx) ∧
      (∀ g, s.crn.ring = some g → t.crn.twidx = s.crn.twidx + 1 ∧
        t.ddr = (s.ddrPut .crown (g.base + 128 * (s.crn.twidx.toNat % g.entries)) (s.telemRecord p i v)).ddr) := by
  obtain ⟨c, hc⟩ : ∃ c, c = { s.crn with
    newest := s.telemRecord p i v, gap := false, tmax := s.pwr.eff, clkMin := none, sawBrim := false, sawThrot := false } := ⟨_, rfl⟩
  have hring : c.ring = s.crn.ring := by rw [hc]
  have hidx : c.twidx = s.crn.twidx := by rw [hc]
  have hnew : c.newest = s.telemRecord p i v := by rw [hc]
  have heq : s.telemetry p i v = match c.ring with
      | none => { s with crn := c }
      | some g => ((State.ddrPut { s with crn := c } .crown (g.base + 128 * (c.twidx.toNat % g.entries)) (s.telemRecord p i v)).modCrn
          fun c => { c with twidx := c.twidx + 1 }) := by rw [hc]; rfl
  rw [heq]
  cases hg : c.ring with
  | none => exact ⟨hnew, fun _ => ⟨rfl, hidx⟩, fun g h => by cases hg.symm.trans (hring.trans h)⟩
  | some g =>
    obtain ⟨hddr, hcrn⟩ := s.crownPut_crn c (g.base + 128 * (c.twidx.toNat % g.entries)) (s.telemRecord p i v)
    simp only
    generalize State.ddrPut { s with crn := c } .crown (g.base + 128 * (c.twidx.toNat % g.entries)) (s.telemRecord p i v) = u at hddr hcrn ⊢
    refine ⟨(congrArg CrnState.newest hcrn).trans hnew, fun h => ?_, fun g' h => ?_⟩
    · cases hg.symm.trans (hring.trans h)
    · obtain rfl : g = g' := Option.some.inj (hg.symm.trans (hring.trans h))
      refine ⟨(congrArg (fun c => c.twidx + 1) hcrn).trans (by rw [hidx]), hddr.trans (by rw [hidx])⟩

end

/-! ### Load, heartbeat and watchdog (R462 to R464) -/

section
variable {s : State}

/-- Crown's load as a check leaves it. -/
def State.loadSeen (s : State) (load : Nat) (low : Option Word) : State := { s with crn := { s.crn with load := load, lowSince := low } }

theorem State.loadCheck_eq (load : Nat) : s.loadCheck load =
    let low := if load < 70 then some (s.crn.lowSince.getD s.tb.cnt) else none
    let t := s.loadSeen load low
    if !s.crn.coal && decide (80 < load) then (t.modCrn fun c => { c with coal := true }).crnPost 0x9002
    else match low with
      | some c => if s.crn.coal && decide (500000000 ≤ (s.tb.cnt - c).toNat) then (t.modCrn fun c => { c with coal := false }).crnPost 0x9003 else t
      | none => t := rfl

theorem State.heartbeatMiss_spec (h : s.pwr.hbCause = false) : let t := s.heartbeatMiss
    t.pwr.hbCause = true ∧ t.crn.hbMissed = true ∧ (∀ d, t.pwr.brim d = true) ∧
      ∃ m, t.evt.incoming = s.evt.incoming ++ ⟨0x9051, 0xC7, s.tb.cnt, none, false, false⟩ :: m := by
  obtain ⟨m, hm⟩ := s.brimAssert_new 0x9051 fun p => { p with hbCause := true }
  simp only [State.heartbeatMiss, h, Bool.not_false, hm]
  exact ⟨trivial, trivial, fun d => PwrState.brim_of_cause (Or.inr (Or.inl rfl)), m, rfl⟩

theorem CrnState.rom_rest (c : CrnState) (a : Bool) : (c.rom a).rst = c.rst ∧ (c.rom a).chal = c.chal := by
  unfold CrnState.rom
  split <;> exact ⟨rfl, rfl⟩

theorem CrnState.rom_mode (c : CrnState) (a : Bool) : (c.rom a).mode = if c.imageOk then .running else .recovery := by
  unfold CrnState.rom
  split <;> rfl

/-- A start from ROM leaves all but Crown, and posts where recovery begins. -/
theorem State.romStart_spec (s : State) (a : Bool) :
    (s.romStart a).crn = { s.crn.rom a with loopAt := s.tb.cnt, thermAt := s.tb.cnt } ∧ (s.romStart a).cores = s.cores ∧
      (s.romStart a).ddr = s.ddr ∧ (s.romStart a).tb = s.tb := by
  simp only [State.romStart]
  split <;> exact ⟨rfl, rfl, rfl, rfl⟩

/-- The request that was executing is answered INTERNAL. -/
def State.cutRequest (s : State) (busy : Bool) : State :=
  match busy, s.crn.nextReq with
  | true, some (b, r) => s.answer b r (8, [])
  | _, _ => s

theorem State.cutRequest_unmailed (busy : Bool) : (s.cutRequest busy).unmailed = s.unmailed := by
  unfold State.cutRequest
  split
  · exact State.answer_unmailed
  · rfl

/-- Crown's own state before it starts again. -/
def CrnState.restarted (c : CrnState) (erased : Bool) : CrnState :=
  { c.cutUpdate erased with chal := none, gap := true, rst := satAdd 0xFF c.rst 1 }

theorem State.watchdog_eq {busy erased : Bool} (hc : s.crn.mode ≠ .rom) (hm : s.pwr.mode = .run) : ∃ a, s.watchdog busy erased =
    ((State.romStart { s.cutRequest busy with crn := (s.cutRequest busy).crn.restarted erased } a).crnPost 0x9001).mbxSettle :=
  ⟨_, if_neg (by simp [hc, hm])⟩

theorem CrnState.restarted_imageOk (c : CrnState) : (c.restarted false).imageOk = c.imageOk := by
  simp [CrnState.imageOk, CrnState.restarted, CrnState.cutUpdate]

/-- What answers of the mailbox leave of Crown and the module. -/
theorem State.unmailed_keeps {u : State} (h : u.unmailed = s.unmailed) : u.crn.rst = s.crn.rst ∧ u.crn.chal = s.crn.chal ∧
    u.crn.imageOk = s.crn.imageOk ∧ u.crn.mode = s.crn.mode ∧ u.cores = s.cores ∧ u.ddr = s.ddr ∧ u.tb = s.tb := by
  have hrst := congrArg (fun x : State => x.crn.rst) h
  have hchal := congrArg (fun x : State => x.crn.chal) h
  have himage := congrArg (fun x : State => x.crn.imageOk) h
  have hmode := congrArg (fun x : State => x.crn.mode) h
  have hcores := congrArg State.cores h
  have hddr := congrArg State.ddr h
  have htb := congrArg State.tb h
  exact ⟨hrst, hchal, himage, hmode, hcores, hddr, htb⟩

/-- A start of Crown alone, from ROM. -/
theorem State.restart_spec (v : State) (a : Bool) : let t := ((v.romStart a).crnPost 0x9001).mbxSettle
    t.crn.rst = v.crn.rst ∧ t.crn.chal = v.crn.chal ∧ t.crn.mode = (if v.crn.imageOk then .running else .recovery) ∧
      ⟨0x9001, 0x70, v.tb.cnt, none, false, false⟩ ∈ t.evt.incoming ∧ t.cores = v.cores ∧ t.ddr = v.ddr := by
  obtain ⟨hcrn, hcores, hddr, htb⟩ := v.romStart_spec a
  obtain ⟨hrst, hchal⟩ := v.crn.rom_rest a
  have hevent : ⟨0x9001, 0x70, v.tb.cnt, none, false, false⟩ ∈ ((v.romStart a).crnPost 0x9001).evt.incoming := by
    rw [← htb]
    exact List.mem_append_right _ (List.mem_singleton.mpr rfl)
  have hpost : ((v.romStart a).crnPost 0x9001).crn = (v.romStart a).crn ∧ ((v.romStart a).crnPost 0x9001).cores = (v.romStart a).cores ∧
    ((v.romStart a).crnPost 0x9001).ddr = (v.romStart a).ddr := ⟨rfl, rfl, rfl⟩
  obtain ⟨hpcrn, hpcores, hpddr⟩ := hpost
  obtain ⟨hsrst, hschal, -, hsmode, hscores, hsddr, -⟩ := State.unmailed_keeps (State.mbxSettle_unmailed (s := (v.romStart a).crnPost 0x9001))
  refine ⟨?_, ?_, ?_, State.mbxSettle_incoming.subset hevent, hscores.trans (hpcores.trans hcores), hsddr.trans (hpddr.trans hddr)⟩
  · rw [hsrst, hpcrn, hcrn, hrst]
  · rw [hschal, hpcrn, hcrn, hchal]
  · rw [hsmode, hpcrn, hcrn, CrnState.rom_mode]

/-- A restart of Crown by its watchdog. -/
theorem State.watchdog_spec {busy : Bool} (hc : s.crn.mode = .running) (hm : s.pwr.mode = .run) : let t := s.watchdog busy false
    t.crn.rst = min 0xFF (s.crn.rst + 1) ∧ t.crn.chal = none ∧ (s.crn.imageOk = true → t.crn.mode = .running) ∧
      (s.crn.imageOk = false → t.crn.mode = .recovery) ∧ ⟨0x9001, 0x70, s.tb.cnt, none, false, false⟩ ∈ t.evt.incoming ∧
      t.cores = s.cores ∧ t.ddr = s.ddr := by
  obtain ⟨a, heq⟩ := State.watchdog_eq (busy := busy) (erased := false) (s := s) (by rw [hc]; decide) hm
  obtain ⟨hrst, -, himage, -, hcores, hddr, htb⟩ := State.unmailed_keeps (s.cutRequest_unmailed busy)
  obtain ⟨v, hv⟩ : ∃ v : State, v = { s.cutRequest busy with crn := (s.cutRequest busy).crn.restarted false } := ⟨_, rfl⟩
  have hvrst : v.crn.rst = min 0xFF (s.crn.rst + 1) := by rw [hv, ← hrst]; rfl
  have hvchal : v.crn.chal = none := by rw [hv]; rfl
  have hvimage : v.crn.imageOk = s.crn.imageOk := by rw [hv, ← himage]; exact CrnState.restarted_imageOk _
  have hvrest : v.cores = s.cores ∧ v.ddr = s.ddr ∧ v.tb = s.tb := by rw [hv]; exact ⟨hcores, hddr, htb⟩
  obtain ⟨hvcores, hvddr, hvtb⟩ := hvrest
  obtain ⟨trst, tchal, tmode, tevent, tcores, tddr⟩ := v.restart_spec a
  rw [hvimage] at tmode
  rw [hvtb] at tevent
  rw [heq, ← hv]
  exact ⟨trst.trans hvrst, tchal.trans hvchal, fun h => tmode.trans (if_pos h), fun h => tmode.trans (if_neg (by rw [h]; decide)), tevent,
    tcores.trans hvcores, tddr.trans hvddr⟩

end

/-- Settles O47: each clause by the lemma about its command. -/
theorem crownLoops : Obligations.CrownLoops := by
  unfold Obligations.CrownLoops
  intro s hc hm
  have hruns : s.crownRuns = true := by simp [State.crownRuns, hc, hm]
  refine ⟨fun load => ⟨fun hcoal hload => ?light, fun hcoal hload => ?heavy, fun t hcoal hlow hlong => ?relieved⟩,
    fun pts => ⟨_, congrArg Host.Outcome.next (if_pos hruns), s.powerLoop_spec pts⟩,
    ⟨_, congrArg Host.Outcome.next (if_pos hruns), ?thermal⟩, fun v => ⟨_, congrArg Host.Outcome.next (if_pos hruns), ?dimm⟩,
    fun p i v h => congrArg Host.Outcome.next (if_neg (by simp [h])), fun h => ?held, fun p i v h => ?telemetry,
    fun h => ⟨_, rfl, State.heartbeatMiss_spec h⟩, fun ini h v hi => congrArg Host.Outcome.next (if_pos hi), fun v hv => ?beat,
    fun busy hu => ⟨_, rfl, State.watchdog_spec hc hm⟩, fun x hx ht => ?valid, fun x hx ht => ?lapsed⟩
  case light =>
    have hno : ¬ ((!s.crn.coal && decide (80 < load.val)) = true) := by simp [Nat.not_lt.mpr hload]
    refine congrArg Host.Outcome.next ((if_pos hruns).trans ((if_neg hno).trans ?_))
    generalize (if load.val < 70 then some (s.crn.lowSince.getD s.tb.cnt) else none) = low
    cases low with
    | none => rfl
    | some c => exact if_neg (by simp [hcoal])
  case heavy =>
    have hyes : (!s.crn.coal && decide (80 < load.val)) = true := by simp [hcoal, hload]
    exact congrArg Host.Outcome.next ((if_pos hruns).trans (if_pos hyes))
  case relieved =>
    have hno : ¬ ((!s.crn.coal && decide (80 < load.val)) = true) := by simp [hcoal]
    have hyes : (s.crn.coal && decide (500000000 ≤ (s.tb.cnt - t).toNat)) = true := by
      rw [hcoal, decide_eq_true hlong]
      rfl
    refine congrArg Host.Outcome.next ((if_pos hruns).trans ?_)
    simp only [State.loadCheck_eq, if_neg hno, hlow, if_pos hyes]
    rfl
  case thermal =>
    obtain ⟨hpts, hat, hover, hnear⟩ := s.thermalLoop_spec
    exact ⟨hpts, hat, fun d h => hover d h, fun d hle hx => hnear d ⟨hle, hx⟩⟩
  case dimm =>
    obtain ⟨hch, hrest⟩ := State.dimmTemps_spec (List.finRange 16) v s (List.nodup_finRange 16)
    exact ⟨fun ch => (hch ch).trans (if_pos (List.mem_finRange ch)), hrest⟩
  case held =>
    obtain h | h | h := h <;> simp [State.serves, hruns, CrnClass.above, State.classReady, h]
  case telemetry =>
    obtain ⟨hnew, hnone, hring⟩ := s.telemetry_spec p i v
    exact ⟨_, congrArg Host.Outcome.next (if_pos (by rw [hruns, h]; rfl)), hnew, (congrArg List.length hnew).trans (s.telemRecord_length p i v),
      hnone, hring⟩
  case beat =>
    have hwrite : s.hbWrite 0x70 .full v = s.brimRelease fun p => { p with hbCause := false } := (if_neg (by decide)).trans (if_pos hv)
    exact ⟨_, congrArg Host.Outcome.next hwrite, State.brimRelease_pwr _, fun h hf => State.brimRelease_last _ h hf⟩
  case valid =>
    refine congrArg Host.Outcome.next (if_pos ?_)
    simp only [State.chalValid, hx, decide_eq_true_eq]
    exact ht
  case lapsed =>
    refine congrArg Host.Outcome.next (if_neg ?_)
    simp only [State.chalValid, hx, decide_eq_true_eq]
    exact Nat.not_lt.mpr ht

end Sys2Proof.Machine
end

/-! The proofs: notices and verdicts. -/

section
namespace Sys2Proof.Machine

/-! ### Streams -/

section
variable {s : State} {i j : Fin 64} {f : Stream → Stream}

theorem State.modStrm_same : (s.modStrm i f).gnt.strm[i] = f s.gnt.strm[i] := by simp [State.modStrm, State.modGnt]

theorem State.modStrm_other (h : j ≠ i) : (s.modStrm i f).gnt.strm[j] = s.gnt.strm[j] :=
  Vector.getElem_set_ne i.isLt j.isLt fun hv => h (Fin.ext hv.symm)

end

/-! ### Notices (R397, R399) -/

section
variable {s : State} {p : Fin 2} {ini : Initiator} {n : Notice} {r : Pair}

/-- What a path's initiator has staged of a notice. -/
def State.staged (s : State) (p : Fin 2) (w : BitVec 256) : State := s.modGnt fun g => { g with nqStage := g.nqStage.set p w }

/-- A whole notice, staged and judged. -/
theorem State.noticeWrite_whole {data : List Byte} (hd : data.length = 32) : s.noticeWrite p ini 0 data =
    let w := if s.pathDma p ini = true then stage32 s.gnt.nqStage[p] 0 data else s.gnt.nqStage[p]
    if s.noticeBad p ini w then (s.staged p w).noticeRefuse 0x6001
    else (s.staged p w).noticePair p (noticeOf w s.tb.cnt (s.strmNow (nqSid w)) s.gnt.notices) := by
  have hcov : (!covers 0 data.length 0x1C 0x1F) = false := by rw [hd]; rfl
  simp only [State.noticeWrite, hcov, Bool.false_eq_true, if_false]
  rfl

theorem State.noticeBad_of {w : BitVec 256} (h : s.pathDma p ini = false ∨ s.gnt.strm[nqSid w].en = false ∨ 524288 < nqLen w ∨
    (s.gnt.mode ≠ .armed ∧ s.gnt.mode ≠ .single)) : s.noticeBad p ini w = true := by
  obtain h | h | h | ⟨ha, hs⟩ := h
  · simp only [State.noticeBad, h, Bool.not_false, Bool.true_or]
  · simp only [State.noticeBad, h, Bool.not_false, Bool.or_true, Bool.true_or]
  · simp only [State.noticeBad, decide_eq_true h, Bool.or_true, Bool.true_or]
  · simp [State.noticeBad, GntState.takes, ha, hs]

/-- A notice of a scan that has been judged. -/
theorem State.noticePair_past (hg : n.golden = false) (h : n.scanseq ∈ s.gnt.strm[n.sid].judged) : s.noticePair p n = s.noticeRefuse 0x6002 := by
  refine if_pos ?_
  simp only [hg, Bool.false_eq_true, if_false, List.contains_iff_mem.mpr h, Bool.true_or]

theorem Pair.setNotice_both (h0 : (r.notice (1 - p)).isSome = true) :
    ((r.setNotice p n).n0.isSome && (r.setNotice p n).n1.isSome) = true := by
  match p with
  | 0 => exact (Bool.and_eq_true _ _).mpr ⟨rfl, h0⟩
  | 1 => exact (Bool.and_eq_true _ _).mpr ⟨h0, rfl⟩

/-- The second notice of a scan makes its pair due for comparison. -/
theorem State.noticePair_completes (hg : n.golden = false) (hj : n.scanseq ∉ s.gnt.strm[n.sid].judged)
    (hr : s.gnt.strm[n.sid].pair n.scanseq false = some r) (hd : r.dropped = false) (hp : r.notice p = none)
    (ho : (r.notice (1 - p)).isSome = true) : (s.noticePair p n).gnt.cmpq = s.gnt.cmpq ++ [(n.sid, n.scanseq)] := by
  have hboth := Pair.setNotice_both (n := n) ho
  have hnew : s.gnt.strm[n.sid].judged.contains n.scanseq = false := Bool.eq_false_iff.mpr fun h => hj (List.contains_iff_mem.mp h)
  simp only [State.noticePair, hg, hnew, hr, hd, hp, Option.isSome_none, Option.isSome_some, Option.getD_some, Bool.false_and, Bool.or_self,
    Bool.false_eq_true, if_false, Bool.not_false, Bool.true_and, hboth, Bool.or_true, if_true, State.modGnt]

end

/-! ### Comparison (R400, R403) -/

section
variable {s : State} {i : Fin 64} {t : Stream} {r : Pair} {a b : Notice}

/-- The pair at the head of the queue, compared in ARMED. -/
theorem State.gntCompare_pair {seq : BitVec 32} {rest : List (Fin 64 × BitVec 32)} (hq : s.gnt.cmpq = (i, seq) :: rest) (hm : s.gnt.mode = .armed)
    (hr : s.gnt.strm[i].pair seq false = some r) (h0 : r.n0 = some a) (h1 : r.n1 = some b) :
    let x := (s.modGnt fun g => { g with cmpq := rest }).gntRead 0 a
    let y := x.1.gntRead 1 b
    s.gntCompare = y.1.modStrm i fun t => t.setPair { r with
      result := some (s.gnt.strm[i].nbad a.len b.len x.2 y.2, crc32 (x.2.getD [])) } := by
  have hr' : (s.modGnt fun g => { g with cmpq := rest }).gnt.strm[i].pair seq false = some r := hr
  have hm' : (s.modGnt fun g => { g with cmpq := rest }).gnt.mode = .armed := hm
  simp only [State.gntCompare, hq, hr', hm', h0, h1]
  rfl

theorem State.gntCompare_none (hq : s.gnt.cmpq = []) : s.gntCompare = s := by simp only [State.gntCompare, hq]

theorem Stream.nbad_lengths {la lb : Nat} {x y : Option (List Byte)} (h : la ≠ lb) : t.nbad la lb x y = max la lb / gntWidth t.fmt := if_pos h

theorem Stream.nbad_unread {l : Nat} {y : Option (List Byte)} : t.nbad l l none y = l / gntWidth t.fmt := if_neg (not_not_intro rfl)

theorem Stream.elemBad_integer {x y : Nat} (h : 3 ≤ t.fmt) : t.elemBad x y =
    decide (t.absTol < (toSigned (8 * gntWidth t.fmt) x - toSigned (8 * gntWidth t.fmt) y).natAbs) := if_neg (Nat.not_lt.mpr h)

end

/-! ### The safe state (R413) -/

section
variable {s t u : State}

theorem State.enterSafe_again {cause : Byte} (h : s.gnt.mode = .safe) : s.enterSafe cause = s := if_pos h

theorem State.enterSafe_spec {cause : Byte} (h : s.gnt.mode ≠ .safe) : let u := s.enterSafe cause
    u.gnt.mode = .safe ∧ u.gnt.safecause = cause ∧ u.gnt.faultA = false ∧ u.gnt.faultB = false ∧
      u.flt.mrst = (if s.flt.mrst = .cold then .cold else .warm) ∧
      u.evt.incoming = s.evt.incoming ++ [⟨0x6040, 0x71, s.tb.cnt, none, false, false⟩] := by
  simp only [State.enterSafe, if_neg h]
  exact ⟨rfl, rfl, rfl, rfl, rfl, rfl⟩

/-- The streams stay, and the events posted grow. -/
structure KeepsStreams (s t : State) : Prop where
  strm : t.gnt.strm = s.gnt.strm
  posts : s.evt.incoming <+: t.evt.incoming

theorem KeepsStreams.refl (s : State) : KeepsStreams s s := ⟨rfl, List.prefix_refl _⟩

theorem State.enterSafe_keeps (cause : Byte) : KeepsStreams s (s.enterSafe cause) := by
  simp only [State.enterSafe]
  split
  · exact KeepsStreams.refl s
  · exact ⟨rfl, List.prefix_append ..⟩

theorem State.disagree_keeps (n : BitVec 32) : KeepsStreams s (s.disagree n) := by
  simp only [State.disagree]
  split
  · exact ⟨(State.enterSafe_keeps _).strm, (State.enterSafe_keeps (s := s.modGnt _) _).posts⟩
  · exact ⟨rfl, List.prefix_refl _⟩

end

/-! ### Verdicts (R401, R402, R409, R410) -/

section
variable {s : State} {i : Fin 64} {r : Pair} {v : Nat} {n : Notice}

theorem State.judge_due (hr : s.gnt.strm[i].pairs.find? (fun r => (s.verdOf i r).isSome) = some r) (hv : s.verdOf i r = some v)
    (hn : s.gnt.mainNotice r = some n) : s.judge i = s.giveVerdict i r v n := by
  simp only [State.judge, hr, hv, hn]

theorem State.judge_none (h : ∀ r ∈ s.gnt.strm[i].pairs, s.verdOf i r = none) : s.judge i = s := by
  have hnone : s.gnt.strm[i].pairs.find? (fun r => (s.verdOf i r).isSome) = none :=
    List.find?_eq_none.mpr fun r hr => by rw [h r hr]; exact Bool.false_ne_true
  simp only [State.judge, hnone]

/-- A stream with a verdict. -/
def Stream.judgedBy (t : Stream) (r : Pair) (rec : VerdictRec) (deliv : Bool) (base : Word) : Stream :=
  let u := { (t.append rec).dropPair r.scanseq false with judged := r.scanseq :: t.judged }
  if deliv then { u with ref := base, stale := false } else u

theorem Stream.judgedBy_spec (t : Stream) (rec : VerdictRec) (deliv : Bool) (base : Word) : let u := t.judgedBy r rec deliv base
    u.vwidx = t.vwidx + 1 ∧ r.scanseq ∈ u.judged ∧ (deliv = true → u.ref = base ∧ u.stale = false) ∧ (deliv = false → u.ref = t.ref) := by
  cases deliv
  · exact ⟨rfl, List.mem_cons_self, fun h => absurd h (by decide), fun _ => rfl⟩
  · exact ⟨rfl, List.mem_cons_self, fun _ => ⟨rfl, rfl⟩, fun h => absurd h (by decide)⟩

/-- The event of a verdict. -/
def State.verdictPost (s : State) (v : Nat) : State :=
  if decide (v < 2) then (if s.gnt.ven then s.gntPost 0x6008 else s) else s.gntPost (0x6010 + v - 2)

theorem State.giveVerdict_eq : ∃ rec, s.giveVerdict i r v n =
    let t := (s.modStrm i fun t => t.judgedBy r rec (decide (v < 2)) n.base).verdictPost v
    if v = 2 ∨ v = 3 then t.disagree r.scanseq else t := ⟨_, rfl⟩

theorem State.verdictPost_strm : (s.verdictPost v).gnt.strm = s.gnt.strm := by
  simp only [State.verdictPost]
  split
  · split <;> rfl
  · rfl

theorem State.verdictPost_bad (h : 2 ≤ v) :
    (s.verdictPost v).evt.incoming = s.evt.incoming ++ [⟨BitVec.ofNat 16 (0x6010 + v - 2), 0x71, s.tb.cnt, none, false, false⟩] := by
  have hno : ¬ decide (v < 2) = true := by
    rw [decide_eq_true_eq]
    omega
  rw [State.verdictPost, if_neg hno]
  rfl

/-- What a verdict does. -/
theorem State.giveVerdict_spec (s : State) (i : Fin 64) (r : Pair) (v : Nat) (n : Notice) : let u := s.giveVerdict i r v n
    u.gnt.strm[i].vwidx = s.gnt.strm[i].vwidx + 1 ∧ (v < 2 → u.gnt.strm[i].ref = n.base ∧ u.gnt.strm[i].stale = false) ∧
      (2 ≤ v → u.gnt.strm[i].ref = s.gnt.strm[i].ref ∧
        ∃ m, u.evt.incoming = s.evt.incoming ++ ⟨BitVec.ofNat 16 (0x6010 + v - 2), 0x71, s.tb.cnt, none, false, false⟩ :: m) ∧
      r.scanseq ∈ u.gnt.strm[i].judged := by
  obtain ⟨rec, heq⟩ := State.giveVerdict_eq (s := s) (i := i) (r := r) (v := v) (n := n)
  obtain ⟨w, hw⟩ : ∃ w, w = (s.modStrm i fun t => t.judgedBy r rec (decide (v < 2)) n.base).verdictPost v := ⟨_, rfl⟩
  have hkeeps : KeepsStreams w (s.giveVerdict i r v n) := by
    rw [heq, ← hw]
    simp only
    split
    · exact State.disagree_keeps _
    · exact KeepsStreams.refl w
  have hstrm : (s.giveVerdict i r v n).gnt.strm[i] = s.gnt.strm[i].judgedBy r rec (decide (v < 2)) n.base := by
    rw [hkeeps.strm, hw, State.verdictPost_strm, State.modStrm_same]
  obtain ⟨hvw, hj, hdeliv, hbad⟩ := s.gnt.strm[i].judgedBy_spec (r := r) rec (decide (v < 2)) n.base
  simp only [hstrm]
  refine ⟨hvw, fun h => hdeliv (decide_eq_true h), fun h => ⟨hbad (decide_eq_false (Nat.not_lt.mpr h)), ?_⟩, hj⟩
  obtain ⟨m, hm⟩ := hkeeps.posts
  refine ⟨m, hm.symm.trans ?_⟩
  rw [hw, State.verdictPost_bad h, List.append_assoc]
  rfl

/-- A pair whose scan is too old. -/
theorem State.verdOf_late (ha : s.armed = true) (hg : r.golden = false) (hn : s.gnt.mainNotice r = some n)
    (hstep : s.tb.dom[s.gnt.strm[i].dom].steppedAfter s.tb.cnt r.notices n.base s.gnt.strm[i].maxAge = false)
    (hl : (s.gnt.strm[i].maxAge : Int) < (s.strmNow i - n.base).toInt) : s.verdOf i r = some 4 := by
  simp only [State.verdOf, hn, hg, ha, hstep, decide_eq_true hl, Bool.not_true, Bool.or_self, Bool.false_eq_true, if_false, if_true]

/-- A pair whose notice was discarded before its scan was too old. -/
theorem State.verdOf_missing (ha : s.armed = true) (hg : r.golden = false) (hn : s.gnt.mainNotice r = some n)
    (hstep : s.tb.dom[s.gnt.strm[i].dom].steppedAfter s.tb.cnt r.notices n.base s.gnt.strm[i].maxAge = false)
    (hl : (s.strmNow i - n.base).toInt ≤ (s.gnt.strm[i].maxAge : Int)) (hd : r.dropped = true) : s.verdOf i r = some 3 := by
  simp only [State.verdOf, hn, hg, ha, hstep, decide_eq_false (Int.not_lt.mpr hl), hd, Bool.true_or, Bool.not_true, Bool.or_self,
    Bool.false_eq_true, if_false, if_true]

theorem escalates_of_neighbour {m : BitVec 32} {h : List (BitVec 32)} (hm : m - 1 ∈ h) : escalates (m :: h) = true := by
  refine List.any_eq_true.mpr ⟨m, List.mem_cons_self, ?_⟩
  rw [List.contains_iff_mem.mpr (List.mem_cons_of_mem m hm)]
  rfl

end

/-! ### Age monitors (R404) -/

section
variable {s : State} {i : Fin 64}

theorem State.ageOne_off (h : s.gnt.strm[i].en = false ∨ s.armed = false) : s.ageOne i = s := by
  refine if_pos ?_
  obtain h | h := h <;> simp only [h, Bool.not_false, Bool.true_or, Bool.or_true]

theorem State.ages_off {l : List (Fin 64)} (h : ∀ i ∈ l, s.gnt.strm[i].en = false ∨ s.armed = false) : l.foldl State.ageOne s = s := by
  induction l with
  | nil => rfl
  | cons i l ih =>
    rw [List.foldl_cons, State.ageOne_off (h i List.mem_cons_self)]
    exact ih fun j hj => h j (List.mem_cons_of_mem i hj)

/-- A stream found stale. -/
def State.staled (s : State) (i : Fin 64) : State :=
  (s.modStrm i fun t => { t with stale := true, staleAt := s.strmNow i }).gntPost 0x6014

theorem State.staled_other {j : Fin 64} (h : j ≠ i) : (s.staled i).gnt.strm[j] = s.gnt.strm[j] :=
  State.modStrm_other (s := s) (f := fun t => { t with stale := true, staleAt := s.strmNow i }) h

theorem State.ageOne_old (ha : s.armed = true) (he : s.gnt.strm[i].en = true) (hs : s.gnt.strm[i].stale = false)
    (hl : (s.gnt.strm[i].maxAge : Int) < (s.strmNow i - s.gnt.strm[i].ref).toInt) : s.ageOne i = s.staled i := by
  simp only [State.ageOne, ha, he, hs, decide_eq_true hl, Bool.not_true, Bool.or_self, Bool.false_eq_true, if_false, Bool.not_false,
    Bool.true_and, if_true, Bool.false_and]
  rfl

/-- Only one stream is enabled, and it has become too old. -/
theorem State.ageCheck_one (ha : s.armed = true) (ho : ∀ j : Fin 64, j ≠ i → s.gnt.strm[j].en = false) (he : s.gnt.strm[i].en = true)
    (hs : s.gnt.strm[i].stale = false) (hl : (s.gnt.strm[i].maxAge : Int) < (s.strmNow i - s.gnt.strm[i].ref).toInt) :
    (List.finRange 64).foldl State.ageOne s = s.staled i := by
  obtain ⟨before, after, hsplit⟩ := List.append_of_mem (List.mem_finRange i)
  have hnodup : (before ++ i :: after).Nodup := hsplit ▸ List.nodup_finRange 64
  obtain ⟨-, hcons, hdisj⟩ := List.nodup_append.mp hnodup
  obtain ⟨hafter, -⟩ := List.nodup_cons.mp hcons
  have hbefore : ∀ j ∈ before, s.gnt.strm[j].en = false ∨ s.armed = false :=
    fun j hj => Or.inl (ho j (hdisj j hj i List.mem_cons_self))
  have hrest : ∀ j ∈ after, (s.staled i).gnt.strm[j].en = false ∨ (s.staled i).armed = false := by
    intro j hj
    have hne : j ≠ i := fun h => hafter (h ▸ hj)
    exact Or.inl (by rw [State.staled_other hne, ho j hne])
  rw [hsplit, List.foldl_append, State.ages_off hbefore, List.foldl_cons, State.ageOne_old ha he hs hl, State.ages_off hrest]

end

/-- Settles O42: each clause by the lemma about its command or function. -/
theorem noticesAndVerdicts : Obligations.NoticesAndVerdicts := by
  unfold Obligations.NoticesAndVerdicts
  intro s p ini i
  refine ⟨fun data hd => ?notice, fun n hi hg hj => ?past, fun n r hm hi hg hj hr hd hp ho => ?completes,
    fun seq rest r a b hq hm hr h0 h1 => congrArg Host.Outcome.next (State.gntCompare_pair hq hm hr h0 h1),
    fun h => congrArg Host.Outcome.next (State.gntCompare_none h), fun la lb a b h => Stream.nbad_lengths h, fun l b => Stream.nbad_unread,
    fun a b h => Stream.elemBad_integer h, fun r v n hr hv hn => congrArg Host.Outcome.next (State.judge_due hr hv hn),
    fun h => congrArg Host.Outcome.next (State.judge_none h), fun r v n _ => s.giveVerdict_spec i r v n,
    fun r n ha hg hn hstep => ⟨fun hl => State.verdOf_late ha hg hn hstep hl, fun hl hd => State.verdOf_missing ha hg hn hstep hl hd⟩,
    fun n h => escalates_of_neighbour, fun cause h => State.enterSafe_again h, fun cause h => State.enterSafe_spec h,
    fun h => congrArg Host.Outcome.next (State.ages_off fun j _ => Or.inr h),
    fun ha ho he hs _ hl => congrArg Host.Outcome.next (State.ageCheck_one ha ho he hs hl)⟩
  case notice =>
    have hexec : exec (.gntNotice p ini 0 data) s = .next (s.noticeWrite p ini 0 data) :=
      inRange_of_ok (by simp [bytesIn, hd])
    refine ⟨fun hbad => ?_, fun hok => ?_, State.noticeBad_of⟩
    · rw [hexec, State.noticeWrite_whole hd]
      exact congrArg Host.Outcome.next (if_pos hbad)
    · rw [hexec, State.noticeWrite_whole hd]
      exact congrArg Host.Outcome.next (if_neg (by rw [hok]; exact Bool.false_ne_true))
  case past =>
    subst hi
    exact State.noticePair_past hg hj
  case completes =>
    subst hi
    exact State.noticePair_completes hg hj hr hd hp ho

end Sys2Proof.Machine
end

/-! The proofs: golden patterns and fences. -/

section
namespace Sys2Proof.Machine

/-! ### Arming (R418) -/

section
variable {s : State} {p : Fin 2} {ini : Initiator}

theorem gntOwner_false (h : ¬ (ini.val = 0x60 ∨ ini.val = 0x70)) : gntOwner ini = false :=
  Bool.eq_false_iff.mpr fun ho => h (gntOwner_iff.mp ho)

theorem State.arm_ignored (h : ¬ (ini.val = 0x60 ∨ ini.val = 0x70) ∨ s.gnt.mode ≠ .off) : s.arm ini = s := by
  refine if_pos ?_
  obtain h | h := h
  · rw [gntOwner_false h]
    rfl
  · rw [decide_eq_true h, Bool.or_true]

/-- A write of ARM by its owners in OFF, outside a DOZE exit, is the arming check. -/
theorem State.arm_checks (h : ini.val = 0x60 ∨ ini.val = 0x70) (hm : s.gnt.mode = .off) (hd : s.gnt.dozed = false) : s.arm ini = s.armCheck := by
  have hno : ¬ ((!gntOwner ini || decide (s.gnt.mode ≠ .off)) = true) := by
    rw [gntOwner_iff.mpr h, hm]
    decide
  exact (if_neg hno).trans (if_neg (by rw [hd]; exact Bool.false_ne_true))

theorem State.armCheck_passes (h : s.armFails = none) : s.armCheck = s.enterArmed := by simp only [State.armCheck, h]

/-- The arming check while the TAPs are unlocked. -/
theorem State.armCheck_unlocked (hm : s.gnt.mode = .off) (h : s.crn.unlocked = true) :
    s.armCheck = (State.postPart { s with gnt := { s.gnt with armfail := 0x10 } } 0x6051 0x71 none) := by
  have hf : s.armFails = some (some 0x10) := if_pos h
  have hg : { s.gnt with mode := .off } = s.gnt := by rw [← hm]
  simp only [State.armCheck, hf, State.armRefuse, State.modGnt, hg]
  rfl

theorem State.armFails_unsafe (h : s.coresSafe = false ∨ s.ddr.pathsSafe = false) : s.armFails ≠ none := by
  simp only [State.armFails]
  split
  · exact Option.some_ne_none _
  · next hu =>
    rw [if_pos]
    · exact Option.some_ne_none _
    · obtain h | h := h <;> simp [h]

/-- DRGN of channel 15 on both dies. -/
def State.pathsMapped (s : State) : State := { s with dma := { s.dma with
  drgn := Vector.ofFn fun d : Fin 2 => s.dma.drgn[d].set (1 : Fin 2) (s.ddr.pathDrgn d) } }

/-- Gauntlet armed. -/
def GntState.armedFrom (g : GntState) : GntState := { g with
  mode := if g.fence = 0 then .armed else .single
  strm := g.strm.map fun t => { t with pairs := [], judged := [] }
  wasArmed := false, history := [], cmpq := [], runs := []
  since := Vector.replicate 4 0, faultA := true, faultB := false }

theorem State.enterArmed_eq : s.enterArmed = s.pathsMapped.ageFromNow.modGnt GntState.armedFrom := rfl

theorem State.ageFromNow_strm (j : Fin 64) : s.ageFromNow.gnt.strm[j] = { s.gnt.strm[j] with ref := s.strmNow j } := by
  simp [State.ageFromNow, State.modGnt]

theorem GntState.armedFrom_strm (g : GntState) (j : Fin 64) : g.armedFrom.strm[j] = { g.strm[j] with pairs := [], judged := [] } := by
  simp [GntState.armedFrom]

theorem GntState.armedFrom_spec (g : GntState) : (g.fence = 0 → g.armedFrom.mode = .armed) ∧ (g.fence ≠ 0 → g.armedFrom.mode = .single) ∧
    g.armedFrom.faultA = true ∧ g.armedFrom.faultB = false ∧ g.armedFrom.fence = g.fence :=
  ⟨fun h => if_pos h, fun h => if_neg h, rfl, rfl, rfl⟩

theorem State.ageFromNow_fence : s.ageFromNow.gnt.fence = s.gnt.fence := by rw [State.ageFromNow, State.modGnt_gnt]

theorem State.enterArmed_rest : { s.enterArmed with gnt := s.gnt, dma := s.dma } = s := rfl

/-- What arming leaves. -/
theorem State.enterArmed_spec : let t := s.enterArmed
    (s.gnt.fence = 0 → t.gnt.mode = .armed) ∧ (s.gnt.fence ≠ 0 → t.gnt.mode = .single) ∧ t.gnt.faultA = true ∧ t.gnt.faultB = false ∧
      t.gnt.fence = s.gnt.fence ∧
      (∀ j : Fin 64, t.gnt.strm[j].ref = s.strmNow j ∧ t.gnt.strm[j].pairs = [] ∧ t.gnt.strm[j].stale = s.gnt.strm[j].stale) ∧
      { t with gnt := s.gnt, dma := s.dma } = s := by
  have hgnt : s.enterArmed.gnt = s.pathsMapped.ageFromNow.gnt.armedFrom := by rw [State.enterArmed_eq, State.modGnt_gnt]
  have hfence : s.pathsMapped.ageFromNow.gnt.fence = s.gnt.fence := State.ageFromNow_fence
  have hstrm (j : Fin 64) : s.enterArmed.gnt.strm[j] = { s.pathsMapped.gnt.strm[j] with ref := s.pathsMapped.strmNow j, pairs := [], judged := [] } := by
    rw [hgnt, GntState.armedFrom_strm, State.ageFromNow_strm]
  obtain ⟨harmed, hsingle, ha, hb, hkeep⟩ := s.pathsMapped.ageFromNow.gnt.armedFrom_spec
  rw [← hgnt, hfence] at hkeep
  rw [← hgnt, hfence] at harmed hsingle
  rw [← hgnt] at ha hb
  refine ⟨harmed, hsingle, ha, hb, hkeep, fun j => ?_, State.enterArmed_rest⟩
  rw [hstrm j]
  exact ⟨rfl, rfl, rfl⟩

theorem State.disarm_armed (h : ini.val = 0x60 ∨ ini.val = 0x70) (ha : s.armed = true) : s.disarm ini =
    s.modGnt fun g => { g with mode := .off, faultA := false, faultB := false, runs := [], cmpq := [] } :=
  if_pos (by rw [gntOwner_iff.mpr h, ha]; rfl)

theorem State.disarm_ignored (h : ¬ (ini.val = 0x60 ∨ ini.val = 0x70) ∨ s.armed = false) : s.disarm ini = s := by
  refine if_neg ?_
  obtain h | h := h
  · rw [gntOwner_false h]
    exact Bool.false_ne_true
  · rw [h, Bool.and_false]
    exact Bool.false_ne_true

/-! ### Start-time tests (R414) -/

/-- The tests end without a failure, outside a DOZE exit. -/
theorem State.testsDone_pass {test : Fin 12} {inst : BitVec 16} {rows : List RowFail} (hm : s.gnt.mode = .test) (hr : s.pwr.mode = .run)
    (hs : s.pwr.start = .none) (hd : s.gnt.dozed = false) : s.testsDone false test inst rows =
      if s.gnt.wasArmed then s.enterArmed else s.modGnt fun g => { g with mode := .off, faultA := false, faultB := false } := by
  have hno : ¬ (s.gnt.mode ≠ .test ∨ s.pwr.mode ≠ .run ∨ s.pwr.start ≠ .none) := by simp [hm, hr, hs]
  exact (if_neg hno).trans ((if_neg Bool.false_ne_true).trans (if_neg (by rw [hd]; exact Bool.false_ne_true)))

/-- A failed test is kept with its place. -/
theorem State.testsDone_fail {test : Fin 12} {inst : BitVec 16} {rows : List RowFail} (hm : s.gnt.mode = .test) (hr : s.pwr.mode = .run)
    (hs : s.pwr.start = .none) : let t := s.testsDone true test inst rows
    t.gnt.mode = .failed ∧ t.gnt.wasArmed = false ∧ t.gnt.testfail = BitVec.ofNat 8 (test.val + 1) ∧ t.gnt.testinst = inst := by
  have hno : ¬ (s.gnt.mode ≠ .test ∨ s.pwr.mode ≠ .run ∨ s.pwr.start ≠ .none) := by simp [hm, hr, hs]
  simp only [State.testsDone, if_neg hno, if_true]
  exact ⟨rfl, rfl, rfl, rfl⟩

/-! ### Monitors (R416, R507, R511) -/

theorem nearTo_self {pct x : Nat} (h : pct ≤ 100) : nearTo pct x x = true := by
  have hup : 100 * x ≤ (100 + pct) * x := Nat.mul_le_mul_right x (by omega)
  have hdown : (100 - pct) * x ≤ 100 * x := Nat.mul_le_mul_right x (by omega)
  rw [nearTo, decide_eq_true hup, decide_eq_true hdown]
  rfl

theorem DieMon.clockOk_stopped {k : DieMon} {cnt : Word} {x : Nat} (h : k.stopped = true) : k.clockOk cnt x = decide (x = 0) := if_pos h

theorem DieMon.clockOk_back {k : DieMon} {cnt b : Word} {x : Nat} (h : k.stopped = false) (hb : k.back = some b) (hn : (cnt - b).toNat < 1000) :
    k.clockOk cnt x = true := by
  simp only [DieMon.clockOk, h, hb, decide_eq_true hn, Bool.false_eq_true, if_false, Bool.or_true]

theorem DieMon.railOk_other {k : DieMon} {cnt b : Word} {v : Nat} (h : k.other = some (v, b)) (hn : (cnt - b).toNat ≤ 50000) :
    k.railOk cnt (pointUv v) = true := by
  simp only [DieMon.railOk, h, decide_eq_true hn, nearTo_self (by decide : 8 ≤ 100), Bool.and_self, Bool.or_true]

theorem DieMon.railOk_set {k : DieMon} {cnt : Word} : k.railOk cnt (pointUv k.vp) = true := by
  rw [DieMon.railOk, nearTo_self (by decide), Bool.true_or]

theorem State.monitored_violated {m : Monitor} {x : Nat} (hw : s.watched m = true) (hx : s.monitorOk m x = false) :
    s.monitored m x = (s.gntPost (0x6060 + monitorNumber m)).enterSafe 0x05 := if_pos (by rw [hw, hx]; rfl)

theorem State.monitored_fine {m : Monitor} {x : Nat} (h : s.watched m = false ∨ s.monitorOk m x = true) : s.monitored m x = s := by
  refine if_neg ?_
  obtain h | h := h <;> simp [h]

end

/-! ### Golden patterns (R405 to R407) -/

section
variable {s t u : State} {g j k : Fin 4} {x : Byte × BitVec 32}

/-- What frames put into a FIFO leave alone. -/
structure FifoOnly (s t : State) : Prop where
  gnt  : t.gnt = s.gnt
  tb   : t.tb = s.tb
  sn   : t.ing.sn = s.ing.sn
  sens : t.ing.sens = s.ing.sens

theorem FifoOnly.refl (s : State) : FifoOnly s s := ⟨rfl, rfl, rfl, rfl⟩

theorem FifoOnly.trans (h : FifoOnly s t) (e : FifoOnly t u) : FifoOnly s u :=
  ⟨e.gnt.trans h.gnt, e.tb.trans h.tb, e.sn.trans h.sn, e.sens.trans h.sens⟩

theorem State.fifoPut_only (p : Fin 4) (f : RxFrame) : FifoOnly s (s.fifoPut p f) := by
  unfold State.fifoPut
  split <;> exact ⟨rfl, rfl, rfl, rfl⟩

theorem FifoOnly.foldl {α : Type} {f : State → α → State} (h : ∀ t a, FifoOnly t (f t a)) (l : List α) (s : State) : FifoOnly s (l.foldl f s) := by
  induction l generalizing s with
  | nil => exact FifoOnly.refl s
  | cons a l ih => exact (h s a).trans (ih _)

/-- What an injection of pattern `g` leaves of Gauntlet. -/
theorem State.inject_spec (s : State) (g : Fin 4) : ∃ run t, FifoOnly s t ∧ s.inject g = t.modGnt fun x => { x with
    runs := x.runs ++ [run], forced := setBit x.forced g.val false, since := x.since.set g 0, defrun := 0 } := by
  refine ⟨_, _, ?_, rfl⟩
  exact (FifoOnly.foldl (fun t f => t.fifoPut_only _ _) _ s).trans ⟨rfl, rfl, rfl, rfl⟩

/-- An opportunity rests on the pattern, the mode, the sensor's newest sweep and the time. -/
theorem State.oppDue_congr (hpat : t.gnt.gpat[j] = s.gnt.gpat[j]) (hmode : t.gnt.mode = s.gnt.mode) (hlast : t.gnt.lastOpp[j] = s.gnt.lastOpp[j])
    (hsn : t.ing.sn = s.ing.sn) (hsens : t.ing.sens = s.ing.sens) (htb : t.tb = s.tb) : t.oppDue j = s.oppDue j := by
  have harmed : t.armed = s.armed := by simp only [State.armed, hmode]
  simp only [State.oppDue, hpat, harmed, hlast, hsn, hsens, State.domTime, htb]
  rfl

/-- The opportunity of a pattern, seen. -/
def State.oppSeen (s : State) (k : Fin 4) (x : Byte × BitVec 32) : State :=
  { s with gnt := { s.gnt with lastOpp := s.gnt.lastOpp.set k (some x), since := s.gnt.since.set k (s.gnt.since[k] + 1) } }

theorem State.oppSeen_oppDue (h : j ≠ k) : (s.oppSeen k x).oppDue j = s.oppDue j :=
  State.oppDue_congr rfl rfl (Vector.getElem_set_ne k.isLt j.isLt fun hv => h (Fin.ext hv.symm)) rfl rfl rfl

theorem State.inject_oppDue (s : State) (g j : Fin 4) : (s.inject g).oppDue j = s.oppDue j := by
  obtain ⟨run, t, ht, heq⟩ := s.inject_spec g
  rw [heq]
  refine State.oppDue_congr ?_ ?_ ?_ ht.sn ht.sens ht.tb
  · rw [State.modGnt_gnt, ht.gnt]
  · rw [State.modGnt_gnt, ht.gnt]
  · rw [State.modGnt_gnt, ht.gnt]

/-- An opportunity deferred once. -/
def State.oppDeferred (s : State) : State := (s.modGnt fun y =>
  { y with defer := false, defrun := y.defrun + 1, gdef := min 0xFFFF (y.gdef + 1) }).postPart 0x6020 0x71 none

theorem State.oppDeferred_oppDue : s.oppDeferred.oppDue j = s.oppDue j := rfl

theorem State.oppOne_none {r : State × Bool} (h : r.1.oppDue j = none) : State.oppOne r j = r := by
  simp only [State.oppOne, h]

theorem State.oppOnes_none {l : List (Fin 4)} {r : State × Bool} (h : ∀ j ∈ l, r.1.oppDue j = none) : l.foldl State.oppOne r = r := by
  induction l with
  | nil => rfl
  | cons j l ih =>
    rw [List.foldl_cons, State.oppOne_none (h j List.mem_cons_self)]
    exact ih fun i hi => h i (List.mem_cons_of_mem j hi)

/-- What one pattern does with its opportunity. -/
theorem State.oppOne_due (h : s.oppDue k = some x) : State.oppOne (s, false) k =
    if !(bit s.gnt.forced k.val || decide (gpPer s.gnt.gpat[k] ≤ s.gnt.since[k] + 1)) then (s.oppSeen k x, false)
    else if !bit s.gnt.forced k.val && s.gnt.defer && decide (s.gnt.defrun < 3) then ((s.oppSeen k x).oppDeferred, false)
    else ((s.oppSeen k x).inject k, true) := by
  simp only [State.oppOne, h, Bool.false_or]
  rfl

/-- The two grounds of a due pattern, forced or past its period, as one test. -/
theorem or_decide_of_or {b : Bool} {p : Prop} [Decidable p] (h : b = true ∨ p) : (b || decide p) = true := by
  obtain h | h := h
  · rw [h, Bool.true_or]
  · rw [decide_eq_true h, Bool.or_true]

/-- One pattern alone has an opportunity. -/
theorem State.opportunity_one {r : State × Bool} (ho : ∀ j : Fin 4, j ≠ k → s.oppDue j = none) (hr : State.oppOne (s, false) k = r)
    (hafter : ∀ j : Fin 4, j ≠ k → r.1.oppDue j = none) : (List.finRange 4).foldl State.oppOne (s, false) = r := by
  obtain ⟨before, after, hsplit⟩ := List.append_of_mem (List.mem_finRange k)
  have hnodup : (before ++ k :: after).Nodup := hsplit ▸ List.nodup_finRange 4
  obtain ⟨-, hcons, hdisj⟩ := List.nodup_append.mp hnodup
  obtain ⟨hk, -⟩ := List.nodup_cons.mp hcons
  have hbefore : before.foldl State.oppOne (s, false) = (s, false) :=
    State.oppOnes_none (r := (s, false)) fun j hj => ho j (hdisj j hj k List.mem_cons_self)
  have hrest : after.foldl State.oppOne r = r := State.oppOnes_none (r := r) fun j hj => hafter j fun h => hk (h ▸ hj)
  rw [hsplit, List.foldl_append, hbefore, List.foldl_cons, hr, hrest]

end

/-! ### Judgement (R407) -/

section
variable {s : State} {r : GoldenRun}

theorem State.goldenJudge_due (ha : s.armed = true) (h : s.gnt.runs.find? s.gnt.runComplete = some r) :
    exec .goldenJudge s = .next (s.goldJudge r) := by
  rw [exec_goldenJudge, execGoldenJudge, if_pos ha, h]

theorem State.goldenJudge_none (ha : s.armed = true) (h : s.gnt.runs = []) : exec .goldenJudge s = .next s := by
  rw [exec_goldenJudge, execGoldenJudge, if_pos ha, h]
  rfl

theorem State.goldTimeout_due (ha : s.armed = true) (h : s.gnt.runs = [r]) (hc : s.gnt.runComplete r = false)
    (ht : 100000000 ≤ (s.tb.cnt - r.cnt).toNat) : s.goldTimeout = s.goldJudge r := by
  have hlate : (!s.gnt.runComplete r && decide (100000000 ≤ (s.tb.cnt - r.cnt).toNat)) = true := by
    rw [hc, decide_eq_true ht]
    rfl
  simp only [State.goldTimeout, ha, Bool.not_true, Bool.false_eq_true, if_false, h, List.find?_cons, hlate]

theorem State.goldTimeout_none (h : s.gnt.runs = []) : s.goldTimeout = s := by
  simp only [State.goldTimeout, h, List.find?_nil, ite_self]

theorem GntState.survivor_armed {g : GntState} (h : g.mode = .armed) : g.survivor = none := if_neg (by rw [h]; decide)

/-- What a judged run leads to in ARMED. -/
theorem State.goldReact_armed (hm : s.gnt.mode = .armed) : s.goldReact r true true = (s.postPart 0x6024 0x71 none).enterSafe 0x02 ∧
    s.goldReact r true false = (s.postPart 0x6022 0x71 none).pathFence 0 false ∧
    s.goldReact r false true = (s.postPart 0x6023 0x71 none).pathFence 1 false ∧
    s.goldReact r false false = ((s.postPart 0x6021 0x71 none).modGnt fun g => { g with gtrans := min 0xFFFF (g.gtrans + 1) }).postPart
      0x6030 0x71 none := by
  have hsurv (code : Nat) : (s.gntPost code).gnt.survivor = none := GntState.survivor_armed hm
  refine ⟨?_, ?_, ?_, ?_⟩ <;> simp only [State.goldReact, hsurv] <;> rfl

end

/-! ### Path fences (R411, R412) -/

section
variable {s : State} {p : Fin 2}

/-- The path's fence as it begins, before its partition restarts. -/
def State.fenceBegun (s : State) (p : Fin 2) : State :=
  (((s.modGnt fun g => { g with mode := .single, fence := setBit 0 p.val true, readmit := setBit g.readmit p.val false }).gntPost
    (0x6031 + p.val)).cutChannel p).muteEvents (pathPart p)

theorem State.fencePath_eq : s.fencePath p = (s.fenceBegun p).startRestart (pathPart p) := rfl

theorem State.startRestart_rest (u : State) (q : Fin 4) : (u.startRestart q).gnt.mode = u.gnt.mode ∧ (u.startRestart q).gnt.fence = u.gnt.fence ∧
    (u.startRestart q).gnt.cut15 = u.gnt.cut15 ∧ (u.startRestart q).evt.fenced = u.evt.fenced ∧ (u.startRestart q).dma.dies = u.dma.dies := by
  have hgnt := u.clearPart_gnt q
  have hmode := congrArg GntState.mode hgnt
  have hfence := congrArg GntState.fence hgnt
  have hcut := congrArg GntState.cut15 hgnt
  exact ⟨hmode, hfence, hcut, u.clearPart_fenced q, u.clearPart_dies q⟩

/-- A fence of path `p`. -/
theorem State.fencePath_spec (s : State) (p : Fin 2) : let t := s.fencePath p
    t.gnt.mode = .single ∧ t.gnt.fence = setBit 0 p.val true ∧ t.flt.part[pathPart p] = .restarting ∧ bit t.evt.fenced p.val = true ∧
      bit t.gnt.cut15 p.val = true ∧ (t.dma.dies[p][(15 : Fin 16)]).busy = false := by
  obtain ⟨hmode, hfence, hcut, hfenced, hdies⟩ := (s.fenceBegun p).startRestart_rest (pathPart p)
  obtain ⟨hpart, -⟩ := (s.fenceBegun p).startRestart_spec (pathPart p)
  rw [State.fencePath_eq]
  simp only [hmode, hfence, hcut, hfenced, hdies]
  have hval : (pathPart p).val = p.val := by
    match p with
    | 0 => rfl
    | 1 => rfl
  refine ⟨rfl, rfl, hpart, ?_, ?_, ?_⟩
  · have hbit : (s.fenceBegun p).evt.fenced = setBit s.evt.fenced (pathPart p).val true := rfl
    rw [hbit, hval]
    exact (bit_setBit _ _ _ (by omega)).trans (if_pos rfl)
  · have hbit : (s.fenceBegun p).gnt.cut15 = setBit s.gnt.cut15 p.val true := rfl
    rw [hbit]
    exact (bit_setBit _ _ _ p.isLt).trans (if_pos rfl)
  · have hdie : (s.fenceBegun p).dma.dies = s.dma.dies.set p (s.dma.dies[p].set (15 : Fin 16) DmaChan.reset) := rfl
    simp only [hdie, Fin.getElem_fin, Vector.getElem_set_self]
    rfl

/-- A fence that stays until the next module restart. -/
def State.fenceHeld (s : State) (p : Fin 2) (stay : Bool) : State :=
  if stay then s.modGnt fun g => { g with stuck := setBit g.stuck p.val true } else s

theorem State.pathFence_armed {stay : Bool} (hm : s.gnt.mode = .armed) :
    s.pathFence p stay = ((s.fenceHeld p stay).fencePath p).modGnt fun g => g.reopen (1 - p) := by
  simp only [State.pathFence, hm]
  rfl

theorem GntState.reopen_rest (g : GntState) (p : Fin 2) : (g.reopen p).mode = g.mode ∧ (g.reopen p).fence = g.fence ∧
    (g.reopen p).cut15 = g.cut15 := ⟨rfl, rfl, rfl⟩

theorem State.pathFence_spec {stay : Bool} (hm : s.gnt.mode = .armed) : let t := s.pathFence p stay
    t.gnt.mode = .single ∧ t.gnt.fence = setBit 0 p.val true ∧ t.flt.part[pathPart p] = .restarting ∧ bit t.evt.fenced p.val = true ∧
      bit t.gnt.cut15 p.val = true ∧ (t.dma.dies[p][(15 : Fin 16)]).busy = false := by
  have hspec := (s.fenceHeld p stay).fencePath_spec p
  rw [State.pathFence_armed hm]
  generalize (s.fenceHeld p stay).fencePath p = u at hspec ⊢
  obtain ⟨hmode, hfence, hcut⟩ := u.gnt.reopen_rest (1 - p)
  simp only [State.modGnt, hmode, hfence, hcut]
  exact hspec

theorem State.pathFence_again (hm : s.gnt.mode = .single) (hf : bit s.gnt.fence p.val = true) (hr : bit s.gnt.readmit p.val = true) :
    s.pathFence p false = s.fencePath p := by
  simp only [State.pathFence, hm, hf, hr, Bool.not_true, Bool.false_eq_true, if_false, if_true]

theorem State.pathFence_done (hm : s.gnt.mode = .single) (hf : bit s.gnt.fence p.val = true) (hr : bit s.gnt.readmit p.val = false) :
    s.pathFence p false = s := by
  simp only [State.pathFence, hm, hf, hr, Bool.not_true, Bool.false_eq_true, if_false]

theorem State.pathFence_second {stay : Bool} (hm : s.gnt.mode = .single) (hf : bit s.gnt.fence p.val = false) :
    s.pathFence p stay = s.enterSafe 0x06 := by
  simp only [State.pathFence, hm, hf, Bool.not_false, if_true]

theorem State.gntRead_cut {n : Notice} (h : bit s.gnt.cut15 p.val = true) : s.gntRead p n = (s, none) := if_pos h

end

/-! ### Routed events (R423, R424) -/

section
variable {s : State} {p : Fin 2} {q y : Posted} {rest : List Posted}

/-- The module once Gauntlet has taken an event. -/
def State.gntTaken (s : State) (l : List Posted) : State := { s with evt := { s.evt with gntQ := l } }

theorem State.routedEvent_eq (hq : s.evt.gntQ = q :: rest) : s.routedEvent =
    let y := ((q :: rest).find? (safeWith q)).getD q
    let t := s.gntTaken ((q :: rest).erase y)
    if y.code = 0x6090 then t.linkEvent y.gnt
    else if safeCode y.code.toNat then t.enterSafe 0x06
    else match routedPath y with
      | some p => t.pathFence p (within y.code.toNat 0x2090 0x209F)
      | none => t := by
  simp only [State.routedEvent, hq]
  rfl

theorem safeWith_self : safeWith q q = safeCode q.code.toNat := by simp [safeWith]

theorem not_safeCode_link : safeCode (0x6090 : BitVec 16).toNat = false := by decide

theorem code_ne_link (h : safeCode q.code.toNat = true) : q.code ≠ 0x6090 := fun hc => by
  rw [hc, not_safeCode_link] at h
  cases h

/-- A safe-state cause in the oldest event's µs. -/
theorem State.routedEvent_safe (hq : s.evt.gntQ = q :: rest) (hy : (q :: rest).find? (safeWith q) = some y) :
    s.routedEvent = (s.gntTaken ((q :: rest).erase y)).enterSafe 0x06 := by
  have hsafe : safeCode y.code.toNat = true := by
    have hwith : safeWith q y = true := List.find?_some hy
    obtain ⟨hcode, -⟩ := (Bool.and_eq_true _ _).mp hwith
    exact hcode
  rw [State.routedEvent_eq hq]
  simp only [hy, Option.getD_some, if_neg (code_ne_link hsafe), if_pos hsafe]

/-- The oldest event, with no safe-state cause in its µs. -/
theorem State.routedEvent_alone (hq : s.evt.gntQ = q :: rest) (ha : ∀ y ∈ q :: rest, safeWith q y = false) : s.routedEvent =
    if q.code = 0x6090 then (s.gntTaken rest).linkEvent q.gnt
    else match routedPath q with
      | some p => (s.gntTaken rest).pathFence p (within q.code.toNat 0x2090 0x209F)
      | none => s.gntTaken rest := by
  have hnone : (q :: rest).find? (safeWith q) = none := List.find?_eq_none.mpr fun y hy => by rw [ha y hy]; exact Bool.false_ne_true
  have hsafe : ¬ safeCode q.code.toNat = true := by
    rw [← safeWith_self, ha q List.mem_cons_self]
    exact Bool.false_ne_true
  rw [State.routedEvent_eq hq]
  simp only [hnone, Option.getD_none, List.erase_cons_head, if_neg hsafe]

/-- The codes of a core fence are neither a link's nor a stopped channel's. -/
theorem coreFence_other {c : Nat} (h : coreFenceCode c = true) : c ≠ 0x6090 ∧ within c 0x2090 0x209F = false := by
  simp only [coreFenceCode, List.contains_iff_mem, List.mem_cons, List.not_mem_nil, or_false] at h
  obtain rfl | rfl | rfl | rfl | rfl | rfl | rfl | rfl | rfl | rfl | rfl | rfl := h <;> decide

theorem routedPath_core (h : coreFenceCode q.code.toNat = true) (hp : q.part = some (pathPart p)) : routedPath q = some p := by
  simp only [routedPath, h, if_true, hp]
  match p with
  | 0 => rfl
  | 1 => rfl

theorem chan_code (ch : Fin 16) : (BitVec.ofNat 16 (0x2090 + ch.val)).toNat = 0x2090 + ch.val := by
  rw [BitVec.toNat_ofNat]
  exact Nat.mod_eq_of_lt (by omega)

/-- A stopped channel concerns the path of its memory die. -/
theorem routedPath_chan {ch : Fin 16} (h : q.code = BitVec.ofNat 16 (0x2090 + ch.val)) : q.code ≠ 0x6090 ∧
    routedPath q = some (if ch.val < 8 then 0 else 1) ∧ within q.code.toNat 0x2090 0x209F = true := by
  have hall : ∀ ch : Fin 16, coreFenceCode (0x2090 + ch.val) = false ∧ BitVec.ofNat 16 (0x2090 + ch.val) ≠ 0x6090 ∧
      within (0x2090 + ch.val) 0x2090 0x209F = true ∧ 0x2090 + ch.val ≠ 0x2302 ∧ 0x2090 + ch.val ≠ 0x2212 ∧ (0x2090 + ch.val) % 16 = ch.val := by
    decide
  obtain ⟨hcore, hlink, hchan, hdma, hgrant, hmod⟩ := hall ch
  refine ⟨by rw [h]; exact hlink, ?_, by rw [h, chan_code]; exact hchan⟩
  simp only [routedPath, h, chan_code, hcore, Bool.false_eq_true, if_false, hdma, hgrant, hchan, Bool.or_true, if_true, hmod]

end

/-- Settles O43: each clause by the lemma about its command or function. -/
theorem goldenAndFences : Obligations.GoldenAndFences := by
  unfold Obligations.GoldenAndFences
  intro s p k ini
  refine ⟨fun h => congrArg Host.Outcome.next (State.arm_ignored h), fun h hm hd hf => ⟨_, congrArg Host.Outcome.next ?arms, s.enterArmed_spec⟩,
    fun h hm hd hu => congrArg Host.Outcome.next ((State.arm_checks h hm hd).trans (State.armCheck_unlocked hm hu)), State.armFails_unsafe,
    fun h ha => congrArg Host.Outcome.next (State.disarm_armed h ha), fun h => congrArg Host.Outcome.next (State.disarm_ignored h),
    fun h => congrArg Host.Outcome.next (if_pos (gntOwner_iff.mpr h)),
    fun h => congrArg Host.Outcome.next (if_neg (by rw [gntOwner_false h]; exact Bool.false_ne_true)), congrArg Host.Outcome.next (if_pos rfl),
    fun test inst rows hm hr hs hd => ⟨fun hw => ?testsOff, fun hw => ?testsArmed, ⟨_, rfl, State.testsDone_fail hm hr hs⟩⟩,
    fun m x => ⟨fun hw hx => congrArg Host.Outcome.next (State.monitored_violated hw hx), fun h => congrArg Host.Outcome.next (State.monitored_fine h)⟩,
    fun d => ⟨fun h x => DieMon.clockOk_stopped h, fun b x h hb hn => DieMon.clockOk_back h hb hn, fun v b h hn => DieMon.railOk_other h hn,
      DieMon.railOk_set⟩,
    fun ha => congrArg Host.Outcome.next (if_pos ha), fun h => ?testToggle, fun ha hs => ?noToggle, rfl, rfl, fun h => ?noOpportunity,
    fun x ho hx => ⟨fun hdue => ?notDue, fun hdue h => ?injects, fun hdue hdef hforced hrun => ?defers⟩, ?injected,
    fun r ha h => State.goldenJudge_due ha h, fun ha h => State.goldenJudge_none ha h,
    fun r ha h hc ht => congrArg Host.Outcome.next (State.goldTimeout_due ha h hc ht), fun h => congrArg Host.Outcome.next (State.goldTimeout_none h),
    fun r hm => State.goldReact_armed hm, fun stay hm => State.pathFence_spec hm, fun n h => State.gntRead_cut h,
    fun hm hf hr => State.pathFence_again hm hf hr, fun hm hf hr => State.pathFence_done hm hf hr, fun stay hm hf => State.pathFence_second hm hf,
    fun q rest hq => ⟨fun h => ?safe, fun y hy => congrArg Host.Outcome.next (State.routedEvent_safe hq hy), fun ha hc hp => ?core,
      fun ch ha hc => ?chan, fun ha hc => ?link⟩, fun hq => ?noEvent⟩
  case arms => exact (State.arm_checks h hm hd).trans (State.armCheck_passes hf)
  case testsOff =>
    exact congrArg Host.Outcome.next ((State.testsDone_pass hm hr hs hd).trans (if_neg (by rw [hw]; exact Bool.false_ne_true)))
  case testsArmed => exact congrArg Host.Outcome.next ((State.testsDone_pass hm hr hs hd).trans (if_pos hw))
  case testToggle =>
    have hmode : s.gnt.mode = .test := of_decide_eq_true ((Bool.and_eq_true _ _).mp h).1
    have ha : ¬ s.armed = true := by simp [State.armed, hmode]
    exact congrArg Host.Outcome.next ((if_neg ha).trans (if_pos h))
  case noToggle =>
    refine congrArg Host.Outcome.next ((if_neg ?_).trans (if_neg ?_))
    · rw [ha]
      exact Bool.false_ne_true
    · rw [hs]
      exact Bool.false_ne_true
  case noOpportunity =>
    have hnone := State.oppOnes_none (l := List.finRange 4) (r := (s, false)) fun j _ => h j
    exact congrArg (fun r : State × Bool => Host.Outcome.next r.1) hnone
  case notDue =>
    have hone : State.oppOne (s, false) k = (s.oppSeen k x, false) := by
      refine (State.oppOne_due hx).trans (if_pos ?_)
      simpa [not_or] using hdue
    have hfold := State.opportunity_one ho hone fun j hj => (State.oppSeen_oppDue hj).trans (ho j hj)
    exact congrArg (fun r : State × Bool => Host.Outcome.next r.1) hfold
  case injects =>
    have hone : State.oppOne (s, false) k = ((s.oppSeen k x).inject k, true) := by
      refine (State.oppOne_due hx).trans ((if_neg ?_).trans (if_neg ?_))
      · rw [or_decide_of_or hdue]
        exact Bool.false_ne_true
      · simp only [Bool.and_eq_true, Bool.not_eq_true', decide_eq_true_eq, not_and, not_lt]
        rintro ⟨hforced, hdefer⟩
        obtain h | h | h := h
        · rw [h] at hdefer
          cases hdefer
        · rw [h] at hforced
          cases hforced
        · exact h
    have hfold := State.opportunity_one ho hone fun j hj =>
      ((s.oppSeen k x).inject_oppDue k j).trans ((State.oppSeen_oppDue hj).trans (ho j hj))
    exact congrArg (fun r : State × Bool => Host.Outcome.next r.1) hfold
  case defers =>
    have hone : State.oppOne (s, false) k = ((s.oppSeen k x).oppDeferred, false) := by
      refine (State.oppOne_due hx).trans ((if_neg ?_).trans (if_pos ?_))
      · rw [or_decide_of_or hdue]
        exact Bool.false_ne_true
      · rw [hforced, hdef, decide_eq_true hrun]
        rfl
    have hfold := State.opportunity_one ho hone fun j hj =>
      State.oppDeferred_oppDue.trans ((State.oppSeen_oppDue hj).trans (ho j hj))
    exact congrArg (fun r : State × Bool => Host.Outcome.next r.1) hfold
  case injected =>
    obtain ⟨run, t, ht, heq⟩ := s.inject_spec k
    rw [heq, State.modGnt_gnt, ht.gnt]
    simp
  case safe =>
    have hfind : (q :: rest).find? (safeWith q) = some q := List.find?_cons_of_pos (by rw [safeWith_self]; exact h)
    have htaken := State.routedEvent_safe hq hfind
    rw [List.erase_cons_head] at htaken
    exact congrArg Host.Outcome.next htaken
  case core =>
    obtain ⟨hlink, hchan⟩ := coreFence_other hc
    have hcode : q.code ≠ 0x6090 := fun h => hlink (by rw [h]; rfl)
    refine congrArg Host.Outcome.next ((State.routedEvent_alone hq ha).trans ?_)
    rw [if_neg hcode, routedPath_core hc hp, hchan]
    rfl
  case chan =>
    obtain ⟨hcode, hpath, hstay⟩ := routedPath_chan hc
    refine congrArg Host.Outcome.next ((State.routedEvent_alone hq ha).trans ?_)
    rw [if_neg hcode, hpath, hstay]
    rfl
  case link => exact congrArg Host.Outcome.next ((State.routedEvent_alone hq ha).trans (if_pos hc))
  case noEvent =>
    refine congrArg Host.Outcome.next ?_
    simp only [State.routedEvent, hq]

end Sys2Proof.Machine
end

/-! The proofs: restarts. -/

section
namespace Sys2Proof.Machine

/-! ### What the later steps of a start leave alone -/

/-- A state less what the later steps of a start set: the repair map and the staged map, regions, bandwidth and channels, Ingest,
the fabric, the time base but TB_CNT, what Crown holds of cores and of the rate, and the events that wait. -/
def State.enduring (s : State) : State :=
  { s with
    flt := { s.flt with bind := FltState.reset.bind, unbound := 0, rowMap := [], failed := [], repairQ := [], pmap := 0 }
    ddr := { s.ddr with rgn := DdrState.reset.rgn, bw := DdrState.reset.bw, ch := DdrState.reset.ch }
    ing := IngState.reset
    fab := FabState.start 0 (Vector.replicate 3 1) (Vector.replicate 3 false) false (Vector.replicate 6 0)
    tb := { TbState.reset with cnt := s.tb.cnt }
    crn := { s.crn with coreAv := 0, calRate := 0 }
    evt := { s.evt with incoming := [] } }

section
variable {s : State}

theorem enduring_foldl {α : Type} {f : State → α → State} (h : ∀ t a, (f t a).enduring = t.enduring) (l : List α) (s : State) :
    (l.foldl f s).enduring = s.enduring := by
  induction l generalizing s with
  | nil => rfl
  | cons a l ih => exact (ih _).trans (h s a)

theorem State.postPart_enduring (code : Nat) (src : Ini) (p : Option (Fin 4)) : (s.postPart code src p).enduring = s.enduring := rfl

theorem State.rebind_enduring (src : Ini) (c : CoreId) : (s.rebind src c).enduring = s.enduring := by
  unfold State.rebind
  split <;> rfl

theorem FltState.failCore_eq (f : FltState) (q : Nat) : ∃ failed queue, f.failCore q = { f with failed := failed, repairQ := queue } := by
  unfold FltState.failCore
  split <;> exact ⟨_, _, rfl⟩

theorem FltState.failCores_eq (l : List Nat) (f : FltState) :
    ∃ failed queue, l.foldl FltState.failCore f = { f with failed := failed, repairQ := queue } := by
  induction l generalizing f with
  | nil => exact ⟨_, _, rfl⟩
  | cons q l ih =>
    obtain ⟨a, b, hq⟩ := f.failCore_eq q
    obtain ⟨c, d, hl⟩ := ih (f.failCore q)
    exact ⟨c, d, hl.trans (by rw [hq])⟩

theorem FltState.applyRows_eq (l : List Nat) (f : FltState) :
    ∃ rows failed queue, f.applyRows l = { f with rowMap := rows, failed := failed, repairQ := queue } := by
  obtain ⟨a, b, h⟩ := FltState.failCores_eq _ _
  exact ⟨_, a, b, h⟩

theorem State.applyRows_enduring (l : List Nat) : (s.modFlt fun f => f.applyRows l).enduring = s.enduring := by
  obtain ⟨rows, failed, queue, h⟩ := FltState.applyRows_eq l s.flt
  exact (congrArg (fun f : FltState => ({ s with flt := f } : State).enduring) h).trans rfl

/-- The repair map before the records are applied. -/
def State.mapCleared (s : State) : State :=
  s.modFlt fun f => { f with failed := f.known1, bind := FltState.reset.bind, unbound := 0, rowMap := [] }

theorem State.buildMap_enduring (s : State) : s.buildMap.enduring = s.enduring :=
  (enduring_foldl (fun _ c => State.rebind_enduring 0x70 c) _ _).trans (State.applyRows_enduring (s := s.mapCleared) (List.range 36))

theorem State.excludeLanes_enduring (s : State) : s.excludeLanes.enduring = s.enduring := rfl

theorem State.markDevices_enduring (s : State) : s.markDevices.enduring = s.enduring :=
  enduring_foldl (fun t r => by split <;> rfl) _ s

theorem State.dimmLimits_enduring (s : State) : s.dimmLimits.enduring = s.enduring := rfl

theorem State.domRate_enduring (d : Fin 2) (r : BitVec 32) : (s.domRate d r).enduring = s.enduring := by
  unfold State.domRate
  split
  · rfl
  · extract_lets c follows t
    split <;> rfl

theorem State.applyRate_enduring (s : State) : s.applyRate.enduring = s.enduring := State.domRate_enduring (s := s) 0 _

theorem State.extWrite_enduring (n : Fin 16) (ini : Ini) (off : Nat) (data : List Byte) : (s.extWrite n ini off data).enduring = s.enduring := by
  unfold State.extWrite
  split
  · rfl
  · extract_lets w t
    split <;> rfl

theorem State.applyExt_enduring (s : State) : s.applyExt.enduring = s.enduring :=
  enduring_foldl (fun t k => by
    split
    · exact State.extWrite_enduring ..
    · rfl) _ s

theorem State.rgnWrite_enduring (i : Fin 16) (ini : Ini) (h : Half) (v : Word) : (s.rgnWrite i ini h v).enduring = s.enduring := by
  simp only [State.rgnWrite]
  split <;> rfl

theorem State.bwWrite_enduring (d : Fin 2) (ini : Ini) (h : Half) (v : Word) : (s.bwWrite d ini h v).enduring = s.enduring := by
  simp only [State.bwWrite]
  split <;> rfl

theorem State.pmapWrite_enduring (ini : Ini) (h : Half) (v : Word) : (s.pmapWrite ini h v).enduring = s.enduring := by
  simp only [State.pmapWrite]
  split <;> rfl

theorem State.cfgApply_enduring (i : Nat) (v : BitVec 128) : (s.cfgApply i v).enduring = s.enduring := by
  simp only [State.cfgApply]
  repeat' split
  · exact State.rgnWrite_enduring ..
  · exact State.bwWrite_enduring ..
  · exact State.pmapWrite_enduring ..
  all_goals rfl

theorem State.applyStored_enduring (s : State) : s.applyStored.enduring = s.enduring :=
  enduring_foldl (fun t (x : Nat × BitVec 128) => State.cfgApply_enduring (s := t) x.1 x.2) _ s

end

/-! ### The steps of a start that set the memory, the table of records and FLT_PEFF -/

/-- A state with this memory, table of records and FLT_PEFF. -/
def State.renewed (s : State) (d : DdrState) (rs : List RepairRec) (w : Word) : State :=
  { s with ddr := d, flt := { s.flt with table := rs, peff := w } }

section
variable {s t : State}

theorem State.renewed_enduring (h : t.enduring = s.enduring) (d : DdrState) (rs : List RepairRec) (w : Word) :
    (t.renewed d rs w).enduring = (s.renewed d rs w).enduring := by
  have hd := congrArg (fun x : State => x.renewed { d with rgn := DdrState.reset.rgn, bw := DdrState.reset.bw, ch := DdrState.reset.ch } rs w) h
  exact hd

/-- The table with the records whose copies fail marked. -/
def FltState.checked (f : FltState) (lost : List (Fin 512)) : List RepairRec :=
  f.table.mapIdx fun i r => if lost.any fun k => k.val = i then { r with ok1 := false, ok2 := false } else r

theorem FltState.checked_length (f : FltState) (lost : List (Fin 512)) : (f.checked lost).length = f.table.length := List.length_mapIdx

theorem State.checkRecords_spec (s : State) (lost : List (Fin 512)) :
    PostsOnly (s.renewed s.ddr (s.flt.checked lost) s.flt.peff) (s.checkRecords lost) :=
  PostsOnly.foldl (f := fun (t : State) (_ : RepairRec) => t.crnPost 0x6093) (fun _ _ => ⟨_, rfl⟩) _ _

/-- FLT_PEFF takes the staged map, which stays where none is stored. -/
theorem State.applyMap_spec (s : State) : ∃ w, s.applyMap.enduring = (s.renewed s.ddr s.flt.table w).enduring ∧
    ((∀ x ∈ s.crn.stored, x.1 ≠ 18) → w = s.flt.pmap) := by
  cases hfind : s.crn.stored.find? fun e => e.1 = 18 with
  | none =>
    refine ⟨s.flt.pmap, ?_, fun _ => rfl⟩
    simp only [State.applyMap, hfind]
    rfl
  | some x =>
    have heq : s.applyMap = (s.pmapWrite 0x70 .full (x.2.setWidth 64)).modFlt fun f => { f with peff := f.pmap } := by
      simp only [State.applyMap, hfind]
      rfl
    have hw := State.pmapWrite_enduring (s := s) 0x70 .full (x.2.setWidth 64)
    generalize s.pmapWrite 0x70 .full (x.2.setWidth 64) = u at hw heq
    refine ⟨u.flt.pmap, ?_, fun h => ?_⟩
    · rw [heq]
      exact congrArg (fun t : State => t.modFlt fun f => { f with peff := u.flt.pmap }) hw
    · have hx := List.find?_some hfind
      exact absurd (of_decide_eq_true hx) (h x (List.mem_of_find?_eq_some hfind))

/-- A start's records and staged map. -/
theorem State.records_spec (s : State) (lost : List (Fin 512)) : ∃ rs w,
    (s.checkRecords lost).applyMap.buildMap.excludeLanes.markDevices.enduring = (s.renewed s.ddr rs w).enduring ∧
      rs.length = s.flt.table.length ∧ ((∀ x ∈ s.crn.stored, x.1 ≠ 18) → w = s.flt.pmap) := by
  obtain ⟨m, hm⟩ := s.checkRecords_spec lost
  generalize s.checkRecords lost = u at hm
  obtain ⟨w, hmap, hw⟩ := u.applyMap_spec
  have hmapped : (u.renewed u.ddr u.flt.table w).enduring = (s.renewed s.ddr (s.flt.checked lost) w).enduring := by rw [hm]; rfl
  refine ⟨s.flt.checked lost, w, ?_, s.flt.checked_length lost, fun h => (hw (by rw [hm]; exact h)).trans (by rw [hm]; rfl)⟩
  exact (State.markDevices_enduring _).trans ((State.excludeLanes_enduring _).trans ((State.buildMap_enduring _).trans (hmap.trans hmapped)))

/-- The memory at a start, cold or warm. -/
def State.memoryStart (s : State) (r : Restart) (e : StartEnv) : State := if r = .cold then (s.ddrCold e).applyRate else s.ddrWarm

/-- The memory where a cold start finds channels at fault. -/
def DdrState.faulty (d : DdrState) (e : StartEnv) : DdrState :=
  { d with mem := [], bad := [], cfg := 0, selfRefresh := false
           ch := Vector.ofFn fun k : Fin 16 => { d.ch[k] with state := if (startBad e).contains k then 4 else 0 } }

theorem State.ddrCold_bad {e : StartEnv} (h : (startBad e).isEmpty = false) :
    (s.ddrCold e).enduring = (s.renewed (s.ddr.faulty e) s.flt.table s.flt.peff).enduring :=
  (congrArg State.enduring (if_pos (by rw [h]; rfl))).trans (enduring_foldl (fun t k => t.postPart_enduring ..) _ _)

theorem State.memoryStart_spec (s : State) (r : Restart) (e : StartEnv) : ∃ d rs,
    (s.memoryStart r e).enduring = (s.renewed d rs s.flt.peff).enduring ∧
      (r = .cold → startBad e = [] → d.mem = [] ∧ bit d.cfg 63 = true) ∧
      (r ≠ .cold → d.mem = s.ddr.mem ∧ d.selfRefresh = false ∧ rs = s.flt.table) := by
  by_cases hr : r = .cold
  · have hstart : (s.memoryStart r e).enduring = (s.ddrCold e).enduring := by
      rw [State.memoryStart, if_pos hr]
      exact State.applyRate_enduring _
    rw [hstart]
    cases hbad : (startBad e).isEmpty with
    | true =>
      refine ⟨{ s.ddr with mem := [], bad := [], soft := softRows (hardRepairs (startHard e) s.flt.table), cfg := setBit (spdCfg e) 63 true
                           selfRefresh := false }, hardRepairs (startHard e) s.flt.table, ?_, fun _ _ => ⟨rfl, ?_⟩, fun h => absurd hr h⟩
      · simp only [State.ddrCold, hbad]
        rfl
      · simp [bit_setBit]
    | false =>
      refine ⟨s.ddr.faulty e, s.flt.table, State.ddrCold_bad hbad, fun _ h => ?_, fun h => absurd hr h⟩
      rw [h] at hbad
      cases hbad
  · obtain ⟨w, hw⟩ : ∃ w, s.ddrWarm.enduring = (s.renewed { s.ddr with cfg := w, selfRefresh := false } s.flt.table s.flt.peff).enduring := by
      unfold State.ddrWarm
      split <;> exact ⟨_, rfl⟩
    rw [State.memoryStart, if_neg hr]
    exact ⟨_, _, hw, fun h => absurd h hr, fun _ => ⟨rfl, rfl, rfl⟩⟩

/-- The later steps of a start: what they set of the memory, the table and FLT_PEFF, and that partitions are released. -/
theorem State.startRest_spec (s : State) (r : Restart) (e : StartEnv) : ∃ d rs w,
    (s.startRest r e).enduring = (s.renewed d rs w).releaseAll.enduring ∧
      ((∀ x ∈ s.crn.stored, x.1 ≠ 18) → w = s.flt.pmap) ∧
      (r = .cold → startBad e = [] → d.mem = [] ∧ bit d.cfg 63 = true) ∧
      (r ≠ .cold → d.mem = s.ddr.mem ∧ d.selfRefresh = false ∧ rs.length = s.flt.table.length) := by
  obtain ⟨rs, w, hrec, hlen, hw⟩ := s.records_spec e.lost
  generalize hu : (s.checkRecords e.lost).applyMap.buildMap.excludeLanes.markDevices = u at hrec
  obtain ⟨d, rs', hmem, hcold, hwarm⟩ := u.memoryStart_spec r e
  have heq : s.startRest r e = (u.memoryStart r e).dimmLimits.applyStored.applyExt.releaseAll := by rw [← hu]; rfl
  have hpeff : u.flt.peff = w := congrArg (fun x : State => x.flt.peff) hrec
  have hmemU := congrArg (fun x : State => x.ddr.mem) hrec
  have htable : u.flt.table = rs := congrArg (fun x : State => x.flt.table) hrec
  have hrest : (u.memoryStart r e).dimmLimits.applyStored.applyExt.enduring = (s.renewed d rs' w).enduring := by
    refine (State.applyExt_enduring _).trans ((State.applyStored_enduring _).trans ((State.dimmLimits_enduring _).trans (hmem.trans ?_)))
    rw [hpeff]
    exact State.renewed_enduring hrec d rs' w
  generalize (u.memoryStart r e).dimmLimits.applyStored.applyExt = v at heq hrest
  refine ⟨d, rs', w, ?_, hw, hcold, fun hr => ?_⟩
  · rw [heq]
    have hrel := congrArg State.releaseAll hrest
    exact hrel
  · obtain ⟨hm, hself, hrs⟩ := hwarm hr
    exact ⟨hm.trans hmemU, hself, by rw [hrs, htable, hlen]⟩

end

/-! ### A restart that proceeds -/

section
variable {s t : State} {r : Restart} {e : StartEnv}

/-- A restart past its first step, where Crown's ROM runs. -/
def State.entered (s : State) (r : Restart) (e : StartEnv) : State :=
  { s with pwr := { s.pwr with mode := .run, start := r }, crn := { s.crn with smbAddr := e.smb }
           fab := { s.fab with strap := e.origin, origin := e.origin } }

/-- Crown where its ROM has taken or refused the image. -/
def State.romCrown (s : State) (a : Bool) : CrnState := { s.crn.rom a with loopAt := s.tb.cnt, thermAt := s.tb.cnt }

theorem State.romCrown_mode (s : State) (a : Bool) : (s.romCrown a).mode = if s.crn.imageOk then .running else .recovery := s.crn.rom_mode a

theorem State.romCrown_stored (s : State) (a : Bool) : (s.romCrown a).stored = s.crn.stored := by
  simp only [State.romCrown, CrnState.rom]
  split <;> rfl

theorem State.romStart_takes (h : s.crn.imageOk = true) (a : Bool) : s.romStart a = { s with crn := s.romCrown a } := by
  have hmode : (s.romCrown a).mode = .running := by rw [State.romCrown_mode, if_pos h]
  exact if_neg (fun h => by cases hmode.symm.trans h)

theorem State.romStart_refuses (h : s.crn.imageOk = false) (a : Bool) :
    s.romStart a = State.crnPost { s with crn := s.romCrown a } 0x9013 := by
  have hmode : (s.romCrown a).mode = .recovery := by rw [State.romCrown_mode, h]; rfl
  exact if_pos hmode

theorem State.proceed_eq (hm : s.pwr.mode = .held r) (hl : s.pwr.rstLow = false) (ht : s.pwr.trip = false) (he : e.testEn = false) :
    s.proceed e = if ((s.entered r e).romStart true).crn.mode = .running then ((s.entered r e).romStart true).startRest r e
      else (s.entered r e).romStart true := by
  simp only [State.proceed, hm, hl, ht, he]
  rfl

/-- A restart that does not proceed. -/
theorem State.proceed_waits (h : s.pwr.rstLow = true) : s.proceed e = s := by
  unfold State.proceed
  split
  · rw [h]
    rfl
  · rfl

theorem State.proceed_other (h : ∀ r, s.pwr.mode ≠ .held r) : s.proceed e = s := by
  unfold State.proceed
  split
  · next r hr => exact absurd hr (h r)
  · rfl

/-- A restart that proceeds with a sound image runs to its end. -/
theorem State.proceed_runs (hm : s.pwr.mode = .held r) (hl : s.pwr.rstLow = false) (ht : s.pwr.trip = false) (he : e.testEn = false)
    (hi : s.crn.imageOk = true) : let t := s.proceed e
    t.pwr.mode = .run ∧ t.pwr.rstLow = false ∧ t.crn.mode = .running ∧ t.gnt = s.gnt ∧ t.clo = s.clo ∧ t.tb.cnt = s.tb.cnt ∧
      t.cores = s.cores ∧ t.flt.part = Vector.replicate 4 .running ∧ t.flt.log = s.flt.log ∧
      ((∀ x ∈ s.crn.stored, x.1 ≠ 18) → t.flt.peff = s.flt.pmap) ∧
      (r = .cold → startBad e = [] → t.ddr.mem = [] ∧ bit t.ddr.cfg 63 = true) ∧
      (r ≠ .cold → t.ddr.mem = s.ddr.mem ∧ t.ddr.selfRefresh = false ∧ t.flt.table.length = s.flt.table.length) := by
  have hmode : ((s.entered r e).romCrown true).mode = .running := by
    rw [State.romCrown_mode]
    exact if_pos hi
  have hstored : ((s.entered r e).romCrown true).stored = s.crn.stored := (s.entered r e).romCrown_stored true
  have heq := State.proceed_eq hm hl ht he
  rw [State.romStart_takes (s := s.entered r e) hi] at heq
  generalize (s.entered r e).romCrown true = c at hmode hstored heq
  obtain ⟨d, rs, w, hrest, hw, hcold, hwarm⟩ := State.startRest_spec { s.entered r e with crn := c } r e
  rw [← heq.trans (if_pos hmode)] at hrest
  generalize s.proceed e = t at hrest
  have part {α : Type} (f : State → α) := congrArg f hrest
  refine ⟨part (·.pwr.mode), (part (·.pwr.rstLow)).trans hl, (part (·.crn.mode)).trans hmode, part (·.gnt), part (·.clo), part (·.tb.cnt),
    part (·.cores), part (·.flt.part), part (·.flt.log),
    fun h => (part (·.flt.peff)).trans (hw (by rw [hstored]; exact h)),
    fun hr hs => ⟨(part (·.ddr.mem)).trans (hcold hr hs).1, (congrArg (fun w => bit w 63) (part (·.ddr.cfg))).trans (hcold hr hs).2⟩,
    fun hr => ?_⟩
  obtain ⟨hmem, hself, hlen⟩ := hwarm hr
  exact ⟨(part (·.ddr.mem)).trans hmem, (part (·.ddr.selfRefresh)).trans hself, (congrArg List.length (part (·.flt.table))).trans hlen⟩

/-- A restart that proceeds with no sound image ends in recovery. -/
theorem State.proceed_recovers (hm : s.pwr.mode = .held r) (hl : s.pwr.rstLow = false) (ht : s.pwr.trip = false) (he : e.testEn = false)
    (hi : s.crn.imageOk = false) : s.proceed e = State.crnPost { s.entered r e with crn := (s.entered r e).romCrown true } 0x9013 := by
  have hmode : ((s.entered r e).romCrown true).mode = .recovery := by
    rw [State.romCrown_mode]
    exact if_neg (by rw [Bool.not_eq_true]; exact hi)
  rw [State.proceed_eq hm hl ht he, State.romStart_refuses (s := s.entered r e) hi]
  exact if_neg fun h => by cases hmode.symm.trans h

end

/-! ### Restarts from their causes -/

section
variable {s t : State} {k r : Restart} {erased : Bool} {e : StartEnv}

/-- A restart of this kind held at its first step. -/
def State.heldAt (s : State) (k : Restart) (erased : Bool) : State :=
  (s.assertReset (decide (k = .cold)) erased).modPwr fun p => { p with mode := .held k, start := .none }

/-- The kind of restart that begins, where one is asked for. -/
def State.restartKind (s : State) (r : Restart) : Restart := if s.pwr.start = .cold ∨ s.pwr.mode = .held .cold then .cold else r

theorem State.restartBegin_eq (s : State) (r : Restart) (erased : Bool) : s.restartBegin r erased = s.heldAt (s.restartKind r) erased := rfl

theorem State.restartKind_cold (s : State) : s.restartKind .cold = .cold := ite_self _

theorem State.restartKind_run (h : s.pwr.mode = .run) (hs : s.pwr.start = .none) : s.restartKind r = r :=
  if_neg (by simp [h, hs])

theorem State.restartKind_doze (h : s.pwr.mode = .doze) (hs : s.pwr.start ≠ .cold) : s.restartKind r = r :=
  if_neg (by simp [h, hs])

theorem State.restartKind_warm_or_cold (h : r = .warm ∨ r = .cold) : s.restartKind r = .warm ∨ s.restartKind r = .cold := by
  unfold State.restartKind
  split
  · exact .inr rfl
  · exact h

/-- A cold restart where PWROK_MAIN is high and the module has not started. -/
def State.powered (s : State) (erased : Bool) : State := (s.heldAt .cold erased).modPwr fun p => { p with main := true, trip := false }

theorem State.coldRestart_powered (hm : s.pwr.mode = .aoOnly) (hl : s.pwr.rstLow = false) :
    s.coldRestart erased e = (s.powered erased).proceed e := by
  simp only [State.coldRestart, hm, hl, State.restartBegin_eq, State.restartKind_cold]
  rfl

/-- Gauntlet's streams after a warm restart. -/
theorem GntState.restart_strm (g : GntState) (a : Bool) (i : Fin 64) : (g.restart a).strm[i].ring = [] ∧ (g.restart a).strm[i].vwidx = 0 := by
  simp [GntState.restart]

theorem State.warmRestart_asked (hm : s.pwr.mode = .run) (hs : s.pwr.start = .none) (hr : s.flt.mrst = .warm) :
    s.warmRestart false erased e = (s.heldAt .warm erased).proceed e := by
  have hkind : s.restartKind .warm = .warm := State.restartKind_run hm hs
  rw [← hkind, ← State.restartBegin_eq]
  simp [State.warmRestart, hm, hr]

/-- MOD_RST_N low while the module runs. -/
def State.pinLow (s : State) : State := s.modPwr fun p => { p with rstLow := true }

theorem State.warmRestart_pin (hm : s.pwr.mode = .run) : ∃ k, (k = .warm ∨ k = .cold) ∧ s.warmRestart true erased e = s.pinLow.heldAt k erased := by
  refine ⟨s.pinLow.restartKind (if s.flt.mrst = .cold then .cold else .warm), State.restartKind_warm_or_cold ?_, ?_⟩
  · split
    · exact .inr rfl
    · exact .inl rfl
  · rw [← State.restartBegin_eq]
    have hwait : (s.pinLow.restartBegin (if s.flt.mrst = .cold then .cold else .warm) erased).pwr.rstLow = true := rfl
    refine Eq.trans ?_ (State.proceed_waits (e := e) hwait)
    simp only [State.warmRestart, if_true, State.modPwr_pwr, hm]
    rfl

/-- The module at the end of DOZE, before its channels leave self-refresh. -/
def State.woken (s : State) : State :=
  { s with
    cores := Vector.replicate 32 CoreSt.reset
    ddr := { s.ddr.restart with rgn := s.ddr.rgn, bw := s.ddr.bw, cfg := s.ddr.cfg }
    flt := s.flt.wake
    pwr := { s.pwr with main := true, mode := .run }
    dma := DmaState.reset
    gnt := { s.gnt with dozed := true }
    ing := s.ing.wake
    grd := GrdState.reset
    fab := s.fab.wake
    nmg := NmgState.reset
    net := NetState.reset }

theorem State.markDevices_rest (s : State) : ∃ ch, s.markDevices = { s with ddr := { s.ddr with ch := ch } } := by
  unfold State.markDevices
  generalize s.flt.records 5 = l
  induction l generalizing s with
  | nil => exact ⟨_, rfl⟩
  | cons r l ih =>
    obtain ⟨ch, h⟩ : ∃ ch, (if fld r.loc 0 8 < 16 then s.modChan (Fin.ofNat 16 (fld r.loc 0 8)) fun c => c.markFailed r else s) =
        { s with ddr := { s.ddr with ch := ch } } := by
      split <;> exact ⟨_, rfl⟩
    obtain ⟨ch', h'⟩ := ih { s with ddr := { s.ddr with ch := ch } }
    exact ⟨ch', by rw [List.foldl_cons, h, h']⟩

theorem State.ddrWarm_rest (s : State) : ∃ w ch, s.ddrWarm = { s with ddr := { s.ddr with cfg := w, ch := ch, selfRefresh := false } } := by
  unfold State.ddrWarm
  split <;> exact ⟨_, _, rfl⟩

/-- A state that differs in Ingest and the event unit alone. -/
def IngestOnly (s t : State) : Prop := ∃ g v, t = { s with ing := g, evt := v }

theorem IngestOnly.foldl {α : Type} {f : State → α → State} (h : ∀ t a, IngestOnly t (f t a)) (l : List α) (s : State) :
    IngestOnly s (l.foldl f s) := by
  induction l generalizing s with
  | nil => exact ⟨_, _, rfl⟩
  | cons a l ih =>
    obtain ⟨g, v, hg⟩ := h s a
    obtain ⟨g', v', hl⟩ := ih (f s a)
    exact ⟨g', v', hl.trans (by rw [hg])⟩

theorem State.extWrite_ingestOnly (n : Fin 16) (ini : Ini) (off : Nat) (data : List Byte) : IngestOnly s (s.extWrite n ini off data) := by
  unfold State.extWrite
  split
  · exact ⟨_, _, rfl⟩
  · extract_lets w t
    split <;> exact ⟨_, _, rfl⟩

theorem State.applyExt_ingestOnly (s : State) : IngestOnly s s.applyExt :=
  IngestOnly.foldl (fun t k => by
    split
    · exact State.extWrite_ingestOnly ..
    · exact ⟨_, _, rfl⟩) _ s

/-- The end of DOZE: DDR's regions, contents and what Crown holds stay, and 0x9072 is the last event. -/
theorem State.resume_spec (s : State) : let t := s.resume
    t.pwr.mode = .run ∧ t.gnt.dozed = true ∧ t.ddr.rgn = s.ddr.rgn ∧ t.ddr.mem = s.ddr.mem ∧ t.ddr.selfRefresh = false ∧
      t.cores = Vector.replicate 32 CoreSt.reset ∧ t.crn = s.crn ∧ ∃ m, t.evt.incoming = m ++ [⟨0x9072, 0xC7, s.tb.cnt, none, false, false⟩] := by
  have heq : s.resume = s.woken.markDevices.ddrWarm.applyExt.pwrPost 0x9072 := rfl
  obtain ⟨ch, hmark⟩ := s.woken.markDevices_rest
  obtain ⟨w, ch', hwarm⟩ := State.ddrWarm_rest { s.woken with ddr := { s.woken.ddr with ch := ch } }
  obtain ⟨g, v, hext⟩ := State.applyExt_ingestOnly { s.woken with ddr := { s.woken.ddr with cfg := w, ch := ch', selfRefresh := false } }
  rw [heq, hmark, hwarm]
  simp only [hext]
  exact ⟨rfl, rfl, rfl, rfl, rfl, rfl, rfl, _, rfl⟩

end

/-- Settles O53: power-on, cold and warm restarts, OFF, DOZE exit and the end of a trip, by what each restart sets before it
proceeds and what its later steps leave alone. -/
theorem restarts : Obligations.Restarts := by
  unfold Obligations.Restarts
  intro s erased e p sound
  refine ⟨fun h => ?powerGood, fun h => ?powerOn, fun hm hl => ?coldPin, fun hm hl hs hi => ?cold, fun hm hl he hi => ?recovery,
    fun hm h => ?notCold, fun hm h => ?notWarm, fun hm h hst hl ht hs hi => ?warm, fun hm => ?pin, fun r hm ht he hi => ?release,
    fun hm => ?releaseRun, fun ht hc hm => ?tripEnds, fun h => ?tripStays, ?off, fun h => ?noDoze, fun hm hl => ?dozeEnds,
    fun hm hl hs => ?dozeHeld⟩
  case powerGood => exact congrArg Host.Outcome.next (if_neg (not_not.mpr h))
  case powerOn => exact congrArg Host.Outcome.next (if_pos h)
  case coldPin =>
    refine congrArg Host.Outcome.next ?_
    simp only [State.coldRestart, show s.pwr.mode = .aoOnly from hm, show s.pwr.rstLow = true from hl, if_true]
  case cold =>
    obtain ⟨htest, hbad⟩ := hs
    obtain ⟨hrun, -, hcrn, hgnt, hclo, htb, hcores, hpart, -, hpeff, hmem, -⟩ :=
      State.proceed_runs (s := s.powered erased) (r := .cold) (e := e) rfl hl rfl htest hi
    obtain ⟨hempty, hready⟩ := hmem rfl hbad
    refine ⟨_, congrArg Host.Outcome.next (State.coldRestart_powered hm hl), hrun, hcrn, (congrArg GntState.mode hgnt).trans rfl, hready, hempty,
      fun q => ?_, fun h => hpeff h, htb, hclo, fun c => ?_⟩
    · simp [hpart]
    · rw [hcores]
      exact Vector.getElem_replicate c.isLt
  case recovery =>
    have hrec := State.proceed_recovers (s := s.powered erased) (r := .cold) (e := e) rfl hl rfl he hi
    refine ⟨_, congrArg Host.Outcome.next ((State.coldRestart_powered hm hl).trans hrec), ?_, ?_, fun q => ?_, rfl⟩
    · exact (State.romCrown_mode ..).trans (if_neg (by rw [Bool.not_eq_true]; exact hi))
    · exact congrArg CrnState.atStart (if_neg (by rw [Bool.not_eq_true]; exact hi))
    · exact Vector.getElem_replicate q.isLt
  case notCold =>
    refine congrArg Host.Outcome.next ?_
    simp only [State.coldRestart, show s.pwr.mode = .run from hm, if_neg h]
  case notWarm =>
    refine congrArg Host.Outcome.next ?_
    simp [State.warmRestart, show s.pwr.mode = .run from hm, h]
  case warm =>
    obtain ⟨htest, -⟩ := hs
    obtain ⟨hrun, -, -, hgnt, hclo, htb, -, -, hlog, -, -, hmem⟩ :=
      State.proceed_runs (s := s.heldAt .warm erased) (r := .warm) (e := e) rfl hl ht htest hi
    obtain ⟨hkeep, hself, hlen⟩ := hmem (by decide)
    refine ⟨_, congrArg Host.Outcome.next (State.warmRestart_asked hm hst h), hrun, hkeep, hself, fun i => ?_, (congrArg GntState.mode hgnt).trans rfl,
      hlen, hlog, htb, hclo⟩
    rw [hgnt]
    exact s.gnt.restart_strm s.armed i
  case pin =>
    obtain ⟨k, hk, heq⟩ := State.warmRestart_pin (s := s) (erased := erased) (e := e) hm
    refine ⟨_, congrArg Host.Outcome.next heq, rfl, ?_, fun c => Vector.getElem_replicate c.isLt, rfl⟩
    obtain rfl | rfl := hk
    · exact .inl rfl
    · exact .inr rfl
  case release =>
    obtain ⟨hrun, hlow, -⟩ := State.proceed_runs (s := s.modPwr fun p => { p with rstLow := false }) (r := r) (e := e) hm rfl ht he hi
    exact ⟨_, rfl, hlow, hrun⟩
  case releaseRun => exact congrArg Host.Outcome.next (State.proceed_other fun r hr => by cases (show s.pwr.mode = .run from hm).symm.trans hr)
  case tripEnds =>
    have hgo : (s.pwr.trip && s.cooled && decide (s.pwr.mode ≠ .run)) = true := by
      rw [show s.pwr.trip = true from ht, hc, show s.pwr.mode = .aoOnly from hm]
      rfl
    refine congrArg Host.Outcome.next ((if_pos hgo).trans (State.proceed_other fun r hr => ?_))
    cases (show s.pwr.mode = .aoOnly from hm).symm.trans hr
  case tripStays =>
    refine congrArg Host.Outcome.next (if_neg ?_)
    obtain h | h := h
    · rw [show s.pwr.trip = false from h]
      exact Bool.false_ne_true
    · rw [h, Bool.and_false]
      exact Bool.false_ne_true
  case off => exact ⟨_, rfl, rfl, rfl, rfl, rfl, rfl, rfl, rfl, rfl, rfl⟩
  case noDoze => exact congrArg Host.Outcome.next (if_pos h)
  case dozeEnds =>
    obtain ⟨hrun, hdozed, hrgn, hmem, hself, hcores, hcrn, hevt⟩ := s.resume_spec
    refine ⟨_, congrArg Host.Outcome.next ?_, hrun, hdozed, hrgn, hmem, hself, fun c => ?_, hcrn, hevt⟩
    · exact (if_neg (not_not.mpr hm)).trans (if_neg (by rw [show s.pwr.rstLow = false from hl]; exact Bool.false_ne_true))
    · rw [hcores]
      exact Vector.getElem_replicate c.isLt
  case dozeHeld =>
    refine ⟨_, congrArg Host.Outcome.next ((if_neg (not_not.mpr hm)).trans (if_pos hl)), ?_⟩
    have hkind : s.restartKind .warm = .warm := State.restartKind_doze hm hs
    rw [State.restartBegin_eq, hkind]
    rfl

end Sys2Proof.Machine
end

/-! The proofs: one channel of a DMA engine. -/

section
namespace Sys2Proof.Machine

/-! ### One channel of an engine (R312, R314) -/

section
variable {s t : State} {e : DmaEng} {ch o : Fin 16} {f : DmaChan → DmaChan}

/-- The channels an engine has. -/
def engList (e : DmaEng) : List (Fin 16) := (List.range (engChans e)).map (Fin.ofNat 16)

theorem engChans_le (e : DmaEng) : engChans e ≤ 16 := by
  cases e
  · exact (by decide : 8 ≤ 16)
  · exact le_rfl

theorem engChans_pos (e : DmaEng) : 0 < engChans e := by cases e <;> exact Nat.succ_pos _

theorem mem_engList : o ∈ engList e ↔ o.val < engChans e := by
  have hle := engChans_le e
  simp only [engList, List.mem_map, List.mem_range]
  constructor
  · rintro ⟨k, hk, rfl⟩
    exact (Nat.mod_le _ _).trans_lt hk
  · exact fun h => ⟨o.val, h, Fin.ofNat_val_eq_self o⟩

theorem dmaChanOk_iff : dmaChanOk e ch = true ↔ ch.val < engChans e := by
  cases e
  · exact decide_eq_true_iff
  · exact iff_of_true rfl ch.isLt

theorem mem_rotated_of_pos {n tok k : Nat} (hn : 0 < n) : k ∈ rotated n tok ↔ k < n := by
  simp only [rotated, List.mem_map, List.mem_range]
  constructor
  · rintro ⟨i, -, rfl⟩
    exact Nat.mod_lt _ hn
  · intro hk
    have ht := Nat.mod_lt (tok + 1) hn
    refine ⟨(k + (n - (tok + 1) % n)) % n, Nat.mod_lt _ hn, ?_⟩
    have hsum : (tok + 1) % n + (k + (n - (tok + 1) % n)) = k + n := by omega
    rw [Nat.add_mod_mod, ← Nat.mod_add_mod, hsum, Nat.add_mod_right, Nat.mod_eq_of_lt hk]

/-- The channels in the order of the rotating token. -/
theorem mem_rotated_engList {tok : Nat} : o ∈ (rotated (engChans e) tok).map (Fin.ofNat 16) ↔ o.val < engChans e := by
  have hle := engChans_le e
  simp only [List.mem_map, mem_rotated_of_pos (engChans_pos e)]
  constructor
  · rintro ⟨k, hk, rfl⟩
    exact (Nat.mod_le _ _).trans_lt hk
  · exact fun h => ⟨o.val, h, Fin.ofNat_val_eq_self o⟩

/-- A channel's other registers stay as another changes. -/
theorem State.dch_modDch_other (ho : o.val < engChans e) (hch : ch.val < engChans e) (h : o ≠ ch) : (s.modDch e ch f).dch e o = s.dch e o := by
  have hne : ch.val ≠ o.val := fun hv => h (Fin.ext hv.symm)
  cases e with
  | core c =>
    have hv : (Fin.ofNat 8 ch.val : Fin 8).val ≠ (Fin.ofNat 8 o.val : Fin 8).val := by
      change ch.val % 8 ≠ o.val % 8
      rwa [Nat.mod_eq_of_lt (show ch.val < 8 from hch), Nat.mod_eq_of_lt (show o.val < 8 from ho)]
    have hset : (s.modDch (.core c) ch f).dma.cores[c] = s.dma.cores[c].set (Fin.ofNat 8 ch.val) (f s.dma.cores[c][Fin.ofNat 8 ch.val]) :=
      Vector.getElem_set_self ..
    exact (congrArg (fun v : Vector DmaChan 8 => v[Fin.ofNat 8 o.val]) hset).trans (Vector.getElem_set_ne _ _ hv)
  | die d =>
    have hset : (s.modDch (.die d) ch f).dma.dies[d] = s.dma.dies[d].set ch (f s.dma.dies[d][ch]) := Vector.getElem_set_self ..
    exact (congrArg (fun v : Vector DmaChan 16 => v[o]) hset).trans (Vector.getElem_set_ne _ _ hne)

/-- The channel runs the last descriptor of its list, and no other channel of its engine is busy. -/
structure State.Lone (s : State) (e : DmaEng) (ch : Fin 16) : Prop where
  ok   : ch.val < engChans e
  busy : (s.dch e ch).busy = true
  last : dLast (s.dch e ch).desc = true
  rest : ∀ o : Fin 16, o.val < engChans e → o ≠ ch → (s.dch e o).busy = false

theorem State.Lone.mod (h : s.Lone e ch) (hb : (f (s.dch e ch)).busy = true) (hd : (f (s.dch e ch)).desc = (s.dch e ch).desc) :
    (s.modDch e ch f).Lone e ch where
  ok := h.ok
  busy := by rw [State.dch_modDch_same, hb]
  last := by rw [State.dch_modDch_same, hd, h.last]
  rest o ho hne := by rw [State.dch_modDch_other ho h.ok hne, h.rest o ho hne]

/-- A fold that acts on one element of its list alone. -/
theorem foldl_of_one {α β : Type} {g : β → α → β} {l : List α} {a : α} {x y : β} (ha : a ∈ l) (hx : ∀ b ∈ l, b ≠ a → g x b = x)
    (hxa : g x a = y) (hy : ∀ b ∈ l, g y b = y) : l.foldl g x = y := by
  induction l with
  | nil => exact absurd ha List.not_mem_nil
  | cons b l ih =>
    have hstay : l.foldl g y = y := by
      clear ih ha hx
      induction l with
      | nil => rfl
      | cons c l ih => rw [List.foldl_cons, hy c (by simp), ih fun d hd => hy d (by simp at hd ⊢; tauto)]
    by_cases hb : b = a
    · rw [List.foldl_cons, hb, hxa, hstay]
    · have hmem : a ∈ l := (List.mem_cons.mp ha).resolve_left (Ne.symm hb)
      rw [List.foldl_cons, hx b (List.mem_cons_self ..) hb]
      exact ih hmem (fun c hc => hx c (List.mem_cons_of_mem _ hc)) fun c hc => hy c (List.mem_cons_of_mem _ hc)

theorem State.fetchCur_free (h : (s.dch e o).busy = false) : s.fetchCur e o = s := if_neg (by simp [h])

theorem State.fetchCur_later (h : (s.dch e o).phase ≠ .idle) : s.fetchCur e o = s := if_neg (by simp [h])

theorem State.descStart_free (h : (s.dch e o).busy = false) : s.descStart e o = s := if_pos (by simp [h])

theorem State.descStart_later (h : (s.dch e o).phase ≠ .fetched) : s.descStart e o = s := if_pos (by simp [h])

theorem State.prefetch_last (h : dLast (s.dch e ch).desc = true) : s.prefetch e ch = s := if_pos (by simp [h])

/-- Nothing starts beside a lone channel, which has started. -/
theorem State.Lone.startAll_started (h : s.Lone e ch) (hi : (s.dch e ch).phase ≠ .idle) (hf : (s.dch e ch).phase ≠ .fetched) : s.startAll e = s := by
  refine foldl_of_one (a := ch) (mem_engList.mpr h.ok) (fun o ho hne => ?_) ?_ fun o ho => ?_
  · rw [State.fetchCur_free (h.rest o (mem_engList.mp ho) hne), State.descStart_free (h.rest o (mem_engList.mp ho) hne)]
  · rw [State.fetchCur_later hi, State.descStart_later hf]
  · by_cases hne : o = ch
    · rw [hne, State.fetchCur_later hi, State.descStart_later hf]
    · rw [State.fetchCur_free (h.rest o (mem_engList.mp ho) hne), State.descStart_free (h.rest o (mem_engList.mp ho) hne)]

/-- The descriptor of a lone channel starts. -/
theorem State.Lone.startAll_fetched (h : s.Lone e ch) (hp : (s.dch e ch).phase = .fetched) (ht : s.descStart e ch = t) (hl : t.Lone e ch)
    (hi : (t.dch e ch).phase ≠ .idle) (hf : (t.dch e ch).phase ≠ .fetched) : s.startAll e = t := by
  have hnot : (s.dch e ch).phase ≠ .idle := by rw [hp]; decide
  refine foldl_of_one (a := ch) (mem_engList.mpr h.ok) (fun o ho hne => ?_) ?_ fun o ho => ?_
  · rw [State.fetchCur_free (h.rest o (mem_engList.mp ho) hne), State.descStart_free (h.rest o (mem_engList.mp ho) hne)]
  · rw [State.fetchCur_later hnot, ht]
  · by_cases hne : o = ch
    · rw [hne, State.fetchCur_later hi, State.descStart_later hf]
    · rw [State.fetchCur_free (hl.rest o (mem_engList.mp ho) hne), State.descStart_free (hl.rest o (mem_engList.mp ho) hne)]

/-- A row of a channel that has work: its descriptor starts, and bursts are served. -/
theorem State.dmaExec_eq {op : Nat} (hb : (s.dch e ch).busy = true) (hp : (s.dch e ch).phase = .fetched ∨ (s.dch e ch).phase = .running)
    (ho : dOp (s.dch e ch).desc = op) (ht : s.startAll e = t) :
    s.dmaExec e ch op = (State.dmaServe e ch (t.burstBound e) t).prefetch e ch := by
  have hnot : (s.dch e ch).phase ≠ .idle := by
    obtain h | h := hp <;> rw [h] <;> decide
  have hgo : (decide ((s.dch e ch).phase = .fetched) || decide ((s.dch e ch).phase = .running)) = true := by
    obtain h | h := hp <;> rw [h] <;> rfl
  simp only [State.dmaExec, State.fetchCur_later hnot, hb, hgo, ho, ht, decide_true, Bool.and_true, Bool.true_or, Bool.not_true, Bool.false_eq_true, if_false]

theorem State.dmaServe_stop (h : s.burstReady e ch = false) (n : Nat) : State.dmaServe e ch n s = s := by
  cases n with
  | zero => rfl
  | succ n => exact if_neg (by rw [h]; exact Bool.false_ne_true)

theorem State.burstReady_phase (h : (s.dch e ch).phase ≠ .running) : s.burstReady e ch = false := by
  simp [State.burstReady, h]

/-- An engine grants the one channel that has a burst ready. -/
theorem State.Lone.grant (h : s.Lone e ch) (hr : s.burstReady e ch = true) : s.dmaGrant e = some ch := by
  have honly {o : Fin 16} (ho : o.val < engChans e) (hready : s.burstReady e o = true) : o = ch := by
    by_contra hne
    simp [State.burstReady, h.rest o ho hne] at hready
  have hmem {o : Fin 16} : o ∈ ((rotated (engChans e) (s.dmaTok e).val).map (Fin.ofNat 16)).filter (s.burstReady e) ↔ o = ch := by
    rw [List.mem_filter, mem_rotated_engList]
    exact ⟨fun ho => honly ho.1 ho.2, fun ho => ho ▸ ⟨h.ok, hr⟩⟩
  obtain ⟨o, ho⟩ : ∃ o, s.dmaGrant e = some o := by
    refine Option.isSome_iff_exists.mp (List.find?_isSome.mpr ⟨ch, hmem.mpr rfl, List.all_eq_true.mpr fun o ho => ?_⟩)
    rw [hmem.mp ho]
    exact decide_eq_true le_rfl
  rw [ho, hmem.mp (List.mem_of_find?_eq_some ho)]

theorem State.Lone.serve (h : s.Lone e ch) (hr : s.burstReady e ch = true) (n : Nat) :
    State.dmaServe e ch (n + 1) s = State.dmaServe e ch n ((s.setDmaTok e ch).dmaBurst e ch) := by
  simp only [State.dmaServe, hr, if_true, h.grant hr]

/-- Of the channels with a burst ready, an engine grants one of the highest level (R314). -/
theorem State.dmaGrant_spec (h : s.dmaGrant e = some o) : s.burstReady e o = true ∧
    ∀ k : Fin 16, k.val < engChans e → s.burstReady e k = true → (s.dch e k).level ≤ (s.dch e o).level := by
  have hready := (List.mem_filter.mp (List.mem_of_find?_eq_some h)).2
  have hpred := List.find?_some h
  have hall := List.all_eq_true.mp hpred
  exact ⟨hready, fun k hk hr => of_decide_eq_true (hall k (List.mem_filter.mpr ⟨mem_rotated_engList.mpr hk, hr⟩))⟩

end

/-! ### A descriptor that fails its checks, and one whose burst waits (R307, R312) -/

section
variable {s : State} {e : DmaEng} {ch : Fin 16}

theorem State.dmaExec_bad {op : Nat} (h : s.Lone e ch) (hp : (s.dch e ch).phase = .fetched) (ho : dOp (s.dch e ch).desc = op)
    (hc : s.descCheck e ch (s.dch e ch).desc ≠ 0) : s.dmaExec e ch op = s.modDch e ch fun y =>
      { y with phase := .executed, status := (DescEnd.mk (s.descCheck e ch (s.dch e ch).desc) false false 0).status } := by
  generalize hx : DescEnd.status ⟨s.descCheck e ch (s.dch e ch).desc, false, false, 0⟩ = w
  have hstart : s.descStart e ch = s.modDch e ch fun y => { y with phase := .executed, status := w } := by
    simp only [State.descStart, h.busy, hp, State.prefetch_last h.last, decide_true, Bool.and_self, Bool.not_true, Bool.false_eq_true,
      if_false, if_pos hc]
    rw [← hx]
    rfl
  have hlone : (s.modDch e ch fun y => { y with phase := .executed, status := w }).Lone e ch := h.mod h.busy rfl
  have hphase : ((s.modDch e ch fun y => { y with phase := .executed, status := w }).dch e ch).phase = .executed := by
    rw [State.dch_modDch_same]
  rw [State.dmaExec_eq h.busy (.inl hp) ho (h.startAll_fetched hp hstart hlone (by rw [hphase]; decide) (by rw [hphase]; decide)),
    State.dmaServe_stop (State.burstReady_phase (by rw [hphase]; decide)), State.prefetch_last hlone.last]

theorem State.dmaExec_waits {op : Nat} (h : s.Lone e ch) (hp : (s.dch e ch).phase = .running) (ho : dOp (s.dch e ch).desc = op)
    (hm : s.actMay e (s.dch e ch).desc ((s.dch e ch).prog.act (s.dch e ch).desc) = false) : s.dmaExec e ch op = s := by
  have hready : s.burstReady e ch = false := by simp [State.burstReady, hm]
  rw [State.dmaExec_eq h.busy (.inr hp) ho (h.startAll_started (by rw [hp]; decide) (by rw [hp]; decide)), State.dmaServe_stop hready,
    State.prefetch_last h.last]

end

/-! ### Signals, the end of a descriptor and a parity error (R313, R316, R317, R322) -/

section
variable {s t : State} {e : DmaEng} {ch : Fin 16}

theorem State.halfSignal_due (hb : (s.dch e ch).busy = true) (hh : (s.dch e ch).halfDone = true) (hd : dHen (s.dch e ch).desc = true)
    (hf : (s.dch e ch).half = false) (hbad : stBad (s.dch e ch).status = false) (hw : s.writesHeld e.ini = false) :
    s.halfSignal e ch = (s.dmaSignal e ch (s.dch e ch).desc true).modDch e ch fun y => { y with half := true } := by
  refine if_pos ?_
  rw [hb, hh, hd, hf, hbad, hw]
  rfl

theorem State.descDone_plain (hb : (s.dch e ch).busy = true) (hp : (s.dch e ch).phase = .executed) (hc : s.mayClose e ch = true)
    (hh : dHen (s.dch e ch).desc = false) (hd : dDen (s.dch e ch).desc = false) (hbad : stBad (s.dch e ch).status = false) :
    s.descDone e ch = ((s.putStatus e ch (s.dch e ch)).modDch e ch fun y =>
      { y with half := true, descs := (y.descs + 1) % 2 ^ 32, left := y.left - 1 }).advance e ch := by
  simp only [State.descDone, hb, hp, hc, hh, hd, hbad, decide_true, Bool.and_self, Bool.not_true, Bool.false_and, Bool.false_eq_true, if_false]

theorem State.signalRecord_dma (s : State) (c : CoreId) (r : Rec64) : (s.signalRecord c r).dma = s.dma := by
  unfold State.signalRecord
  split <;> rfl

theorem State.slotDone_dma (s : State) (c : CoreId) (i : Fin 4) (status : Nat) (ran signal : Bool) : (s.slotDone c i status ran signal).dma = s.dma := by
  unfold State.slotDone
  extract_lets slot slot' t
  split
  · exact State.signalRecord_dma t c slot.record
  · rfl

theorem State.fenceCore_dma (s : State) (c : CoreId) : (s.fenceCore c).dma = s.dma := by
  have hfold (l : List (Fin 4)) (t : State) : (l.foldl (fun t i => (t.slotDone c i 0x93 false true).postCore c 0x1093) t).dma = t.dma := by
    induction l generalizing t with
    | nil => rfl
    | cons i l ih => exact (ih _).trans (State.slotDone_dma t c i 0x93 false true)
  unfold State.fenceCore
  split
  · rfl
  · exact hfold _ _

theorem State.finishTask_dma (s : State) (c : CoreId) (status : Nat) : (s.finishTask c status).dma = s.dma := by
  have hdone := State.slotDone_dma (s.modSpd c SpdState.flushAll) c s.cores[c].seq.slot status true true
  unfold State.finishTask
  extract_lets i t u v
  split <;> exact hdone

/-- A channel that is not busy stays as it is while a core's tasks stop. -/
theorem State.stopEngines_dch {c : CoreId} (h : (s.dch (.core c) ch).busy = false) : (s.stopEngines c).dch (.core c) ch = s.dch (.core c) ch := by
  have hset : (s.stopEngines c).dma.cores[c] = s.dma.cores[c].map fun x => if x.busy && !x.reg then x.halt else x := Vector.getElem_set_self ..
  have hch : (s.stopEngines c).dch (.core c) ch = if (s.dch (.core c) ch).busy && !(s.dch (.core c) ch).reg then (s.dch (.core c) ch).halt
      else s.dch (.core c) ch :=
    (congrArg (fun v : Vector DmaChan 8 => v[Fin.ofNat 8 ch.val]) hset).trans (Vector.getElem_map ..)
  rw [hch, h]
  rfl

theorem State.dch_congr (h : t.dma = s.dma) : t.dch e ch = s.dch e ch := by cases e <;> simp only [State.dch, h]

/-- A task that ends with a fault status leaves a channel that is not busy. -/
theorem State.failTask_dch {c : CoreId} (h : (s.dch (.core c) ch).busy = false) : (s.failTask c 0x8C).dch (.core c) ch = s.dch (.core c) ch := by
  have hstop : (((s.stopEngines c).finishTask c 0x8C).fenceCore c).dch (.core c) ch = s.dch (.core c) ch :=
    (State.dch_congr ((State.fenceCore_dma ..).trans (State.finishTask_dma ..))).trans (State.stopEngines_dch h)
  have hfault : isFaultStatus 0x8C = true := rfl
  unfold State.failTask
  simp only [hfault, if_true]
  split
  case h_1 => rfl
  case h_2 => rfl
  case h_3 => exact hstop
  case h_4 => exact hstop

/-- A parity error halts the channel (R322). -/
theorem State.dmaParity_dch (h : (s.dch e ch).busy = true) :
    (s.dmaParity e ch).dch e ch = { (s.dch e ch).halt with nbad := min 0xFFFF ((s.dch e ch).nbad + 1) } := by
  have hhalt : (s.modDch e ch fun x => { x.halt with nbad := satAdd 0xFFFF x.nbad 1 }).dch e ch =
      { (s.dch e ch).halt with nbad := min 0xFFFF ((s.dch e ch).nbad + 1) } := State.dch_modDch_same
  simp only [State.dmaParity, if_pos h]
  generalize (s.modDch e ch fun x => { x.halt with nbad := satAdd 0xFFFF x.nbad 1 }) = u at hhalt ⊢
  have hpost : (u.dmaPost e ch 0x2302 true).dch e ch = u.dch e ch := State.dch_congr rfl
  cases e with
  | core c =>
    refine (State.dch_congr (State.fenceCore_dma ..)).trans ((State.failTask_dch ?_).trans (hpost.trans hhalt))
    rw [hpost, hhalt]
    rfl
  | die d => exact hpost.trans hhalt

end

/-! ### STATUS (R316) -/

theorem DescEnd.status_spec {y : DescEnd} (he : y.ecode < 16) (hv : y.val < 2 ^ 32) : bit y.status 63 = true ∧
    bit y.status 62 = decide (y.ecode ≠ 0) ∧ bit y.status 61 = y.mism ∧ bit y.status 60 = y.satd ∧ fld y.status 56 4 = y.ecode ∧
    fld y.status 0 32 = y.val := by
  simp only [DescEnd.status, pack, List.foldl_cons, List.foldl_nil]
  simp [Nat.mod_eq_of_lt he, -Nat.testBit_zero]
  exact ⟨rfl, hv⟩

/-! ### The conversion of an element (R308) -/

section
variable {sw dw v : Nat}

theorem wrapN_ofNat (n v : Nat) : wrapN n (v : Int) = v % 2 ^ n := by
  simp only [wrapN]
  exact_mod_cast Int.toNat_natCast (v % 2 ^ n)

theorem dmaElem_signed (sw dw v : Nat) : (dmaElem sw dw true true v).1 = wrapN (8 * 2 ^ dw) (if dw < sw then
    max (-(2 ^ (8 * 2 ^ dw - 1))) (min (2 ^ (8 * 2 ^ dw - 1) - 1) (toSigned (8 * 2 ^ sw) v)) else toSigned (8 * 2 ^ sw) v) := by
  have hpos : (0 : Int) < 2 ^ (8 * 2 ^ dw - 1) := by positivity
  by_cases h : dw < sw
  · simp only [dmaElem, h, if_true, decide_true, Bool.and_self]
    generalize toSigned (8 * 2 ^ sw) v = x
    generalize (2 : Int) ^ (8 * 2 ^ dw - 1) = m at hpos ⊢
    split
    · exact congrArg (wrapN _) (by omega)
    · split <;> exact congrArg (wrapN _) (by omega)
  · simp only [dmaElem, h, if_true, if_false, decide_false, Bool.false_and, Bool.false_eq_true]

/-- A width of an element of 2 to the power `k` bytes. -/
theorem width_le (h : sw ≤ dw) : (2 : Nat) ^ (8 * 2 ^ sw) ≤ 2 ^ (8 * 2 ^ dw) :=
  Nat.pow_le_pow_right (by decide) (Nat.mul_le_mul_left 8 (Nat.pow_le_pow_right (by decide) h))

theorem dmaElem_wraps (hv : v < 2 ^ (8 * 2 ^ sw)) : (dmaElem sw dw false false v).1 = v % 2 ^ (8 * 2 ^ dw) := by
  simp only [dmaElem, Bool.and_false, Bool.false_eq_true, if_false, Nat.mod_eq_of_lt hv, wrapN_ofNat]

theorem dmaElem_clamps (hv : v < 2 ^ (8 * 2 ^ sw)) : (dmaElem sw dw false true v).1 = min (2 ^ (8 * 2 ^ dw) - 1) v := by
  have hpos : 0 < 2 ^ (8 * 2 ^ dw) := by positivity
  by_cases h : dw < sw
  · have hhi : ((2 ^ (8 * 2 ^ dw) - 1 : Nat) : Int) = 2 ^ (8 * 2 ^ dw) - 1 := by
      push_cast [Nat.cast_sub hpos]
      rfl
    have hlow : ¬ ((v : Nat) : Int) < 0 := by omega
    simp only [dmaElem, h, if_false, decide_true, Bool.and_self, if_true, Bool.false_eq_true, Nat.mod_eq_of_lt hv, ← hhi, if_neg hlow, wrapN_ofNat]
    generalize 2 ^ (8 * 2 ^ dw) = m at hpos ⊢
    split
    · rw [Nat.mod_eq_of_lt (by omega)]
      omega
    · rw [Nat.mod_eq_of_lt (by omega)]
      omega
  · have hle := width_le (Nat.not_lt.mp h)
    simp only [dmaElem, h, if_false, decide_false, Bool.false_and, Bool.false_eq_true, Nat.mod_eq_of_lt hv, wrapN_ofNat]
    rw [Nat.mod_eq_of_lt (by omega)]
    omega

end

end Sys2Proof.Machine
end

/-! The proofs: DMA descriptors. -/

section
namespace Sys2Proof.Machine

/-! ### A descriptor in progress on a core's engine (R312, R314) -/

/-- The module while a channel of core `c` is in progress: the core's scratchpad, the channel and the token. -/
def State.underway (s : State) (c : CoreId) (ch : Fin 16) (m : Mem) (y : DmaChan) (tok : Fin 16) : State :=
  { s with
    cores := s.cores.set c { s.cores[c] with spd := { s.cores[c].spd with mem := m } }
    dma := { s.dma with cores := s.dma.cores.set c (s.dma.cores[c].set (Fin.ofNat 8 ch.val) y), coreTok := s.dma.coreTok.set c tok } }

section
variable {s : State} {c : CoreId} {ch o : Fin 16} {m : Mem} {y : DmaChan} {tok : Fin 16}

theorem State.underway_dma : (s.underway c ch m y tok).dma.cores[c] = s.dma.cores[c].set (Fin.ofNat 8 ch.val) y := Vector.getElem_set_self ..

theorem State.underway_dch : (s.underway c ch m y tok).dch (.core c) ch = y :=
  (congrArg (fun v : Vector DmaChan 8 => v[Fin.ofNat 8 ch.val]) State.underway_dma).trans (Vector.getElem_set_self ..)

theorem State.underway_dch_other (ho : o.val < 8) (hch : ch.val < 8) (h : o ≠ ch) :
    (s.underway c ch m y tok).dch (.core c) o = s.dch (.core c) o := by
  have hne : (Fin.ofNat 8 ch.val : Fin 8).val ≠ (Fin.ofNat 8 o.val : Fin 8).val := by
    change ch.val % 8 ≠ o.val % 8
    rw [Nat.mod_eq_of_lt hch, Nat.mod_eq_of_lt ho]
    exact fun hv => h (Fin.ext hv.symm)
  exact (congrArg (fun v : Vector DmaChan 8 => v[Fin.ofNat 8 o.val]) State.underway_dma).trans (Vector.getElem_set_ne _ _ hne)

theorem State.underway_core : (s.underway c ch m y tok).cores[c] = { s.cores[c] with spd := { s.cores[c].spd with mem := m } } :=
  Vector.getElem_set_self ..

theorem State.underway_mod (f : DmaChan → DmaChan) : (s.underway c ch m y tok).modDch (.core c) ch f = s.underway c ch m (f y) tok := by
  simp [State.underway, State.modDch, Vector.set_set]

theorem State.underway_tok (k : Fin 16) : (s.underway c ch m y tok).setDmaTok (.core c) k = s.underway c ch m y k := by
  simp [State.underway, State.setDmaTok, Vector.set_set]

theorem State.underway_bank (a : Nat) (bs : List Byte) : (s.underway c ch m y tok).bankWrite c a bs = s.underway c ch (m.write a bs) y tok := by
  simp [State.underway, State.bankWrite, State.modSpd, State.modCore, Vector.set_set]

theorem State.underway_begins (f : DmaChan → DmaChan) : s.modDch (.core c) ch f =
    s.underway c ch s.cores[c].spd.mem (f (s.dch (.core c) ch)) (s.dmaTok (.core c)) := by
  have hcores : s.cores.set c.val { s.cores[c] with spd := { s.cores[c].spd with mem := s.cores[c].spd.mem } } = s.cores :=
    Vector.set_getElem_self ..
  have htok : s.dma.coreTok.set c.val s.dma.coreTok[c] = s.dma.coreTok := Vector.set_getElem_self ..
  rw [State.underway, State.dmaTok, hcores, htok]
  rfl

theorem State.Lone.underway (h : s.Lone (.core c) ch) (hb : y.busy = true) (hd : y.desc = (s.dch (.core c) ch).desc) :
    (s.underway c ch m y tok).Lone (.core c) ch where
  ok := h.ok
  busy := by rw [State.underway_dch, hb]
  last := by rw [State.underway_dch, hd, h.last]
  rest o ho hne := by rw [State.underway_dch_other ho h.ok hne, h.rest o ho hne]

end

/-- The bursts of a descriptor in progress have come as far as `x`. -/
def State.course (s : State) (c : CoreId) (ch : Fin 16) (m : Mem) (x : DmaProg) (tok : Fin 16) : State :=
  s.underway c ch m { s.dch (.core c) ch with phase := .running, prog := x } tok

/-- The descriptor has done its accesses. -/
def State.courseEnd (s : State) (c : CoreId) (ch : Fin 16) (m : Mem) (x : DmaProg) (r : DescEnd) : State :=
  s.underway c ch m { s.dch (.core c) ch with phase := .executed, prog := x, status := r.status } ch

section
variable {s : State} {c : CoreId} {ch : Fin 16} {m : Mem} {x x' : DmaProg} {tok : Fin 16} {d : Rec64} {a n : Nat} {bs : List Byte}

theorem State.course_dch : (s.course c ch m x tok).dch (.core c) ch = { s.dch (.core c) ch with phase := .running, prog := x } := State.underway_dch

theorem State.course_spd : (s.course c ch m x tok).cores[c].spd = { s.cores[c].spd with mem := m } := congrArg CoreSt.spd State.underway_core

/-- The next burst of a lone channel is granted and served. -/
theorem State.Lone.serve_next (h : s.Lone (.core c) ch) (hd : (s.dch (.core c) ch).desc = d)
    (hm : (s.course c ch m x tok).actMay (.core c) d (x.act d) = true) (k : Nat) :
    State.dmaServe (.core c) ch (k + 1) (s.course c ch m x tok) = State.dmaServe (.core c) ch k ((s.course c ch m x ch).dmaBurst (.core c) ch) := by
  have hlone : (s.course c ch m x tok).Lone (.core c) ch := h.underway h.busy rfl
  have hready : (s.course c ch m x tok).burstReady (.core c) ch = true := by
    simp only [State.burstReady, State.course_dch, hd, hm, h.busy]
    rfl
  rw [hlone.serve hready]
  exact congrArg (fun t : State => State.dmaServe (.core c) ch k (t.dmaBurst (.core c) ch)) (State.underway_tok ch)

theorem State.Lone.serve_src (h : s.Lone (.core c) ch) (hd : (s.dch (.core c) ch).desc = d) (hs : dSsp d = true) (hact : x.act d = .src a n)
    (hr : s.cores[c].spd.mayRead (a / 256) = true) (hp : s.cores[c].spd.poweredAll a n = true)
    (htake : (s.course c ch m x ch).srcTaken d x (m.read a n) = (s.course c ch m x ch, x')) (k : Nat) :
    State.dmaServe (.core c) ch (k + 1) (s.course c ch m x tok) = State.dmaServe (.core c) ch k (s.course c ch m x' ch) := by
  have hm : (s.course c ch m x tok).actMay (.core c) d (x.act d) = true := by
    simp only [hact, State.actMay, hs, State.course_spd]
    exact hr
  have hread : (s.course c ch m x ch).dmaSrc (.core c) ch (dSsp d) a n = (s.course c ch m x ch, some (m.read a n)) := by
    simp only [State.dmaSrc, State.dmaRead, hs, State.course_spd]
    exact congrArg (Prod.mk _) (if_pos hp)
  rw [h.serve_next hd hm]
  simp only [State.dmaBurst, State.course_dch, hd, hact, hread, htake]
  exact congrArg (State.dmaServe (.core c) ch k) (State.underway_mod _)

theorem State.Lone.serve_dst (h : s.Lone (.core c) ch) (hd : (s.dch (.core c) ch).desc = d) (hs : dDsp d = true) (hact : x.act d = .dst a n)
    (hr : s.cores[c].spd.mayRead (a / 256) = true) (hp : s.cores[c].spd.poweredAll a n = true) (k : Nat) :
    State.dmaServe (.core c) ch (k + 1) (s.course c ch m x tok) = State.dmaServe (.core c) ch k (s.course c ch m (x.compare d (m.read a n)) ch) := by
  have hm : (s.course c ch m x tok).actMay (.core c) d (x.act d) = true := by
    simp only [hact, State.actMay, hs, State.course_spd]
    exact hr
  have hread : (s.course c ch m x ch).dmaRead (.core c) ch (dDsp d) a n = (s.course c ch m x ch, some (m.read a n)) := by
    simp only [State.dmaRead, hs, State.course_spd]
    exact congrArg (Prod.mk _) (if_pos hp)
  rw [h.serve_next hd hm]
  simp only [State.dmaBurst, State.course_dch, hd, hact, hread]
  exact congrArg (State.dmaServe (.core c) ch k) (State.underway_mod _)

theorem State.Lone.serve_put (h : s.Lone (.core c) ch) (hd : (s.dch (.core c) ch).desc = d) (hs : dDsp d = true) (hrem : dRem d = false)
    (hact : x.act d = .put a bs) (hr : s.cores[c].spd.mayWrite (a / 256) = true) (hp : s.cores[c].spd.poweredAll a bs.length = true) (k : Nat) :
    State.dmaServe (.core c) ch (k + 1) (s.course c ch m x tok) =
      State.dmaServe (.core c) ch k (s.course c ch (m.write a bs) (x.putDone d a bs) ch) := by
  have hm : (s.course c ch m x tok).actMay (.core c) d (x.act d) = true := by
    simp only [hact, State.actMay, hs, State.course_spd]
    exact hr
  have hwrite : (s.course c ch m x ch).dmaWrite (.core c) ch (dDsp d) a bs = (s.course c ch (m.write a bs) x ch, false) := by
    simp only [State.dmaWrite, hs, State.course_spd]
    exact congrArg (·, false) ((if_pos hp).trans (State.underway_bank ..))
  rw [h.serve_next hd hm]
  simp only [State.dmaBurst, State.course_dch, hd, hact, hrem, hwrite, Bool.false_eq_true, if_false]
  exact congrArg (State.dmaServe (.core c) ch k) (State.underway_mod _)

theorem State.Lone.serve_finish (h : s.Lone (.core c) ch) (hd : (s.dch (.core c) ch).desc = d) (hact : x.act d = .finish) (ho : dOverlap d = false)
    (k : Nat) : State.dmaServe (.core c) ch (k + 1) (s.course c ch m x tok) = s.courseEnd c ch m x (x.report d) := by
  have hburst : (s.course c ch m x ch).dmaBurst (.core c) ch = s.courseEnd c ch m x (x.report d) := by
    simp only [State.dmaBurst, State.course_dch, hd, hact, ho, Bool.false_eq_true, if_false]
    exact State.underway_mod _
  rw [h.serve_next hd (by rw [hact]; rfl), hburst]
  refine State.dmaServe_stop (State.burstReady_phase ?_) k
  rw [State.courseEnd, State.underway_dch]
  exact DescPhase.noConfusion

/-- A descriptor that keeps its checks starts, and its bursts are served. -/
theorem State.Lone.dmaExec_course (h : s.Lone (.core c) ch) (hp : (s.dch (.core c) ch).phase = .fetched)
    (hc : s.descCheck (.core c) ch (s.dch (.core c) ch).desc = 0) : ∃ k, 16 ≤ k ∧
      s.dmaExec (.core c) ch (dOp (s.dch (.core c) ch).desc) = (State.dmaServe (.core c) ch k
        (s.course c ch s.cores[c].spd.mem DmaProg.zero (s.dmaTok (.core c)))).prefetch (.core c) ch := by
  have hstart : s.descStart (.core c) ch = s.course c ch s.cores[c].spd.mem DmaProg.zero (s.dmaTok (.core c)) := by
    simp only [State.descStart, h.busy, hp, State.prefetch_last h.last, decide_true, Bool.and_self, Bool.not_true, Bool.false_eq_true, if_false,
      hc, ne_eq, not_true_eq_false]
    exact State.underway_begins _
  have hlone : (s.course c ch s.cores[c].spd.mem DmaProg.zero (s.dmaTok (.core c))).Lone (.core c) ch := h.underway h.busy rfl
  have hall := h.startAll_fetched hp hstart hlone (by rw [State.course_dch]; exact DescPhase.noConfusion) (by rw [State.course_dch]; exact DescPhase.noConfusion)
  refine ⟨_, ?_, State.dmaExec_eq h.busy (.inl hp) rfl hall⟩
  have hbound (t : State) : 16 ≤ t.burstBound (.core c) := by
    have hlist : (List.range 8).map (Fin.ofNat 16) = [0, 1, 2, 3, 4, 5, 6, 7] := by decide
    simp only [State.burstBound, engChans, hlist, List.map_cons, List.sum_cons]
    omega
  exact hbound _

/-- What the module comes to when a lone descriptor ends. -/
theorem State.courseEnd_spec (r : DescEnd) : let t := s.courseEnd c ch m x r
    t.cores[c].spd.mem = m ∧ (t.dch (.core c) ch).phase = .executed ∧ (t.dch (.core c) ch).status = r.status ∧
      { t with cores := s.cores, dma := s.dma } = s := by
  simp only [State.courseEnd, State.underway_dch, State.underway_core, true_and]
  rfl

end

/-! ### A checked descriptor on the own scratchpad (R306, R307) -/

/-- A lone channel's fetched descriptor that keeps its checks: one row, source and destination in the own scratchpad, apart. -/
structure State.LocalOp (s : State) (c : CoreId) (ch : Fin 16) (d : Rec64) : Prop where
  lone    : s.Lone (.core c) ch
  desc    : (s.dch (.core c) ch).desc = d
  fetched : (s.dch (.core c) ch).phase = .fetched
  check   : s.descCheck (.core c) ch d = 0
  rem     : dRem d = false
  ssp     : dSsp d = true
  dsp     : dDsp d = true
  rows    : dRows d = 1
  apart   : dOverlap d = false

section
variable {s : State} {c : CoreId} {ch : Fin 16} {d : Rec64}

theorem State.descCheck_passes (h : s.descCheck (.core c) ch d = 0) (hrem : dRem d = false) : dBadField d false false = false ∧
    (∀ r ∈ dSrcRanges d, s.rangeOk (.core c) ch (dSsp d) false true r = true) ∧
    ∀ r ∈ dDstRanges d, s.rangeOk (.core c) ch (dDsp d) (decide (dOp d ≠ 2)) false r = true := by
  simp only [State.descCheck, hrem, isPriv] at h
  split_ifs at h with hbad hsrc hdst
  all_goals simp_all

theorem dNel_pos (h : dBadField d false false = false) : 0 < dNel d := by
  by_contra h0
  have hnel : dNel d = 0 := by omega
  have hbetween : between 1 (dNel d) 16777216 = false := by rw [hnel]; decide
  simp [dBadField, hbetween] at h

theorem rowsOf_one (a stride n : Nat) : rowsOf a stride 1 n = [(a, n)] := by simp [rowsOf]

/-- The rights a checked descriptor has been found to have on the own scratchpad. -/
theorem State.LocalOp.powered (h : s.LocalOp c ch d) : 0 < dNel d ∧
    (∀ r ∈ dSrcRanges d, s.cores[c].spd.poweredAll r.1 r.2 = true) ∧ ∀ r ∈ dDstRanges d, s.cores[c].spd.poweredAll r.1 r.2 = true := by
  obtain ⟨hbad, hsrc, hdst⟩ := State.descCheck_passes h.check h.rem
  rw [h.ssp] at hsrc
  rw [h.dsp] at hdst
  exact ⟨dNel_pos hbad, hsrc, hdst⟩

theorem State.LocalOp.powered_src (h : s.LocalOp c ch d) (ho : dOp d = 0 ∨ dOp d = 2) :
    s.cores[c].spd.poweredAll (dSrc d) (dNel d * 2 ^ dSw d) = true := by
  obtain ⟨-, hsrc, -⟩ := h.powered
  refine hsrc (dSrc d, dSrcRow d) ?_
  obtain ho | ho := ho <;> simp [dSrcRanges, ho, h.rows, rowsOf_one]

theorem State.LocalOp.powered_dst (h : s.LocalOp c ch d) (ho : dOp d ≠ 3) :
    s.cores[c].spd.poweredAll (dDst d) (dNel d * 2 ^ dDw d) = true := by
  obtain ⟨-, -, hdst⟩ := h.powered
  refine hdst (dDst d, dDstRow d) ?_
  unfold dDstRanges
  split
  · next h3 => exact absurd h3 ho
  · rw [h.rows, rowsOf_one]
    exact List.mem_singleton.mpr rfl

/-- A line's part of a range in powered banks is powered. -/
theorem SpdState.poweredAll_line {p : SpdState} {a n k : Nat} (h : p.poweredAll a n = true) (hn : 0 < n) (hk : a % 256 + k ≤ 256) :
    p.poweredAll a k = true := by
  simp only [SpdState.poweredAll, Bool.and_eq_true, Bool.or_eq_true, decide_eq_true_eq, List.all_eq_true, List.mem_range] at h ⊢
  have hsize : spdBytes = 0x800000 := rfl
  obtain ⟨hin, hbanks⟩ := h
  have hbank := (hbanks.resolve_left (by omega)) 0 (by omega)
  refine ⟨by omega, ?_⟩
  by_cases hk0 : k = 0
  · exact .inl hk0
  · refine .inr fun i hi => ?_
    have hi0 : i = 0 := by omega
    rw [hi0]
    exact hbank

/-! ### The elements of one line (R308) -/

theorem elemsOf_length (sw n : Nat) (bs : List Byte) : (elemsOf sw n bs).length = n := by
  induction n generalizing bs with
  | zero => rfl
  | succ n ih => rw [elemsOf, List.length_cons, ih]

theorem dmaRow_length (d : Rec64) (n : Nat) (bs : List Byte) : (dmaRow d n bs).1.length = n * 2 ^ dDw d := by
  simp [dmaRow, List.length_flatMap, leBytes_length, elemsOf_length, Function.comp_def]

theorem constants_length (k n v : Nat) : (List.replicate n (leBytes k v)).flatten.length = n * k := by
  simp [leBytes_length]

/-- A descriptor in one line of its source proceeds upward. -/
theorem dDown_false (h : dOp d = 0 → dSrc d % 256 + dSrcRow d ≤ 256) : dDown d = false := by
  rw [Bool.eq_false_iff]
  intro hdown
  simp only [dDown, dBankCopy, Bool.and_eq_true, decide_eq_true_eq] at hdown
  obtain ⟨⟨⟨⟨⟨⟨⟨⟨⟨hop, -⟩, -⟩, -⟩, -⟩, hsrc⟩, hdst⟩, -⟩, hlt⟩, hin⟩ := hdown
  have := h hop
  omega

theorem le_lineRest {a n k : Nat} (h : a % 256 + n * 2 ^ k ≤ 256) : n ≤ lineRest a / 2 ^ k := by
  rw [Nat.le_div_iff_mul_le (by positivity), lineRest]
  omega

/-- The whole of a row that lies in one line is taken up at once. -/
theorem DmaProg.chunk_whole {x : DmaProg} (hu : x.unit = 0) (hs : dOp d ≠ 1 → dSrc d % 256 + dNel d * 2 ^ dSw d ≤ 256)
    (hd : dOp d ≠ 0 → dDst d % 256 + dNel d * 2 ^ dDw d ≤ 256) : x.chunk d = ⟨0, dSrc d, dDst d, dNel d⟩ := by
  have hdown : dDown d = false := dDown_false fun h0 => hs (by omega)
  have hk : ∀ n, dNel d ≤ n → min n (dNel d) = dNel d := fun n hn => Nat.min_eq_right hn
  simp only [DmaProg.chunk, hdown, hu, Bool.false_eq_true, if_false, Nat.zero_mod, Nat.zero_div, Nat.zero_mul, Nat.add_zero, Nat.sub_zero]
  congr 1
  split
  · next h0 => exact hk _ (le_lineRest (hs (by omega)))
  · next h1 => exact hk _ (le_lineRest (hd (by omega)))
  · next h0 h1 => exact hk _ (le_min (le_lineRest (hs h1)) (le_lineRest (hd h0)))

theorem take_lineRest {a : Nat} {bs : List Byte} (h : a % 256 + bs.length ≤ 256) : bs.take (lineRest a) = bs :=
  List.take_of_length_le (by rw [lineRest]; omega)

theorem DmaProg.act_put {x : DmaProg} {a : Nat} {bs : List Byte} {rest : List (Nat × List Byte)} (hp : x.puts = (a, bs) :: rest)
    (h : a % 256 + bs.length ≤ 256) : x.act d = .put a bs := by
  simp only [DmaProg.act, hp, take_lineRest h]

theorem DmaProg.act_finish {x : DmaProg} (hp : x.puts = []) (hu : dUnits d ≤ x.unit) : x.act d = .finish := by
  simp only [DmaProg.act, hp, if_pos hu]

theorem DmaProg.putDone_formed {x : DmaProg} {a : Nat} {bs : List Byte} {rest : List (Nat × List Byte)} (hp : x.puts = (a, bs) :: rest) :
    x.putDone d a bs = { x with puts := rest, done := x.done + bs.length } := by
  simp only [DmaProg.putDone, hp, le_refl, if_true]

end

/-! ### The operations on one line (R308 to R311) -/

section
variable {s : State} {c : CoreId} {ch : Fin 16} {d : Rec64} {m : Mem} {x : DmaProg} {r : DescEnd}

theorem dUnits_local (h : s.LocalOp c ch d) : dUnits d = dNel d := by rw [dUnits, h.rows, Nat.mul_one]

/-- A descriptor's row comes to what its bursts come to. -/
theorem State.LocalOp.ends {op : Nat} (h : s.LocalOp c ch d) (ho : dOp d = op)
    (hserve : ∀ k tok, State.dmaServe (.core c) ch (k + 16) (s.course c ch s.cores[c].spd.mem DmaProg.zero tok) = s.courseEnd c ch m x r) :
    s.dmaExec (.core c) ch op = s.courseEnd c ch m x r := by
  obtain ⟨k, hk, hexec⟩ := h.lone.dmaExec_course h.fetched (by rw [h.desc]; exact h.check)
  obtain ⟨n, rfl⟩ := Nat.exists_eq_add_of_le' hk
  rw [h.desc, ho, hserve] at hexec
  rw [hexec]
  refine State.prefetch_last ?_
  rw [State.courseEnd, State.underway_dch]
  exact h.lone.last

/-- COPY of a row that lies in one line. -/
theorem State.LocalOp.copy (h : s.LocalOp c ch d) (ho : dOp d = 0) (hs : dSrc d % 256 + dNel d * 2 ^ dSw d ≤ 256)
    (hr : s.cores[c].spd.mayRead (dSrc d / 256) = true) (hd : dDst d % 256 + dNel d * 2 ^ dDw d ≤ 256)
    (hw : s.cores[c].spd.mayWrite (dDst d / 256) = true) :
    let row := dmaRow d (dNel d) (s.cores[c].spd.mem.read (dSrc d) (dNel d * 2 ^ dSw d))
    ∃ x, s.dmaExec (.core c) ch 0 = s.courseEnd c ch (s.cores[c].spd.mem.write (dDst d) row.1) x ⟨0, false, row.2, 0⟩ := by
  intro row
  have hnel : 0 < dNel d := h.powered.1
  have hunits := dUnits_local h
  have hlen : row.1.length = dNel d * 2 ^ dDw d := dmaRow_length ..
  have hchunk : DmaProg.zero.chunk d = ⟨0, dSrc d, dDst d, dNel d⟩ := DmaProg.chunk_whole rfl (fun _ => hs) (fun _ => hd)
  have hact : DmaProg.zero.act d = .src (dSrc d) (dNel d * 2 ^ dSw d) := by
    have hopen : ¬ dUnits d ≤ 0 := by omega
    simp only [DmaProg.act, DmaProg.zero, ho, if_neg hopen]
    exact congrArg (fun k : DmaChunk => DmaAct.src k.src (k.n * 2 ^ dSw d)) hchunk
  obtain ⟨x, hx⟩ : ∃ x : DmaProg, x = { DmaProg.zero with unit := dNel d, puts := [(dDst d, row.1)], satd := row.2 } := ⟨_, rfl⟩
  have htake (tok : Fin 16) : (s.course c ch s.cores[c].spd.mem DmaProg.zero tok).srcTaken d DmaProg.zero
      (s.cores[c].spd.mem.read (dSrc d) (dNel d * 2 ^ dSw d)) = (s.course c ch s.cores[c].spd.mem DmaProg.zero tok, x) := by
    simp only [State.srcTaken, ho, hchunk, hx]
    simp [DmaProg.zero, row]
  have hputs : x.puts = (dDst d, row.1) :: [] := by rw [hx]
  have hput : x.act d = .put (dDst d) row.1 := DmaProg.act_put hputs (by rw [hlen]; exact hd)
  have hdone := DmaProg.putDone_formed (d := d) hputs
  have hfinish : (x.putDone d (dDst d) row.1).act d = .finish := DmaProg.act_finish (by rw [hdone]) (by rw [hdone, hx, hunits])
  have hreport : (x.putDone d (dDst d) row.1).report d = ⟨0, false, row.2, 0⟩ := by
    rw [hdone, hx]
    simp [DmaProg.report, ho, DmaProg.zero]
  refine ⟨x.putDone d (dDst d) row.1, h.ends ho fun k tok => ?_⟩
  rw [← hreport]
  exact (h.lone.serve_src h.desc h.ssp hact hr (h.powered_src (.inl ho)) (htake ch) (k + 15)).trans
    ((h.lone.serve_put h.desc h.dsp h.rem hput hw (by rw [hlen]; exact h.powered_dst (by rw [ho]; decide)) (k + 14)).trans
      (h.lone.serve_finish h.desc hfinish h.apart (k + 13)))

/-- FILL of a row that lies in one line. -/
theorem State.LocalOp.fill (h : s.LocalOp c ch d) (ho : dOp d = 1) (hd : dDst d % 256 + dNel d * 2 ^ dDw d ≤ 256)
    (hw : s.cores[c].spd.mayWrite (dDst d / 256) = true) : ∃ x, s.dmaExec (.core c) ch 1 = s.courseEnd c ch
      (s.cores[c].spd.mem.write (dDst d) (List.replicate (dNel d) (leBytes (2 ^ dDw d) (dConst d))).flatten) x .clean := by
  obtain ⟨bs, hbs⟩ : ∃ bs, bs = (List.replicate (dNel d) (leBytes (2 ^ dDw d) (dConst d))).flatten := ⟨_, rfl⟩
  have hnel : 0 < dNel d := h.powered.1
  have hunits := dUnits_local h
  have hlen : bs.length = dNel d * 2 ^ dDw d := by rw [hbs, constants_length]
  have hchunk : DmaProg.zero.chunk d = ⟨0, dSrc d, dDst d, dNel d⟩ :=
    DmaProg.chunk_whole rfl (fun hne => absurd ho hne) (fun _ => hd)
  have hact : DmaProg.zero.act d = .put (dDst d) bs := by
    have hopen : ¬ dUnits d ≤ 0 := by omega
    simp only [DmaProg.act, DmaProg.zero, ho, if_neg hopen, hbs]
    exact congrArg (fun k : DmaChunk => DmaAct.put k.dst (List.replicate k.n (leBytes (2 ^ dDw d) (dConst d))).flatten) hchunk
  have hdone : DmaProg.zero.putDone d (dDst d) bs = { DmaProg.zero with unit := dNel d, done := bs.length } := by
    simp only [DmaProg.putDone, DmaProg.zero, hlen, Nat.zero_add, Nat.mul_div_cancel _ (Nat.two_pow_pos (dDw d))]
  have hfinish : (DmaProg.zero.putDone d (dDst d) bs).act d = .finish := DmaProg.act_finish (by rw [hdone]; rfl) (by rw [hdone, hunits])
  have hreport : (DmaProg.zero.putDone d (dDst d) bs).report d = .clean := by
    rw [hdone]
    simp [DmaProg.report, ho, DmaProg.zero, DescEnd.clean]
  refine ⟨DmaProg.zero.putDone d (dDst d) bs, h.ends ho fun k tok => ?_⟩
  rw [← hreport, ← hbs]
  exact (h.lone.serve_put h.desc h.dsp h.rem hact hw (by rw [hlen]; exact h.powered_dst (by rw [ho]; decide)) (k + 15)).trans
    (h.lone.serve_finish h.desc hfinish h.apart (k + 14))

/-- The elements a CMP compares: those of its source, converted, and those of its second operand. -/
def cmpWant (d : Rec64) (bs : List Byte) : List Nat := (elemsOf (dSw d) (dNel d) bs).map fun v => (dmaElem (dSw d) (dDw d) (dSgn d) (dSat d) v).1
def cmpHave (d : Rec64) (bs : List Byte) : List Nat := elemsOf (dDw d) (dNel d) bs

theorem findIdx?_zip_self {α : Type} [DecidableEq α] (l : List α) : (l.zip l).findIdx? (fun v => v.1 ≠ v.2) = none := by
  rw [List.findIdx?_eq_none_iff]
  intro v hv
  obtain ⟨i, hi, rfl⟩ := List.mem_iff_getElem.mp hv
  simp

theorem findIdx?_zip_first {α : Type} [DecidableEq α] {l k : List α} {j : Nat} (hl : j < l.length) (hk : j < k.length)
    (htake : l.take j = k.take j) (hne : l[j]? ≠ k[j]?) : (l.zip k).findIdx? (fun v => v.1 ≠ v.2) = some j := by
  rw [List.findIdx?_eq_some_iff_getElem]
  refine ⟨by simp [hl, hk], ?_, fun i hi => ?_⟩
  · rw [List.getElem?_eq_getElem hl, List.getElem?_eq_getElem hk, ne_eq, Option.some.injEq] at hne
    simpa using hne
  · have hsame : (l.take j)[i]? = (k.take j)[i]? := by rw [htake]
    rw [List.getElem?_take_of_lt hi, List.getElem?_take_of_lt hi, List.getElem?_eq_getElem (hi.trans hl), List.getElem?_eq_getElem (hi.trans hk),
      Option.some.injEq] at hsame
    simpa using hsame

/-- The source of a CMP has been read. -/
def DmaProg.holds (bs : List Byte) : DmaProg := { DmaProg.zero with got := bs }

theorem DmaProg.compare_same {bs : List Byte} (hc : x.chunk d = ⟨0, dSrc d, dDst d, dNel d⟩) (h : cmpWant d x.got = cmpHave d bs) :
    x.compare d bs = { x with unit := x.unit + dNel d, got := [], done := x.done + bs.length } := by
  have hnone : ((cmpWant d x.got).zip (cmpHave d bs)).findIdx? (fun v => v.1 ≠ v.2) = none := by rw [h, findIdx?_zip_self]
  simp only [cmpWant, cmpHave] at hnone
  simp only [DmaProg.compare, hc, hnone]

theorem DmaProg.compare_first {bs : List Byte} {j : Nat} (hc : x.chunk d = ⟨0, dSrc d, dDst d, dNel d⟩)
    (h : ((cmpWant d x.got).zip (cmpHave d bs)).findIdx? (fun v => v.1 ≠ v.2) = some j) : x.compare d bs =
      { x with unit := dUnits d, got := [], mism := true, val := (0 + j) * 2 ^ dDw d, done := (0 + j) * 2 ^ dDw d } := by
  simp only [cmpWant, cmpHave] at h
  simp only [DmaProg.compare, hc, h]

/-- The bursts of a CMP of rows that lie in one line each. -/
theorem State.LocalOp.cmp_bursts (h : s.LocalOp c ch d) (ho : dOp d = 2) (hs : dSrc d % 256 + dNel d * 2 ^ dSw d ≤ 256)
    (hr : s.cores[c].spd.mayRead (dSrc d / 256) = true) (hd : dDst d % 256 + dNel d * 2 ^ dDw d ≤ 256)
    (hr' : s.cores[c].spd.mayRead (dDst d / 256) = true) {src dst : List Byte} (hsrc : s.cores[c].spd.mem.read (dSrc d) (dNel d * 2 ^ dSw d) = src)
    (hdst : s.cores[c].spd.mem.read (dDst d) (dNel d * 2 ^ dDw d) = dst) (hx : (DmaProg.holds src).compare d dst = x)
    (hputs : x.puts = []) (hunit : dUnits d ≤ x.unit) (hrep : x.report d = r) :
    s.dmaExec (.core c) ch 2 = s.courseEnd c ch s.cores[c].spd.mem x r := by
  have hnel : 0 < dNel d := h.powered.1
  have hopen : ¬ dUnits d ≤ 0 := by rw [dUnits_local h]; omega
  have hchunk : DmaProg.zero.chunk d = ⟨0, dSrc d, dDst d, dNel d⟩ := DmaProg.chunk_whole rfl (fun _ => hs) (fun _ => hd)
  have hchunk' : (DmaProg.holds src).chunk d = ⟨0, dSrc d, dDst d, dNel d⟩ := DmaProg.chunk_whole rfl (fun _ => hs) (fun _ => hd)
  have hact : DmaProg.zero.act d = .src (dSrc d) (dNel d * 2 ^ dSw d) := by
    simp only [DmaProg.act, DmaProg.zero, ho, if_neg hopen]
    exact congrArg (fun k : DmaChunk => DmaAct.src k.src (k.n * 2 ^ dSw d)) hchunk
  have hgot : src.isEmpty = false := by
    have hlen : src.length = dNel d * 2 ^ dSw d := by rw [← hsrc, Mem.length_read]
    have hpos : 0 < src.length := by rw [hlen]; positivity
    exact List.isEmpty_eq_false_iff.mpr (List.ne_nil_of_length_pos hpos)
  have hact' : (DmaProg.holds src).act d = .dst (dDst d) (dNel d * 2 ^ dDw d) := by
    simp only [DmaProg.act, DmaProg.holds, DmaProg.zero, ho, if_neg hopen, hgot, Bool.false_eq_true, if_false]
    exact congrArg (fun k : DmaChunk => DmaAct.dst k.dst (k.n * 2 ^ dDw d)) hchunk'
  have htake : (s.course c ch s.cores[c].spd.mem DmaProg.zero ch).srcTaken d DmaProg.zero
      (s.cores[c].spd.mem.read (dSrc d) (dNel d * 2 ^ dSw d)) = (s.course c ch s.cores[c].spd.mem DmaProg.zero ch, DmaProg.holds src) := by
    simp only [State.srcTaken, ho, hsrc, DmaProg.holds]
  refine h.ends ho fun k tok => ?_
  refine (h.lone.serve_src h.desc h.ssp hact hr (h.powered_src (.inr ho)) htake (k + 15)).trans
    ((h.lone.serve_dst h.desc h.dsp hact' hr' (h.powered_dst (by rw [ho]; decide)) (k + 14)).trans ?_)
  rw [hdst, hx, ← hrep]
  exact h.lone.serve_finish h.desc (DmaProg.act_finish hputs hunit) h.apart (k + 13)

/-- CMP of rows that lie in one line each. -/
theorem State.LocalOp.cmp (h : s.LocalOp c ch d) (ho : dOp d = 2) (hs : dSrc d % 256 + dNel d * 2 ^ dSw d ≤ 256)
    (hr : s.cores[c].spd.mayRead (dSrc d / 256) = true) (hd : dDst d % 256 + dNel d * 2 ^ dDw d ≤ 256)
    (hr' : s.cores[c].spd.mayRead (dDst d / 256) = true) :
    let want := cmpWant d (s.cores[c].spd.mem.read (dSrc d) (dNel d * 2 ^ dSw d))
    let have' := cmpHave d (s.cores[c].spd.mem.read (dDst d) (dNel d * 2 ^ dDw d))
    (want = have' → ∃ x, s.dmaExec (.core c) ch 2 = s.courseEnd c ch s.cores[c].spd.mem x ⟨0, false, false, 0xFFFFFFFF⟩) ∧
    ∀ j < dNel d, want.take j = have'.take j → want[j]? ≠ have'[j]? → ∃ x, s.dmaExec (.core c) ch 2 =
      s.courseEnd c ch s.cores[c].spd.mem x ⟨0, true, false, j * 2 ^ dDw d⟩ := by
  intro want have'
  have hbursts {x : DmaProg} {r : DescEnd} := h.cmp_bursts (x := x) (r := r) ho hs hr hd hr' rfl rfl
  have hchunk (src : List Byte) : (DmaProg.holds src).chunk d = ⟨0, dSrc d, dDst d, dNel d⟩ :=
    DmaProg.chunk_whole rfl (fun _ => hs) (fun _ => hd)
  refine ⟨fun heq => ⟨_, hbursts (DmaProg.compare_same (hchunk _) heq) rfl ?_ ?_⟩, fun j hj htake hne =>
    ⟨_, hbursts (DmaProg.compare_first (hchunk _) (findIdx?_zip_first ?_ ?_ htake hne)) rfl le_rfl ?_⟩⟩
  · rw [dUnits_local h]
    exact Nat.le_add_left ..
  · simp [DmaProg.report, ho, DmaProg.holds, DmaProg.zero]
  · simp [cmpWant, elemsOf_length, hj]
  · simp [cmpHave, elemsOf_length, hj]
  · simp [DmaProg.report, DmaProg.holds, DmaProg.zero]

theorem Mem.write_nil (m : Mem) (a : Nat) : m.write a [] = m := rfl

theorem indexEntry_zero (t : State) (p : Nat) : t.indexEntry p 0 = (t, leBytes 8 (p * 2 ^ 32)) := by
  simp [State.indexEntry]

/-- COMPRESS of one line whose record lies in one line. -/
theorem State.LocalOp.compress (h : s.LocalOp c ch d) (ho : dOp d = 3) (hn : dNel d = 1) (hs : dSrc d % 256 = 0)
    (hr : s.cores[c].spd.mayRead (dSrc d / 256) = true) {z : Nat × List Byte}
    (hz : compressLine (dCfmt d) (dZcode d) (leNat (s.cores[c].spd.mem.read (dSrc d) 256)) = z) (hd : dDst d % 256 + 8 ≤ 256)
    (hrec : dDoff d % 256 + z.2.length ≤ 256) (hw : s.cores[c].spd.mayWrite (dDst d / 256) = true)
    (hw' : s.cores[c].spd.mayWrite (dDoff d / 256) = true) : ∃ x, s.dmaExec (.core c) ch 3 = s.courseEnd c ch
      ((s.cores[c].spd.mem.write (dDst d) (leBytes 8 (z.1 * 2 ^ 32))).write (dDoff d) z.2) x ⟨0, false, false, z.2.length⟩ := by
  obtain ⟨-, hsrc, hdst⟩ := h.powered
  have hunits : dUnits d = 1 := (dUnits_local h).trans hn
  have hpsrc : s.cores[c].spd.poweredAll (dSrc d) 256 = true := hsrc (dSrc d, 256) (by simp [dSrcRanges, ho, hn])
  have hpdst : s.cores[c].spd.poweredAll (dDst d) 8 = true := hdst (dDst d, 8) (by simp [dDstRanges, ho, hn])
  have hworst : 0 < dWorst d := by
    unfold dWorst
    split
    · exact Nat.succ_pos _
    · split <;> exact Nat.succ_pos _
  have hprec : s.cores[c].spd.poweredAll (dDoff d) z.2.length = true :=
    SpdState.poweredAll_line (hdst (dDoff d, dWorst d) (by simp [dDstRanges, ho, hn])) hworst hrec
  obtain ⟨entry, hentry⟩ : ∃ bs, bs = leBytes 8 (z.1 * 2 ^ 32) := ⟨_, rfl⟩
  have hlen : entry.length = 8 := by rw [hentry, leBytes_length]
  have hact : DmaProg.zero.act d = .src (dSrc d) 256 := by
    have hopen : ¬ dUnits d ≤ 0 := by omega
    simp [DmaProg.act, DmaProg.zero, ho, hopen, lineRest, hs]
  obtain ⟨rest, hrest⟩ : ∃ l : List (Nat × List Byte), l = if z.2.isEmpty then [] else [(dDoff d, z.2)] := ⟨_, rfl⟩
  obtain ⟨x, hx⟩ : ∃ x : DmaProg, x = { DmaProg.zero with unit := 1, val := z.2.length, puts := (dDst d, entry) :: rest } := ⟨_, rfl⟩
  have htake : (s.course c ch s.cores[c].spd.mem DmaProg.zero ch).srcTaken d DmaProg.zero (s.cores[c].spd.mem.read (dSrc d) 256) =
      (s.course c ch s.cores[c].spd.mem DmaProg.zero ch, x) := by
    have hwhole : ¬ (s.cores[c].spd.mem.read (dSrc d) 256).length < 256 := by rw [Mem.length_read]; exact Nat.lt_irrefl _
    simp only [State.srcTaken, ho, DmaProg.zero, List.nil_append, if_neg hwhole, hz, indexEntry_zero, hx, hrest, hentry, Nat.zero_add,
      Nat.mul_zero, Nat.add_zero]
  have hput : x.act d = .put (dDst d) entry := DmaProg.act_put (rest := rest) (by rw [hx]) (by rw [hlen]; exact hd)
  have hdone : x.putDone d (dDst d) entry = { x with puts := rest, done := x.done + entry.length } := DmaProg.putDone_formed (by rw [hx])
  obtain ⟨y, hy⟩ : ∃ y, y = x.putDone d (dDst d) entry := ⟨_, rfl⟩
  have hyputs : y.puts = rest := by rw [hy, hdone]
  have hyunit : dUnits d ≤ y.unit := by rw [hy, hdone, hx, hunits]
  have hyreport : y.report d = ⟨0, false, false, z.2.length⟩ := by
    rw [hy, hdone, hx]
    simp [DmaProg.report, ho, DmaProg.zero]
  rw [← hentry]
  have hfirst (k : Nat) (tok : Fin 16) : State.dmaServe (.core c) ch (k + 16) (s.course c ch s.cores[c].spd.mem DmaProg.zero tok) =
      State.dmaServe (.core c) ch (k + 14) (s.course c ch (s.cores[c].spd.mem.write (dDst d) entry) y ch) := by
    rw [hy]
    exact (h.lone.serve_src h.desc h.ssp hact hr hpsrc htake (k + 15)).trans
      (h.lone.serve_put h.desc h.dsp h.rem hput hw (by rw [hlen]; exact hpdst) (k + 14))
  cases hempty : z.2.isEmpty with
  | true =>
    have hnil : z.2 = [] := List.isEmpty_iff.mp hempty
    rw [hempty] at hrest
    refine ⟨y, h.ends ho fun k tok => (hfirst k tok).trans ?_⟩
    rw [hnil, Mem.write_nil]
    rw [hnil] at hyreport
    rw [← hyreport]
    exact h.lone.serve_finish h.desc (DmaProg.act_finish (hyputs.trans hrest) hyunit) h.apart (k + 13)
  | false =>
    rw [hempty] at hrest
    have hyput : y.act d = .put (dDoff d) z.2 := DmaProg.act_put (hyputs.trans hrest) hrec
    have hydone : y.putDone d (dDoff d) z.2 = { y with puts := [], done := y.done + z.2.length } := DmaProg.putDone_formed (hyputs.trans hrest)
    have hfinish : (y.putDone d (dDoff d) z.2).act d = .finish := DmaProg.act_finish (by rw [hydone]) (by rw [hydone]; exact hyunit)
    have hreport : (y.putDone d (dDoff d) z.2).report d = ⟨0, false, false, z.2.length⟩ := by
      rw [hydone, ← hyreport]
      rfl
    refine ⟨y.putDone d (dDoff d) z.2, h.ends ho fun k tok => (hfirst k tok).trans ?_⟩
    rw [← hreport]
    exact (h.lone.serve_put h.desc h.dsp h.rem hyput hw' hprec (k + 13)).trans (h.lone.serve_finish h.desc hfinish h.apart (k + 12))

end

/-! ### The rows of the four operations -/

section
variable {s : State} {e : DmaEng} {c : CoreId} {ch : Fin 16} {m : Mem} {r : DescEnd} {i : Instr}

/-- The row of a descriptor's operation executes it. -/
theorem exec_dmaRow (hok : dmaChanOk e ch = true) {op : Nat} (h : (i = .dmaCopy e ch ∧ op = 0) ∨ (i = .dmaFill e ch ∧ op = 1) ∨
    (i = .dmaCmp e ch ∧ op = 2) ∨ (i = .dmaCompress e ch ∧ op = 3)) : exec i s = .next (s.dmaExec e ch op) := by
  obtain ⟨rfl, rfl⟩ | ⟨rfl, rfl⟩ | ⟨rfl, rfl⟩ | ⟨rfl, rfl⟩ := h <;> exact inRange_of_ok hok

/-- A row that brings a descriptor to its end. -/
theorem exec_courseEnd {t : State} (hexec : exec i s = .next t) (h : ∃ x, t = s.courseEnd c ch m x r) : ∃ t, exec i s = .next t ∧
    t.cores[c].spd.mem = m ∧ (t.dch (.core c) ch).phase = .executed ∧ (t.dch (.core c) ch).status = r.status ∧
    { t with cores := s.cores, dma := s.dma } = s := by
  obtain ⟨x, rfl⟩ := h
  exact ⟨_, hexec, State.courseEnd_spec r⟩

end

/-- Settles O33: a lone descriptor's bursts are followed one by one, from its checks to its STATUS. -/
theorem dmaDescriptors : Obligations.DmaDescriptors := by
  unfold Obligations.DmaDescriptors
  intro s e ch hok x d alone row
  have hlone (h : alone) : s.Lone e ch := ⟨dmaChanOk_iff.mp hok, h.1, h.2.1, h.2.2⟩
  refine ⟨?operations, fun i hi ha hp hc => ?bad, fun i hi ha hp hm => ?waits, fun o h => State.dmaGrant_spec h, fun hb hh hd hf hbad hw => ?half,
    fun hb hp hc hh hd hbad => ?done, fun hb => ?parity, fun y he hv => DescEnd.status_spec he hv, fun sw dw v _ _ hv =>
      ⟨dmaElem_signed sw dw v, dmaElem_clamps hv, dmaElem_wraps hv⟩⟩
  case operations =>
    rintro c rfl ha hp hc hrem hs hd hrows hover
    have h : s.LocalOp c ch d := ⟨hlone ha, rfl, hp, hc, hrem, hs, hd, hrows, hover⟩
    refine ⟨fun ho hsrc hdst hw => ?copy, fun ho hdst hw => ?fill, fun ho hsrc hdst hr => ?cmp, fun ho hn hsrc hr hdst hrec hw hw' => ?compress⟩
    case copy => exact exec_courseEnd (exec_dmaRow hok (.inl ⟨rfl, rfl⟩)) (h.copy ho hsrc.1 hsrc.2 hdst hw)
    case fill => exact exec_courseEnd (exec_dmaRow hok (.inr (.inl ⟨rfl, rfl⟩))) (h.fill ho hdst hw)
    case cmp =>
      obtain ⟨hsame, hfirst⟩ := h.cmp ho hsrc.1 hsrc.2 hdst hr
      have hrow : exec (.dmaCmp (.core c) ch) s = .next (s.dmaExec (.core c) ch 2) := exec_dmaRow hok (.inr (.inr (.inl ⟨rfl, rfl⟩)))
      exact ⟨fun heq => exec_courseEnd hrow (hsame heq), fun j hj htake hne => exec_courseEnd hrow (hfirst j hj htake hne)⟩
    case compress =>
      exact exec_courseEnd (exec_dmaRow hok (.inr (.inr (.inr ⟨rfl, rfl⟩)))) (h.compress ho hn hsrc hr rfl hdst hrec hw hw')
  case bad => exact (exec_dmaRow hok hi).trans (congrArg Host.Outcome.next (State.dmaExec_bad (hlone ha) hp rfl hc))
  case waits => exact (exec_dmaRow hok hi).trans (congrArg Host.Outcome.next (State.dmaExec_waits (hlone ha) hp rfl hm))
  case half => exact (inRange_of_ok hok).trans (congrArg Host.Outcome.next (State.halfSignal_due hb hh hd hf hbad hw))
  case done => exact (inRange_of_ok hok).trans (congrArg Host.Outcome.next (State.descDone_plain hb hp hc hh hd hbad))
  case parity =>
    refine ⟨_, inRange_of_ok hok, ?_⟩
    rw [State.dmaParity_dch hb]
    exact ⟨rfl, rfl, rfl⟩

end Sys2Proof.Machine
end
